-- ==== Sys2Proof/Word.lean ====
section
/-! DEFINITION. The machine's words: a register word of 32 bits (R4) and a byte of memory (R29). -/

namespace Sys2Proof

/-- A register word, 32 bits (R29). -/
abbrev Word := BitVec 32

/-- A byte of memory. -/
abbrev Byte := BitVec 8

end Sys2Proof
end

