-- ==== Sys2Proof/Types.lean ====
section
/-! DEFINITION. The operand types of the commands: requesters and access widths, what a node samples, and the peer link's
messages between two duplex units (spec/16_duplex_failover.md), whose content the spec gives and whose bytes it does not
(notes/assumptions/40.md). -/

namespace Sys2Proof

/-- The kinds of requester of VIOL_SRC.KIND (R469): a core, a DMA channel, a PCIe function, a port (debug, plant, snapshot). -/
inductive ReqKind where
  | core | dma | pcie | port
  deriving DecidableEq, Repr

/-- Who makes an access: its kind, its index among that kind, its protection domain, and the strand that issued it (for
checks that name a supervisor strand; `none` for a requester that is no strand). -/
structure Requester where
  kind : ReqKind
  index : Nat
  dom : Nat
  strand : Option Nat
  deriving DecidableEq, Repr

/-- Access widths of R29. -/
inductive Size where
  | b1 | b2 | b4 | b8
  deriving DecidableEq, Repr

/-- The causes of a loopback (R75). -/
inductive LoopCause where
  | linkIn | linkOut | reverseOnly | loopOut
  deriving DecidableEq, Repr

/-- What a node measures for one of its axes at S(N): the uplink words of R43. -/
structure AxisSample where
  astat : BitVec 16
  ia : BitVec 16
  ib : BitVec 16
  ic : BitVec 16
  pos : Word
  vbus : BitVec 16
  aux : BitVec 16
  deriving DecidableEq, Repr

end Sys2Proof

namespace Sys2Proof.Machine

/-- A segment of constant jerk (R134): duration in ns, jerk, start state; `vt` marks the last piece of a velocity change,
which ends at that velocity with no acceleration (R135). -/
structure Seg where
  dur : Nat
  j : Word
  x : Int
  v : Word
  a : Word
  vt : Option Word := none
  deriving DecidableEq, Repr

/-- The generator of an axis (R134 to R143): the instant its first segment starts (cycle and ns from that cycle's CSTART),
the segments, the state at their end, and X_TGT × 2^16 of a position move. -/
structure Gen where
  cyc : Nat := 0
  ofs : Int := 0
  segs : List Seg := []
  x : Int := 0
  v : Word := 0
  a : Word := 0
  tgt : Option Int := none
  deriving DecidableEq, Repr

/-! ## What duplex units send each other (R397, R402, R404, R405, R409, R410) -/

/-- A class A record (R404): the state of one axis. `hitch` is its engagement, blend, direction and S_OFS in use. -/
structure AxMirror where
  axis : Nat
  mode : Nat
  status : Nat
  fbRun : Nat
  xAct : Int
  posPrev : Nat
  xRef : Int
  vRef : Nat
  feAt : Option Nat
  hOn : Bool
  hBlend : Bool
  hNeg : Bool
  hOfs : Int
  hOfsUsed : Nat
  hStart : Int
  hRho : Word
  hMaster : Int
  repBin : Nat
  repSum : Word
  repN : Nat
  iv : Word
  id : Word
  iq : Word
  nb : List (Word × Word)
  deriving DecidableEq, Repr

/-- A mirror record (R404, R405): class C as register words, class A, class G as address, staged and active word with the
boundary it names, class P as an axis's generator, class K as a slot's registers, entries and decision, a piece of class F,
the end of a cycle's mirror with its record count and whether its CRC checks, and the end of a full copy. -/
inductive MirrorRec where
  | classC (cyc : Nat) (words : List (Nat × Nat))
  | classA (a : AxMirror)
  | classG (cyc : Nat) (words : List (Nat × Nat × Nat))
  | classP (cyc axis : Nat) (g : Gen) (modeCyc : Nat)
  | classK (cyc slot : Nat) (words : List (Nat × Nat)) (ents : List (List Nat)) (go : Option Bool)
  | region (r cyc : Nat) (data : List Byte) (last : Bool)
  | endOf (cyc count : Nat) (good : Bool)
  | copyDone
  deriving DecidableEq, Repr

/-- An accepted payload forwarded to the partner in a planned splice (R409): axis, ACTL and the three words. -/
structure Forward where
  axis : Nat
  tgt : Nat
  xref : Int
  vref : Nat
  payload : List Nat
  succ : List Nat
  deriving DecidableEq, Repr

/-- A message on the peer link (R397, R402, R409, R410). -/
inductive PeerMsg where
  | heartbeat (serial cyc state : Nat) (hot : Bool)
  | sreq (k : Nat)
  | sack (k : Nat)
  | sabort
  | takeback
  | copy (r : Nat) (frame : List Byte)
  | returned (r : Nat) (frame : List Byte)
  | payload (p : Forward)
  deriving DecidableEq, Repr

end Sys2Proof.Machine
end

