-- ==== Sys2Proof/Syntax.lean ====
section
/-! DEFINITION. The commands of the block: one constructor of `Instr` per row of spec/opcode_table.json, in its order.

A command that a rule describes as a register write carries its requester (`who`), because the access is checked like any
other (R29, R178, R315, R468). An event command IS its event: the sender states that its instant has come. A Lyshief command
names the core `c` it issues on, its guard field `G` (R249) and the fields of its format, so that reserved field values can
still raise their exception. -/

namespace Sys2Proof

/-- The commands. -/
inductive Instr where
  /-- REGISTER_WRITE (R5). A write to a register that has no row of its own, handled by its access type, domain rights and the block's access rules. -/
  | registerWrite (who : Requester) (addr : BitVec 52) (size : Size) (data : BitVec 64)
  /-- CROSSING_TIMER_EXPIRY (R20). A crossing timer expires with no acknowledge: the transfer is abandoned, the channel is marked failed and the event is logged. -/
  | crossingTimerExpiry (src dst : Fin 44)
  /-- BEACON (R21). TIM sends a beacon every 1,024 ns, and every replica corrects its rate and phase from it. -/
  | beacon (seen : BitVec 44)
  /-- REPLICA_LOCK (R21). A replica becomes locked after 64 consecutive valid beacons. -/
  | replicaLock (isl : Fin 44)
  /-- REPLICA_UNLOCK (R22). A replica that misses 4 consecutive beacons becomes unlocked, with the reaction of its island. -/
  | replicaUnlock (isl : Fin 44)
  /-- TIMED_ACTION_ARRIVAL (R24). An action with a target stamp arrives at the island that owns the output and is judged early or late. -/
  | timedActionArrival (isl : Fin 44) (out : Nat) (dom : Fin 2) (tAct : Word) (value : Nat)
  /-- TIMED_ACTION_PERFORM (R24). The island's replica reaches t_act and the action is performed, with equal stamps taken in arrival order. -/
  | timedActionPerform (isl : Fin 44) (out : Nat)
  /-- DEBUG_HALT (R12). A debugger, a BRK with a debugger attached or a JTAG request halts execution of a core, which freezes its governed channels and starts their halt-dwell timers. -/
  | debugHalt (c : Fin 36)
  /-- HALT_END (R345). A halt ends, the freeze ends and the channels take up their commanded state at the next period start. -/
  | haltEnd (c : Fin 36)
  /-- DEBUG_PORT_RESET (R20). The debug port requests a device reset, which resets every island and clears every failed channel. -/
  | debugPortReset
  /-- PORT_LINK_CHANGE (R35). A head or tail port link goes up or down or changes speed, with a discovery restart at a lower speed where the link is slow. -/
  | portLinkChange (r : Fin 4) (tail up : Bool) (speed : Fin 3)
  /-- RING_PORT_ENABLE (R62). A write of CTRL.EN = 1 starts LISTEN with a fresh window, or sets CFGERR when OUI is 0. -/
  | ringPortEnable (who : Requester) (r : Fin 4)
  /-- RING_PORT_DISABLE (R62). A write of CTRL.EN = 0 returns the port to IDLE after the current cycle. -/
  | ringPortDisable (who : Requester) (r : Fin 4)
  /-- LISTEN_WINDOW_EXPIRY (R60). The listen window W expires with no valid cycle seen, and the port starts DISCOVER. -/
  | listenWindowExpiry (r : Fin 4)
  /-- RING_RUN (R62). A write of CTRL.RUN = 1 in CONFIG starts cyclic frames from the next cycle start. -/
  | ringRun (who : Requester) (r : Fin 4)
  /-- RING_REDISCOVER (R62). A write of CTRL.REDISCOVER stops cyclic frames and restarts discovery. -/
  | ringRediscover (who : Requester) (r : Fin 4)
  /-- RING_HEAL (R77). A write of CTRL.HEAL in DUALFEED starts a heal, or sets HEALERR when the break links have not been up for HEAL_WAIT. -/
  | ringHeal (who : Requester) (r : Fin 4)
  /-- RING_CNTCLR (R62). A write of CTRL.CNTCLR clears every counter of the ring. -/
  | ringCntclr (who : Requester) (r : Fin 4)
  /-- HEAL_TIMEOUT (R77). At H + 8 a break node still reports looped: HEALERR is set, LOOP_OUT is sent and DUALFEED is kept. -/
  | healTimeout (r : Fin 4)
  /-- FRAME_SEND (R40). A frame of the cycle leaves a port at its departure stamp, with the released or fallback payloads, the knot fields, the heartbeat and the safety containers. -/
  | frameSend (r : Fin 4) (f : Fin 16)
  /-- RING_FRAME_RECEIVE (R54). A ring port receives a frame whole and checks FCS, lengths and HITS before splitting the datagrams into operand tags. -/
  | ringFrameReceive (r : Fin 4) (tail : Bool) (frame : List Byte)
  /-- RETURN_LIMIT_EXPIRY (R76). The last frame of a cycle has not returned by RETURN_LIMIT: BREAK is set and the port enters DUALFEED. -/
  | returnLimitExpiry (r : Fin 4)
  /-- NODE_MISSING (R73). MISS_LIMIT consecutive cycles without the node's datagrams declare it missing, send DROP and reserve its address. -/
  | nodeMissing (r : Fin 4) (a : Fin 64)
  /-- NODE_RETRY_EXPIRY (R74). NODE_RETRY expires for a reserved address, which becomes FREE, unless a claim carries the same stamp. -/
  | nodeRetryExpiry (r : Fin 4) (a : Fin 64)
  /-- NODE_ACCEPT (R74). A write of ACCEPT by DOM[0] reads PHASH again, records it and clears HASH_MISMATCH. -/
  | nodeAccept (who : Requester) (r : Fin 4) (a : Fin 64)
  /-- NODE_FRAME_PROCESS (R50). A node processes a frame in forward travel: HOPS, CORR, its datagrams, HITS and a new FCS. -/
  | nodeFrameProcess (r : Fin 4) (nd : Fin 64) (frame : List Byte)
  /-- NODE_REVERSE_FORWARD (R51). A node forwards a reverse-travel frame with CORR updated, stamping DELAY slots. -/
  | nodeReverseForward (r : Fin 4) (nd : Fin 64) (frame : List Byte)
  /-- NODE_ADDRESS_TAKE (R68). A claimant takes its granted address at cycle GCYC. -/
  | nodeAddressTake (r : Fin 4) (nd : Fin 64)
  /-- NODE_CLAIM_TIMEOUT (R68). A claimant sees no grant naming its serial by the end of cycle N + 8 and claims again at the next OPEN bight. -/
  | nodeClaimTimeout (r : Fin 4) (nd : Fin 64)
  /-- NODE_SAMPLE (R56). A locked node samples currents and position at S(N). -/
  | nodeSample (r : Fin 4) (nd : Fin 64) (samples : List AxisSample)
  /-- NODE_APPLY (R56). A node applies its held downlink at A(N), together with any knot shadows decided GO. -/
  | nodeApply (r : Fin 4) (nd : Fin 64)
  /-- NODE_LOST_CYCLE (R72). A node without a good frame of cycle N by A(N) applies its FB_MODE, and on the 9th lost cycle leaves the ring. -/
  | nodeLostCycle (r : Fin 4) (nd : Fin 64)
  /-- NODE_LOOPBACK (R75). A node loops back on link loss, on 2 cycles with only reverse frames, or on LOOP_OUT. -/
  | nodeLoopback (r : Fin 4) (nd : Fin 64) (cause : LoopCause)
  /-- NODE_HEALNOW (R77). A break node leaves loopback at the end of the first cycle in which it saw HEALNOW. -/
  | nodeHealnow (r : Fin 4) (nd : Fin 64)
  /-- NODE_RESET (R510). A node resets and loses its address, MSEQ, shadows and accepted container, and every bridge is off. -/
  | nodeReset (r : Fin 4) (nd : Fin 64)
  /-- NODE_SAFETY_WATCHDOG (R380). A node that accepts no container for WDC consecutive cycles puts every axis in STO. -/
  | nodeSafetyWatchdog (r : Fin 4) (nd : Fin 64)
  /-- MAILBOX_NOP (R511). A node executes a NOP request, which changes nothing. -/
  | mailboxNop (r : Fin 4) (nd : Fin 64) (seq : Byte)
  /-- MAILBOX_READ (R511). A node executes a READ request and returns the object's value. -/
  | mailboxRead (r : Fin 4) (nd : Fin 64) (seq : Byte) (obj : BitVec 16)
  /-- MAILBOX_WRITE (R511). A node executes a WRITE request to an object, with the result codes of R511. -/
  | mailboxWrite (r : Fin 4) (nd : Fin 64) (seq : Byte) (obj : BitVec 16) (value : List Byte)
  /-- KNOT_PREP (R511). A node stores a shadow value of a knot for an object, or refuses it. -/
  | knotPrep (r : Fin 4) (nd : Fin 64) (seq : Byte) (knot : BitVec 8) (obj : BitVec 16) (value : List Byte)
  /-- KNOT_SEAL (R511). A node seals a knot when the count matches its KNOT_PREP requests, otherwise discards the knot's shadows. -/
  | knotSeal (r : Fin 4) (nd : Fin 64) (seq : Byte) (knot count : BitVec 8)
  /-- KNOT_CANCEL (R213). A node discards every shadow value of the knot named. -/
  | knotCancel (r : Fin 4) (nd : Fin 64) (seq : Byte) (knot : BitVec 8)
  /-- MAILBOX_UNKNOWN_OP (R511). A node answers a request with a reserved MOP with result 0x08 and changes nothing. -/
  | mailboxUnknownOp (r : Fin 4) (nd : Fin 64) (seq mop : Byte)
  /-- CYCLE_BOUNDARY (R206). At CSTART(N) the P9 takes staged ring and time values, applies the knots, takes the axis commits and fires the OFFSET 0 marks. -/
  | cycleBoundary
  /-- RELEASE_ARRIVAL (R308). A release reaches the release unit, is stamped and checked for epoch, format, deadline, target and room, and is accepted or discarded. -/
  | releaseArrival
  /-- SEQ_GAP_EXPIRY (R310). GAPT expires while record NEXT is missing and a skip entry is written. -/
  | seqGapExpiry (f : Fin 64)
  /-- RELEASE_DEADLINE (R86). A release deadline passes with no accepted release and the release unit inserts the fallback payload. -/
  | releaseDeadline (a : Fin 256)
  /-- LATE_EVENT (R126). FB_RUN reaches FB_LIMIT consecutive fallback payloads and the LATE supervisor action is taken. -/
  | lateEvent (a : Fin 256)
  /-- MARK_FIRE (R91). An enabled cycle mark fires at CSTART(N) + OFFSET and performs TAGEN, IRQ and SNAP. -/
  | markFire (r : Fin 4) (m : Fin 16)
  /-- STANDARD_LOOP_ACTIVATION (R94). An axis strand runs the standard loop from intake to release, with the mode transitions, profiles, hitches and learning of that activation. -/
  | standardLoopActivation (a : Fin 256)
  /-- PROFILE_DONE (R141). The last segment of a plan ends, x is set to X_TGT and PDONE is set. -/
  | profileDone (a : Fin 256)
  /-- RAMPED_STOP_END (R143). A ramped stop ends, STOPPING clears and the mode becomes HOLD. -/
  | rampedStopEnd (a : Fin 256)
  /-- STEP_TIMEOUT (R131). N_VALID + N_LOST reaches 16 × ID_NMEAS and the sweep is aborted with reason STEP_TIMEOUT. -/
  | stepTimeout (a : Fin 256)
  /-- FEEDBACK_LANDING (R194). An axis's feedback lands, updating the snapshot, extending X_ACT, evaluating the following error and filling FB_TAG. -/
  | feedbackLanding (a : Fin 256)
  /-- FE_TIMER_EXPIRY (R121). The following-error timer expires, FE latches and FE_ACT is taken. -/
  | feTimerExpiry (a : Fin 256)
  /-- FBLOSS_EVENT (R120). Feedback is missing or invalid for FBLOSS_CYC consecutive cycles, FBLOSS latches and its action is taken. -/
  | fblossEvent (a : Fin 256)
  /-- LIMIT_INPUT_ACTIVE (R159). A limit input holds its active level for LIM.FILT, LIMP or LIMN latches and the stop is requested. -/
  | limitInputActive (a : Fin 256) (neg : Bool)
  /-- AXIS_COMMIT_REQUEST (R180). A write of CMT.GO requests a commit of the axis at the next boundary. -/
  | axisCommitRequest (who : Requester) (a : Fin 256) (gmask : BitVec 11)
  /-- AXIS_CNTCLR (R185). A write of CNTCLR.CLR clears FB_CNT, LATE_CNT and NUM_CNT. -/
  | axisCntclr (who : Requester) (a : Fin 256)
  /-- KNOT_OPEN (R202). An OPEN command reserves pool entries for a FREE knot slot, or is refused with SIZE or POOL. -/
  | knotOpen (who : Requester) (k : Fin 64) (size : BitVec 10)
  /-- KNOT_ADD (R201). An ADD command stores one entry in an open knot after its checks, or sets ADDERR. -/
  | knotAdd (who : Requester) (k : Fin 64)
  /-- KNOT_CLOSE (R205). A CLOSE command fixes the commit cycle and moves the knot to WAIT or PREPARE, or makes it VOID. -/
  | knotClose (who : Requester) (k : Fin 64)
  /-- KNOT_SLOT_CANCEL (R216). A CANCEL command before the decision instant makes the knot VOID; a later one is ignored. -/
  | knotSlotCancel (who : Requester) (k : Fin 64)
  /-- KNOT_RELEASE (R203). A RELEASE command frees a DONE or VOID knot slot. -/
  | knotRelease (who : Requester) (k : Fin 64)
  /-- KNOT_ANNOUNCE (R211). At t_dec(CCYC − 3) a prepared knot is announced on its rings, or made VOID when prepare is incomplete. -/
  | knotAnnounce (k : Fin 64)
  /-- KNOT_DECIDE (R211). At t_dec(CCYC) the engine checks ARMED reports and staged values, decides GO or VOID and locks the covered registers. -/
  | knotDecide (k : Fin 64)
  /-- KNOT_CONFIRM_END (R214). The confirmation window ends at t_dec(CCYC + 4), outcomes are fixed and FAULT_ACT is applied where required. -/
  | knotConfirmEnd (k : Fin 64)
  /-- OFS_IN_WRITE (R226). A write of Dx.OFS_IN replaces the residual offset, which is slewed or stepped. -/
  | ofsInWrite (who : Requester) (d : Fin 2) (v : Word)
  /-- RATE_WRITE (R227). A write of Dx.RATE stores a limited value that the counter reaches by its ramp. -/
  | rateWrite (who : Requester) (d : Fin 2) (v : Word)
  /-- HOLDOVER (R228). A SERVO domain receives no OFS_IN write for HOLD_MS, sets HOLDOVER and keeps its rate. -/
  | holdover (d : Fin 2)
  /-- SWITCH_OVER_START (R232). A write of SW.GO starts a grid-domain switch-over, or refuses it with SWERR. -/
  | switchOverStart (who : Requester) (target : Fin 2)
  /-- TIME_SNAP (R240). A write of SNAP latches both domain counters in one TIM clock. -/
  | timeSnap (who : Requester)
  /-- EPOCH_WRITE (R231). A write of EPOCH_SEC_HI makes the four epoch registers take effect together. -/
  | epochWrite (who : Requester) (d : Fin 2) (secHi : BitVec 16)
  /-- PTP_FIFO_READ (R240). A read of RX_INFO or TX_INFO returns and removes the FIFO head entry. -/
  | ptpFifoRead (who : Requester) (i : Fin 2) (tx : Bool)
  /-- TEO_PUSH (R238). A write of Q_ACT.ACTION pushes an entry into a TEO queue, or is refused with OVF. -/
  | teoPush (who : Requester) (i : Fin 32) (action : Fin 4)
  /-- TEO_FLUSH (R238). A write of FLUSH discards every waiting TEO entry. -/
  | teoFlush (who : Requester) (i : Fin 32)
  /-- TEO_ACTION (R238). The head TEO entry reaches its stamp and drives SET, CLR, TOGGLE or the rise of PULSE, or is counted late. -/
  | teoAction (i : Fin 32)
  /-- TEO_PULSE_CLEAR (R238). A PULSE reaches t_act + WIDTH and clears the pin. -/
  | teoPulseClear (i : Fin 32)
  /-- TCI_CAPTURE (R239). A filtered edge on a TCI input is stamped and entered in its FIFO, fills its tag, or goes to a gang. -/
  | tciCapture (i : Fin 32) (rising : Bool)
  /-- TCI_HEAD_READ (R240). A read of TCI.HEAD_INFO returns and removes the FIFO head entry. -/
  | tciHeadRead (who : Requester) (i : Fin 32)
  /-- ADD (R252). rd := rs1 + rs2 modulo 2^32. -/
  | add (c : Fin 36) (G : BitVec 4) (rd rs1 rs2 : BitVec 5)
  /-- SUB (R252). rd := rs1 − rs2 modulo 2^32. -/
  | sub (c : Fin 36) (G : BitVec 4) (rd rs1 rs2 : BitVec 5)
  /-- AND (R252). Bitwise AND of rs1 and rs2. -/
  | and (c : Fin 36) (G : BitVec 4) (rd rs1 rs2 : BitVec 5)
  /-- OR (R252). Bitwise OR of rs1 and rs2. -/
  | or (c : Fin 36) (G : BitVec 4) (rd rs1 rs2 : BitVec 5)
  /-- XOR (R252). Bitwise XOR of rs1 and rs2. -/
  | xor (c : Fin 36) (G : BitVec 4) (rd rs1 rs2 : BitVec 5)
  /-- SHL (R252). Shift rs1 left by rs2[4:0]. -/
  | shl (c : Fin 36) (G : BitVec 4) (rd rs1 rs2 : BitVec 5)
  /-- SHR (R252). Shift rs1 right logically by rs2[4:0]. -/
  | shr (c : Fin 36) (G : BitVec 4) (rd rs1 rs2 : BitVec 5)
  /-- SAR (R252). Shift rs1 right arithmetically by rs2[4:0]. -/
  | sar (c : Fin 36) (G : BitVec 4) (rd rs1 rs2 : BitVec 5)
  /-- MUL (R252). Low 32 bits of rs1 × rs2. -/
  | mul (c : Fin 36) (G : BitVec 4) (rd rs1 rs2 : BitVec 5)
  /-- MULH (R252). High 32 bits of the signed product. -/
  | mulh (c : Fin 36) (G : BitVec 4) (rd rs1 rs2 : BitVec 5)
  /-- MULHU (R252). High 32 bits of the unsigned product. -/
  | mulhu (c : Fin 36) (G : BitVec 4) (rd rs1 rs2 : BitVec 5)
  /-- DIV (R252). Signed quotient truncated toward zero, with DZ on a zero divisor. -/
  | div (c : Fin 36) (G : BitVec 4) (rd rs1 rs2 : BitVec 5)
  /-- DIVU (R252). Unsigned quotient, with DZ on a zero divisor. -/
  | divu (c : Fin 36) (G : BitVec 4) (rd rs1 rs2 : BitVec 5)
  /-- REM (R252). Signed remainder with the sign of rs1. -/
  | rem (c : Fin 36) (G : BitVec 4) (rd rs1 rs2 : BitVec 5)
  /-- REMU (R252). Unsigned remainder. -/
  | remu (c : Fin 36) (G : BitVec 4) (rd rs1 rs2 : BitVec 5)
  /-- MIN (R252). Signed minimum. -/
  | min (c : Fin 36) (G : BitVec 4) (rd rs1 rs2 : BitVec 5)
  /-- MAX (R252). Signed maximum. -/
  | max (c : Fin 36) (G : BitVec 4) (rd rs1 rs2 : BitVec 5)
  /-- MINU (R252). Unsigned minimum. -/
  | minu (c : Fin 36) (G : BitVec 4) (rd rs1 rs2 : BitVec 5)
  /-- MAXU (R252). Unsigned maximum. -/
  | maxu (c : Fin 36) (G : BitVec 4) (rd rs1 rs2 : BitVec 5)
  /-- CLZ (R252). Count of leading zero bits of rs1. -/
  | clz (c : Fin 36) (G : BitVec 4) (rd rs1 rs2 : BitVec 5)
  /-- MOV (R252). rd := rs1. -/
  | mov (c : Fin 36) (G : BitVec 4) (rd rs1 rs2 : BitVec 5)
  /-- ADDI (R251). rd := rs1 + sign-extended IMM12. -/
  | addi (c : Fin 36) (G : BitVec 4) (rd rs1 : BitVec 5) (imm : BitVec 12)
  /-- ANDI (R251). rd := rs1 AND sign-extended IMM12. -/
  | andi (c : Fin 36) (G : BitVec 4) (rd rs1 : BitVec 5) (imm : BitVec 12)
  /-- ORI (R251). rd := rs1 OR sign-extended IMM12. -/
  | ori (c : Fin 36) (G : BitVec 4) (rd rs1 : BitVec 5) (imm : BitVec 12)
  /-- XORI (R251). rd := rs1 XOR sign-extended IMM12. -/
  | xori (c : Fin 36) (G : BitVec 4) (rd rs1 : BitVec 5) (imm : BitVec 12)
  /-- SHI (R251). Shift or rotate rs1 by an immediate amount. -/
  | shi (c : Fin 36) (G : BitVec 4) (rd rs1 : BitVec 5) (imm : BitVec 12)
  /-- MOVI (R251). rd := sign-extended IMM17. -/
  | movi (c : Fin 36) (G : BitVec 4) (rd : BitVec 5) (imm : BitVec 17)
  /-- CMP (R252). Compare rs1 with rs2 and set the true and false predicates. -/
  | cmp (c : Fin 36) (G : BitVec 4) (pt pf : BitVec 3) (rs1 rs2 : BitVec 5) (cc : BitVec 6)
  /-- FADD (R253). Binary32 addition rounded toward zero. -/
  | fadd (c : Fin 36) (G : BitVec 4) (rd rs1 rs2 : BitVec 5)
  /-- FSUB (R253). Binary32 subtraction rounded toward zero. -/
  | fsub (c : Fin 36) (G : BitVec 4) (rd rs1 rs2 : BitVec 5)
  /-- FMUL (R253). Binary32 multiplication rounded toward zero. -/
  | fmul (c : Fin 36) (G : BitVec 4) (rd rs1 rs2 : BitVec 5)
  /-- FFMA (R253). rd := rs1 × rs2 + rd with one rounding. -/
  | ffma (c : Fin 36) (G : BitVec 4) (rd rs1 rs2 : BitVec 5)
  /-- FFMS (R253). rd := −(rs1 × rs2) + rd with one rounding. -/
  | ffms (c : Fin 36) (G : BitVec 4) (rd rs1 rs2 : BitVec 5)
  /-- FDIV (R253). Binary32 division. -/
  | fdiv (c : Fin 36) (G : BitVec 4) (rd rs1 rs2 : BitVec 5)
  /-- FSQRT (R253). Binary32 square root. -/
  | fsqrt (c : Fin 36) (G : BitVec 4) (rd rs1 rs2 : BitVec 5)
  /-- FMIN (R256). Binary32 minimum with NaN propagation. -/
  | fmin (c : Fin 36) (G : BitVec 4) (rd rs1 rs2 : BitVec 5)
  /-- FMAX (R256). Binary32 maximum with NaN propagation. -/
  | fmax (c : Fin 36) (G : BitVec 4) (rd rs1 rs2 : BitVec 5)
  /-- FABS (R252). Clear the sign bit of rs1. -/
  | fabs (c : Fin 36) (G : BitVec 4) (rd rs1 rs2 : BitVec 5)
  /-- FNEG (R252). Invert the sign bit of rs1. -/
  | fneg (c : Fin 36) (G : BitVec 4) (rd rs1 rs2 : BitVec 5)
  /-- FCLAMP (R256). rd := clamp(rd, rs1, rs2). -/
  | fclamp (c : Fin 36) (G : BitVec 4) (rd rs1 rs2 : BitVec 5)
  /-- CVTIF (R257). Convert an i32 to binary32 with truncation. -/
  | cvtif (c : Fin 36) (G : BitVec 4) (rd rs1 rs2 : BitVec 5)
  /-- CVTUF (R257). Convert a u32 to binary32 with truncation. -/
  | cvtuf (c : Fin 36) (G : BitVec 4) (rd rs1 rs2 : BitVec 5)
  /-- CVTFI (R257). Convert binary32 to i32 with truncation and saturation. -/
  | cvtfi (c : Fin 36) (G : BitVec 4) (rd rs1 rs2 : BitVec 5)
  /-- CVTFU (R257). Convert binary32 to u32 with truncation and saturation. -/
  | cvtfu (c : Fin 36) (G : BitVec 4) (rd rs1 rs2 : BitVec 5)
  /-- FTRUNC (R257). Round rs1 toward zero to an integral binary32 value. -/
  | ftrunc (c : Fin 36) (G : BitVec 4) (rd rs1 rs2 : BitVec 5)
  /-- FFLOOR (R257). Round rs1 down to an integral binary32 value. -/
  | ffloor (c : Fin 36) (G : BitVec 4) (rd rs1 rs2 : BitVec 5)
  /-- FSIN (R263). Sine of a reduced binary32 angle. -/
  | fsin (c : Fin 36) (G : BitVec 4) (rd rs1 rs2 : BitVec 5)
  /-- FCOS (R263). Cosine of a reduced binary32 angle. -/
  | fcos (c : Fin 36) (G : BitVec 4) (rd rs1 rs2 : BitVec 5)
  /-- SMVF (R258). Scaled move from fixed point to binary32. -/
  | smvf (c : Fin 36) (G : BitVec 4) (rd rs1 rs2 : BitVec 5)
  /-- SMVI (R258). Scaled move from binary32 to saturated fixed point. -/
  | smvi (c : Fin 36) (G : BitVec 4) (rd rs1 rs2 : BitVec 5)
  /-- LDB (R252). Load a sign-extended byte. -/
  | ldb (c : Fin 36) (G : BitVec 4) (rd rb : BitVec 5) (ofs : BitVec 12)
  /-- LDBU (R252). Load a zero-extended byte. -/
  | ldbu (c : Fin 36) (G : BitVec 4) (rd rb : BitVec 5) (ofs : BitVec 12)
  /-- LDH (R252). Load a sign-extended halfword. -/
  | ldh (c : Fin 36) (G : BitVec 4) (rd rb : BitVec 5) (ofs : BitVec 12)
  /-- LDHU (R252). Load a zero-extended halfword. -/
  | ldhu (c : Fin 36) (G : BitVec 4) (rd rb : BitVec 5) (ofs : BitVec 12)
  /-- LDW (R252). Load a word. -/
  | ldw (c : Fin 36) (G : BitVec 4) (rd rb : BitVec 5) (ofs : BitVec 12)
  /-- LDD (R252). Load a doubleword into an even register pair. -/
  | ldd (c : Fin 36) (G : BitVec 4) (rd rb : BitVec 5) (ofs : BitVec 12)
  /-- STB (R252). Store a byte, posted. -/
  | stb (c : Fin 36) (G : BitVec 4) (rd rb : BitVec 5) (ofs : BitVec 12)
  /-- STH (R252). Store a halfword, posted. -/
  | sth (c : Fin 36) (G : BitVec 4) (rd rb : BitVec 5) (ofs : BitVec 12)
  /-- STW (R252). Store a word, posted. -/
  | stw (c : Fin 36) (G : BitVec 4) (rd rb : BitVec 5) (ofs : BitVec 12)
  /-- STD (R252). Store a register pair, posted. -/
  | std (c : Fin 36) (G : BitVec 4) (rd rb : BitVec 5) (ofs : BitVec 12)
  /-- B (R250). Branch to the J target after two delay slots. -/
  | b (c : Fin 36) (G : BitVec 4) (disp : BitVec 22)
  /-- BL (R252). Branch and link, writing the return address to g30. -/
  | bl (c : Fin 36) (G : BitVec 4) (disp : BitVec 22)
  /-- BR (R252). Branch to the address in rs1. -/
  | br (c : Fin 36) (G : BitVec 4) (rd rs1 rs2 : BitVec 5)
  /-- BLR (R252). Branch to rs1 and link. -/
  | blr (c : Fin 36) (G : BitVec 4) (rd rs1 rs2 : BitVec 5)
  /-- REP (R264). Start a hardware repeat of the following body on a free level. -/
  | rep (c : Fin 36) (G : BitVec 4) (body : BitVec 8) (ci rot : Bool) (cnt : BitVec 12)
  /-- NOP (R252). No operation. -/
  | nop (c : Fin 36) (G : BitVec 4) (rd rs1 rs2 : BitVec 5)
  /-- FENCE (R252). Stall until every earlier store and posted instruction is acknowledged. -/
  | fence (c : Fin 36) (G : BitVec 4) (rd rs1 rs2 : BitVec 5)
  /-- SYSCALL (R252). Raise the system-call exception with the RS1 code. -/
  | syscall (c : Fin 36) (G : BitVec 4) (rd rs1 rs2 : BitVec 5)
  /-- ERET (R280). Return from an exception using the frame at SP, after the stack check. -/
  | eret (c : Fin 36) (G : BitVec 4) (rd rs1 rs2 : BitVec 5)
  /-- BRK (R252). Halt the core for an attached debugger, or raise the breakpoint exception. -/
  | brk (c : Fin 36) (G : BitVec 4) (rd rs1 rs2 : BitVec 5)
  /-- WAITOP (R265). End the activation; the strand waits for its wait set. -/
  | waitop (c : Fin 36) (G : BitVec 4) (rd rs1 rs2 : BitVec 5)
  /-- RELEASE (R265). Send the release record at rs1 to the release unit with the strand's epoch. -/
  | release (c : Fin 36) (G : BitVec 4) (rd rs1 rs2 : BitVec 5)
  /-- TAGRD (R265). Read and empty an operand tag owned by the strand. -/
  | tagrd (c : Fin 36) (G : BitVec 4) (rd rs1 rs2 : BitVec 5)
  /-- TAGWR (R265). Fill an operand tag with rs2. -/
  | tagwr (c : Fin 36) (G : BitVec 4) (rd rs1 rs2 : BitVec 5)
  /-- KOPEN (R222). Open the lowest FREE knot slot with the CFG fields from gs and return the slot or a refusal. -/
  | kopen (c : Fin 36) (G : BitVec 4) (rd rs1 rs2 : BitVec 5)
  /-- KADD (R222). Add the 16-byte entry at gp to knot slot gk. -/
  | kadd (c : Fin 36) (G : BitVec 4) (rd rs1 rs2 : BitVec 5)
  /-- KCLOSE (R222). Close knot slot gk with its CFG and CYC. -/
  | kclose (c : Fin 36) (G : BitVec 4) (rd rs1 rs2 : BitVec 5)
  /-- BIQ (R259). Run CNT + 1 biquad stages and write their states back. -/
  | biq (c : Fin 36) (G : BitVec 4) (rd rs1 rs2 : BitVec 5) (cnt : BitVec 3)
  /-- PI (R260). Compute the PI term from the record at rs2. -/
  | pi (c : Fin 36) (G : BitVec 4) (rd rs1 rs2 : BitVec 5) (cnt : BitVec 3)
  /-- PIU (R260). Update and clamp the PI integrator with back-calculation. -/
  | piu (c : Fin 36) (G : BitVec 4) (rd rs1 rs2 : BitVec 5) (cnt : BitVec 3)
  /-- TINT (R261). Interpolate a piecewise-linear table. -/
  | tint (c : Fin 36) (G : BitVec 4) (rd rs1 rs2 : BitVec 5) (cnt : BitVec 3)
  /-- RLU (R262). Commit one bin of a repetitive table atomically at its memory. -/
  | rlu (c : Fin 36) (G : BitVec 4) (rd rs1 rs2 : BitVec 5) (cnt : BitVec 3)
  /-- BCOPY (R266). Copy n words, resumable at element boundaries. -/
  | bcopy (c : Fin 36) (G : BitVec 4) (rd rs1 rs2 rn : BitVec 5)
  /-- BFILL (R266). Fill n words with rs1. -/
  | bfill (c : Fin 36) (G : BitVec 4) (rd rs1 rs2 rn : BitVec 5)
  /-- BADD (R266). Element-wise binary32 addition over n words. -/
  | badd (c : Fin 36) (G : BitVec 4) (rd rs1 rs2 rn : BitVec 5)
  /-- BSUB (R266). Element-wise binary32 subtraction over n words. -/
  | bsub (c : Fin 36) (G : BitVec 4) (rd rs1 rs2 rn : BitVec 5)
  /-- BMUL (R266). Element-wise binary32 multiplication over n words. -/
  | bmul (c : Fin 36) (G : BitVec 4) (rd rs1 rs2 rn : BitVec 5)
  /-- BFMA (R266). Element-wise fused multiply-add over n words. -/
  | bfma (c : Fin 36) (G : BitVec 4) (rd rs1 rs2 rn : BitVec 5)
  /-- BTINT (R266). TINT applied to each of n elements. -/
  | btint (c : Fin 36) (G : BitVec 4) (rd rs1 rs2 rn : BitVec 5)
  /-- BBIQ (R266). One biquad stage advanced once per element over n elements. -/
  | bbiq (c : Fin 36) (G : BitVec 4) (rd rs1 rs2 rn : BitVec 5)
  /-- VADD (R252). Lane-wise binary32 addition. -/
  | vadd (c : Fin 36) (G : BitVec 4) (vd vs1 vs2 : BitVec 6)
  /-- VSUB (R252). Lane-wise binary32 subtraction. -/
  | vsub (c : Fin 36) (G : BitVec 4) (vd vs1 vs2 : BitVec 6)
  /-- VMUL (R252). Lane-wise binary32 multiplication. -/
  | vmul (c : Fin 36) (G : BitVec 4) (vd vs1 vs2 : BitVec 6)
  /-- VFMA (R252). Lane-wise fused multiply-add. -/
  | vfma (c : Fin 36) (G : BitVec 4) (vd vs1 vs2 : BitVec 6)
  /-- VFMS (R252). Lane-wise negated fused multiply-add. -/
  | vfms (c : Fin 36) (G : BitVec 4) (vd vs1 vs2 : BitVec 6)
  /-- VMIN (R256). Lane-wise minimum. -/
  | vmin (c : Fin 36) (G : BitVec 4) (vd vs1 vs2 : BitVec 6)
  /-- VMAX (R256). Lane-wise maximum. -/
  | vmax (c : Fin 36) (G : BitVec 4) (vd vs1 vs2 : BitVec 6)
  /-- VCLAMP (R256). Lane-wise clamp of vd between vs1 and vs2. -/
  | vclamp (c : Fin 36) (G : BitVec 4) (vd vs1 vs2 : BitVec 6)
  /-- VABS (R252). Lane-wise absolute value of vs1. -/
  | vabs (c : Fin 36) (G : BitVec 4) (vd vs1 vs2 : BitVec 6)
  /-- VNEG (R252). Lane-wise negation of vs1. -/
  | vneg (c : Fin 36) (G : BitVec 4) (vd vs1 vs2 : BitVec 6)
  /-- VDIV (R252). Lane-wise binary32 division. -/
  | vdiv (c : Fin 36) (G : BitVec 4) (vd vs1 vs2 : BitVec 6)
  /-- VLD (R252). Load 16 aligned bytes into a q register. -/
  | vld (c : Fin 36) (G : BitVec 4) (vd : BitVec 6) (rb : BitVec 5) (ofs : BitVec 11)
  /-- VST (R252). Store a q register to 16 aligned bytes, posted. -/
  | vst (c : Fin 36) (G : BitVec 4) (vd : BitVec 6) (rb : BitVec 5) (ofs : BitVec 11)
  /-- VSPLAT (R252). Write rg to every lane of vd. -/
  | vsplat (c : Fin 36) (G : BitVec 4) (vd : BitVec 6) (rg : BitVec 5) (lane : BitVec 2)
  /-- VINS (R252). Write rg to one lane of vd. -/
  | vins (c : Fin 36) (G : BitVec 4) (vd : BitVec 6) (rg : BitVec 5) (lane : BitVec 2)
  /-- VEXT (R252). Read one lane of a q register into rg. -/
  | vext (c : Fin 36) (G : BitVec 4) (vd : BitVec 6) (rg : BitVec 5) (lane : BitVec 2)
  /-- CLPK (R263). Clarke and Park transform of three currents and an angle. -/
  | clpk (c : Fin 36) (G : BitVec 4) (vd vs1 vs2 : BitVec 6)
  /-- IPKC (R263). Inverse Park and Clarke transform with min-max injection. -/
  | ipkc (c : Fin 36) (G : BitVec 4) (vd vs1 vs2 : BitVec 6)
  /-- VSMVF (R258). Lane-wise scaled move from fixed point to binary32. -/
  | vsmvf (c : Fin 36) (G : BitVec 4) (vd vs1 vs2 : BitVec 6)
  /-- VSMVI (R258). Lane-wise scaled move from binary32 to fixed point. -/
  | vsmvi (c : Fin 36) (G : BitVec 4) (vd vs1 vs2 : BitVec 6)
  /-- VMOV (R252). vd := vs1. -/
  | vmov (c : Fin 36) (G : BitVec 4) (vd vs1 vs2 : BitVec 6)
  /-- LI (R252). rd := IMM32. -/
  | li (c : Fin 36) (G : BitVec 4) (rd rs1 : BitVec 5) (imm : Word)
  /-- ADDI32 (R252). rd := rs1 + IMM32. -/
  | addi32 (c : Fin 36) (G : BitVec 4) (rd rs1 : BitVec 5) (imm : Word)
  /-- ANDI32 (R252). rd := rs1 AND IMM32. -/
  | andi32 (c : Fin 36) (G : BitVec 4) (rd rs1 : BitVec 5) (imm : Word)
  /-- ORI32 (R252). rd := rs1 OR IMM32. -/
  | ori32 (c : Fin 36) (G : BitVec 4) (rd rs1 : BitVec 5) (imm : Word)
  /-- XORI32 (R252). rd := rs1 XOR IMM32. -/
  | xori32 (c : Fin 36) (G : BitVec 4) (rd rs1 : BitVec 5) (imm : Word)
  /-- LDW32 (R252). Load the word at rs1 + IMM32. -/
  | ldw32 (c : Fin 36) (G : BitVec 4) (rd rs1 : BitVec 5) (imm : Word)
  /-- STW32 (R252). Store rd to the word at rs1 + IMM32. -/
  | stw32 (c : Fin 36) (G : BitVec 4) (rd rs1 : BitVec 5) (imm : Word)
  /-- MFS (R244). Read a special register into rd. -/
  | mfs (c : Fin 36) (G : BitVec 4) (rd : BitVec 5) (sr : BitVec 12)
  /-- MTS (R244). Write rs to a special register. -/
  | mts (c : Fin 36) (G : BitVec 4) (rd : BitVec 5) (sr : BitVec 12)
  /-- TLBINV (R252). Drop the TLB entries for EA rs1 in the current domain. -/
  | tlbinv (c : Fin 36) (G : BitVec 4) (rd rs1 rs2 : BitVec 5)
  /-- TLBINVD (R252). Drop every TLB entry of domain rs1[7:0]. -/
  | tlbinvd (c : Fin 36) (G : BitVec 4) (rd rs1 rs2 : BitVec 5)
  /-- TLBINVA (R252). Drop every TLB entry. -/
  | tlbinva (c : Fin 36) (G : BitVec 4) (rd rs1 rs2 : BitVec 5)
  /-- ICINV (R252). Invalidate this core's instruction cache. -/
  | icinv (c : Fin 36) (G : BitVec 4) (rd rs1 rs2 : BitVec 5)
  /-- DCFL (R252). Write back the data cache line at EA rs1. -/
  | dcfl (c : Fin 36) (G : BitVec 4) (rd rs1 rs2 : BitVec 5)
  /-- DCFLA (R252). Write back every dirty line of the data cache and the L2. -/
  | dcfla (c : Fin 36) (G : BitVec 4) (rd rs1 rs2 : BitVec 5)
  /-- REMOTE_ACCESS_COMPLETE (R270). Data of a load outside the core's own local memory arrives and ends the stall. -/
  | remoteAccessComplete (c : Fin 36)
  /-- Q_WRITE_LAND (R268). A q result lands at the end of clock c + L − 1 of its instruction. -/
  | qWriteLand (c : Fin 36) (k : Nat)
  /-- ACCESS_ASYNC (R276). An access error for a posted store reaches the core and is taken at the next instruction boundary. -/
  | accessAsync (c : Fin 36)
  /-- INTERRUPT_ENTRY (R283). A deliverable interrupt enters its handler once no hold-off condition holds. -/
  | interruptEntry (c : Fin 36)
  /-- STRAND_START (R295). A START command makes an IDLE strand READY after its checks, or sets CFGERR. -/
  | strandStart (who : Requester) (t : Fin 1024)
  /-- STRAND_STOP (R293). A STOP command makes a strand IDLE, suspending it first when it runs. -/
  | strandStop (who : Requester) (t : Fin 1024)
  /-- STRAND_RESUME (R291). A RESUME command makes a PARKED strand READY and frees the shadow area. -/
  | strandResume (who : Requester) (t : Fin 1024)
  /-- STRAND_END (R293). An END command makes a PARKED strand IDLE and frees the shadow area. -/
  | strandEnd (who : Requester) (t : Fin 1024)
  /-- STRAND_MIGRATE (R311). A MIGRATE command abandons the placement of a strand on a halted or resetting core, raises its epoch and restores its read tags. -/
  | strandMigrate (who : Requester) (t : Fin 1024)
  /-- TAG_VALUE_WRITE (R298). A write of TAG[t].VALUE fills the tag after the domain check. -/
  | tagValueWrite (who : Requester) (t : Fin 16384) (v : Word)
  /-- STRAND_PLACE (R302). The dispatcher places a placeable READY strand on a free allowed core. -/
  | strandPlace (c : Fin 36)
  /-- PREFETCH (R303). The dispatcher fills a free prefetch slot with the next strand for the core. -/
  | prefetch (c : Fin 36)
  /-- PREFETCH_DONE (R304). The write-back of the slot's previous strand and the load of the new one complete. -/
  | prefetchDone (c : Fin 36)
  /-- PREEMPT (R305). A more urgent READY strand preempts a running strand once the hold-off conditions allow. -/
  | preempt (c : Fin 36)
  /-- AFFWIN_EXPIRY (R302). A strand's affinity window ends and it may go to any allowed core. -/
  | affwinExpiry (t : Fin 1024)
  /-- DRAIN_COMPLETE (R306). Every posted store of a suspended strand is accepted and the strand becomes placeable again. -/
  | drainComplete (t : Fin 1024)
  /-- DRAINLATE (R306). Stores not accepted within 200 ns of suspension: the strand is placed anyway and DRAINLATE is logged. -/
  | drainlate (t : Fin 1024)
  /-- CORE_OFFREQ (R313). A write of OFFREQ suspends the core's running strand and takes the core offline. -/
  | coreOffreq (who : Requester) (c : Fin 36)
  /-- CORE_ONREQ (R313). A write of ONREQ brings a reset offline core online, or sets ONERR. -/
  | coreOnreq (who : Requester) (c : Fin 36)
  /-- SOFT_INTERRUPT (R316). A write of DSP.SOFT raises SOFT at the strand named. -/
  | softInterrupt (who : Requester) (t : Fin 1024)
  /-- PARKED_VIEW_SELECT (R317). A write of PV.SEL selects a PARKED strand whose shadow record PV.REC returns. -/
  | parkedViewSelect (who : Requester) (t : Fin 1024)
  /-- CHANNEL_COMMIT_REQUEST (R326). A write of PC CMT.GO requests a commit of the channel at the next boundary. -/
  | channelCommitRequest (who : Requester) (ch : Fin 64)
  /-- GROUP_COMMIT_REQUEST (R348). A write of HG CMT.GO requests a commit of the group at the next boundary. -/
  | groupCommitRequest (who : Requester) (g : Fin 16)
  /-- CARRIER_PERIOD_START (R323). A carrier period starts and the active compare values, triggers and SYNCOUT pulse take effect. -/
  | carrierPeriodStart (ch : Fin 64)
  /-- SYNCIN_EDGE (R323). A filtered rising edge on PB_SYNCIN ends the period in progress at t_s + PHASE. -/
  | syncinEdge (bank : Fin 4)
  /-- SYNC_LOSS (R323). No SYNCIN edge within 2 × PER: SYNCLOSS is set and periods run as FREE. -/
  | syncLoss (ch : Fin 64)
  /-- SYNCOUT_PULSE_END (R324). The 100 ns PB_SYNCOUT pulse of a period start ends. -/
  | syncoutPulseEnd (bank : Fin 4)
  /-- COMPARE_EDGE (R325). A window edge of the channel's mode changes its requests and commanded state. -/
  | compareEdge (ch : Fin 64)
  /-- OVR_WRITE (R322). A write of PC OVR replaces the mode requests from the next PB clock. -/
  | ovrWrite (who : Requester) (ch : Fin 64) (v : BitVec 3)
  /-- PULSE_SET (R328). PULSE takes the new commanded level 2.5 ns after EN last fell. -/
  | pulseSet (ch : Fin 64)
  /-- EN_RISE (R328). EN rises once the dead time, the PULSE delay and the opposite gate sense allow. -/
  | enRise (ch : Fin 64)
  /-- GATE_SENSE_CHANGE (R328). A filtered gate sense input changes level. -/
  | gateSenseChange (ch : Fin 64) (low level : Bool)
  /-- GOFF_TIMEOUT (R329). The opposite gate has not read off by t0 + TGOFF and GOFF latches. -/
  | goffTimeout (ch : Fin 64)
  /-- GON_TIMEOUT (R329). The driven gate does not read on by t_r + TGON and GON latches. -/
  | gonTimeout (ch : Fin 64)
  /-- OVERCURRENT_DETECT (R332). A filtered PC_ISNS detection acts as OCMODE selects. -/
  | overcurrentDetect (ch : Fin 64)
  /-- ADC_CONVERSION (R504). A converter samples at the stamp of its trigger and delivers the code within 60 ns. -/
  | adcConversion (k : Fin 16) (ain : Fin 80) (code : BitVec 16)
  /-- CHANNEL_ENABLE (R335). A write of CTRL.EN = 1 enables the channel, or is refused with ENERR. -/
  | channelEnable (who : Requester) (ch : Fin 64)
  /-- CHANNEL_CNTCLR (R347). A write of PC CNTCLR clears LATE_CNT, MPF_CNT and OC_CNT. -/
  | channelCntclr (who : Requester) (ch : Fin 64)
  /-- GROUP_CNTCLR (R348). A write of HG CNTCLR clears the group counters. -/
  | groupCntclr (who : Requester) (g : Fin 16)
  /-- SHOT_PUSH (R336). A write of SHOT_D pushes a shot with SHOT_T, or is refused with OVF. -/
  | shotPush (who : Requester) (ch : Fin 64) (d : BitVec 30)
  /-- SHOT_FLUSH (R336). A write of SHOT_CTL.FLUSH discards the waiting shots. -/
  | shotFlush (who : Requester) (ch : Fin 64)
  /-- SHOT_ABORT (R336). A write of SHOT_CTL.ABORT ends the active shot at once. -/
  | shotAbort (who : Requester) (ch : Fin 64)
  /-- SHOT_START (R337). The head shot reaches t_on and starts its peak phase after group admission, or is late, deferred or rejected. -/
  | shotStart (ch : Fin 64)
  /-- DEFERRED_SHOT_START (R341). The group becomes free and the first deferred shot starts. -/
  | deferredShotStart (g : Fin 16)
  /-- SHOT_PEAK_END (R337). The peak phase ends and the hold phase begins. -/
  | shotPeakEnd (ch : Fin 64)
  /-- HOLD_PERIOD_START (R337). A hold period of the shot starts with the active state for the hold duty. -/
  | holdPeriodStart (ch : Fin 64)
  /-- SHOT_END (R337). The shot reaches t_on + D, the channel goes to Z and SHOT_CNT is incremented. -/
  | shotEnd (ch : Fin 64)
  /-- CHARGE_PUMP_FAULT (R342). CPOK is 0 while the high side is H: CPF latches and every shot of the group ends. -/
  | chargePumpFault (g : Fin 16)
  /-- HALT_DWELL_EXPIRY (R346). The halt-dwell timer expires, EN falls and HDWELL latches. -/
  | haltDwellExpiry (ch : Fin 64)
  /-- MICROSTEP (R354). A carry of the rate accumulator issues one microstep and updates the phase setpoints. -/
  | microstep (gang : Fin 16)
  /-- HOLD_CURRENT_TIMEOUT (R353). No microstep for THOLD ms sets hold_active and the hold current. -/
  | holdCurrentTimeout (gang : Fin 16)
  /-- CHOPPER_SAMPLE (R359). A phase-current sample reaches the chopper, which changes its state against the band. -/
  | chopperSample (ch : Fin 64) (code : BitVec 16)
  /-- FAST_DECAY_END (R359). The FAST part of a MIXED decay ends after FDT and the decay turns SLOW. -/
  | fastDecayEnd (ch : Fin 64)
  /-- ENCODER_EDGE (R362). A quadrature edge updates the encoder count, or sets ENCERR. -/
  | encoderEdge (gang : Fin 16) (a b : Bool)
  /-- GANG_LANDING (R351). A gang lands its axis feedback in the snapshot and fills FB_TAG. -/
  | gangLanding (gang : Fin 16)
  /-- BELAY_POWER_UP (R369). Release of the PD02 reset puts Belay into LOAD with every output asserted. -/
  | belayPowerUp
  /-- CONFIG_VOTE (R370). Belay completes reading the three configuration copies and votes, entering TEST or FAULT. -/
  | configVote
  /-- BELAY_TEST_DONE (R369). BIST and guard tests complete and Belay enters RUN or FAULT. -/
  | belayTestDone (pass : Bool)
  /-- GTTIME_EXPIRY (R376). A manual guard test is not completed before GTTIME and Belay enters FAULT. -/
  | gttimeExpiry
  /-- BELAY_RESTART (R369). A write of CTRL.RESTART restarts Belay at LOAD, or sets RSTERR with the seal open. -/
  | belayRestart (who : Requester)
  /-- SEAL_OPEN (R374). A filtered change of SEAL_OPEN is reported, counted, and moves Belay to SEALOPEN when opened. -/
  | sealOpen (opened : Bool)
  /-- CONFIG_WRITE (R373). A write of CFGW_CTL.GO starts writing a new configuration to the three copies, or is refused. -/
  | configWrite (who : Requester)
  /-- CONFIG_WRITE_DONE (R373). The configuration write completes or fails its read-back and RESULT is set. -/
  | configWriteDone (good : Bool)
  /-- GUARD_TEST_PULSE (R375). A guard test pulse is sent and its read-back is tested, with GTPF or XSHORT on failure. -/
  | guardTestPulse (g : Fin 8) (during after : BitVec 8)
  /-- GUARD_DEMAND (R375). A guard input reads low outside its pulse for GFILT and raises a demand. -/
  | guardDemand (g : Fin 8)
  /-- RESET_ACTION (R375). The falling edge of a valid RESET input pulse counts as a reset action. -/
  | resetAction (g : Fin 8)
  /-- ZONE_REQUEST (R378). A write of ZREQ adds or removes software demands of zones. -/
  | zoneRequest (who : Requester) (mask : Word)
  /-- ZONE_RESET (R378). A write of ZRST gives a reset action to zones in WAITRST. -/
  | zoneReset (who : Requester) (mask : Word)
  /-- SS1_TIMER_EXPIRY (R377). TSS1 expires and the zone goes to SAFE. -/
  | ss1TimerExpiry (z : Fin 32)
  /-- SLS_READING (R377). An SLS speed reading from a container or a 1 ms edge window is compared with SLSLIM. -/
  | slsReading (z : Fin 32) (axis : Fin 256)
  /-- CONNECTION_WATCHDOG (R381). No container of a connection is accepted for BWD cycles and CONNF is set. -/
  | connectionWatchdog (n : Fin 256)
  /-- STO_CONFIRM_TIMEOUT (R381). A node has not confirmed STO by cycle M + 4: CONNF, NSOMASK and STOCONF are set. -/
  | stoConfirmTimeout (n : Fin 256)
  /-- CONNF_CLEAR (R381). A W1C write of CONNF clears the bit only after BWD cycles of accepted uplinks. -/
  | connfClear (who : Requester) (w : Fin 8) (mask : Word)
  /-- GBOTH_REQUEST (R385). A bank's GBOTH request asserts SAFE_OFF of that bank in any state. -/
  | gbothRequest (bank : Fin 4)
  /-- SORST (R385). A write of SORST releases a GBOTH-asserted SAFE_OFF once the bank's GBOTH is cleared. -/
  | sorst (who : Requester) (mask : BitVec 4)
  /-- SAFE_OFF_TEST_PULSE (R386). A released SAFE_OFF pin is pulsed low for SOPW and read back, with SOTP on failure. -/
  | safeOffTestPulse (b : Fin 4) (good : Bool)
  /-- SAFE_OFF_FEEDBACK_FAULT (R383). A SAFE_OFF pin differs from its command for more than 2 µs and Belay enters FAULT. -/
  | safeOffFeedbackFault (b : Fin 4)
  /-- OSC_CHECK_WINDOW (R383). A 1 ms or 1 s window ends and the Belay oscillator is checked against TIM and the backup oscillator. -/
  | oscCheckWindow (backup : Bool) (good : Bool)
  /-- CONFIG_CRC_CHECK (R383). Every 100 ms the working configuration is checked by CRC, with CFGCRC on failure. -/
  | configCrcCheck
  /-- DUPLEX_ENABLE (R399). A write of DX CTRL.EN = 1 puts the unit in SEEK with its duplex ring ports listening. -/
  | duplexEnable (who : Requester)
  /-- DUPLEX_DISABLE (R399). A write of DX CTRL.EN = 0 returns the unit to OFF after the current cycle. -/
  | duplexDisable (who : Requester)
  /-- HEARTBEAT_SEND (R397). Each unit sends its peer-link heartbeat at CSTART(N) + 1,000 ns. -/
  | heartbeatSend
  /-- PEER_MESSAGE_RECEIVE (R397). A peer-link heartbeat or message from the partner is received and counted. -/
  | peerMessageReceive (lane : Fin 2) (msg : Machine.PeerMsg)
  /-- PARTNER_LOST (R397). No heartbeat of the partner counts for 2 cycles and the partner is lost. -/
  | partnerLost
  /-- PEER_LINK_LOST (R407). The peer link is lost, PEER_LINK_DOWN is set and the reduced set replaces the mirror. -/
  | peerLinkLost
  /-- PEER_LINK_RETURN (R407). The peer link returns and the standby re-enters SYNC for a full mirror copy. -/
  | peerLinkReturn
  /-- TAKEOVER (R400). A standby finds no heartbeat of N − 2 or N − 1 and becomes ACTIVE at CSTART(N). -/
  | takeover
  /-- LIVE_WATCHDOG_EXPIRY (R398). LIVE.KICK is not written for LIVE.WIN and the unit fences itself. -/
  | liveWatchdogExpiry
  /-- LIVE_KICK (R398). A write of LIVE.KICK restarts the liveness window. -/
  | liveKick (who : Requester)
  /-- DUPLEX_REJOIN (R399). A write of CTRL.REJOIN takes a FENCED unit back to SEEK. -/
  | duplexRejoin (who : Requester)
  /-- TAKEBACK_CLEAR (R410). A write of TBCLR clears LOCKOUT. -/
  | takebackClear (who : Requester)
  /-- SWITCH (R409). A write of CTRL.SWITCH requests a planned splice, which waits for its conditions. -/
  | switch (who : Requester)
  /-- SPLICE_ABORT (R409). No SACK by CSTART(K − 2): the splice is abandoned, SABORT is sent and SPLICERR is set. -/
  | spliceAbort
  /-- TAKEBACK_HOLDOFF_EXPIRY (R410). The take-back hold-off of TB_HOLD ms ends since the latest insertion. -/
  | takebackHoldoffExpiry
  /-- MIRROR_RECORD_RECEIVE (R405). The standby receives a mirror record and installs it in order, or installs the cycle on a good END. -/
  | mirrorRecordReceive (m : Machine.MirrorRec)
  /-- MIRROR_LATE (R406). A mirror END has not arrived by CSTART(N + 2); after 8 such cycles HOT clears. -/
  | mirrorLate
  /-- REDUCED_RECORD_RESEND (R408). A reduced-set record not confirmed by RACK within 8 cycles is sent again. -/
  | reducedRecordResend
  /-- LOG_REPORT (R422). A detector report reaches the logline and is coalesced, latched, admitted or dropped. -/
  | logReport (src : BitVec 16) (cls : Fin 4) (dom : BitVec 8) (data : List Word)
  /-- LATCH_ADMIT (R422). A pending latch becomes an entry once its class is admissible and RLIM has passed. -/
  | latchAdmit
  /-- LOG_COMMIT_DONE (R417). A record's two copies are written and read back, freeing its staging entry, with WFAIL on a double failure. -/
  | logCommitDone (ok0 ok1 : Bool)
  /-- LOG_SCAN_DONE (R419). The logline scan ends, sets HEAD, OLDEST and BOOTN, and commits BOOT. -/
  | logScanDone
  /-- LOG_READ (R425). A write of RD_SEQ_LO starts the read of a record by SEQ. -/
  | logRead (who : Requester) (seqLo : Word)
  /-- LOG_READ_DONE (R425). BUSY clears and RD, ALT and RD_STAT hold the resolved record. -/
  | logReadDone
  /-- WINDOW_READ (R426). A write of W[d].SEQ_LO reads a record filtered by domain. -/
  | windowRead (who : Requester) (d : Fin 256) (seqLo : Word)
  /-- SOFTWARE_REPORT (R420). A write of W[d].GO sends a group 13 report with its class and data. -/
  | softwareReport (who : Requester) (d : Fin 256) (cls : Fin 4)
  /-- LOG_ERASE (R428). A write of ERASE.GO with the seal code starts an erase under seal, or is refused. -/
  | logErase (who : Requester) (code : BitVec 4)
  /-- LOG_ERASE_DONE (R428). The wipe ends or stops and ERASE_DONE is committed. -/
  | logEraseDone (wiped : BitVec 16)
  /-- FID_UNLOCK (R432). A write of FID.UNLOCK advances the arming sequence and arms the block for ARMTIME. -/
  | fidUnlock (who : Requester) (key : Word)
  /-- FID_ARM_EXPIRY (R432). ARMTIME ends and the fid block disarms, stopping every slot. -/
  | fidArmExpiry
  /-- FID_DISARM (R432). A write of CTRL.DISARM disarms the fid block. -/
  | fidDisarm (who : Requester)
  /-- FID_SLOT_GO (R433). A write of FS GO starts a fid slot, or is refused. -/
  | fidSlotGo (who : Requester) (j : Fin 8) (n : BitVec 16)
  /-- FID_SLOT_STOP (R433). A write of FS STOP stops a fid slot. -/
  | fidSlotStop (who : Requester) (j : Fin 8)
  /-- FID_FIRE (R431). A slot fires its detector at T0 + m × PER, which acts as at a real detection or counts MISSED. -/
  | fidFire (j : Fin 8)
  /-- RAIL_FAULT (R439). A rail stays out of regulation for 1 µs, latches RAIL_FAULT and starts the final step. -/
  | railFault (k : Fin 7)
  /-- DOMAIN_LEVEL_LOSS (R451). PD01, PD02 or PD03 loses its level and the final step starts. -/
  | domainLevelLoss (d : Fin 24)
  /-- VBAT_CHANGEOVER (R440). VAON changes between VIN and VBAT, or PD00 resets when both are lost. -/
  | vbatChangeover (vin vbat : Bool)
  /-- DOMAIN_REQUEST (R442). A write of PD_REQ starts switching domains one at a time, refusing those whose conditions fail. -/
  | domainRequest (who : Requester) (pd : BitVec 24)
  /-- DOMAIN_SWITCH_DONE (R442). A domain reaches its level or loses it and the next domain of the request is taken. -/
  | domainSwitchDone
  /-- ISLAND_RESET (R443). A write of ISLRST resets one island, or is refused with REFUSED set. -/
  | islandReset (who : Requester) (isl : BitVec 6)
  /-- ISLAND_RESET_DONE (R443). An island reset completes, clearing its failed channels, and GO reads 0. -/
  | islandResetDone
  /-- OPP_CHANGE (R444). A write of ISL[i].OPP starts an operating-point change. -/
  | oppChange (who : Requester) (i : Fin 33) (opp : Fin 4)
  /-- OPP_CHANGE_DONE (R444). VCORE and the island clock reach the new operating point and BUSY clears. -/
  | oppChangeDone
  /-- STANDBY_GO (R445). A write of STANDBY.GO switches every domain but PD00 off. -/
  | standbyGo (who : Requester)
  /-- WAKE (R445). VIN rises with AUTOWAKE set, or the alarm fires, and the device cold-starts. -/
  | wake (alarm : Bool)
  /-- NODE_COLLAPSE (R448). A node's bus reads low for NFILT landings and its axes receive STO. -/
  | nodeCollapse (j : Fin 32) (a : Fin 256)
  /-- PF_ASSERT (R450). PF holds its active level for FILT and the mains-loss sequence starts. -/
  | pfAssert
  /-- SHUTDOWN (R450). A write of CTRL.SHUTDOWN starts the mains-loss sequence. -/
  | shutdown (who : Requester)
  /-- MLS_STOP_END (R450). Every axis in AXMASK has stopped or T_STOP expires and step STO starts. -/
  | mlsStopEnd
  /-- MLS_STO_END (R450). The third boundary after step STO starts begins step SAVE. -/
  | mlsStoEnd
  /-- MLS_SAVE_END (R450). The saved-state record is written or T_SAVE expires and step OFF runs to standby. -/
  | mlsSaveEnd
  /-- PF_RELEASE (R452). PF returns inactive before step 2 and the sequence ends when PFRECOVER = 1. -/
  | pfRelease
  /-- SAVE_GO (R454). A write of SAVE.GO writes a saved-state record outside the sequence. -/
  | saveGo (who : Requester)
  /-- SAVE_WRITE_DONE (R454). A saved-state record write completes into its half, or sets SAVEERR. -/
  | saveWriteDone (good : Bool)
  /-- SOFTWARE_RESET (R456). A write of CTRL.SWRESET by DOM[0] resets the device. -/
  | softwareReset (who : Requester)
  /-- POWER_UP (R458). Power-up powers the reset domains, loads fuses, samples straps and starts the boot ROM. -/
  | powerUp
  /-- FUSE_PROGRAM (R463). A write of FUSEPROG.GO programs a KEYREV or MINVER fuse, or is refused. -/
  | fuseProgram (who : Requester)
  /-- FUSE_PROGRAM_DONE (R463). Fuse programming completes and RESULT is set. -/
  | fuseProgramDone
  /-- MRAM_WRITE (R464). A write of MWR_CTL.GO copies bytes into the MRAM boot area, or is refused. -/
  | mramWrite (who : Requester)
  /-- MRAM_WRITE_DONE (R464). The MRAM boot-area write completes or stops on a read-back failure. -/
  | mramWriteDone (good : Bool)
  /-- DEBUG_OPEN (R465). A write of BOOT.CTRL.DBGOPEN opens the debug port until the next reset. -/
  | debugOpen (who : Requester)
  /-- DRAM_TRAINING_DONE (R471). LPDDR5 training ends with READY or TRAINERR. -/
  | dramTrainingDone (good : Bool)
  /-- PCIE_DOORBELL (R473). A host write to a function's doorbell fills a tag or raises its EXT source. -/
  | pcieDoorbell (f : Fin 64) (v : Word)
  /-- PCIE_INBOUND_ACCESS (R473). A host access through BAR2 reaches memory with the function's domain, or is refused. -/
  | pcieInboundAccess (f : Fin 64) (write : Bool) (ofs : Nat) (size : Size) (data : BitVec 64)
  /-- MSIX_SEND (R473). A write of MSIX_SEND sends an MSI-X vector of a function. -/
  | msixSend (who : Requester) (f : Fin 64) (vec : Fin 8)
  /-- PCIE_OUTBOUND (R474). An access to the outbound window becomes a PCIe memory request. -/
  | pcieOutbound (who : Requester) (write : Bool) (addr : BitVec 52) (size : Size) (data : BitVec 64)
  /-- PCIE_OUTBOUND_TIMEOUT (R474). An outbound read not completed within 50 ms returns an access error. -/
  | pcieOutboundTimeout
  /-- PCIE_LINK_CHANGE (R484). The PCIe link changes state and a record is written. -/
  | pcieLinkChange (up : Bool) (gen width : BitVec 3)
  /-- DMA_START (R476). A write of CH GO starts a descriptor chain at HEAD. -/
  | dmaStart (who : Requester) (k : Fin 8)
  /-- DMA_STOP (R476). A write of CH STOP ends the chain after the current descriptor. -/
  | dmaStop (who : Requester) (k : Fin 8)
  /-- DMA_DESCRIPTOR_DONE (R476). A descriptor's transfer ends and the next is checked, or the chain stops on a fault. -/
  | dmaDescriptorDone (k : Fin 8)
  /-- PLANT_FRAME_RECEIVE (R477). The plant port receives a frame into an owned receive descriptor, or drops it. -/
  | plantFrameReceive (frame : List Byte)
  /-- PLANT_TX_TAIL (R478). A write of a queue TAIL starts or restarts transmission of owned descriptors. -/
  | plantTxTail (who : Requester) (q : Fin 2) (tail : BitVec 13)
  /-- PLANT_TX_DONE (R478). A transmit descriptor completes or faults and OWN is cleared. -/
  | plantTxDone (q : Fin 2)
  /-- SNAPSHOT_READ (R480). An asynchronous SRAM read cycle returns a word of the front buffer or the status. -/
  | snapshotRead (word : BitVec 20)
  /-- SNAPSHOT_WRITE (R483). A host write stores a mailbox word, and a doorbell write sets MBFULL. -/
  | snapshotWrite (word : BitVec 20) (data : Word)
  /-- MAILBOX_ACK (R483). A write of MBX.ACK clears MBFULL. -/
  | mailboxAck (who : Requester)
  /-- SNAPSHOT_SWAPNOW (R481). A write of CTRL.SWAPNOW starts a snapshot fill and swap. -/
  | snapshotSwapnow (who : Requester)
  /-- SNAPSHOT_SWAP (R481). The back buffer is filled and exchanged with the front buffer. -/
  | snapshotSwap
  /-- PIN_COMMIT_NOW (R494). A write of CMT.NOW commits staged pin fields in each island at once. -/
  | pinCommitNow (who : Requester)
  /-- PIN_COMMIT_GO (R494). A write of CMT.GO commits staged pin fields at the next boundary. -/
  | pinCommitGo (who : Requester)
  /-- PIN_SWITCH_REST_END (R495). Two island clocks after a function change the new function drives the pin. -/
  | pinSwitchRestEnd (p : Fin 488)
  /-- DUPLEX_FENCE (R398). A write of DX CTRL.FENCE by DOM[0] fences the unit: it stops sending, takes down its duplex links and drives DX_ACTIVE low. -/
  | duplexFence (who : Requester)
  /-- GUARD_DEMAND_END (R378). A guard input closes again and its demand ends, so a zone whose sources are all inactive leaves MONITOR or SAFE (or a manual guard test completes). -/
  | guardDemandEnd (g : Fin 8)
  /-- NODE_LINK_UP (R35). A node's IN or OUT link comes up; the node brings up its OUT port at the IN speed or loops back reporting SLOWOUT, and reports the link in NSTAT. -/
  | nodeLinkUp (r : Fin 4) (nd : Fin 64) (out : Bool) (speed : Fin 3)
  /-- DOMAIN_SWITCH_TIMEOUT (R441). A cluster's cores fail to go offline within 100 µs of a domain-off request, and the PMU refuses the domain with PD_ERR reason timeout and continues with the next domain. -/
  | domainSwitchTimeout
  /-- MIRROR_END_SEND (R405). 200 ns after the last release deadline of target cycle N + 1 the active unit closes the mirror of cycle N by sending its END record. -/
  | mirrorEndSend
  /-- SYS_CLOCK_LOSS (R427). The SYS synthesiser unlocks or the SYS clock stops; the logline read path runs from TCK, STAT.STATE reads TCK and commits stop. -/
  | sysClockLoss
  /-- SYS_CLOCK_RETURN (R427). The SYS clock runs again and the logline leaves TCK and resumes committing records. -/
  | sysClockReturn
  deriving DecidableEq, Repr

end Sys2Proof
end

