-- ==== Sys2Proof/Decode.lean ====
section
/-! DEFINITION. The command a table word spells. No row of spec/opcode_table.json gives bits to any field (every row's list
of fields is empty), so no word spells a command: the commands are named, not encoded. -/

namespace Sys2Proof

/-- The command that a word of the table's bits spells: none, because no row of the table gives bits. -/
def decodeTableWord (_nbits _w : Nat) : Option Instr := none

end Sys2Proof
end

