-- ==== Sys2Proof/Machine/Bits.lean ====
section
/-! DEFINITION. Bit fields, modular integers and little-endian byte strings, used by every block.
Register values are computed as natural numbers or integers and narrowed explicitly (R3: `u32`, `i16`, `i64` of the
spec's pseudocode are `u32`, `i16`, `i64` here). -/

namespace Sys2Proof.Machine

/-- Bits [hi:lo] of a number. -/
def bits (x hi lo : Nat) : Nat := x / 2 ^ lo % 2 ^ (hi + 1 - lo)

/-- `x` with bits [hi:lo] replaced by the low bits of `v`. -/
def putBits (x hi lo v : Nat) : Nat :=
  x - bits x hi lo * 2 ^ lo + v % 2 ^ (hi + 1 - lo) * 2 ^ lo

/-- One bit of a number. -/
def bit (x i : Nat) : Bool := x / 2 ^ i % 2 == 1

/-- 1 for true, 0 for false. -/
def b2n (b : Bool) : Nat := if b then 1 else 0

/-- `x` modulo `2 ^ w`, for an integer `x`. -/
def uw (w : Nat) (x : Int) : Nat := (x % (2 ^ w : Int)).toNat

/-- The two's-complement value of the low `w` bits of `x`. -/
def sw (w : Nat) (x : Int) : Int :=
  let m : Int := x % (2 ^ w : Int)
  if m < (2 ^ (w - 1) : Int) then m else m - (2 ^ w : Int)

/-- `u32` of the spec's pseudocode. -/
def u32 (x : Int) : Nat := uw 32 x
/-- `i32` of the spec's pseudocode. -/
def i32 (x : Int) : Int := sw 32 x
/-- `i64` of the spec's pseudocode. -/
def i64 (x : Int) : Int := sw 64 x
/-- `u16` of the spec's pseudocode. -/
def u16 (x : Int) : Nat := uw 16 x
/-- `i16` of the spec's pseudocode. -/
def i16 (x : Int) : Int := sw 16 x

/-- Saturation of an integer to a signed width. -/
def satS (w : Nat) (x : Int) : Int :=
  max (-(2 ^ (w - 1) : Int)) (min x ((2 ^ (w - 1) : Int) - 1))

/-- Saturation of an integer to an unsigned width. -/
def satU (w : Nat) (x : Int) : Int := max 0 (min x ((2 ^ w : Int) - 1))

/-- A saturating 32-bit counter incremented by `k`. -/
def satInc (x k : Nat) : Nat := min (x + k) 0xFFFFFFFF

/-- The low bits of a number as a register word. -/
def toW (x : Nat) : Word := BitVec.ofNat 32 x

/-- `n` bytes of a number, least significant first (R29: little-endian). -/
def leBytes : Nat → Nat → List Byte
  | 0, _ => []
  | n + 1, x => BitVec.ofNat 8 x :: leBytes n (x / 256)

/-- The number that bytes spell, least significant first (R29). -/
def leNat : List Byte → Nat
  | [] => 0
  | b :: bs => b.toNat + 256 * leNat bs

/-- `n` bytes of a number, most significant first (network order). -/
def beBytes (n x : Nat) : List Byte := (leBytes n x).reverse

/-- The number that bytes spell, most significant first. -/
def beNat (bs : List Byte) : Nat := leNat bs.reverse

/-- Count of the bits set among the low `w` bits. -/
def popCount : Nat → Nat → Nat
  | 0, _ => 0
  | w + 1, x => x % 2 + popCount w (x / 2)

/-- The lowest index `i < n` with `p i`, searched from `k` upwards by `n` steps. -/
def findFrom (p : Nat → Bool) : Nat → Nat → Option Nat
  | 0, _ => none
  | n + 1, k => if p k then some k else findFrom p n (k + 1)

/-- The lowest index below `n` with `p`. -/
def firstIdx (n : Nat) (p : Nat → Bool) : Option Nat := findFrom p n 0

/-- Apply `f` for the indices `0` to `n - 1` in ascending order. -/
def forN {σ : Type} (n : Nat) (f : Nat → σ → σ) (s : σ) : σ :=
  (List.range n).foldl (fun a i => f i a) s

/-- Apply `f` for each element, in list order. -/
def forEach {α σ : Type} (xs : List α) (f : α → σ → σ) (s : σ) : σ :=
  xs.foldl (fun a x => f x a) s

/-- The bytes of a list from position `o`, `n` of them (short at the list's end). -/
def slice {α : Type} (xs : List α) (o n : Nat) : List α := (xs.drop o).take n

/-- The little-endian number in `n` bytes at position `o`. -/
def leAt (xs : List Byte) (o n : Nat) : Nat := leNat (slice xs o n)

/-- The big-endian number in `n` bytes at position `o`. -/
def beAt (xs : List Byte) (o n : Nat) : Nat := beNat (slice xs o n)

/-- `xs` with the bytes at position `o` replaced by `ys` (nothing beyond the end). -/
def patch {α : Type} (xs : List α) (o : Nat) (ys : List α) : List α :=
  (xs.take o ++ ys ++ xs.drop (o + ys.length)).take xs.length

/-- Update of one element of a list; out of range, the list is unchanged. -/
def updAt {α : Type} : List α → Nat → (α → α) → List α
  | [], _, _ => []
  | x :: xs, 0, f => f x :: xs
  | x :: xs, n + 1, f => x :: updAt xs n f

/-- `k` put into a list that rises in `f`. -/
def insertBy (f : Nat → Nat) (k : Nat) : List Nat → List Nat
  | [] => [k]
  | j :: l => if f k < f j then k :: j :: l else j :: insertBy f k l

end Sys2Proof.Machine
end

