-- ==== Sys2Proof/Machine/Crc.lean ====
section
/-! DEFINITION. The IEEE 802.3 CRC-32 that frames (R38), safety containers, logline records (R416) and saved state use. -/

namespace Sys2Proof.Machine

/-- One bit of the reflected CRC-32 register. -/
def crcBit (c : Nat) : Nat := if c % 2 = 1 then (c / 2) ^^^ 0xEDB88320 else c / 2

/-- One byte into the CRC register. -/
def crcByte (c : Nat) (b : Byte) : Nat :=
  crcBit (crcBit (crcBit (crcBit (crcBit (crcBit (crcBit (crcBit (c ^^^ b.toNat))))))))

/-- IEEE 802.3 CRC-32 of bytes: initial value and final inversion all ones, reflected. -/
def crc32 (bs : List Byte) : Nat := bs.foldl crcByte 0xFFFFFFFF ^^^ 0xFFFFFFFF

/-- The same with the register preset to a seed (R379). -/
def crc32Seed (seed : Nat) (bs : List Byte) : Nat := bs.foldl crcByte seed ^^^ 0xFFFFFFFF

end Sys2Proof.Machine
end

