-- ==== Sys2Proof/Config.lean ====
section
/-! DEFINITION. What an implementation fixes, and the free values of the model.

The family parameters are the P9-256 values of R2. A FREE VALUE is an `opaque` constant with no body: nothing in Lean can
evaluate it, so a claim about it holds for every value. Each is applied to the plain counter `State.free`, which the step
that uses a free value advances, or to the operands the value depends on. -/

namespace Sys2Proof.Config

/-- ID.FP_AXES (R2). -/
def axes : Nat := 256
/-- ID.FP_RINGS (R2). -/
def rings : Nat := 4
/-- ID.FP_NODES (R2). -/
def nodes : Nat := 64
/-- ID.FP_CCORES (R2). -/
def ccores : Nat := 32
/-- ID.FP_STRANDS (R2). -/
def strands : Nat := 1024
/-- ID.FP_TAGS (R2). -/
def tags : Nat := 16384
/-- ID.FP_FLOWS (R2). -/
def flows : Nat := 64
/-- ID.FP_KNOTPOOL (R2). -/
def knotPool : Nat := 8192

/-! ## Free values -/

/-- Bytes the hardware leaves in MRAM after a write whose read-back failed (R417, R464), by the counter and the byte's place. -/
opaque freeByte : Nat → Nat → BitVec 8
/-- A word the spec does not fix: a core clock count (R271, R278), and other 32-bit values so marked in the log. -/
opaque freeWord : Nat → BitVec 32
/-- The standard-loop ROM's contents, by byte offset (R245). -/
opaque rom : Nat → BitVec 8
/-- The TLB entry a fill replaces when the TLB is full (R247). -/
opaque tlbVictim : Nat → Nat
/-- A supervisor core finds the word at a physical address in its L1 data cache (R248, R269). -/
opaque l1Hit : Nat → Nat → Bool
/-- Ingress link delay of a ring port of the P9 in 1/16 ns, which the port measures (R224): ring, and 1 for the tail port. -/
opaque portDelay : Nat → Nat → Nat

/-- The level on an input pin at an instant no command gives: the counter, and the pin's number (notes/assumptions/31.md). -/
opaque pinIn : Nat → Nat → Bool

end Sys2Proof.Config
end

