-- ==== Sys2Proof/Machine/RegMap.lean ====
section
/-! DEFINITION. The register map: where every register of the register blocks lies, and its fields, access types and
reset values, transcribed from the field tables of the spec (files named at each block).

`Reset` marks of the spec other than a number: a field whose Reset column reads "—", "fuse" or a strap holds the value
the assumption log names (zero; notes/assumptions/1.md and 2.md). -/

namespace Sys2Proof.Machine

/-- Access types of R5. -/
inductive Acc where
  | rw | ro | wo | w1c | w1s | rws | rsk
  deriving DecidableEq, Repr

/-- A field of a register: the address of its word and its bit range [hi:lo] (R4). -/
structure Fld where
  addr : Nat
  hi : Nat
  lo : Nat
  deriving DecidableEq, Repr

/-- One row of a field table: the bit range, the access type and the reset value. -/
structure FSpec where
  hi : Nat
  lo : Nat
  acc : Acc
  rst : Nat
  deriving DecidableEq, Repr

/-- A register (or an array of `cnt` registers, `str` bytes apart) at byte offset `off` of its block. -/
structure RSpec where
  off : Nat
  str : Nat
  cnt : Nat
  fields : List FSpec
  deriving DecidableEq, Repr

/-- A register block of the address map: `cnt` instances, `str` bytes apart. -/
structure BSpec where
  base : Nat
  str : Nat
  cnt : Nat
  regs : List RSpec
  deriving DecidableEq, Repr

/-! ## ID (spec/01_architecture.md, R31) -/
namespace R
abbrev ID_VENDOR_W : Nat := 0x10400000
abbrev ID_VENDOR_CODE : Fld := ⟨ID_VENDOR_W, 31, 0⟩
abbrev ID_PART : Nat := 0x10400004
abbrev ID_PART_FAMILY : Fld := ⟨ID_PART, 31, 16⟩
abbrev ID_PART_MEMBER : Fld := ⟨ID_PART, 15, 0⟩
abbrev ID_REV : Nat := 0x10400008
abbrev ID_REV_MAJOR : Fld := ⟨ID_REV, 15, 8⟩
abbrev ID_REV_MINOR : Fld := ⟨ID_REV, 7, 0⟩
abbrev ID_SERIAL_LO_W : Nat := 0x10400010
abbrev ID_SERIAL_LO : Fld := ⟨ID_SERIAL_LO_W, 31, 0⟩
abbrev ID_SERIAL_HI_W : Nat := 0x10400014
abbrev ID_SERIAL_HI : Fld := ⟨ID_SERIAL_HI_W, 31, 0⟩
abbrev ID_FP_AXES_W : Nat := 0x10400100
abbrev ID_FP_AXES : Fld := ⟨ID_FP_AXES_W, 23, 0⟩
abbrev ID_FP_RINGS_W : Nat := 0x10400104
abbrev ID_FP_RINGS : Fld := ⟨ID_FP_RINGS_W, 23, 0⟩
abbrev ID_FP_NODES_W : Nat := 0x10400108
abbrev ID_FP_NODES : Fld := ⟨ID_FP_NODES_W, 23, 0⟩
abbrev ID_FP_CCORES_W : Nat := 0x1040010C
abbrev ID_FP_CCORES : Fld := ⟨ID_FP_CCORES_W, 23, 0⟩
abbrev ID_FP_SCORES_W : Nat := 0x10400110
abbrev ID_FP_SCORES : Fld := ⟨ID_FP_SCORES_W, 23, 0⟩
abbrev ID_FP_STRANDS_W : Nat := 0x10400114
abbrev ID_FP_STRANDS : Fld := ⟨ID_FP_STRANDS_W, 23, 0⟩
abbrev ID_FP_TAGS_W : Nat := 0x10400118
abbrev ID_FP_TAGS : Fld := ⟨ID_FP_TAGS_W, 23, 0⟩
abbrev ID_FP_FLOWS_W : Nat := 0x1040011C
abbrev ID_FP_FLOWS : Fld := ⟨ID_FP_FLOWS_W, 23, 0⟩
abbrev ID_FP_DOMAINS_W : Nat := 0x10400120
abbrev ID_FP_DOMAINS : Fld := ⟨ID_FP_DOMAINS_W, 23, 0⟩
abbrev ID_FP_KNOTPOOL_W : Nat := 0x10400124
abbrev ID_FP_KNOTPOOL : Fld := ⟨ID_FP_KNOTPOOL_W, 23, 0⟩
abbrev ID_FP_PCHAN_W : Nat := 0x10400128
abbrev ID_FP_PCHAN : Fld := ⟨ID_FP_PCHAN_W, 23, 0⟩
abbrev ID_FP_HGROUPS_W : Nat := 0x1040012C
abbrev ID_FP_HGROUPS : Fld := ⟨ID_FP_HGROUPS_W, 23, 0⟩
abbrev ID_FP_MRAM_W : Nat := 0x10400130
abbrev ID_FP_MRAM : Fld := ⟨ID_FP_MRAM_W, 23, 0⟩
end R

def mapID : List RSpec := [
  ⟨0x0, 4, 1, [⟨31, 0, .ro, 0x41564E44⟩]⟩,
  ⟨0x4, 4, 1, [⟨31, 16, .ro, 0x5059⟩, ⟨15, 0, .ro, 0x9256⟩]⟩,
  ⟨0x8, 4, 1, [⟨15, 8, .ro, 0x1⟩, ⟨7, 0, .ro, 0x0⟩]⟩,
  ⟨0x10, 4, 1, [⟨31, 0, .ro, 0x1⟩]⟩,
  ⟨0x14, 4, 1, [⟨31, 0, .ro, 0x0⟩]⟩,
  ⟨0x100, 4, 1, [⟨23, 0, .ro, 0x100⟩]⟩,
  ⟨0x104, 4, 1, [⟨23, 0, .ro, 0x4⟩]⟩,
  ⟨0x108, 4, 1, [⟨23, 0, .ro, 0x40⟩]⟩,
  ⟨0x10C, 4, 1, [⟨23, 0, .ro, 0x20⟩]⟩,
  ⟨0x110, 4, 1, [⟨23, 0, .ro, 0x4⟩]⟩,
  ⟨0x114, 4, 1, [⟨23, 0, .ro, 0x400⟩]⟩,
  ⟨0x118, 4, 1, [⟨23, 0, .ro, 0x4000⟩]⟩,
  ⟨0x11C, 4, 1, [⟨23, 0, .ro, 0x40⟩]⟩,
  ⟨0x120, 4, 1, [⟨23, 0, .ro, 0x100⟩]⟩,
  ⟨0x124, 4, 1, [⟨23, 0, .ro, 0x2000⟩]⟩,
  ⟨0x128, 4, 1, [⟨23, 0, .ro, 0x40⟩]⟩,
  ⟨0x12C, 4, 1, [⟨23, 0, .ro, 0x10⟩]⟩,
  ⟨0x130, 4, 1, [⟨23, 0, .ro, 0x4000⟩]⟩]

/-! ## RING (spec/02_finil_ring.md, R62) -/
namespace R
abbrev RING_CTRL (n : Nat) : Nat := 0x10120000 + 0x4000 * n
abbrev RING_CTRL_CNTCLR (n : Nat) : Fld := ⟨RING_CTRL n, 7, 7⟩
abbrev RING_CTRL_DUPLEX (n : Nat) : Fld := ⟨RING_CTRL n, 5, 5⟩
abbrev RING_CTRL_TDOM (n : Nat) : Fld := ⟨RING_CTRL n, 4, 4⟩
abbrev RING_CTRL_REDISCOVER (n : Nat) : Fld := ⟨RING_CTRL n, 3, 3⟩
abbrev RING_CTRL_HEAL (n : Nat) : Fld := ⟨RING_CTRL n, 2, 2⟩
abbrev RING_CTRL_RUN (n : Nat) : Fld := ⟨RING_CTRL n, 1, 1⟩
abbrev RING_CTRL_EN (n : Nat) : Fld := ⟨RING_CTRL n, 0, 0⟩
abbrev RING_STAT (n : Nat) : Nat := 0x10120004 + 0x4000 * n
abbrev RING_STAT_SPEED (n : Nat) : Fld := ⟨RING_STAT n, 12, 11⟩
abbrev RING_STAT_SPEED_DOWN (n : Nat) : Fld := ⟨RING_STAT n, 10, 10⟩
abbrev RING_STAT_SCHEDERR (n : Nat) : Fld := ⟨RING_STAT n, 9, 9⟩
abbrev RING_STAT_CFGERR (n : Nat) : Fld := ⟨RING_STAT n, 8, 8⟩
abbrev RING_STAT_SWEEPERR (n : Nat) : Fld := ⟨RING_STAT n, 7, 7⟩
abbrev RING_STAT_HEALERR (n : Nat) : Fld := ⟨RING_STAT n, 6, 6⟩
abbrev RING_STAT_FOREIGN (n : Nat) : Fld := ⟨RING_STAT n, 5, 5⟩
abbrev RING_STAT_BREAK (n : Nat) : Fld := ⟨RING_STAT n, 4, 4⟩
abbrev RING_STAT_STATE (n : Nat) : Fld := ⟨RING_STAT n, 3, 0⟩
abbrev RING_PORT_CFG_W (n : Nat) : Nat := 0x10120008 + 0x4000 * n
abbrev RING_PORT_CFG_SPEED (n : Nat) : Fld := ⟨RING_PORT_CFG_W n, 1, 0⟩
abbrev RING_PORT_STAT (n : Nat) : Nat := 0x1012000C + 0x4000 * n
abbrev RING_PORT_STAT_TAIL_SPEED (n : Nat) : Fld := ⟨RING_PORT_STAT n, 5, 4⟩
abbrev RING_PORT_STAT_HEAD_SPEED (n : Nat) : Fld := ⟨RING_PORT_STAT n, 3, 2⟩
abbrev RING_PORT_STAT_TAIL_LINK (n : Nat) : Fld := ⟨RING_PORT_STAT n, 1, 1⟩
abbrev RING_PORT_STAT_HEAD_LINK (n : Nat) : Fld := ⟨RING_PORT_STAT n, 0, 0⟩
abbrev RING_OUI_W (n : Nat) : Nat := 0x10120010 + 0x4000 * n
abbrev RING_OUI (n : Nat) : Fld := ⟨RING_OUI_W n, 23, 0⟩
abbrev RING_PROTO_W (n : Nat) : Nat := 0x10120014 + 0x4000 * n
abbrev RING_PROTO (n : Nat) : Fld := ⟨RING_PROTO_W n, 15, 0⟩
abbrev RING_DA_LO_W (n : Nat) : Nat := 0x10120018 + 0x4000 * n
abbrev RING_DA_LO (n : Nat) : Fld := ⟨RING_DA_LO_W n, 31, 0⟩
abbrev RING_DA_HI_W (n : Nat) : Nat := 0x1012001C + 0x4000 * n
abbrev RING_DA_HI (n : Nat) : Fld := ⟨RING_DA_HI_W n, 15, 0⟩
abbrev RING_SA_LO_W (n : Nat) : Nat := 0x10120020 + 0x4000 * n
abbrev RING_SA_LO (n : Nat) : Fld := ⟨RING_SA_LO_W n, 31, 0⟩
abbrev RING_SA_HI_W (n : Nat) : Nat := 0x10120024 + 0x4000 * n
abbrev RING_SA_HI (n : Nat) : Fld := ⟨RING_SA_HI_W n, 15, 0⟩
abbrev RING_TX_OFFSET_W (n : Nat) : Nat := 0x10120028 + 0x4000 * n
abbrev RING_TX_OFFSET (n : Nat) : Fld := ⟨RING_TX_OFFSET_W n, 21, 0⟩
abbrev RING_SPH_W (n : Nat) : Nat := 0x1012002C + 0x4000 * n
abbrev RING_SPH (n : Nat) : Fld := ⟨RING_SPH_W n, 21, 0⟩
abbrev RING_APH_W (n : Nat) : Nat := 0x10120030 + 0x4000 * n
abbrev RING_APH (n : Nat) : Fld := ⟨RING_APH_W n, 21, 0⟩
abbrev RING_RETURN_LIMIT_W (n : Nat) : Nat := 0x10120034 + 0x4000 * n
abbrev RING_RETURN_LIMIT (n : Nat) : Fld := ⟨RING_RETURN_LIMIT_W n, 21, 0⟩
abbrev RING_MISS_LIMIT_W (n : Nat) : Nat := 0x10120038 + 0x4000 * n
abbrev RING_MISS_LIMIT (n : Nat) : Fld := ⟨RING_MISS_LIMIT_W n, 7, 0⟩
abbrev RING_NODE_RETRY_W (n : Nat) : Nat := 0x1012003C + 0x4000 * n
abbrev RING_NODE_RETRY (n : Nat) : Fld := ⟨RING_NODE_RETRY_W n, 15, 0⟩
abbrev RING_HEAL_WAIT_W (n : Nat) : Nat := 0x10120040 + 0x4000 * n
abbrev RING_HEAL_WAIT (n : Nat) : Fld := ⟨RING_HEAL_WAIT_W n, 15, 0⟩
abbrev RING_TOPO (n : Nat) : Nat := 0x10120044 + 0x4000 * n
abbrev RING_TOPO_BREAK_V (n : Nat) : Fld := ⟨RING_TOPO n, 22, 16⟩
abbrev RING_TOPO_BREAK_U (n : Nat) : Fld := ⟨RING_TOPO n, 14, 8⟩
abbrev RING_TOPO_NODES (n : Nat) : Fld := ⟨RING_TOPO n, 6, 0⟩
abbrev RING_SCHED (n : Nat) : Nat := 0x10120048 + 0x4000 * n
abbrev RING_SCHED_ACTIVE_NOW (n : Nat) : Fld := ⟨RING_SCHED n, 8, 8⟩
abbrev RING_SCHED_ACTIVE (n : Nat) : Fld := ⟨RING_SCHED n, 0, 0⟩
abbrev RING_FCS_ERR_W (n : Nat) : Nat := 0x10120080 + 0x4000 * n
abbrev RING_FCS_ERR (n : Nat) : Fld := ⟨RING_FCS_ERR_W n, 31, 0⟩
abbrev RING_LEN_ERR_W (n : Nat) : Nat := 0x10120084 + 0x4000 * n
abbrev RING_LEN_ERR (n : Nat) : Fld := ⟨RING_LEN_ERR_W n, 31, 0⟩
abbrev RING_HITS_ERR_W (n : Nat) : Nat := 0x10120088 + 0x4000 * n
abbrev RING_HITS_ERR (n : Nat) : Fld := ⟨RING_HITS_ERR_W n, 31, 0⟩
abbrev RING_FOREIGN_CNT_W (n : Nat) : Nat := 0x1012008C + 0x4000 * n
abbrev RING_FOREIGN_CNT (n : Nat) : Fld := ⟨RING_FOREIGN_CNT_W n, 31, 0⟩
abbrev RING_LATE_RET_W (n : Nat) : Nat := 0x10120090 + 0x4000 * n
abbrev RING_LATE_RET (n : Nat) : Fld := ⟨RING_LATE_RET_W n, 31, 0⟩
abbrev RING_CLAIM_CNT_W (n : Nat) : Nat := 0x10120094 + 0x4000 * n
abbrev RING_CLAIM_CNT (n : Nat) : Fld := ⟨RING_CLAIM_CNT_W n, 31, 0⟩
abbrev RING_NONFINIL_W (n : Nat) : Nat := 0x10120098 + 0x4000 * n
abbrev RING_NONFINIL (n : Nat) : Fld := ⟨RING_NONFINIL_W n, 31, 0⟩
abbrev RING_MARK_T_W (n i : Nat) : Nat := 0x10120100 + 0x4000 * n + 0x8 * i
abbrev RING_MARK_T_OFFSET (n i : Nat) : Fld := ⟨RING_MARK_T_W n i, 21, 0⟩
abbrev RING_MARK_C (n i : Nat) : Nat := 0x10120104 + 0x4000 * n + 0x8 * i
abbrev RING_MARK_C_EN (n i : Nat) : Fld := ⟨RING_MARK_C n i, 31, 31⟩
abbrev RING_MARK_C_DIVEXP (n i : Nat) : Fld := ⟨RING_MARK_C n i, 30, 28⟩
abbrev RING_MARK_C_PHASE (n i : Nat) : Fld := ⟨RING_MARK_C n i, 26, 20⟩
abbrev RING_MARK_C_IRQ (n i : Nat) : Fld := ⟨RING_MARK_C n i, 19, 19⟩
abbrev RING_MARK_C_SNAP (n i : Nat) : Fld := ⟨RING_MARK_C n i, 18, 18⟩
abbrev RING_MARK_C_TAGEN (n i : Nat) : Fld := ⟨RING_MARK_C n i, 17, 17⟩
abbrev RING_MARK_C_TAG (n i : Nat) : Fld := ⟨RING_MARK_C n i, 13, 0⟩
abbrev RING_MARK_OVR_W (n : Nat) : Nat := 0x10120180 + 0x4000 * n
abbrev RING_MARK_OVR_OVR (n : Nat) : Fld := ⟨RING_MARK_OVR_W n, 15, 0⟩
abbrev RING_MARK_FIRED_W (n : Nat) : Nat := 0x10120184 + 0x4000 * n
abbrev RING_MARK_FIRED_FIRED (n : Nat) : Fld := ⟨RING_MARK_FIRED_W n, 15, 0⟩
abbrev RING_NT_SERIAL_LO_W (n i : Nat) : Nat := 0x10121000 + 0x4000 * n + 0x20 * i
abbrev RING_NT_SERIAL_LO (n i : Nat) : Fld := ⟨RING_NT_SERIAL_LO_W n i, 31, 0⟩
abbrev RING_NT_SERIAL_HI_W (n i : Nat) : Nat := 0x10121004 + 0x4000 * n + 0x20 * i
abbrev RING_NT_SERIAL_HI (n i : Nat) : Fld := ⟨RING_NT_SERIAL_HI_W n i, 31, 0⟩
abbrev RING_NT_IDENT (n i : Nat) : Nat := 0x10121008 + 0x4000 * n + 0x20 * i
abbrev RING_NT_IDENT_VENDOR (n i : Nat) : Fld := ⟨RING_NT_IDENT n i, 31, 16⟩
abbrev RING_NT_IDENT_PRODUCT (n i : Nat) : Fld := ⟨RING_NT_IDENT n i, 15, 0⟩
abbrev RING_NT_STATE (n i : Nat) : Nat := 0x1012100C + 0x4000 * n + 0x20 * i
abbrev RING_NT_STATE_ACCEPT (n i : Nat) : Fld := ⟨RING_NT_STATE n i, 16, 16⟩
abbrev RING_NT_STATE_TAILSEG (n i : Nat) : Fld := ⟨RING_NT_STATE n i, 15, 15⟩
abbrev RING_NT_STATE_POS (n i : Nat) : Fld := ⟨RING_NT_STATE n i, 14, 8⟩
abbrev RING_NT_STATE_NAX (n i : Nat) : Fld := ⟨RING_NT_STATE n i, 7, 4⟩
abbrev RING_NT_STATE_HASH_MISMATCH (n i : Nat) : Fld := ⟨RING_NT_STATE n i, 3, 3⟩
abbrev RING_NT_STATE_STATE (n i : Nat) : Fld := ⟨RING_NT_STATE n i, 2, 0⟩
abbrev RING_NT_PHASH_W (n i : Nat) : Nat := 0x10121010 + 0x4000 * n + 0x20 * i
abbrev RING_NT_PHASH_PHASH (n i : Nat) : Fld := ⟨RING_NT_PHASH_W n i, 31, 0⟩
abbrev RING_NT_DIN_W (n i : Nat) : Nat := 0x10121014 + 0x4000 * n + 0x20 * i
abbrev RING_NT_DIN_D_IN (n i : Nat) : Fld := ⟨RING_NT_DIN_W n i, 31, 0⟩
abbrev RING_NT_DOUT_W (n i : Nat) : Nat := 0x10121018 + 0x4000 * n + 0x20 * i
abbrev RING_NT_DOUT_D_OUT (n i : Nat) : Fld := ⟨RING_NT_DOUT_W n i, 31, 0⟩
abbrev RING_NT_RETRY_W (n i : Nat) : Nat := 0x1012101C + 0x4000 * n + 0x20 * i
abbrev RING_NT_RETRY_RETRY_LEFT (n i : Nat) : Fld := ⟨RING_NT_RETRY_W n i, 15, 0⟩
abbrev RING_SCH_W0 (n i : Nat) : Nat := 0x10122000 + 0x4000 * n + 0x8 * i
abbrev RING_SCH_W0_VALID (n i : Nat) : Fld := ⟨RING_SCH_W0 n i, 31, 31⟩
abbrev RING_SCH_W0_FIDX (n i : Nat) : Fld := ⟨RING_SCH_W0 n i, 30, 27⟩
abbrev RING_SCH_W0_DIVEXP (n i : Nat) : Fld := ⟨RING_SCH_W0 n i, 26, 24⟩
abbrev RING_SCH_W0_DTYPE (n i : Nat) : Fld := ⟨RING_SCH_W0 n i, 23, 16⟩
abbrev RING_SCH_W0_NODE (n i : Nat) : Fld := ⟨RING_SCH_W0 n i, 15, 8⟩
abbrev RING_SCH_W0_PHASE (n i : Nat) : Fld := ⟨RING_SCH_W0 n i, 7, 0⟩
abbrev RING_SCH_W1 (n i : Nat) : Nat := 0x10122004 + 0x4000 * n + 0x8 * i
abbrev RING_SCH_W1_DLEN (n i : Nat) : Fld := ⟨RING_SCH_W1 n i, 31, 21⟩
abbrev RING_SCH_W1_ULEN (n i : Nat) : Fld := ⟨RING_SCH_W1 n i, 20, 10⟩
abbrev RING_SCH_W1_AXBASE (n i : Nat) : Fld := ⟨RING_SCH_W1 n i, 9, 2⟩
abbrev RING_SCH_W1_NAXM1 (n i : Nat) : Fld := ⟨RING_SCH_W1 n i, 1, 0⟩
end R

def mapRING0c : List RSpec := [
  ⟨0x0, 4, 1, [⟨7, 7, .w1s, 0x0⟩, ⟨5, 5, .rw, 0x0⟩, ⟨4, 4, .rws, 0x0⟩, ⟨3, 3, .w1s, 0x0⟩, ⟨2, 2, .w1s, 0x0⟩, ⟨1, 1, .rw, 0x0⟩, ⟨0, 0, .rw, 0x0⟩]⟩,
  ⟨0x4, 4, 1, [⟨12, 11, .ro, 0x0⟩, ⟨10, 10, .rsk, 0x0⟩, ⟨9, 9, .rsk, 0x0⟩, ⟨8, 8, .ro, 0x0⟩, ⟨7, 7, .rsk, 0x0⟩, ⟨6, 6, .rsk, 0x0⟩, ⟨5, 5, .rsk, 0x0⟩, ⟨4, 4, .ro, 0x0⟩, ⟨3, 0, .ro, 0x0⟩]⟩,
  ⟨0x8, 4, 1, [⟨1, 0, .rw, 0x3⟩]⟩,
  ⟨0xC, 4, 1, [⟨5, 4, .ro, 0x0⟩, ⟨3, 2, .ro, 0x0⟩, ⟨1, 1, .ro, 0x0⟩, ⟨0, 0, .ro, 0x0⟩]⟩,
  ⟨0x10, 4, 1, [⟨23, 0, .rw, 0x0⟩]⟩,
  ⟨0x14, 4, 1, [⟨15, 0, .rw, 0x0⟩]⟩,
  ⟨0x18, 4, 1, [⟨31, 0, .rw, 0xFFFFFFFF⟩]⟩,
  ⟨0x1C, 4, 1, [⟨15, 0, .rw, 0xFFFF⟩]⟩,
  ⟨0x20, 4, 1, [⟨31, 0, .rw, 0x0⟩]⟩,
  ⟨0x24, 4, 1, [⟨15, 0, .rw, 0x0⟩]⟩,
  ⟨0x28, 4, 1, [⟨21, 0, .rws, 0x0⟩]⟩,
  ⟨0x2C, 4, 1, [⟨21, 0, .rws, 0x0⟩]⟩,
  ⟨0x30, 4, 1, [⟨21, 0, .rws, 0x0⟩]⟩,
  ⟨0x34, 4, 1, [⟨21, 0, .rws, 0x0⟩]⟩,
  ⟨0x38, 4, 1, [⟨7, 0, .rw, 0x9⟩]⟩,
  ⟨0x3C, 4, 1, [⟨15, 0, .rw, 0x1F4⟩]⟩,
  ⟨0x40, 4, 1, [⟨15, 0, .rw, 0x64⟩]⟩,
  ⟨0x44, 4, 1, [⟨22, 16, .ro, 0x0⟩, ⟨14, 8, .ro, 0x0⟩, ⟨6, 0, .ro, 0x0⟩]⟩,
  ⟨0x48, 4, 1, [⟨8, 8, .ro, 0x0⟩, ⟨0, 0, .rws, 0x0⟩]⟩,
  ⟨0x80, 4, 1, [⟨31, 0, .ro, 0x0⟩]⟩,
  ⟨0x84, 4, 1, [⟨31, 0, .ro, 0x0⟩]⟩,
  ⟨0x88, 4, 1, [⟨31, 0, .ro, 0x0⟩]⟩,
  ⟨0x8C, 4, 1, [⟨31, 0, .ro, 0x0⟩]⟩,
  ⟨0x90, 4, 1, [⟨31, 0, .ro, 0x0⟩]⟩]
def mapRING1c : List RSpec := [
  ⟨0x94, 4, 1, [⟨31, 0, .ro, 0x0⟩]⟩,
  ⟨0x98, 4, 1, [⟨31, 0, .ro, 0x0⟩]⟩,
  ⟨0x100, 8, 16, [⟨21, 0, .rws, 0x0⟩]⟩,
  ⟨0x104, 8, 16, [⟨31, 31, .rws, 0x0⟩, ⟨30, 28, .rws, 0x0⟩, ⟨26, 20, .rws, 0x0⟩, ⟨19, 19, .rws, 0x0⟩, ⟨18, 18, .rws, 0x0⟩, ⟨17, 17, .rws, 0x0⟩, ⟨13, 0, .rws, 0x0⟩]⟩,
  ⟨0x180, 4, 1, [⟨15, 0, .rsk, 0x0⟩]⟩,
  ⟨0x184, 4, 1, [⟨15, 0, .rsk, 0x0⟩]⟩,
  ⟨0x1000, 32, 64, [⟨31, 0, .ro, 0x0⟩]⟩,
  ⟨0x1004, 32, 64, [⟨31, 0, .ro, 0x0⟩]⟩,
  ⟨0x1008, 32, 64, [⟨31, 16, .ro, 0x0⟩, ⟨15, 0, .ro, 0x0⟩]⟩,
  ⟨0x100C, 32, 64, [⟨16, 16, .w1s, 0x0⟩, ⟨15, 15, .ro, 0x0⟩, ⟨14, 8, .ro, 0x0⟩, ⟨7, 4, .ro, 0x0⟩, ⟨3, 3, .ro, 0x0⟩, ⟨2, 0, .ro, 0x0⟩]⟩,
  ⟨0x1010, 32, 64, [⟨31, 0, .ro, 0x0⟩]⟩,
  ⟨0x1014, 32, 64, [⟨31, 0, .ro, 0x0⟩]⟩,
  ⟨0x1018, 32, 64, [⟨31, 0, .ro, 0x0⟩]⟩,
  ⟨0x101C, 32, 64, [⟨15, 0, .ro, 0x0⟩]⟩,
  ⟨0x2000, 8, 1024, [⟨31, 31, .rw, 0x0⟩, ⟨30, 27, .rw, 0x0⟩, ⟨26, 24, .rw, 0x0⟩, ⟨23, 16, .rw, 0x0⟩, ⟨15, 8, .rw, 0x0⟩, ⟨7, 0, .rw, 0x0⟩]⟩,
  ⟨0x2004, 8, 1024, [⟨31, 21, .rw, 0x0⟩, ⟨20, 10, .rw, 0x0⟩, ⟨9, 2, .rw, 0x0⟩, ⟨1, 0, .rw, 0x0⟩]⟩]

/-! ## AX (spec/07_axis_block.md, R177) -/
namespace R
abbrev AX_CTRL (n : Nat) : Nat := 0x10000000 + 0x1000 * n
abbrev AX_CTRL_RPHASE (n : Nat) : Fld := ⟨AX_CTRL n, 18, 12⟩
abbrev AX_CTRL_RATE (n : Nat) : Fld := ⟨AX_CTRL n, 11, 9⟩
abbrev AX_CTRL_ADV (n : Nat) : Fld := ⟨AX_CTRL n, 8, 8⟩
abbrev AX_CTRL_SPLIT (n : Nat) : Fld := ⟨AX_CTRL n, 7, 7⟩
abbrev AX_CTRL_LOOP (n : Nat) : Fld := ⟨AX_CTRL n, 6, 6⟩
abbrev AX_CTRL_KIND (n : Nat) : Fld := ⟨AX_CTRL n, 5, 4⟩
abbrev AX_CTRL_MODE (n : Nat) : Fld := ⟨AX_CTRL n, 3, 0⟩
abbrev AX_CTRL_ACT (n : Nat) : Nat := 0x10000004 + 0x1000 * n
abbrev AX_CTRL_ACT_RPHASE (n : Nat) : Fld := ⟨AX_CTRL_ACT n, 18, 12⟩
abbrev AX_CTRL_ACT_RATE (n : Nat) : Fld := ⟨AX_CTRL_ACT n, 11, 9⟩
abbrev AX_CTRL_ACT_ADV (n : Nat) : Fld := ⟨AX_CTRL_ACT n, 8, 8⟩
abbrev AX_CTRL_ACT_SPLIT (n : Nat) : Fld := ⟨AX_CTRL_ACT n, 7, 7⟩
abbrev AX_CTRL_ACT_LOOP (n : Nat) : Fld := ⟨AX_CTRL_ACT n, 6, 6⟩
abbrev AX_CTRL_ACT_KIND (n : Nat) : Fld := ⟨AX_CTRL_ACT n, 5, 4⟩
abbrev AX_CTRL_ACT_MODE (n : Nat) : Fld := ⟨AX_CTRL_ACT n, 3, 0⟩
abbrev AX_CMT (n : Nat) : Nat := 0x10000008 + 0x1000 * n
abbrev AX_CMT_GMASK (n : Nat) : Fld := ⟨AX_CMT n, 26, 16⟩
abbrev AX_CMT_GO (n : Nat) : Fld := ⟨AX_CMT n, 0, 0⟩
abbrev AX_CMT_CYC_W (n : Nat) : Nat := 0x1000000C + 0x1000 * n
abbrev AX_CMT_CYC (n : Nat) : Fld := ⟨AX_CMT_CYC_W n, 31, 0⟩
abbrev AX_CMT_ERR_W (n : Nat) : Nat := 0x10000010 + 0x1000 * n
abbrev AX_CMT_ERR_ERRGRP (n : Nat) : Fld := ⟨AX_CMT_ERR_W n, 10, 0⟩
abbrev AX_STATUS (n : Nat) : Nat := 0x10000040 + 0x1000 * n
abbrev AX_STATUS_IDRUN (n : Nat) : Fld := ⟨AX_STATUS n, 28, 28⟩
abbrev AX_STATUS_FB_RUN (n : Nat) : Fld := ⟨AX_STATUS n, 27, 24⟩
abbrev AX_STATUS_HLOCK (n : Nat) : Fld := ⟨AX_STATUS n, 23, 23⟩
abbrev AX_STATUS_HWAIT (n : Nat) : Fld := ⟨AX_STATUS n, 22, 22⟩
abbrev AX_STATUS_STOPPING (n : Nat) : Fld := ⟨AX_STATUS n, 21, 21⟩
abbrev AX_STATUS_PDONE (n : Nat) : Fld := ⟨AX_STATUS n, 20, 20⟩
abbrev AX_STATUS_FBINVALID (n : Nat) : Fld := ⟨AX_STATUS n, 19, 19⟩
abbrev AX_STATUS_UNDERVOLT (n : Nat) : Fld := ⟨AX_STATUS n, 18, 18⟩
abbrev AX_STATUS_MSTALE (n : Nat) : Fld := ⟨AX_STATUS n, 17, 17⟩
abbrev AX_STATUS_REPMLOST (n : Nat) : Fld := ⟨AX_STATUS n, 16, 16⟩
abbrev AX_STATUS_REPNUM (n : Nat) : Fld := ⟨AX_STATUS n, 15, 15⟩
abbrev AX_STATUS_NUMERR (n : Nat) : Fld := ⟨AX_STATUS n, 14, 14⟩
abbrev AX_STATUS_PARERR (n : Nat) : Fld := ⟨AX_STATUS n, 13, 13⟩
abbrev AX_STATUS_REPERR (n : Nat) : Fld := ⟨AX_STATUS n, 12, 12⟩
abbrev AX_STATUS_IDERR (n : Nat) : Fld := ⟨AX_STATUS n, 11, 11⟩
abbrev AX_STATUS_HITCHERR (n : Nat) : Fld := ⟨AX_STATUS n, 10, 10⟩
abbrev AX_STATUS_PRFERR (n : Nat) : Fld := ⟨AX_STATUS n, 9, 9⟩
abbrev AX_STATUS_SPLITERR (n : Nat) : Fld := ⟨AX_STATUS n, 8, 8⟩
abbrev AX_STATUS_MODEERR (n : Nat) : Fld := ⟨AX_STATUS n, 7, 7⟩
abbrev AX_STATUS_LIMN (n : Nat) : Fld := ⟨AX_STATUS n, 6, 6⟩
abbrev AX_STATUS_LIMP (n : Nat) : Fld := ⟨AX_STATUS n, 5, 5⟩
abbrev AX_STATUS_LATE (n : Nat) : Fld := ⟨AX_STATUS n, 4, 4⟩
abbrev AX_STATUS_OVC (n : Nat) : Fld := ⟨AX_STATUS n, 3, 3⟩
abbrev AX_STATUS_NODEMISS (n : Nat) : Fld := ⟨AX_STATUS n, 2, 2⟩
abbrev AX_STATUS_FBLOSS (n : Nat) : Fld := ⟨AX_STATUS n, 1, 1⟩
abbrev AX_STATUS_FE (n : Nat) : Fld := ⟨AX_STATUS n, 0, 0⟩
abbrev AX_FB_CNT_W (n : Nat) : Nat := 0x10000044 + 0x1000 * n
abbrev AX_FB_CNT (n : Nat) : Fld := ⟨AX_FB_CNT_W n, 31, 0⟩
abbrev AX_LATE_CNT_W (n : Nat) : Nat := 0x10000048 + 0x1000 * n
abbrev AX_LATE_CNT (n : Nat) : Fld := ⟨AX_LATE_CNT_W n, 31, 0⟩
abbrev AX_NUM_CNT_W (n : Nat) : Nat := 0x1000004C + 0x1000 * n
abbrev AX_NUM_CNT (n : Nat) : Fld := ⟨AX_NUM_CNT_W n, 31, 0⟩
abbrev AX_CNTCLR_W (n : Nat) : Nat := 0x10000050 + 0x1000 * n
abbrev AX_CNTCLR_CLR (n : Nat) : Fld := ⟨AX_CNTCLR_W n, 0, 0⟩
abbrev AX_PRF_CTRL_W (n : Nat) : Nat := 0x10000080 + 0x1000 * n
abbrev AX_PRF_CTRL_GO (n : Nat) : Fld := ⟨AX_PRF_CTRL_W n, 0, 0⟩
abbrev AX_X_TGT_LO_W (n : Nat) : Nat := 0x10000084 + 0x1000 * n
abbrev AX_X_TGT_LO (n : Nat) : Fld := ⟨AX_X_TGT_LO_W n, 31, 0⟩
abbrev AX_X_TGT_HI_W (n : Nat) : Nat := 0x10000088 + 0x1000 * n
abbrev AX_X_TGT_HI (n : Nat) : Fld := ⟨AX_X_TGT_HI_W n, 31, 0⟩
abbrev AX_VTGT_W (n : Nat) : Nat := 0x1000008C + 0x1000 * n
abbrev AX_VTGT (n : Nat) : Fld := ⟨AX_VTGT_W n, 31, 0⟩
abbrev AX_VMAX_W (n : Nat) : Nat := 0x10000090 + 0x1000 * n
abbrev AX_VMAX (n : Nat) : Fld := ⟨AX_VMAX_W n, 31, 0⟩
abbrev AX_AMAX_W (n : Nat) : Nat := 0x10000094 + 0x1000 * n
abbrev AX_AMAX (n : Nat) : Fld := ⟨AX_AMAX_W n, 31, 0⟩
abbrev AX_DMAX_W (n : Nat) : Nat := 0x10000098 + 0x1000 * n
abbrev AX_DMAX (n : Nat) : Fld := ⟨AX_DMAX_W n, 31, 0⟩
abbrev AX_JMAX_W (n : Nat) : Nat := 0x1000009C + 0x1000 * n
abbrev AX_JMAX (n : Nat) : Fld := ⟨AX_JMAX_W n, 31, 0⟩
abbrev AX_SDMAX_W (n : Nat) : Nat := 0x100000A0 + 0x1000 * n
abbrev AX_SDMAX (n : Nat) : Fld := ⟨AX_SDMAX_W n, 31, 0⟩
abbrev AX_SJMAX_W (n : Nat) : Nat := 0x100000A4 + 0x1000 * n
abbrev AX_SJMAX (n : Nat) : Fld := ⟨AX_SJMAX_W n, 31, 0⟩
abbrev AX_LP_W (n i : Nat) : Nat := 0x10000100 + 0x1000 * n + 0x8 * i
abbrev AX_LP (n i : Nat) : Fld := ⟨AX_LP_W n i, 31, 0⟩
abbrev AX_LPA_W (n i : Nat) : Nat := 0x10000104 + 0x1000 * n + 0x8 * i
abbrev AX_LPA (n i : Nat) : Fld := ⟨AX_LPA_W n i, 31, 0⟩
abbrev AX_GT_ESCALE_W (n : Nat) : Nat := 0x100001A0 + 0x1000 * n
abbrev AX_GT_ESCALE (n : Nat) : Fld := ⟨AX_GT_ESCALE_W n, 31, 0⟩
abbrev AX_GT_ESCALE_ACT_W (n : Nat) : Nat := 0x100001A4 + 0x1000 * n
abbrev AX_GT_ESCALE_ACT (n : Nat) : Fld := ⟨AX_GT_ESCALE_ACT_W n, 31, 0⟩
abbrev AX_CPR_W (n : Nat) : Nat := 0x100001A8 + 0x1000 * n
abbrev AX_CPR (n : Nat) : Fld := ⟨AX_CPR_W n, 31, 0⟩
abbrev AX_CPR_ACT_W (n : Nat) : Nat := 0x100001AC + 0x1000 * n
abbrev AX_CPR_ACT (n : Nat) : Fld := ⟨AX_CPR_ACT_W n, 31, 0⟩
abbrev AX_POLES_W (n : Nat) : Nat := 0x100001B0 + 0x1000 * n
abbrev AX_POLES (n : Nat) : Fld := ⟨AX_POLES_W n, 31, 0⟩
abbrev AX_POLES_ACT_W (n : Nat) : Nat := 0x100001B4 + 0x1000 * n
abbrev AX_POLES_ACT (n : Nat) : Fld := ⟨AX_POLES_ACT_W n, 31, 0⟩
abbrev AX_COMM_OFS_W (n : Nat) : Nat := 0x100001B8 + 0x1000 * n
abbrev AX_COMM_OFS (n : Nat) : Fld := ⟨AX_COMM_OFS_W n, 31, 0⟩
abbrev AX_COMM_OFS_ACT_W (n : Nat) : Nat := 0x100001BC + 0x1000 * n
abbrev AX_COMM_OFS_ACT (n : Nat) : Fld := ⟨AX_COMM_OFS_ACT_W n, 31, 0⟩
abbrev AX_NB_B0_W (n i : Nat) : Nat := 0x10000200 + 0x1000 * n + 0x14 * i
abbrev AX_NB_B0 (n i : Nat) : Fld := ⟨AX_NB_B0_W n i, 31, 0⟩
abbrev AX_NB_B1_W (n i : Nat) : Nat := 0x10000204 + 0x1000 * n + 0x14 * i
abbrev AX_NB_B1 (n i : Nat) : Fld := ⟨AX_NB_B1_W n i, 31, 0⟩
abbrev AX_NB_B2_W (n i : Nat) : Nat := 0x10000208 + 0x1000 * n + 0x14 * i
abbrev AX_NB_B2 (n i : Nat) : Fld := ⟨AX_NB_B2_W n i, 31, 0⟩
abbrev AX_NB_A1_W (n i : Nat) : Nat := 0x1000020C + 0x1000 * n + 0x14 * i
abbrev AX_NB_A1 (n i : Nat) : Fld := ⟨AX_NB_A1_W n i, 31, 0⟩
abbrev AX_NB_A2_W (n i : Nat) : Nat := 0x10000210 + 0x1000 * n + 0x14 * i
abbrev AX_NB_A2 (n i : Nat) : Fld := ⟨AX_NB_A2_W n i, 31, 0⟩
abbrev AX_G_W (n i : Nat) : Nat := 0x10000280 + 0x1000 * n + 0x4 * i
abbrev AX_G (n i : Nat) : Fld := ⟨AX_G_W n i, 31, 0⟩
abbrev AX_ID_CFG (n : Nat) : Nat := 0x10000340 + 0x1000 * n
abbrev AX_ID_CFG_STEPS (n : Nat) : Fld := ⟨AX_ID_CFG n, 16, 8⟩
abbrev AX_ID_CFG_GUARD (n : Nat) : Fld := ⟨AX_ID_CFG n, 7, 4⟩
abbrev AX_ID_CFG_OUT (n : Nat) : Fld := ⟨AX_ID_CFG n, 3, 2⟩
abbrev AX_ID_CFG_INJ (n : Nat) : Fld := ⟨AX_ID_CFG n, 1, 0⟩
abbrev AX_ID_N (n : Nat) : Nat := 0x10000344 + 0x1000 * n
abbrev AX_ID_N_NMEAS (n : Nat) : Fld := ⟨AX_ID_N n, 31, 16⟩
abbrev AX_ID_N_NSET (n : Nat) : Fld := ⟨AX_ID_N n, 15, 0⟩
abbrev AX_ID_F0_W (n : Nat) : Nat := 0x10000348 + 0x1000 * n
abbrev AX_ID_F0 (n : Nat) : Fld := ⟨AX_ID_F0_W n, 31, 0⟩
abbrev AX_ID_F1_W (n : Nat) : Nat := 0x1000034C + 0x1000 * n
abbrev AX_ID_F1 (n : Nat) : Fld := ⟨AX_ID_F1_W n, 31, 0⟩
abbrev AX_ID_AMP_W (n : Nat) : Nat := 0x10000350 + 0x1000 * n
abbrev AX_ID_AMP (n : Nat) : Fld := ⟨AX_ID_AMP_W n, 31, 0⟩
abbrev AX_ID_BUF_LO_W (n : Nat) : Nat := 0x10000354 + 0x1000 * n
abbrev AX_ID_BUF_LO (n : Nat) : Fld := ⟨AX_ID_BUF_LO_W n, 31, 0⟩
abbrev AX_ID_BUF_HI_W (n : Nat) : Nat := 0x10000358 + 0x1000 * n
abbrev AX_ID_BUF_HI (n : Nat) : Fld := ⟨AX_ID_BUF_HI_W n, 19, 0⟩
abbrev AX_REP_CTRL (n : Nat) : Nat := 0x10000400 + 0x1000 * n
abbrev AX_REP_CTRL_CLR (n : Nat) : Fld := ⟨AX_REP_CTRL n, 8, 8⟩
abbrev AX_REP_CTRL_MSRC (n : Nat) : Fld := ⟨AX_REP_CTRL n, 3, 3⟩
abbrev AX_REP_CTRL_FREEZE (n : Nat) : Fld := ⟨AX_REP_CTRL n, 2, 2⟩
abbrev AX_REP_CTRL_LEARN (n : Nat) : Fld := ⟨AX_REP_CTRL n, 1, 1⟩
abbrev AX_REP_CTRL_EN (n : Nat) : Fld := ⟨AX_REP_CTRL n, 0, 0⟩
abbrev AX_REP_MASTER_W (n : Nat) : Nat := 0x10000404 + 0x1000 * n
abbrev AX_REP_MASTER (n : Nat) : Fld := ⟨AX_REP_MASTER_W n, 7, 0⟩
abbrev AX_REP_M_OFS_W (n : Nat) : Nat := 0x10000408 + 0x1000 * n
abbrev AX_REP_M_OFS (n : Nat) : Fld := ⟨AX_REP_M_OFS_W n, 31, 0⟩
abbrev AX_REP_TADDR_LO_W (n : Nat) : Nat := 0x1000040C + 0x1000 * n
abbrev AX_REP_TADDR_LO (n : Nat) : Fld := ⟨AX_REP_TADDR_LO_W n, 31, 0⟩
abbrev AX_REP_TADDR_HI_W (n : Nat) : Nat := 0x10000410 + 0x1000 * n
abbrev AX_REP_TADDR_HI (n : Nat) : Fld := ⟨AX_REP_TADDR_HI_W n, 19, 0⟩
abbrev AX_REP_Q_W (n : Nat) : Nat := 0x10000414 + 0x1000 * n
abbrev AX_REP_Q (n : Nat) : Fld := ⟨AX_REP_Q_W n, 31, 0⟩
abbrev AX_REP_LGAIN_W (n : Nat) : Nat := 0x10000418 + 0x1000 * n
abbrev AX_REP_LGAIN (n : Nat) : Fld := ⟨AX_REP_LGAIN_W n, 31, 0⟩
abbrev AX_REP_LEAD_B_W (n : Nat) : Nat := 0x1000041C + 0x1000 * n
abbrev AX_REP_LEAD_B (n : Nat) : Fld := ⟨AX_REP_LEAD_B_W n, 7, 0⟩
abbrev AX_REP_LEAD_T_W (n : Nat) : Nat := 0x10000420 + 0x1000 * n
abbrev AX_REP_LEAD_T (n : Nat) : Fld := ⟨AX_REP_LEAD_T_W n, 31, 0⟩
abbrev AX_REP_UMAX_W (n : Nat) : Nat := 0x10000424 + 0x1000 * n
abbrev AX_REP_UMAX (n : Nat) : Fld := ⟨AX_REP_UMAX_W n, 31, 0⟩
abbrev AX_REP_VMIN_W (n : Nat) : Nat := 0x10000428 + 0x1000 * n
abbrev AX_REP_VMIN (n : Nat) : Fld := ⟨AX_REP_VMIN_W n, 31, 0⟩
abbrev AX_REP_AMAX_W (n : Nat) : Nat := 0x1000042C + 0x1000 * n
abbrev AX_REP_AMAX (n : Nat) : Fld := ⟨AX_REP_AMAX_W n, 31, 0⟩
abbrev AX_REP_SKIPCNT_W (n : Nat) : Nat := 0x10000430 + 0x1000 * n
abbrev AX_REP_SKIPCNT (n : Nat) : Fld := ⟨AX_REP_SKIPCNT_W n, 31, 0⟩
abbrev AX_REP_COMMITS_W (n : Nat) : Nat := 0x10000434 + 0x1000 * n
abbrev AX_REP_COMMITS (n : Nat) : Fld := ⟨AX_REP_COMMITS_W n, 31, 0⟩
abbrev AX_HITCH_CTRL (n : Nat) : Nat := 0x10000480 + 0x1000 * n
abbrev AX_HITCH_CTRL_DIS_TO (n : Nat) : Fld := ⟨AX_HITCH_CTRL n, 14, 13⟩
abbrev AX_HITCH_CTRL_DIS_ARM (n : Nat) : Fld := ⟨AX_HITCH_CTRL n, 12, 12⟩
abbrev AX_HITCH_CTRL_OFS_MODE (n : Nat) : Fld := ⟨AX_HITCH_CTRL n, 11, 11⟩
abbrev AX_HITCH_CTRL_ENG_MODE (n : Nat) : Fld := ⟨AX_HITCH_CTRL n, 10, 10⟩
abbrev AX_HITCH_CTRL_TYPE (n : Nat) : Fld := ⟨AX_HITCH_CTRL n, 9, 9⟩
abbrev AX_HITCH_CTRL_MSRC (n : Nat) : Fld := ⟨AX_HITCH_CTRL n, 8, 8⟩
abbrev AX_HITCH_CTRL_MASTER (n : Nat) : Fld := ⟨AX_HITCH_CTRL n, 7, 0⟩
abbrev AX_HITCH_NUM_W (n : Nat) : Nat := 0x10000484 + 0x1000 * n
abbrev AX_HITCH_NUM (n : Nat) : Fld := ⟨AX_HITCH_NUM_W n, 31, 0⟩
abbrev AX_HITCH_DEN_W (n : Nat) : Nat := 0x10000488 + 0x1000 * n
abbrev AX_HITCH_DEN (n : Nat) : Fld := ⟨AX_HITCH_DEN_W n, 31, 0⟩
abbrev AX_CAM_ADDR_LO_W (n : Nat) : Nat := 0x1000048C + 0x1000 * n
abbrev AX_CAM_ADDR_LO (n : Nat) : Fld := ⟨AX_CAM_ADDR_LO_W n, 31, 0⟩
abbrev AX_CAM_ADDR_HI_W (n : Nat) : Nat := 0x10000490 + 0x1000 * n
abbrev AX_CAM_ADDR_HI (n : Nat) : Fld := ⟨AX_CAM_ADDR_HI_W n, 19, 0⟩
abbrev AX_S_OFS_LO_W (n : Nat) : Nat := 0x10000494 + 0x1000 * n
abbrev AX_S_OFS_LO (n : Nat) : Fld := ⟨AX_S_OFS_LO_W n, 31, 0⟩
abbrev AX_S_OFS_HI_W (n : Nat) : Nat := 0x10000498 + 0x1000 * n
abbrev AX_S_OFS_HI (n : Nat) : Fld := ⟨AX_S_OFS_HI_W n, 31, 0⟩
abbrev AX_M_OFS_LO_W (n : Nat) : Nat := 0x1000049C + 0x1000 * n
abbrev AX_M_OFS_LO (n : Nat) : Fld := ⟨AX_M_OFS_LO_W n, 31, 0⟩
abbrev AX_M_OFS_HI_W (n : Nat) : Nat := 0x100004A0 + 0x1000 * n
abbrev AX_M_OFS_HI (n : Nat) : Fld := ⟨AX_M_OFS_HI_W n, 31, 0⟩
abbrev AX_ENG_AT_W (n : Nat) : Nat := 0x100004A4 + 0x1000 * n
abbrev AX_ENG_AT (n : Nat) : Fld := ⟨AX_ENG_AT_W n, 31, 0⟩
abbrev AX_DIS_AT_W (n : Nat) : Nat := 0x100004A8 + 0x1000 * n
abbrev AX_DIS_AT (n : Nat) : Fld := ⟨AX_DIS_AT_W n, 31, 0⟩
abbrev AX_ENG_DIST_W (n : Nat) : Nat := 0x100004AC + 0x1000 * n
abbrev AX_ENG_DIST (n : Nat) : Fld := ⟨AX_ENG_DIST_W n, 31, 0⟩
abbrev AX_S_OFS_USED_LO_W (n : Nat) : Nat := 0x100004B0 + 0x1000 * n
abbrev AX_S_OFS_USED_LO (n : Nat) : Fld := ⟨AX_S_OFS_USED_LO_W n, 31, 0⟩
abbrev AX_S_OFS_USED_HI_W (n : Nat) : Nat := 0x100004B4 + 0x1000 * n
abbrev AX_S_OFS_USED_HI (n : Nat) : Fld := ⟨AX_S_OFS_USED_HI_W n, 31, 0⟩
abbrev AX_SUP (n : Nat) : Nat := 0x10000500 + 0x1000 * n
abbrev AX_SUP_FB_LIMIT (n : Nat) : Fld := ⟨AX_SUP n, 19, 16⟩
abbrev AX_SUP_FBLOSS_CYC (n : Nat) : Fld := ⟨AX_SUP n, 15, 12⟩
abbrev AX_SUP_FBPOL (n : Nat) : Fld := ⟨AX_SUP n, 11, 10⟩
abbrev AX_SUP_LATE_ACT (n : Nat) : Fld := ⟨AX_SUP n, 9, 8⟩
abbrev AX_SUP_OVC_ACT (n : Nat) : Fld := ⟨AX_SUP n, 7, 6⟩
abbrev AX_SUP_NODEMISS_ACT (n : Nat) : Fld := ⟨AX_SUP n, 5, 4⟩
abbrev AX_SUP_FBLOSS_ACT (n : Nat) : Fld := ⟨AX_SUP n, 3, 2⟩
abbrev AX_SUP_FE_ACT (n : Nat) : Fld := ⟨AX_SUP n, 1, 0⟩
abbrev AX_FE_LIM_W (n : Nat) : Nat := 0x10000504 + 0x1000 * n
abbrev AX_FE_LIM (n : Nat) : Fld := ⟨AX_FE_LIM_W n, 31, 0⟩
abbrev AX_FE_TIME_W (n : Nat) : Nat := 0x10000508 + 0x1000 * n
abbrev AX_FE_TIME (n : Nat) : Fld := ⟨AX_FE_TIME_W n, 31, 0⟩
abbrev AX_T_D_W (n : Nat) : Nat := 0x10000530 + 0x1000 * n
abbrev AX_T_D (n : Nat) : Fld := ⟨AX_T_D_W n, 31, 0⟩
abbrev AX_LIM (n : Nat) : Nat := 0x10000510 + 0x1000 * n
abbrev AX_LIM_FILT (n : Nat) : Fld := ⟨AX_LIM n, 27, 20⟩
abbrev AX_LIM_SWEN (n : Nat) : Fld := ⟨AX_LIM n, 19, 19⟩
abbrev AX_LIM_ACT (n : Nat) : Fld := ⟨AX_LIM n, 18, 18⟩
abbrev AX_LIM_POL (n : Nat) : Fld := ⟨AX_LIM n, 17, 16⟩
abbrev AX_LIM_NPIN (n : Nat) : Fld := ⟨AX_LIM n, 15, 8⟩
abbrev AX_LIM_PPIN (n : Nat) : Fld := ⟨AX_LIM n, 7, 0⟩
abbrev AX_XMIN_LO_W (n : Nat) : Nat := 0x10000514 + 0x1000 * n
abbrev AX_XMIN_LO (n : Nat) : Fld := ⟨AX_XMIN_LO_W n, 31, 0⟩
abbrev AX_XMIN_HI_W (n : Nat) : Nat := 0x10000518 + 0x1000 * n
abbrev AX_XMIN_HI (n : Nat) : Fld := ⟨AX_XMIN_HI_W n, 31, 0⟩
abbrev AX_XMAX_LO_W (n : Nat) : Nat := 0x1000051C + 0x1000 * n
abbrev AX_XMAX_LO (n : Nat) : Fld := ⟨AX_XMAX_LO_W n, 31, 0⟩
abbrev AX_XMAX_HI_W (n : Nat) : Nat := 0x10000520 + 0x1000 * n
abbrev AX_XMAX_HI (n : Nat) : Fld := ⟨AX_XMAX_HI_W n, 31, 0⟩
abbrev AX_FB0 (n : Nat) : Nat := 0x10000600 + 0x1000 * n
abbrev AX_FB0_IA (n : Nat) : Fld := ⟨AX_FB0 n, 31, 16⟩
abbrev AX_FB0_ASTAT (n : Nat) : Fld := ⟨AX_FB0 n, 15, 0⟩
abbrev AX_FB1 (n : Nat) : Nat := 0x10000604 + 0x1000 * n
abbrev AX_FB1_IC (n : Nat) : Fld := ⟨AX_FB1 n, 31, 16⟩
abbrev AX_FB1_IB (n : Nat) : Fld := ⟨AX_FB1 n, 15, 0⟩
abbrev AX_POS_W (n : Nat) : Nat := 0x10000608 + 0x1000 * n
abbrev AX_POS (n : Nat) : Fld := ⟨AX_POS_W n, 31, 0⟩
abbrev AX_FB3 (n : Nat) : Nat := 0x1000060C + 0x1000 * n
abbrev AX_FB3_AUX (n : Nat) : Fld := ⟨AX_FB3 n, 31, 16⟩
abbrev AX_FB3_VBUS (n : Nat) : Fld := ⟨AX_FB3 n, 15, 0⟩
abbrev AX_NSTAT (n : Nat) : Nat := 0x10000610 + 0x1000 * n
abbrev AX_NSTAT_NERR (n : Nat) : Fld := ⟨AX_NSTAT n, 31, 24⟩
abbrev AX_NSTAT_NKNOT (n : Nat) : Fld := ⟨AX_NSTAT n, 23, 16⟩
abbrev AX_NSTAT_NSTAT (n : Nat) : Fld := ⟨AX_NSTAT n, 15, 0⟩
abbrev AX_FB_CYC_W (n : Nat) : Nat := 0x10000614 + 0x1000 * n
abbrev AX_FB_CYC (n : Nat) : Fld := ⟨AX_FB_CYC_W n, 31, 0⟩
abbrev AX_FB_STAMP_W (n : Nat) : Nat := 0x10000618 + 0x1000 * n
abbrev AX_FB_STAMP (n : Nat) : Fld := ⟨AX_FB_STAMP_W n, 31, 0⟩
abbrev AX_VALID_W (n : Nat) : Nat := 0x1000061C + 0x1000 * n
abbrev AX_VALID_VALID (n : Nat) : Fld := ⟨AX_VALID_W n, 1, 1⟩
abbrev AX_X_ACT_LO_W (n : Nat) : Nat := 0x10000620 + 0x1000 * n
abbrev AX_X_ACT_LO (n : Nat) : Fld := ⟨AX_X_ACT_LO_W n, 31, 0⟩
abbrev AX_X_ACT_HI_W (n : Nat) : Nat := 0x10000624 + 0x1000 * n
abbrev AX_X_ACT_HI (n : Nat) : Fld := ⟨AX_X_ACT_HI_W n, 31, 0⟩
abbrev AX_POS_PREV_W (n : Nat) : Nat := 0x10000628 + 0x1000 * n
abbrev AX_POS_PREV (n : Nat) : Fld := ⟨AX_POS_PREV_W n, 31, 0⟩
abbrev AX_V_MEAS_W (n : Nat) : Nat := 0x1000062C + 0x1000 * n
abbrev AX_V_MEAS (n : Nat) : Fld := ⟨AX_V_MEAS_W n, 31, 0⟩
abbrev AX_X_REF_LO_W (n : Nat) : Nat := 0x10000630 + 0x1000 * n
abbrev AX_X_REF_LO (n : Nat) : Fld := ⟨AX_X_REF_LO_W n, 31, 0⟩
abbrev AX_X_REF_HI_W (n : Nat) : Nat := 0x10000634 + 0x1000 * n
abbrev AX_X_REF_HI (n : Nat) : Fld := ⟨AX_X_REF_HI_W n, 31, 0⟩
abbrev AX_V_REF_W (n : Nat) : Nat := 0x10000638 + 0x1000 * n
abbrev AX_V_REF (n : Nat) : Fld := ⟨AX_V_REF_W n, 31, 0⟩
abbrev AX_E_S_W (n : Nat) : Nat := 0x1000063C + 0x1000 * n
abbrev AX_E_S (n : Nat) : Fld := ⟨AX_E_S_W n, 31, 0⟩
abbrev AX_I_FS_W (n : Nat) : Nat := 0x10000640 + 0x1000 * n
abbrev AX_I_FS (n : Nat) : Fld := ⟨AX_I_FS_W n, 31, 0⟩
abbrev AX_X_SHIFT_LO_W (n : Nat) : Nat := 0x10000644 + 0x1000 * n
abbrev AX_X_SHIFT_LO (n : Nat) : Fld := ⟨AX_X_SHIFT_LO_W n, 31, 0⟩
abbrev AX_X_SHIFT_HI_W (n : Nat) : Nat := 0x10000648 + 0x1000 * n
abbrev AX_X_SHIFT_HI (n : Nat) : Fld := ⟨AX_X_SHIFT_HI_W n, 31, 0⟩
abbrev AX_AXCAP (n : Nat) : Nat := 0x1000064C + 0x1000 * n
abbrev AX_AXCAP_SPLITS (n : Nat) : Fld := ⟨AX_AXCAP n, 9, 8⟩
abbrev AX_AXCAP_POS_BITS (n : Nat) : Fld := ⟨AX_AXCAP n, 7, 0⟩
abbrev AX_PUB_NEW_W (n : Nat) : Nat := 0x1000067C + 0x1000 * n
abbrev AX_PUB_NEW (n : Nat) : Fld := ⟨AX_PUB_NEW_W n, 0, 0⟩
abbrev AX_PUB_CYC_W (n i : Nat) : Nat := 0x10000680 + 0x1000 * n + 0x40 * i
abbrev AX_PUB_CYC (n i : Nat) : Fld := ⟨AX_PUB_CYC_W n i, 31, 0⟩
abbrev AX_PUB_S_W (n i : Nat) : Nat := 0x10000684 + 0x1000 * n + 0x40 * i
abbrev AX_PUB_S (n i : Nat) : Fld := ⟨AX_PUB_S_W n i, 31, 0⟩
abbrev AX_PUB_REF_X_LO_W (n i : Nat) : Nat := 0x10000688 + 0x1000 * n + 0x40 * i
abbrev AX_PUB_REF_X_LO (n i : Nat) : Fld := ⟨AX_PUB_REF_X_LO_W n i, 31, 0⟩
abbrev AX_PUB_REF_X_HI_W (n i : Nat) : Nat := 0x1000068C + 0x1000 * n + 0x40 * i
abbrev AX_PUB_REF_X_HI (n i : Nat) : Fld := ⟨AX_PUB_REF_X_HI_W n i, 31, 0⟩
abbrev AX_PUB_REF_V_W (n i : Nat) : Nat := 0x10000690 + 0x1000 * n + 0x40 * i
abbrev AX_PUB_REF_V (n i : Nat) : Fld := ⟨AX_PUB_REF_V_W n i, 31, 0⟩
abbrev AX_PUB_REF_A_W (n i : Nat) : Nat := 0x10000694 + 0x1000 * n + 0x40 * i
abbrev AX_PUB_REF_A (n i : Nat) : Fld := ⟨AX_PUB_REF_A_W n i, 31, 0⟩
abbrev AX_PUB_ACT_X_LO_W (n i : Nat) : Nat := 0x10000698 + 0x1000 * n + 0x40 * i
abbrev AX_PUB_ACT_X_LO (n i : Nat) : Fld := ⟨AX_PUB_ACT_X_LO_W n i, 31, 0⟩
abbrev AX_PUB_ACT_X_HI_W (n i : Nat) : Nat := 0x1000069C + 0x1000 * n + 0x40 * i
abbrev AX_PUB_ACT_X_HI (n i : Nat) : Fld := ⟨AX_PUB_ACT_X_HI_W n i, 31, 0⟩
abbrev AX_PUB_ACT_V_W (n i : Nat) : Nat := 0x100006A0 + 0x1000 * n + 0x40 * i
abbrev AX_PUB_ACT_V (n i : Nat) : Fld := ⟨AX_PUB_ACT_V_W n i, 31, 0⟩
abbrev AX_PUB_FLAGS (n i : Nat) : Nat := 0x100006A4 + 0x1000 * n + 0x40 * i
abbrev AX_PUB_FLAGS_ACT_VALID (n i : Nat) : Fld := ⟨AX_PUB_FLAGS n i, 1, 1⟩
abbrev AX_PUB_FLAGS_REF_VALID (n i : Nat) : Fld := ⟨AX_PUB_FLAGS n i, 0, 0⟩
abbrev AX_BIND (n : Nat) : Nat := 0x10000700 + 0x1000 * n
abbrev AX_BIND_NET_VALID (n : Nat) : Fld := ⟨AX_BIND n, 15, 15⟩
abbrev AX_BIND_DUP (n : Nat) : Fld := ⟨AX_BIND n, 14, 14⟩
abbrev AX_BIND_AXIDX (n : Nat) : Fld := ⟨AX_BIND n, 11, 10⟩
abbrev AX_BIND_RING (n : Nat) : Fld := ⟨AX_BIND n, 9, 8⟩
abbrev AX_BIND_NODE (n : Nat) : Fld := ⟨AX_BIND n, 6, 0⟩
abbrev AX_STRAND (n : Nat) : Nat := 0x10000704 + 0x1000 * n
abbrev AX_STRAND_FLOW (n : Nat) : Fld := ⟨AX_STRAND n, 21, 16⟩
abbrev AX_STRAND_STRAND (n : Nat) : Fld := ⟨AX_STRAND n, 9, 0⟩
abbrev AX_FB_TAG_W (n : Nat) : Nat := 0x10000708 + 0x1000 * n
abbrev AX_FB_TAG_TAG (n : Nat) : Fld := ⟨AX_FB_TAG_W n, 13, 0⟩
abbrev AX_OWNER_W (n : Nat) : Nat := 0x1000070C + 0x1000 * n
abbrev AX_OWNER_DOM (n : Nat) : Fld := ⟨AX_OWNER_W n, 7, 0⟩
abbrev AX_READ_SHARE_W (n i : Nat) : Nat := 0x10000720 + 0x1000 * n + 0x4 * i
abbrev AX_READ_SHARE (n i : Nat) : Fld := ⟨AX_READ_SHARE_W n i, 31, 0⟩
abbrev AX_BANK_W (n i : Nat) : Nat := 0x10000800 + 0x1000 * n + 0x4 * i
abbrev AX_BANK (n i : Nat) : Fld := ⟨AX_BANK_W n i, 31, 0⟩
end R

def mapAX0c : List RSpec := [
  ⟨0x0, 4, 1, [⟨18, 12, .rws, 0x0⟩, ⟨11, 9, .rws, 0x0⟩, ⟨8, 8, .rws, 0x0⟩, ⟨7, 7, .rws, 0x0⟩, ⟨6, 6, .rws, 0x0⟩, ⟨5, 4, .rws, 0x0⟩, ⟨3, 0, .rws, 0x0⟩]⟩,
  ⟨0x4, 4, 1, [⟨18, 12, .ro, 0x0⟩, ⟨11, 9, .ro, 0x0⟩, ⟨8, 8, .ro, 0x0⟩, ⟨7, 7, .ro, 0x0⟩, ⟨6, 6, .ro, 0x0⟩, ⟨5, 4, .ro, 0x0⟩, ⟨3, 0, .ro, 0x0⟩]⟩,
  ⟨0x8, 4, 1, [⟨26, 16, .rw, 0x7FF⟩, ⟨0, 0, .w1s, 0x0⟩]⟩,
  ⟨0xC, 4, 1, [⟨31, 0, .ro, 0x0⟩]⟩,
  ⟨0x10, 4, 1, [⟨10, 0, .rsk, 0x0⟩]⟩,
  ⟨0x40, 4, 1, [⟨28, 28, .ro, 0x0⟩, ⟨27, 24, .ro, 0x0⟩, ⟨23, 23, .ro, 0x0⟩, ⟨22, 22, .ro, 0x0⟩, ⟨21, 21, .ro, 0x0⟩, ⟨20, 20, .ro, 0x0⟩, ⟨19, 19, .ro, 0x0⟩, ⟨18, 18, .w1c, 0x0⟩, ⟨17, 17, .w1c, 0x0⟩, ⟨16, 16, .w1c, 0x0⟩, ⟨15, 15, .w1c, 0x0⟩, ⟨14, 14, .w1c, 0x0⟩, ⟨13, 13, .w1c, 0x0⟩, ⟨12, 12, .ro, 0x0⟩, ⟨11, 11, .w1c, 0x0⟩, ⟨10, 10, .w1c, 0x0⟩, ⟨9, 9, .w1c, 0x0⟩, ⟨8, 8, .w1c, 0x0⟩, ⟨7, 7, .w1c, 0x0⟩, ⟨6, 6, .w1c, 0x0⟩, ⟨5, 5, .w1c, 0x0⟩, ⟨4, 4, .w1c, 0x0⟩, ⟨3, 3, .w1c, 0x0⟩, ⟨2, 2, .w1c, 0x0⟩, ⟨1, 1, .w1c, 0x0⟩, ⟨0, 0, .w1c, 0x0⟩]⟩,
  ⟨0x44, 4, 1, [⟨31, 0, .ro, 0x0⟩]⟩,
  ⟨0x48, 4, 1, [⟨31, 0, .ro, 0x0⟩]⟩,
  ⟨0x4C, 4, 1, [⟨31, 0, .ro, 0x0⟩]⟩,
  ⟨0x50, 4, 1, [⟨0, 0, .w1s, 0x0⟩]⟩,
  ⟨0x80, 4, 1, [⟨0, 0, .rws, 0x0⟩]⟩,
  ⟨0x84, 4, 1, [⟨31, 0, .rws, 0x0⟩]⟩,
  ⟨0x88, 4, 1, [⟨31, 0, .rws, 0x0⟩]⟩,
  ⟨0x8C, 4, 1, [⟨31, 0, .rws, 0x0⟩]⟩,
  ⟨0x90, 4, 1, [⟨31, 0, .rws, 0x0⟩]⟩,
  ⟨0x94, 4, 1, [⟨31, 0, .rws, 0x0⟩]⟩,
  ⟨0x98, 4, 1, [⟨31, 0, .rws, 0x0⟩]⟩,
  ⟨0x9C, 4, 1, [⟨31, 0, .rws, 0x0⟩]⟩,
  ⟨0xA0, 4, 1, [⟨31, 0, .rws, 0x0⟩]⟩,
  ⟨0xA4, 4, 1, [⟨31, 0, .rws, 0x0⟩]⟩,
  ⟨0x100, 8, 20, [⟨31, 0, .rws, 0x0⟩]⟩,
  ⟨0x104, 8, 20, [⟨31, 0, .ro, 0x0⟩]⟩,
  ⟨0x1A0, 4, 1, [⟨31, 0, .rws, 0x0⟩]⟩,
  ⟨0x1A4, 4, 1, [⟨31, 0, .ro, 0x0⟩]⟩]
def mapAX1c : List RSpec := [
  ⟨0x1A8, 4, 1, [⟨31, 0, .rws, 0x1⟩]⟩,
  ⟨0x1AC, 4, 1, [⟨31, 0, .ro, 0x1⟩]⟩,
  ⟨0x1B0, 4, 1, [⟨31, 0, .rws, 0x1⟩]⟩,
  ⟨0x1B4, 4, 1, [⟨31, 0, .ro, 0x1⟩]⟩,
  ⟨0x1B8, 4, 1, [⟨31, 0, .rws, 0x0⟩]⟩,
  ⟨0x1BC, 4, 1, [⟨31, 0, .ro, 0x0⟩]⟩,
  ⟨0x200, 20, 6, [⟨31, 0, .rws, 0x3F800000⟩]⟩,
  ⟨0x204, 20, 6, [⟨31, 0, .rws, 0x0⟩]⟩,
  ⟨0x208, 20, 6, [⟨31, 0, .rws, 0x0⟩]⟩,
  ⟨0x20C, 20, 6, [⟨31, 0, .rws, 0x0⟩]⟩,
  ⟨0x210, 20, 6, [⟨31, 0, .rws, 0x0⟩]⟩,
  ⟨0x280, 4, 33, [⟨31, 0, .rws, 0x3F800000⟩]⟩,
  ⟨0x340, 4, 1, [⟨16, 8, .rws, 0x0⟩, ⟨7, 4, .rws, 0x0⟩, ⟨3, 2, .rws, 0x0⟩, ⟨1, 0, .rws, 0x0⟩]⟩,
  ⟨0x344, 4, 1, [⟨31, 16, .rws, 0x0⟩, ⟨15, 0, .rws, 0x0⟩]⟩,
  ⟨0x348, 4, 1, [⟨31, 0, .rws, 0x0⟩]⟩,
  ⟨0x34C, 4, 1, [⟨31, 0, .rws, 0x0⟩]⟩,
  ⟨0x350, 4, 1, [⟨31, 0, .rws, 0x0⟩]⟩,
  ⟨0x354, 4, 1, [⟨31, 0, .rws, 0x0⟩]⟩,
  ⟨0x358, 4, 1, [⟨19, 0, .rws, 0x0⟩]⟩,
  ⟨0x400, 4, 1, [⟨8, 8, .w1s, 0x0⟩, ⟨3, 3, .rws, 0x0⟩, ⟨2, 2, .rws, 0x0⟩, ⟨1, 1, .rws, 0x0⟩, ⟨0, 0, .rws, 0x0⟩]⟩,
  ⟨0x404, 4, 1, [⟨7, 0, .rws, 0x0⟩]⟩,
  ⟨0x408, 4, 1, [⟨31, 0, .rws, 0x0⟩]⟩,
  ⟨0x40C, 4, 1, [⟨31, 0, .rws, 0x0⟩]⟩,
  ⟨0x410, 4, 1, [⟨19, 0, .rws, 0x0⟩]⟩]
def mapAX2c : List RSpec := [
  ⟨0x414, 4, 1, [⟨31, 0, .rws, 0x3F800000⟩]⟩,
  ⟨0x418, 4, 1, [⟨31, 0, .rws, 0x0⟩]⟩,
  ⟨0x41C, 4, 1, [⟨7, 0, .rws, 0x0⟩]⟩,
  ⟨0x420, 4, 1, [⟨31, 0, .rws, 0x0⟩]⟩,
  ⟨0x424, 4, 1, [⟨31, 0, .rws, 0x3F800000⟩]⟩,
  ⟨0x428, 4, 1, [⟨31, 0, .rws, 0x0⟩]⟩,
  ⟨0x42C, 4, 1, [⟨31, 0, .rws, 0x0⟩]⟩,
  ⟨0x430, 4, 1, [⟨31, 0, .ro, 0x0⟩]⟩,
  ⟨0x434, 4, 1, [⟨31, 0, .ro, 0x0⟩]⟩,
  ⟨0x480, 4, 1, [⟨14, 13, .rws, 0x0⟩, ⟨12, 12, .rws, 0x0⟩, ⟨11, 11, .rws, 0x0⟩, ⟨10, 10, .rws, 0x0⟩, ⟨9, 9, .rws, 0x0⟩, ⟨8, 8, .rws, 0x0⟩, ⟨7, 0, .rws, 0x0⟩]⟩,
  ⟨0x484, 4, 1, [⟨31, 0, .rws, 0x1⟩]⟩,
  ⟨0x488, 4, 1, [⟨31, 0, .rws, 0x1⟩]⟩,
  ⟨0x48C, 4, 1, [⟨31, 0, .rws, 0x0⟩]⟩,
  ⟨0x490, 4, 1, [⟨19, 0, .rws, 0x0⟩]⟩,
  ⟨0x494, 4, 1, [⟨31, 0, .rws, 0x0⟩]⟩,
  ⟨0x498, 4, 1, [⟨31, 0, .rws, 0x0⟩]⟩,
  ⟨0x49C, 4, 1, [⟨31, 0, .rws, 0x0⟩]⟩,
  ⟨0x4A0, 4, 1, [⟨31, 0, .rws, 0x0⟩]⟩,
  ⟨0x4A4, 4, 1, [⟨31, 0, .rws, 0x0⟩]⟩,
  ⟨0x4A8, 4, 1, [⟨31, 0, .rws, 0x0⟩]⟩,
  ⟨0x4AC, 4, 1, [⟨31, 0, .rws, 0x0⟩]⟩,
  ⟨0x4B0, 4, 1, [⟨31, 0, .ro, 0x0⟩]⟩,
  ⟨0x4B4, 4, 1, [⟨31, 0, .ro, 0x0⟩]⟩,
  ⟨0x500, 4, 1, [⟨19, 16, .rws, 0x4⟩, ⟨15, 12, .rws, 0x2⟩, ⟨11, 10, .rws, 0x2⟩, ⟨9, 8, .rws, 0x2⟩, ⟨7, 6, .rws, 0x2⟩, ⟨5, 4, .rws, 0x2⟩, ⟨3, 2, .rws, 0x2⟩, ⟨1, 0, .rws, 0x2⟩]⟩]
def mapAX3c : List RSpec := [
  ⟨0x504, 4, 1, [⟨31, 0, .rws, 0x1000⟩]⟩,
  ⟨0x508, 4, 1, [⟨31, 0, .rws, 0x0⟩]⟩,
  ⟨0x530, 4, 1, [⟨31, 0, .ro, 0x0⟩]⟩,
  ⟨0x510, 4, 1, [⟨27, 20, .rws, 0x0⟩, ⟨19, 19, .rws, 0x0⟩, ⟨18, 18, .rws, 0x0⟩, ⟨17, 16, .rws, 0x0⟩, ⟨15, 8, .rws, 0xFF⟩, ⟨7, 0, .rws, 0xFF⟩]⟩,
  ⟨0x514, 4, 1, [⟨31, 0, .rws, 0x0⟩]⟩,
  ⟨0x518, 4, 1, [⟨31, 0, .rws, 0x0⟩]⟩,
  ⟨0x51C, 4, 1, [⟨31, 0, .rws, 0x0⟩]⟩,
  ⟨0x520, 4, 1, [⟨31, 0, .rws, 0x0⟩]⟩,
  ⟨0x600, 4, 1, [⟨31, 16, .ro, 0x0⟩, ⟨15, 0, .ro, 0x0⟩]⟩,
  ⟨0x604, 4, 1, [⟨31, 16, .ro, 0x0⟩, ⟨15, 0, .ro, 0x0⟩]⟩,
  ⟨0x608, 4, 1, [⟨31, 0, .ro, 0x0⟩]⟩,
  ⟨0x60C, 4, 1, [⟨31, 16, .ro, 0x0⟩, ⟨15, 0, .ro, 0x0⟩]⟩,
  ⟨0x610, 4, 1, [⟨31, 24, .ro, 0x0⟩, ⟨23, 16, .ro, 0x0⟩, ⟨15, 0, .ro, 0x0⟩]⟩,
  ⟨0x614, 4, 1, [⟨31, 0, .ro, 0x0⟩]⟩,
  ⟨0x618, 4, 1, [⟨31, 0, .ro, 0x0⟩]⟩,
  ⟨0x61C, 4, 1, [⟨1, 1, .ro, 0x0⟩]⟩,
  ⟨0x620, 4, 1, [⟨31, 0, .ro, 0x0⟩]⟩,
  ⟨0x624, 4, 1, [⟨31, 0, .ro, 0x0⟩]⟩,
  ⟨0x628, 4, 1, [⟨31, 0, .ro, 0x0⟩]⟩,
  ⟨0x62C, 4, 1, [⟨31, 0, .ro, 0x0⟩]⟩,
  ⟨0x630, 4, 1, [⟨31, 0, .ro, 0x0⟩]⟩,
  ⟨0x634, 4, 1, [⟨31, 0, .ro, 0x0⟩]⟩,
  ⟨0x638, 4, 1, [⟨31, 0, .ro, 0x0⟩]⟩,
  ⟨0x63C, 4, 1, [⟨31, 0, .ro, 0x0⟩]⟩]
def mapAX4c : List RSpec := [
  ⟨0x640, 4, 1, [⟨31, 0, .ro, 0x0⟩]⟩,
  ⟨0x644, 4, 1, [⟨31, 0, .rws, 0x0⟩]⟩,
  ⟨0x648, 4, 1, [⟨31, 0, .rws, 0x0⟩]⟩,
  ⟨0x64C, 4, 1, [⟨9, 8, .ro, 0x0⟩, ⟨7, 0, .ro, 0x0⟩]⟩,
  ⟨0x67C, 4, 1, [⟨0, 0, .ro, 0x0⟩]⟩,
  ⟨0x680, 64, 2, [⟨31, 0, .ro, 0x0⟩]⟩,
  ⟨0x684, 64, 2, [⟨31, 0, .ro, 0x0⟩]⟩,
  ⟨0x688, 64, 2, [⟨31, 0, .ro, 0x0⟩]⟩,
  ⟨0x68C, 64, 2, [⟨31, 0, .ro, 0x0⟩]⟩,
  ⟨0x690, 64, 2, [⟨31, 0, .ro, 0x0⟩]⟩,
  ⟨0x694, 64, 2, [⟨31, 0, .ro, 0x0⟩]⟩,
  ⟨0x698, 64, 2, [⟨31, 0, .ro, 0x0⟩]⟩,
  ⟨0x69C, 64, 2, [⟨31, 0, .ro, 0x0⟩]⟩,
  ⟨0x6A0, 64, 2, [⟨31, 0, .ro, 0x0⟩]⟩,
  ⟨0x6A4, 64, 2, [⟨1, 1, .ro, 0x0⟩, ⟨0, 0, .ro, 0x0⟩]⟩,
  ⟨0x700, 4, 1, [⟨15, 15, .ro, 0x0⟩, ⟨14, 14, .ro, 0x0⟩, ⟨11, 10, .ro, 0x0⟩, ⟨9, 8, .ro, 0x0⟩, ⟨6, 0, .ro, 0x0⟩]⟩,
  ⟨0x704, 4, 1, [⟨21, 16, .rw, 0x0⟩, ⟨9, 0, .rw, 0x0⟩]⟩,
  ⟨0x708, 4, 1, [⟨13, 0, .rw, 0x0⟩]⟩,
  ⟨0x70C, 4, 1, [⟨7, 0, .rw, 0x0⟩]⟩,
  ⟨0x720, 4, 8, [⟨31, 0, .rw, 0x0⟩]⟩,
  ⟨0x800, 4, 512, [⟨31, 0, .rw, 0x0⟩]⟩]

/-! ## KE (spec/08_knots.md, R221) -/
namespace R
abbrev KE_POOL_FREE_W : Nat := 0x10300000
abbrev KE_POOL_FREE : Fld := ⟨KE_POOL_FREE_W, 31, 0⟩
abbrev KE_USED_LO_W : Nat := 0x10300004
abbrev KE_USED_LO : Fld := ⟨KE_USED_LO_W, 31, 0⟩
abbrev KE_USED_HI_W : Nat := 0x10300008
abbrev KE_USED_HI : Fld := ⟨KE_USED_HI_W, 31, 0⟩
abbrev KE_CNT_GO_W : Nat := 0x10300010
abbrev KE_CNT_GO : Fld := ⟨KE_CNT_GO_W, 31, 0⟩
abbrev KE_CNT_VOID_W : Nat := 0x10300014
abbrev KE_CNT_VOID : Fld := ⟨KE_CNT_VOID_W, 31, 0⟩
abbrev KE_CNT_LATE_W : Nat := 0x10300018
abbrev KE_CNT_LATE : Fld := ⟨KE_CNT_LATE_W, 31, 0⟩
abbrev KE_CNT_MISSED_W : Nat := 0x1030001C
abbrev KE_CNT_MISSED : Fld := ⟨KE_CNT_MISSED_W, 31, 0⟩
end R

def mapKE : List RSpec := [
  ⟨0x0, 4, 1, [⟨31, 0, .ro, 0x2000⟩]⟩,
  ⟨0x4, 4, 1, [⟨31, 0, .ro, 0x0⟩]⟩,
  ⟨0x8, 4, 1, [⟨31, 0, .ro, 0x0⟩]⟩,
  ⟨0x10, 4, 1, [⟨31, 0, .ro, 0x0⟩]⟩,
  ⟨0x14, 4, 1, [⟨31, 0, .ro, 0x0⟩]⟩,
  ⟨0x18, 4, 1, [⟨31, 0, .ro, 0x0⟩]⟩,
  ⟨0x1C, 4, 1, [⟨31, 0, .ro, 0x0⟩]⟩]

/-! ## K (spec/08_knots.md, R221) -/
namespace R
abbrev K_CMD (n : Nat) : Nat := 0x10301000 + 0x40 * n
abbrev K_CMD_OP (n : Nat) : Fld := ⟨K_CMD n, 31, 28⟩
abbrev K_CMD_SIZE (n : Nat) : Fld := ⟨K_CMD n, 9, 0⟩
abbrev K_CFG (n : Nat) : Nat := 0x10301004 + 0x40 * n
abbrev K_CFG_TAG (n : Nat) : Fld := ⟨K_CFG n, 29, 16⟩
abbrev K_CFG_TAGEN (n : Nat) : Fld := ⟨K_CFG n, 4, 4⟩
abbrev K_CFG_FAULT_ACT (n : Nat) : Fld := ⟨K_CFG n, 3, 2⟩
abbrev K_CFG_LATEPOL (n : Nat) : Fld := ⟨K_CFG n, 1, 1⟩
abbrev K_CFG_WHEN (n : Nat) : Fld := ⟨K_CFG n, 0, 0⟩
abbrev K_CYC_W (n : Nat) : Nat := 0x10301008 + 0x40 * n
abbrev K_CYC (n : Nat) : Fld := ⟨K_CYC_W n, 31, 0⟩
abbrev K_STAT (n : Nat) : Nat := 0x1030100C + 0x40 * n
abbrev K_STAT_FAULTED (n : Nat) : Fld := ⟨K_STAT n, 19, 19⟩
abbrev K_STAT_PARTIAL (n : Nat) : Fld := ⟨K_STAT n, 18, 18⟩
abbrev K_STAT_ADDERR (n : Nat) : Fld := ⟨K_STAT n, 17, 17⟩
abbrev K_STAT_NETWORK (n : Nat) : Fld := ⟨K_STAT n, 16, 16⟩
abbrev K_STAT_REASON (n : Nat) : Fld := ⟨K_STAT n, 11, 8⟩
abbrev K_STAT_STATE (n : Nat) : Fld := ⟨K_STAT n, 3, 0⟩
abbrev K_OWNER_W (n : Nat) : Nat := 0x10301010 + 0x40 * n
abbrev K_OWNER_DOM (n : Nat) : Fld := ⟨K_OWNER_W n, 7, 0⟩
abbrev K_SIZE (n : Nat) : Nat := 0x10301014 + 0x40 * n
abbrev K_SIZE_ADDED (n : Nat) : Fld := ⟨K_SIZE n, 25, 16⟩
abbrev K_SIZE_RSIZE (n : Nat) : Fld := ⟨K_SIZE n, 9, 0⟩
abbrev K_CCYC_W (n : Nat) : Nat := 0x10301018 + 0x40 * n
abbrev K_CCYC (n : Nat) : Fld := ⟨K_CCYC_W n, 31, 0⟩
abbrev K_OUT (n : Nat) : Nat := 0x1030101C + 0x40 * n
abbrev K_OUT_MISSED (n : Nat) : Fld := ⟨K_OUT n, 26, 18⟩
abbrev K_OUT_LATE (n : Nat) : Fld := ⟨K_OUT n, 17, 9⟩
abbrev K_OUT_NODES (n : Nat) : Fld := ⟨K_OUT n, 8, 0⟩
abbrev K_ENT_W (n i : Nat) : Nat := 0x10301020 + 0x40 * n + 0x4 * i
abbrev K_ENT (n i : Nat) : Fld := ⟨K_ENT_W n i, 31, 0⟩
abbrev K_ERR (n : Nat) : Nat := 0x10301030 + 0x40 * n
abbrev K_ERR_EVALID (n : Nat) : Fld := ⟨K_ERR n, 31, 31⟩
abbrev K_ERR_EIDX (n : Nat) : Fld := ⟨K_ERR n, 9, 0⟩
end R

def mapK : List RSpec := [
  ⟨0x0, 4, 1, [⟨31, 28, .wo, 0x0⟩, ⟨9, 0, .wo, 0x0⟩]⟩,
  ⟨0x4, 4, 1, [⟨29, 16, .rw, 0x0⟩, ⟨4, 4, .rw, 0x0⟩, ⟨3, 2, .rw, 0x2⟩, ⟨1, 1, .rw, 0x0⟩, ⟨0, 0, .rw, 0x0⟩]⟩,
  ⟨0x8, 4, 1, [⟨31, 0, .rw, 0x0⟩]⟩,
  ⟨0xC, 4, 1, [⟨19, 19, .ro, 0x0⟩, ⟨18, 18, .ro, 0x0⟩, ⟨17, 17, .ro, 0x0⟩, ⟨16, 16, .ro, 0x0⟩, ⟨11, 8, .ro, 0x0⟩, ⟨3, 0, .ro, 0x0⟩]⟩,
  ⟨0x10, 4, 1, [⟨7, 0, .ro, 0x0⟩]⟩,
  ⟨0x14, 4, 1, [⟨25, 16, .ro, 0x0⟩, ⟨9, 0, .ro, 0x0⟩]⟩,
  ⟨0x18, 4, 1, [⟨31, 0, .ro, 0x0⟩]⟩,
  ⟨0x1C, 4, 1, [⟨26, 18, .ro, 0x0⟩, ⟨17, 9, .ro, 0x0⟩, ⟨8, 0, .ro, 0x0⟩]⟩,
  ⟨0x20, 4, 4, [⟨31, 0, .rw, 0x0⟩]⟩,
  ⟨0x30, 4, 1, [⟨31, 31, .ro, 0x0⟩, ⟨9, 0, .ro, 0x0⟩]⟩]

/-! ## KLATE (spec/08_knots.md, R214) -/
namespace R
abbrev KLATE_LATEMAP_W (n i : Nat) : Nat := 0x10302000 + 0x20 * n + 0x4 * i
abbrev KLATE_LATEMAP (n i : Nat) : Fld := ⟨KLATE_LATEMAP_W n i, 31, 0⟩
end R

def mapKLATE : List RSpec := [
  ⟨0x0, 4, 8, [⟨31, 0, .ro, 0x0⟩]⟩]

/-! ## KMISS (spec/08_knots.md, R214) -/
namespace R
abbrev KMISS_MISSMAP_W (n i : Nat) : Nat := 0x10302800 + 0x20 * n + 0x4 * i
abbrev KMISS_MISSMAP (n i : Nat) : Fld := ⟨KMISS_MISSMAP_W n i, 31, 0⟩
end R

def mapKMISS : List RSpec := [
  ⟨0x0, 4, 8, [⟨31, 0, .ro, 0x0⟩]⟩]

/-! ## TB (spec/09_time_base.md, R240) -/
namespace R
abbrev TB_CTRL_W : Nat := 0x10310000
abbrev TB_CTRL_GRID : Fld := ⟨TB_CTRL_W, 0, 0⟩
abbrev TB_STAT : Nat := 0x10310004
abbrev TB_STAT_TDOMERR : Fld := ⟨TB_STAT, 3, 3⟩
abbrev TB_STAT_SWERR : Fld := ⟨TB_STAT, 2, 2⟩
abbrev TB_STAT_SWBUSY : Fld := ⟨TB_STAT, 1, 1⟩
abbrev TB_STAT_GRID_NOW : Fld := ⟨TB_STAT, 0, 0⟩
abbrev TB_TCYC_W : Nat := 0x10310008
abbrev TB_TCYC : Fld := ⟨TB_TCYC_W, 21, 0⟩
abbrev TB_SW : Nat := 0x1031000C
abbrev TB_SW_GO : Fld := ⟨TB_SW, 31, 31⟩
abbrev TB_SW_TARGET : Fld := ⟨TB_SW, 0, 0⟩
abbrev TB_SW_MAXOFS_W : Nat := 0x10310010
abbrev TB_SW_MAXOFS : Fld := ⟨TB_SW_MAXOFS_W, 31, 0⟩
abbrev TB_SNAP_W : Nat := 0x10310014
abbrev TB_SNAP_GO : Fld := ⟨TB_SNAP_W, 0, 0⟩
end R

def mapTB : List RSpec := [
  ⟨0x0, 4, 1, [⟨0, 0, .ro, 0x0⟩]⟩,
  ⟨0x4, 4, 1, [⟨3, 3, .rsk, 0x0⟩, ⟨2, 2, .rsk, 0x0⟩, ⟨1, 1, .ro, 0x0⟩, ⟨0, 0, .ro, 0x0⟩]⟩,
  ⟨0x8, 4, 1, [⟨21, 0, .rws, 0x7A12⟩]⟩,
  ⟨0xC, 4, 1, [⟨31, 31, .w1s, 0x0⟩, ⟨0, 0, .rw, 0x0⟩]⟩,
  ⟨0x10, 4, 1, [⟨31, 0, .rw, 0x186A0⟩]⟩,
  ⟨0x14, 4, 1, [⟨0, 0, .w1s, 0x0⟩]⟩]

/-! ## TD (spec/09_time_base.md, R240) -/
namespace R
abbrev TD_CFG (n : Nat) : Nat := 0x10310100 + 0x40 * n
abbrev TD_CFG_HOLD_MS (n : Nat) : Fld := ⟨TD_CFG n, 31, 16⟩
abbrev TD_CFG_STEP_EN (n : Nat) : Fld := ⟨TD_CFG n, 8, 8⟩
abbrev TD_CFG_RSEL (n : Nat) : Fld := ⟨TD_CFG n, 5, 4⟩
abbrev TD_CFG_SRC (n : Nat) : Fld := ⟨TD_CFG n, 1, 0⟩
abbrev TD_NOW_W (n : Nat) : Nat := 0x10310104 + 0x40 * n
abbrev TD_NOW (n : Nat) : Fld := ⟨TD_NOW_W n, 31, 0⟩
abbrev TD_SNAP_W (n : Nat) : Nat := 0x10310108 + 0x40 * n
abbrev TD_SNAP (n : Nat) : Fld := ⟨TD_SNAP_W n, 31, 0⟩
abbrev TD_RATE_W (n : Nat) : Nat := 0x1031010C + 0x40 * n
abbrev TD_RATE (n : Nat) : Fld := ⟨TD_RATE_W n, 31, 0⟩
abbrev TD_OFS_IN_W (n : Nat) : Nat := 0x10310110 + 0x40 * n
abbrev TD_OFS_IN (n : Nat) : Fld := ⟨TD_OFS_IN_W n, 31, 0⟩
abbrev TD_RESID_W (n : Nat) : Nat := 0x10310114 + 0x40 * n
abbrev TD_RESID (n : Nat) : Fld := ⟨TD_RESID_W n, 31, 0⟩
abbrev TD_SLEW_W (n : Nat) : Nat := 0x10310118 + 0x40 * n
abbrev TD_SLEW (n : Nat) : Fld := ⟨TD_SLEW_W n, 16, 0⟩
abbrev TD_STEP_LIM_W (n : Nat) : Nat := 0x1031011C + 0x40 * n
abbrev TD_STEP_LIM (n : Nat) : Fld := ⟨TD_STEP_LIM_W n, 31, 0⟩
abbrev TD_STAT (n : Nat) : Nat := 0x10310120 + 0x40 * n
abbrev TD_STAT_HOLDOVER (n : Nat) : Fld := ⟨TD_STAT n, 3, 3⟩
abbrev TD_STAT_STEPDENY (n : Nat) : Fld := ⟨TD_STAT n, 2, 2⟩
abbrev TD_STAT_SLEWING (n : Nat) : Fld := ⟨TD_STAT n, 1, 1⟩
abbrev TD_STAT_RINGLOCK (n : Nat) : Fld := ⟨TD_STAT n, 0, 0⟩
abbrev TD_EPOCH_REF_W (n : Nat) : Nat := 0x10310124 + 0x40 * n
abbrev TD_EPOCH_REF (n : Nat) : Fld := ⟨TD_EPOCH_REF_W n, 31, 0⟩
abbrev TD_EPOCH_NS_W (n : Nat) : Nat := 0x10310128 + 0x40 * n
abbrev TD_EPOCH_NS (n : Nat) : Fld := ⟨TD_EPOCH_NS_W n, 31, 0⟩
abbrev TD_EPOCH_SEC_LO_W (n : Nat) : Nat := 0x1031012C + 0x40 * n
abbrev TD_EPOCH_SEC_LO (n : Nat) : Fld := ⟨TD_EPOCH_SEC_LO_W n, 31, 0⟩
abbrev TD_EPOCH_SEC_HI_W (n : Nat) : Nat := 0x10310130 + 0x40 * n
abbrev TD_EPOCH_SEC_HI (n : Nat) : Fld := ⟨TD_EPOCH_SEC_HI_W n, 15, 0⟩
end R

def mapTD : List RSpec := [
  ⟨0x0, 4, 1, [⟨31, 16, .rw, 0x3E8⟩, ⟨8, 8, .rw, 0x0⟩, ⟨5, 4, .rw, 0x0⟩, ⟨1, 0, .rw, 0x0⟩]⟩,
  ⟨0x4, 4, 1, [⟨31, 0, .ro, 0x0⟩]⟩,
  ⟨0x8, 4, 1, [⟨31, 0, .ro, 0x0⟩]⟩,
  ⟨0xC, 4, 1, [⟨31, 0, .rw, 0x0⟩]⟩,
  ⟨0x10, 4, 1, [⟨31, 0, .wo, 0x0⟩]⟩,
  ⟨0x14, 4, 1, [⟨31, 0, .ro, 0x0⟩]⟩,
  ⟨0x18, 4, 1, [⟨16, 0, .rw, 0x2710⟩]⟩,
  ⟨0x1C, 4, 1, [⟨31, 0, .rw, 0xF4240⟩]⟩,
  ⟨0x20, 4, 1, [⟨3, 3, .ro, 0x0⟩, ⟨2, 2, .rsk, 0x0⟩, ⟨1, 1, .ro, 0x0⟩, ⟨0, 0, .ro, 0x0⟩]⟩,
  ⟨0x24, 4, 1, [⟨31, 0, .rw, 0x0⟩]⟩,
  ⟨0x28, 4, 1, [⟨31, 0, .rw, 0x0⟩]⟩,
  ⟨0x2C, 4, 1, [⟨31, 0, .rw, 0x0⟩]⟩,
  ⟨0x30, 4, 1, [⟨15, 0, .rw, 0x0⟩]⟩]

/-! ## PTP (spec/09_time_base.md, R240) -/
namespace R
abbrev PTP_PCFG (n : Nat) : Nat := 0x10310200 + 0x40 * n
abbrev PTP_PCFG_SDOID (n : Nat) : Fld := ⟨PTP_PCFG n, 19, 16⟩
abbrev PTP_PCFG_DOMNUM (n : Nat) : Fld := ⟨PTP_PCFG n, 15, 8⟩
abbrev PTP_PCFG_AS (n : Nat) : Fld := ⟨PTP_PCFG n, 4, 4⟩
abbrev PTP_PCFG_TRANSPORT (n : Nat) : Fld := ⟨PTP_PCFG n, 3, 2⟩
abbrev PTP_PCFG_ONESTEP (n : Nat) : Fld := ⟨PTP_PCFG n, 1, 1⟩
abbrev PTP_PCFG_EN (n : Nat) : Fld := ⟨PTP_PCFG n, 0, 0⟩
abbrev PTP_LAT (n : Nat) : Nat := 0x10310204 + 0x40 * n
abbrev PTP_LAT_RXLAT (n : Nat) : Fld := ⟨PTP_LAT n, 31, 16⟩
abbrev PTP_LAT_TXLAT (n : Nat) : Fld := ⟨PTP_LAT n, 15, 0⟩
abbrev PTP_RX_STAMP_W (n : Nat) : Nat := 0x10310208 + 0x40 * n
abbrev PTP_RX_STAMP (n : Nat) : Fld := ⟨PTP_RX_STAMP_W n, 31, 0⟩
abbrev PTP_RX_INFO (n : Nat) : Nat := 0x1031020C + 0x40 * n
abbrev PTP_RX_INFO_SEQID (n : Nat) : Fld := ⟨PTP_RX_INFO n, 31, 16⟩
abbrev PTP_RX_INFO_MSGTYPE (n : Nat) : Fld := ⟨PTP_RX_INFO n, 11, 8⟩
abbrev PTP_RX_INFO_FRAC (n : Nat) : Fld := ⟨PTP_RX_INFO n, 7, 4⟩
abbrev PTP_RX_INFO_VALID (n : Nat) : Fld := ⟨PTP_RX_INFO n, 0, 0⟩
abbrev PTP_TX_STAMP_W (n : Nat) : Nat := 0x10310210 + 0x40 * n
abbrev PTP_TX_STAMP (n : Nat) : Fld := ⟨PTP_TX_STAMP_W n, 31, 0⟩
abbrev PTP_TX_INFO (n : Nat) : Nat := 0x10310214 + 0x40 * n
abbrev PTP_TX_INFO_SEQID (n : Nat) : Fld := ⟨PTP_TX_INFO n, 31, 16⟩
abbrev PTP_TX_INFO_MSGTYPE (n : Nat) : Fld := ⟨PTP_TX_INFO n, 11, 8⟩
abbrev PTP_TX_INFO_FRAC (n : Nat) : Fld := ⟨PTP_TX_INFO n, 7, 4⟩
abbrev PTP_TX_INFO_VALID (n : Nat) : Fld := ⟨PTP_TX_INFO n, 0, 0⟩
abbrev PTP_RX_OVF_W (n : Nat) : Nat := 0x10310218 + 0x40 * n
abbrev PTP_RX_OVF (n : Nat) : Fld := ⟨PTP_RX_OVF_W n, 31, 0⟩
abbrev PTP_TX_OVF_W (n : Nat) : Nat := 0x1031021C + 0x40 * n
abbrev PTP_TX_OVF (n : Nat) : Fld := ⟨PTP_TX_OVF_W n, 31, 0⟩
abbrev PTP_EPOCHERR_W (n : Nat) : Nat := 0x10310220 + 0x40 * n
abbrev PTP_EPOCHERR (n : Nat) : Fld := ⟨PTP_EPOCHERR_W n, 31, 0⟩
end R

def mapPTP : List RSpec := [
  ⟨0x0, 4, 1, [⟨19, 16, .rw, 0x0⟩, ⟨15, 8, .rw, 0x0⟩, ⟨4, 4, .rw, 0x0⟩, ⟨3, 2, .rw, 0x0⟩, ⟨1, 1, .rw, 0x0⟩, ⟨0, 0, .rw, 0x0⟩]⟩,
  ⟨0x4, 4, 1, [⟨31, 16, .rw, 0x0⟩, ⟨15, 0, .rw, 0x0⟩]⟩,
  ⟨0x8, 4, 1, [⟨31, 0, .ro, 0x0⟩]⟩,
  ⟨0xC, 4, 1, [⟨31, 16, .ro, 0x0⟩, ⟨11, 8, .ro, 0x0⟩, ⟨7, 4, .ro, 0x0⟩, ⟨0, 0, .ro, 0x0⟩]⟩,
  ⟨0x10, 4, 1, [⟨31, 0, .ro, 0x0⟩]⟩,
  ⟨0x14, 4, 1, [⟨31, 16, .ro, 0x0⟩, ⟨11, 8, .ro, 0x0⟩, ⟨7, 4, .ro, 0x0⟩, ⟨0, 0, .ro, 0x0⟩]⟩,
  ⟨0x18, 4, 1, [⟨31, 0, .ro, 0x0⟩]⟩,
  ⟨0x1C, 4, 1, [⟨31, 0, .ro, 0x0⟩]⟩,
  ⟨0x20, 4, 1, [⟨31, 0, .ro, 0x0⟩]⟩]

/-! ## TEO (spec/09_time_base.md, R240) -/
namespace R
abbrev TEO_CFG (n : Nat) : Nat := 0x10320000 + 0x10 * n
abbrev TEO_CFG_WIDTH (n : Nat) : Fld := ⟨TEO_CFG n, 31, 12⟩
abbrev TEO_CFG_TDOM (n : Nat) : Fld := ⟨TEO_CFG n, 2, 2⟩
abbrev TEO_CFG_REST (n : Nat) : Fld := ⟨TEO_CFG n, 1, 1⟩
abbrev TEO_CFG_EN (n : Nat) : Fld := ⟨TEO_CFG n, 0, 0⟩
abbrev TEO_Q_STAMP_W (n : Nat) : Nat := 0x10320004 + 0x10 * n
abbrev TEO_Q_STAMP (n : Nat) : Fld := ⟨TEO_Q_STAMP_W n, 31, 0⟩
abbrev TEO_Q_ACT (n : Nat) : Nat := 0x10320008 + 0x10 * n
abbrev TEO_Q_ACT_FLUSH (n : Nat) : Fld := ⟨TEO_Q_ACT n, 31, 31⟩
abbrev TEO_Q_ACT_ACTION (n : Nat) : Fld := ⟨TEO_Q_ACT n, 1, 0⟩
abbrev TEO_STAT (n : Nat) : Nat := 0x1032000C + 0x10 * n
abbrev TEO_STAT_LATE (n : Nat) : Fld := ⟨TEO_STAT n, 31, 16⟩
abbrev TEO_STAT_OVF (n : Nat) : Fld := ⟨TEO_STAT n, 8, 8⟩
abbrev TEO_STAT_DEPTH (n : Nat) : Fld := ⟨TEO_STAT n, 4, 0⟩
end R

def mapTEO : List RSpec := [
  ⟨0x0, 4, 1, [⟨31, 12, .rw, 0x0⟩, ⟨2, 2, .rw, 0x0⟩, ⟨1, 1, .rw, 0x0⟩, ⟨0, 0, .rw, 0x0⟩]⟩,
  ⟨0x4, 4, 1, [⟨31, 0, .wo, 0x0⟩]⟩,
  ⟨0x8, 4, 1, [⟨31, 31, .wo, 0x0⟩, ⟨1, 0, .wo, 0x0⟩]⟩,
  ⟨0xC, 4, 1, [⟨31, 16, .ro, 0x0⟩, ⟨8, 8, .rsk, 0x0⟩, ⟨4, 0, .ro, 0x0⟩]⟩]

/-! ## TCI (spec/09_time_base.md, R240) -/
namespace R
abbrev TCI_CFG (n : Nat) : Nat := 0x10320400 + 0x20 * n
abbrev TCI_CFG_TAG (n : Nat) : Fld := ⟨TCI_CFG n, 29, 16⟩
abbrev TCI_CFG_FILT (n : Nat) : Fld := ⟨TCI_CFG n, 15, 8⟩
abbrev TCI_CFG_TAGEN (n : Nat) : Fld := ⟨TCI_CFG n, 4, 4⟩
abbrev TCI_CFG_TDOM (n : Nat) : Fld := ⟨TCI_CFG n, 3, 3⟩
abbrev TCI_CFG_EDGE (n : Nat) : Fld := ⟨TCI_CFG n, 2, 1⟩
abbrev TCI_CFG_EN (n : Nat) : Fld := ⟨TCI_CFG n, 0, 0⟩
abbrev TCI_HEAD_STAMP_W (n : Nat) : Nat := 0x10320404 + 0x20 * n
abbrev TCI_HEAD_STAMP (n : Nat) : Fld := ⟨TCI_HEAD_STAMP_W n, 31, 0⟩
abbrev TCI_HEAD_INFO (n : Nat) : Nat := 0x10320408 + 0x20 * n
abbrev TCI_HEAD_INFO_VALID (n : Nat) : Fld := ⟨TCI_HEAD_INFO n, 31, 31⟩
abbrev TCI_HEAD_INFO_LEVEL (n : Nat) : Fld := ⟨TCI_HEAD_INFO n, 30, 30⟩
abbrev TCI_HEAD_INFO_SEQ (n : Nat) : Fld := ⟨TCI_HEAD_INFO n, 15, 0⟩
abbrev TCI_STAT (n : Nat) : Nat := 0x1032040C + 0x20 * n
abbrev TCI_STAT_TAGOVR (n : Nat) : Fld := ⟨TCI_STAT n, 9, 9⟩
abbrev TCI_STAT_OVF (n : Nat) : Fld := ⟨TCI_STAT n, 8, 8⟩
abbrev TCI_STAT_DEPTH (n : Nat) : Fld := ⟨TCI_STAT n, 4, 0⟩
end R

def mapTCI : List RSpec := [
  ⟨0x0, 4, 1, [⟨29, 16, .rw, 0x0⟩, ⟨15, 8, .rw, 0x0⟩, ⟨4, 4, .rw, 0x0⟩, ⟨3, 3, .rw, 0x0⟩, ⟨2, 1, .rw, 0x0⟩, ⟨0, 0, .rw, 0x0⟩]⟩,
  ⟨0x4, 4, 1, [⟨31, 0, .ro, 0x0⟩]⟩,
  ⟨0x8, 4, 1, [⟨31, 31, .ro, 0x0⟩, ⟨30, 30, .ro, 0x0⟩, ⟨15, 0, .ro, 0x0⟩]⟩,
  ⟨0xC, 4, 1, [⟨9, 9, .rsk, 0x0⟩, ⟨8, 8, .rsk, 0x0⟩, ⟨4, 0, .ro, 0x0⟩]⟩]

/-! ## DSP (spec/12_dispatcher.md, R319) -/
namespace R
abbrev DSP_SOFT_W : Nat := 0x10200010
abbrev DSP_SOFT_STRAND : Fld := ⟨DSP_SOFT_W, 25, 16⟩
abbrev DSP_LSCOUNT_W : Nat := 0x10200014
abbrev DSP_LSCOUNT : Fld := ⟨DSP_LSCOUNT_W, 6, 0⟩
abbrev DSP_CORE (i : Nat) : Nat := 0x10200040 + 0x4 * i
abbrev DSP_CORE_ONLINE (i : Nat) : Fld := ⟨DSP_CORE i, 31, 31⟩
abbrev DSP_CORE_HALTED (i : Nat) : Fld := ⟨DSP_CORE i, 30, 30⟩
abbrev DSP_CORE_OFFREQ (i : Nat) : Fld := ⟨DSP_CORE i, 29, 29⟩
abbrev DSP_CORE_ONREQ (i : Nat) : Fld := ⟨DSP_CORE i, 28, 28⟩
abbrev DSP_CORE_SHADOW (i : Nat) : Fld := ⟨DSP_CORE i, 27, 27⟩
abbrev DSP_CORE_RUN_V (i : Nat) : Fld := ⟨DSP_CORE i, 26, 26⟩
abbrev DSP_CORE_RUN (i : Nat) : Fld := ⟨DSP_CORE i, 25, 16⟩
abbrev DSP_CORE_PF_V (i : Nat) : Fld := ⟨DSP_CORE i, 15, 15⟩
abbrev DSP_CORE_ONERR (i : Nat) : Fld := ⟨DSP_CORE i, 14, 14⟩
abbrev DSP_CORE_PF (i : Nat) : Fld := ⟨DSP_CORE i, 9, 0⟩
abbrev DSP_DSUP (i : Nat) : Nat := 0x10200100 + 0x4 * i
abbrev DSP_DSUP_V (i : Nat) : Fld := ⟨DSP_DSUP i, 31, 31⟩
abbrev DSP_DSUP_STRAND (i : Nat) : Fld := ⟨DSP_DSUP i, 9, 0⟩
abbrev DSP_PLACE_CNT_W : Nat := 0x10200500
abbrev DSP_PLACE_CNT : Fld := ⟨DSP_PLACE_CNT_W, 31, 0⟩
abbrev DSP_PREEMPT_CNT_W : Nat := 0x10200504
abbrev DSP_PREEMPT_CNT : Fld := ⟨DSP_PREEMPT_CNT_W, 31, 0⟩
abbrev DSP_MIGRATE_CNT_W : Nat := 0x10200508
abbrev DSP_MIGRATE_CNT : Fld := ⟨DSP_MIGRATE_CNT_W, 31, 0⟩
abbrev DSP_TAGOVR_CNT_W : Nat := 0x1020050C
abbrev DSP_TAGOVR_CNT : Fld := ⟨DSP_TAGOVR_CNT_W, 31, 0⟩
abbrev DSP_IRQDROP_CNT_W : Nat := 0x10200510
abbrev DSP_IRQDROP_CNT : Fld := ⟨DSP_IRQDROP_CNT_W, 31, 0⟩
abbrev DSP_DRAINLATE_CNT_W : Nat := 0x10200514
abbrev DSP_DRAINLATE_CNT : Fld := ⟨DSP_DRAINLATE_CNT_W, 31, 0⟩
abbrev DSP_TRC_CTRL : Nat := 0x10200600
abbrev DSP_TRC_CTRL_EN : Fld := ⟨DSP_TRC_CTRL, 31, 31⟩
abbrev DSP_TRC_CTRL_STOPFULL : Fld := ⟨DSP_TRC_CTRL, 30, 30⟩
abbrev DSP_TRC_CTRL_DOMF : Fld := ⟨DSP_TRC_CTRL, 29, 29⟩
abbrev DSP_TRC_CTRL_DOM : Fld := ⟨DSP_TRC_CTRL, 7, 0⟩
abbrev DSP_TRC_BASE_LO_W : Nat := 0x10200604
abbrev DSP_TRC_BASE_LO_BASE : Fld := ⟨DSP_TRC_BASE_LO_W, 31, 4⟩
abbrev DSP_TRC_BASE_HI_W : Nat := 0x10200608
abbrev DSP_TRC_BASE_HI_BASE : Fld := ⟨DSP_TRC_BASE_HI_W, 19, 0⟩
abbrev DSP_TRC_SIZE_W : Nat := 0x1020060C
abbrev DSP_TRC_SIZE_SIZE : Fld := ⟨DSP_TRC_SIZE_W, 19, 0⟩
abbrev DSP_TRC_WR_W : Nat := 0x10200610
abbrev DSP_TRC_WR_INDEX : Fld := ⟨DSP_TRC_WR_W, 19, 0⟩
abbrev DSP_TRC_RD_W : Nat := 0x10200614
abbrev DSP_TRC_RD_INDEX : Fld := ⟨DSP_TRC_RD_W, 19, 0⟩
abbrev DSP_TRC_LOST_W : Nat := 0x10200618
abbrev DSP_TRC_LOST : Fld := ⟨DSP_TRC_LOST_W, 31, 0⟩
abbrev DSP_TRC_EVMASK_W : Nat := 0x1020061C
abbrev DSP_TRC_EVMASK : Fld := ⟨DSP_TRC_EVMASK_W, 15, 0⟩
abbrev DSP_PV_SEL : Nat := 0x10200800
abbrev DSP_PV_SEL_NOSHADOW : Fld := ⟨DSP_PV_SEL, 31, 31⟩
abbrev DSP_PV_SEL_STRAND : Fld := ⟨DSP_PV_SEL, 9, 0⟩
abbrev DSP_PV_REC_W (i : Nat) : Nat := 0x10200820 + 0x4 * i
abbrev DSP_PV_REC (i : Nat) : Fld := ⟨DSP_PV_REC_W i, 31, 0⟩
abbrev DSP_IRT (i : Nat) : Nat := 0x10201000 + 0x4 * i
abbrev DSP_IRT_EN (i : Nat) : Fld := ⟨DSP_IRT i, 31, 31⟩
abbrev DSP_IRT_STRAND (i : Nat) : Fld := ⟨DSP_IRT i, 25, 16⟩
end R

def mapDSP : List RSpec := [
  ⟨0x10, 4, 1, [⟨25, 16, .wo, 0x0⟩]⟩,
  ⟨0x14, 4, 1, [⟨6, 0, .ro, 0x0⟩]⟩,
  ⟨0x40, 4, 32, [⟨31, 31, .ro, 0x0⟩, ⟨30, 30, .ro, 0x0⟩, ⟨29, 29, .w1s, 0x0⟩, ⟨28, 28, .w1s, 0x0⟩, ⟨27, 27, .ro, 0x0⟩, ⟨26, 26, .ro, 0x0⟩, ⟨25, 16, .ro, 0x0⟩, ⟨15, 15, .ro, 0x0⟩, ⟨14, 14, .rsk, 0x0⟩, ⟨9, 0, .ro, 0x0⟩]⟩,
  ⟨0xC0, 4, 4, [⟨31, 31, .ro, 0x1⟩, ⟨30, 30, .ro, 0x0⟩, ⟨29, 29, .w1s, 0x0⟩, ⟨28, 28, .w1s, 0x0⟩, ⟨27, 27, .ro, 0x0⟩, ⟨26, 26, .ro, 0x0⟩, ⟨25, 16, .ro, 0x0⟩, ⟨15, 15, .ro, 0x0⟩, ⟨14, 14, .rsk, 0x0⟩, ⟨9, 0, .ro, 0x0⟩]⟩,
  ⟨0x100, 4, 256, [⟨31, 31, .rw, 0x0⟩, ⟨9, 0, .rw, 0x0⟩]⟩,
  ⟨0x500, 4, 1, [⟨31, 0, .rw, 0x0⟩]⟩,
  ⟨0x504, 4, 1, [⟨31, 0, .rw, 0x0⟩]⟩,
  ⟨0x508, 4, 1, [⟨31, 0, .rw, 0x0⟩]⟩,
  ⟨0x50C, 4, 1, [⟨31, 0, .rw, 0x0⟩]⟩,
  ⟨0x510, 4, 1, [⟨31, 0, .rw, 0x0⟩]⟩,
  ⟨0x514, 4, 1, [⟨31, 0, .rw, 0x0⟩]⟩,
  ⟨0x600, 4, 1, [⟨31, 31, .rw, 0x0⟩, ⟨30, 30, .rw, 0x0⟩, ⟨29, 29, .rw, 0x0⟩, ⟨7, 0, .rw, 0x0⟩]⟩,
  ⟨0x604, 4, 1, [⟨31, 4, .rw, 0x0⟩]⟩,
  ⟨0x608, 4, 1, [⟨19, 0, .rw, 0x0⟩]⟩,
  ⟨0x60C, 4, 1, [⟨19, 0, .rw, 0x0⟩]⟩,
  ⟨0x610, 4, 1, [⟨19, 0, .ro, 0x0⟩]⟩,
  ⟨0x614, 4, 1, [⟨19, 0, .rw, 0x0⟩]⟩,
  ⟨0x618, 4, 1, [⟨31, 0, .ro, 0x0⟩]⟩,
  ⟨0x61C, 4, 1, [⟨15, 0, .rw, 0x0⟩]⟩,
  ⟨0x800, 4, 1, [⟨31, 31, .ro, 0x0⟩, ⟨9, 0, .rw, 0x0⟩]⟩,
  ⟨0x820, 4, 8, [⟨31, 0, .ro, 0x0⟩]⟩,
  ⟨0x1000, 4, 512, [⟨31, 31, .rw, 0x0⟩, ⟨25, 16, .rw, 0x0⟩]⟩]

/-! ## ST (spec/12_dispatcher.md, R319) -/
namespace R
abbrev ST_CMD_W (n : Nat) : Nat := 0x10210000 + 0x40 * n
abbrev ST_CMD_CMD (n : Nat) : Fld := ⟨ST_CMD_W n, 2, 0⟩
abbrev ST_STAT (n : Nat) : Nat := 0x10210004 + 0x40 * n
abbrev ST_STAT_EPOCH (n : Nat) : Fld := ⟨ST_STAT n, 31, 24⟩
abbrev ST_STAT_LASTCORE (n : Nat) : Fld := ⟨ST_STAT n, 21, 16⟩
abbrev ST_STAT_CMDERR (n : Nat) : Fld := ⟨ST_STAT n, 7, 7⟩
abbrev ST_STAT_CFGERR (n : Nat) : Fld := ⟨ST_STAT n, 6, 6⟩
abbrev ST_STAT_DRAINING (n : Nat) : Fld := ⟨ST_STAT n, 5, 5⟩
abbrev ST_STAT_DETACHED (n : Nat) : Fld := ⟨ST_STAT n, 4, 4⟩
abbrev ST_STAT_PREFETCHED (n : Nat) : Fld := ⟨ST_STAT n, 3, 3⟩
abbrev ST_STAT_STATE (n : Nat) : Fld := ⟨ST_STAT n, 2, 0⟩
abbrev ST_ATTR (n : Nat) : Nat := 0x10210008 + 0x40 * n
abbrev ST_ATTR_AFFWIN (n : Nat) : Fld := ⟨ST_ATTR n, 31, 16⟩
abbrev ST_ATTR_PFORD (n : Nat) : Fld := ⟨ST_ATTR n, 15, 8⟩
abbrev ST_ATTR_NOPREEMPT (n : Nat) : Fld := ⟨ST_ATTR n, 6, 6⟩
abbrev ST_ATTR_LOOPSAVE (n : Nat) : Fld := ⟨ST_ATTR n, 5, 5⟩
abbrev ST_ATTR_PRIO (n : Nat) : Fld := ⟨ST_ATTR n, 4, 0⟩
abbrev ST_CMASK_W (n : Nat) : Nat := 0x1021000C + 0x40 * n
abbrev ST_CMASK (n : Nat) : Fld := ⟨ST_CMASK_W n, 31, 0⟩
abbrev ST_SMASK_W (n : Nat) : Nat := 0x10210010 + 0x40 * n
abbrev ST_SMASK (n : Nat) : Fld := ⟨ST_SMASK_W n, 3, 0⟩
abbrev ST_DOM_W (n : Nat) : Nat := 0x10210014 + 0x40 * n
abbrev ST_DOM (n : Nat) : Fld := ⟨ST_DOM_W n, 7, 0⟩
abbrev ST_ENTRY_W (n : Nat) : Nat := 0x10210018 + 0x40 * n
abbrev ST_ENTRY (n : Nat) : Fld := ⟨ST_ENTRY_W n, 31, 2⟩
abbrev ST_VBASE_W (n : Nat) : Nat := 0x1021001C + 0x40 * n
abbrev ST_VBASE (n : Nat) : Fld := ⟨ST_VBASE_W n, 31, 11⟩
abbrev ST_SWLO_W (n : Nat) : Nat := 0x10210020 + 0x40 * n
abbrev ST_SWLO (n : Nat) : Fld := ⟨ST_SWLO_W n, 31, 4⟩
abbrev ST_SWHI_W (n : Nat) : Nat := 0x10210024 + 0x40 * n
abbrev ST_SWHI (n : Nat) : Fld := ⟨ST_SWHI_W n, 31, 4⟩
abbrev ST_HOLDOFF_MAX_W (n : Nat) : Nat := 0x10210028 + 0x40 * n
abbrev ST_HOLDOFF_MAX (n : Nat) : Fld := ⟨ST_HOLDOFF_MAX_W n, 15, 0⟩
abbrev ST_SAVE_W (n : Nat) : Nat := 0x1021002C + 0x40 * n
abbrev ST_SAVE (n : Nat) : Fld := ⟨ST_SAVE_W n, 23, 11⟩
abbrev ST_WAIT (n : Nat) : Nat := 0x10210030 + 0x40 * n
abbrev ST_WAIT_WTAGS (n : Nat) : Fld := ⟨ST_WAIT n, 29, 16⟩
abbrev ST_WAIT_WEMPTY (n : Nat) : Fld := ⟨ST_WAIT n, 13, 0⟩
abbrev ST_IPEND_W (n : Nat) : Nat := 0x10210034 + 0x40 * n
abbrev ST_IPEND (n : Nat) : Fld := ⟨ST_IPEND_W n, 4, 0⟩
abbrev ST_SAVED_SP_W (n : Nat) : Nat := 0x10210038 + 0x40 * n
abbrev ST_SAVED_SP (n : Nat) : Fld := ⟨ST_SAVED_SP_W n, 31, 0⟩
abbrev ST_SAVED_PC_W (n : Nat) : Nat := 0x1021003C + 0x40 * n
abbrev ST_SAVED_PC (n : Nat) : Fld := ⟨ST_SAVED_PC_W n, 31, 0⟩
end R

def mapST : List RSpec := [
  ⟨0x0, 4, 1, [⟨2, 0, .wo, 0x0⟩]⟩,
  ⟨0x4, 4, 1, [⟨31, 24, .ro, 0x0⟩, ⟨21, 16, .ro, 0x3F⟩, ⟨7, 7, .rsk, 0x0⟩, ⟨6, 6, .rsk, 0x0⟩, ⟨5, 5, .ro, 0x0⟩, ⟨4, 4, .ro, 0x0⟩, ⟨3, 3, .ro, 0x0⟩, ⟨2, 0, .ro, 0x0⟩]⟩,
  ⟨0x8, 4, 1, [⟨31, 16, .rw, 0x0⟩, ⟨15, 8, .rw, 0x0⟩, ⟨6, 6, .rw, 0x0⟩, ⟨5, 5, .rw, 0x0⟩, ⟨4, 0, .rw, 0x1F⟩]⟩,
  ⟨0xC, 4, 1, [⟨31, 0, .rw, 0x0⟩]⟩,
  ⟨0x10, 4, 1, [⟨3, 0, .rw, 0x0⟩]⟩,
  ⟨0x14, 4, 1, [⟨7, 0, .rw, 0x0⟩]⟩,
  ⟨0x18, 4, 1, [⟨31, 2, .rw, 0x0⟩]⟩,
  ⟨0x1C, 4, 1, [⟨31, 11, .rw, 0x0⟩]⟩,
  ⟨0x20, 4, 1, [⟨31, 4, .rw, 0x0⟩]⟩,
  ⟨0x24, 4, 1, [⟨31, 4, .rw, 0x0⟩]⟩,
  ⟨0x28, 4, 1, [⟨15, 0, .rw, 0x960⟩]⟩,
  ⟨0x2C, 4, 1, [⟨23, 11, .rw, 0x0⟩]⟩,
  ⟨0x30, 4, 1, [⟨29, 16, .ro, 0x0⟩, ⟨13, 0, .ro, 0x0⟩]⟩,
  ⟨0x34, 4, 1, [⟨4, 0, .ro, 0x0⟩]⟩,
  ⟨0x38, 4, 1, [⟨31, 0, .rw, 0x0⟩]⟩,
  ⟨0x3C, 4, 1, [⟨31, 0, .ro, 0x0⟩]⟩]

/-! ## TAG (spec/12_dispatcher.md, R319) -/
namespace R
abbrev TAG_VALUE_W (n : Nat) : Nat := 0x10220000 + 0x8 * n
abbrev TAG_VALUE (n : Nat) : Fld := ⟨TAG_VALUE_W n, 31, 0⟩
abbrev TAG_CTL (n : Nat) : Nat := 0x10220004 + 0x8 * n
abbrev TAG_CTL_FULL (n : Nat) : Fld := ⟨TAG_CTL n, 31, 31⟩
abbrev TAG_CTL_WAIT (n : Nat) : Fld := ⟨TAG_CTL n, 30, 30⟩
abbrev TAG_CTL_OVR (n : Nat) : Fld := ⟨TAG_CTL n, 29, 29⟩
abbrev TAG_CTL_OWNED (n : Nat) : Fld := ⟨TAG_CTL n, 28, 28⟩
abbrev TAG_CTL_OWNER (n : Nat) : Fld := ⟨TAG_CTL n, 25, 16⟩
abbrev TAG_CTL_WDOM (n : Nat) : Fld := ⟨TAG_CTL n, 15, 8⟩
abbrev TAG_CTL_DOM (n : Nat) : Fld := ⟨TAG_CTL n, 7, 0⟩
end R

def mapTAG : List RSpec := [
  ⟨0x0, 4, 1, [⟨31, 0, .rw, 0x0⟩]⟩,
  ⟨0x4, 4, 1, [⟨31, 31, .ro, 0x0⟩, ⟨30, 30, .rw, 0x0⟩, ⟨29, 29, .rsk, 0x0⟩, ⟨28, 28, .rw, 0x0⟩, ⟨25, 16, .rw, 0x0⟩, ⟨15, 8, .rw, 0x0⟩, ⟨7, 0, .rw, 0x0⟩]⟩]

/-! ## FLOW (spec/12_dispatcher.md, R319) -/
namespace R
abbrev FLOW_CTRL (n : Nat) : Nat := 0x10240000 + 0x40 * n
abbrev FLOW_CTRL_DOM (n : Nat) : Fld := ⟨FLOW_CTRL n, 15, 8⟩
abbrev FLOW_CTRL_KIND (n : Nat) : Fld := ⟨FLOW_CTRL n, 2, 1⟩
abbrev FLOW_CTRL_EN (n : Nat) : Fld := ⟨FLOW_CTRL n, 0, 0⟩
abbrev FLOW_PEND_W (n : Nat) : Nat := 0x10240004 + 0x40 * n
abbrev FLOW_PEND (n : Nat) : Fld := ⟨FLOW_PEND_W n, 8, 0⟩
abbrev FLOW_ACCEPT_W (n : Nat) : Nat := 0x10240008 + 0x40 * n
abbrev FLOW_ACCEPT (n : Nat) : Fld := ⟨FLOW_ACCEPT_W n, 31, 0⟩
abbrev FLOW_LATE_W (n : Nat) : Nat := 0x1024000C + 0x40 * n
abbrev FLOW_LATE (n : Nat) : Fld := ⟨FLOW_LATE_W n, 31, 0⟩
abbrev FLOW_STALE_W (n : Nat) : Nat := 0x10240010 + 0x40 * n
abbrev FLOW_STALE (n : Nat) : Fld := ⟨FLOW_STALE_W n, 31, 0⟩
abbrev FLOW_OVF_W (n : Nat) : Nat := 0x10240014 + 0x40 * n
abbrev FLOW_OVF (n : Nat) : Fld := ⟨FLOW_OVF_W n, 31, 0⟩
abbrev FLOW_REFUSED_W (n : Nat) : Nat := 0x10240018 + 0x40 * n
abbrev FLOW_REFUSED (n : Nat) : Fld := ⟨FLOW_REFUSED_W n, 31, 0⟩
abbrev FLOW_DEST_LO_W (n : Nat) : Nat := 0x10240020 + 0x40 * n
abbrev FLOW_DEST_LO (n : Nat) : Fld := ⟨FLOW_DEST_LO_W n, 31, 0⟩
abbrev FLOW_DEST_HI_W (n : Nat) : Nat := 0x10240024 + 0x40 * n
abbrev FLOW_DEST_HI (n : Nat) : Fld := ⟨FLOW_DEST_HI_W n, 19, 0⟩
abbrev FLOW_NEXT_W (n : Nat) : Nat := 0x10240028 + 0x40 * n
abbrev FLOW_NEXT (n : Nat) : Fld := ⟨FLOW_NEXT_W n, 15, 0⟩
abbrev FLOW_ELEN (n : Nat) : Nat := 0x1024002C + 0x40 * n
abbrev FLOW_ELEN_ELEN (n : Nat) : Fld := ⟨FLOW_ELEN n, 24, 16⟩
abbrev FLOW_ELEN_NENT (n : Nat) : Fld := ⟨FLOW_ELEN n, 15, 0⟩
abbrev FLOW_GAPT_W (n : Nat) : Nat := 0x10240030 + 0x40 * n
abbrev FLOW_GAPT (n : Nat) : Fld := ⟨FLOW_GAPT_W n, 31, 0⟩
abbrev FLOW_SKIPS_W (n : Nat) : Nat := 0x10240034 + 0x40 * n
abbrev FLOW_SKIPS (n : Nat) : Fld := ⟨FLOW_SKIPS_W n, 31, 0⟩
abbrev FLOW_WRIDX_W (n : Nat) : Nat := 0x10240038 + 0x40 * n
abbrev FLOW_WRIDX (n : Nat) : Fld := ⟨FLOW_WRIDX_W n, 15, 0⟩
end R

def mapFLOW : List RSpec := [
  ⟨0x0, 4, 1, [⟨15, 8, .rw, 0x0⟩, ⟨2, 1, .rw, 0x0⟩, ⟨0, 0, .rw, 0x0⟩]⟩,
  ⟨0x4, 4, 1, [⟨8, 0, .ro, 0x0⟩]⟩,
  ⟨0x8, 4, 1, [⟨31, 0, .ro, 0x0⟩]⟩,
  ⟨0xC, 4, 1, [⟨31, 0, .ro, 0x0⟩]⟩,
  ⟨0x10, 4, 1, [⟨31, 0, .ro, 0x0⟩]⟩,
  ⟨0x14, 4, 1, [⟨31, 0, .ro, 0x0⟩]⟩,
  ⟨0x18, 4, 1, [⟨31, 0, .ro, 0x0⟩]⟩,
  ⟨0x20, 4, 1, [⟨31, 0, .rw, 0x0⟩]⟩,
  ⟨0x24, 4, 1, [⟨19, 0, .rw, 0x0⟩]⟩,
  ⟨0x28, 4, 1, [⟨15, 0, .rw, 0x0⟩]⟩,
  ⟨0x2C, 4, 1, [⟨24, 16, .rw, 0x0⟩, ⟨15, 0, .rw, 0x0⟩]⟩,
  ⟨0x30, 4, 1, [⟨31, 0, .rw, 0x0⟩]⟩,
  ⟨0x34, 4, 1, [⟨31, 0, .ro, 0x0⟩]⟩,
  ⟨0x38, 4, 1, [⟨15, 0, .ro, 0x0⟩]⟩]

/-! ## PC (spec/13_power_stage_channels.md, R347) -/
namespace R
abbrev PC_CTRL (n : Nat) : Nat := 0x10100000 + 0x100 * n
abbrev PC_CTRL_AXEN (n : Nat) : Fld := ⟨PC_CTRL n, 28, 28⟩
abbrev PC_CTRL_AXIS (n : Nat) : Fld := ⟨PC_CTRL n, 27, 20⟩
abbrev PC_CTRL_DIV (n : Nat) : Fld := ⟨PC_CTRL n, 19, 12⟩
abbrev PC_CTRL_COMPL (n : Nat) : Fld := ⟨PC_CTRL n, 11, 11⟩
abbrev PC_CTRL_SOUT (n : Nat) : Fld := ⟨PC_CTRL n, 10, 10⟩
abbrev PC_CTRL_SYNC (n : Nat) : Fld := ⟨PC_CTRL n, 9, 8⟩
abbrev PC_CTRL_MODE (n : Nat) : Fld := ⟨PC_CTRL n, 6, 4⟩
abbrev PC_CTRL_EN (n : Nat) : Fld := ⟨PC_CTRL n, 0, 0⟩
abbrev PC_STAT (n : Nat) : Nat := 0x10100004 + 0x100 * n
abbrev PC_STAT_ISNS_IN (n : Nat) : Fld := ⟨PC_STAT n, 22, 22⟩
abbrev PC_STAT_GSL_IN (n : Nat) : Fld := ⟨PC_STAT n, 21, 21⟩
abbrev PC_STAT_GSH_IN (n : Nat) : Fld := ⟨PC_STAT n, 20, 20⟩
abbrev PC_STAT_PULSE_PIN (n : Nat) : Fld := ⟨PC_STAT n, 19, 19⟩
abbrev PC_STAT_EN_PIN (n : Nat) : Fld := ⟨PC_STAT n, 18, 18⟩
abbrev PC_STAT_SEQ (n : Nat) : Fld := ⟨PC_STAT n, 17, 16⟩
abbrev PC_STAT_DWELLRUN (n : Nat) : Fld := ⟨PC_STAT n, 14, 14⟩
abbrev PC_STAT_FROZEN (n : Nat) : Fld := ⟨PC_STAT n, 13, 13⟩
abbrev PC_STAT_SAFEOFF (n : Nat) : Fld := ⟨PC_STAT n, 12, 12⟩
abbrev PC_STAT_SYNCLOSS (n : Nat) : Fld := ⟨PC_STAT n, 9, 9⟩
abbrev PC_STAT_ENERR (n : Nat) : Fld := ⟨PC_STAT n, 8, 8⟩
abbrev PC_STAT_CFGERR (n : Nat) : Fld := ⟨PC_STAT n, 7, 7⟩
abbrev PC_STAT_LOCK (n : Nat) : Fld := ⟨PC_STAT n, 6, 6⟩
abbrev PC_STAT_HDWELL (n : Nat) : Fld := ⟨PC_STAT n, 5, 5⟩
abbrev PC_STAT_OC (n : Nat) : Fld := ⟨PC_STAT n, 4, 4⟩
abbrev PC_STAT_GON (n : Nat) : Fld := ⟨PC_STAT n, 3, 3⟩
abbrev PC_STAT_GOFF (n : Nat) : Fld := ⟨PC_STAT n, 2, 2⟩
abbrev PC_STAT_GBOTH (n : Nat) : Fld := ⟨PC_STAT n, 1, 1⟩
abbrev PC_STAT_XON (n : Nat) : Fld := ⟨PC_STAT n, 0, 0⟩
abbrev PC_CMT_W (n : Nat) : Nat := 0x10100008 + 0x100 * n
abbrev PC_CMT_GO (n : Nat) : Fld := ⟨PC_CMT_W n, 0, 0⟩
abbrev PC_CMT_CYC_W (n : Nat) : Nat := 0x1010000C + 0x100 * n
abbrev PC_CMT_CYC (n : Nat) : Fld := ⟨PC_CMT_CYC_W n, 31, 0⟩
abbrev PC_PER_W (n : Nat) : Nat := 0x10100010 + 0x100 * n
abbrev PC_PER (n : Nat) : Fld := ⟨PC_PER_W n, 23, 0⟩
abbrev PC_PHASE_W (n : Nat) : Nat := 0x10100014 + 0x100 * n
abbrev PC_PHASE (n : Nat) : Fld := ⟨PC_PHASE_W n, 21, 0⟩
abbrev PC_CMP_W (n i : Nat) : Nat := 0x10100018 + 0x100 * n + 0x4 * i
abbrev PC_CMP (n i : Nat) : Fld := ⟨PC_CMP_W n i, 23, 0⟩
abbrev PC_TRG (n i : Nat) : Nat := 0x10100028 + 0x100 * n + 0x4 * i
abbrev PC_TRG_EN (n i : Nat) : Fld := ⟨PC_TRG n i, 31, 31⟩
abbrev PC_TRG_OFS (n i : Nat) : Fld := ⟨PC_TRG n i, 23, 0⟩
abbrev PC_DT_W (n : Nat) : Nat := 0x10100030 + 0x100 * n
abbrev PC_DT (n : Nat) : Fld := ⟨PC_DT_W n, 11, 0⟩
abbrev PC_MINP_W (n : Nat) : Nat := 0x10100034 + 0x100 * n
abbrev PC_MINP (n : Nat) : Fld := ⟨PC_MINP_W n, 15, 0⟩
abbrev PC_GATE (n : Nat) : Nat := 0x10100038 + 0x100 * n
abbrev PC_GATE_TGON (n : Nat) : Fld := ⟨PC_GATE n, 31, 24⟩
abbrev PC_GATE_TGOFF (n : Nat) : Fld := ⟨PC_GATE n, 23, 16⟩
abbrev PC_GATE_GSLPOL (n : Nat) : Fld := ⟨PC_GATE n, 13, 13⟩
abbrev PC_GATE_GSHPOL (n : Nat) : Fld := ⟨PC_GATE n, 12, 12⟩
abbrev PC_GATE_GSFILT (n : Nat) : Fld := ⟨PC_GATE n, 3, 0⟩
abbrev PC_OCCFG (n : Nat) : Nat := 0x1010003C + 0x100 * n
abbrev PC_OCCFG_OCPOL (n : Nat) : Fld := ⟨PC_OCCFG n, 8, 8⟩
abbrev PC_OCCFG_OCFILT (n : Nat) : Fld := ⟨PC_OCCFG n, 7, 4⟩
abbrev PC_OCCFG_OCMODE (n : Nat) : Fld := ⟨PC_OCCFG n, 1, 0⟩
abbrev PC_HALT (n : Nat) : Nat := 0x10100040 + 0x100 * n
abbrev PC_HALT_CORE (n : Nat) : Fld := ⟨PC_HALT n, 21, 16⟩
abbrev PC_HALT_DWELL (n : Nat) : Fld := ⟨PC_HALT n, 15, 0⟩
abbrev PC_OVR (n : Nat) : Nat := 0x10100044 + 0x100 * n
abbrev PC_OVR_REQ_L (n : Nat) : Fld := ⟨PC_OVR n, 2, 2⟩
abbrev PC_OVR_REQ_H (n : Nat) : Fld := ⟨PC_OVR n, 1, 1⟩
abbrev PC_OVR_OVEN (n : Nat) : Fld := ⟨PC_OVR n, 0, 0⟩
abbrev PC_VCFG (n : Nat) : Nat := 0x10100048 + 0x100 * n
abbrev PC_VCFG_TDOM (n : Nat) : Fld := ⟨PC_VCFG n, 8, 8⟩
abbrev PC_VCFG_FW (n : Nat) : Fld := ⟨PC_VCFG n, 7, 7⟩
abbrev PC_VCFG_ROLE (n : Nat) : Fld := ⟨PC_VCFG n, 5, 4⟩
abbrev PC_VCFG_HG (n : Nat) : Fld := ⟨PC_VCFG n, 3, 0⟩
abbrev PC_VPEAK_W (n : Nat) : Nat := 0x1010004C + 0x100 * n
abbrev PC_VPEAK (n : Nat) : Fld := ⟨PC_VPEAK_W n, 31, 0⟩
abbrev PC_VHOLD_W (n : Nat) : Nat := 0x10100050 + 0x100 * n
abbrev PC_VHOLD (n : Nat) : Fld := ⟨PC_VHOLD_W n, 15, 0⟩
abbrev PC_VIMAX (n : Nat) : Nat := 0x10100054 + 0x100 * n
abbrev PC_VIMAX_IHOLD (n : Nat) : Fld := ⟨PC_VIMAX n, 31, 16⟩
abbrev PC_VIMAX_IPEAK (n : Nat) : Fld := ⟨PC_VIMAX n, 15, 0⟩
abbrev PC_SHOT_T_W (n : Nat) : Nat := 0x10100058 + 0x100 * n
abbrev PC_SHOT_T_T_ON (n : Nat) : Fld := ⟨PC_SHOT_T_W n, 31, 0⟩
abbrev PC_SHOT_D_W (n : Nat) : Nat := 0x1010005C + 0x100 * n
abbrev PC_SHOT_D_D (n : Nat) : Fld := ⟨PC_SHOT_D_W n, 29, 0⟩
abbrev PC_SHOT_CTL (n : Nat) : Nat := 0x10100060 + 0x100 * n
abbrev PC_SHOT_CTL_ABORT (n : Nat) : Fld := ⟨PC_SHOT_CTL n, 1, 1⟩
abbrev PC_SHOT_CTL_FLUSH (n : Nat) : Fld := ⟨PC_SHOT_CTL n, 0, 0⟩
abbrev PC_SHOT_STAT (n : Nat) : Nat := 0x10100064 + 0x100 * n
abbrev PC_SHOT_STAT_GNRDY (n : Nat) : Fld := ⟨PC_SHOT_STAT n, 12, 12⟩
abbrev PC_SHOT_STAT_BUDGET (n : Nat) : Fld := ⟨PC_SHOT_STAT n, 11, 11⟩
abbrev PC_SHOT_STAT_REJ (n : Nat) : Fld := ⟨PC_SHOT_STAT n, 10, 10⟩
abbrev PC_SHOT_STAT_DEF (n : Nat) : Fld := ⟨PC_SHOT_STAT n, 9, 9⟩
abbrev PC_SHOT_STAT_OVF (n : Nat) : Fld := ⟨PC_SHOT_STAT n, 8, 8⟩
abbrev PC_SHOT_STAT_WAITDEF (n : Nat) : Fld := ⟨PC_SHOT_STAT n, 5, 5⟩
abbrev PC_SHOT_STAT_ACTIVE (n : Nat) : Fld := ⟨PC_SHOT_STAT n, 4, 4⟩
abbrev PC_SHOT_STAT_DEPTH (n : Nat) : Fld := ⟨PC_SHOT_STAT n, 3, 0⟩
abbrev PC_SHOT_CNT_W (n : Nat) : Nat := 0x10100068 + 0x100 * n
abbrev PC_SHOT_CNT (n : Nat) : Fld := ⟨PC_SHOT_CNT_W n, 31, 0⟩
abbrev PC_LATE_CNT_W (n : Nat) : Nat := 0x1010006C + 0x100 * n
abbrev PC_LATE_CNT (n : Nat) : Fld := ⟨PC_LATE_CNT_W n, 31, 0⟩
abbrev PC_MPF_CNT_W (n : Nat) : Nat := 0x10100070 + 0x100 * n
abbrev PC_MPF_CNT (n : Nat) : Fld := ⟨PC_MPF_CNT_W n, 31, 0⟩
abbrev PC_OC_CNT_W (n : Nat) : Nat := 0x10100074 + 0x100 * n
abbrev PC_OC_CNT (n : Nat) : Fld := ⟨PC_OC_CNT_W n, 31, 0⟩
abbrev PC_CNTCLR_W (n : Nat) : Nat := 0x10100078 + 0x100 * n
abbrev PC_CNTCLR_CLR (n : Nat) : Fld := ⟨PC_CNTCLR_W n, 0, 0⟩
abbrev PC_STP_CTRL (n : Nat) : Nat := 0x10100080 + 0x100 * n
abbrev PC_STP_CTRL_ENC (n : Nat) : Fld := ⟨PC_STP_CTRL n, 28, 24⟩
abbrev PC_STP_CTRL_SIN (n : Nat) : Fld := ⟨PC_STP_CTRL n, 20, 16⟩
abbrev PC_STP_CTRL_DIRPOL (n : Nat) : Fld := ⟨PC_STP_CTRL n, 9, 9⟩
abbrev PC_STP_CTRL_LIMHW (n : Nat) : Fld := ⟨PC_STP_CTRL n, 8, 8⟩
abbrev PC_STP_CTRL_MRES (n : Nat) : Fld := ⟨PC_STP_CTRL n, 7, 4⟩
abbrev PC_STP_CTRL_GANG (n : Nat) : Fld := ⟨PC_STP_CTRL n, 1, 0⟩
abbrev PC_STP_DMAX_W (n : Nat) : Nat := 0x10100084 + 0x100 * n
abbrev PC_STP_DMAX (n : Nat) : Fld := ⟨PC_STP_DMAX_W n, 15, 0⟩
abbrev PC_STP_I (n : Nat) : Nat := 0x10100088 + 0x100 * n
abbrev PC_STP_I_IHOLD (n : Nat) : Fld := ⟨PC_STP_I n, 31, 16⟩
abbrev PC_STP_I_IRUN (n : Nat) : Fld := ⟨PC_STP_I n, 15, 0⟩
abbrev PC_STP_THOLD_W (n : Nat) : Nat := 0x1010008C + 0x100 * n
abbrev PC_STP_THOLD (n : Nat) : Fld := ⟨PC_STP_THOLD_W n, 15, 0⟩
abbrev PC_STP_SMUL_W (n : Nat) : Nat := 0x10100090 + 0x100 * n
abbrev PC_STP_SMUL (n : Nat) : Fld := ⟨PC_STP_SMUL_W n, 12, 0⟩
abbrev PC_STP_TMAX_W (n : Nat) : Nat := 0x10100094 + 0x100 * n
abbrev PC_STP_TMAX (n : Nat) : Fld := ⟨PC_STP_TMAX_W n, 31, 0⟩
abbrev PC_STP_LSPH_W (n : Nat) : Nat := 0x10100098 + 0x100 * n
abbrev PC_STP_LSPH (n : Nat) : Fld := ⟨PC_STP_LSPH_W n, 21, 0⟩
abbrev PC_STP_LAPH_W (n : Nat) : Nat := 0x1010009C + 0x100 * n
abbrev PC_STP_LAPH (n : Nat) : Fld := ⟨PC_STP_LAPH_W n, 21, 0⟩
abbrev PC_STP_IFS_W (n : Nat) : Nat := 0x101000A0 + 0x100 * n
abbrev PC_STP_IFS (n : Nat) : Fld := ⟨PC_STP_IFS_W n, 31, 0⟩
abbrev PC_STP_VBUS_W (n : Nat) : Nat := 0x101000A4 + 0x100 * n
abbrev PC_STP_VBUS (n : Nat) : Fld := ⟨PC_STP_VBUS_W n, 15, 0⟩
abbrev PC_STP_M_W (n : Nat) : Nat := 0x101000A8 + 0x100 * n
abbrev PC_STP_M (n : Nat) : Fld := ⟨PC_STP_M_W n, 31, 0⟩
abbrev PC_STP_RATE_W (n : Nat) : Nat := 0x101000AC + 0x100 * n
abbrev PC_STP_RATE (n : Nat) : Fld := ⟨PC_STP_RATE_W n, 31, 0⟩
abbrev PC_STP_STAT (n : Nat) : Nat := 0x101000B0 + 0x100 * n
abbrev PC_STP_STAT_ENCERR (n : Nat) : Fld := ⟨PC_STP_STAT n, 4, 4⟩
abbrev PC_STP_STAT_SINOVR (n : Nat) : Fld := ⟨PC_STP_STAT n, 3, 3⟩
abbrev PC_STP_STAT_DSAT (n : Nat) : Fld := ⟨PC_STP_STAT n, 2, 2⟩
abbrev PC_STP_STAT_LIMSTOP (n : Nat) : Fld := ⟨PC_STP_STAT n, 1, 1⟩
abbrev PC_STP_STAT_HOLDACT (n : Nat) : Fld := ⟨PC_STP_STAT n, 0, 0⟩
abbrev PC_CHP_CTRL (n : Nat) : Nat := 0x101000C0 + 0x100 * n
abbrev PC_CHP_CTRL_AIN (n : Nat) : Fld := ⟨PC_CHP_CTRL n, 22, 16⟩
abbrev PC_CHP_CTRL_ADC (n : Nat) : Fld := ⟨PC_CHP_CTRL n, 11, 8⟩
abbrev PC_CHP_CTRL_ADAPT (n : Nat) : Fld := ⟨PC_CHP_CTRL n, 5, 5⟩
abbrev PC_CHP_CTRL_EN (n : Nat) : Fld := ⟨PC_CHP_CTRL n, 4, 4⟩
abbrev PC_CHP_CTRL_DECAY (n : Nat) : Fld := ⟨PC_CHP_CTRL n, 1, 0⟩
abbrev PC_CHP_HYS (n : Nat) : Nat := 0x101000C4 + 0x100 * n
abbrev PC_CHP_HYS_HYS (n : Nat) : Fld := ⟨PC_CHP_HYS n, 31, 16⟩
abbrev PC_CHP_HYS_AZERO (n : Nat) : Fld := ⟨PC_CHP_HYS n, 15, 0⟩
abbrev PC_CHP_T (n : Nat) : Nat := 0x101000C8 + 0x100 * n
abbrev PC_CHP_T_FDT (n : Nat) : Fld := ⟨PC_CHP_T n, 31, 16⟩
abbrev PC_CHP_T_TOFFMIN (n : Nat) : Fld := ⟨PC_CHP_T n, 15, 8⟩
abbrev PC_CHP_T_TBLANK (n : Nat) : Fld := ⟨PC_CHP_T n, 7, 0⟩
abbrev PC_CHP_OFS (n : Nat) : Nat := 0x101000CC + 0x100 * n
abbrev PC_CHP_OFS_OFSMAX (n : Nat) : Fld := ⟨PC_CHP_OFS n, 31, 16⟩
abbrev PC_CHP_OFS_KOFS (n : Nat) : Fld := ⟨PC_CHP_OFS n, 3, 0⟩
abbrev PC_CHP_MEAN (n : Nat) : Nat := 0x101000D0 + 0x100 * n
abbrev PC_CHP_MEAN_MEAN (n : Nat) : Fld := ⟨PC_CHP_MEAN n, 31, 16⟩
abbrev PC_CHP_MEAN_OFS (n : Nat) : Fld := ⟨PC_CHP_MEAN n, 15, 0⟩
abbrev PC_CHP_CNT_W (n : Nat) : Nat := 0x101000D4 + 0x100 * n
abbrev PC_CHP_CNT (n : Nat) : Fld := ⟨PC_CHP_CNT_W n, 31, 0⟩
abbrev PC_CHP_STATE_W (n : Nat) : Nat := 0x101000D8 + 0x100 * n
abbrev PC_CHP_STATE (n : Nat) : Fld := ⟨PC_CHP_STATE_W n, 1, 0⟩
end R

def mapPC0c : List RSpec := [
  ⟨0x0, 4, 1, [⟨28, 28, .rws, 0x0⟩, ⟨27, 20, .rws, 0x0⟩, ⟨19, 12, .rws, 0x1⟩, ⟨11, 11, .rws, 0x0⟩, ⟨10, 10, .rws, 0x0⟩, ⟨9, 8, .rws, 0x0⟩, ⟨6, 4, .rws, 0x0⟩, ⟨0, 0, .rw, 0x0⟩]⟩,
  ⟨0x4, 4, 1, [⟨22, 22, .ro, 0x0⟩, ⟨21, 21, .ro, 0x0⟩, ⟨20, 20, .ro, 0x0⟩, ⟨19, 19, .ro, 0x0⟩, ⟨18, 18, .ro, 0x0⟩, ⟨17, 16, .ro, 0x0⟩, ⟨14, 14, .ro, 0x0⟩, ⟨13, 13, .ro, 0x0⟩, ⟨12, 12, .ro, 0x0⟩, ⟨9, 9, .rsk, 0x0⟩, ⟨8, 8, .rsk, 0x0⟩, ⟨7, 7, .rsk, 0x0⟩, ⟨6, 6, .w1c, 0x0⟩, ⟨5, 5, .w1c, 0x0⟩, ⟨4, 4, .w1c, 0x0⟩, ⟨3, 3, .w1c, 0x0⟩, ⟨2, 2, .w1c, 0x0⟩, ⟨1, 1, .w1c, 0x0⟩, ⟨0, 0, .w1c, 0x0⟩]⟩,
  ⟨0x8, 4, 1, [⟨0, 0, .w1s, 0x0⟩]⟩,
  ⟨0xC, 4, 1, [⟨31, 0, .ro, 0x0⟩]⟩,
  ⟨0x10, 4, 1, [⟨23, 0, .rws, 0x4E200⟩]⟩,
  ⟨0x14, 4, 1, [⟨21, 0, .rws, 0x0⟩]⟩,
  ⟨0x18, 4, 4, [⟨23, 0, .rws, 0x0⟩]⟩,
  ⟨0x28, 4, 2, [⟨31, 31, .rws, 0x0⟩, ⟨23, 0, .rws, 0x0⟩]⟩,
  ⟨0x30, 4, 1, [⟨11, 0, .rws, 0x80⟩]⟩,
  ⟨0x34, 4, 1, [⟨15, 0, .rws, 0x280⟩]⟩,
  ⟨0x38, 4, 1, [⟨31, 24, .rws, 0x32⟩, ⟨23, 16, .rws, 0x32⟩, ⟨13, 13, .rws, 0x0⟩, ⟨12, 12, .rws, 0x0⟩, ⟨3, 0, .rws, 0x2⟩]⟩,
  ⟨0x3C, 4, 1, [⟨8, 8, .rws, 0x0⟩, ⟨7, 4, .rws, 0x0⟩, ⟨1, 0, .rws, 0x2⟩]⟩,
  ⟨0x40, 4, 1, [⟨21, 16, .rw, 0x3F⟩, ⟨15, 0, .rw, 0x3E8⟩]⟩,
  ⟨0x44, 4, 1, [⟨2, 2, .rw, 0x0⟩, ⟨1, 1, .rw, 0x0⟩, ⟨0, 0, .rw, 0x0⟩]⟩,
  ⟨0x48, 4, 1, [⟨8, 8, .rws, 0x0⟩, ⟨7, 7, .rws, 0x0⟩, ⟨5, 4, .rws, 0x0⟩, ⟨3, 0, .rws, 0x0⟩]⟩,
  ⟨0x4C, 4, 1, [⟨31, 0, .rws, 0x0⟩]⟩,
  ⟨0x50, 4, 1, [⟨15, 0, .rws, 0x0⟩]⟩,
  ⟨0x54, 4, 1, [⟨31, 16, .rws, 0x0⟩, ⟨15, 0, .rws, 0x0⟩]⟩,
  ⟨0x58, 4, 1, [⟨31, 0, .wo, 0x0⟩]⟩,
  ⟨0x5C, 4, 1, [⟨29, 0, .wo, 0x0⟩]⟩,
  ⟨0x60, 4, 1, [⟨1, 1, .wo, 0x0⟩, ⟨0, 0, .wo, 0x0⟩]⟩,
  ⟨0x64, 4, 1, [⟨12, 12, .rsk, 0x0⟩, ⟨11, 11, .rsk, 0x0⟩, ⟨10, 10, .rsk, 0x0⟩, ⟨9, 9, .rsk, 0x0⟩, ⟨8, 8, .rsk, 0x0⟩, ⟨5, 5, .ro, 0x0⟩, ⟨4, 4, .ro, 0x0⟩, ⟨3, 0, .ro, 0x0⟩]⟩,
  ⟨0x68, 4, 1, [⟨31, 0, .ro, 0x0⟩]⟩,
  ⟨0x6C, 4, 1, [⟨31, 0, .ro, 0x0⟩]⟩]
def mapPC1c : List RSpec := [
  ⟨0x70, 4, 1, [⟨31, 0, .ro, 0x0⟩]⟩,
  ⟨0x74, 4, 1, [⟨31, 0, .ro, 0x0⟩]⟩,
  ⟨0x78, 4, 1, [⟨0, 0, .w1s, 0x0⟩]⟩,
  ⟨0x80, 4, 1, [⟨28, 24, .rws, 0x1F⟩, ⟨20, 16, .rws, 0x1F⟩, ⟨9, 9, .rws, 0x0⟩, ⟨8, 8, .rws, 0x0⟩, ⟨7, 4, .rws, 0x8⟩, ⟨1, 0, .rws, 0x0⟩]⟩,
  ⟨0x84, 4, 1, [⟨15, 0, .rws, 0x400⟩]⟩,
  ⟨0x88, 4, 1, [⟨31, 16, .rws, 0x0⟩, ⟨15, 0, .rws, 0x0⟩]⟩,
  ⟨0x8C, 4, 1, [⟨15, 0, .rws, 0x64⟩]⟩,
  ⟨0x90, 4, 1, [⟨12, 0, .rws, 0x1⟩]⟩,
  ⟨0x94, 4, 1, [⟨31, 0, .rws, 0x989680⟩]⟩,
  ⟨0x98, 4, 1, [⟨21, 0, .rws, 0x0⟩]⟩,
  ⟨0x9C, 4, 1, [⟨21, 0, .rws, 0x0⟩]⟩,
  ⟨0xA0, 4, 1, [⟨31, 0, .rws, 0x0⟩]⟩,
  ⟨0xA4, 4, 1, [⟨15, 0, .rw, 0x0⟩]⟩,
  ⟨0xA8, 4, 1, [⟨31, 0, .ro, 0x0⟩]⟩,
  ⟨0xAC, 4, 1, [⟨31, 0, .ro, 0x0⟩]⟩,
  ⟨0xB0, 4, 1, [⟨4, 4, .w1c, 0x0⟩, ⟨3, 3, .rsk, 0x0⟩, ⟨2, 2, .rsk, 0x0⟩, ⟨1, 1, .ro, 0x0⟩, ⟨0, 0, .ro, 0x0⟩]⟩,
  ⟨0xC0, 4, 1, [⟨22, 16, .rws, 0x0⟩, ⟨11, 8, .rws, 0x0⟩, ⟨5, 5, .rws, 0x0⟩, ⟨4, 4, .rws, 0x0⟩, ⟨1, 0, .rws, 0x0⟩]⟩,
  ⟨0xC4, 4, 1, [⟨31, 16, .rws, 0x40⟩, ⟨15, 0, .rws, 0x8000⟩]⟩,
  ⟨0xC8, 4, 1, [⟨31, 16, .rws, 0x1F4⟩, ⟨15, 8, .rws, 0x28⟩, ⟨7, 0, .rws, 0xA0⟩]⟩,
  ⟨0xCC, 4, 1, [⟨31, 16, .rws, 0x100⟩, ⟨3, 0, .rws, 0x4⟩]⟩,
  ⟨0xD0, 4, 1, [⟨31, 16, .ro, 0x0⟩, ⟨15, 0, .ro, 0x0⟩]⟩,
  ⟨0xD4, 4, 1, [⟨31, 0, .ro, 0x0⟩]⟩,
  ⟨0xD8, 4, 1, [⟨1, 0, .ro, 0x0⟩]⟩]

/-! ## HG (spec/13_power_stage_channels.md, R348) -/
namespace R
abbrev HG_CTRL (n : Nat) : Nat := 0x10110000 + 0x40 * n
abbrev HG_CTRL_HSCH (n : Nat) : Fld := ⟨HG_CTRL n, 11, 8⟩
abbrev HG_CTRL_BUDFB (n : Nat) : Fld := ⟨HG_CTRL n, 6, 6⟩
abbrev HG_CTRL_POLICY (n : Nat) : Fld := ⟨HG_CTRL n, 5, 4⟩
abbrev HG_CTRL_CPEN (n : Nat) : Fld := ⟨HG_CTRL n, 1, 1⟩
abbrev HG_CTRL_EN (n : Nat) : Fld := ⟨HG_CTRL n, 0, 0⟩
abbrev HG_STAT (n : Nat) : Nat := 0x10110004 + 0x40 * n
abbrev HG_STAT_GNRDY (n : Nat) : Fld := ⟨HG_STAT n, 12, 12⟩
abbrev HG_STAT_BUDGET (n : Nat) : Fld := ⟨HG_STAT n, 11, 11⟩
abbrev HG_STAT_REJECT (n : Nat) : Fld := ⟨HG_STAT n, 10, 10⟩
abbrev HG_STAT_DEFER (n : Nat) : Fld := ⟨HG_STAT n, 9, 9⟩
abbrev HG_STAT_NACT (n : Nat) : Fld := ⟨HG_STAT n, 8, 4⟩
abbrev HG_STAT_CFGERR (n : Nat) : Fld := ⟨HG_STAT n, 3, 3⟩
abbrev HG_STAT_HSON (n : Nat) : Fld := ⟨HG_STAT n, 2, 2⟩
abbrev HG_STAT_CPOK (n : Nat) : Fld := ⟨HG_STAT n, 1, 1⟩
abbrev HG_STAT_CPF (n : Nat) : Fld := ⟨HG_STAT n, 0, 0⟩
abbrev HG_IBUDGET_W (n : Nat) : Nat := 0x10110008 + 0x40 * n
abbrev HG_IBUDGET (n : Nat) : Fld := ⟨HG_IBUDGET_W n, 23, 0⟩
abbrev HG_CPCFG (n : Nat) : Nat := 0x1011000C + 0x40 * n
abbrev HG_CPCFG_CPFILT (n : Nat) : Fld := ⟨HG_CPCFG n, 15, 8⟩
abbrev HG_CPCFG_CPDIV (n : Nat) : Fld := ⟨HG_CPCFG n, 7, 0⟩
abbrev HG_CMT_W (n : Nat) : Nat := 0x10110010 + 0x40 * n
abbrev HG_CMT_GO (n : Nat) : Fld := ⟨HG_CMT_W n, 0, 0⟩
abbrev HG_CMT_CYC_W (n : Nat) : Nat := 0x10110014 + 0x40 * n
abbrev HG_CMT_CYC (n : Nat) : Fld := ⟨HG_CMT_CYC_W n, 31, 0⟩
abbrev HG_DEFER_CNT_W (n : Nat) : Nat := 0x10110018 + 0x40 * n
abbrev HG_DEFER_CNT (n : Nat) : Fld := ⟨HG_DEFER_CNT_W n, 31, 0⟩
abbrev HG_REJECT_CNT_W (n : Nat) : Nat := 0x1011001C + 0x40 * n
abbrev HG_REJECT_CNT (n : Nat) : Fld := ⟨HG_REJECT_CNT_W n, 31, 0⟩
abbrev HG_BUDGET_CNT_W (n : Nat) : Nat := 0x10110020 + 0x40 * n
abbrev HG_BUDGET_CNT (n : Nat) : Fld := ⟨HG_BUDGET_CNT_W n, 31, 0⟩
abbrev HG_GNRDY_CNT_W (n : Nat) : Nat := 0x10110024 + 0x40 * n
abbrev HG_GNRDY_CNT (n : Nat) : Fld := ⟨HG_GNRDY_CNT_W n, 31, 0⟩
abbrev HG_CPF_CNT_W (n : Nat) : Nat := 0x10110028 + 0x40 * n
abbrev HG_CPF_CNT (n : Nat) : Fld := ⟨HG_CPF_CNT_W n, 31, 0⟩
abbrev HG_CNTCLR_W (n : Nat) : Nat := 0x1011002C + 0x40 * n
abbrev HG_CNTCLR_CLR (n : Nat) : Fld := ⟨HG_CNTCLR_W n, 0, 0⟩
end R

def mapHG : List RSpec := [
  ⟨0x0, 4, 1, [⟨11, 8, .rws, 0x0⟩, ⟨6, 6, .rws, 0x0⟩, ⟨5, 4, .rws, 0x2⟩, ⟨1, 1, .rw, 0x0⟩, ⟨0, 0, .rw, 0x0⟩]⟩,
  ⟨0x4, 4, 1, [⟨12, 12, .rsk, 0x0⟩, ⟨11, 11, .rsk, 0x0⟩, ⟨10, 10, .rsk, 0x0⟩, ⟨9, 9, .rsk, 0x0⟩, ⟨8, 4, .ro, 0x0⟩, ⟨3, 3, .rsk, 0x0⟩, ⟨2, 2, .ro, 0x0⟩, ⟨1, 1, .ro, 0x0⟩, ⟨0, 0, .w1c, 0x0⟩]⟩,
  ⟨0x8, 4, 1, [⟨23, 0, .rws, 0x0⟩]⟩,
  ⟨0xC, 4, 1, [⟨15, 8, .rws, 0xA⟩, ⟨7, 0, .rws, 0x31⟩]⟩,
  ⟨0x10, 4, 1, [⟨0, 0, .w1s, 0x0⟩]⟩,
  ⟨0x14, 4, 1, [⟨31, 0, .ro, 0x0⟩]⟩,
  ⟨0x18, 4, 1, [⟨31, 0, .ro, 0x0⟩]⟩,
  ⟨0x1C, 4, 1, [⟨31, 0, .ro, 0x0⟩]⟩,
  ⟨0x20, 4, 1, [⟨31, 0, .ro, 0x0⟩]⟩,
  ⟨0x24, 4, 1, [⟨31, 0, .ro, 0x0⟩]⟩,
  ⟨0x28, 4, 1, [⟨31, 0, .ro, 0x0⟩]⟩,
  ⟨0x2C, 4, 1, [⟨0, 0, .w1s, 0x0⟩]⟩]

/-! ## BEL (spec/15_belay_safety.md, R389) -/
namespace R
abbrev BEL_CTRL_W : Nat := 0x10340000
abbrev BEL_CTRL_RESTART : Fld := ⟨BEL_CTRL_W, 0, 0⟩
abbrev BEL_STAT : Nat := 0x10340004
abbrev BEL_STAT_SEAL_CNT : Fld := ⟨BEL_STAT, 31, 16⟩
abbrev BEL_STAT_RSTERR : Fld := ⟨BEL_STAT, 10, 10⟩
abbrev BEL_STAT_SEALCODE : Fld := ⟨BEL_STAT, 9, 6⟩
abbrev BEL_STAT_SEAL : Fld := ⟨BEL_STAT, 5, 5⟩
abbrev BEL_STAT_CFGDEG : Fld := ⟨BEL_STAT, 4, 4⟩
abbrev BEL_STAT_CFGVALID : Fld := ⟨BEL_STAT, 3, 3⟩
abbrev BEL_STAT_STATE : Fld := ⟨BEL_STAT, 2, 0⟩
abbrev BEL_DIAG : Nat := 0x10340008
abbrev BEL_DIAG_STOCONF : Fld := ⟨BEL_DIAG, 10, 10⟩
abbrev BEL_DIAG_CFGINV : Fld := ⟨BEL_DIAG, 9, 9⟩
abbrev BEL_DIAG_BIST : Fld := ⟨BEL_DIAG, 8, 8⟩
abbrev BEL_DIAG_CFGCRC : Fld := ⟨BEL_DIAG, 7, 7⟩
abbrev BEL_DIAG_LOCK : Fld := ⟨BEL_DIAG, 6, 6⟩
abbrev BEL_DIAG_OSCB : Fld := ⟨BEL_DIAG, 5, 5⟩
abbrev BEL_DIAG_OSCT : Fld := ⟨BEL_DIAG, 4, 4⟩
abbrev BEL_DIAG_SOTP : Fld := ⟨BEL_DIAG, 3, 3⟩
abbrev BEL_DIAG_SOFB : Fld := ⟨BEL_DIAG, 2, 2⟩
abbrev BEL_DIAG_XSHORT : Fld := ⟨BEL_DIAG, 1, 1⟩
abbrev BEL_DIAG_GTPF : Fld := ⟨BEL_DIAG, 0, 0⟩
abbrev BEL_SO : Nat := 0x1034000C
abbrev BEL_SO_GBOTHREQ : Fld := ⟨BEL_SO, 11, 8⟩
abbrev BEL_SO_READBACK : Fld := ⟨BEL_SO, 7, 4⟩
abbrev BEL_SO_ASSERTED : Fld := ⟨BEL_SO, 3, 0⟩
abbrev BEL_SORST_W : Nat := 0x10340010
abbrev BEL_SORST_REL : Fld := ⟨BEL_SORST_W, 3, 0⟩
abbrev BEL_GIN : Nat := 0x10340014
abbrev BEL_GIN_FAIL : Fld := ⟨BEL_GIN, 23, 16⟩
abbrev BEL_GIN_DEMAND : Fld := ⟨BEL_GIN, 15, 8⟩
abbrev BEL_GIN_LEVEL : Fld := ⟨BEL_GIN, 7, 0⟩
abbrev BEL_ZREQ_W : Nat := 0x10340018
abbrev BEL_ZREQ_REQ : Fld := ⟨BEL_ZREQ_W, 31, 0⟩
abbrev BEL_ZRST_W : Nat := 0x1034001C
abbrev BEL_ZRST_RST : Fld := ⟨BEL_ZRST_W, 31, 0⟩
abbrev BEL_ZSTATE_W (i : Nat) : Nat := 0x10340020 + 0x4 * i
abbrev BEL_ZSTATE (i : Nat) : Fld := ⟨BEL_ZSTATE_W i, 31, 0⟩
abbrev BEL_CFGW_LO_W : Nat := 0x10340030
abbrev BEL_CFGW_LO_ADDR : Fld := ⟨BEL_CFGW_LO_W, 31, 2⟩
abbrev BEL_CFGW_HI_W : Nat := 0x10340034
abbrev BEL_CFGW_HI_ADDR : Fld := ⟨BEL_CFGW_HI_W, 19, 0⟩
abbrev BEL_CFGW_CTL : Nat := 0x10340038
abbrev BEL_CFGW_CTL_RESULT : Fld := ⟨BEL_CFGW_CTL, 6, 4⟩
abbrev BEL_CFGW_CTL_GO : Fld := ⟨BEL_CFGW_CTL, 0, 0⟩
abbrev BEL_CFG_CRC_W : Nat := 0x1034003C
abbrev BEL_CFG_CRC_CRC : Fld := ⟨BEL_CFG_CRC_W, 31, 0⟩
abbrev BEL_CNT_CRC_W : Nat := 0x10340040
abbrev BEL_CNT_CRC : Fld := ⟨BEL_CNT_CRC_W, 31, 0⟩
abbrev BEL_CNT_SEQ_W : Nat := 0x10340044
abbrev BEL_CNT_SEQ : Fld := ⟨BEL_CNT_SEQ_W, 31, 0⟩
abbrev BEL_CNT_WD_W : Nat := 0x10340048
abbrev BEL_CNT_WD : Fld := ⟨BEL_CNT_WD_W, 31, 0⟩
abbrev BEL_LENCNT_W (i : Nat) : Nat := 0x10340050 + 0x4 * i
abbrev BEL_LENCNT_EDGES (i : Nat) : Fld := ⟨BEL_LENCNT_W i, 31, 0⟩
abbrev BEL_AXSTO_W (i : Nat) : Nat := 0x10340060 + 0x4 * i
abbrev BEL_AXSTO_STO (i : Nat) : Fld := ⟨BEL_AXSTO_W i, 31, 0⟩
abbrev BEL_CONNF_W (i : Nat) : Nat := 0x10340080 + 0x4 * i
abbrev BEL_CONNF_CONNF (i : Nat) : Fld := ⟨BEL_CONNF_W i, 31, 0⟩
end R

def mapBEL : List RSpec := [
  ⟨0x0, 4, 1, [⟨0, 0, .w1s, 0x0⟩]⟩,
  ⟨0x4, 4, 1, [⟨31, 16, .ro, 0x0⟩, ⟨10, 10, .rsk, 0x0⟩, ⟨9, 6, .ro, 0x0⟩, ⟨5, 5, .ro, 0x0⟩, ⟨4, 4, .ro, 0x0⟩, ⟨3, 3, .ro, 0x0⟩, ⟨2, 0, .ro, 0x1⟩]⟩,
  ⟨0x8, 4, 1, [⟨10, 10, .ro, 0x0⟩, ⟨9, 9, .ro, 0x0⟩, ⟨8, 8, .ro, 0x0⟩, ⟨7, 7, .ro, 0x0⟩, ⟨6, 6, .ro, 0x0⟩, ⟨5, 5, .ro, 0x0⟩, ⟨4, 4, .ro, 0x0⟩, ⟨3, 3, .ro, 0x0⟩, ⟨2, 2, .ro, 0x0⟩, ⟨1, 1, .ro, 0x0⟩, ⟨0, 0, .ro, 0x0⟩]⟩,
  ⟨0xC, 4, 1, [⟨11, 8, .ro, 0x0⟩, ⟨7, 4, .ro, 0x0⟩, ⟨3, 0, .ro, 0xF⟩]⟩,
  ⟨0x10, 4, 1, [⟨3, 0, .w1s, 0x0⟩]⟩,
  ⟨0x14, 4, 1, [⟨23, 16, .ro, 0x0⟩, ⟨15, 8, .ro, 0x0⟩, ⟨7, 0, .ro, 0x0⟩]⟩,
  ⟨0x18, 4, 1, [⟨31, 0, .rw, 0x0⟩]⟩,
  ⟨0x1C, 4, 1, [⟨31, 0, .w1s, 0x0⟩]⟩,
  ⟨0x20, 4, 4, [⟨31, 0, .ro, 0x33333333⟩]⟩,
  ⟨0x30, 4, 1, [⟨31, 2, .rw, 0x0⟩]⟩,
  ⟨0x34, 4, 1, [⟨19, 0, .rw, 0x0⟩]⟩,
  ⟨0x38, 4, 1, [⟨6, 4, .ro, 0x0⟩, ⟨0, 0, .w1s, 0x0⟩]⟩,
  ⟨0x3C, 4, 1, [⟨31, 0, .ro, 0x0⟩]⟩,
  ⟨0x40, 4, 1, [⟨31, 0, .ro, 0x0⟩]⟩,
  ⟨0x44, 4, 1, [⟨31, 0, .ro, 0x0⟩]⟩,
  ⟨0x48, 4, 1, [⟨31, 0, .ro, 0x0⟩]⟩,
  ⟨0x50, 4, 4, [⟨31, 0, .ro, 0x0⟩]⟩,
  ⟨0x60, 4, 8, [⟨31, 0, .ro, 0xFFFFFFFF⟩]⟩,
  ⟨0x80, 4, 8, [⟨31, 0, .w1c, 0x0⟩]⟩]

/-! ## DX (spec/16_duplex_failover.md, R414) -/
namespace R
abbrev DX_CTRL : Nat := 0x10350000
abbrev DX_CTRL_RINGMASK : Fld := ⟨DX_CTRL, 15, 12⟩
abbrev DX_CTRL_ACTSRC : Fld := ⟨DX_CTRL, 9, 8⟩
abbrev DX_CTRL_TBCLR : Fld := ⟨DX_CTRL, 6, 6⟩
abbrev DX_CTRL_REJOIN : Fld := ⟨DX_CTRL, 5, 5⟩
abbrev DX_CTRL_FENCE : Fld := ⟨DX_CTRL, 4, 4⟩
abbrev DX_CTRL_SWITCH : Fld := ⟨DX_CTRL, 3, 3⟩
abbrev DX_CTRL_RESTORE : Fld := ⟨DX_CTRL, 2, 2⟩
abbrev DX_CTRL_TBAUTO : Fld := ⟨DX_CTRL, 1, 1⟩
abbrev DX_CTRL_EN : Fld := ⟨DX_CTRL, 0, 0⟩
abbrev DX_STAT : Nat := 0x10350004
abbrev DX_STAT_HOTLOST : Fld := ⟨DX_STAT, 15, 15⟩
abbrev DX_STAT_RESTERR : Fld := ⟨DX_STAT, 14, 14⟩
abbrev DX_STAT_SPLICERR : Fld := ⟨DX_STAT, 13, 13⟩
abbrev DX_STAT_MIRERR : Fld := ⟨DX_STAT, 12, 12⟩
abbrev DX_STAT_LANE1_UP : Fld := ⟨DX_STAT, 11, 11⟩
abbrev DX_STAT_LANE0_UP : Fld := ⟨DX_STAT, 10, 10⟩
abbrev DX_STAT_ROLE : Fld := ⟨DX_STAT, 9, 9⟩
abbrev DX_STAT_ACTIVE : Fld := ⟨DX_STAT, 8, 8⟩
abbrev DX_STAT_LOCKOUT : Fld := ⟨DX_STAT, 7, 7⟩
abbrev DX_STAT_HOT : Fld := ⟨DX_STAT, 6, 6⟩
abbrev DX_STAT_PEER_LINK_DOWN : Fld := ⟨DX_STAT, 5, 5⟩
abbrev DX_STAT_PARTNER : Fld := ⟨DX_STAT, 4, 4⟩
abbrev DX_STAT_STATE : Fld := ⟨DX_STAT, 3, 0⟩
abbrev DX_LIVE : Nat := 0x10350008
abbrev DX_LIVE_WIN : Fld := ⟨DX_LIVE, 31, 16⟩
abbrev DX_LIVE_KICK : Fld := ⟨DX_LIVE, 0, 0⟩
abbrev DX_AXMASK_W (i : Nat) : Nat := 0x10350020 + 0x4 * i
abbrev DX_AXMASK (i : Nat) : Fld := ⟨DX_AXMASK_W i, 31, 0⟩
abbrev DX_TB_HOLD_W : Nat := 0x10350040
abbrev DX_TB_HOLD_MS : Fld := ⟨DX_TB_HOLD_W, 15, 0⟩
abbrev DX_TB_LEFT_W : Nat := 0x10350044
abbrev DX_TB_LEFT_MS : Fld := ⟨DX_TB_LEFT_W, 15, 0⟩
abbrev DX_INS : Nat := 0x10350048
abbrev DX_INS_WIN3 : Fld := ⟨DX_INS, 23, 16⟩
abbrev DX_INS_COUNT : Fld := ⟨DX_INS, 15, 0⟩
abbrev DX_PXADV_W : Nat := 0x1035004C
abbrev DX_PXADV_NS : Fld := ⟨DX_PXADV_W, 15, 0⟩
abbrev DX_SPLICE_CYC_W : Nat := 0x10350054
abbrev DX_SPLICE_CYC : Fld := ⟨DX_SPLICE_CYC_W, 31, 0⟩
abbrev DX_SPLICE_CNT_W : Nat := 0x10350058
abbrev DX_SPLICE_CNT : Fld := ⟨DX_SPLICE_CNT_W, 31, 0⟩
abbrev DX_MIRCYC_W : Nat := 0x1035005C
abbrev DX_MIRCYC : Fld := ⟨DX_MIRCYC_W, 31, 0⟩
abbrev DX_MIRLATE_CNT_W : Nat := 0x10350060
abbrev DX_MIRLATE_CNT : Fld := ⟨DX_MIRLATE_CNT_W, 31, 0⟩
abbrev DX_PX_DLY_W : Nat := 0x10350064
abbrev DX_PX_DLY_NS : Fld := ⟨DX_PX_DLY_W, 9, 0⟩
abbrev DX_PSERIAL_LO_W : Nat := 0x10350068
abbrev DX_PSERIAL_LO : Fld := ⟨DX_PSERIAL_LO_W, 31, 0⟩
abbrev DX_PSERIAL_HI_W : Nat := 0x1035006C
abbrev DX_PSERIAL_HI : Fld := ⟨DX_PSERIAL_HI_W, 31, 0⟩
abbrev DX_MIR_ADDR_LO_W (i : Nat) : Nat := 0x10350100 + 0x10 * i
abbrev DX_MIR_ADDR_LO_ADDR (i : Nat) : Fld := ⟨DX_MIR_ADDR_LO_W i, 31, 4⟩
abbrev DX_MIR_ADDR_HI (i : Nat) : Nat := 0x10350104 + 0x10 * i
abbrev DX_MIR_ADDR_HI_EN (i : Nat) : Fld := ⟨DX_MIR_ADDR_HI i, 31, 31⟩
abbrev DX_MIR_ADDR_HI_DIVEXP (i : Nat) : Fld := ⟨DX_MIR_ADDR_HI i, 30, 28⟩
abbrev DX_MIR_ADDR_HI_ADDR (i : Nat) : Fld := ⟨DX_MIR_ADDR_HI i, 19, 0⟩
abbrev DX_MIR_LEN_W (i : Nat) : Nat := 0x10350108 + 0x10 * i
abbrev DX_MIR_LEN_LEN (i : Nat) : Fld := ⟨DX_MIR_LEN_W i, 16, 0⟩
abbrev DX_MIR_CYC_W (i : Nat) : Nat := 0x1035010C + 0x10 * i
abbrev DX_MIR_CYC (i : Nat) : Fld := ⟨DX_MIR_CYC_W i, 31, 0⟩
end R

def mapDX : List RSpec := [
  ⟨0x0, 4, 1, [⟨15, 12, .rw, 0x0⟩, ⟨9, 8, .rw, 0x0⟩, ⟨6, 6, .w1s, 0x0⟩, ⟨5, 5, .w1s, 0x0⟩, ⟨4, 4, .w1s, 0x0⟩, ⟨3, 3, .w1s, 0x0⟩, ⟨2, 2, .rw, 0x0⟩, ⟨1, 1, .rw, 0x1⟩, ⟨0, 0, .rw, 0x0⟩]⟩,
  ⟨0x4, 4, 1, [⟨15, 15, .rsk, 0x0⟩, ⟨14, 14, .rsk, 0x0⟩, ⟨13, 13, .rsk, 0x0⟩, ⟨12, 12, .rsk, 0x0⟩, ⟨11, 11, .ro, 0x0⟩, ⟨10, 10, .ro, 0x0⟩, ⟨9, 9, .ro, 0x0⟩, ⟨8, 8, .ro, 0x0⟩, ⟨7, 7, .ro, 0x0⟩, ⟨6, 6, .ro, 0x0⟩, ⟨5, 5, .ro, 0x0⟩, ⟨4, 4, .ro, 0x0⟩, ⟨3, 0, .ro, 0x0⟩]⟩,
  ⟨0x8, 4, 1, [⟨31, 16, .rw, 0x7D0⟩, ⟨0, 0, .w1s, 0x0⟩]⟩,
  ⟨0x20, 4, 8, [⟨31, 0, .rw, 0x0⟩]⟩,
  ⟨0x40, 4, 1, [⟨15, 0, .rw, 0x2710⟩]⟩,
  ⟨0x44, 4, 1, [⟨15, 0, .ro, 0x0⟩]⟩,
  ⟨0x48, 4, 1, [⟨23, 16, .ro, 0x0⟩, ⟨15, 0, .ro, 0x0⟩]⟩,
  ⟨0x4C, 4, 1, [⟨15, 0, .rw, 0x7D0⟩]⟩,
  ⟨0x54, 4, 1, [⟨31, 0, .ro, 0x0⟩]⟩,
  ⟨0x58, 4, 1, [⟨31, 0, .ro, 0x0⟩]⟩,
  ⟨0x5C, 4, 1, [⟨31, 0, .ro, 0x0⟩]⟩,
  ⟨0x60, 4, 1, [⟨31, 0, .ro, 0x0⟩]⟩,
  ⟨0x64, 4, 1, [⟨9, 0, .ro, 0x0⟩]⟩,
  ⟨0x68, 4, 1, [⟨31, 0, .ro, 0x0⟩]⟩,
  ⟨0x6C, 4, 1, [⟨31, 0, .ro, 0x0⟩]⟩,
  ⟨0x100, 16, 32, [⟨31, 4, .rw, 0x0⟩]⟩,
  ⟨0x104, 16, 32, [⟨31, 31, .rw, 0x0⟩, ⟨30, 28, .rw, 0x0⟩, ⟨19, 0, .rw, 0x0⟩]⟩,
  ⟨0x108, 16, 32, [⟨16, 0, .rw, 0x0⟩]⟩,
  ⟨0x10C, 16, 32, [⟨31, 0, .ro, 0x0⟩]⟩]

/-! ## LL (spec/17_logline_and_fids.md, R436) -/
namespace R
abbrev LL_STAT : Nat := 0x10360000
abbrev LL_STAT_MISMATCH : Fld := ⟨LL_STAT, 18, 18⟩
abbrev LL_STAT_WFAIL : Fld := ⟨LL_STAT, 17, 17⟩
abbrev LL_STAT_OCC : Fld := ⟨LL_STAT, 15, 8⟩
abbrev LL_STAT_STATE : Fld := ⟨LL_STAT, 3, 0⟩
abbrev LL_HEAD_LO_W : Nat := 0x10360008
abbrev LL_HEAD_LO_SEQ : Fld := ⟨LL_HEAD_LO_W, 31, 0⟩
abbrev LL_HEAD_HI_W : Nat := 0x1036000C
abbrev LL_HEAD_HI_SEQ : Fld := ⟨LL_HEAD_HI_W, 31, 0⟩
abbrev LL_OLDEST_LO_W : Nat := 0x10360010
abbrev LL_OLDEST_LO_SEQ : Fld := ⟨LL_OLDEST_LO_W, 31, 0⟩
abbrev LL_OLDEST_HI_W : Nat := 0x10360014
abbrev LL_OLDEST_HI_SEQ : Fld := ⟨LL_OLDEST_HI_W, 31, 0⟩
abbrev LL_BOOTN_W : Nat := 0x10360018
abbrev LL_BOOTN_BOOTN : Fld := ⟨LL_BOOTN_W, 15, 0⟩
abbrev LL_LOST_TOTAL_W : Nat := 0x1036001C
abbrev LL_LOST_TOTAL : Fld := ⟨LL_LOST_TOTAL_W, 31, 0⟩
abbrev LL_COMMIT_CNT_W : Nat := 0x10360020
abbrev LL_COMMIT_CNT : Fld := ⟨LL_COMMIT_CNT_W, 31, 0⟩
abbrev LL_SCAN_REP_W : Nat := 0x10360024
abbrev LL_SCAN_REP : Fld := ⟨LL_SCAN_REP_W, 16, 0⟩
abbrev LL_SCAN_MIS_W : Nat := 0x10360028
abbrev LL_SCAN_MIS : Fld := ⟨LL_SCAN_MIS_W, 16, 0⟩
abbrev LL_RLIM_W (i : Nat) : Nat := 0x10360040 + 0x4 * i
abbrev LL_RLIM_US (i : Nat) : Fld := ⟨LL_RLIM_W i, 15, 0⟩
abbrev LL_RD_SEQ_LO_W : Nat := 0x10360100
abbrev LL_RD_SEQ_LO_SEQ : Fld := ⟨LL_RD_SEQ_LO_W, 31, 0⟩
abbrev LL_RD_SEQ_HI_W : Nat := 0x10360104
abbrev LL_RD_SEQ_HI_SEQ : Fld := ⟨LL_RD_SEQ_HI_W, 31, 0⟩
abbrev LL_RD_STAT : Nat := 0x10360108
abbrev LL_RD_STAT_BUSY : Fld := ⟨LL_RD_STAT, 7, 7⟩
abbrev LL_RD_STAT_DENIED : Fld := ⟨LL_RD_STAT, 6, 6⟩
abbrev LL_RD_STAT_GONE : Fld := ⟨LL_RD_STAT, 5, 5⟩
abbrev LL_RD_STAT_MISMATCH : Fld := ⟨LL_RD_STAT, 4, 4⟩
abbrev LL_RD_STAT_DIFF : Fld := ⟨LL_RD_STAT, 3, 3⟩
abbrev LL_RD_STAT_ONE : Fld := ⟨LL_RD_STAT, 2, 2⟩
abbrev LL_RD_STAT_USED : Fld := ⟨LL_RD_STAT, 1, 1⟩
abbrev LL_RD_STAT_VALID : Fld := ⟨LL_RD_STAT, 0, 0⟩
abbrev LL_RD_W (i : Nat) : Nat := 0x10360140 + 0x4 * i
abbrev LL_RD (i : Nat) : Fld := ⟨LL_RD_W i, 31, 0⟩
abbrev LL_ALT_W (i : Nat) : Nat := 0x10360180 + 0x4 * i
abbrev LL_ALT (i : Nat) : Fld := ⟨LL_ALT_W i, 31, 0⟩
abbrev LL_ERASE : Nat := 0x10360200
abbrev LL_ERASE_GO : Fld := ⟨LL_ERASE, 31, 31⟩
abbrev LL_ERASE_RESULT : Fld := ⟨LL_ERASE, 10, 8⟩
abbrev LL_ERASE_CODE : Fld := ⟨LL_ERASE, 3, 0⟩
end R

def mapLL : List RSpec := [
  ⟨0x0, 4, 1, [⟨18, 18, .rsk, 0x0⟩, ⟨17, 17, .rsk, 0x0⟩, ⟨15, 8, .ro, 0x0⟩, ⟨3, 0, .ro, 0x0⟩]⟩,
  ⟨0x8, 4, 1, [⟨31, 0, .ro, 0x1⟩]⟩,
  ⟨0xC, 4, 1, [⟨31, 0, .ro, 0x0⟩]⟩,
  ⟨0x10, 4, 1, [⟨31, 0, .ro, 0x1⟩]⟩,
  ⟨0x14, 4, 1, [⟨31, 0, .ro, 0x0⟩]⟩,
  ⟨0x18, 4, 1, [⟨15, 0, .ro, 0x0⟩]⟩,
  ⟨0x1C, 4, 1, [⟨31, 0, .ro, 0x0⟩]⟩,
  ⟨0x20, 4, 1, [⟨31, 0, .ro, 0x0⟩]⟩,
  ⟨0x24, 4, 1, [⟨16, 0, .ro, 0x0⟩]⟩,
  ⟨0x28, 4, 1, [⟨16, 0, .ro, 0x0⟩]⟩,
  ⟨0x40, 4, 1, [⟨15, 0, .rw, 0x0⟩]⟩,
  ⟨0x44, 4, 8, [⟨15, 0, .rw, 0xA⟩]⟩,
  ⟨0x64, 4, 1, [⟨15, 0, .rw, 0x0⟩]⟩,
  ⟨0x68, 4, 22, [⟨15, 0, .rw, 0xA⟩]⟩,
  ⟨0x100, 4, 1, [⟨31, 0, .rw, 0x0⟩]⟩,
  ⟨0x104, 4, 1, [⟨31, 0, .rw, 0x0⟩]⟩,
  ⟨0x108, 4, 1, [⟨7, 7, .ro, 0x0⟩, ⟨6, 6, .ro, 0x0⟩, ⟨5, 5, .ro, 0x0⟩, ⟨4, 4, .ro, 0x0⟩, ⟨3, 3, .ro, 0x0⟩, ⟨2, 2, .ro, 0x0⟩, ⟨1, 1, .ro, 0x0⟩, ⟨0, 0, .ro, 0x0⟩]⟩,
  ⟨0x140, 4, 16, [⟨31, 0, .ro, 0x0⟩]⟩,
  ⟨0x180, 4, 16, [⟨31, 0, .ro, 0x0⟩]⟩,
  ⟨0x200, 4, 1, [⟨31, 31, .w1s, 0x0⟩, ⟨10, 8, .ro, 0x0⟩, ⟨3, 0, .rw, 0x0⟩]⟩]

/-! ## LW (spec/17_logline_and_fids.md, R436) -/
namespace R
abbrev LW_DATA_W (n i : Nat) : Nat := 0x10368000 + 0x80 * n + 0x4 * i
abbrev LW_DATA (n i : Nat) : Fld := ⟨LW_DATA_W n i, 31, 0⟩
abbrev LW_GO (n : Nat) : Nat := 0x10368018 + 0x80 * n
abbrev LW_GO_GO (n : Nat) : Fld := ⟨LW_GO n, 31, 31⟩
abbrev LW_GO_CLASS (n : Nat) : Fld := ⟨LW_GO n, 1, 0⟩
abbrev LW_SEQ_LO_W (n : Nat) : Nat := 0x10368020 + 0x80 * n
abbrev LW_SEQ_LO_SEQ (n : Nat) : Fld := ⟨LW_SEQ_LO_W n, 31, 0⟩
abbrev LW_SEQ_HI_W (n : Nat) : Nat := 0x10368024 + 0x80 * n
abbrev LW_SEQ_HI_SEQ (n : Nat) : Fld := ⟨LW_SEQ_HI_W n, 31, 0⟩
abbrev LW_STAT (n : Nat) : Nat := 0x10368028 + 0x80 * n
abbrev LW_STAT_BUSY (n : Nat) : Fld := ⟨LW_STAT n, 7, 7⟩
abbrev LW_STAT_DENIED (n : Nat) : Fld := ⟨LW_STAT n, 6, 6⟩
abbrev LW_STAT_GONE (n : Nat) : Fld := ⟨LW_STAT n, 5, 5⟩
abbrev LW_STAT_MISMATCH (n : Nat) : Fld := ⟨LW_STAT n, 4, 4⟩
abbrev LW_STAT_DIFF (n : Nat) : Fld := ⟨LW_STAT n, 3, 3⟩
abbrev LW_STAT_ONE (n : Nat) : Fld := ⟨LW_STAT n, 2, 2⟩
abbrev LW_STAT_USED (n : Nat) : Fld := ⟨LW_STAT n, 1, 1⟩
abbrev LW_STAT_VALID (n : Nat) : Fld := ⟨LW_STAT n, 0, 0⟩
abbrev LW_REC_W (n i : Nat) : Nat := 0x10368040 + 0x80 * n + 0x4 * i
abbrev LW_REC (n i : Nat) : Fld := ⟨LW_REC_W n i, 31, 0⟩
end R

def mapLW : List RSpec := [
  ⟨0x0, 4, 6, [⟨31, 0, .rw, 0x0⟩]⟩,
  ⟨0x18, 4, 1, [⟨31, 31, .w1s, 0x0⟩, ⟨1, 0, .rw, 0x0⟩]⟩,
  ⟨0x20, 4, 1, [⟨31, 0, .rw, 0x0⟩]⟩,
  ⟨0x24, 4, 1, [⟨31, 0, .rw, 0x0⟩]⟩,
  ⟨0x28, 4, 1, [⟨7, 7, .ro, 0x0⟩, ⟨6, 6, .ro, 0x0⟩, ⟨5, 5, .ro, 0x0⟩, ⟨4, 4, .ro, 0x0⟩, ⟨3, 3, .ro, 0x0⟩, ⟨2, 2, .ro, 0x0⟩, ⟨1, 1, .ro, 0x0⟩, ⟨0, 0, .ro, 0x0⟩]⟩,
  ⟨0x40, 4, 16, [⟨31, 0, .ro, 0x0⟩]⟩]

/-! ## FID (spec/17_logline_and_fids.md, R437) -/
namespace R
abbrev FID_UNLOCK_W : Nat := 0x10370000
abbrev FID_UNLOCK_KEY : Fld := ⟨FID_UNLOCK_W, 31, 0⟩
abbrev FID_CTRL : Nat := 0x10370004
abbrev FID_CTRL_ARMED : Fld := ⟨FID_CTRL, 31, 31⟩
abbrev FID_CTRL_DISARM : Fld := ⟨FID_CTRL, 0, 0⟩
abbrev FID_ARMTIME_W : Nat := 0x10370008
abbrev FID_ARMTIME_MS : Fld := ⟨FID_ARMTIME_W, 15, 0⟩
abbrev FID_ARMLEFT_W : Nat := 0x1037000C
abbrev FID_ARMLEFT_MS : Fld := ⟨FID_ARMLEFT_W, 15, 0⟩
abbrev FID_WIN_W : Nat := 0x10370010
abbrev FID_WIN_US : Fld := ⟨FID_WIN_W, 15, 0⟩
abbrev FID_FIRED_CNT_W : Nat := 0x10370014
abbrev FID_FIRED_CNT : Fld := ⟨FID_FIRED_CNT_W, 31, 0⟩
end R

def mapFID : List RSpec := [
  ⟨0x0, 4, 1, [⟨31, 0, .wo, 0x0⟩]⟩,
  ⟨0x4, 4, 1, [⟨31, 31, .ro, 0x0⟩, ⟨0, 0, .w1s, 0x0⟩]⟩,
  ⟨0x8, 4, 1, [⟨15, 0, .rw, 0x2710⟩]⟩,
  ⟨0xC, 4, 1, [⟨15, 0, .ro, 0x0⟩]⟩,
  ⟨0x10, 4, 1, [⟨15, 0, .rw, 0x3E8⟩]⟩,
  ⟨0x14, 4, 1, [⟨31, 0, .ro, 0x0⟩]⟩]

/-! ## FS (spec/17_logline_and_fids.md, R437) -/
namespace R
abbrev FS_SRC_W (n : Nat) : Nat := 0x10370100 + 0x20 * n
abbrev FS_SRC_SRC (n : Nat) : Fld := ⟨FS_SRC_W n, 15, 0⟩
abbrev FS_CTRL (n : Nat) : Nat := 0x10370104 + 0x20 * n
abbrev FS_CTRL_GO (n : Nat) : Fld := ⟨FS_CTRL n, 31, 31⟩
abbrev FS_CTRL_STOP (n : Nat) : Fld := ⟨FS_CTRL n, 30, 30⟩
abbrev FS_CTRL_N (n : Nat) : Fld := ⟨FS_CTRL n, 15, 0⟩
abbrev FS_T0_W (n : Nat) : Nat := 0x10370108 + 0x20 * n
abbrev FS_T0 (n : Nat) : Fld := ⟨FS_T0_W n, 31, 0⟩
abbrev FS_PER_W (n : Nat) : Nat := 0x1037010C + 0x20 * n
abbrev FS_PER_US (n : Nat) : Fld := ⟨FS_PER_W n, 19, 0⟩
abbrev FS_DATA (n : Nat) : Nat := 0x10370110 + 0x20 * n
abbrev FS_DATA_CLASS (n : Nat) : Fld := ⟨FS_DATA n, 9, 8⟩
abbrev FS_DATA_BURST (n : Nat) : Fld := ⟨FS_DATA n, 7, 0⟩
abbrev FS_STAT (n : Nat) : Nat := 0x10370114 + 0x20 * n
abbrev FS_STAT_DONE (n : Nat) : Fld := ⟨FS_STAT n, 31, 16⟩
abbrev FS_STAT_MISSED (n : Nat) : Fld := ⟨FS_STAT n, 15, 8⟩
abbrev FS_STAT_RESULT (n : Nat) : Fld := ⟨FS_STAT n, 3, 0⟩
end R

def mapFS : List RSpec := [
  ⟨0x0, 4, 1, [⟨15, 0, .rw, 0x0⟩]⟩,
  ⟨0x4, 4, 1, [⟨31, 31, .w1s, 0x0⟩, ⟨30, 30, .w1s, 0x0⟩, ⟨15, 0, .rw, 0x1⟩]⟩,
  ⟨0x8, 4, 1, [⟨31, 0, .rw, 0x0⟩]⟩,
  ⟨0xC, 4, 1, [⟨19, 0, .rw, 0x3E8⟩]⟩,
  ⟨0x10, 4, 1, [⟨9, 8, .rw, 0x0⟩, ⟨7, 0, .rw, 0x1⟩]⟩,
  ⟨0x14, 4, 1, [⟨31, 16, .ro, 0x0⟩, ⟨15, 8, .ro, 0x0⟩, ⟨3, 0, .ro, 0x0⟩]⟩]

/-! ## PMU (spec/18_power_management.md, R456) -/
namespace R
abbrev PMU_CTRL : Nat := 0x10380000
abbrev PMU_CTRL_SWRESET : Fld := ⟨PMU_CTRL, 2, 2⟩
abbrev PMU_CTRL_SHUTDOWN : Fld := ⟨PMU_CTRL, 1, 1⟩
abbrev PMU_CTRL_PFRECOVER : Fld := ⟨PMU_CTRL, 0, 0⟩
abbrev PMU_STAT : Nat := 0x10380004
abbrev PMU_STAT_JUMP : Fld := ⟨PMU_STAT, 11, 11⟩
abbrev PMU_STAT_PF : Fld := ⟨PMU_STAT, 10, 10⟩
abbrev PMU_STAT_SAVEERR : Fld := ⟨PMU_STAT, 9, 9⟩
abbrev PMU_STAT_PDERR : Fld := ⟨PMU_STAT, 8, 8⟩
abbrev PMU_STAT_STEP : Fld := ⟨PMU_STAT, 3, 0⟩
abbrev PMU_RESET_CAUSE_W : Nat := 0x10380008
abbrev PMU_RESET_CAUSE_CAUSE : Fld := ⟨PMU_RESET_CAUSE_W, 3, 0⟩
abbrev PMU_RAIL_STAT : Nat := 0x1038000C
abbrev PMU_RAIL_STAT_RAIL_FAULT : Fld := ⟨PMU_RAIL_STAT, 22, 16⟩
abbrev PMU_RAIL_STAT_IN_REG : Fld := ⟨PMU_RAIL_STAT, 6, 0⟩
abbrev PMU_VINW_W : Nat := 0x10380010
abbrev PMU_VINW_MV : Fld := ⟨PMU_VINW_W, 15, 0⟩
abbrev PMU_VIN_MEAS_W : Nat := 0x10380014
abbrev PMU_VIN_MEAS_MV : Fld := ⟨PMU_VIN_MEAS_W, 15, 0⟩
abbrev PMU_PF_CFG : Nat := 0x10380018
abbrev PMU_PF_CFG_POL : Fld := ⟨PMU_PF_CFG, 16, 16⟩
abbrev PMU_PF_CFG_FILT : Fld := ⟨PMU_PF_CFG, 15, 0⟩
abbrev PMU_PD_REQ_W : Nat := 0x10380020
abbrev PMU_PD_REQ_PD : Fld := ⟨PMU_PD_REQ_W, 23, 0⟩
abbrev PMU_PD_STAT_W : Nat := 0x10380024
abbrev PMU_PD_STAT_PD : Fld := ⟨PMU_PD_STAT_W, 23, 0⟩
abbrev PMU_PD_ERR : Nat := 0x10380028
abbrev PMU_PD_ERR_REASON : Fld := ⟨PMU_PD_ERR, 10, 8⟩
abbrev PMU_PD_ERR_DOM : Fld := ⟨PMU_PD_ERR, 4, 0⟩
abbrev PMU_ISLRST : Nat := 0x10380030
abbrev PMU_ISLRST_GO : Fld := ⟨PMU_ISLRST, 31, 31⟩
abbrev PMU_ISLRST_REFUSED : Fld := ⟨PMU_ISLRST, 30, 30⟩
abbrev PMU_ISLRST_ISLAND : Fld := ⟨PMU_ISLRST, 5, 0⟩
abbrev PMU_OFFRESP_CNT_W : Nat := 0x10380034
abbrev PMU_OFFRESP_CNT : Fld := ⟨PMU_OFFRESP_CNT_W, 31, 0⟩
abbrev PMU_ISL (i : Nat) : Nat := 0x10380040 + 0x4 * i
abbrev PMU_ISL_BUSY (i : Nat) : Fld := ⟨PMU_ISL i, 4, 4⟩
abbrev PMU_ISL_OPP (i : Nat) : Fld := ⟨PMU_ISL i, 1, 0⟩
abbrev PMU_MLS_CTRL : Nat := 0x10380100
abbrev PMU_MLS_CTRL_HWRAMP : Fld := ⟨PMU_MLS_CTRL, 1, 1⟩
abbrev PMU_MLS_CTRL_EN : Fld := ⟨PMU_MLS_CTRL, 0, 0⟩
abbrev PMU_MLS_T_STOP_W : Nat := 0x10380104
abbrev PMU_MLS_T_STOP_MS : Fld := ⟨PMU_MLS_T_STOP_W, 15, 0⟩
abbrev PMU_MLS_T_SAVE_W : Nat := 0x10380108
abbrev PMU_MLS_T_SAVE_MS : Fld := ⟨PMU_MLS_T_SAVE_W, 15, 0⟩
abbrev PMU_MLS_BANKMASK_W : Nat := 0x1038010C
abbrev PMU_MLS_BANKMASK : Fld := ⟨PMU_MLS_BANKMASK_W, 3, 0⟩
abbrev PMU_MLS_TAG : Nat := 0x10380110
abbrev PMU_MLS_TAG_TAGEN : Fld := ⟨PMU_MLS_TAG, 31, 31⟩
abbrev PMU_MLS_TAG_TAG : Fld := ⟨PMU_MLS_TAG, 13, 0⟩
abbrev PMU_MLS_AXMASK_W (i : Nat) : Nat := 0x10380120 + 0x4 * i
abbrev PMU_MLS_AXMASK (i : Nat) : Fld := ⟨PMU_MLS_AXMASK_W i, 31, 0⟩
abbrev PMU_MLS_T_W (i : Nat) : Nat := 0x10380144 + 0x4 * i
abbrev PMU_MLS_T_STAMP (i : Nat) : Fld := ⟨PMU_MLS_T_W i, 31, 0⟩
abbrev PMU_SAVE_CTRL : Nat := 0x10380200
abbrev PMU_SAVE_CTRL_GO : Fld := ⟨PMU_SAVE_CTRL, 1, 1⟩
abbrev PMU_SAVE_CTRL_EN : Fld := ⟨PMU_SAVE_CTRL, 0, 0⟩
abbrev PMU_SAVE_SSEQ_W : Nat := 0x10380204
abbrev PMU_SAVE_SSEQ_SSEQ : Fld := ⟨PMU_SAVE_SSEQ_W, 31, 0⟩
abbrev PMU_SAVE_AXMASK_W (i : Nat) : Nat := 0x10380220 + 0x4 * i
abbrev PMU_SAVE_AXMASK (i : Nat) : Fld := ⟨PMU_SAVE_AXMASK_W i, 31, 0⟩
abbrev PMU_SAVE_REG0_W (i : Nat) : Nat := 0x10380240 + 0x10 * i
abbrev PMU_SAVE_REG0_ADDR_LO (i : Nat) : Fld := ⟨PMU_SAVE_REG0_W i, 31, 4⟩
abbrev PMU_SAVE_REG1 (i : Nat) : Nat := 0x10380244 + 0x10 * i
abbrev PMU_SAVE_REG1_EN (i : Nat) : Fld := ⟨PMU_SAVE_REG1 i, 31, 31⟩
abbrev PMU_SAVE_REG1_ADDR_HI (i : Nat) : Fld := ⟨PMU_SAVE_REG1 i, 19, 0⟩
abbrev PMU_SAVE_REG2_W (i : Nat) : Nat := 0x10380248 + 0x10 * i
abbrev PMU_SAVE_REG2_LEN (i : Nat) : Fld := ⟨PMU_SAVE_REG2_W i, 20, 0⟩
end R

def mapPMU0c : List RSpec := [
  ⟨0x0, 4, 1, [⟨2, 2, .w1s, 0x0⟩, ⟨1, 1, .w1s, 0x0⟩, ⟨0, 0, .rw, 0x0⟩]⟩,
  ⟨0x4, 4, 1, [⟨11, 11, .ro, 0x0⟩, ⟨10, 10, .ro, 0x0⟩, ⟨9, 9, .rsk, 0x0⟩, ⟨8, 8, .rsk, 0x0⟩, ⟨3, 0, .ro, 0x0⟩]⟩,
  ⟨0x8, 4, 1, [⟨3, 0, .ro, 0x0⟩]⟩,
  ⟨0xC, 4, 1, [⟨22, 16, .rsk, 0x0⟩, ⟨6, 0, .ro, 0x0⟩]⟩,
  ⟨0x10, 4, 1, [⟨15, 0, .rw, 0x6D6⟩]⟩,
  ⟨0x14, 4, 1, [⟨15, 0, .ro, 0x0⟩]⟩,
  ⟨0x18, 4, 1, [⟨16, 16, .rw, 0x0⟩, ⟨15, 0, .rw, 0xA⟩]⟩,
  ⟨0x20, 4, 1, [⟨23, 0, .rw, 0xA0070F⟩]⟩,
  ⟨0x24, 4, 1, [⟨23, 0, .ro, 0xA0070F⟩]⟩,
  ⟨0x28, 4, 1, [⟨10, 8, .ro, 0x0⟩, ⟨4, 0, .ro, 0x0⟩]⟩,
  ⟨0x30, 4, 1, [⟨31, 31, .w1s, 0x0⟩, ⟨30, 30, .rsk, 0x0⟩, ⟨5, 0, .rw, 0x0⟩]⟩,
  ⟨0x34, 4, 1, [⟨31, 0, .ro, 0x0⟩]⟩,
  ⟨0x40, 4, 33, [⟨4, 4, .ro, 0x0⟩, ⟨1, 0, .rw, 0x3⟩]⟩,
  ⟨0x100, 4, 1, [⟨1, 1, .rw, 0x0⟩, ⟨0, 0, .rw, 0x1⟩]⟩,
  ⟨0x104, 4, 1, [⟨15, 0, .rw, 0x1F4⟩]⟩,
  ⟨0x108, 4, 1, [⟨15, 0, .rw, 0x64⟩]⟩,
  ⟨0x10C, 4, 1, [⟨3, 0, .rw, 0xF⟩]⟩,
  ⟨0x110, 4, 1, [⟨31, 31, .rw, 0x0⟩, ⟨13, 0, .rw, 0x0⟩]⟩,
  ⟨0x120, 4, 8, [⟨31, 0, .rw, 0x0⟩]⟩,
  ⟨0x144, 4, 5, [⟨31, 0, .ro, 0x0⟩]⟩,
  ⟨0x200, 4, 1, [⟨1, 1, .w1s, 0x0⟩, ⟨0, 0, .rw, 0x0⟩]⟩,
  ⟨0x204, 4, 1, [⟨31, 0, .ro, 0x0⟩]⟩,
  ⟨0x220, 4, 8, [⟨31, 0, .rw, 0x0⟩]⟩,
  ⟨0x240, 16, 16, [⟨31, 4, .rw, 0x0⟩]⟩]
def mapPMU1c : List RSpec := [
  ⟨0x244, 16, 16, [⟨31, 31, .rw, 0x0⟩, ⟨19, 0, .rw, 0x0⟩]⟩,
  ⟨0x248, 16, 16, [⟨20, 0, .rw, 0x0⟩]⟩]

/-! ## BUS (spec/18_power_management.md, R456) -/
namespace R
abbrev BUS_CFG (n : Nat) : Nat := 0x10380400 + 0x40 * n
abbrev BUS_CFG_NFILT (n : Nat) : Fld := ⟨BUS_CFG n, 23, 16⟩
abbrev BUS_CFG_ADC (n : Nat) : Fld := ⟨BUS_CFG n, 14, 11⟩
abbrev BUS_CFG_AIN (n : Nat) : Fld := ⟨BUS_CFG n, 10, 4⟩
abbrev BUS_CFG_MAINS (n : Nat) : Fld := ⟨BUS_CFG n, 2, 2⟩
abbrev BUS_CFG_KIND (n : Nat) : Fld := ⟨BUS_CFG n, 1, 1⟩
abbrev BUS_CFG_EN (n : Nat) : Fld := ⟨BUS_CFG n, 0, 0⟩
abbrev BUS_GANGMASK_W (n : Nat) : Nat := 0x10380404 + 0x40 * n
abbrev BUS_GANGMASK (n : Nat) : Fld := ⟨BUS_GANGMASK_W n, 15, 0⟩
abbrev BUS_TH1 (n : Nat) : Nat := 0x10380408 + 0x40 * n
abbrev BUS_TH1_OV (n : Nat) : Fld := ⟨BUS_TH1 n, 31, 16⟩
abbrev BUS_TH1_UVW (n : Nat) : Fld := ⟨BUS_TH1 n, 15, 0⟩
abbrev BUS_TH2 (n : Nat) : Nat := 0x1038040C + 0x40 * n
abbrev BUS_TH2_UVS (n : Nat) : Fld := ⟨BUS_TH2 n, 31, 16⟩
abbrev BUS_TH2_COLL (n : Nat) : Fld := ⟨BUS_TH2 n, 15, 0⟩
abbrev BUS_STAT (n : Nat) : Nat := 0x10380410 + 0x40 * n
abbrev BUS_STAT_STALE (n : Nat) : Fld := ⟨BUS_STAT n, 20, 20⟩
abbrev BUS_STAT_OV (n : Nat) : Fld := ⟨BUS_STAT n, 19, 19⟩
abbrev BUS_STAT_UVW (n : Nat) : Fld := ⟨BUS_STAT n, 18, 18⟩
abbrev BUS_STAT_UVS (n : Nat) : Fld := ⟨BUS_STAT n, 17, 17⟩
abbrev BUS_STAT_COLL (n : Nat) : Fld := ⟨BUS_STAT n, 16, 16⟩
abbrev BUS_STAT_VBUS (n : Nat) : Fld := ⟨BUS_STAT n, 15, 0⟩
abbrev BUS_SCALE_W (n : Nat) : Nat := 0x10380414 + 0x40 * n
abbrev BUS_SCALE (n : Nat) : Fld := ⟨BUS_SCALE_W n, 31, 0⟩
abbrev BUS_AXMASK_W (n i : Nat) : Nat := 0x10380420 + 0x40 * n + 0x4 * i
abbrev BUS_AXMASK (n i : Nat) : Fld := ⟨BUS_AXMASK_W n i, 31, 0⟩
end R

def mapBUS : List RSpec := [
  ⟨0x0, 4, 1, [⟨23, 16, .rw, 0x3⟩, ⟨14, 11, .rw, 0x0⟩, ⟨10, 4, .rw, 0x0⟩, ⟨2, 2, .rw, 0x0⟩, ⟨1, 1, .rw, 0x0⟩, ⟨0, 0, .rw, 0x0⟩]⟩,
  ⟨0x4, 4, 1, [⟨15, 0, .rw, 0x0⟩]⟩,
  ⟨0x8, 4, 1, [⟨31, 16, .rw, 0xFFFF⟩, ⟨15, 0, .rw, 0x0⟩]⟩,
  ⟨0xC, 4, 1, [⟨31, 16, .rw, 0x0⟩, ⟨15, 0, .rw, 0x0⟩]⟩,
  ⟨0x10, 4, 1, [⟨20, 20, .rsk, 0x0⟩, ⟨19, 19, .rsk, 0x0⟩, ⟨18, 18, .rsk, 0x0⟩, ⟨17, 17, .rsk, 0x0⟩, ⟨16, 16, .rsk, 0x0⟩, ⟨15, 0, .ro, 0x0⟩]⟩,
  ⟨0x14, 4, 1, [⟨31, 0, .rw, 0x0⟩]⟩,
  ⟨0x20, 4, 8, [⟨31, 0, .rw, 0x0⟩]⟩]

/-! ## AON (spec/18_power_management.md, R456) -/
namespace R
abbrev AON_RTC_S_W : Nat := 0x10381000
abbrev AON_RTC_S_S : Fld := ⟨AON_RTC_S_W, 31, 0⟩
abbrev AON_RTC_SUB_W : Nat := 0x10381004
abbrev AON_RTC_SUB_TICKS : Fld := ⟨AON_RTC_SUB_W, 14, 0⟩
abbrev AON_ALARM_W : Nat := 0x10381008
abbrev AON_ALARM_S : Fld := ⟨AON_ALARM_W, 31, 0⟩
abbrev AON_STANDBY : Nat := 0x1038100C
abbrev AON_STANDBY_GO : Fld := ⟨AON_STANDBY, 31, 31⟩
abbrev AON_STANDBY_ALARMEN : Fld := ⟨AON_STANDBY, 1, 1⟩
abbrev AON_STANDBY_AUTOWAKE : Fld := ⟨AON_STANDBY, 0, 0⟩
abbrev AON_RET_W (i : Nat) : Nat := 0x10381100 + 0x4 * i
abbrev AON_RET (i : Nat) : Fld := ⟨AON_RET_W i, 31, 0⟩
end R

def mapAON : List RSpec := [
  ⟨0x0, 4, 1, [⟨31, 0, .rw, 0x0⟩]⟩,
  ⟨0x4, 4, 1, [⟨14, 0, .ro, 0x0⟩]⟩,
  ⟨0x8, 4, 1, [⟨31, 0, .rw, 0x0⟩]⟩,
  ⟨0xC, 4, 1, [⟨31, 31, .w1s, 0x0⟩, ⟨1, 1, .rw, 0x0⟩, ⟨0, 0, .rw, 0x1⟩]⟩,
  ⟨0x100, 4, 64, [⟨31, 0, .rw, 0x0⟩]⟩]

/-! ## PIN (spec/20_pins_and_electrical.md, R493) -/
namespace R
abbrev PIN_PIN (i : Nat) : Nat := 0x10390000 + 0x4 * i
abbrev PIN_PIN_FUNC (i : Nat) : Fld := ⟨PIN_PIN i, 17, 16⟩
abbrev PIN_PIN_REST (i : Nat) : Fld := ⟨PIN_PIN i, 13, 12⟩
abbrev PIN_PIN_PULL (i : Nat) : Fld := ⟨PIN_PIN i, 11, 10⟩
abbrev PIN_PIN_DRV (i : Nat) : Fld := ⟨PIN_PIN i, 9, 8⟩
abbrev PIN_PIN_SLEW (i : Nat) : Fld := ⟨PIN_PIN i, 7, 7⟩
abbrev PIN_PIN_OE (i : Nat) : Fld := ⟨PIN_PIN i, 2, 2⟩
abbrev PIN_PIN_OUT (i : Nat) : Fld := ⟨PIN_PIN i, 1, 1⟩
abbrev PIN_PIN_IN (i : Nat) : Fld := ⟨PIN_PIN i, 0, 0⟩
abbrev PIN_ACT (i : Nat) : Nat := 0x10391000 + 0x4 * i
abbrev PIN_ACT_FUNC (i : Nat) : Fld := ⟨PIN_ACT i, 17, 16⟩
abbrev PIN_ACT_REST (i : Nat) : Fld := ⟨PIN_ACT i, 13, 12⟩
abbrev PIN_ACT_PULL (i : Nat) : Fld := ⟨PIN_ACT i, 11, 10⟩
abbrev PIN_ACT_DRV (i : Nat) : Fld := ⟨PIN_ACT i, 9, 8⟩
abbrev PIN_ACT_SLEW (i : Nat) : Fld := ⟨PIN_ACT i, 7, 7⟩
abbrev PIN_CMT : Nat := 0x10392000
abbrev PIN_CMT_NOW : Fld := ⟨PIN_CMT, 1, 1⟩
abbrev PIN_CMT_GO : Fld := ⟨PIN_CMT, 0, 0⟩
abbrev PIN_CMT_CYC_W : Nat := 0x10392004
abbrev PIN_CMT_CYC : Fld := ⟨PIN_CMT_CYC_W, 31, 0⟩
abbrev PIN_STAT : Nat := 0x10392008
abbrev PIN_STAT_CFGERR : Fld := ⟨PIN_STAT, 2, 2⟩
abbrev PIN_STAT_REJ : Fld := ⟨PIN_STAT, 1, 1⟩
abbrev PIN_STAT_BUSY : Fld := ⟨PIN_STAT, 0, 0⟩
abbrev PIN_REJPIN : Nat := 0x1039200C
abbrev PIN_REJPIN_VALID : Fld := ⟨PIN_REJPIN, 31, 31⟩
abbrev PIN_REJPIN_PIN : Fld := ⟨PIN_REJPIN, 8, 0⟩
end R

def mapPIN : List RSpec := [
  ⟨0x0, 4, 424, [⟨17, 16, .rws, 0x0⟩, ⟨13, 12, .rws, 0x0⟩, ⟨11, 10, .rws, 0x1⟩, ⟨9, 8, .rws, 0x1⟩, ⟨7, 7, .rws, 0x0⟩, ⟨2, 2, .rw, 0x0⟩, ⟨1, 1, .rw, 0x0⟩, ⟨0, 0, .ro, 0x0⟩]⟩,
  ⟨0x6A0, 4, 64, [⟨17, 16, .rws, 0x1⟩, ⟨13, 12, .rws, 0x0⟩, ⟨11, 10, .rws, 0x1⟩, ⟨9, 8, .rws, 0x1⟩, ⟨7, 7, .rws, 0x0⟩, ⟨2, 2, .rw, 0x0⟩, ⟨1, 1, .rw, 0x0⟩, ⟨0, 0, .ro, 0x0⟩]⟩,
  ⟨0x1000, 4, 424, [⟨17, 16, .ro, 0x0⟩, ⟨13, 12, .ro, 0x0⟩, ⟨11, 10, .ro, 0x1⟩, ⟨9, 8, .ro, 0x1⟩, ⟨7, 7, .ro, 0x0⟩]⟩,
  ⟨0x16A0, 4, 64, [⟨17, 16, .ro, 0x1⟩, ⟨13, 12, .ro, 0x0⟩, ⟨11, 10, .ro, 0x1⟩, ⟨9, 8, .ro, 0x1⟩, ⟨7, 7, .ro, 0x0⟩]⟩,
  ⟨0x2000, 4, 1, [⟨1, 1, .w1s, 0x0⟩, ⟨0, 0, .w1s, 0x0⟩]⟩,
  ⟨0x2004, 4, 1, [⟨31, 0, .ro, 0x0⟩]⟩,
  ⟨0x2008, 4, 1, [⟨2, 2, .rsk, 0x0⟩, ⟨1, 1, .rsk, 0x0⟩, ⟨0, 0, .ro, 0x0⟩]⟩,
  ⟨0x200C, 4, 1, [⟨31, 31, .ro, 0x0⟩, ⟨8, 0, .ro, 0x0⟩]⟩]

/-! ## DOM (spec/19_boot_hosts_domains.md, R485) -/
namespace R
abbrev DOM_DRAM : Nat := 0x103A0000
abbrev DOM_DRAM_TRAINERR : Fld := ⟨DOM_DRAM, 9, 9⟩
abbrev DOM_DRAM_READY : Fld := ⟨DOM_DRAM, 8, 8⟩
abbrev DOM_DRAM_SIZE : Fld := ⟨DOM_DRAM, 6, 0⟩
abbrev DOM_VIOL_CNT_W : Nat := 0x103A0004
abbrev DOM_VIOL_CNT : Fld := ⟨DOM_VIOL_CNT_W, 31, 0⟩
abbrev DOM_VIOL_ADDR_LO_W : Nat := 0x103A0008
abbrev DOM_VIOL_ADDR_LO_ADDR : Fld := ⟨DOM_VIOL_ADDR_LO_W, 31, 0⟩
abbrev DOM_VIOL_ADDR_HI_W : Nat := 0x103A000C
abbrev DOM_VIOL_ADDR_HI_ADDR : Fld := ⟨DOM_VIOL_ADDR_HI_W, 19, 0⟩
abbrev DOM_VIOL_SRC : Nat := 0x103A0010
abbrev DOM_VIOL_SRC_VALID : Fld := ⟨DOM_VIOL_SRC, 31, 31⟩
abbrev DOM_VIOL_SRC_WRITE : Fld := ⟨DOM_VIOL_SRC, 16, 16⟩
abbrev DOM_VIOL_SRC_DOM : Fld := ⟨DOM_VIOL_SRC, 15, 8⟩
abbrev DOM_VIOL_SRC_KIND : Fld := ⟨DOM_VIOL_SRC, 7, 6⟩
abbrev DOM_VIOL_SRC_INDEX : Fld := ⟨DOM_VIOL_SRC, 5, 0⟩
abbrev DOM_PCOWN_W (i : Nat) : Nat := 0x103A0100 + 0x4 * i
abbrev DOM_PCOWN_DOM (i : Nat) : Fld := ⟨DOM_PCOWN_W i, 7, 0⟩
abbrev DOM_HGOWN_W (i : Nat) : Nat := 0x103A0200 + 0x4 * i
abbrev DOM_HGOWN_DOM (i : Nat) : Fld := ⟨DOM_HGOWN_W i, 7, 0⟩
abbrev DOM_TEOOWN_W (i : Nat) : Nat := 0x103A0240 + 0x4 * i
abbrev DOM_TEOOWN_DOM (i : Nat) : Fld := ⟨DOM_TEOOWN_W i, 7, 0⟩
abbrev DOM_TCIOWN_W (i : Nat) : Nat := 0x103A02C0 + 0x4 * i
abbrev DOM_TCIOWN_DOM (i : Nat) : Fld := ⟨DOM_TCIOWN_W i, 7, 0⟩
abbrev DOM_ADCOWN_W (i : Nat) : Nat := 0x103A0340 + 0x4 * i
abbrev DOM_ADCOWN_DOM (i : Nat) : Fld := ⟨DOM_ADCOWN_W i, 7, 0⟩
abbrev DOM_BOOT_STRAPS : Nat := 0x103A7000
abbrev DOM_BOOT_STRAPS_UNIT_ID : Fld := ⟨DOM_BOOT_STRAPS, 7, 4⟩
abbrev DOM_BOOT_STRAPS_ROLE : Fld := ⟨DOM_BOOT_STRAPS, 2, 2⟩
abbrev DOM_BOOT_STRAPS_BOOT_SRC : Fld := ⟨DOM_BOOT_STRAPS, 1, 0⟩
abbrev DOM_BOOT_FUSE : Nat := 0x103A7004
abbrev DOM_BOOT_FUSE_SECURE : Fld := ⟨DOM_BOOT_FUSE, 31, 31⟩
abbrev DOM_BOOT_FUSE_KEYREV : Fld := ⟨DOM_BOOT_FUSE, 11, 8⟩
abbrev DOM_BOOT_FUSE_MINVER : Fld := ⟨DOM_BOOT_FUSE, 6, 0⟩
abbrev DOM_BOOT_CTRL_W : Nat := 0x103A7008
abbrev DOM_BOOT_CTRL_DBGOPEN : Fld := ⟨DOM_BOOT_CTRL_W, 0, 0⟩
abbrev DOM_FUSEPROG : Nat := 0x103A700C
abbrev DOM_FUSEPROG_GO : Fld := ⟨DOM_FUSEPROG, 31, 31⟩
abbrev DOM_FUSEPROG_VER : Fld := ⟨DOM_FUSEPROG, 30, 30⟩
abbrev DOM_FUSEPROG_RESULT : Fld := ⟨DOM_FUSEPROG, 26, 24⟩
abbrev DOM_FUSEPROG_KEY : Fld := ⟨DOM_FUSEPROG, 9, 8⟩
abbrev DOM_FUSEPROG_BIT : Fld := ⟨DOM_FUSEPROG, 5, 0⟩
abbrev DOM_MWR_SRC_W : Nat := 0x103A7010
abbrev DOM_MWR_SRC : Fld := ⟨DOM_MWR_SRC_W, 23, 2⟩
abbrev DOM_MWR_DST_W : Nat := 0x103A7014
abbrev DOM_MWR_DST : Fld := ⟨DOM_MWR_DST_W, 21, 2⟩
abbrev DOM_MWR_LEN_W : Nat := 0x103A7018
abbrev DOM_MWR_LEN : Fld := ⟨DOM_MWR_LEN_W, 20, 0⟩
abbrev DOM_MWR_CTL : Nat := 0x103A701C
abbrev DOM_MWR_CTL_GO : Fld := ⟨DOM_MWR_CTL, 31, 31⟩
abbrev DOM_MWR_CTL_RESULT : Fld := ⟨DOM_MWR_CTL, 2, 0⟩
end R

def mapDOM : List RSpec := [
  ⟨0x0, 4, 1, [⟨9, 9, .ro, 0x0⟩, ⟨8, 8, .ro, 0x0⟩, ⟨6, 0, .rw, 0x0⟩]⟩,
  ⟨0x4, 4, 1, [⟨31, 0, .ro, 0x0⟩]⟩,
  ⟨0x8, 4, 1, [⟨31, 0, .ro, 0x0⟩]⟩,
  ⟨0xC, 4, 1, [⟨19, 0, .ro, 0x0⟩]⟩,
  ⟨0x10, 4, 1, [⟨31, 31, .w1c, 0x0⟩, ⟨16, 16, .ro, 0x0⟩, ⟨15, 8, .ro, 0x0⟩, ⟨7, 6, .ro, 0x0⟩, ⟨5, 0, .ro, 0x0⟩]⟩,
  ⟨0x100, 4, 64, [⟨7, 0, .rw, 0x0⟩]⟩,
  ⟨0x200, 4, 16, [⟨7, 0, .rw, 0x0⟩]⟩,
  ⟨0x240, 4, 32, [⟨7, 0, .rw, 0x0⟩]⟩,
  ⟨0x2C0, 4, 32, [⟨7, 0, .rw, 0x0⟩]⟩,
  ⟨0x340, 4, 16, [⟨7, 0, .rw, 0x0⟩]⟩,
  ⟨0x7000, 4, 1, [⟨7, 4, .ro, 0x0⟩, ⟨2, 2, .ro, 0x0⟩, ⟨1, 0, .ro, 0x0⟩]⟩,
  ⟨0x7004, 4, 1, [⟨31, 31, .ro, 0x0⟩, ⟨11, 8, .ro, 0x0⟩, ⟨6, 0, .ro, 0x0⟩]⟩,
  ⟨0x7008, 4, 1, [⟨0, 0, .w1s, 0x0⟩]⟩,
  ⟨0x700C, 4, 1, [⟨31, 31, .w1s, 0x0⟩, ⟨30, 30, .rw, 0x0⟩, ⟨26, 24, .ro, 0x0⟩, ⟨9, 8, .rw, 0x0⟩, ⟨5, 0, .rw, 0x0⟩]⟩,
  ⟨0x7010, 4, 1, [⟨23, 2, .rw, 0x0⟩]⟩,
  ⟨0x7014, 4, 1, [⟨21, 2, .rw, 0x0⟩]⟩,
  ⟨0x7018, 4, 1, [⟨20, 0, .rw, 0x0⟩]⟩,
  ⟨0x701C, 4, 1, [⟨31, 31, .w1s, 0x0⟩, ⟨2, 0, .ro, 0x0⟩]⟩]

/-! ## WIN (spec/19_boot_hosts_domains.md, R485) -/
namespace R
abbrev WIN_BASE_LO_W (n i : Nat) : Nat := 0x103A8080 + 0x80 * n + 0x10 * i
abbrev WIN_BASE_LO_BASE (n i : Nat) : Fld := ⟨WIN_BASE_LO_W n i, 31, 12⟩
abbrev WIN_BASE_HI (n i : Nat) : Nat := 0x103A8084 + 0x80 * n + 0x10 * i
abbrev WIN_BASE_HI_EN (n i : Nat) : Fld := ⟨WIN_BASE_HI n i, 31, 31⟩
abbrev WIN_BASE_HI_R (n i : Nat) : Fld := ⟨WIN_BASE_HI n i, 30, 30⟩
abbrev WIN_BASE_HI_W (n i : Nat) : Fld := ⟨WIN_BASE_HI n i, 29, 29⟩
abbrev WIN_BASE_HI_X (n i : Nat) : Fld := ⟨WIN_BASE_HI n i, 28, 28⟩
abbrev WIN_BASE_HI_BASE (n i : Nat) : Fld := ⟨WIN_BASE_HI n i, 19, 0⟩
abbrev WIN_LIMIT_LO_W (n i : Nat) : Nat := 0x103A8088 + 0x80 * n + 0x10 * i
abbrev WIN_LIMIT_LO_LIMIT (n i : Nat) : Fld := ⟨WIN_LIMIT_LO_W n i, 31, 12⟩
abbrev WIN_LIMIT_HI_W (n i : Nat) : Nat := 0x103A808C + 0x80 * n + 0x10 * i
abbrev WIN_LIMIT_HI_LIMIT (n i : Nat) : Fld := ⟨WIN_LIMIT_HI_W n i, 19, 0⟩
end R

def mapWIN : List RSpec := [
  ⟨0x0, 16, 8, [⟨31, 12, .rw, 0x0⟩]⟩,
  ⟨0x4, 16, 8, [⟨31, 31, .rw, 0x0⟩, ⟨30, 30, .rw, 0x0⟩, ⟨29, 29, .rw, 0x0⟩, ⟨28, 28, .rw, 0x0⟩, ⟨19, 0, .rw, 0x0⟩]⟩,
  ⟨0x8, 16, 8, [⟨31, 12, .rw, 0x0⟩]⟩,
  ⟨0xC, 16, 8, [⟨19, 0, .rw, 0x0⟩]⟩]

/-! ## SNP (spec/19_boot_hosts_domains.md, R487) -/
namespace R
abbrev SNP_CTRL : Nat := 0x103B0000
abbrev SNP_CTRL_SWAPNOW : Fld := ⟨SNP_CTRL, 31, 31⟩
abbrev SNP_CTRL_DOM : Fld := ⟨SNP_CTRL, 15, 8⟩
abbrev SNP_CTRL_AXFILL : Fld := ⟨SNP_CTRL, 1, 1⟩
abbrev SNP_CTRL_EN : Fld := ⟨SNP_CTRL, 0, 0⟩
abbrev SNP_STAT : Nat := 0x103B0004
abbrev SNP_STAT_MBFULL : Fld := ⟨SNP_STAT, 2, 2⟩
abbrev SNP_STAT_OVR : Fld := ⟨SNP_STAT, 1, 1⟩
abbrev SNP_STAT_COPY : Fld := ⟨SNP_STAT, 0, 0⟩
abbrev SNP_SRC_W : Nat := 0x103B0008
abbrev SNP_SRC_OFS : Fld := ⟨SNP_SRC_W, 23, 2⟩
abbrev SNP_LEN_W : Nat := 0x103B000C
abbrev SNP_LEN_LEN : Fld := ⟨SNP_LEN_W, 15, 0⟩
abbrev SNP_LASTCYC_W : Nat := 0x103B0010
abbrev SNP_LASTCYC : Fld := ⟨SNP_LASTCYC_W, 31, 0⟩
abbrev SNP_LASTSTAMP_W : Nat := 0x103B0014
abbrev SNP_LASTSTAMP : Fld := ⟨SNP_LASTSTAMP_W, 31, 0⟩
abbrev SNP_MBX : Nat := 0x103B0020
abbrev SNP_MBX_ACK : Fld := ⟨SNP_MBX, 31, 31⟩
abbrev SNP_MBX_DBSEQ : Fld := ⟨SNP_MBX, 15, 0⟩
abbrev SNP_MB_DROP_W : Nat := 0x103B0024
abbrev SNP_MB_DROP : Fld := ⟨SNP_MB_DROP_W, 31, 0⟩
abbrev SNP_MBOX_W (i : Nat) : Nat := 0x103B1000 + 0x4 * i
abbrev SNP_MBOX (i : Nat) : Fld := ⟨SNP_MBOX_W i, 31, 0⟩
end R

def mapSNP : List RSpec := [
  ⟨0x0, 4, 1, [⟨31, 31, .w1s, 0x0⟩, ⟨15, 8, .rw, 0x0⟩, ⟨1, 1, .rw, 0x0⟩, ⟨0, 0, .rw, 0x0⟩]⟩,
  ⟨0x4, 4, 1, [⟨2, 2, .ro, 0x0⟩, ⟨1, 1, .rsk, 0x0⟩, ⟨0, 0, .ro, 0x0⟩]⟩,
  ⟨0x8, 4, 1, [⟨23, 2, .rw, 0x0⟩]⟩,
  ⟨0xC, 4, 1, [⟨15, 0, .rw, 0x0⟩]⟩,
  ⟨0x10, 4, 1, [⟨31, 0, .ro, 0x0⟩]⟩,
  ⟨0x14, 4, 1, [⟨31, 0, .ro, 0x0⟩]⟩,
  ⟨0x20, 4, 1, [⟨31, 31, .w1s, 0x0⟩, ⟨15, 0, .ro, 0x0⟩]⟩,
  ⟨0x24, 4, 1, [⟨31, 0, .ro, 0x0⟩]⟩,
  ⟨0x1000, 4, 1024, [⟨31, 0, .ro, 0x0⟩]⟩]

/-! ## PCIE (spec/19_boot_hosts_domains.md, R486) -/
namespace R
abbrev PCIE_CTRL : Nat := 0x103C0000
abbrev PCIE_CTRL_NUMVF : Fld := ⟨PCIE_CTRL, 7, 1⟩
abbrev PCIE_CTRL_LINKEN : Fld := ⟨PCIE_CTRL, 0, 0⟩
abbrev PCIE_STAT : Nat := 0x103C0004
abbrev PCIE_STAT_BME : Fld := ⟨PCIE_STAT, 7, 7⟩
abbrev PCIE_STAT_WIDTH : Fld := ⟨PCIE_STAT, 6, 4⟩
abbrev PCIE_STAT_GEN : Fld := ⟨PCIE_STAT, 3, 1⟩
abbrev PCIE_STAT_LINKUP : Fld := ⟨PCIE_STAT, 0, 0⟩
abbrev PCIE_ID : Nat := 0x103C0008
abbrev PCIE_ID_DID : Fld := ⟨PCIE_ID, 31, 16⟩
abbrev PCIE_ID_VID : Fld := ⟨PCIE_ID, 15, 0⟩
abbrev PCIE_FN_CFG (i : Nat) : Nat := 0x103C0100 + 0x10 * i
abbrev PCIE_FN_CFG_IN_EN (i : Nat) : Fld := ⟨PCIE_FN_CFG i, 31, 31⟩
abbrev PCIE_FN_CFG_DBTAGEN (i : Nat) : Fld := ⟨PCIE_FN_CFG i, 30, 30⟩
abbrev PCIE_FN_CFG_FDOM (i : Nat) : Fld := ⟨PCIE_FN_CFG i, 23, 16⟩
abbrev PCIE_FN_CFG_BAR2SZ (i : Nat) : Fld := ⟨PCIE_FN_CFG i, 4, 0⟩
abbrev PCIE_FN_BASE_LO_W (i : Nat) : Nat := 0x103C0104 + 0x10 * i
abbrev PCIE_FN_BASE_LO_BASE (i : Nat) : Fld := ⟨PCIE_FN_BASE_LO_W i, 31, 20⟩
abbrev PCIE_FN_BASE_HI_W (i : Nat) : Nat := 0x103C0108 + 0x10 * i
abbrev PCIE_FN_BASE_HI_BASE (i : Nat) : Fld := ⟨PCIE_FN_BASE_HI_W i, 19, 0⟩
abbrev PCIE_FN_DB_TAG_W (i : Nat) : Nat := 0x103C010C + 0x10 * i
abbrev PCIE_FN_DB_TAG_TAG (i : Nat) : Fld := ⟨PCIE_FN_DB_TAG_W i, 13, 0⟩
abbrev PCIE_MSIX_SEND_W (i : Nat) : Nat := 0x103C0500 + 0x4 * i
abbrev PCIE_MSIX_SEND_VEC (i : Nat) : Fld := ⟨PCIE_MSIX_SEND_W i, 2, 0⟩
abbrev PCIE_CH_DOM_W (i : Nat) : Nat := 0x103C1000 + 0x20 * i
abbrev PCIE_CH_DOM_DOM (i : Nat) : Fld := ⟨PCIE_CH_DOM_W i, 7, 0⟩
abbrev PCIE_CH_HEAD_LO_W (i : Nat) : Nat := 0x103C1004 + 0x20 * i
abbrev PCIE_CH_HEAD_LO_HEAD (i : Nat) : Fld := ⟨PCIE_CH_HEAD_LO_W i, 31, 5⟩
abbrev PCIE_CH_HEAD_HI_W (i : Nat) : Nat := 0x103C1008 + 0x20 * i
abbrev PCIE_CH_HEAD_HI_HEAD (i : Nat) : Fld := ⟨PCIE_CH_HEAD_HI_W i, 19, 0⟩
abbrev PCIE_CH_CTRL (i : Nat) : Nat := 0x103C100C + 0x20 * i
abbrev PCIE_CH_CTRL_STOP (i : Nat) : Fld := ⟨PCIE_CH_CTRL i, 1, 1⟩
abbrev PCIE_CH_CTRL_GO (i : Nat) : Fld := ⟨PCIE_CH_CTRL i, 0, 0⟩
abbrev PCIE_CH_STAT (i : Nat) : Nat := 0x103C1010 + 0x20 * i
abbrev PCIE_CH_STAT_BUSY (i : Nat) : Fld := ⟨PCIE_CH_STAT i, 31, 31⟩
abbrev PCIE_CH_STAT_DONE (i : Nat) : Fld := ⟨PCIE_CH_STAT i, 30, 30⟩
abbrev PCIE_CH_STAT_FAULT (i : Nat) : Fld := ⟨PCIE_CH_STAT i, 29, 29⟩
abbrev PCIE_CH_STAT_REASON (i : Nat) : Fld := ⟨PCIE_CH_STAT i, 3, 0⟩
abbrev PCIE_CH_FDESC_W (i : Nat) : Nat := 0x103C1014 + 0x20 * i
abbrev PCIE_CH_FDESC_ADDR (i : Nat) : Fld := ⟨PCIE_CH_FDESC_W i, 31, 5⟩
abbrev PCIE_ETH_CTRL : Nat := 0x103C2000
abbrev PCIE_ETH_CTRL_DOM : Fld := ⟨PCIE_ETH_CTRL, 15, 8⟩
abbrev PCIE_ETH_CTRL_EN : Fld := ⟨PCIE_ETH_CTRL, 4, 4⟩
abbrev PCIE_ETH_CTRL_SPEED : Fld := ⟨PCIE_ETH_CTRL, 1, 0⟩
abbrev PCIE_ETH_STAT : Nat := 0x103C2004
abbrev PCIE_ETH_STAT_QFAULT : Fld := ⟨PCIE_ETH_STAT, 5, 2⟩
abbrev PCIE_ETH_STAT_SPEED : Fld := ⟨PCIE_ETH_STAT, 1, 0⟩
abbrev PCIE_TXQ_BASE_LO_W (i : Nat) : Nat := 0x103C2100 + 0x20 * i
abbrev PCIE_TXQ_BASE_LO (i : Nat) : Fld := ⟨PCIE_TXQ_BASE_LO_W i, 31, 4⟩
abbrev PCIE_TXQ_BASE_HI_W (i : Nat) : Nat := 0x103C2104 + 0x20 * i
abbrev PCIE_TXQ_BASE_HI (i : Nat) : Fld := ⟨PCIE_TXQ_BASE_HI_W i, 19, 0⟩
abbrev PCIE_TXQ_SIZE_W (i : Nat) : Nat := 0x103C2108 + 0x20 * i
abbrev PCIE_TXQ_SIZE (i : Nat) : Fld := ⟨PCIE_TXQ_SIZE_W i, 12, 0⟩
abbrev PCIE_TXQ_TAIL_W (i : Nat) : Nat := 0x103C210C + 0x20 * i
abbrev PCIE_TXQ_TAIL (i : Nat) : Fld := ⟨PCIE_TXQ_TAIL_W i, 12, 0⟩
abbrev PCIE_TXQ_HEAD_W (i : Nat) : Nat := 0x103C2110 + 0x20 * i
abbrev PCIE_TXQ_HEAD (i : Nat) : Fld := ⟨PCIE_TXQ_HEAD_W i, 12, 0⟩
abbrev PCIE_RXQ_BASE_LO_W (i : Nat) : Nat := 0x103C2200 + 0x20 * i
abbrev PCIE_RXQ_BASE_LO (i : Nat) : Fld := ⟨PCIE_RXQ_BASE_LO_W i, 31, 4⟩
abbrev PCIE_RXQ_BASE_HI_W (i : Nat) : Nat := 0x103C2204 + 0x20 * i
abbrev PCIE_RXQ_BASE_HI (i : Nat) : Fld := ⟨PCIE_RXQ_BASE_HI_W i, 19, 0⟩
abbrev PCIE_RXQ_SIZE_W (i : Nat) : Nat := 0x103C2208 + 0x20 * i
abbrev PCIE_RXQ_SIZE (i : Nat) : Fld := ⟨PCIE_RXQ_SIZE_W i, 12, 0⟩
abbrev PCIE_RXQ_TAIL_W (i : Nat) : Nat := 0x103C220C + 0x20 * i
abbrev PCIE_RXQ_TAIL (i : Nat) : Fld := ⟨PCIE_RXQ_TAIL_W i, 12, 0⟩
abbrev PCIE_RXQ_HEAD_W (i : Nat) : Nat := 0x103C2210 + 0x20 * i
abbrev PCIE_RXQ_HEAD (i : Nat) : Fld := ⟨PCIE_RXQ_HEAD_W i, 12, 0⟩
abbrev PCIE_MACF_LO_W (i : Nat) : Nat := 0x103C2300 + 0x8 * i
abbrev PCIE_MACF_LO_LO (i : Nat) : Fld := ⟨PCIE_MACF_LO_W i, 31, 0⟩
abbrev PCIE_MACF_HI (i : Nat) : Nat := 0x103C2304 + 0x8 * i
abbrev PCIE_MACF_HI_EN (i : Nat) : Fld := ⟨PCIE_MACF_HI i, 31, 31⟩
abbrev PCIE_MACF_HI_HI (i : Nat) : Fld := ⟨PCIE_MACF_HI i, 15, 0⟩
abbrev PCIE_MCHASH_LO_W : Nat := 0x103C2380
abbrev PCIE_MCHASH_LO_HASH : Fld := ⟨PCIE_MCHASH_LO_W, 31, 0⟩
abbrev PCIE_MCHASH_HI_W : Nat := 0x103C2384
abbrev PCIE_MCHASH_HI_HASH : Fld := ⟨PCIE_MCHASH_HI_W, 31, 0⟩
abbrev PCIE_RX_OK_W : Nat := 0x103C2400
abbrev PCIE_RX_OK : Fld := ⟨PCIE_RX_OK_W, 31, 0⟩
abbrev PCIE_RX_DROP_W : Nat := 0x103C2404
abbrev PCIE_RX_DROP : Fld := ⟨PCIE_RX_DROP_W, 31, 0⟩
abbrev PCIE_RX_FCS_W : Nat := 0x103C2408
abbrev PCIE_RX_FCS : Fld := ⟨PCIE_RX_FCS_W, 31, 0⟩
abbrev PCIE_PAUSE_DROP_W : Nat := 0x103C240C
abbrev PCIE_PAUSE_DROP : Fld := ⟨PCIE_PAUSE_DROP_W, 31, 0⟩
abbrev PCIE_TX_OK_W : Nat := 0x103C2410
abbrev PCIE_TX_OK : Fld := ⟨PCIE_TX_OK_W, 31, 0⟩
end R

def mapPCIE0c : List RSpec := [
  ⟨0x0, 4, 1, [⟨7, 1, .rw, 0x0⟩, ⟨0, 0, .rw, 0x0⟩]⟩,
  ⟨0x4, 4, 1, [⟨7, 7, .ro, 0x0⟩, ⟨6, 4, .ro, 0x0⟩, ⟨3, 1, .ro, 0x0⟩, ⟨0, 0, .ro, 0x0⟩]⟩,
  ⟨0x8, 4, 1, [⟨31, 16, .rw, 0x0⟩, ⟨15, 0, .rw, 0x0⟩]⟩,
  ⟨0x100, 16, 64, [⟨31, 31, .rw, 0x0⟩, ⟨30, 30, .rw, 0x0⟩, ⟨23, 16, .rw, 0x0⟩, ⟨4, 0, .rw, 0x18⟩]⟩,
  ⟨0x104, 16, 64, [⟨31, 20, .rw, 0x0⟩]⟩,
  ⟨0x108, 16, 64, [⟨19, 0, .rw, 0x0⟩]⟩,
  ⟨0x10C, 16, 64, [⟨13, 0, .rw, 0x0⟩]⟩,
  ⟨0x500, 4, 64, [⟨2, 0, .wo, 0x0⟩]⟩,
  ⟨0x1000, 32, 8, [⟨7, 0, .rw, 0x0⟩]⟩,
  ⟨0x1004, 32, 8, [⟨31, 5, .rw, 0x0⟩]⟩,
  ⟨0x1008, 32, 8, [⟨19, 0, .rw, 0x0⟩]⟩,
  ⟨0x100C, 32, 8, [⟨1, 1, .w1s, 0x0⟩, ⟨0, 0, .w1s, 0x0⟩]⟩,
  ⟨0x1010, 32, 8, [⟨31, 31, .ro, 0x0⟩, ⟨30, 30, .rsk, 0x0⟩, ⟨29, 29, .rsk, 0x0⟩, ⟨3, 0, .ro, 0x0⟩]⟩,
  ⟨0x1014, 32, 8, [⟨31, 5, .ro, 0x0⟩]⟩,
  ⟨0x2000, 4, 1, [⟨15, 8, .rw, 0x0⟩, ⟨4, 4, .rw, 0x0⟩, ⟨1, 0, .rw, 0x3⟩]⟩,
  ⟨0x2004, 4, 1, [⟨5, 2, .w1c, 0x0⟩, ⟨1, 0, .ro, 0x0⟩]⟩,
  ⟨0x2100, 32, 2, [⟨31, 4, .rw, 0x0⟩]⟩,
  ⟨0x2104, 32, 2, [⟨19, 0, .rw, 0x0⟩]⟩,
  ⟨0x2108, 32, 2, [⟨12, 0, .rw, 0x0⟩]⟩,
  ⟨0x210C, 32, 2, [⟨12, 0, .rw, 0x0⟩]⟩,
  ⟨0x2110, 32, 2, [⟨12, 0, .ro, 0x0⟩]⟩,
  ⟨0x2200, 32, 2, [⟨31, 4, .rw, 0x0⟩]⟩,
  ⟨0x2204, 32, 2, [⟨19, 0, .rw, 0x0⟩]⟩,
  ⟨0x2208, 32, 2, [⟨12, 0, .rw, 0x0⟩]⟩]
def mapPCIE1c : List RSpec := [
  ⟨0x220C, 32, 2, [⟨12, 0, .rw, 0x0⟩]⟩,
  ⟨0x2210, 32, 2, [⟨12, 0, .ro, 0x0⟩]⟩,
  ⟨0x2300, 8, 16, [⟨31, 0, .rw, 0x0⟩]⟩,
  ⟨0x2304, 8, 16, [⟨31, 31, .rw, 0x0⟩, ⟨15, 0, .rw, 0x0⟩]⟩,
  ⟨0x2380, 4, 1, [⟨31, 0, .rw, 0x0⟩]⟩,
  ⟨0x2384, 4, 1, [⟨31, 0, .rw, 0x0⟩]⟩,
  ⟨0x2400, 4, 1, [⟨31, 0, .ro, 0x0⟩]⟩,
  ⟨0x2404, 4, 1, [⟨31, 0, .ro, 0x0⟩]⟩,
  ⟨0x2408, 4, 1, [⟨31, 0, .ro, 0x0⟩]⟩,
  ⟨0x240C, 4, 1, [⟨31, 0, .ro, 0x0⟩]⟩,
  ⟨0x2410, 4, 1, [⟨31, 0, .ro, 0x0⟩]⟩]

/-- Every register block of "Physical address map" (R26) that the spec gives registers to. -/
def blocks : List BSpec := [
  ⟨0x10400000, 0x10000, 1, mapID⟩,
  ⟨0x10120000, 0x4000, 4, mapRING0c ++ mapRING1c⟩,
  ⟨0x10000000, 0x1000, 256, mapAX0c ++ mapAX1c ++ mapAX2c ++ mapAX3c ++ mapAX4c⟩,
  ⟨0x10300000, 0x10000, 1, mapKE⟩,
  ⟨0x10301000, 0x40, 64, mapK⟩,
  ⟨0x10302000, 0x20, 64, mapKLATE⟩,
  ⟨0x10302800, 0x20, 64, mapKMISS⟩,
  ⟨0x10310000, 0x10000, 1, mapTB⟩,
  ⟨0x10310100, 0x40, 2, mapTD⟩,
  ⟨0x10310200, 0x40, 2, mapPTP⟩,
  ⟨0x10320000, 0x10, 32, mapTEO⟩,
  ⟨0x10320400, 0x20, 32, mapTCI⟩,
  ⟨0x10200000, 0x10000, 1, mapDSP⟩,
  ⟨0x10210000, 0x40, 1024, mapST⟩,
  ⟨0x10220000, 0x8, 16384, mapTAG⟩,
  ⟨0x10240000, 0x40, 64, mapFLOW⟩,
  ⟨0x10100000, 0x100, 64, mapPC0c ++ mapPC1c⟩,
  ⟨0x10110000, 0x40, 16, mapHG⟩,
  ⟨0x10340000, 0x10000, 1, mapBEL⟩,
  ⟨0x10350000, 0x10000, 1, mapDX⟩,
  ⟨0x10360000, 0x10000, 1, mapLL⟩,
  ⟨0x10368000, 0x80, 256, mapLW⟩,
  ⟨0x10370000, 0x10000, 1, mapFID⟩,
  ⟨0x10370100, 0x20, 8, mapFS⟩,
  ⟨0x10380000, 0x10000, 1, mapPMU0c ++ mapPMU1c⟩,
  ⟨0x10380400, 0x40, 32, mapBUS⟩,
  ⟨0x10381000, 0x10000, 1, mapAON⟩,
  ⟨0x10390000, 0x10000, 1, mapPIN⟩,
  ⟨0x103A0000, 0x10000, 1, mapDOM⟩,
  ⟨0x103A8080, 0x80, 255, mapWIN⟩,
  ⟨0x103B0000, 0x10000, 1, mapSNP⟩,
  ⟨0x103C0000, 0x10000, 1, mapPCIE0c ++ mapPCIE1c⟩]

/-- The register of a block at byte offset `off` of an instance, if the tables define one there (R7: others are reserved). -/
def findReg (off : Nat) : List RSpec → Option (List FSpec)
  | [] => none
  | r :: rs =>
    if r.off ≤ off && (off - r.off) % r.str == 0 && (off - r.off) / r.str < r.cnt then some r.fields else findReg off rs

/-- The fields of the register at a physical address, if the tables define one there. -/
def findSpec (a : Nat) : List BSpec → Option (List FSpec)
  | [] => none
  | b :: bs =>
    if b.base ≤ a && a < b.base + b.str * b.cnt then
      match findReg ((a - b.base) % b.str) b.regs with
      | some fs => some fs
      | none => findSpec a bs
    else findSpec a bs

/-- The fields of the register at address `a`. -/
def specOf (a : Nat) : Option (List FSpec) := findSpec a blocks

/-- The word a register holds after reset: each field at the value of its Reset column (R8). -/
def resetWord (a : Nat) : Nat :=
  match specOf a with
  | none => 0
  | some fs => fs.foldl (fun x f => x + f.rst * 2 ^ f.lo) 0

/-- The reset word as the store holds it. -/
def regDflt (a : Nat) : Word := BitVec.ofNat 32 (resetWord a)

end Sys2Proof.Machine
end

