-- ==== Sys2Proof/Machine/SMap.lean ====
section
/-! DEFINITION. Sparse maps: a list of key and value pairs in ONE canonical form, keys strictly rising and no value equal
to what an unlisted key reads as. Memory, the register stores and every indexed family of units use it. -/

namespace Sys2Proof.Machine
namespace SMap

variable {α : Type}

/-- The value at key `k`; an unlisted key reads as `d k`. -/
def get (d : Nat → α) : List (Nat × α) → Nat → α
  | [], k => d k
  | (j, v) :: m, k => if k = j then v else get d m k

/-- The map with key `k` set to `v`. Setting what an unlisted key reads as removes the entry. -/
def put [DecidableEq α] (d : Nat → α) : List (Nat × α) → Nat → α → List (Nat × α)
  | [], k, v => if v = d k then [] else [(k, v)]
  | (j, w) :: m, k, v =>
    if k < j then (if v = d k then (j, w) :: m else (k, v) :: (j, w) :: m)
    else if k = j then (if v = d k then m else (k, v) :: m)
    else (j, w) :: put d m k v

/-- Every key of the map is above `lo`. -/
def above (lo : Nat) : List (Nat × α) → Bool
  | [] => true
  | (j, _) :: _ => lo < j

/-- The canonical form: keys strictly rising, no entry equal to what an unlisted key reads as. -/
def wf [DecidableEq α] (d : Nat → α) : List (Nat × α) → Bool
  | [] => true
  | (j, v) :: m => above j m && (v != d j) && wf d m

end SMap
end Sys2Proof.Machine
end

