-- ==== Sys2Proof/Machine/State.lean ====
section
/-! DEFINITION. The state of the block: the register stores, memory, the state the spec gives each unit beside its
registers, and the queue of commands that wait. Plain data throughout: sparse maps (Sys2Proof.Machine.SMap) with a default
per family stand for indexed units. -/

namespace Sys2Proof.Machine

/-- The answer to the last access a command made: nothing, done, data read, or an access error (R19, R26, R29, R469). -/
inductive Resp where
  | none
  | ok
  | data (v : Nat)
  | accessError
  /-- A read that is not performed returns this word with an access error: the OFF response, or for want of rights (R19, R469). -/
  | offRead (v : Nat)
  deriving DecidableEq, Repr

/-! ## Time base and timed I/O (spec/09_time_base.md, spec/01_architecture.md) -/

/-- One time domain (R223): `phase` is the counter in units of 1/(256·10^12) ns, so nanoseconds and fraction are exact (DEDUCED:
finer than the 32-bit fraction, notes/assumptions/2036.md);
`laps` counts its wraps (R230); `base` and `slew` are the two terms of the effective rate in 1/256000 ppb (R227); `resid`
the offset still to remove and `pend` a step that replicas take at the next beacon, both in units of `phase` (R226); the epoch
in effect (R231); the good frames seen in a row under SRC = RING and, of the latest of them, its ring time and the TIM clock
it came at, from which the rate is steered (R224). -/
structure DomClk where
  phase : Nat := 0
  laps : Nat := 0
  base : Int := 0
  slew : Int := 0
  resid : Int := 0
  pend : Int := 0
  epochRef : Nat := 0
  epochNs : Nat := 0
  epochSec : Nat := 0
  goodFrames : Nat := 0
  ringRef : Option (Nat × Nat) := none
  deriving DecidableEq, Repr

/-- A replica of the time base in an island (R21, R22). -/
structure Replica where
  locked : Bool := false
  good : Nat := 0
  miss : Nat := 0
  deriving DecidableEq, Repr

/-- An action that waits for its target stamp (R24). -/
structure TAction where
  isl : Nat
  out : Nat
  dom : Nat
  tAct : Nat
  value : Nat
  deriving DecidableEq, Repr

/-- A timed event output (R238): its entries, oldest first; its pin; the clear of a pulse in progress, with its domain. -/
structure TeoQ where
  queue : List (Nat × Nat) := []
  pin : Bool := false
  pulseEnd : Option (Nat × Nat) := none
  deriving DecidableEq, Repr

/-- One capture: stamp, level, sequence count (R239). -/
structure Capture where
  stamp : Nat
  level : Bool
  seq : Nat
  deriving DecidableEq, Repr

/-- A capture input (R239). -/
structure TciF where
  fifo : List Capture := []
  seq : Nat := 0
  deriving DecidableEq, Repr

/-- One entry of a PTP stamp FIFO (R235): the stamp in ns, its sixteenths, sequenceId and messageType. -/
structure PtpStamp where
  stamp : Nat
  frac : Nat
  seqId : Nat
  msgType : Nat
  deriving DecidableEq, Repr

/-- The time base, the islands' replicas, the crossings and the timed I/O. -/
structure Tim where
  /-- TIM clocks of 1 ns since reset. -/
  clk : Nat := 0
  domA : DomClk := {}
  domB : DomClk := {}
  /-- Replicas by island (R21). -/
  reps : List (Nat × Replica) := []
  /-- Waiting timed actions, in arrival order (R24, R25). -/
  actions : List TAction := []
  /-- Late-action counters by island (R24). -/
  lateCnt : List (Nat × Nat) := []
  /-- Levels of the timed outputs: key island × 2^32 + output. -/
  outs : List (Nat × Nat) := []
  /-- Crossing channels marked failed (R20). -/
  failed : List (Nat × Nat) := []
  /-- The target of a switch-over in progress (R232). -/
  swTarget : Option Nat := none
  teo : List (Nat × TeoQ) := []
  tci : List (Nat × TciF) := []
  ptpRx : List (Nat × List PtpStamp) := []
  ptpTx : List (Nat × List PtpStamp) := []
  /-- The cycle number N in progress (R79). -/
  cyc : Nat := 0
  /-- CSTART(N) as the value of each domain at that instant (R79). -/
  cstartA : Nat := 0
  cstartB : Nat := 0
  /-- TCYC of the header a unit that sends on no ring follows (R80, R91). -/
  folTcyc : Option Nat := none
  deriving DecidableEq, Repr

/-! ## Logline and fids (spec/17_logline_and_fids.md) -/

/-- A staging entry or a latch (R416, R421, R422). -/
structure LEntry where
  src : Nat
  inj : Bool
  cls : Nat
  dom : Nat
  count : Nat
  tFirst : Nat
  tLast : Nat
  cyc : Nat
  rtc : Nat
  data : List Nat
  latched : Bool
  injwin : Bool
  deriving DecidableEq, Repr

/-- A read in progress: requested SEQ, and the window it serves (none: RD_SEQ). -/
structure LRead where
  seq : Nat
  win : Option Nat
  deriving DecidableEq, Repr

structure Logline where
  /-- The staging FIFO, oldest first (R421). -/
  fifo : List LEntry := []
  /-- The entry being committed (R417). -/
  committing : Option LEntry := none
  /-- Pending latches (R422). -/
  latches : List LEntry := []
  /-- T_ADM of each source, key 2 × SRC + INJ; `none` before its first admission (R422). -/
  tadm : List (Nat × Option Nat) := []
  /-- TIM clock of that admission, by the same key: a T_ADM long ago has let RLIM pass (R422). -/
  admClk : List (Nat × Nat) := []
  /-- Reads in progress, one for a window at most, in the order of their start (R425, R426). -/
  reads : List LRead := []
  /-- Erase in progress: the SEQ of ERASE_START, 0 until it is committed (R428). -/
  erase : Option Nat := none
  eraseAborted : Bool := false
  /-- Last gasp requested: its cause word (R424). -/
  lastGasp : Option Nat := none
  /-- The LASTGASP record has been committed. -/
  gaspDone : Bool := false
  /-- STATE before TCK (R427). -/
  tckFrom : Nat := 0
  deriving DecidableEq, Repr

/-- A fid slot's run state (R433). -/
structure FidSlot where
  running : Bool := false
  m : Nat := 0
  /-- N of the GO that started it. -/
  n : Nat := 0
  deriving DecidableEq, Repr

structure Fids where
  /-- Stage of the unlock sequence: the TIM clock of the first key (R432). -/
  unlockAt : Option Nat := none
  /-- The TIM clock at which the block disarms (R432). -/
  armedUntil : Option Nat := none
  slots : List (Nat × FidSlot) := []
  /-- Firings that wait for their detector's next evaluation: source, slot and stamp (R431). -/
  pend : List (Nat × Nat × Nat) := []
  /-- The source being fired while its detection acts (R434). -/
  firing : Option Nat := none
  /-- The stamp of the latest firing (R434). -/
  lastFire : Option Nat := none
  /-- Its TIM clock: a window long ago is over. -/
  fireClk : Nat := 0
  /-- The WFAIL fid waits for the next copy written (R431). -/
  wfail : Bool := false
  deriving DecidableEq, Repr

/-! ## Strands, cores and the dispatcher (spec/10 to spec/12) -/

/-- What a stack fault or a second stack fault left to be repeated at the next placement (R291). -/
inductive Attempt where
  | entry (vec epc ebta ecause einfo eprog : Nat)
  | eret
  deriving DecidableEq, Repr

/-- The register state of a strand (R241, R271): the default is the creation value. `ds`, `tk`, `bta` are the delay-slot
instructions that remain, whether their branch is taken, and its target (R278). -/
structure Ctx where
  pc : Nat := 0
  g : List (Nat × Word) := []
  p : BitVec 8 := 1
  q : List (Nat × BitVec 128) := []
  lc0 : Nat := 0
  lc1 : Nat := 0
  lsa0 : Nat := 0
  lsa1 : Nat := 0
  lea0 : Nat := 0
  lea1 : Nat := 0
  sld : Nat := 0
  rot0 : Bool := false
  rot1 : Bool := false
  lsusp : Bool := false
  scl : List (Nat × Word) := []
  prog : Nat := 0
  ssw : Word := 0x40000000
  seg : List (Nat × Nat) := []
  vbase : Nat := 0
  swlo : Nat := 0
  swhi : Nat := 0
  holdoff : Nat := 0
  ds : Nat := 0
  tk : Bool := false
  bta : Nat := 0
  /-- An ACCESS_ASYNC that is due: first address, and whether more were merged (R276). -/
  async : Option (Nat × Bool) := none
  attempt : Option Attempt := none
  deriving DecidableEq, Repr

/-- A shadow save record (R290): the eight words, and the parked strand. -/
structure Shadow where
  words : List Nat
  strand : Nat
  deriving DecidableEq, Repr

/-- One strand, beside its ST[s] registers. -/
structure Strand where
  /-- Ready stamp (R293). -/
  ready : Nat := 0
  /-- The save area: the state at the last suspension (R296). -/
  saved : Ctx := {}
  /-- Tags emptied by TAGRD during the placement, with the values returned (R311). -/
  tagrd : List (Nat × Nat) := []
  /-- Most recent EINFO per interrupt (R281). -/
  einfo : List (Nat × Nat) := []
  /-- Parked under R292: no shadow record on a core. -/
  noShadow : Bool := false
  /-- A shadow record kept in the parked strand's state (R292). -/
  kept : Option Shadow := none
  /-- Stamp of the last placement (R305). -/
  placed : Nat := 0
  /-- AFFWIN of the affinity window of the ready stamp that has ended (R302). -/
  affSeen : Option Nat := none
  /-- Posted-store errors not yet delivered: addresses, oldest first (R276, R306). -/
  errs : List Nat := []
  /-- Posted stores of the placement not yet known to be accepted (R306). -/
  posted : Bool := false
  deriving DecidableEq, Repr

/-- Where an instruction that stalls stood: an access that is abandoned leaves it to be run again (R20, R279). -/
structure Back where
  pc : Nat := 0
  ds : Nat := 0
  tk : Bool := false
  bta : Nat := 0
  lc0 : Nat := 0
  lc1 : Nat := 0
  sld : Nat := 0
  deriving DecidableEq, Repr

/-- What a stalled access writes when its data arrives (R269, R270): g registers, physical q registers; the address of the
other word of its pair, which has issued with it and is not stalled (R267); the island and the address it waits for, and
where its instruction stands. -/
structure Stall where
  gw : List (Nat × Word) := []
  qw : List (Nat × BitVec 128) := []
  pairAt : Option Nat := none
  far : Option (Nat × Nat) := none
  back : Back := {}
  deriving DecidableEq, Repr

/-- A q write that has issued: physical register, value, and the count of issued instructions at which it lands (R268). -/
structure QWrite where
  reg : Nat
  val : BitVec 128
  due : Nat
  deriving DecidableEq, Repr

/-- A translation cached in a TLB (R247): virtual page, page size in address bits, physical base, domain, global bit, and
the permission bits U X W RD of the entry. -/
structure Tlb where
  vpn : Nat
  shift : Nat
  pa : Nat
  dom : Nat
  glob : Bool
  u : Bool
  x : Bool
  w : Bool
  r : Bool
  dev : Bool
  deriving DecidableEq, Repr

/-- One core, beside its DSP.CORE[c] register. -/
structure Core where
  ctx : Ctx := {}
  /-- The placement on the core is detached (R311): its strand number and epoch. -/
  detached : Bool := false
  strand : Nat := 0
  epoch : Nat := 0
  /-- q writes issued and not landed, in issue order (R268), and the instructions issued. -/
  pendq : List QWrite := []
  issued : Nat := 0
  stall : Option Stall := none
  shadow : Option Shadow := none
  /-- Halted by a debugger, and halted by a second stack fault (R12, R292). -/
  dbgHalt : Bool := false
  sfHalt : Bool := false
  /-- The strand whose registers the free bank still holds (R302). -/
  bank : Option Nat := none
  /-- A prefetch runs: write-back and load not complete (R304). -/
  pfBusy : Bool := false
  /-- A suspension waits for the conditions of R283: 0 none, 1 preemption, 2 STOP. An offline request waits in OFFREQ. -/
  suspReq : Nat := 0
  tlb : List Tlb := []
  ttbrLo : Nat := 0
  ttbrHi : Nat := 0
  mmuctl : Nat := 0
  /-- An offline core whose island the PMU has reset since (R313). -/
  resetDone : Bool := false
  deriving DecidableEq, Repr

/-- A release on its way to the release unit: the posting strand, its core and epoch, the record address and bytes (R307). -/
structure RelMsg where
  strand : Nat
  epoch : Nat
  dom : Nat
  addr : Nat
  bytes : List Byte
  core : Nat := 63
  deriving DecidableEq, Repr

/-- An accepted release held by the release unit (R309, R310); for a SEQ record `axis` is `noAxis` and `tgt` its SEQ. -/
structure Held where
  flow : Nat
  axis : Nat
  tgt : Nat
  stamp : Nat
  xref : Int
  vref : Nat
  payload : List Nat
  succ : List Nat
  bytes : List Byte
  deriving DecidableEq, Repr

/-- The dispatcher and release unit beside their registers. -/
structure Disp where
  strands : List (Nat × Strand) := []
  cores : List (Nat × Core) := []
  /-- Releases posted and not yet arrived, oldest first (R265). -/
  posted : List RelMsg := []
  /-- Accepted releases held (R309). -/
  held : List Held := []
  /-- The debugger is attached (R252). -/
  debugger : Bool := false
  deriving DecidableEq, Repr

/-! ## Finil nodes and rings (spec/02_finil_ring.md) -/

/-- What a node holds of an axis's command: bridge on, ACTL, and the three words (R43). -/
structure AxCmd where
  on : Bool := false
  actl : Nat := 0
  w0 : Nat := 0
  w1 : Nat := 0
  w2 : Nat := 0
  deriving DecidableEq, Repr

/-- A shadow value a node holds for a knot (R211, R213). -/
structure NShadow where
  knot : Nat
  obj : Nat
  value : List Byte
  deriving DecidableEq, Repr

/-- A knot decision read from a frame header (R69, R71). -/
structure KDec where
  knot : Nat
  cyc : Nat
  rpt : Bool
  code : Nat
  deriving DecidableEq, Repr

/-- A node of a ring. The first group is the node's own equipment, which no ring traffic changes (its values are not in the
spec: notes/assumptions/30.md); the others are its ring state, which a node reset clears (R510). -/
structure NodeSt where
  vendor : Nat := 0
  product : Nat := 0
  revision : Nat := 0
  serial : Nat := 0
  nax : Nat := 1
  phash : Nat := 0
  trdy : Nat := 0
  speeds : Nat := 7
  splits : List Nat := [3, 3, 3, 3]
  posBits : List Nat := [32, 32, 32, 32]
  ifs : List Nat := [0x3F800000, 0x3F800000, 0x3F800000, 0x3F800000]
  safety : Bool := true
  conn : Nat := 0
  seed : Nat := 0
  room : Nat := 255
  busOk : Bool := true
  nerr : Nat := 0
  /-- OUI and PROTO held (R51). -/
  ouiProto : Option (Nat × Nat) := none
  addr : Nat := 0
  pos : Nat := 0
  dIn : Nat := 0
  dOut : Nat := 0
  pwmDiv : Nat := 1
  axcfg : List (Nat × Nat) := [(0, 2), (0, 2), (0, 2), (0, 2)]
  fcsErr : Nat := 0
  lenErr : Nat := 0
  lostCnt : Nat := 0
  discarded : Nat := 0
  linkIn : Bool := false
  linkOut : Bool := false
  speedIn : Nat := 0
  speedOut : Nat := 0
  slowOut : Bool := false
  loopIn : Bool := false
  loopOut : Bool := false
  healSeen : Bool := false
  /-- Cycles with a good frame, up to 64, and the latest of them (R55). -/
  goodCycles : Nat := 0
  lastGood : Option Nat := none
  locked : Bool := false
  /-- CSTART, TCYC, SPH and APH of the latest good frame (R56). -/
  cstart : Nat := 0
  tcyc : Nat := 0
  sph : Nat := 0
  aph : Nat := 0
  /-- The starting cycle has come (R72). -/
  started : Bool := false
  /-- Held downlink and its cycle (R50, R56). -/
  held : List Byte := []
  heldCyc : Option Nat := none
  lostRun : Nat := 0
  applied : List AxCmd := [{}, {}, {}, {}]
  everApplied : Bool := false
  /-- The last command applied, which a fallback does not change (R72). -/
  last : List AxCmd := [{}, {}, {}, {}]
  apply : Nat := 0
  /-- The bridges run on the node's own fallback (ASTAT.IN_FALLBACK). -/
  inFb : Bool := false
  /-- Ring time of the latest good frame in 1/16 ns, and the TIM clock at which it was formed (R55). -/
  tring : Option (Nat × Nat) := none
  /-- S(N) of the sample held and A(N) of the latest apply (R56). -/
  sampleAt : Nat := 0
  actAt : Nat := 0
  /-- The PWM carrier: a start of one of its periods, in ring time, and TCYC and PWM_DIV of its period (R56). -/
  car : Option (Nat × Nat × Nat) := none
  /-- Cycles of the node's ring time in which a good Finil frame arrived at the forward and at the reverse input (R75). -/
  fwdCycs : List Nat := []
  revCycs : List Nat := []
  knotMissed : Bool := false
  sample : List AxisSample := []
  lastMseq : Option Nat := none
  /-- The PARAM uplink (R45, R511). -/
  response : List Byte := []
  shadows : List NShadow := []
  sealed : List Nat := []
  announced : Option (Nat × Nat) := none
  dec : Option KDec := none
  /-- The knot last applied and its commit cycle. -/
  appliedKnot : Option (Nat × Nat) := none
  /-- A claim waits for its grant: the cycle it was made in (R67). -/
  claim : Option Nat := none
  /-- A grant naming this node: address and GCYC. -/
  grant : Option (Nat × Nat) := none
  /-- STO per axis, the SEQ of the last container accepted, its watchdog (R380). -/
  sto : Nat := 15
  seqLast : Option Nat := none
  deriving DecidableEq, Repr

/-- A mailbox request of the P9 to a node (R45): MOP, OBJ, data, and what waits for the answer: 0 nothing, 1 the node table
IDENT, 2 NAX, 3 PHASH, 4 LINKDLY at a grant, 5 ADDR or LINKDLY in CONFIG, 6 PHASH for ACCEPT, 7 LINKDLY of a heal, 8 + a
AXCAP of axis a, 64 + k a KNOT_PREP or 128 + k the KNOT_SEAL of knot slot k. -/
structure MReq where
  /-- The NODE field: an address or a position code; 256 more for a node fed from the tail port alone. -/
  addr : Nat
  mop : Nat
  obj : Nat
  data : List Byte
  use : Nat
  deriving DecidableEq, Repr

/-- A node's mailbox sequence at the P9 (R45): the MSEQ of the latest request, and that request while it is unanswered. -/
structure MSeq where
  mseq : Nat := 0
  busy : Option MReq := none
  deriving DecidableEq, Repr

/-- A grant being sent (R67): the cycle of the claim, the address, and the claim. -/
structure Grant where
  n : Nat
  addr : Nat
  serial : Nat
  vendor : Nat
  product : Nat
  nax : Nat
  deriving DecidableEq, Repr

/-- A knot's wire fields on a ring (R69, R211): announce or decision and the first cycle it is sent in. -/
structure KWire where
  knot : Nat
  ccyc : Nat
  go : Option Bool := none
  deriving DecidableEq, Repr

/-- A ring port beside its registers. -/
structure Ring where
  /-- Valid frames seen of one cycle while listening: cycle, FLAST, mask of FIDX (R60). -/
  seenCyc : Option Nat := none
  seenLast : Nat := 0
  seenMask : Nat := 0
  /-- At the latest boundary the port was neither in IDLE nor in LISTEN (R91). -/
  live : Bool := false
  /-- Cyclic frames start or stop at the next boundary; the port stops after the current cycle (R62). -/
  runAt : Option Nat := none
  stopping : Bool := false
  /-- Latest discovery results per port side, and how many were identical in a row (R62). -/
  discHead : List (List Byte) := []
  discTail : List (List Byte) := []
  discSame : Nat := 0
  discSameT : Nat := 0
  /-- The head's DISCOVER frames come back LOOPED: the ring is broken (R62). -/
  discLoop : Bool := false
  /-- The sweep (R64): index of the step, the values 2 × d of the step in 1/16 ns, rejects, the results so far. -/
  swStep : Nat := 0
  swVals : List Int := []
  swRej : Nat := 0
  swDelays : List Nat := []
  /-- A heal (R77): 0 none, 1 measuring, 2 writing LINKDLY, 3 leaving loopback; the d values in 1/32 ns, and cycle H. -/
  heal : Nat := 0
  healVals : List Int := []
  healAt : Option Nat := none
  /-- TIM clocks since when u and v have reported their link at the break up (R77). -/
  upU : Option Nat := none
  upV : Option Nat := none
  /-- Datagrams returned good in the cycle: entries by address, first copies (R54). -/
  retCyc : Nat := 0
  retSeen : List Nat := []
  /-- Frames of the cycle returned whole, bit f; of the port that leads, bit 16 + f; of the other port, bit 32 + f. -/
  retFrames : Nat := 0
  /-- Nodes that answered in LOOPED frames of the leading port in that cycle (R76), and the cycles of the latest answer from
  each side. -/
  turned : List Nat := []
  sideLead : Option Nat := none
  sideRear : Option Nat := none
  /-- Cycle in which LOOP_OUT was last aimed at a node that had not answered (R76). -/
  loopTry : Option Nat := none
  /-- The cycle, CSTART and TCYC of the latest frame followed (R91). -/
  fol : Option (Nat × Nat × Nat) := none
  /-- Per mark, 1 more than the cycle it fired in last (R91). -/
  firedIn : List (Nat × Nat) := []
  missRun : List (Nat × Nat) := []
  /-- Addresses that get DROP, and the node that gets LOOP_OUT. -/
  drop : List Nat := []
  loopOutTo : Nat := 0
  grants : List Grant := []
  mbox : List MReq := []
  mseqs : List (Nat × MSeq) := []
  kann : List KWire := []
  kdec : List KWire := []
  /-- Last frames sent from the head and tail port. -/
  sentHead : List Byte := []
  sentTail : List Byte := []
  /-- The DELAY frame of a heal, sent after the cycle's last frame (R77). -/
  sentDelay : List Byte := []
  /-- Send stamp of the last DELAY frame in 1/16 ns (R64). -/
  delaySent : Nat := 0
  /-- Addresses whose IDENT differed at their latest insertion (R74). -/
  identBad : List Nat := []
  /-- TIM clock at which NODE_RETRY of an address ends (R73). -/
  retryAt : List (Nat × Nat) := []
  /-- The latest AXIS uplink status of each node: NSTAT and NKNOT with their cycle. -/
  nstat : List (Nat × (Nat × Nat × Nat)) := []
  /-- AXCAP as read from the nodes, key 4 × address + axis (R104). -/
  caps : List (Nat × List Byte) := []
  deriving DecidableEq, Repr

structure Net where
  nodes : List (Nat × NodeSt) := []
  rings : List (Nat × Ring) := []
  /-- The last frame each node sent from a port: key 2 × (64 × ring + position) + (1 for IN). -/
  nodeOut : List (Nat × List Byte) := []
  deriving DecidableEq, Repr

/-! ## Axis slots (spec/04 to spec/07) -/

/-- What a hitch runs on, taken at its engage (R150, R155): TYPE, MASTER, NUM, DEN, CAM_ADDR. -/
structure HitchCfg where
  cam : Bool := false
  master : Nat := 0
  num : Int := 1
  den : Nat := 1
  addr : Nat := 0
  deriving DecidableEq, Repr

/-- The hitch of an axis (R148 to R157): engaged, in its blend, S_OFS in use with 16 fractional bits, the values of the
engage instant, and the master position less M_OFS at S of the previous activation in HITCH. -/
structure HitchSt where
  on : Bool := false
  blend : Bool := false
  cfg : HitchCfg := {}
  sOfs : Int := 0
  xe : Int := 0
  rho : Word := 0
  xme : Int := 0
  neg : Bool := false
  wPrev : Option Int := none
  /-- The mode a refused engage returns to (R182). -/
  back : Nat := 1
  deriving DecidableEq, Repr

/-- The repetitive term (R167, R171): the accumulator, and a table check that is due. -/
structure RepSt where
  bin : Nat := 0
  sum : Word := 0
  n : Nat := 0
  check : Bool := false
  clr : Bool := false
  deriving DecidableEq, Repr

/-- The identification sweep (R128 to R133). -/
structure IdentSt where
  step : Nat := 0
  acc : Nat := 0
  settle : Nat := 0
  nv : Nat := 0
  nl : Nat := 0
  ure : Word := 0
  uim : Word := 0
  yre : Word := 0
  yim : Word := 0
  cFirst : Option Nat := none
  held : Bool := false
  sat : Bool := false
  mask : Nat := 0
  ts : Word := 0
  lsa : Nat := 0
  deriving DecidableEq, Repr

/-- One returned uplink of an axis that has not landed yet (R194): cycle, NSTAT, NKNOT, NERR and the axis's words. -/
structure Feedback where
  cyc : Nat
  nstat : Nat := 0
  nknot : Nat := 0
  nerr : Nat := 0
  s : AxisSample
  deriving DecidableEq, Repr

/-- What an activation that was woken before a boundary still runs with (R96): the requests that stood, and the previous words
of the active copies the boundary replaced, by address. -/
structure OldSet where
  modeCyc : Nat
  start : Option Nat
  vchg : Option Nat
  check : Bool
  words : List (Nat × Nat) := []
  deriving DecidableEq, Repr

/-- An axis slot beside its registers. -/
structure Ax where
  /-- The mode the previous activation ran (R146). -/
  ran : Nat := 0
  /-- The axis's node has joined by a bight, and neither software nor a REJOIN entry has enabled the axis since (R68, R74). -/
  barred : Bool := false
  gen : Gen := {}
  /-- The boundary at which the active MODE was taken, and at which a start or a VELOCITY change was (R139, R138). -/
  modeCyc : Nat := 0
  start : Option Nat := none
  vchg : Option Nat := none
  /-- Stops the next activation carries out (R147): hard, supervisor HOLD, ramped. -/
  hard : Bool := false
  hold : Bool := false
  ramp : Bool := false
  /-- A limit stop that waits (R160): t_l, and whether it is a ramp. -/
  lim : Option (Nat × Bool) := none
  /-- Class of the ramped stop that runs: 0 none, 3, 4 for a mode write to HOLD, or 5 for DIS_TO = STOP (R147, R157). -/
  stop : Nat := 0
  hitch : HitchSt := {}
  iv : Word := 0
  id : Word := 0
  iq : Word := 0
  nb : List (Word × Word) := [(0, 0), (0, 0), (0, 0), (0, 0), (0, 0), (0, 0)]
  /-- Cycle and X_ACT of the last valid activation (R103). -/
  lastN : Option Nat := none
  lastX : Int := 0
  /-- Cycle of the last activation, valid or not (R131). -/
  lastSeen : Option Nat := none
  /-- The sample instant S of the latest landing or mark, as a stamp (R148). -/
  sStamp : Nat := 0
  /-- Cycle of the wake whose activation has not released yet, and the set it was woken with (R96). -/
  woken : Option Nat := none
  old : Option OldSet := none
  pending : Option Feedback := none
  /-- t1 of the running FE timer (R121). -/
  feAt : Option Nat := none
  /-- Consecutive cycles without valid feedback, and the cycle of the latest valid landing (R120). -/
  lossRun : Nat := 0
  validCyc : Option Nat := none
  /-- FE, FBLOSS and LATE of the present excursion or run have been detected already (R120, R121, R126). -/
  feDone : Bool := false
  lossDone : Bool := false
  lateDone : Bool := false
  /-- An accepted release has enabled the axis since it left OFF (R99, R125). -/
  armed : Bool := false
  /-- The last payload sent, the payload fixed for a target cycle, and the unused successor duties (R125). -/
  pay : Option AxCmd := none
  fixed : Option (Nat × AxCmd) := none
  succ : Option (Nat × Nat × Nat) := none
  rep : RepSt := {}
  ident : IdentSt := {}
  /-- Target cycles of the latest inserted fallbacks, and landings with APPLY ≠ APPLIED, newest first (R130). -/
  fbAt : List Nat := []
  nodeFbAt : List Nat := []
  /-- t_d of the latest supervisor event as a stamp and as a TIM clock, and the action taken (R123). -/
  tdAct : Option (Nat × Nat × Nat) := none
  deriving DecidableEq, Repr

/-! ## Power-stage channels, gangs, pins (spec/13, spec/14, spec/20) -/

/-- A shot in progress with the values it started with (R326, R337). -/
structure Shot where
  ton : Nat
  dur : Nat
  vpeak : Nat
  per : Nat
  vhold : Nat
  minp : Nat
  fw : Bool
  ipeak : Nat
  ihold : Nat
  /-- Part of the channel and its group when the shot started (R326). -/
  role : Nat := 0
  hg : Nat := 0
  /-- High-side channel of the group when the shot started (R348). -/
  hs : Nat := 0
  hold : Bool := false
  on : Bool := true
  /-- Hold periods started. -/
  holds : Nat := 0
  deriving DecidableEq, Repr

/-- A channel beside its registers. -/
structure Chan where
  /-- Requests of the mode logic (R322). -/
  reqH : Bool := false
  reqL : Bool := false
  /-- Edges that remain in the period: offset in u, and the requests from there on (R325). -/
  edges : List (Nat × Bool × Bool) := []
  /-- Requests of the windows before the minimum-pulse filter (R327). -/
  rawH : Bool := false
  rawL : Bool := false
  /-- The same at the start of the period, and u of the interval that runs at its end (R327). -/
  raw0H : Bool := false
  raw0L : Bool := false
  ivAt : Nat := 0
  /-- Offset of the latest edge applied in the period, in u. -/
  edgeAt : Nat := 0
  /-- Start stamp of the period, and TCYC of the cycle it belongs to (R323). -/
  startAt : Nat := 0
  tc : Nat := 0
  /-- Period index in its cycle (R323). -/
  k : Nat := 0
  /-- A period has started since the channel was enabled or its carrier changed (R335, R326). -/
  follow : Bool := false
  /-- The set that becomes active at the next period start (R326). -/
  next : Option (List (Nat × Word)) := none
  /-- The carrier has changed: Z until the first period of the new one (R326). -/
  zHold : Bool := false
  /-- CYCLE holds the channel in Z (R332). -/
  ocForce : Bool := false
  /-- Commanded state the sequencer drives: 0 Z, 1 H, 2 L; and PULSE has its level (R328). -/
  target : Nat := 0
  pulseSet : Bool := false
  /-- Where the period in progress ends after a SYNCIN edge (R323). -/
  extAt : Option Nat := none
  queue : List (Nat × Nat) := []
  shot : Option Shot := none
  /-- A shot deferred by its group: original t_on and D (R340). -/
  deferred : Option (Nat × Nat) := none
  /-- The end of the active shot fell during a freeze (R345). -/
  endMissed : Bool := false
  /-- The freeze has ended and its levels hold until the next period start (R345). -/
  held : Bool := false
  /-- Chopper: sign of the setpoint, TIM clock of entry of its state, sums of the cycle (R359, R361). -/
  neg : Bool := false
  entered : Nat := 0
  fast : Bool := false
  sumM : Int := 0
  sumE : Int := 0
  nM : Nat := 0
  deriving DecidableEq, Repr

/-- A gang, by its lead channel divided by 4 (R349). -/
structure Gang where
  /-- Rate multiplier: accumulator, microsteps left, direction (R354). -/
  acc : Nat := 0
  left : Nat := 0
  neg : Bool := false
  /-- The segment's first left and direction, for HOLD_LAST (R356). -/
  segLeft : Nat := 0
  segNeg : Bool := false
  /-- The segment's policy commands every channel Z (R356). -/
  off : Bool := false
  /-- STEP mode: target, latest step stamp, direction captures (R358). -/
  tgt : Nat := 0
  lastStep : Option Nat := none
  dirs : List (Nat × Bool) := []
  /-- TIM clocks of the latest step capture, direction capture and encoder edge: what lies further back than a stamp reaches is
  old (R228, R229). -/
  stepClk : Nat := 0
  dirClk : Nat := 0
  encClk : Nat := 0
  /-- TIM clock of the last microstep (R353). -/
  lastMove : Nat := 0
  /-- Brushless: duties in use, duties from A(T) on (R363). -/
  duty : Option (Nat × Nat × Nat) := none
  dutyNext : Option (Nat × Bool × Nat × Nat × Nat) := none
  /-- TIM clock the accumulator stands at (R354), and the segment fixed at its deadline: target cycle and X_REF, or none for
  the policy of R356. -/
  accAt : Nat := 0
  plan : Option (Nat × Option Int) := none
  /-- The segment fixed at its deadline commands Z: its payload has ENABLE = 0 (R356, R368). -/
  planOff : Bool := false
  /-- Recent encoder edges, newest first: stamp and count before it (R351). -/
  encHist : List (Nat × Nat) := []
  /-- Encoder count and levels (R362). -/
  enc : Nat := 0
  encA : Bool := false
  encB : Bool := false
  deriving DecidableEq, Repr

structure Power where
  chans : List (Nat × Chan) := []
  gangs : List (Nat × Gang) := []
  /-- SYNCOUT pulses running, by bank (R324). -/
  syncOut : List (Nat × Nat) := []
  /-- Stamp of the latest trigger of each number (R333). -/
  trig : List (Nat × Nat) := []
  /-- Latest code of each analog input, and of converter k at key 128 + k (R504). -/
  adc : List (Nat × Nat) := []
  /-- Cycle + 1 of the latest conversion of input `i` by converter `k`, key 128 × k + i (R447). -/
  adcCyc : List (Nat × Nat) := []
  /-- Pins in the rest interval of a function change, with the function they leave (R495, R497). -/
  resting : List (Nat × Nat) := []
  deriving DecidableEq, Repr


/-! ## Knots (spec/08_knots.md) -/

/-- A participant of a network knot (R210, R211, R214): its node, its seal answered OK, declared missing since, and APPLY and
KNOT_MISSED of its uplinks of cycles CCYC + 1 to CCYC + 3. -/
structure KPart where
  ring : Nat
  addr : Nat
  sealed : Bool := false
  gone : Bool := false
  rep1 : Option (Nat × Bool) := none
  rep2 : Option (Nat × Bool) := none
  rep3 : Option (Nat × Bool) := none
  deriving DecidableEq, Repr

/-- A knot slot beside its registers: its entries in add order, four words each; its place among the closes (R206); CCYC is
fixed (R205); its entries have been applied. -/
structure Knot where
  ents : List (List Nat) := []
  order : Nat := 0
  fixed : Bool := false
  committed : Bool := false
  parts : List KPart := []
  deriving DecidableEq, Repr

structure Knots where
  slots : List (Nat × Knot) := []
  closes : Nat := 0
  /-- Writes held on locked registers, oldest first (R209): requester, address, word. -/
  held : List (Requester × Nat × Nat) := []
  deriving DecidableEq, Repr

/-! ## Belay (spec/15_belay_safety.md) -/

/-- A connection beside its registers (R381): accepted in the cycle in progress; cycles in a row with, and without, an
accepted uplink; its first downlink container has been sent; per axis the cycle whose container first carried an STO request
that no uplink has confirmed; the safe speeds of the latest accepted uplink. -/
structure BConn where
  got : Bool := false
  ok : Nat := 0
  miss : Nat := 0
  started : Bool := false
  req : List (Option Nat) := [none, none, none, none]
  asked : Nat := 0
  /-- Speeds of the latest accepted uplink; none before the first. Who has read them since: 256 × zone + axis, and 65,536 + zone
  for a zone that started to monitor after it (R377). -/
  spd : List Nat := []
  readBy : List Nat := []
  deriving DecidableEq, Repr

structure Bel where
  /-- The working copy of the configuration (R370). -/
  cfg : List Byte := []
  /-- TEST: BIST and the pulse tests have passed; inputs opened, and opened and closed again (R376). -/
  bist : Bool := false
  opened : Nat := 0
  tested : Nat := 0
  /-- Inputs whose demand a diagnostic latched (R375). -/
  latched : Nat := 0
  /-- STO not confirmed: NSOMASK is asserted until LOAD (R381). -/
  nso : Bool := false
  conns : List (Nat × BConn) := []
  /-- Over-speed readings in a row, key 256 × zone + axis (R377). -/
  sls : List (Nat × Nat) := []
  /-- LENCNT at the zone's previous reading, key 4 × zone + e. -/
  lenBase : List (Nat × Nat) := []
  /-- The image being written (R373). -/
  img : List Byte := []
  deriving DecidableEq, Repr

/-! ## Duplex (spec/16_duplex_failover.md) -/

/-- A planned splice (R409): its cycle K and whether the partner has answered SACK. -/
structure Splice where
  k : Nat
  sack : Bool := false
  /-- This unit is the one that gives up the rings. -/
  giving : Bool := true
  deriving DecidableEq, Repr

/-- The duplex block beside its registers. -/
structure Dx where
  /-- Cycle of the latest counted heartbeat of the partner, on a ring and on the peer link (R397). -/
  beatRing : Option Nat := none
  beatPeer : Option Nat := none
  /-- Cycle of this unit's latest peer heartbeat. -/
  hbSent : Option Nat := none
  /-- The partner's state and HOT as it last told them. -/
  pState : Nat := 0
  pHot : Bool := false
  /-- TIM clock of the latest LIVE.KICK (R398). -/
  kickAt : Nat := 0
  /-- A splice asked for by CTRL.SWITCH or by take-back, and one that runs (R409, R410). -/
  wantSwitch : Bool := false
  wantBack : Bool := false
  splice : Option Splice := none
  /-- SABORT is to be sent. -/
  abort : Bool := false
  /-- TIM clocks of the latest insertions, newest first; start of the hold-off (R410). -/
  ins : List Nat := []
  holdFrom : Option Nat := none
  /-- Mirror records of the cycle being received (classes C, A and F), and records that wait for their boundary (R405). -/
  recv : List MirrorRec := []
  wait : List (Nat × MirrorRec) := []
  /-- Region copies being gathered: region, and the bytes so far. -/
  parts : List (Nat × List Byte) := []
  /-- The full copy has been installed, and mirror cycles installed in a row, and late ones in a row (R399, R406). -/
  full : Bool := false
  inRow : Nat := 0
  lateRow : Nat := 0
  /-- The knot decisions a standby holds (R219): slot, source (0 header, 1 repeat, 2 mirrored record), decision. -/
  kdec : List (Nat × Nat × Bool) := []
  /-- Active side: class A records of the cycle, queued records, and the last mirror closed (R404, R405). -/
  posted : List (Nat × AxMirror) := []
  queued : List MirrorRec := []
  sent : List MirrorRec := []
  /-- Class C as it stood at the latest boundary. -/
  snap : Option MirrorRec := none
  /-- Reduced set (R408): next RSEQ; records not confirmed, with the cycle they were sent in, none before; records received. -/
  rseq : Nat := 0
  unacked : List (Nat × Option Nat × List Byte) := []
  rack : Nat := 0
  got : List (List Byte) := []
  /-- The records of a PLAN that has not arrived whole. -/
  part : List Byte := []
  /-- Slot states and generators as last told (R408, class P). -/
  kst : List (Nat × Nat) := []
  gens : List (Nat × Gen) := []
  /-- Index of the next AXPOS record. -/
  axpos : Nat := 0
  /-- Copies sent over the peer link in DUALFEED and frames handed over it (R402), the latest of each ring. -/
  copies : List (Nat × List Byte) := []
  /-- Payloads forwarded to the partner for cycle K (R409). -/
  fwd : List Forward := []
  /-- After a planned splice: mirrored strands wait for the mirror of this cycle (R409 step 5). -/
  holdWake : Option Nat := none
  deriving DecidableEq, Repr

/-! ## Power management, boot, hosts (spec/18, spec/19) -/

/-- The PMU beside its registers: domains isolated ahead of losing their level, domains refused in the request, the domain in
progress and whether it switches on, whether PD08 may be switched off by the request (R441, R442); the operating points the
islands run at, changes that are not complete, VCORE in mV (R444); the island being reset (R443); step 4 waits for MLS_DONE;
step 3 waits for the FIFO; the saved-state record being written, with its half (R454); thresholds that were crossed in the
cycle before, key 4 × bus + threshold (R447); and, kept by AON, the cause of the next start on VIN return (R445). -/
structure Pmu where
  iso : Nat := 0
  refused : Nat := 0
  cur : Option (Nat × Bool) := none
  via : Bool := false
  clocks : List (Nat × Nat) := []
  oppQ : List Nat := []
  vcore : Nat := 850
  rst : Option Nat := none
  off4 : Bool := false
  saveWait : Bool := false
  save : Option (Nat × List Byte) := none
  crossed : List (Nat × Bool) := []
  why : Nat := 0
  deriving DecidableEq, Repr

/-- What lies outside the registers at boot: the levels of the strap pins, the fuses (SECURE, KEYREV, MINVER bits and the
KEYHASH words), the xSPI flash, whether SC0 is in the boot ROM and waits for the host's doorbell, fuse programming and an
MRAM write in progress (R457 to R464). -/
structure Boot where
  straps : Nat := 0
  secure : Bool := false
  keyrev : Nat := 0
  minver : Nat := 0
  keyHash : List (Nat × List Byte) := []
  flash : List Host.Cell := []
  rom : Bool := false
  waitHost : Bool := false
  prog : Option (Bool × Nat) := none
  mwr : Option (Nat × Nat × Nat) := none
  deriving DecidableEq, Repr

/-- A DMA channel at work (R476): its descriptor's address and four fields, read at the check; STOP was written. -/
structure DmaCh where
  desc : Nat
  src : Nat
  dst : Nat
  len : Nat
  ctrl : Nat
  next : Nat
  stop : Bool := false
  deriving DecidableEq, Repr

/-- The host interfaces beside their registers: DMA channels; the latest MSI-X vector and outbound request sent, and an
outbound read that may still time out (R473, R474); the latest frame sent to the plant (R478); the snapshot port's two
buffers, and a fill in progress: cycle, stamp and positions (R481). -/
structure Hosts where
  dma : List (Nat × DmaCh) := []
  msix : Option (Nat × Nat) := none
  outSent : Option (Bool × Nat × Nat × Nat) := none
  outRead : Option Requester := none
  txSent : List Byte := []
  front : List Host.Cell := []
  back : List Host.Cell := []
  fill : Option (Nat × Nat × List Nat) := none
  /-- Plant port queues that stopped on a fault and wait for a write of TAIL, as QFAULT numbers them (R478). -/
  qstop : Nat := 0
  deriving DecidableEq, Repr

/-- Who raises it: nothing in this model; every command of the spec has an effect, a wait or an access error that is a next
state. The type is closed with one constructor so that outcomes can be stated; safe. -/
inductive Fault where
  /-- Raised by no command. Safe. -/
  | none
  deriving DecidableEq, Repr

/-- Reasons a command has no meaning. -/
inductive Refusal where
  /-- Raised by an arm of `exec` whose row has no meaning yet. Safe: it stops. -/
  | notModelled (mnemonic : String)
  deriving DecidableEq, Repr

/-- The state of the P9-256 as a block. -/
structure State where
  /-- Commands that wait, first in first out. -/
  pending : List Instr := []
  /-- Registers: the value a read returns (for RWS the staged copy, R5); an unlisted register holds its reset word. -/
  regs : List (Nat × Word) := []
  /-- Active copies of RWS registers (R9), at the address of the staged register. -/
  act : List (Nat × Word) := []
  /-- Memory of every range of the address map (R26); an unlisted byte reads as 0. -/
  mem : List Host.Cell := []
  /-- The counter that free values are applied to (the model's own). -/
  free : Nat := 0
  resp : Resp := .none
  tim : Tim := {}
  log : Logline := {}
  fid : Fids := {}
  dsp : Disp := {}
  net : Net := {}
  axes : List (Nat × Ax) := []
  pwr : Power := {}
  ke : Knots := {}
  bel : Bel := {}
  dx : Dx := {}
  pmu : Pmu := {}
  boot : Boot := {}
  host : Hosts := {}
  deriving DecidableEq, Repr

/-- The machine right after reset: every register at its reset value, nothing listed in memory, no command waiting. -/
def State.reset : State := {}

/-- The outcome type of every meaning. -/
abbrev Res := Host.Outcome State Fault Refusal

end Sys2Proof.Machine
end

