-- ==== Sys2Proof/Machine/Ops.lean ====
section
/-! DEFINITION. The named operations over the state: registers (plain, staged and active copies), memory bytes, the indexed
families of units, time, and free values. Every other file reads and writes the state through these. -/

namespace Sys2Proof.Machine

/-! ## Registers -/

/-- The word a register holds: for RWS the staged copy (R5). -/
def State.reg (s : State) (a : Nat) : Nat := (SMap.get regDflt s.regs a).toNat

/-- The active copy of a staged register (R9). -/
def State.actReg (s : State) (a : Nat) : Nat := (SMap.get regDflt s.act a).toNat

def State.setReg (s : State) (a v : Nat) : State := { s with regs := SMap.put regDflt s.regs a (toW v) }
def State.setActReg (s : State) (a v : Nat) : State := { s with act := SMap.put regDflt s.act a (toW v) }

/-- A field of a register. -/
def State.f (s : State) (x : Fld) : Nat := bits (s.reg x.addr) x.hi x.lo
/-- A field of an active copy. -/
def State.fa (s : State) (x : Fld) : Nat := bits (s.actReg x.addr) x.hi x.lo
/-- A one-bit field as a truth value. -/
def State.on (s : State) (x : Fld) : Bool := s.f x != 0
/-- A one-bit field of an active copy as a truth value. -/
def State.onA (s : State) (x : Fld) : Bool := s.fa x != 0
/-- A 32-bit field as a register word. -/
def State.w (s : State) (x : Fld) : Word := toW (s.f x)
/-- A 32-bit field of an active copy as a register word. -/
def State.wa (s : State) (x : Fld) : Word := toW (s.fa x)

def State.set (s : State) (x : Fld) (v : Nat) : State := s.setReg x.addr (putBits (s.reg x.addr) x.hi x.lo v)
def State.setA (s : State) (x : Fld) (v : Nat) : State := s.setActReg x.addr (putBits (s.actReg x.addr) x.hi x.lo v)
/-- Write a staged field and its active copy alike (R182). -/
def State.setBoth (s : State) (x : Fld) (v : Nat) : State := (s.set x v).setA x v
/-- Set a one-bit field. -/
def State.raise (s : State) (x : Fld) : State := s.set x 1
/-- Clear a field. -/
def State.clr (s : State) (x : Fld) : State := s.set x 0
/-- Set a field to a truth value. -/
def State.setB (s : State) (x : Fld) (b : Bool) : State := s.set x (b2n b)
/-- Count one in a counter that saturates at its field's width. -/
def State.count (s : State) (x : Fld) : State := s.set x (min (s.f x + 1) (2 ^ (x.hi + 1 - x.lo) - 1))
/-- Count `k` in a saturating counter. -/
def State.countK (s : State) (x : Fld) (k : Nat) : State := s.set x (min (s.f x + k) (2 ^ (x.hi + 1 - x.lo) - 1))
/-- Count one in a wrapping counter. -/
def State.bump (s : State) (x : Fld) : State := s.set x (s.f x + 1)
/-- OR bits into a field. -/
def State.orF (s : State) (x : Fld) (m : Nat) : State := s.set x (s.f x ||| m)

/-- Conditional update. -/
def State.when (s : State) (c : Bool) (f : State → State) : State := if c then f s else s

/-- A 64-bit value held in a LO and a HI word (R177). -/
def State.f64 (s : State) (lo hi : Fld) : Nat := s.f lo + 2 ^ 32 * s.f hi
def State.f64a (s : State) (lo hi : Fld) : Nat := s.fa lo + 2 ^ 32 * s.fa hi
def State.set64 (s : State) (lo hi : Fld) (v : Int) : State :=
  (s.set lo (uw 64 v % 2 ^ 32)).set hi (uw 64 v / 2 ^ 32)

/-- Copy one register's staged word to its active copy. -/
def State.take (s : State) (a : Nat) : State := s.setActReg a (s.reg a)

/-! ## Memory -/

/-- What an unlisted byte of memory reads as. DESIGN CHOICE: 0 (notes/assumptions/3.md). -/
def memDflt (_ : Nat) : Byte := 0

def State.byte (s : State) (a : Nat) : Byte := SMap.get memDflt s.mem a
def State.setByte (s : State) (a : Nat) (v : Byte) : State := { s with mem := SMap.put memDflt s.mem a v }

/-- `n` bytes from address `a`. -/
def State.bytes (s : State) (a : Nat) : Nat → List Byte
  | 0 => []
  | n + 1 => s.byte a :: s.bytes (a + 1) n

/-- Store bytes from address `a` upwards, in ascending order. -/
def State.store (s : State) (a : Nat) : List Byte → State
  | [] => s
  | b :: bs => (s.setByte a b).store (a + 1) bs

/-- The little-endian number in `n` bytes at `a` (R29). -/
def State.rd (s : State) (a n : Nat) : Nat := leNat (s.bytes a n)
/-- Store a number in `n` bytes at `a`, little-endian (R29). -/
def State.wr (s : State) (a n v : Nat) : State := s.store a (leBytes n v)

/-- The canonical form of memory. -/
def Memory.wf (m : List Host.Cell) : Bool := SMap.wf memDflt m

/-! ## Time -/

/-- Units of `DomClk.phase` in one nanosecond. -/
def phaseNs : Nat := 256000000000000

/-- The counter of a domain at its master, u32 ns (R223). -/
def DomClk.now (d : DomClk) : Nat := d.phase / phaseNs % 2 ^ 32

def State.dom (s : State) (d : Nat) : DomClk := if d = 0 then s.tim.domA else s.tim.domB
def State.setDom (s : State) (d : Nat) (c : DomClk) : State :=
  { s with tim := if d = 0 then { s.tim with domA := c } else { s.tim with domB := c } }
def State.modDom (s : State) (d : Nat) (f : DomClk → DomClk) : State := s.setDom d (f (s.dom d))

/-- The master counter of domain `d` (R223). -/
def State.now (s : State) (d : Nat) : Nat := (s.dom d).now
/-- The value replicas hold: a step reaches them at the next beacon (R226). DESIGN CHOICE: a locked replica's deviation, which
the spec only bounds, is 0 (notes/assumptions/2033.md). -/
def State.rnow (s : State) (d : Nat) : Nat := u32 (((s.dom d).phase : Int) / phaseNs - (s.dom d).pend / phaseNs)

/-- The grid domain (R225). -/
def State.grid (s : State) : Nat := s.f R.TB_CTRL_GRID
/-- A replica's value of the grid domain. -/
def State.gnow (s : State) : Nat := s.rnow s.grid

/-- The cycle in progress. -/
def State.cyc (s : State) : Nat := s.tim.cyc
/-- CSTART(N) in the value of domain `d` (R79). -/
def State.cstart (s : State) (d : Nat) : Nat := if d = 0 then s.tim.cstartA else s.tim.cstartB
/-- TCYC in effect (R80). -/
def State.tcyc (s : State) : Nat := s.fa R.TB_TCYC
/-- The projected CSTART of cycle `m`, in domain `d` (R509). -/
def State.cstartOf (s : State) (d m : Nat) : Nat :=
  u32 ((s.cstart d : Int) + i32 ((m : Int) - (s.cyc : Int)) * (s.tcyc : Int))

/-- i32 difference of two stamps (R24, R229). -/
def dt (a b : Nat) : Int := i32 ((a : Int) - (b : Int))

/-! ## Replicas -/

def State.rep (s : State) (i : Nat) : Replica := SMap.get (fun _ => {}) s.tim.reps i
def State.setRep (s : State) (i : Nat) (r : Replica) : State :=
  { s with tim := { s.tim with reps := SMap.put (fun _ => {}) s.tim.reps i r } }
def State.locked (s : State) (i : Nat) : Bool := (s.rep i).locked

/-! ## Free values -/

/-- Advance the counter free values are applied to. -/
def State.burn (s : State) : State := { s with free := s.free + 1 }

/-- A TIM clock so far back that the stamps of then can no longer be compared with those of now (R6). -/
def State.longAgo (s : State) (clk : Nat) : Bool := decide (clk + 2 ^ 30 < s.tim.clk)

/-! ## Units of the dispatcher -/

def State.strand (s : State) (t : Nat) : Strand := SMap.get (fun _ => {}) s.dsp.strands t
def State.setStrand (s : State) (t : Nat) (x : Strand) : State :=
  { s with dsp := { s.dsp with strands := SMap.put (fun _ => {}) s.dsp.strands t x } }
def State.modStrand (s : State) (t : Nat) (f : Strand → Strand) : State := s.setStrand t (f (s.strand t))

def State.core (s : State) (c : Nat) : Core := SMap.get (fun _ => {}) s.dsp.cores c
def State.setCore (s : State) (c : Nat) (x : Core) : State :=
  { s with dsp := { s.dsp with cores := SMap.put (fun _ => {}) s.dsp.cores c x } }
def State.modCore (s : State) (c : Nat) (f : Core → Core) : State := s.setCore c (f (s.core c))
def State.setCtx (s : State) (c : Nat) (x : Ctx) : State := s.modCore c (fun k => { k with ctx := x })

/-- Record the answer to an access. -/
def State.answer (s : State) (r : Resp) : State := { s with resp := r }

end Sys2Proof.Machine
end

