-- ==== Sys2Proof/Machine/Logline.lean ====
section
/-! DEFINITION. The logline (spec/17_logline_and_fids.md): reports, coalescing, admission, commit, scan, reads, erase. -/

namespace Sys2Proof.Machine

/-- Classes of R416. -/
def clsInfo : Nat := 0
def clsWarn : Nat := 1
def clsFault : Nat := 2
def clsSafety : Nat := 3

/-- SRC = GRP × 2,048 + instance (R430). -/
def srcOf (grp inst : Nat) : Nat := grp * 2048 + inst

/-- The LOST source (R423). -/
def srcLost : Nat := 1

def State.setLog (s : State) (l : Logline) : State := { s with log := l }
def State.modLog (s : State) (f : Logline → Logline) : State := { s with log := f s.log }

/-- Entries held: the FIFO and the entry being committed (R421). -/
def Logline.held (l : Logline) : Nat := l.fifo.length + (match l.committing with | some _ => 1 | none => 0)

/-- A class is admissible (R421); in last gasp only SAFETY (R424). -/
def Logline.admissible (l : Logline) (cls : Nat) : Bool :=
  if cls = clsSafety then l.held < 128
  else l.lastGasp.isNone && l.held < 112

/-- STAT.OCC names the entries held. -/
def State.syncOcc (s : State) : State := s.set R.LL_STAT_OCC s.log.held

/-- Key of a source's coalescing state, real and injected apart (R422, R434). -/
def srcKey (src : Nat) (inj : Bool) : Nat := 2 * src + b2n inj

def Logline.tAdm (l : Logline) (k : Nat) : Option Nat := SMap.get (fun _ => none) l.tadm k
def Logline.setTAdm (l : Logline) (k t clk : Nat) : Logline :=
  { l with tadm := SMap.put (fun _ => none) l.tadm k (some t), admClk := SMap.put (fun _ => 0) l.admClk k clk }

/-- COUNT and T_LAST of a coalesced occurrence (R422 step 1). -/
def LEntry.bump (e : LEntry) (stamp : Nat) : LEntry :=
  { e with count := min (e.count + 1) 0xFFFFFFFF, tLast := stamp }

/-- The first entry of a source in a list gets `f`; `none` if the source has none. -/
def coalesce (src : Nat) (inj : Bool) (f : LEntry → LEntry) : List LEntry → Option (List LEntry)
  | [] => none
  | e :: es =>
    if e.src = src && e.inj == inj then some (f e :: es)
    else (coalesce src inj f es).map (fun es' => e :: es')

/-- The oldest SAFETY entry, else the oldest entry (R421), with the rest. -/
def takeOldest (es : List LEntry) : Option (LEntry × List LEntry) :=
  match es.findIdx? (fun e => e.cls == clsSafety) with
  | some i => (es[i]?).map (fun e => (e, es.eraseIdx i))
  | none =>
    match es with
    | [] => none
    | e :: r => some (e, r)

/-- T_FIRST lies within FID.WIN µs after a firing (R434). -/
def State.inWindow (s : State) (stamp : Nat) : Bool :=
  match s.fid.lastFire with
  | none => false
  | some t =>
    let d := dt stamp t
    let w : Int := (s.f R.FID_WIN_US : Int) * 1000
    !s.longAgo s.fid.fireClk && decide (0 < w ∧ 0 ≤ d ∧ d ≤ w)

/-- A new entry for a report. -/
def State.mkEntry (s : State) (src : Nat) (inj : Bool) (cls dom stamp : Nat) (data : List Nat) : LEntry :=
  { src := src, inj := inj, cls := cls, dom := dom, count := 1, tFirst := stamp, tLast := stamp, cyc := s.cyc,
    rtc := s.f R.AON_RTC_S_S, data := (data ++ [0, 0, 0, 0, 0, 0]).take 6, latched := false,
    injwin := s.inWindow stamp }

/-- A fixed record of the logline itself (BOOT, LASTGASP, ERASE_START, ERASE_DONE). -/
def State.ownEntry (s : State) (det cls : Nat) (data : List Nat) : LEntry :=
  s.mkEntry (srcOf 0 det) false cls 0 s.gnow data

/-- Start the next commit when none runs: in RUN and in LASTGASP; the LASTGASP record comes first, the LOST latch last
(R421, R424); in ERASE only the ERASE_START record (R428). -/
def State.logStart (s : State) : State :=
  match s.log.committing with
  | some _ => s
  | none =>
    let st := s.f R.LL_STAT_STATE
    if st = 3 && !s.log.gaspDone then
      let e := s.ownEntry 5 clsSafety
        [s.log.lastGasp.getD 0, s.log.held, s.f R.LL_LOST_TOTAL, s.reg R.PMU_RAIL_STAT]
      s.modLog (fun l => { l with committing := some e, gaspDone := true })
    else if st = 2 then
      match s.log.erase with
      | some 0 =>
        let e := s.ownEntry 2 clsSafety
          [s.f R.LL_HEAD_LO_SEQ, s.f R.LL_HEAD_HI_SEQ, s.f R.BEL_STAT_SEAL_CNT, s.f R.LL_ERASE_CODE]
        s.modLog (fun l => { l with committing := some e })
      | _ => s
    else if st = 1 || st = 3 then
      match takeOldest s.log.fifo with
      | some (e, r) => s.modLog (fun l => { l with committing := some e, fifo := r })
      | none =>
        if st = 3 then
          match s.log.latches.find? (fun e => e.src == srcLost) with
          | some e => s.modLog (fun l => { l with committing := some { e with latched := true },
                                                  latches := l.latches.filter (fun x => x.src != srcLost) })
          | none => s
        else s
    else s

/-- Put an entry at the FIFO's end, with T_ADM and RTC_S of its admission (R416, R422). -/
def State.logAdmit (s : State) (e : LEntry) (tadm : Nat) : State :=
  ((s.modLog (fun l => ({ l with fifo := l.fifo ++ [{ e with rtc := s.f R.AON_RTC_S_S }] }).setTAdm
    (srcKey e.src e.inj) tadm s.tim.clk)).logStart).syncOcc

def State.logLatch (s : State) (e : LEntry) : State :=
  s.modLog (fun l => { l with latches := l.latches ++ [{ e with latched := true }] })

/-- Count one more drop of class `cls` in a LOST entry's data (R423). -/
def lostData (cls total : Nat) (d : List Nat) : List Nat :=
  updAt (updAt d cls (· + 1)) 3 (fun _ => total)

/-- A dropped report (R423): LOST_TOTAL counts it and the LOST source takes it. -/
def State.logDrop (s : State) (cls stamp : Nat) : State :=
  let s := s.count R.LL_LOST_TOTAL
  let total := s.f R.LL_LOST_TOTAL
  let upd := fun (e : LEntry) => { e.bump stamp with data := lostData cls total e.data }
  match coalesce srcLost false upd s.log.fifo with
  | some f => s.modLog (fun l => { l with fifo := f })
  | none =>
    match coalesce srcLost false upd s.log.latches with
    | some f => s.modLog (fun l => { l with latches := f })
    | none =>
      let e := s.mkEntry srcLost false clsFault 0 stamp (lostData cls total [0, 0, 0, 0, 0, 0])
      if s.log.admissible clsFault then s.logAdmit e stamp else s.logLatch e

/-- RLIM of a source's group in ns (R422). -/
def State.rlimNs (s : State) (src : Nat) : Nat :=
  if src = srcLost then 0 else s.f (R.LL_RLIM_US (src / 2048)) * 1000

/-- A report, handled by the first step of R422 that applies; in last gasp only SAFETY reports are taken (R424). -/
def State.reportAt (s : State) (src cls dom stamp : Nat) (data : List Nat) (inj : Bool) : State :=
  if s.log.lastGasp.isSome && cls != clsSafety then s.logDrop cls stamp
  else
  match coalesce src inj (fun e => e.bump stamp) s.log.fifo with
  | some f => s.modLog (fun l => { l with fifo := f })
  | none =>
    match coalesce src inj (fun e => e.bump stamp) s.log.latches with
    | some f => s.modLog (fun l => { l with latches := f })
    | none =>
      let e := s.mkEntry src inj cls dom stamp data
      let early : Bool :=
        match s.log.tAdm (srcKey src inj) with
        | none => false
        | some t => decide (dt stamp t < (s.rlimNs src : Int))
      if early then s.logLatch e
      else if s.log.admissible cls then s.logAdmit e stamp
      else if cls = clsSafety then s.logLatch e
      else s.logDrop cls stamp

/-- A detector's report now: stamped on the grid domain (R416), INJ = 1 if a fid fires this very source (R434). -/
def State.report (s : State) (src cls dom : Nat) (data : List Nat) : State :=
  s.reportAt src cls dom s.gnow data (s.fid.firing == some src)

/-! ## Records in MRAM -/

/-- FLAGS of R416. -/
def State.flagsOf (s : State) (e : LEntry) : Nat :=
  e.cls + 4 * b2n e.inj + 8 * b2n e.injwin + 16 * s.grid + 32 * b2n s.log.lastGasp.isSome + 64 * b2n e.latched

/-- The 64 bytes of a record (R416). -/
def State.recordBytes (s : State) (seq : Nat) (e : LEntry) : List Byte :=
  let b := leBytes 8 seq ++ leBytes 2 e.src ++ leBytes 1 (s.flagsOf e) ++ leBytes 1 e.dom ++ leBytes 4 e.count
    ++ leBytes 4 e.tFirst ++ leBytes 4 e.tLast ++ leBytes 4 e.cyc ++ leBytes 2 (s.f R.LL_BOOTN_BOOTN) ++ leBytes 2 0
    ++ leBytes 4 e.rtc ++ (e.data.map (leBytes 4)).flatten
  b ++ leBytes 4 (crc32 b)

/-- Address of slot `i` of copy `k` (R415). -/
def slotAddr (k i : Nat) : Nat := 0x04000000 + 0x400000 * k + 0x40 * i

/-- Write one copy: good, or failed twice and left as it stands, whose bytes are free values (R417). -/
def State.writeCopy (s : State) (k slot : Nat) (r : List Byte) (ok : Bool) : State :=
  if ok then s.store (slotAddr k slot) r
  else (s.store (slotAddr k slot) ((List.range 64).map (fun i => Config.freeByte s.free i))).burn

def State.head (s : State) : Nat := s.f R.LL_HEAD_LO_SEQ + 2 ^ 32 * s.f R.LL_HEAD_HI_SEQ
def State.oldest (s : State) : Nat := s.f R.LL_OLDEST_LO_SEQ + 2 ^ 32 * s.f R.LL_OLDEST_HI_SEQ

def State.setHead (s : State) (v : Nat) : State := s.set64 R.LL_HEAD_LO_SEQ R.LL_HEAD_HI_SEQ v
def State.setOldest (s : State) (v : Nat) : State := s.set64 R.LL_OLDEST_LO_SEQ R.LL_OLDEST_HI_SEQ v

/-- WFAIL of a copy that failed twice (R417). -/
def State.wfail (s : State) (slot k : Nat) : State :=
  (s.raise R.LL_STAT_WFAIL).report (srcOf 0 4) clsFault 0 [slot, k]

/-- The commit in progress ends (R417): both copies written in order, HEAD and OLDEST advance, the entry is freed. A WFAIL
fid makes the read-back of the next copy written report a mismatch, the bytes being the record's (R431). -/
def State.commitDone (s : State) (ok0 ok1 : Bool) : State :=
  match s.log.committing with
  | none => s
  | some e =>
    let seq := s.head
    let slot := seq % 65536
    let r := s.recordBytes seq e
    let inj := s.fid.wfail
    let s := s.writeCopy 0 slot r ok0
    let s := s.writeCopy 1 slot r ok1
    let s := s.setHead (seq + 1)
    let s := s.setOldest (max s.oldest (seq + 1 - 65536))
    let s := s.bump R.LL_COMMIT_CNT
    let s := s.modLog (fun l =>
      { l with committing := none,
               erase := if e.src = srcOf 0 2 && l.erase == some 0 then some seq else l.erase })
    let s := { s with fid := { s.fid with wfail := false } }
    let s := s.when (!ok0) (fun s => s.wfail slot 0)
    let s := s.when (!ok1) (fun s => s.wfail slot 1)
    let s := s.when inj (fun s => ((s.raise R.LL_STAT_WFAIL).reportAt (srcOf 0 4) clsFault 0 s.gnow [slot, 0] true))
    s.logStart.syncOcc

/-! ## Resolving and reading (R418, R425, R426) -/

/-- A copy of slot `i` is valid (R418). -/
def copyValid (i : Nat) (r : List Byte) : Bool :=
  let seq := leAt r 0 8
  crc32 (r.take 60) == leAt r 60 4 && seq != 0 && seq % 65536 == i

/-- What a slot resolves to: the record, copy 1 if they mismatch, and RD_STAT[4:0] MISMATCH, DIFF, ONE, USED, VALID. -/
structure Resolved where
  bytes : List Byte
  alt : List Byte
  stat : Nat
  deriving DecidableEq, Repr

/-- Slot resolution of R418. -/
def resolve (i : Nat) (c0 c1 : List Byte) : Resolved :=
  let v0 := copyValid i c0
  let v1 := copyValid i c1
  let z := List.replicate 64 (0 : Byte)
  if v0 && v1 then
    let s0 := leAt c0 0 8
    let s1 := leAt c1 0 8
    if s0 = s1 then
      if c0 = c1 then ⟨c0, z, 1⟩ else ⟨c0, c1, 0b10001⟩
    else if s0 > s1 then ⟨c0, z, 0b01001⟩
    else ⟨c1, z, 0b01011⟩
  else if v0 then ⟨c0, z, 0b00101⟩
  else if v1 then ⟨c1, z, 0b00111⟩
  else ⟨z, z, 0⟩

def State.resolveSlot (s : State) (i : Nat) : Resolved :=
  resolve i (s.bytes (slotAddr 0 i) 64) (s.bytes (slotAddr 1 i) 64)

/-- Store 16 words of a record in an array of registers. -/
def State.setWords (s : State) (f : Nat → Fld) (r : List Byte) : State :=
  forN 16 (fun i s => s.set (f i) (leAt r (4 * i) 4)) s

/-- The read that started first ends (R425, R426). -/
def State.readDone (s : State) : State :=
  match s.log.reads with
  | [] => s
  | r :: rest =>
    let s := s.modLog (fun l => { l with reads := rest })
    let z := List.replicate 64 (0 : Byte)
    let res := s.resolveSlot (r.seq % 65536)
    let beyond := r.seq ≥ s.head
    let res : Resolved := if beyond then ⟨z, z, 0⟩ else res
    let gone := beyond || (bit res.stat 0 && leAt res.bytes 0 8 != r.seq)
    let stat := res.stat + 32 * b2n gone
    match r.win with
    | none =>
      ((s.setReg R.LL_RD_STAT stat).setWords R.LL_RD res.bytes).setWords R.LL_ALT
        (if bit stat 4 then res.alt else z)
    | some d =>
      let mine := d = 0 || !bit res.stat 0 || leAt res.bytes 11 1 = d
      if mine then (s.setReg (R.LW_STAT d) stat).setWords (R.LW_REC d) res.bytes
      else (s.setReg (R.LW_STAT d) 64).setWords (R.LW_REC d) z

/-- Start a read of record `seq` (R425); it replaces one of the same window that still runs. -/
def State.readStart (s : State) (seq : Nat) (win : Option Nat) : State :=
  let s := s.modLog (fun l => { l with reads := l.reads.filter (fun r => r.win != win) ++ [⟨seq, win⟩] })
  match win with
  | none => s.raise R.LL_RD_STAT_BUSY
  | some d => s.raise (R.LW_STAT_BUSY d)

/-! ## Scan (R419) -/

/-- Slot numbers that memory lists a byte of, ascending, without repeats: every other slot is empty in both copies. -/
def usedSlots : List Host.Cell → List Nat → List Nat
  | [], acc => acc
  | (a, _) :: m, acc =>
    if 0x04000000 ≤ a && a < 0x04800000 then
      let i := (a - 0x04000000) % 0x400000 / 64
      usedSlots m (if acc.contains i then acc else i :: acc)
    else usedSlots m acc

/-- The scan repairs a slot whose losing copy differs from the winner (R419). -/
def State.scanSlot (i : Nat) (s : State) : State :=
  let r := s.resolveSlot i
  if bit r.stat 4 then s.count R.LL_SCAN_MIS
  else if bit r.stat 3 || bit r.stat 2 then
    let loser := if bit r.stat 1 then 0 else 1
    (s.store (slotAddr loser i) r.bytes).count R.LL_SCAN_REP
  else s

/-- SEQs of the slots that resolve valid, with the record's BOOTN. -/
def State.validSeqs (s : State) (slots : List Nat) : List (Nat × Nat) :=
  slots.filterMap (fun i =>
    let r := s.resolveSlot i
    if bit r.stat 0 then some (leAt r.bytes 0 8, leAt r.bytes 28 2) else none)

/-- The scan ends (R419): HEAD, OLDEST, BOOTN, then BOOT is the first record committed. -/
def State.scanDone (s : State) : State :=
  if s.f R.LL_STAT_STATE ≠ 0 then s
  else
    let slots := usedSlots s.mem []
    let s := forEach slots State.scanSlot s
    let s := s.when (s.f R.LL_SCAN_MIS != 0) (fun s => s.raise R.LL_STAT_MISMATCH)
    let vs := s.validSeqs slots
    let top := vs.foldl (fun m v => if v.1 > m.1 then v else m) (0, 0)
    let low := vs.foldl (fun m v => if v.1 < m then v.1 else m) (top.1)
    let s := s.setHead (top.1 + 1)
    let s := s.setOldest (if vs.isEmpty then top.1 + 1 else low)
    let s := s.set R.LL_BOOTN_BOOTN (if vs.isEmpty then 0 else top.2 + 1)
    let s := s.set R.LL_STAT_STATE 1
    let e := s.ownEntry 0 clsInfo
      [s.f R.PMU_RESET_CAUSE_CAUSE, s.f R.LL_SCAN_REP, s.f R.LL_SCAN_MIS, 65536 - (slots.filter (fun i => s.rd (slotAddr 0 i) 8 != 0 || s.rd (slotAddr 1 i) 8 != 0)).length,
       s.f R.BEL_STAT_SEAL_CNT]
    (s.modLog (fun l => { l with committing := some e })).syncOcc

/-! ## Latches (R422) -/

/-- The order in which latches become entries: SAFETY, then LOST, then the others, each by T_FIRST (R422). -/
def latchRank (e : LEntry) : Nat := if e.cls = clsSafety then 0 else if e.src = srcLost then 1 else 2

def latchBefore (a b : LEntry) : Bool :=
  latchRank a < latchRank b || (latchRank a == latchRank b && decide (dt a.tFirst b.tFirst < 0))

/-- A latch may become an entry now (R422). -/
def State.latchReady (s : State) (e : LEntry) : Bool :=
  s.log.admissible e.cls &&
    (latchRank e < 2 ||
      match s.log.tAdm (srcKey e.src e.inj) with
      | none => true
      | some t => s.longAgo (SMap.get (fun _ => 0) s.log.admClk (srcKey e.src e.inj)) ||
          decide ((s.rlimNs e.src : Int) ≤ dt s.gnow t))

def firstLatch (s : State) : List LEntry → Option LEntry
  | [] => none
  | e :: es =>
    match firstLatch s es with
    | none => if s.latchReady e then some e else none
    | some b => if s.latchReady e && !latchBefore b e then some e else some b

/-- The first latch that may become an entry does (R422). -/
def State.latchAdmit (s : State) : State :=
  match firstLatch s s.log.latches with
  | none => s
  | some e => (s.modLog (fun l => { l with latches := l.latches.erase e })).logAdmit { e with latched := true } s.gnow

/-! ## Erase (R428, R429) -/

/-- The code on the SEAL_CODE pins, an outside input (notes/assumptions/31.md). -/
def State.sealCode (s : State) : Nat := (Config.freeWord s.free).toNat % 16

/-- ERASE.GO with a code: RESULT 4 not SEALOPEN, 5 code mismatch, 6 busy, or the erase starts. -/
def State.eraseGo (s : State) (code : Nat) : State :=
  let s := s.set R.LL_ERASE_CODE code
  if s.f R.BEL_STAT_STATE ≠ 5 then s.set R.LL_ERASE_RESULT 4
  else if s.sealCode ≠ code then s.burn.set R.LL_ERASE_RESULT 5
  else if s.f R.LL_STAT_STATE ≠ 1 || s.log.erase.isSome then s.burn.set R.LL_ERASE_RESULT 6
  else
    (((s.burn.set R.LL_ERASE_RESULT 1).set R.LL_STAT_STATE 2).modLog
      (fun l => { l with erase := some 0, eraseAborted := false })).logStart.syncOcc

/-- Bytes of the two copies outside slot `keep`, the first `n` slots in ascending order, become zero (R428 step 2). -/
def wipe (keep n : Nat) (m : List Host.Cell) : List Host.Cell :=
  m.filter (fun c =>
    if 0x04000000 ≤ c.1 && c.1 < 0x04800000 then
      let i := (c.1 - 0x04000000) % 0x400000 / 64
      let pos := if i < keep then i else i - 1
      i == keep || pos ≥ n
    else true)

/-- The wipe ends or stops (R428 steps 2 to 4, R429): `n` slots were wiped. One that stops short of every other slot is
aborted, by the seal or by a change of its code. -/
def State.eraseDone (s : State) (n : Nat) : State :=
  match s.log.erase with
  | none => s
  | some 0 => s
  | some seq =>
    let aborted := s.log.eraseAborted || n < 65535
    let n := if aborted then min n 65535 else 65535
    let s := { s with mem := wipe (seq % 65536) n s.mem }
    let e := s.ownEntry 3 clsSafety [seq % 2 ^ 32, seq / 2 ^ 32, n, b2n aborted]
    let s := s.set R.LL_STAT_STATE 1
    let s := s.set R.LL_ERASE_RESULT (if aborted then 3 else 2)
    let s := s.when (!aborted) (fun s => s.setOldest seq)
    (s.modLog (fun l => { l with erase := none, eraseAborted := false, committing := some e })).syncOcc

/-! ## Last gasp (R424) -/

/-- The PMU requests last gasp: `cause` 1 a rail, 2 a domain level; the mains-loss step goes beside it. -/
def State.requestLastGasp (s : State) (cause : Nat) : State :=
  if s.log.lastGasp.isSome then s
  else
    ((s.set R.LL_STAT_STATE 3).modLog
      (fun l => { l with lastGasp := some (cause + 16 * s.f R.PMU_STAT_STEP) })).logStart.syncOcc

end Sys2Proof.Machine
end

