-- ==== Sys2Proof/Machine/Rights.lean ====
section
/-! DEFINITION. Who may reach what: the physical address map (R26), the islands and power domains that answer (R10, R11,
R19), the access widths (R29), the domain windows (R467) and the register block rights (R468), and what a refused access
leaves behind (R19, R26, R469). -/

namespace Sys2Proof.Machine

/-! ## Islands and power domains (R10, R441) -/

def islSUP : Nat := 32
def islDSP : Nat := 33
def islRAB : Nat := 34
def islRCD : Nat := 35
def islPB0 : Nat := 36
def islTIM : Nat := 40
def islBLY : Nat := 41
def islSYS : Nat := 42
def islAON : Nat := 43

/-- The root domain of an island ("Clock islands of the P9"). PD03 is SYS's. -/
def rootPD (i : Nat) : Nat :=
  if i < 32 then 4 + i / 8
  else match i with
    | 32 => 8 | 33 => 9 | 34 => 11 | 35 => 12 | 36 => 16 | 37 => 17 | 38 => 18 | 39 => 19
    | 40 => 21 | 41 => 2 | 42 => 3 | _ => 0

/-- A power domain is on, and not isolated ahead of losing its level (R11, R442). -/
def State.pdOn (s : State) (d : Nat) : Bool := bit (s.f R.PMU_PD_STAT_PD) d && !bit s.pmu.iso d

/-- An island runs: its root domain is on. -/
def State.islOn (s : State) (i : Nat) : Bool := s.pdOn (rootPD i)

/-- The power domain of a ring's port. -/
def ringPD (r : Nat) : Nat := if r < 2 then 11 else 12

/-- The island of a ring port. -/
def ringIsl (r : Nat) : Nat := if r < 2 then islRAB else islRCD

/-! ## The address map (R26) -/

/-- The ranges of "Physical address map". -/
inductive Range where
  | sram | local | mramLog | mramData | ax | pc | hg | ring | dsp | ke | tb | tio | adc | bel | dx | ll | fid | pmu
  | pin | dom | snp | pcie | id | dram | outbound
  deriving DecidableEq, Repr

/-- One row of the map: first and last address. -/
structure MapRow where
  lo : Nat
  hi : Nat
  what : Range
  deriving DecidableEq, Repr

/-- "Physical address map" (R26). -/
def addressMap : List MapRow := [
  ⟨0x000000000, 0x000FFFFFF, .sram⟩,
  ⟨0x002000000, 0x0027FFFFF, .local⟩,
  ⟨0x004000000, 0x0047FFFFF, .mramLog⟩,
  ⟨0x004800000, 0x004FFFFFF, .mramData⟩,
  ⟨0x010000000, 0x0100FFFFF, .ax⟩,
  ⟨0x010100000, 0x010103FFF, .pc⟩,
  ⟨0x010110000, 0x0101103FF, .hg⟩,
  ⟨0x010120000, 0x01012FFFF, .ring⟩,
  ⟨0x010200000, 0x0102FFFFF, .dsp⟩,
  ⟨0x010300000, 0x01030FFFF, .ke⟩,
  ⟨0x010310000, 0x01031FFFF, .tb⟩,
  ⟨0x010320000, 0x01032FFFF, .tio⟩,
  ⟨0x010330000, 0x01033FFFF, .adc⟩,
  ⟨0x010340000, 0x01034FFFF, .bel⟩,
  ⟨0x010350000, 0x01035FFFF, .dx⟩,
  ⟨0x010360000, 0x01036FFFF, .ll⟩,
  ⟨0x010370000, 0x01037FFFF, .fid⟩,
  ⟨0x010380000, 0x01038FFFF, .pmu⟩,
  ⟨0x010390000, 0x01039FFFF, .pin⟩,
  ⟨0x0103A0000, 0x0103AFFFF, .dom⟩,
  ⟨0x0103B0000, 0x0103BFFFF, .snp⟩,
  ⟨0x0103C0000, 0x0103CFFFF, .pcie⟩,
  ⟨0x010400000, 0x010400FFF, .id⟩,
  ⟨0x100000000, 0x4FFFFFFFF, .dram⟩,
  ⟨0x800000000, 0xFFFFFFFFFFFFF, .outbound⟩]

/-- The range an address lies in; LPDDR5 ends at the fitted size (R27, R471). -/
def State.range (s : State) (a : Nat) : Option Range :=
  match addressMap.find? (fun r => r.lo ≤ a && a ≤ r.hi) with
  | none => none
  | some r =>
    if r.what = .dram && 0x100000000 + s.f R.DOM_DRAM_SIZE * 0x10000000 ≤ a then none else some r.what

/-- A range that takes memory accesses (R467). -/
def Range.isMem : Range → Bool
  | .sram | .local | .mramLog | .mramData | .dram | .outbound => true
  | _ => false

/-- The island that answers at an address. -/
def islOf (r : Range) (a : Nat) : Nat :=
  match r with
  | .local => (a - 0x02000000) / 0x40000
  | .ax | .dsp | .ke => islDSP
  | .pc => islPB0 + (a - 0x10100000) / 0x1000
  | .hg => islPB0 + (a - 0x10110000) / 0x100
  | .ring => ringIsl ((a - 0x10120000) / 0x4000)
  | .tb | .tio | .adc => islTIM
  | .bel => islBLY
  | .pmu => if 0x10381000 ≤ a && a < 0x10382000 then islAON else islSYS
  | _ => islSYS

/-- The power domain that serves an address: the island's root domain, or for a block in another domain served by SYS or
TIM that domain (R11; which block lies in which: notes/assumptions/4.md). -/
def pdOf (r : Range) (a : Nat) : Nat :=
  match r with
  | .sram => 10
  | .mramLog | .mramData | .ll => 1
  | .dram => 15
  | .outbound | .pcie => 14
  | .adc => 20
  | .snp => 22
  | r => rootPD (islOf r a)

/-! ## Verdicts -/

/-- What becomes of an access: performed; outside the map (R26); an access error only (R28, R29, R471, a failed channel
R20, a rule of a block); without domain rights (R469); an OFF response of an island (R19). -/
inductive Verdict where
  | ok
  | outside
  | refused
  | noRights
  | off (isl : Nat)
  deriving DecidableEq, Repr

/-- Bytes of an access width. -/
def sizeBytes : Size → Nat
  | .b1 => 1 | .b2 => 2 | .b4 => 4 | .b8 => 8

/-- R29: register blocks take 32-bit accesses (64 bits as two) at their alignment; memory takes every width at natural
alignment. DEDUCED: 64 bits are aligned to 8 bytes in a register block too (notes/assumptions/2034.md). -/
def widthOk (r : Range) (a n : Nat) : Bool :=
  a % n == 0 && (r.isMem || n == 4 || n == 8)

/-! ## Windows (R467) -/

/-- The right an access needs. -/
inductive Right where
  | read | write | exec
  deriving DecidableEq, Repr

/-- Window j of domain d grants a right on the pages from byte `a` to byte `b`. -/
def State.winGrants (s : State) (d j a b : Nat) (r : Right) : Bool :=
  let k := d - 1
  let have' :=
    match r with
    | .read => s.on (R.WIN_BASE_HI_R k j)
    | .write => s.on (R.WIN_BASE_HI_W k j)
    | .exec => s.on (R.WIN_BASE_HI_X k j)
  let lo := s.f (R.WIN_BASE_LO_BASE k j) + 2 ^ 20 * s.f (R.WIN_BASE_HI_BASE k j)
  let hi := s.f (R.WIN_LIMIT_LO_LIMIT k j) + 2 ^ 20 * s.f (R.WIN_LIMIT_HI_LIMIT k j)
  s.on (R.WIN_BASE_HI_EN k j) && have' && lo ≤ a / 4096 && b / 4096 ≤ hi

/-- Domain `d` has a right on `n` bytes of memory at `a`: every byte in one window; DOM[0] needs none (R466, R467). -/
def State.memRight (s : State) (d a n : Nat) (r : Right) : Bool :=
  d == 0 || (List.range 8).any (fun j => s.winGrants d j a (a + n - 1) r)

/-- Rights on one access in a memory range: R467, R426 (reads of the logline copies to DOM[0] only). -/
def State.rangeRight (s : State) (d : Nat) (g : Range) (a n : Nat) (r : Right) : Bool :=
  if g = .mramLog then d == 0 else s.memRight d a n r

/-! ## Register block rights (R468) -/

/-- `who` is the supervisor strand of domain `d` (R316). -/
def State.isSup (s : State) (who : Requester) (d : Nat) : Bool :=
  who.kind == .core && s.on (R.DSP_DSUP_V d) && who.strand == some (s.f (R.DSP_DSUP_STRAND d))

/-- R178: the owning domain, DOM[0], and for reads a shared domain; R197: OWNER and READ_SHARE are DOM[0]'s to write. -/
def State.axRight (s : State) (d a : Nat) (write : Bool) : Bool :=
  let n := (a - 0x10000000) / 0x1000
  let o := a % 0x1000
  d == 0 ||
    (s.f (R.AX_OWNER_DOM n) == d && !(write && (o == 0x70C || (0x720 ≤ o && o < 0x740)))) ||
    (!write && bit (s.f (R.AX_READ_SHARE n (d / 32))) (d % 32))

/-- R315: rights on the dispatcher's registers. `v` is the word written. -/
def State.dspRight (s : State) (who : Requester) (a v : Nat) (write : Bool) : Bool :=
  let d := who.dom
  if a < 0x10210000 then
    if a = R.DSP_SOFT_W then
      !write || (who.kind == .core && who.strand.isSome && (d == 0 || d == s.f (R.ST_DOM (bits v 25 16))))
    else if 0x10200800 ≤ a && a < 0x10200840 then
      let t := if write then bits v 9 0 else s.f R.DSP_PV_SEL_STRAND
      d == 0 || s.isSup who (s.f (R.ST_DOM t))
    else !write || d == 0
  else if a < 0x10220000 then
    let t := (a - 0x10210000) / 0x40
    let o := a % 0x40
    let sd := s.f (R.ST_DOM t)
    if d == 0 then true
    else if !write then d == sd
    else if o == 0x14 || o == 0x2C then false
    else if o == 0x08 then s.isSup who sd && bits v 5 5 == s.f (R.ST_ATTR_LOOPSAVE t)
    else s.isSup who sd
  else if a < 0x10240000 then
    let t := (a - 0x10220000) / 8
    if d == 0 then true
    else if !write then d == s.f (R.TAG_CTL_DOM t)
    else if a % 8 == 0 then d == s.f (R.TAG_CTL_WDOM t)
    else
      d == s.f (R.TAG_CTL_DOM t) && bits v 15 8 == s.f (R.TAG_CTL_WDOM t) && bits v 7 0 == d &&
        (bit v 28 == false || s.f (R.ST_DOM (bits v 25 16)) == d)
  else
    let f := (a - 0x10240000) / 0x40
    d == 0 || (!write && d == s.f (R.FLOW_CTRL_DOM f))

/-- R203, R221: rights on knot slots; a FREE slot takes an OPEN of any domain, and no other command. -/
def State.keRight (s : State) (d a v : Nat) (write : Bool) : Bool :=
  if a < 0x10301000 then true
  else
    let k :=
      if a < 0x10302000 then (a - 0x10301000) / 0x40
      else if a < 0x10302800 then (a - 0x10302000) / 0x20
      else (a - 0x10302800) / 0x20
    d == 0 || s.f (R.K_OWNER_DOM (k % 64)) == d ||
      (write && a < 0x10302000 && a % 0x40 == 0 && bits v 31 28 == 1 && s.f (R.K_STAT_STATE (k % 64)) == 0)

/-- The domain that owns pin `p`'s item beside DOM[0] (R493, "Bank pin order"); the bank's SYNC pins and GPIO pins have none. -/
def State.pinOwner (s : State) (p : Nat) : Option Nat :=
  if p < 360 then
    let b := p / 90
    let l := p % 90
    if l < 80 then some (s.f (R.DOM_PCOWN_DOM (16 * b + l / 5)))
    else if l < 88 then some (s.f (R.DOM_HGOWN_DOM (4 * b + (l - 80) / 2)))
    else none
  else if p < 392 then some (s.f (R.DOM_TEOOWN_DOM (p - 360)))
  else if p < 424 then some (s.f (R.DOM_TCIOWN_DOM (p - 392)))
  else none

/-- "Register block rights" (R468). `v` is the word written. The ADC block, of which the spec lists no register, is open to DOM[0]
and to the owner of any converter (DESIGN CHOICE, notes/assumptions/2065.md). -/
def State.regRight (s : State) (who : Requester) (g : Range) (a v : Nat) (write : Bool) : Bool :=
  let d := who.dom
  match g with
  | .ax => s.axRight d a write
  | .pc => d == 0 || d == s.f (R.DOM_PCOWN_DOM ((a - 0x10100000) / 0x100))
  | .hg => d == 0 || d == s.f (R.DOM_HGOWN_DOM ((a - 0x10110000) / 0x40))
  | .tio =>
    if a < 0x10320200 then d == 0 || d == s.f (R.DOM_TEOOWN_DOM ((a - 0x10320000) / 0x10))
    else if 0x10320400 ≤ a && a < 0x10320800 then d == 0 || d == s.f (R.DOM_TCIOWN_DOM ((a - 0x10320400) / 0x20))
    else true
  | .adc => d == 0 || (List.range 16).any (fun k => s.f (R.DOM_ADCOWN_DOM k) == d)
  | .ring | .tb => !write || d == 0
  | .dom =>
    if 0x103A8000 ≤ a then d == 0 || (!write && (a - 0x103A8000) / 0x80 == d) else !write || d == 0
  | .pin =>
    !write || d == 0 ||
      (0x10390000 ≤ a && a < 0x10390000 + 4 * 488 && s.pinOwner ((a - 0x10390000) / 4) == some d)
  | .dsp => s.dspRight who a v write
  | .ke => s.keRight d a v write
  | .bel | .dx | .pmu => !write || d == 0
  | .ll =>
    if a < 0x10360040 then !write || d == 0
    else if 0x10368000 ≤ a then d == 0 || (a - 0x10368000) / 0x80 == d
    else d == 0
  | .fid => d == 0
  | .id => true
  | .snp => d == 0 || d == s.f R.SNP_CTRL_DOM
  | .pcie =>
    d == 0 ||
      (if 0x103C0500 ≤ a && a < 0x103C0600 then d == s.f (R.PCIE_FN_CFG_FDOM ((a - 0x103C0500) / 4))
       else if 0x103C1000 ≤ a && a < 0x103C1100 then
         d == s.f (R.PCIE_CH_DOM_DOM ((a - 0x103C1000) / 0x20)) && !(write && a % 0x20 == 0)
       else if 0x103C2100 ≤ a && a < 0x103C2240 then d == s.f R.PCIE_ETH_CTRL_DOM
       else false)
  | _ => false

/-! ## The check of one access -/

/-- The island a requester sends from: a core's own island; every other requester is in SYS. -/
def reqIsl (who : Requester) : Nat :=
  match who.kind with
  | .core => if who.index < 32 then who.index else islSUP
  | _ => islSYS

/-- The debug port, index 0 of the ports (notes/assumptions/5.md). -/
def reqIsDebug (who : Requester) : Bool := who.kind == .port && who.index == 0

/-- R465: a closed debug port reaches the ID block and the logline read path only; R427: it needs PD23. -/
def State.debugBlocked (s : State) (who : Requester) (g : Range) (a : Nat) : Bool :=
  reqIsDebug who &&
    (!s.pdOn 23 ||
      (s.on R.DOM_BOOT_FUSE_SECURE && !s.on R.DOM_BOOT_CTRL_DBGOPEN &&
        !(g == .id || (g == .ll && 0x10360100 ≤ a && a < 0x103601C0))))

/-- The check of one access of `n` bytes: the map (R26, R27), the width (R29), the rights (R466 to R469), R28, the
isolation cell (R19) and a failed channel (R20), either way round (DEDUCED, notes/assumptions/2031.md). -/
def State.check (s : State) (who : Requester) (a n v : Nat) (r : Right) : Verdict :=
  match s.range a with
  | none => .outside
  | some g =>
    let write := r == .write
    if !widthOk g a n then .refused
    else if s.debugBlocked who g a then .refused
    else if !(if g.isMem then s.rangeRight who.dom g a n r else s.regRight who g a v write) then .noRights
    else if write && (g == .mramLog || g == .mramData) then .refused
    else
      let i := islOf g a
      if !s.pdOn (pdOf g a) || !s.islOn i then .off i
      else if s.tim.failed.contains (reqIsl who, i) || s.tim.failed.contains (i, reqIsl who) then .refused
      else if g == .dram && !s.on R.DOM_DRAM_READY then .refused
      else .ok

/-! ## What a refused access leaves -/

def kindCode : ReqKind → Nat
  | .core => 0 | .dma => 1 | .pcie => 2 | .port => 3

/-- R469: VIOL_CNT counts, the first violation is captured while VIOL_SRC.VALID is clear, and a kind 3 report is sent. -/
def State.violation (s : State) (who : Requester) (a : Nat) (write : Bool) : State :=
  let s := s.count R.DOM_VIOL_CNT
  let src := 2 ^ 31 + b2n write * 2 ^ 16 + who.dom % 256 * 256 + kindCode who.kind * 64 + who.index % 64
  let s :=
    if s.on R.DOM_VIOL_SRC_VALID then s
    else
      ((s.set R.DOM_VIOL_ADDR_LO_ADDR (a % 2 ^ 32)).set R.DOM_VIOL_ADDR_HI_ADDR (a / 2 ^ 32)).setReg R.DOM_VIOL_SRC src
  s.report (srcOf 12 (3 * 64 + kindCode who.kind)) clsWarn who.dom [a % 2 ^ 32, a / 2 ^ 32, src]

/-- R19: an OFF response is counted by the PMU (R442) and reported. -/
def State.offResponse (s : State) (isl : Nat) : State :=
  ((s.count R.PMU_OFFRESP_CNT).report (srcOf 1 (isl * 8 + 1)) clsFault 0 [isl]).report (srcOf 11 (3 * 64 + isl)) clsWarn 0 [isl]

/-- The effect of an access that is not performed, beside the access error. -/
def State.refuse (s : State) (vd : Verdict) (who : Requester) (a : Nat) (write : Bool) : State :=
  match vd with
  | .ok | .refused => s
  | .outside => s.report (srcOf 1 (reqIsl who * 8 + 4)) clsWarn who.dom [a % 2 ^ 32, a / 2 ^ 32]
  | .noRights => s.violation who a write
  | .off i => s.offResponse i

end Sys2Proof.Machine
end

