-- ==== Sys2Proof/Machine/Dsp.lean ====
section
/-! DEFINITION. The dispatcher's shared operations (spec/12_dispatcher.md): strand states, the trace, operand tags, interrupt
routing, suspension, commands to strands, cores going on and off line. -/

namespace Sys2Proof.Machine

/-- The outcome of a register write: a verdict, and the state. -/
abbrev Wr := Verdict × State

/-- States of "Strand states" (R293, R319). -/
def stIdle : Nat := 0
def stWaiting : Nat := 1
def stReady : Nat := 2
def stRunning : Nat := 3
def stParked : Nat := 4

def State.stOf (s : State) (t : Nat) : Nat := s.f (R.ST_STAT_STATE t)
def State.setSt (s : State) (t v : Nat) : State := s.set (R.ST_STAT_STATE t) v

/-- Strands whose state register is listed: every strand that ever left IDLE. -/
def strandsListed : List (Nat × Word) → List Nat
  | [] => []
  | (a, _) :: m =>
    if 0x10210000 ≤ a && a < 0x10220000 && a % 0x40 == 4 then (a - 0x10210000) / 0x40 :: strandsListed m
    else strandsListed m

def State.activeStrands (s : State) : List Nat := (strandsListed s.regs).filter (fun t => s.stOf t != stIdle)

/-! ## Accesses an island's engine makes to memory -/

/-- An engine in island `frm` may access `n` bytes of memory at `a` with the rights of domain `d`. -/
def State.engOk (s : State) (frm d a n : Nat) (r : Right) : Bool :=
  n == 0 ||
    match s.range a, s.range (a + n - 1) with
    | some g, some g' =>
      let i := islOf g a
      g == g' && g.isMem && s.rangeRight d g a n r && !(r == .write && (g == .mramLog || g == .mramData)) &&
        s.pdOn (pdOf g a) && s.islOn i && s.islOn (islOf g (a + n - 1)) &&
        !(s.tim.failed.contains (frm, i) || s.tim.failed.contains (i, frm)) &&
        (g != .dram || s.on R.DOM_DRAM_READY) && g != .outbound
    | _, _ => false

/-- An engine's access that engOk turns away: one to memory that is off gets an OFF response (R19). -/
def State.engRefused (s : State) (d a n : Nat) (r : Right) : State :=
  match s.range a with
  | some g =>
    if g.isMem && s.rangeRight d g a n r && !(s.pdOn (pdOf g a) && s.islOn (islOf g a)) then s.offResponse (islOf g a) else s
  | none => s

/-! ## Trace (R318) -/

/-- One trace event: the record goes into the ring buffer, or is counted in TRC.LOST. -/
def State.trace (s : State) (evt strand core flow arg epoch aux : Nat) : State :=
  let size := s.f R.DSP_TRC_SIZE_SIZE
  if !s.on R.DSP_TRC_CTRL_EN || size < 2 || !bit (s.f R.DSP_TRC_EVMASK) evt ||
      (s.on R.DSP_TRC_CTRL_DOMF && s.f (R.ST_DOM strand) != s.f R.DSP_TRC_CTRL_DOM) then s
  else
    let wr := s.f R.DSP_TRC_WR_INDEX
    let next := (wr + 1) % size
    let full := next == s.f R.DSP_TRC_RD_INDEX
    if full && s.on R.DSP_TRC_CTRL_STOPFULL then s.count R.DSP_TRC_LOST
    else
      let a := 16 * s.f R.DSP_TRC_BASE_LO_BASE + 2 ^ 32 * s.f R.DSP_TRC_BASE_HI_BASE + 16 * wr
      if !s.engOk islDSP 0 a 16 .write then (s.engRefused 0 a 16 .write).count R.DSP_TRC_LOST
      else
        let w1 := evt * 2 ^ 27 + strand % 1024 * 2 ^ 17 + core % 64 * 2 ^ 11 + s.f (R.ST_ATTR_PRIO strand) * 64 + flow % 64
        let s := (((s.wr a 4 s.gnow).wr (a + 4) 4 w1).wr (a + 8) 4 arg).wr (a + 12) 4 (epoch % 256 * 2 ^ 24 + aux % 2 ^ 24)
        let s := s.set R.DSP_TRC_WR_INDEX next
        if full then (s.count R.DSP_TRC_LOST).set R.DSP_TRC_RD_INDEX ((s.f R.DSP_TRC_RD_INDEX + 1) % size) else s

/-- A trace event of a strand, with its epoch and core. -/
def State.traceS (s : State) (evt t core arg : Nat) : State :=
  s.trace evt t core 0 arg (s.f (R.ST_STAT_EPOCH t)) 0

/-! ## READY and operand tags (R297 to R299) -/

/-- The strand becomes READY with a ready stamp; `arg` of the trace record names the tag, or 0xFFFF_FFFF. -/
def State.makeReady (s : State) (t stamp arg : Nat) : State :=
  let s := s.setSt t stReady
  let s := s.modStrand t (fun x => { x with ready := stamp, affSeen := none })
  s.traceS 0 t 63 arg

/-- After a planned splice the wake of a mirrored axis's strand waits for the mirror (R409 step 5): `t` is its feedback tag. -/
def State.wakeHeld (s : State) (t : Nat) : Bool :=
  s.dx.holdWake.isSome && (List.range 256).any (fun n =>
    bit (s.f (R.DX_AXMASK (n / 32))) (n % 32) && s.f (R.AX_FB_TAG_TAG n) == t)

/-- The owner of tag `t` waits with no tag of its own empty: it is READY, at the instruction after its WAITOP (R265). -/
def State.wakeOwner (s : State) (t : Nat) : State :=
  let owner := s.f (R.TAG_CTL_OWNER t)
  if s.stOf owner == stWaiting && s.f (R.ST_WAIT_WEMPTY owner) == 0 then
    (s.modStrand owner (fun x => { x with saved := { x.saved with pc := x.saved.pc + 4 } })).makeReady owner s.gnow t
  else s

/-- A source fills tag `t` (R298, R299). -/
def State.fillTag (s : State) (t v : Nat) : State :=
  let full := s.on (R.TAG_CTL_FULL t)
  let owner := s.f (R.TAG_CTL_OWNER t)
  let s := s.set (R.TAG_VALUE t) v
  if full then
    let s := (s.raise (R.TAG_CTL_OVR t)).count R.DSP_TAGOVR_CNT
    let s := s.report (srcOf 5 (3 * 64)) clsWarn (s.f (R.TAG_CTL_DOM t)) [t, v]
    s.trace 12 owner 63 0 t (s.f (R.ST_STAT_EPOCH owner)) 0
  else
    let s := s.raise (R.TAG_CTL_FULL t)
    if s.on (R.TAG_CTL_OWNED t) && s.on (R.TAG_CTL_WAIT t) then
      let s := s.set (R.ST_WAIT_WEMPTY owner) (s.f (R.ST_WAIT_WEMPTY owner) - 1)
      if s.wakeHeld t then s else s.wakeOwner t
    else s

/-- TAGRD empties a tag (R265); a wait tag counts as empty again. -/
def State.emptyTag (s : State) (t : Nat) : State :=
  if s.on (R.TAG_CTL_FULL t) then
    let s := s.clr (R.TAG_CTL_FULL t)
    if s.on (R.TAG_CTL_OWNED t) && s.on (R.TAG_CTL_WAIT t) then s.bump (R.ST_WAIT_WEMPTY (s.f (R.TAG_CTL_OWNER t))) else s
  else s

/-- A tag is FULL again with the value a TAGRD returned (R311 step 2); a tag filled since keeps the newer value. -/
def State.refillTag (s : State) (t v : Nat) : State :=
  if s.on (R.TAG_CTL_FULL t) then s
  else
    let s := (s.set (R.TAG_VALUE t) v).raise (R.TAG_CTL_FULL t)
    if s.on (R.TAG_CTL_OWNED t) && s.on (R.TAG_CTL_WAIT t) then
      let o := s.f (R.TAG_CTL_OWNER t)
      s.set (R.ST_WAIT_WEMPTY o) (s.f (R.ST_WAIT_WEMPTY o) - 1)
    else s

/-! ## Interrupts (R281, R282, R316) -/

/-- An interrupt of number `i` for strand `t`. -/
def State.raiseInt (s : State) (t i einfo : Nat) : State :=
  if s.stOf t == stIdle then s.count R.DSP_IRQDROP_CNT
  else
    let s := s.orF (R.ST_IPEND t) (2 ^ i)
    let s := s.modStrand t (fun x => { x with einfo := SMap.put (fun _ => 0) x.einfo i einfo })
    if s.stOf t == stWaiting && bit (s.strand t).saved.ssw.toNat 30 then s.makeReady t s.gnow 0xFFFFFFFF else s

/-- Routing through IRT[x] (R316). -/
def State.irq (s : State) (x i einfo : Nat) : State :=
  if s.on (R.DSP_IRT_EN x) then s.raiseInt (s.f (R.DSP_IRT_STRAND x)) i einfo else s.count R.DSP_IRQDROP_CNT

/-- EXT source `x` (R316): INT 4. -/
def State.ext (s : State) (x : Nat) : State := s.irq x 4 x

/-- SUPERVISOR for axis `n` (R122, R316); without a supervisor strand it is dropped, counted and logged
(notes/assumptions/1210.md). -/
def State.raiseSupervisor (s : State) (n : Nat) : State :=
  let d := s.f (R.AX_OWNER_DOM n)
  if s.on (R.DSP_DSUP_V d) then s.raiseInt (s.f (R.DSP_DSUP_STRAND d)) 1 n
  else (s.count R.DSP_IRQDROP_CNT).report (srcOf 5 (5 * 64)) clsWarn d [n]

/-- Where STACKFAULT of strand `t` goes (R289, R316): `none` for a supervisor strand of DOM[0] that finds no other. -/
def State.stackfaultTarget (s : State) (t : Nat) : Option Nat :=
  let d := s.f (R.ST_DOM t)
  let own := if s.on (R.DSP_DSUP_V d) then some (s.f (R.DSP_DSUP_STRAND d)) else none
  let zero := if s.on (R.DSP_DSUP_V 0) then some (s.f (R.DSP_DSUP_STRAND 0)) else none
  match own with
  | some u => if u = t then (if zero == some t then none else zero) else some u
  | none => if zero == some t then none else zero

/-! ## Cores and prefetch slots -/

/-- The core is online and takes placements (R302, R312). -/
def State.coreUp (s : State) (c : Nat) : Bool := s.on (R.DSP_CORE_ONLINE c) && !s.on (R.DSP_CORE_HALTED c)

/-- HALTED shows a debug halt and the halt of a second stack fault. -/
def State.syncHalt (s : State) (c : Nat) : State :=
  s.setB (R.DSP_CORE_HALTED c) ((s.core c).dbgHalt || (s.core c).sfHalt)

/-- The prefetch slot of a core is released. -/
def State.freeSlot (s : State) (c : Nat) : State :=
  if s.on (R.DSP_CORE_PF_V c) then
    let t := s.f (R.DSP_CORE_PF c)
    (((s.clr (R.DSP_CORE_PF_V c)).clr (R.DSP_CORE_PF c)).clr (R.ST_STAT_PREFETCHED t)).modCore c
      (fun k => { k with pfBusy := false })
  else s

/-- The slot that holds strand `t`, on any core, is released. -/
def State.freeSlotOf (s : State) (t : Nat) : State :=
  if s.on (R.ST_STAT_PREFETCHED t) then
    forN 36 (fun c s => if s.on (R.DSP_CORE_PF_V c) && s.f (R.DSP_CORE_PF c) == t then s.freeSlot c else s) s
  else s

/-- Physical q register by number (R243): the store of a context. -/
def Ctx.phys (x : Ctx) (i : Nat) : BitVec 128 := SMap.get (fun _ => 0) x.q i
def Ctx.setPhys (x : Ctx) (i : Nat) (v : BitVec 128) : Ctx := { x with q := SMap.put (fun _ => 0) x.q i v }

/-- General register by number, and its write. -/
def Ctx.reg (x : Ctx) (i : Nat) : Word := SMap.get (fun _ => 0) x.g i
def Ctx.setReg (x : Ctx) (i : Nat) (v : Word) : Ctx := { x with g := SMap.put (fun _ => 0) x.g i v }

/-- q write `w` put behind those that land no later than it. -/
def landBehind (w : QWrite) : List QWrite → List QWrite
  | [] => [w]
  | v :: l => if w.due < v.due then w :: v :: l else v :: landBehind w l

/-- Pending q writes in the order in which they land: by c + L − 1, then in issue order (R268). -/
def landOrder (l : List QWrite) : List QWrite := l.foldl (fun a w => landBehind w a) []

/-- A stalled access delivers what it holds, and every pending q write lands (R268, R269, R306). -/
def Core.land (k : Core) : Core :=
  let x := match k.stall with
    | some y => y.qw.foldl (fun x w => x.setPhys w.1 w.2) (y.gw.foldl (fun x w => x.setReg w.1 w.2) k.ctx)
    | none => k.ctx
  { k with ctx := (landOrder k.pendq).foldl (fun x w => x.setPhys w.reg w.val) x, pendq := [], stall := none }

/-- The placement on core `c` leaves it: RUN invalid, the core free. -/
def State.leaveCore (s : State) (c : Nat) : State :=
  ((s.clr (R.DSP_CORE_RUN_V c)).clr (R.DSP_CORE_RUN c)).modCore c
    (fun k => { k with pendq := [], stall := none, detached := false, suspReq := 0, ctx := {} })

/-- A detached placement ends without changing the strand (R311); DETACHED reads 1 while another one still runs (R319). -/
def State.endDetached (s : State) (c : Nat) : State :=
  let t := (s.core c).strand
  let s := (s.leaveCore c).modCore c (fun k => { k with bank := none })
  s.setB (R.ST_STAT_DETACHED t) ((List.range 36).any (fun d => (s.core d).detached && (s.core d).strand == t))

/-- A store, or an instruction posted like one, of the placement on core `c` has not been acknowledged (R306); those of a
detached placement are not the strand's (R311). -/
def State.notePosted (s : State) (c : Nat) : State :=
  if (s.core c).detached then s else s.modStrand (s.core c).strand (fun u => { u with posted := true })

/-- The core runs a placement, attached or detached. -/
def State.coreBusy (s : State) (c : Nat) : Bool := s.on (R.DSP_CORE_RUN_V c) || (s.core c).detached

/-- Suspension (R306): pending q writes land, the bank goes to the save area, the core is free; the strand's state is set by
the caller. Posted stores not known to be accepted leave the strand DRAINING. -/
def State.suspend (s : State) (c : Nat) : State :=
  let t := (s.core c).strand
  let x := (s.core c).land.ctx
  let s := s.setB (R.ST_STAT_DRAINING t) (s.strand t).posted
  let s := s.modStrand t (fun u => { u with saved := x, tagrd := [] })
  (s.leaveCore c).modCore c (fun k => { k with bank := some t })

/-- The conditions of R283 under which a suspension must wait: a stalled access or a pending q write (1), a delay slot (2),
an active repeat of a strand with LS = 0 (3). -/
def Core.heldOff (k : Core) : Bool :=
  k.stall.isSome || !k.pendq.isEmpty || k.ctx.ds != 0 ||
    (!bit k.ctx.ssw.toNat 29 && k.ctx.lc0 != 0 && !k.ctx.lsusp)

/-- A strand on no core goes back to IDLE: pending interrupts cleared, slot and shadow area freed (R293). -/
def State.toIdle (s : State) (t : Nat) : State :=
  let s := (s.freeSlotOf t).set (R.ST_IPEND t) 0
  let s := forN 36 (fun c s =>
    match (s.core c).shadow with
    | some r => if r.strand = t then (s.clr (R.DSP_CORE_SHADOW c)).modCore c (fun k => { k with shadow := none }) else s
    | none => s) s
  let s := s.modStrand t (fun x => { x with einfo := [], kept := none, noShadow := false, errs := [],
                                            saved := { x.saved with attempt := none } })
  s.setSt t stIdle

/-- Core `c` goes offline (R313): its slot is released. OFFLINE is no strand's event: DOMF leaves it out (R318). -/
def State.coreOffline (s : State) (c : Nat) : State :=
  let s := ((s.freeSlot c).clr (R.DSP_CORE_ONLINE c)).clr (R.DSP_CORE_OFFREQ c)
  let s := s.modCore c (fun k => { k with resetDone := false, suspReq := 0 })
  let s := if s.on R.DSP_TRC_CTRL_DOMF then s else s.trace 13 0 c 0 0xFFFFFFFF 0 0
  s.report (srcOf 5 (4 * 64 + c)) clsWarn 0 [c]

/-- Core `c` comes online after its island's reset (R313). -/
def State.coreOnline (s : State) (c : Nat) : State :=
  let s := s.modCore c (fun k => { k with sfHalt := false, bank := none })
  (s.raise (R.DSP_CORE_ONLINE c)).syncHalt c

/-- A preemption (R293, R305). -/
def State.preemptNow (s : State) (c : Nat) : State :=
  let t := (s.core c).strand
  let s := ((s.suspend c).setSt t stReady).count R.DSP_PREEMPT_CNT
  s.traceS 4 t c 0xFFFFFFFF

/-- How long a preemption waited is free; longer than HOLDOFF_MAX it is traced and reported (R305). -/
def State.preemptLate (s : State) (c : Nat) : State :=
  let k := s.core c
  let hold := (Config.freeWord s.free).toNat
  let s := s.burn
  if k.ctx.holdoff < hold then
    (s.traceS 14 k.strand c hold).report (srcOf 5 c) clsWarn (s.f (R.ST_DOM k.strand)) [k.strand, hold]
  else s

/-- A STOP waits for the placement on core `c` to end. -/
def State.stopDue (s : State) (c : Nat) : Bool := (s.core c).suspReq == 2

/-- The placement of strand `t` on core `c` has ended: a STOP that waited for it (`stop`) makes the strand IDLE (R293), and an
offline request takes the core offline (R313). -/
def State.vacated (s : State) (c t : Nat) (stop : Bool) : State :=
  let s := if stop then s.toIdle t else s
  if s.on (R.DSP_CORE_OFFREQ c) && !s.coreBusy c then s.coreOffline c else s

/-- A suspension of the placement on core `c` waits (R283). -/
def State.suspDue (s : State) (c : Nat) : Bool :=
  s.on (R.DSP_CORE_RUN_V c) && ((s.core c).suspReq != 0 || s.on (R.DSP_CORE_OFFREQ c))

/-- The suspension a core waits for takes place once nothing holds it off (R283, R305, R313, R293). The strand of a halted
core stays on it (R12, R312). -/
def State.settle (s : State) (c : Nat) : State :=
  let k := s.core c
  let t := k.strand
  if !s.suspDue c || s.on (R.DSP_CORE_HALTED c) || k.heldOff then s
  else if s.stopDue c then (s.suspend c).vacated c t true
  else if s.on (R.DSP_CORE_OFFREQ c) then ((s.suspend c).setSt t stReady).coreOffline c
  else (s.preemptLate c).preemptNow c

/-! ## Migration (R311) -/

/-- MIGRATE's three steps on the strand that core `c` runs. A STOP that waited for the placement's end then acts, and so does
an offline request. -/
def State.migrate (s : State) (c : Nat) : State :=
  let t := (s.core c).strand
  let stop := s.stopDue c
  let l := (s.strand t).tagrd
  let s := s.set (R.ST_STAT_EPOCH t) (s.f (R.ST_STAT_EPOCH t) + 1)
  let s := forEach l.reverse (fun (e : Nat × Nat) s => s.refillTag e.1 e.2) s
  let s := s.modStrand t (fun x => { x with tagrd := [] })
  let s := (s.setSt t stReady).setB (R.ST_STAT_DRAINING t) (s.strand t).posted
  let s := ((s.raise (R.ST_STAT_DETACHED t)).clr (R.DSP_CORE_RUN_V c)).clr (R.DSP_CORE_RUN c)
  let s := (s.modCore c (fun k => { k with detached := true, suspReq := 0, bank := none })).count R.DSP_MIGRATE_CNT
  let s := s.traceS 6 t c 0xFFFFFFFF
  let s := if stop then s.toIdle t else s
  if s.on (R.DSP_CORE_OFFREQ c) then s.coreOffline c else s

/-- The core that runs strand `t`. -/
def State.coreOf (s : State) (t : Nat) : Option Nat :=
  firstIdx 36 (fun c => s.on (R.DSP_CORE_RUN_V c) && s.f (R.DSP_CORE_RUN c) == t)

/-! ## Commands to strands (R294 to R296, R291) -/

/-- The registers of a strand at START (R296, R241, R271): PC := ENTRY, SP := SWHI, SEG1 := 1. -/
def State.creation (s : State) (t : Nat) : Ctx :=
  { pc := 4 * s.f (R.ST_ENTRY t),
    g := SMap.put (fun _ => 0) [] 31 (toW (16 * s.f (R.ST_SWHI t))),
    ssw := toW (2 ^ 30 + s.f (R.ST_ATTR_LOOPSAVE t) * 2 ^ 29 + s.f (R.ST_DOM t) * 2 ^ 16),
    seg := [(1, 1)],
    vbase := 2048 * s.f (R.ST_VBASE t), swlo := 16 * s.f (R.ST_SWLO t), swhi := 16 * s.f (R.ST_SWHI t),
    holdoff := s.f (R.ST_HOLDOFF_MAX t) }

/-- The checks of START (R295). -/
def State.startOk (s : State) (t : Nat) : Bool :=
  let cm := s.f (R.ST_CMASK t)
  let sm := s.f (R.ST_SMASK t)
  let d := s.f (R.ST_DOM t)
  let sv := 2048 * s.f (R.ST_SAVE t)
  let e := 4 * s.f (R.ST_ENTRY t)
  ((cm != 0) != (sm != 0)) && s.memRight d sv 2048 .read && s.memRight d sv 2048 .write &&
    (cm == 0 || (0xE0000000 ≤ e && e < 0xE0040000) || (0xF0000000 ≤ e && e < 0xF0040000)) &&
    s.f (R.ST_SWLO t) < s.f (R.ST_SWHI t)

/-- A command that does not apply to the current state sets CMDERR (R294). -/
def State.cmdErr (s : State) (t : Nat) : State := s.raise (R.ST_STAT_CMDERR t)

def State.strandStart (s : State) (t : Nat) : State :=
  if s.stOf t ≠ stIdle then s.cmdErr t
  else if !s.startOk t then s.raise (R.ST_STAT_CFGERR t)
  else
    let x := s.creation t
    (s.modStrand t (fun u => { u with saved := x, tagrd := [] })).makeReady t s.gnow 0xFFFFFFFF

def State.strandStop (s : State) (t : Nat) : State :=
  if s.stOf t = stIdle then s.cmdErr t
  else
    match s.coreOf t with
    | some c => if s.stOf t = stRunning then (s.modCore c (fun k => { k with suspReq := 2 })).settle c else s.toIdle t
    | none => s.toIdle t

/-- RESUME frees the shadow area; the strand is READY (R291). -/
def State.strandResume (s : State) (t : Nat) : State :=
  if s.stOf t ≠ stParked then s.cmdErr t
  else
    let s := forN 36 (fun c s =>
      match (s.core c).shadow with
      | some r => if r.strand = t then (s.clr (R.DSP_CORE_SHADOW c)).modCore c (fun k => { k with shadow := none }) else s
      | none => s) s
    let s := s.modStrand t (fun x => { x with kept := none, noShadow := false })
    s.makeReady t s.gnow 0xFFFFFFFF

def State.strandEnd (s : State) (t : Nat) : State :=
  if s.stOf t ≠ stParked then s.cmdErr t else s.toIdle t

/-- MIGRATE is accepted for a RUNNING strand whose core is halted (R311). -/
def State.strandMigrate (s : State) (t : Nat) : State :=
  match s.coreOf t with
  | some c => if s.stOf t = stRunning && s.on (R.DSP_CORE_HALTED c) then s.migrate c else s.cmdErr t
  | none => s.cmdErr t

/-- A write of ST[t].CMD (R294). -/
def State.strandCmd (s : State) (t cmd : Nat) : State :=
  match cmd with
  | 1 => s.strandStart t
  | 2 => s.strandStop t
  | 3 => s.strandResume t
  | 4 => s.strandEnd t
  | 5 => s.strandMigrate t
  | _ => s

/-! ## Core requests (R313) -/

def State.coreOffreq (s : State) (c : Nat) : State :=
  if !s.on (R.DSP_CORE_ONLINE c) then s
  else
    let s := (s.raise (R.DSP_CORE_OFFREQ c)).freeSlot c
    if s.on (R.DSP_CORE_RUN_V c) then s.settle c else s.coreOffline c

def State.coreOnreq (s : State) (c : Nat) : State :=
  if !s.on (R.DSP_CORE_ONLINE c) && (s.core c).resetDone && s.islOn (min c 32) then s.coreOnline c
  else s.raise (R.DSP_CORE_ONERR c)

/-! ## Register writes of the dispatcher block (R297, R314, R315, R319) -/

/-- A tag's contribution to its owner's wait set is taken away or added. -/
def State.tagMember (s : State) (t : Nat) (add : Bool) : State :=
  if s.on (R.TAG_CTL_OWNED t) && s.on (R.TAG_CTL_WAIT t) then
    let o := s.f (R.TAG_CTL_OWNER t)
    let e := b2n (!s.on (R.TAG_CTL_FULL t))
    let n := s.f (R.ST_WAIT_WTAGS o)
    let m := s.f (R.ST_WAIT_WEMPTY o)
    if add then (s.set (R.ST_WAIT_WTAGS o) (n + 1)).set (R.ST_WAIT_WEMPTY o) (m + e)
    else (s.set (R.ST_WAIT_WTAGS o) (n - 1)).set (R.ST_WAIT_WEMPTY o) (m - e)
  else s

/-- An owner change waits for no strand that runs: the strand is IDLE or PARKED (R297). -/
def State.restful (s : State) (t : Nat) : Bool := s.stOf t == stIdle || s.stOf t == stParked

/-- A write of TAG[t]'s control word (R297). -/
def State.tagCtl (s : State) (t v : Nat) : Wr :=
  let old := s.reg (R.TAG_CTL t)
  let same := bit old 28 == bit v 28 && bit old 30 == bit v 30 && bits old 25 16 == bits v 25 16
  let okOwn := same ||
    ((!bit old 28 || s.restful (bits old 25 16)) && (!bit v 28 || s.restful (bits v 25 16)))
  if !okOwn then (.refused, s)
  else
    let s := s.tagMember t false
    let s := (s.set (R.TAG_CTL_WAIT t) (bits v 30 30)).set (R.TAG_CTL_OWNED t) (bits v 28 28)
    let s := ((s.set (R.TAG_CTL_OWNER t) (bits v 25 16)).set (R.TAG_CTL_WDOM t) (bits v 15 8)).set (R.TAG_CTL_DOM t) (bits v 7 0)
    (.ok, s.tagMember t true)

/-- A write of ST[t] (R294, R314, R315). -/
def State.strandReg (s : State) (t o v : Nat) : Wr :=
  match o with
  | 0x00 => (.ok, s.strandCmd t (bits v 2 0))
  | 0x08 =>
    let ls := bits v 5 5
    let old := s.f (R.ST_ATTR_LOOPSAVE t)
    if ls ≠ old && (s.stOf t ≠ stIdle || (ls = 1 && 64 ≤ s.f R.DSP_LSCOUNT)) then (.refused, s)
    else
      let s := s.set R.DSP_LSCOUNT (s.f R.DSP_LSCOUNT + ls - old)
      (.ok, s.setReg (R.ST_ATTR t) (putBits v 7 7 0))
  | 0x0C => (.ok, s.set (R.ST_CMASK t) v)
  | 0x10 => (.ok, s.set (R.ST_SMASK t) v)
  | 0x14 => if s.stOf t ≠ stIdle then (.refused, s) else (.ok, s.set (R.ST_DOM t) v)
  | 0x18 => (.ok, s.set (R.ST_ENTRY t) (bits v 31 2))
  | 0x1C => (.ok, s.set (R.ST_VBASE t) (bits v 31 11))
  | 0x20 => (.ok, s.set (R.ST_SWLO t) (bits v 31 4))
  | 0x24 => (.ok, s.set (R.ST_SWHI t) (bits v 31 4))
  | 0x28 => (.ok, s.set (R.ST_HOLDOFF_MAX t) v)
  | 0x2C => if s.stOf t ≠ stIdle then (.refused, s) else (.ok, s.set (R.ST_SAVE t) (bits v 23 11))
  | 0x38 =>
    if s.restful t then
      (.ok, s.modStrand t (fun x => { x with saved := { x.saved with g := SMap.put (fun _ => 0) x.saved.g 31 (toW v) } }))
    else (.ok, s)
  | _ => (.ok, s)

/-- A write of FLOW[f]: KIND, DOM and the SEQ fields only while EN = 0. -/
def State.flowReg (s : State) (f o v : Nat) : State :=
  let en := s.on (R.FLOW_CTRL_EN f)
  match o with
  | 0x00 =>
    let s := if en then s else (s.set (R.FLOW_CTRL_DOM f) (bits v 15 8)).set (R.FLOW_CTRL_KIND f) (bits v 2 1)
    s.set (R.FLOW_CTRL_EN f) (bits v 0 0)
  | 0x20 => if en then s else s.set (R.FLOW_DEST_LO f) v
  | 0x24 => if en then s else s.set (R.FLOW_DEST_HI f) v
  | 0x28 => if en then s else s.set (R.FLOW_NEXT f) v
  | 0x2C => if en then s else (s.set (R.FLOW_ELEN_ELEN f) (bits v 24 16)).set (R.FLOW_ELEN_NENT f) (bits v 15 0)
  | 0x30 => if en then s else s.set (R.FLOW_GAPT f) v
  | _ => s

/-- SOFT raises INT 3 at the named strand, with the sending strand as EINFO (R281, R316). -/
def State.soft (s : State) (sender t : Nat) : State := s.raiseInt t 3 sender

/-- A write of the dispatcher's global registers, strands, tags and flows. `sender` is the issuing strand. -/
def State.dspWrite (s : State) (sender : Nat) (a v : Nat) : Wr :=
  if a < 0x10210000 then
    if a = R.DSP_SOFT_W then (.ok, s.soft sender (bits v 25 16))
    else if 0x10200040 ≤ a && a < 0x102000D0 then
      let c := (a - 0x10200040) / 4
      let s := if bit v 29 then s.coreOffreq c else s
      (.ok, if bit v 28 then s.coreOnreq c else s)
    else if 0x10200100 ≤ a && a < 0x10200500 then
      let d := (a - 0x10200100) / 4
      (.ok, (s.set (R.DSP_DSUP_V d) (bits v 31 31)).set (R.DSP_DSUP_STRAND d) (bits v 9 0))
    else if 0x10200500 ≤ a && a < 0x10200518 then (.ok, if v = 0 then s.setReg a 0 else s)
    else if a = R.DSP_TRC_CTRL then (.ok, s.setReg a (putBits v 28 8 0))
    else if a = R.DSP_TRC_BASE_LO_W then (.ok, s.set R.DSP_TRC_BASE_LO_BASE (bits v 31 4))
    else if a = R.DSP_TRC_BASE_HI_W then (.ok, s.set R.DSP_TRC_BASE_HI_BASE v)
    else if a = R.DSP_TRC_SIZE_W then (.ok, s.set R.DSP_TRC_SIZE_SIZE v)
    else if a = R.DSP_TRC_RD_W then (.ok, s.set R.DSP_TRC_RD_INDEX v)
    else if a = R.DSP_TRC_EVMASK_W then (.ok, s.set R.DSP_TRC_EVMASK v)
    else if a = R.DSP_PV_SEL then (.ok, s.set R.DSP_PV_SEL_STRAND (bits v 9 0))
    else if 0x10201000 ≤ a && a < 0x10201800 then
      let i := (a - 0x10201000) / 4
      (.ok, (s.set (R.DSP_IRT_EN i) (bits v 31 31)).set (R.DSP_IRT_STRAND i) (bits v 25 16))
    else (.ok, s)
  else if a < 0x10220000 then s.strandReg ((a - 0x10210000) / 0x40) (a % 0x40) v
  else if a < 0x10240000 then
    let t := (a - 0x10220000) / 8
    if a % 8 = 0 then (.ok, s.fillTag t v) else s.tagCtl t v
  else if a < 0x10241000 then (.ok, s.flowReg ((a - 0x10240000) / 0x40) (a % 0x40) v)
  else (.ok, s)

/-- The shadow record the parked-strand view shows (R317): a core's, or one kept with the strand (R292). -/
def State.pvRecord (s : State) : Option Shadow :=
  let t := s.f R.DSP_PV_SEL_STRAND
  if s.stOf t ≠ stParked then none
  else
    match firstIdx 36 (fun c => match (s.core c).shadow with | some r => r.strand == t | none => false) with
    | some c => (s.core c).shadow
    | none => (s.strand t).kept

/-- The dispatcher's read views (R317): PV.REC, PV.SEL.NOSHADOW, FLOW.PEND, SAVED_SP, SAVED_PC. -/
def State.dspView (s : State) (a : Nat) : Option Nat :=
  if a = R.DSP_PV_SEL then
    let t := s.f R.DSP_PV_SEL_STRAND
    some (t + 2 ^ 31 * b2n (s.stOf t == stParked && (s.strand t).noShadow))
  else if 0x10200820 ≤ a && a < 0x10200840 then
    some (match s.pvRecord with | some r => r.words.getD ((a - 0x10200820) / 4) 0 | none => 0)
  else if 0x10240000 ≤ a && a < 0x10241000 && a % 0x40 == 4 then
    some (s.dsp.held.filter (fun h => h.flow == (a - 0x10240000) / 0x40)).length
  else if 0x10210000 ≤ a && a < 0x10220000 && a % 0x40 == 0x38 then
    let t := (a - 0x10210000) / 0x40
    some (if s.restful t then (SMap.get (fun _ => (0 : Word)) (s.strand t).saved.g 31).toNat else 0)
  else if 0x10210000 ≤ a && a < 0x10220000 && a % 0x40 == 0x3C then
    some (s.strand ((a - 0x10210000) / 0x40)).saved.pc
  else none

end Sys2Proof.Machine
end

