-- ==== Sys2Proof/Machine/F32.lean ====
section
/-! DEFINITION. Binary32 arithmetic as R253 to R257 and R263 state it: every operation computes the exact result of its
operands and rounds it once toward zero; subnormal operands read as zero; small results flush to zero and set UF; finite
overflow gives the largest finite value and sets OF. The operations accumulate the sticky flags of SSW[4:0] in a state
monad `FM`. -/

namespace Sys2Proof.Machine

/-- The sticky flags, in the bit order of SSW[4:0]: SAT, NV, DZ, OF, UF (R243). -/
abbrev FFlags := BitVec 5

/-- A binary32 computation that may set sticky flags. -/
abbrev FM := StateM FFlags

namespace F32

def flagUF : FFlags := 1
def flagOF : FFlags := 2
def flagDZ : FFlags := 4
def flagNV : FFlags := 8
def flagSAT : FFlags := 16

/-- Set a sticky flag. -/
def raise (f : FFlags) : FM Unit := modify (fun x => x ||| f)

/-- Run a computation for its value, dropping its flags. -/
def val {α : Type} (m : FM α) : α := (m.run 0).1

/-- The canonical NaN (R255). -/
def qnan : Word := 0x7FC00000
def one : Word := 0x3F800000
def half : Word := 0x3F000000
def two : Word := 0x40000000
def zero : Word := 0

/-- A binary32 value: NaN, an infinity, a zero, or (-1)^neg * m * 2^e with m > 0. -/
inductive Val where
  | nan
  | inf (neg : Bool)
  | zero (neg : Bool)
  | fin (neg : Bool) (m : Nat) (e : Int)
  deriving DecidableEq, Repr

/-- The value a word holds; a subnormal reads as zero of the same sign (R254). -/
def ofWord (w : Word) : Val :=
  let x := w.toNat
  let s := bit x 31
  let e := bits x 30 23
  let f := bits x 22 0
  if e = 0 then .zero s
  else if e = 255 then (if f = 0 then .inf s else .nan)
  else .fin s (2 ^ 23 + f) ((e : Int) - 150)

def signBit (neg : Bool) : Nat := if neg then 2 ^ 31 else 0

/-- A zero of the given sign. -/
def zeroW (neg : Bool) : Word := toW (signBit neg)
/-- An infinity of the given sign. -/
def infW (neg : Bool) : Word := toW (signBit neg + 0x7F800000)

/-- Rounding toward zero of the exact magnitude m * 2^e (or of one that truncates to it with at least 24 significant
bits), R253 and R254. -/
def round (neg : Bool) (m : Nat) (e : Int) : FM Word :=
  if m = 0 then pure (zeroW neg)
  else
    let l := Nat.log2 m
    let ex : Int := (l : Int) + e
    if ex ≥ 128 then do
      raise flagOF
      pure (toW (signBit neg + 0x7F7FFFFF))
    else if ex < -126 then do
      raise flagUF
      pure (zeroW neg)
    else
      let mant := if l > 23 then m / 2 ^ (l - 23) else m * 2 ^ (23 - l)
      pure (toW (signBit neg + (ex + 127).toNat * 2 ^ 23 + (mant - 2 ^ 23)))

/-- The canonical NaN of an invalid operation, which sets NV (R255). -/
def invalid : FM Word := do
  raise flagNV
  pure qnan

/-- Rounding of the exact integer multiple z * 2^e; `nz` is the sign of an exact zero. -/
def roundInt (z : Int) (e : Int) (nz : Bool) : FM Word :=
  if z = 0 then pure (zeroW nz) else round (decide (z < 0)) z.natAbs e

/-- Signed integer of a finite value at exponent `e0`, where e0 is at most its exponent. -/
def atExp (neg : Bool) (m : Nat) (e e0 : Int) : Int :=
  let k : Int := (m : Int) * (2 ^ (e - e0).toNat : Int)
  if neg then -k else k

/-- The exact sum of two values, rounded once. -/
def addV (a b : Val) : FM Word :=
  match a, b with
  | .nan, _ => pure qnan
  | _, .nan => pure qnan
  | .inf s, .inf t => if s = t then pure (infW s) else invalid
  | .inf s, _ => pure (infW s)
  | _, .inf t => pure (infW t)
  | .zero s, .zero t => pure (zeroW (s && t))
  | .zero _, .fin t m e => round t m e
  | .fin s m e, .zero _ => round s m e
  | .fin s m e, .fin t m' e' =>
    let e0 := min e e'
    roundInt (atExp s m e e0 + atExp t m' e' e0) e0 false

/-- The exact product of two values (0 times infinity is handled by the callers). -/
def mulV (a b : Val) : Val :=
  match a, b with
  | .nan, _ => .nan
  | _, .nan => .nan
  | .inf s, .inf t => .inf (s != t)
  | .inf s, .zero _ => .zero s
  | .zero s, .inf _ => .zero s
  | .inf s, .fin t _ _ => .inf (s != t)
  | .fin s _ _, .inf t => .inf (s != t)
  | .zero s, .zero t => .zero (s != t)
  | .zero s, .fin t _ _ => .zero (s != t)
  | .fin s _ _, .zero t => .zero (s != t)
  | .fin s m e, .fin t m' e' => .fin (s != t) (m * m') (e + e')

/-- 0 times infinity, an invalid operation (R255). -/
def zeroTimesInf (a b : Val) : Bool :=
  match a, b with
  | .zero _, .inf _ => true
  | .inf _, .zero _ => true
  | _, _ => false

def isNaNV : Val → Bool
  | .nan => true
  | _ => false

def negV : Val → Val
  | .nan => .nan
  | .inf s => .inf (!s)
  | .zero s => .zero (!s)
  | .fin s m e => .fin (!s) m e

/-- Rounding of an exact value. -/
def roundV : Val → FM Word
  | .nan => pure qnan
  | .inf s => pure (infW s)
  | .zero s => pure (zeroW s)
  | .fin s m e => round s m e

def isNaN (w : Word) : Bool := isNaNV (ofWord w)

/-- Neither NaN nor infinite. -/
def isFinite (w : Word) : Bool :=
  match ofWord w with
  | .nan => false
  | .inf _ => false
  | _ => true

/-- FABS: the sign bit cleared; a NaN input gives the canonical NaN (R252). -/
def abs (w : Word) : Word := if isNaN w then qnan else w &&& 0x7FFFFFFF
/-- FNEG: the sign bit inverted; a NaN input gives the canonical NaN (R252). -/
def neg (w : Word) : Word := if isNaN w then qnan else w ^^^ 0x80000000

def add (a b : Word) : FM Word := addV (ofWord a) (ofWord b)
def sub (a b : Word) : FM Word :=
  if isNaN b then pure qnan else addV (ofWord a) (negV (ofWord b))

def mul (a b : Word) : FM Word :=
  let x := ofWord a
  let y := ofWord b
  if isNaNV x || isNaNV y then pure qnan
  else if zeroTimesInf x y then invalid
  else roundV (mulV x y)

/-- fma(a, b, c) = a × b + c with one rounding (R253). -/
def fma (a b c : Word) : FM Word :=
  let x := ofWord a
  let y := ofWord b
  let z := ofWord c
  if isNaNV x || isNaNV y || isNaNV z then pure qnan
  else if zeroTimesInf x y then invalid
  else addV (mulV x y) z

/-- FFMS: −(a × b) + c with one rounding. -/
def fms (a b c : Word) : FM Word :=
  let x := ofWord a
  let y := ofWord b
  let z := ofWord c
  if isNaNV x || isNaNV y || isNaNV z then pure qnan
  else if zeroTimesInf x y then invalid
  else addV (negV (mulV x y)) z

/-- Division (R254, R255): a finite non-zero dividend over zero gives an infinity and sets DZ. -/
def div (a b : Word) : FM Word :=
  match ofWord a, ofWord b with
  | .nan, _ => pure qnan
  | _, .nan => pure qnan
  | .inf _, .inf _ => invalid
  | .zero _, .zero _ => invalid
  | .inf s, .zero t => pure (infW (s != t))
  | .inf s, .fin t _ _ => pure (infW (s != t))
  | .zero s, .inf t => pure (zeroW (s != t))
  | .zero s, .fin t _ _ => pure (zeroW (s != t))
  | .fin s _ _, .inf t => pure (zeroW (s != t))
  | .fin s _ _, .zero t => do
    raise flagDZ
    pure (infW (s != t))
  | .fin s m e, .fin t m' e' => round (s != t) (m * 2 ^ 60 / m') (e - e' - 60)

/-- Integer square root of `x`, found bit by bit from bit `n - 1`. -/
def isqrtGo (x : Nat) : Nat → Nat → Nat
  | 0, r => r
  | n + 1, r => let c := r + 2 ^ n; if c * c ≤ x then isqrtGo x n c else isqrtGo x n r

def isqrt (x : Nat) : Nat := isqrtGo x 64 0

/-- Square root; of a negative non-zero value an invalid operation, and √−0 is −0 (R255). -/
def sqrt (a : Word) : FM Word :=
  match ofWord a with
  | .nan => pure qnan
  | .zero s => pure (zeroW s)
  | .inf false => pure (infW false)
  | .inf true => invalid
  | .fin true _ _ => invalid
  | .fin false m e =>
    let odd := e % 2 ≠ 0
    let m1 := if odd then m * 2 else m
    let e1 := if odd then e - 1 else e
    round false (isqrt (m1 * 2 ^ 60)) (e1 / 2 - 30)

/-- The order of R256: −∞ to +∞ with −0 below +0, as an integer key of a word that is no NaN. -/
def orderKey (w : Word) : Int :=
  match ofWord w with
  | .zero true => -1
  | .zero false => 0
  | _ =>
    let x : Int := (bits w.toNat 30 0 : Nat)
    if bit w.toNat 31 then -x - 1 else x

/-- The word an operation returns for an operand it passes on: a subnormal is read as zero (R254). -/
def canon (w : Word) : Word :=
  match ofWord w with
  | .nan => qnan
  | .zero s => zeroW s
  | _ => w

/-- FMIN (R256). -/
def min (a b : Word) : Word :=
  if isNaN a || isNaN b then qnan else canon (if orderKey a ≤ orderKey b then a else b)
/-- FMAX (R256). -/
def max (a b : Word) : Word :=
  if isNaN a || isNaN b then qnan else canon (if orderKey a ≥ orderKey b then a else b)
/-- clamp(x, lo, hi) := min(max(x, lo), hi) (R256). -/
def clamp (x lo hi : Word) : Word := F32.min (F32.max x lo) hi

/-- A key that compares as the values do, +0 and −0 equal. -/
def cmpKey (w : Word) : Int :=
  match ofWord w with
  | .zero _ => 0
  | _ =>
    let x : Int := (bits w.toNat 30 0 : Nat)
    if bit w.toNat 31 then -x else x

/-- a < b; false with a NaN operand (R256). -/
def lt (a b : Word) : Bool := !isNaN a && !isNaN b && decide (cmpKey a < cmpKey b)
/-- a ≤ b; false with a NaN operand (R256). -/
def le (a b : Word) : Bool := !isNaN a && !isNaN b && decide (cmpKey a ≤ cmpKey b)
/-- a = b; false with a NaN operand (R256). -/
def eq (a b : Word) : Bool := !isNaN a && !isNaN b && decide (cmpKey a = cmpKey b)
def ge (a b : Word) : Bool := le b a
def gt (a b : Word) : Bool := lt b a
def isZero (w : Word) : Bool := eq w 0

/-- Conversion of an exact integer, truncated (R257). -/
def ofInt (z : Int) : FM Word := roundInt z 0 false

/-- The integer a finite value truncates to. -/
def truncV : Val → Int
  | .fin s m e =>
    let k : Int := if e ≥ 0 then (m : Int) * (2 ^ e.toNat : Int) else ((m / 2 ^ (-e).toNat : Nat) : Int)
    if s then -k else k
  | _ => 0

/-- Conversion to an integer range [lo, hi] under R257: truncated, saturating, NaN gives 0; both set SAT. -/
def toRange (lo hi : Int) (w : Word) : FM Int :=
  match ofWord w with
  | .nan => do raise flagSAT; pure 0
  | .inf s => do raise flagSAT; pure (if s then lo else hi)
  | v =>
    let t := truncV v
    if t < lo then do raise flagSAT; pure lo
    else if t > hi then do raise flagSAT; pure hi
    else pure t

def toI32 (w : Word) : FM Int := toRange (-2147483648) 2147483647 w
def toU32 (w : Word) : FM Int := toRange 0 4294967295 w
def toI64 (w : Word) : FM Int := toRange (-9223372036854775808) 9223372036854775807 w
def toU64 (w : Word) : FM Int := toRange 0 18446744073709551615 w

/-- FTRUNC: rounding toward zero to an integral value; the sign of a zero result is kept (R257). -/
def trunc (w : Word) : Word :=
  match ofWord w with
  | .nan => qnan
  | .inf s => infW s
  | .zero s => zeroW s
  | .fin s m e =>
    if e ≥ 0 then w
    else val (roundInt (truncV (.fin s m e)) 0 s)

/-- FFLOOR: rounding down to an integral value (R257). -/
def floor (w : Word) : Word :=
  match ofWord w with
  | .nan => qnan
  | .inf s => infW s
  | .zero s => zeroW s
  | .fin s m e =>
    if e ≥ 0 then w
    else
      let d := 2 ^ (-e).toNat
      let q : Int := if s then -(((m + d - 1) / d : Nat) : Int) else ((m / d : Nat) : Int)
      val (roundInt q 0 s)

/-! ## Sine and cosine (R263) -/

/-- Fixed-point precision of the trigonometric evaluation, in bits. -/
def trigP : Nat := 640
/-- floor(π/2 × 2^640). -/
def halfPi : Nat := 0x1921fb54442d18469898cc51701b839a252049c1114cf98e804177d4c76273644a29410f31c6809bbdf2a33679a748636605614dbe4be286e9fc26adadaa3848bc90b6aecc4bcfd8de89885d34c6fdad6

/-- Alternating power series: t, t·x²/(k(k+1)), …, with signs alternating, in fixed point of `trigP` bits. -/
def series (x2 : Nat) : Nat → Nat → Nat → Int → Int
  | 0, _, _, acc => acc
  | n + 1, t, k, acc =>
    let t' := t * x2 / 2 ^ trigP / (k * (k + 1))
    series x2 n t' (k + 2) (if (k + 1) / 2 % 2 = 0 then acc + (t' : Int) else acc - (t' : Int))

/-- sin(x) for a fixed-point 0 ≤ x ≤ π/4: the terms with k = 2, 6, … subtract. -/
def sinFix (x : Nat) : Nat := (series (x * x / 2 ^ trigP) 64 x 2 (x : Int)).toNat
/-- cos(x) for a fixed-point 0 ≤ x ≤ π/4. -/
def cosFix (x : Nat) : Nat :=
  (series (x * x / 2 ^ trigP) 64 (2 ^ trigP) 1 (2 ^ trigP : Int)).toNat

/-- sin(2π · u) for u = a / 2^162 with 0 < a < 2^160, i.e. an angle strictly inside the first quadrant, in fixed point. -/
def quadSin (a : Nat) : Nat :=
  if a ≤ 2 ^ 159 then sinFix (halfPi * a / 2 ^ 160) else cosFix (halfPi * (2 ^ 160 - a) / 2 ^ 160)

/-- sin of a turn fraction n / 2^162 (0 ≤ n < 2^162), rounded toward zero; the multiples of a quarter turn are exact. -/
def sinTurn (n : Nat) : FM Word :=
  let q := n / 2 ^ 160 % 4
  let a := n % 2 ^ 160
  if a = 0 then
    pure (if q = 1 then one else if q = 3 then neg one else 0)
  else if q = 0 then round false (quadSin a) (-(trigP : Int))
  else if q = 1 then round false (quadSin (2 ^ 160 - a)) (-(trigP : Int))
  else if q = 2 then round true (quadSin a) (-(trigP : Int))
  else round true (quadSin (2 ^ 160 - a)) (-(trigP : Int))

/-- C of R263: 1 / (2π) truncated. -/
def invTwoPi : Word := 0x3E22F983

/-- The reduced angle u of R263, its steps carried out without flags. -/
def reduce (theta : Word) : Word :=
  let x := val (mul theta invTwoPi)
  if ge (abs x) 0x4B000000 then 0 else val (sub x (floor x))

/-- u as an exact multiple of 2^-162 of a turn. -/
def turns (u : Word) : Nat :=
  match ofWord u with
  | .fin _ m e => m * 2 ^ (e + 162).toNat
  | _ => 0

/-- Sine under R263. -/
def sin (theta : Word) : FM Word :=
  match ofWord theta with
  | .nan => pure qnan
  | .inf _ => invalid
  | _ => sinTurn (turns (reduce theta))

/-- Cosine under R263: the sine a quarter turn further. -/
def cos (theta : Word) : FM Word :=
  match ofWord theta with
  | .nan => pure qnan
  | .inf _ => invalid
  | _ => sinTurn ((turns (reduce theta) + 2 ^ 160) % 2 ^ 162)

end F32
end Sys2Proof.Machine
end

