-- ==== Sys2Proof/Machine/Profile.lean ====
section
/-! DEFINITION. The profile generator (R134 to R143): segments, velocity changes, position moves. Arithmetic under R94. -/

namespace Sys2Proof.Machine

open F32 (add sub mul fma fms div sqrt)

/-! ## Constants of R94, truncated to binary32 -/

/-- 10^−9. -/
def f32Nano : Word := 0x3089705F
/-- 1 / 6. -/
def f32Sixth : Word := 0x3E2AAAAA
/-- 65,536. -/
def f32Two16 : Word := 0x47800000

/-- A whole number of ns as seconds (R135). -/
def secs (ns : Int) : FM Word := do
  let f ← F32.ofInt ns
  mul f f32Nano

/-- A displacement with 16 fractional bits as binary32 counts, truncated (R108, R140). -/
def countsOf (d : Int) : FM Word := F32.roundInt d (-16) false

/-- Binary32 counts as a displacement with 16 fractional bits (R134). -/
def fixedOf (w : Word) : FM Int := do
  let y ← mul w f32Two16
  F32.toI64 y

/-- A generator or hitch state at one instant: x with 16 fractional bits, v, a. -/
structure Kin where
  x : Int := 0
  v : Word := 0
  a : Word := 0
  deriving DecidableEq, Repr

/-- The state τ seconds into a segment (R134). -/
def segAt (k : Kin) (j τ : Word) : FM Kin := do
  let a ← fma j τ k.a
  let h ← mul j F32.half
  let h ← fma h τ k.a
  let v ← fma h τ k.v
  let p ← mul j f32Sixth
  let p ← mul p τ
  let q ← fma k.a F32.half p
  let q ← fma q τ k.v
  let dx ← mul q τ
  let d ← fixedOf dx
  pure ⟨i64 (k.x + d), v, a⟩

/-- The state `ns` into a segment. -/
def segAtNs (k : Kin) (j : Word) (ns : Int) : FM Kin := do
  let τ ← secs ns
  segAt k j τ

/-! ## Chains -/

/-- One raw segment: jerk, duration in ns, and the velocity a change ends at, on its last segment. -/
structure Raw where
  j : Word
  dur : Nat
  vt : Option Word := none
  deriving DecidableEq, Repr

/-- One second in ns: the longest piece (R136). -/
def secondNs : Nat := 1000000000

/-- A segment split into pieces of at most 1.0 s (R136); the mark stays on the last piece. -/
def Raw.pieces (r : Raw) : List Raw :=
  let n := r.dur / secondNs
  let m := r.dur % secondNs
  let full := List.replicate n (⟨r.j, secondNs, none⟩ : Raw)
  if m = 0 then full.dropLast ++ (if n = 0 then [] else [⟨r.j, secondNs, r.vt⟩]) else full ++ [⟨r.j, m, r.vt⟩]

/-- Chain pieces from a state: each end state, computed once at the truncated duration, starts the next (R135). -/
def chain (k : Kin) : List Raw → FM (List Seg × Kin)
  | [] => pure ([], k)
  | r :: rs => do
    let e ← segAtNs k r.j r.dur
    let e : Kin := match r.vt with | some vt => ⟨e.x, vt, 0⟩ | none => e
    let (rest, z) ← chain e rs
    pure (⟨r.dur, r.j, k.x, k.v, k.a, r.vt⟩ :: rest, z)

/-- A duration in seconds truncated to whole ns; zero, negative or not finite is zero (R135, R137). -/
def durNs (t : Word) : Nat :=
  match F32.ofWord t with
  | .fin false m e => if e ≥ 0 then m * 2 ^ e.toNat * secondNs else m * secondNs / 2 ^ (-e).toNat
  | _ => 0

/-- Raw segments of a velocity change with the mark of R135 on the last that is not omitted. -/
def marked (vt : Word) (rs : List Raw) : List Raw :=
  let ks := rs.filter (fun r => r.dur != 0)
  match ks.reverse with
  | [] => []
  | l :: more => (({ l with vt := some vt } :: more).reverse.map Raw.pieces).flatten

def signW (w : Word) : Int := if F32.lt w 0 then -1 else if F32.gt w 0 then 1 else 0

/-- s × w for a sign s. -/
def signMul (s : Int) (w : Word) : Word := if s < 0 then F32.neg w else w

/-- One velocity change under limits A and J (R137). -/
def change1 (v0 a0 vt A J : Word) : FM (List Raw) := do
  let aa ← mul a0 (F32.abs a0)
  let j2 ← mul F32.two J
  let dz ← div aa j2
  let vz ← add v0 dz
  let df ← sub vt vz
  let s := signW df
  if s = 0 then
    let t ← div (F32.abs a0) J
    pure (marked vt [⟨signMul (-(signW a0)) J, durNs t, none⟩])
  else
    let a0p := signMul s a0
    let dv0 ← sub vt v0
    let dv := signMul s dv0
    let sq ← mul a0p a0p
    let hf ← div sq F32.two
    let rad ← fma J dv hf
    let root ← sqrt rad
    let ap := F32.min A root
    let d1 ← sub ap a0p
    let t1 ← div (F32.abs d1) J
    let t3 ← div ap J
    let su ← add a0p ap
    let m1 ← mul su t1
    let m1 ← div m1 F32.two
    let u ← sub dv m1
    let m3 ← mul ap t3
    let m3 ← div m3 F32.two
    let u ← sub u m3
    let t2 ← div u ap
    let sj := signMul s J
    let j1 := if F32.ge ap a0p then sj else F32.neg sj
    pure (marked vt [⟨j1, durNs t1, none⟩, ⟨0, durNs t2, none⟩, ⟨F32.neg sj, durNs t3, none⟩])

/-- The limits of a plan. -/
structure Lims where
  amax : Word
  dmax : Word
  jmax : Word
  deriving DecidableEq, Repr

/-- A velocity change: across zero it is planned as two (R137). -/
def velChange (k : Kin) (vt : Word) (l : Lims) : FM (List Seg × Kin) := do
  if signW k.v * signW vt < 0 then
    let r1 ← change1 k.v k.a 0 l.dmax l.jmax
    let (s1, k1) ← chain k r1
    let r2 ← change1 0 0 vt l.amax l.jmax
    let (s2, k2) ← chain ⟨k1.x, 0, 0⟩ r2
    pure (s1 ++ s2, ⟨k2.x, vt, 0⟩)
  else
    let A := if F32.gt (F32.abs vt) (F32.abs k.v) then l.amax else l.dmax
    let r ← change1 k.v k.a vt A l.jmax
    let (s, e) ← chain k r
    pure (s, ⟨e.x, vt, 0⟩)

/-- s times the displacement of the change to s × u and the change from there to 0 (R140 rule 2), with the chains. -/
def twoChanges (k : Kin) (s : Int) (u : Word) (l : Lims) : FM ((List Seg × Kin) × Word) := do
  let c1 ← velChange k (signMul s u) l
  let c2 ← velChange c1.2 0 l
  let d ← countsOf (c2.2.x - k.x)
  pure (c1, signMul s d)

/-- The halvings of R140. -/
def halvings (k : Kin) (s : Int) (l : Lims) (dist : Word) : Nat → Word → Word → FM Word
  | 0, lo, _ => pure lo
  | n + 1, lo, hi => do
    let sm ← add lo hi
    let mid ← mul sm F32.half
    let (_, d) ← twoChanges k s mid l
    if F32.le d dist then halvings k s l dist n mid hi else halvings k s l dist n lo mid

/-- Rules 2 and 3 of R140: the two changes with the cruise between them. -/
def planDirect (k : Kin) (s : Int) (dist vmax : Word) (l : Lims) : FM (List Seg) := do
  let (_, dFull) ← twoChanges k s vmax l
  let vp ← (if F32.le dFull dist then pure vmax else halvings k s l dist 24 0 vmax)
  let ((s1, k1), d) ← twoChanges k s vp l
  let cr ← (do
    if F32.isZero vp then pure (([] : List Seg), k1)
    else
      let rem ← sub dist d
      let t ← div rem vp
      chain k1 (if durNs t = 0 then [] else Raw.pieces ⟨0, durNs t, none⟩))
  let (s3, _) ← velChange cr.2 0 l
  pure (s1 ++ cr.1 ++ s3)

/-- The plan of a position move from state `k` to the target `tgt` (16 fractional bits): R140. -/
def planMove (k : Kin) (tgt : Int) (vmax : Word) (l : Lims) : FM (List Seg) := do
  let (st, ks) ← velChange k 0 l
  let dStop ← countsOf (ks.x - k.x)
  let dr ← countsOf (tgt - k.x)
  let s := signW dr
  let atRest := F32.isZero k.v && F32.isZero k.a
  let rest (k' : Kin) : FM (List Seg) := do
    let d ← countsOf (tgt - k'.x)
    if tgt = k'.x then pure [] else planDirect k' (signW d) (F32.abs d) vmax l
  if s = 0 then
    if atRest then pure []
    else
      let more ← rest ⟨ks.x, 0, 0⟩
      pure (st ++ more)
  else if s * signW k.v < 0 || F32.gt (signMul s dStop) (F32.abs dr) then
    let more ← rest ⟨ks.x, 0, 0⟩
    pure (st ++ more)
  else planDirect k s (F32.abs dr) vmax l

/-! ## Evaluation (R134, R135) -/

/-- An instant as a pair: cycle number and ns from that cycle's CSTART (R135). -/
structure Inst where
  cyc : Nat
  ofs : Int
  deriving DecidableEq, Repr

/-- t − u in ns (R135). -/
def Inst.since (t u : Inst) (tcyc : Nat) : Int := i32 ((t.cyc : Int) - (u.cyc : Int)) * (tcyc : Int) + (t.ofs - u.ofs)

def Gen.start (g : Gen) : Inst := ⟨g.cyc, g.ofs⟩

/-- The state at the end of the plan, `ns` later: a velocity goes on in pieces of 1.0 s (R136, R138). -/
def cruise (k : Kin) (ns : Nat) : FM Kin := do
  if F32.isZero k.v then pure k
  else
    let one ← segAtNs ⟨0, k.v, 0⟩ 0 (secondNs : Int)
    segAtNs ⟨i64 (k.x + one.x * (ns / secondNs : Nat)), k.v, k.a⟩ 0 ((ns % secondNs : Nat) : Int)

/-- Evaluation of the remaining segments `ns` after the start of the first. -/
def evalSegs (e : Kin) : List Seg → Nat → FM Kin
  | [], ns => cruise e ns
  | s :: ss, ns => if ns < s.dur then segAtNs ⟨s.x, s.v, s.a⟩ s.j ns else evalSegs e ss (ns - s.dur)

/-- The generator at an instant; before the first segment its start state (R134). -/
def Gen.at' (g : Gen) (t : Inst) (tcyc : Nat) : FM Kin :=
  let d := t.since g.start tcyc
  match g.segs with
  | [] => if d ≤ 0 then pure ⟨g.x, g.v, g.a⟩ else cruise ⟨g.x, g.v, g.a⟩ d.toNat
  | s :: _ => if d ≤ 0 then pure ⟨s.x, s.v, s.a⟩ else evalSegs ⟨g.x, g.v, g.a⟩ g.segs d.toNat

/-- A generator held at a state from an instant on. -/
def Gen.held (t : Inst) (k : Kin) : Gen := { cyc := t.cyc, ofs := t.ofs, x := k.x, v := k.v, a := k.a }

/-- The state after the last segment of a chain. -/
def endOf (k : Kin) : List Seg → FM Kin
  | [] => pure k
  | [s] => do
    let e ← segAtNs ⟨s.x, s.v, s.a⟩ s.j s.dur
    pure (match s.vt with | some vt => ⟨e.x, vt, 0⟩ | none => e)
  | _ :: ss => endOf k ss

/-- A generator that starts a position move at `t` (R140, R141). -/
def Gen.move (t : Inst) (k : Kin) (tgt : Int) (vmax : Word) (l : Lims) : FM Gen := do
  let segs ← planMove k tgt vmax l
  pure { cyc := t.cyc, ofs := t.ofs, segs := segs, x := tgt, v := 0, a := 0, tgt := some tgt }

/-- A generator that starts a velocity change at `t` (R137). -/
def Gen.change (t : Inst) (k : Kin) (vt : Word) (l : Lims) : FM Gen := do
  let (segs, e) ← velChange k vt l
  pure { cyc := t.cyc, ofs := t.ofs, segs := segs, x := e.x, v := vt, a := 0 }

/-- The segments that remain `ns` after the start, the first cut at its state there (R136). -/
def cutSegs : List Seg → Nat → FM (List Seg × Nat)
  | [], ns => pure ([], ns)
  | s :: ss, ns =>
    if ns < s.dur then do
      let k ← segAtNs ⟨s.x, s.v, s.a⟩ s.j ns
      pure (⟨s.dur - ns, s.j, k.x, k.v, k.a, s.vt⟩ :: ss, 0)
    else cutSegs ss (ns - s.dur)

/-- R136: at the boundary of cycle `n` where TCYC changes from `tcyc`, the segment in progress is closed and continues with
a remainder from the boundary; the path is unchanged. -/
def Gen.rebase (g : Gen) (n tcyc : Nat) : FM Gen :=
  let t : Inst := ⟨n, 0⟩
  let d := t.since g.start tcyc
  if d < 0 then pure { g with cyc := n, ofs := -d }
  else do
    let (segs, left) ← cutSegs g.segs d.toNat
    if segs.isEmpty then
      let k ← cruise ⟨g.x, g.v, g.a⟩ left
      pure { g with cyc := n, ofs := 0, segs := [], x := k.x }
    else pure { g with cyc := n, ofs := 0, segs := segs }

/-- X_SHIFT (R195): the generator moves by `d` (16 fractional bits). -/
def Gen.shift (g : Gen) (d : Int) : Gen :=
  { g with x := i64 (g.x + d), tgt := g.tgt.map (fun t => i64 (t + d)),
           segs := g.segs.map (fun s => { s with x := i64 (s.x + d) }) }

end Sys2Proof.Machine
end

