-- ==== Sys2Proof/Machine/Frame.lean ====
section
/-! DEFINITION. The Finil frame (R36 to R41): the 80-byte header as a record, its bytes, the FCS, and the walk over the
datagrams. A frame is its bytes from DA to FCS. -/

namespace Sys2Proof.Machine

/-- The header of "Finil frame layout" (R39), field by field; packed bytes are kept as bytes with accessors below. -/
structure Hdr where
  da : Nat := 0
  sa : Nat := 0
  etype : Nat := 0x88B7
  oui : Nat := 0
  proto : Nat := 0
  verFtype : Nat := 0x10
  flags : Nat := 0
  fidxFlast : Nat := 0
  hops : Nat := 0
  kctl : Nat := 0
  cycle : Nat := 0
  tstamp : Nat := 0
  corr : Nat := 0
  cstart : Nat := 0
  tcyc : Nat := 0
  sph : Nat := 0
  aph : Nat := 0
  plen : Nat := 0
  kaId : Nat := 0
  kdId : Nat := 0
  kaCyc : Nat := 0
  kdCyc : Nat := 0
  kdCode : Nat := 0
  hbFlags : Nat := 0
  hbSeq : Nat := 0
  hbUnit : Nat := 0
  hbSerial : Nat := 0
  deriving DecidableEq, Repr

/-- The 80 bytes of a header: DA, SA, EtherType, OUI and PROTO most significant byte first, the rest little-endian (R38). -/
def Hdr.encode (h : Hdr) : List Byte :=
  beBytes 6 h.da ++ beBytes 6 h.sa ++ beBytes 2 h.etype ++ beBytes 3 h.oui ++ beBytes 2 h.proto ++
  leBytes 1 h.verFtype ++ leBytes 1 h.flags ++ leBytes 1 h.fidxFlast ++ leBytes 1 h.hops ++ leBytes 1 h.kctl ++
  leBytes 4 h.cycle ++ leBytes 4 h.tstamp ++ leBytes 4 h.corr ++ leBytes 4 h.cstart ++ leBytes 4 h.tcyc ++
  leBytes 4 h.sph ++ leBytes 4 h.aph ++ leBytes 2 h.plen ++ leBytes 1 h.kaId ++ leBytes 1 h.kdId ++
  leBytes 4 h.kaCyc ++ leBytes 4 h.kdCyc ++ leBytes 1 h.kdCode ++ leBytes 1 h.hbFlags ++ leBytes 2 h.hbSeq ++
  leBytes 1 h.hbUnit ++ leBytes 3 0 ++ leBytes 8 h.hbSerial

/-- The header a frame's first 80 bytes spell (R38, R39). -/
def Hdr.parse (f : List Byte) : Hdr :=
  { da := beAt f 0 6, sa := beAt f 6 6, etype := beAt f 12 2, oui := beAt f 14 3, proto := beAt f 17 2,
    verFtype := leAt f 19 1, flags := leAt f 20 1, fidxFlast := leAt f 21 1, hops := leAt f 22 1, kctl := leAt f 23 1,
    cycle := leAt f 24 4, tstamp := leAt f 28 4, corr := leAt f 32 4, cstart := leAt f 36 4, tcyc := leAt f 40 4,
    sph := leAt f 44 4, aph := leAt f 48 4, plen := leAt f 52 2, kaId := leAt f 54 1, kdId := leAt f 55 1,
    kaCyc := leAt f 56 4, kdCyc := leAt f 60 4, kdCode := leAt f 64 1, hbFlags := leAt f 65 1, hbSeq := leAt f 66 2,
    hbUnit := leAt f 68 1, hbSerial := leAt f 72 8 }

def Hdr.ver (h : Hdr) : Nat := bits h.verFtype 7 4
/-- FTYPE: 0 CYCLIC, 1 DISCOVER, 2 DELAY. -/
def Hdr.ftype (h : Hdr) : Nat := bits h.verFtype 3 0
def Hdr.ring (h : Hdr) : Nat := bits h.flags 7 6
def Hdr.src (h : Hdr) : Bool := bit h.flags 5
def Hdr.looped (h : Hdr) : Bool := bit h.flags 4
def Hdr.tdom (h : Hdr) : Nat := bits h.flags 3 3
def Hdr.healnow (h : Hdr) : Bool := bit h.flags 2
def Hdr.fidx (h : Hdr) : Nat := bits h.fidxFlast 7 4
def Hdr.flast (h : Hdr) : Nat := bits h.fidxFlast 3 0
def Hdr.kaValid (h : Hdr) : Bool := bit h.kctl 0
def Hdr.kdValid (h : Hdr) : Bool := bit h.kctl 1
def Hdr.kdRepeat (h : Hdr) : Bool := bit h.kctl 2

/-- A frame of `body` (all bytes before the FCS) with its FCS; `good = false` sends the complement (R52). -/
def sealFrame (body : List Byte) (good : Bool) : List Byte :=
  body ++ leBytes 4 (if good then crc32 body else crc32 body ^^^ 0xFFFFFFFF)

/-- The bytes before the FCS. -/
def frameBody (f : List Byte) : List Byte := f.take (f.length - 4)

/-- The FCS of a received frame checks good. -/
def fcsGood (f : List Byte) : Bool :=
  84 ≤ f.length && crc32 (frameBody f) == leAt f (f.length - 4) 4

/-- A datagram in a frame: the offset of its header, and the header's fields (R41). -/
structure Dg where
  off : Nat
  dtype : Nat
  node : Nat
  dlen : Nat
  ulen : Nat
  hits : Nat
  deriving DecidableEq, Repr

/-- Offset of the downlink bytes. -/
def Dg.down (d : Dg) : Nat := d.off + 8
/-- Offset of the uplink bytes. -/
def Dg.up (d : Dg) : Nat := d.off + 8 + d.dlen

/-- The walk of R53 from offset `o` to `stop`, of at most `fuel` datagrams: the whole datagrams, and whether a length error
ended it. -/
def walkDg (f : List Byte) (stop : Nat) : Nat → Nat → List Dg × Bool
  | 0, o => ([], o != stop)
  | fuel + 1, o =>
    if o = stop then ([], false)
    else if o + 8 > stop then ([], true)
    else
      let d : Dg := ⟨o, leAt f o 1, leAt f (o + 1) 1, leAt f (o + 2) 2, leAt f (o + 4) 2, leAt f (o + 6) 2⟩
      let next := o + 8 + d.dlen + d.ulen
      if next > stop then ([], true)
      else
        let r := walkDg f stop fuel next
        (d :: r.1, r.2)

/-- The datagrams of a frame (R53): the area ends at 80 + PLEN or at the FCS. -/
def datagrams (f : List Byte) : List Dg × Bool :=
  let stop := 80 + (Hdr.parse f).plen
  let last := f.length - 4
  if stop ≤ last then walkDg f stop 180 80
  else
    let r := walkDg f last 180 80
    (r.1, true)

/-- A Finil frame with VER = 0x1 and the given OUI and protocol identifier (R51). -/
def isFinil (f : List Byte) (oui proto : Nat) : Bool :=
  let h := Hdr.parse f
  84 ≤ f.length && h.etype == 0x88B7 && h.ver == 1 && h.oui == oui && h.proto == proto

/-- The header of a datagram. -/
def dgHeader (dtype node dlen ulen hits : Nat) : List Byte :=
  leBytes 1 dtype ++ leBytes 1 node ++ leBytes 2 dlen ++ leBytes 2 ulen ++ leBytes 2 hits

end Sys2Proof.Machine
end

