-- ==== Sys2Proof/Machine/TimeBase.lean ====
section
/-! DEFINITION. The time base and timed I/O (spec/09_time_base.md, "Time replicas" of spec/01_architecture.md): the domain
counters, the servo, the switch-over, beacons and replicas, timed actions, TEO and TCI, the PTP FIFOs. -/

namespace Sys2Proof.Machine

/-! ## Rings that send (R62) -/

/-- A ring port is in a sending state: DISCOVER to DUALFEED. -/
def State.sending (s : State) (r : Nat) : Bool :=
  let st := s.f (R.RING_STAT_STATE r)
  2 ≤ st && st ≤ 6

/-- A ring in a sending state carries domain `d`: its active TDOM names it. -/
def State.carried (s : State) (d : Nat) : Bool :=
  (List.range 4).any (fun r => s.sending r && s.fa (R.RING_CTRL_TDOM r) == d)

def State.anySending (s : State) : Bool := (List.range 4).any s.sending

/-! ## The servo (R226, R227) -/

/-- One counter's modulus in units of `DomClk.phase`. -/
def phaseMod : Int := (phaseNs : Int) * 4294967296

/-- The counter moved by `x` units of `phase`; its wraps are counted. -/
def DomClk.move (c : DomClk) (x : Int) : DomClk :=
  { c with phase := (((c.phase : Int) + x) % phaseMod).toNat, laps := ((c.laps : Int) + ((c.phase : Int) + x) / phaseMod).toNat }

/-- The domain's ns since its start, wraps counted: what a timer longer than 1,073,741,824 ns counts in (R230). Whole periods of
2^20 ns and a final stamp name the same instant. -/
def DomClk.long (c : DomClk) : Nat := c.laps * 2 ^ 32 + c.now
/-- ns of domain `d` counted across wraps. -/
def State.long (s : State) (d : Nat) : Nat := (s.dom d).long
/-- The same in the grid domain, which times the duplex hold-offs (notes/assumptions/2015.md). -/
def State.glong (s : State) : Nat := s.long s.grid

/-- R229: an arrival that `p` names waits behind the command in progress. The TIM clock stands while commands wait, so both
carry one stamp, and the arrival wins (notes/assumptions/2016.md). -/
def State.arrives (s : State) (p : Instr → Bool) : Bool := s.pending.any p

/-- The ramp of the effective rate on a sending domain: 1,000 ppb per ms, per ns. -/
def rampNs : Int := 256

/-- `x` moved toward `y` by at most `m`. -/
def toward (x y m : Int) : Int := if x < y then min (x + m) y else max (x - m) y

/-- The slew term's next value: toward ±SLEW in the direction of RESID, back to 0 in time to end at RESID = 0. -/
def slewNext (v resid lim m : Int) : Int :=
  let dir : Int := if 0 < resid then 1 else if resid < 0 then -1 else 0
  let braking := 0 < v * dir && resid * dir ≤ (v * dir) * (v * dir + rampNs) / (2 * rampNs)
  if braking then toward v 0 m else toward v (dir * lim) m

/-- One ns of a domain (R223, R226, R227). `ring`: it follows a ring's time at the rate steered (R224); `sending`: a ring in a
sending state carries it; `rate` is RATE, `slew` is SLEW. -/
def DomClk.tick (c : DomClk) (ring sending : Bool) (rate : Int) (slew : Nat) : DomClk :=
  if ring then c.move ((phaseNs : Int) + c.base)
  else if sending then
    let lim : Int := (min slew 10000 : Nat) * 256000
    let b := toward c.base (rate * 1000) rampNs
    let left := rampNs - ((b - c.base).natAbs : Int)
    let v := slewNext c.slew c.resid lim left
    let c := { c with base := b, slew := v, resid := c.resid - v }
    let c := if (v.natAbs : Int) ≤ rampNs && (c.resid.natAbs : Int) ≤ 2 * rampNs then { c with resid := 0, slew := 0 } else c
    c.move ((phaseNs : Int) + b + v)
  else
    let lim : Int := (slew : Int) * 256000
    let v := max (-lim) (min lim c.resid)
    { c with base := rate * 1000, slew := v, resid := c.resid - v }.move ((phaseNs : Int) + rate * 1000 + v)

/-- Ticks of the 32.768 kHz oscillator in `clk` ns (R446). -/
def rtcTicks (clk : Nat) : Nat := clk * 32768 / 1000000000

/-- One tick of the real-time counter (R445). -/
def State.rtcTick (s : State) : State :=
  let t := s.f R.AON_RTC_SUB_TICKS
  let s := s.set R.AON_RTC_SUB_TICKS (t + 1)
  if t = 32767 then s.bump R.AON_RTC_S_S else s

/-- Domain `d` follows its ring: SRC is RING, and no switch-over steers it (R224, R232). -/
def State.ringSteered (s : State) (d : Nat) : Bool :=
  s.f (R.TD_CFG_SRC d) == 2 && !(s.tim.swTarget.isSome && s.grid == d)

/-- One TIM clock of 1 ns passes (the step on an empty queue). -/
def State.tick (s : State) : State :=
  let before := rtcTicks s.tim.clk
  let s := { s with tim := { s.tim with clk := s.tim.clk + 1 } }
  let s := if rtcTicks s.tim.clk = before then s else s.rtcTick
  if !s.pdOn 21 then s
  else forN 2 (fun d s =>
    s.modDom d (fun c => c.tick (s.ringSteered d) (s.carried d) (i32 (s.f (R.TD_RATE d))) (s.f (R.TD_SLEW d)))) s

/-- Units of `phase` in 1/16 ns. -/
def phase16 : Int := 16000000000000

/-- A write of Dx.OFS_IN (R226, R228). -/
def State.ofsIn (s : State) (d : Nat) (v : Int) : State :=
  let own := match s.tim.swTarget with | some _ => s.grid != d | none => true
  let s := s.clr (R.TD_STAT_HOLDOVER d)
  if s.f (R.TD_CFG_SRC d) ≠ 1 || !own then s
  else
    let big := decide (16 * (s.f (R.TD_STEP_LIM d) : Int) < (v.natAbs : Int)) && s.on (R.TD_CFG_STEP_EN d)
    let may := !s.carried d && !(s.grid == d && s.anySending)
    if big && may then s.modDom d (fun c => { c with resid := 0, pend := c.pend + v * phase16 }.move (v * phase16))
    else
      let s := s.modDom d (fun c => { c with resid := v * phase16 })
      if big then s.raise (R.TD_STAT_STEPDENY d) else s

/-- A write of Dx.RATE stores the nearest limit (R227). -/
def State.rateWrite (s : State) (d : Nat) (v : Int) : State :=
  s.set (R.TD_RATE d) (u32 (max (-51200000) (min 51200000 v)))

/-- R228: a SERVO domain without OFS_IN for HOLD_MS ms. -/
def State.holdover (s : State) (d : Nat) : State :=
  if s.f (R.TD_CFG_SRC d) = 1 && !s.on (R.TD_STAT_HOLDOVER d) then
    (s.raise (R.TD_STAT_HOLDOVER d)).report (srcOf 6 (0 * 64 + d)) clsWarn 0 [d]
  else s

/-! ## Switch-over (R232) -/

/-- TARGET minus L in units of `phase`, the shorter way round. -/
def State.deltaPhase (s : State) (t l : Nat) : Int :=
  let x := (((s.dom t).phase : Int) - ((s.dom l).phase : Int)) % phaseMod
  if x < phaseMod / 2 then x else x - phaseMod

/-- A write of TB.SW with GO (R232 steps 1 and 2). -/
def State.switchStart (s : State) (t : Nat) : State :=
  let s := s.set R.TB_SW_TARGET t
  if t = s.grid || s.tim.swTarget.isSome then s
  else if (s.f R.TB_SW_MAXOFS : Int) < ((dt (s.now t) (s.now s.grid)).natAbs : Int) then s.raise R.TB_STAT_SWERR
  else
    let s := (s.raise R.TB_STAT_SWBUSY)
    let s := s.modDom s.grid (fun c => { c with resid := s.deltaPhase t s.grid })
    { s with tim := { s.tim with swTarget := some t } }

/-- RESID := Δ, refreshed every beacon (R232 step 2). -/
def State.switchRefresh (s : State) : State :=
  match s.tim.swTarget with
  | none => s
  | some t => s.modDom s.grid (fun c => { c with resid := s.deltaPhase t s.grid })

/-- Steps 3 and 4 of R232 at a boundary. -/
def State.switchBoundary (s : State) : State :=
  match s.tim.swTarget with
  | none => s
  | some t =>
    let l := s.grid
    if (s.deltaPhase t l).natAbs ≤ phaseNs then
      let s := (s.set R.TB_CTRL_GRID t).set R.TB_STAT_GRID_NOW t
      let s := forN 4 (fun r s => if s.fa (R.RING_CTRL_TDOM r) == l then s.setBoth (R.RING_CTRL_TDOM r) t else s) s
      let s := s.clr R.TB_STAT_SWBUSY
      let s := s.modDom l (fun c => { c with resid := 0 })
      ({ s with tim := { s.tim with swTarget := none } }).report (srcOf 6 (1 * 64)) clsInfo 0 [t]
    else s

/-! ## Epochs and PTP time (R231) -/

/-- The epoch takes effect when EPOCH_SEC_HI is written. -/
def State.epochWrite (s : State) (d hi : Nat) : State :=
  let s := s.set (R.TD_EPOCH_SEC_HI d) hi
  s.modDom d (fun c => { c with epochRef := s.f (R.TD_EPOCH_REF d), epochNs := s.f (R.TD_EPOCH_NS d),
                                epochSec := s.f (R.TD_EPOCH_SEC_LO d) + 2 ^ 32 * (hi % 2 ^ 16) })

/-- The PTP time of a stamp of domain `d`: seconds and nanoseconds, if the conversion is valid. -/
def State.ptpTime (s : State) (d t : Nat) : Option (Nat × Nat) :=
  let c := s.dom d
  let x := dt t c.epochRef
  if x < 0 then none
  else
    let ns := c.epochNs + x.toNat
    some (c.epochSec + ns / 1000000000, ns % 1000000000)

/-! ## Beacons, replicas (R21, R22) -/

/-- Islands that hold a replica. -/
def replicaIslands : List Nat := [islDSP, islRAB, islRCD, 36, 37, 38, 39, islBLY, islSYS]

/-! ## Timed actions (R24, R25) -/

/-- R24: a late action is counted by its island and reported. -/
def State.lateAction (s : State) (isl : Nat) : State :=
  let n := SMap.get (fun _ => 0) s.tim.lateCnt isl
  let s := { s with tim := { s.tim with lateCnt := SMap.put (fun _ => 0) s.tim.lateCnt isl (satInc n 1) } }
  s.report (srcOf 1 (isl * 8 + 3)) clsFault 0 [isl]

/-- An action arrives at its island (R24). -/
def State.actionArrive (s : State) (x : TAction) : State :=
  if dt x.tAct (s.rnow x.dom) < 0 then s.lateAction x.isl
  else { s with tim := { s.tim with actions := s.tim.actions ++ [x] } }

/-- The waiting action of an output with the earliest stamp; the first to arrive among equals. -/
def State.nextAction (s : State) (isl out : Nat) : List TAction → Option TAction
  | [] => none
  | x :: xs =>
    match s.nextAction isl out xs with
    | none => if x.isl = isl && x.out = out then some x else none
    | some b =>
      if x.isl = isl && x.out = out && dt x.tAct (s.rnow x.dom) ≤ dt b.tAct (s.rnow b.dom) then some x else some b

/-- Key of a timed output's level. -/
def outKey (isl out : Nat) : Nat := isl * 2 ^ 32 + out

/-- The island performs the actions of one output that share the earliest stamp, in arrival order (R25); those whose stamp
lies before the replica's value are late (R24). -/
def State.actionPerform (s : State) (isl out : Nat) : State :=
  match s.nextAction isl out s.tim.actions with
  | none => s
  | some x =>
    let mine := fun (y : TAction) => y.isl == isl && y.out == out && y.tAct == x.tAct && y.dom == x.dom
    let due := s.tim.actions.filter mine
    let s := { s with tim := { s.tim with actions := s.tim.actions.filter (fun y => !mine y) } }
    forEach due (fun y s =>
      if dt y.tAct (s.rnow y.dom) < 0 then s.lateAction isl
      else { s with tim := { s.tim with outs := SMap.put (fun _ => 0) s.tim.outs (outKey isl out) y.value } }) s

/-- The island has an action of the output to perform that is not late. -/
def State.actionDue (s : State) (isl out : Nat) : Bool :=
  match s.nextAction isl out s.tim.actions with
  | some x => decide (0 ≤ dt x.tAct (s.rnow x.dom))
  | none => false

/-- One beacon (R21, R22, R226): replicas count it or miss it, a step reaches them, and a switch-over refreshes RESID. -/
def State.beacon (s : State) (seen : Nat) : State :=
  let s := forEach replicaIslands (fun i s =>
    let r := s.rep i
    if bit seen i && s.islOn i then s.setRep i { r with good := min (r.good + 1) 64, miss := 0 }
    else s.setRep i { r with good := 0, miss := min (r.miss + 1) 4 }) s
  let s := (s.modDom 0 (fun c => { c with pend := 0 })).modDom 1 (fun c => { c with pend := 0 })
  s.switchRefresh

/-! ## Timed event outputs (R238) -/

def State.teo (s : State) (i : Nat) : TeoQ := SMap.get (fun _ => {}) s.tim.teo i
def State.setTeo (s : State) (i : Nat) (q : TeoQ) : State :=
  ({ s with tim := { s.tim with teo := SMap.put (fun _ => {}) s.tim.teo i q } }).set (R.TEO_STAT_DEPTH i) q.queue.length

/-- The end of the entry in progress, a pulse that is not yet cleared, in the domain CFG.TDOM names. An entry without one has
ended when the next reaches the head, whose stamp is then judged under R24 alone. -/
def State.teoEnd (s : State) (i : Nat) : Option Nat :=
  match (s.teo i).pulseEnd with
  | none => none
  | some (d, e) =>
    let g := s.f (R.TEO_CFG_TDOM i)
    some (if d = g then e else u32 ((s.now g : Int) + dt e (s.now d)))

/-- An entry with stamp `t` that reaches the head at `at'` is late (R24, R238). -/
def State.teoLate (s : State) (i at' t : Nat) : Bool :=
  decide (dt t at' < 0) || (match s.teoEnd i with | some e => decide (dt t e < 0) | none => false)

/-- Late entries leave the head of the queue until the head waits for its stamp (R238). -/
def State.teoHeads (s : State) (i at' : Nat) : List (Nat × Nat) → State
  | [] => s.setTeo i { s.teo i with queue := [] }
  | (t, a) :: rest =>
    if s.teoLate i at' t then
      ((s.count (R.TEO_STAT_LATE i)).report (srcOf 6 (4 * 64 + i)) clsWarn (s.f (R.DOM_TEOOWN_DOM i)) [i, t]).teoHeads i at' rest
    else s.setTeo i { s.teo i with queue := (t, a) :: rest }

/-- A push of an entry (R238). -/
def State.teoPush (s : State) (i act : Nat) : State :=
  let q := s.teo i
  if 16 ≤ q.queue.length then
    (s.raise (R.TEO_STAT_OVF i)).report (srcOf 6 (5 * 64 + i)) clsWarn (s.f (R.DOM_TEOOWN_DOM i)) [i]
  else
    let e := (s.f (R.TEO_Q_STAMP i), act)
    if q.queue.isEmpty then s.teoHeads i (s.now (s.f (R.TEO_CFG_TDOM i))) [e]
    else s.setTeo i { q with queue := q.queue ++ [e] }

def State.teoFlush (s : State) (i : Nat) : State := s.setTeo i { s.teo i with queue := [] }

/-- The head entry acts at its stamp (R238). -/
def State.teoAct (s : State) (i : Nat) : State :=
  let q := s.teo i
  match q.queue with
  | [] => s
  | (t, a) :: rest =>
    let endAt := u32 ((t : Int) + s.f (R.TEO_CFG_WIDTH i))
    let pin := match a with | 0 => true | 1 => false | 2 => !q.pin | _ => true
    let s := s.setTeo i { q with pin := pin, pulseEnd := if a = 3 then some (s.f (R.TEO_CFG_TDOM i), endAt) else none }
    s.teoHeads i t rest

/-- A pulse ends: the pin is cleared (R238). -/
def State.teoClear (s : State) (i : Nat) : State :=
  let q := s.teo i
  match q.pulseEnd with
  | none => s
  | some _ => s.setTeo i { q with pin := false, pulseEnd := none }

/-- The level of pin TEO[i]: CFG.REST while EN = 0 (R238). -/
def State.teoLevel (s : State) (i : Nat) : Bool :=
  if s.on (R.TEO_CFG_EN i) then (s.teo i).pin else s.on (R.TEO_CFG_REST i)

/-! ## Capture inputs (R239) -/

def State.tci (s : State) (i : Nat) : TciF := SMap.get (fun _ => {}) s.tim.tci i
def State.setTci (s : State) (i : Nat) (q : TciF) : State :=
  ({ s with tim := { s.tim with tci := SMap.put (fun _ => {}) s.tim.tci i q } }).set (R.TCI_STAT_DEPTH i) q.fifo.length

/-- The configured edges of TCI[i] include this one. -/
def State.tciEdge (s : State) (i : Nat) (rising : Bool) : Bool :=
  s.on (R.TCI_CFG_EN i) && bit (s.f (R.TCI_CFG_EDGE i)) (if rising then 0 else 1)

/-- The stamp of an edge detected now: the detection instant minus FILT (R239). -/
def State.tciStamp (s : State) (i : Nat) : Nat :=
  u32 ((s.now (s.f (R.TCI_CFG_TDOM i)) : Int) - s.f (R.TCI_CFG_FILT i))

/-- A capture enters its FIFO (R239). -/
def State.tciEnter (s : State) (i stamp : Nat) (level : Bool) : State :=
  let q := s.tci i
  if 16 ≤ q.fifo.length then
    (((s.setTci i { q with seq := (q.seq + 1) % 65536 }).raise (R.TCI_STAT_OVF i))).report (srcOf 6 (6 * 64 + i)) clsWarn
      (s.f (R.DOM_TCIOWN_DOM i)) [i]
  else s.setTci i { q with fifo := q.fifo ++ [⟨stamp, level, q.seq⟩], seq := (q.seq + 1) % 65536 }

/-- A capture fills its tag (R239). -/
def State.tciTag (s : State) (i stamp : Nat) : State :=
  let dom := s.f (R.DOM_TCIOWN_DOM i)
  if s.on (R.TCI_CFG_TAGEN i) then
    let t := s.f (R.TCI_CFG_TAG i)
    let s :=
      if s.on (R.TAG_CTL_FULL t) then (s.raise (R.TCI_STAT_TAGOVR i)).report (srcOf 6 (6 * 64 + i)) clsWarn dom [i] else s
    s.fillTag t stamp
  else s

/-- A read of HEAD_INFO removes the head entry (R240). -/
def State.tciPop (s : State) (i : Nat) : State :=
  s.setTci i { s.tci i with fifo := (s.tci i).fifo.drop 1 }

/-! ## PTP stamp FIFOs (R235) -/

def State.ptpFifo (s : State) (tx : Bool) (i : Nat) : List PtpStamp :=
  SMap.get (fun _ => []) (if tx then s.tim.ptpTx else s.tim.ptpRx) i

def State.setPtpFifo (s : State) (tx : Bool) (i : Nat) (q : List PtpStamp) : State :=
  if tx then { s with tim := { s.tim with ptpTx := SMap.put (fun _ => []) s.tim.ptpTx i q } }
  else { s with tim := { s.tim with ptpRx := SMap.put (fun _ => []) s.tim.ptpRx i q } }

/-- A stamp enters a FIFO of 32 entries; a full FIFO drops it and counts (R235). -/
def State.ptpEnter (s : State) (tx : Bool) (i : Nat) (p : PtpStamp) : State :=
  if 32 ≤ (s.ptpFifo tx i).length then s.count (if tx then R.PTP_TX_OVF i else R.PTP_RX_OVF i)
  else s.setPtpFifo tx i (s.ptpFifo tx i ++ [p])

def State.ptpPop (s : State) (tx : Bool) (i : Nat) : State := s.setPtpFifo tx i ((s.ptpFifo tx i).drop 1)

/-- INFO word of a FIFO head (R240). -/
def ptpInfo : List PtpStamp → Nat
  | [] => 0
  | p :: _ => p.seqId % 65536 * 65536 + p.msgType % 16 * 256 + p.frac % 16 * 16 + 1

def ptpStampWord : List PtpStamp → Nat
  | [] => 0
  | p :: _ => p.stamp

/-! ## RING source (R224) -/

/-- The rate of a followed ring in 1/256000 ppb (R224): ring time passed between two frames over the TIM clocks between them,
as far as two effective rates of R227 reach. -/
def DomClk.steer (c : DomClk) (t clk : Nat) : DomClk :=
  let base :=
    match c.ringRef with
    | some (t0, c0) =>
      if c0 < clk then max (-102400000000) (min 102400000000 ((dt t t0 - ((clk - c0 : Nat) : Int)) * phaseNs / ((clk - c0 : Nat) : Int)))
      else c.base
    | none => c.base
  { c with base := base, ringRef := some (t, clk), goodFrames := min (c.goodFrames + 1) 64 }

/-- A good frame of the followed ring gives its time: rate and phase are steered to it, within ±5 ns (R224; the deviation is
free); RINGLOCK after 64 good frames in a row. -/
def State.ringTime (s : State) (d t : Nat) : State :=
  if !s.ringSteered d then s
  else
    let dev : Int := ((Config.freeWord s.free).toNat % 11 : Nat) - 5
    let x := dt t (s.now d) + dev
    let s := (s.modDom d (fun c => (c.steer t s.tim.clk).move (x * phaseNs))).burn
    if 64 ≤ (s.dom d).goodFrames then s.raise (R.TD_STAT_RINGLOCK d) else s

/-- A domain leaves SRC = RING: its lock is lost, and it keeps value and rate (R224). -/
def State.ringLeave (s : State) (d : Nat) : State :=
  (s.clr (R.TD_STAT_RINGLOCK d)).modDom d (fun c => { c with goodFrames := 0, ringRef := none })

/-- A lost frame of the followed ring. -/
def State.ringTimeLost (s : State) (d : Nat) : State :=
  if s.f (R.TD_CFG_SRC d) = 2 then s.ringLeave d else s

/-! ## Register writes and read views -/

/-- A write of the time base block at TIM (R240). -/
def State.tbWrite (s : State) (a v : Nat) : State :=
  if a = R.TB_TCYC_W then s.set R.TB_TCYC (max 10000 (min 4000000 (v % 2 ^ 22)))
  else if a = R.TB_SW then if bit v 31 then s.switchStart (v % 2) else s.set R.TB_SW_TARGET (v % 2)
  else if a = R.TB_SW_MAXOFS_W then s.set R.TB_SW_MAXOFS v
  else if a = R.TB_SNAP_W then
    if bit v 0 then (s.set (R.TD_SNAP 0) (s.now 0)).set (R.TD_SNAP 1) (s.now 1) else s
  else if 0x10310100 ≤ a && a < 0x10310180 then
    let d := (a - 0x10310100) / 0x40
    match a % 0x40 with
    | 0x00 =>
      let s := (s.set (R.TD_CFG_HOLD_MS d) (bits v 31 16)).set (R.TD_CFG_STEP_EN d) (bits v 8 8)
      let s := (s.set (R.TD_CFG_RSEL d) (bits v 5 4)).set (R.TD_CFG_SRC d) (bits v 1 0)
      let switching := s.tim.swTarget.isSome && s.grid == d
      -- R224: only SERVO, and a switch-over, work a residual offset off
      let s := if bits v 1 0 = 1 || switching then s else s.modDom d (fun c => { c with resid := 0 })
      if bits v 1 0 = 2 then s else s.ringLeave d
    | 0x0C => s.rateWrite d (i32 v)
    | 0x10 => s.ofsIn d (i32 v)
    | 0x18 => s.set (R.TD_SLEW d) v
    | 0x1C => s.set (R.TD_STEP_LIM d) v
    | 0x24 => s.set (R.TD_EPOCH_REF d) v
    | 0x28 => s.set (R.TD_EPOCH_NS d) v
    | 0x2C => s.set (R.TD_EPOCH_SEC_LO d) v
    | 0x30 => s.epochWrite d v
    | _ => s
  else if 0x10310200 ≤ a && a < 0x10310280 then
    let i := (a - 0x10310200) / 0x40
    match a % 0x40 with
    | 0x00 => s.setReg (R.PTP_PCFG i) (v % 2 ^ 20 - bits v 7 5 * 32)
    | 0x04 => s.setReg (R.PTP_LAT i) v
    | _ => s
  else s

/-- A write of the timed I/O block (R240). -/
def State.tioWrite (s : State) (a v : Nat) : State :=
  if a < 0x10320200 then
    let i := (a - 0x10320000) / 0x10
    match a % 0x10 with
    | 0x0 =>
      let s := s.setReg (R.TEO_CFG i) (v - bits v 11 3 * 8)
      if bit v 0 then s else s.setTeo i { s.teo i with pin := bit v 1 }
    | 0x4 => s.set (R.TEO_Q_STAMP i) v
    | 0x8 => if bit v 31 then s.teoFlush i else s.teoPush i (v % 4)
    | _ => s
  else if 0x10320400 ≤ a && a < 0x10320800 then
    let i := (a - 0x10320400) / 0x20
    if a % 0x20 = 0 then s.setReg (R.TCI_CFG i) (bits v 29 8 * 256 + bits v 4 0) else s
  else s

/-- Read views of the time base and timed I/O (R226, R240). -/
def State.timView (s : State) (a : Nat) : Option Nat :=
  if 0x10310100 ≤ a && a < 0x10310180 then
    let d := (a - 0x10310100) / 0x40
    match a % 0x40 with
    | 0x04 => some (s.now d)
    | 0x14 => some (u32 ((s.dom d).resid / phase16))
    | 0x20 => some (putBits (s.reg (R.TD_STAT d)) 1 1 (b2n ((s.dom d).resid != 0)))
    | _ => none
  else if 0x10310200 ≤ a && a < 0x10310280 then
    let i := (a - 0x10310200) / 0x40
    match a % 0x40 with
    | 0x08 => some (ptpStampWord (s.ptpFifo false i))
    | 0x0C => some (ptpInfo (s.ptpFifo false i))
    | 0x10 => some (ptpStampWord (s.ptpFifo true i))
    | 0x14 => some (ptpInfo (s.ptpFifo true i))
    | _ => none
  else if 0x10320400 ≤ a && a < 0x10320800 then
    let i := (a - 0x10320400) / 0x20
    match a % 0x20 with
    | 0x4 => some (match (s.tci i).fifo with | [] => 0 | c :: _ => c.stamp)
    | 0x8 => some (match (s.tci i).fifo with | [] => 0 | c :: _ => 2 ^ 31 + b2n c.level * 2 ^ 30 + c.seq)
    | _ => none
  else none

/-- What a read changes: heads of FIFOs are removed. -/
def State.timReadEffect (s : State) (a : Nat) : State :=
  if a = R.PTP_RX_INFO 0 then s.ptpPop false 0
  else if a = R.PTP_RX_INFO 1 then s.ptpPop false 1
  else if a = R.PTP_TX_INFO 0 then s.ptpPop true 0
  else if a = R.PTP_TX_INFO 1 then s.ptpPop true 1
  else if 0x10320400 ≤ a && a < 0x10320800 && a % 0x20 == 8 then s.tciPop ((a - 0x10320400) / 0x20)
  else s

end Sys2Proof.Machine
end

