-- ==== Sys2Proof/Machine/Node.lean ====
section
/-! DEFINITION. Finil nodes (spec/02_finil_ring.md, R380): what a compatible node does with a frame, a mailbox request, a
sample, an apply, a lost cycle, a loopback and its own reset. A node is named by its ring and its index on that ring. -/

namespace Sys2Proof.Machine

/-- Key of node `nd` of ring `r`. -/
def nodeKey (r nd : Nat) : Nat := 64 * r + nd

/-- What an unlisted node is: its serial is its key plus 1 (notes/assumptions/30.md). -/
def nodeDflt (k : Nat) : NodeSt := { serial := k + 1 }

def State.node (s : State) (k : Nat) : NodeSt := SMap.get nodeDflt s.net.nodes k
def State.setNode (s : State) (k : Nat) (n : NodeSt) : State :=
  { s with net := { s.net with nodes := SMap.put nodeDflt s.net.nodes k n } }

/-- A node sends a frame from a port: OUT, or IN for reverse travel. -/
def State.nodeSend (s : State) (k : Nat) (viaIn : Bool) (f : List Byte) : State :=
  { s with net := { s.net with nodeOut := SMap.put (fun _ => []) s.net.nodeOut (2 * k + b2n viaIn) f } }

/-- A node's error count, which stays at its largest value (R52; notes/assumptions/2021.md). -/
def inc32 (x : Nat) : Nat := min (x + 1) 0xFFFFFFFF

/-! ## Objects and the mailbox (R45, R46, R511) -/

/-- The bytes of a mandatory object, if the node implements it (R46). -/
def NodeSt.object (n : NodeSt) (o : Nat) : Option (List Byte) :=
  if o = 1 then
    some (leBytes 2 n.vendor ++ leBytes 2 n.product ++ leBytes 2 n.revision ++ leBytes 2 (b2n n.safety) ++ leBytes 8 n.serial)
  else if o = 2 then some (leBytes 1 n.nax)
  else if o = 4 then some (leBytes 4 n.phash)
  else if o = 5 then some (leBytes 1 n.addr)
  else if o = 6 then some (leBytes 4 n.dIn ++ leBytes 4 n.dOut)
  else if o = 7 then some (leBytes 4 n.trdy)
  else if o = 8 then some (leBytes 1 n.pwmDiv)
  else if o = 9 then some (leBytes 4 n.fcsErr ++ leBytes 4 n.lenErr ++ leBytes 4 n.lostCnt)
  else if 0x10 ≤ o && o < 0x10 + n.nax then
    some (leBytes 1 (n.splits.getD (o - 0x10) 0) ++ leBytes 1 (n.posBits.getD (o - 0x10) 0) ++ leBytes 2 0
      ++ leBytes 4 (n.ifs.getD (o - 0x10) 0))
  else if 0x20 ≤ o && o < 0x20 + n.nax then
    let c := n.axcfg.getD (o - 0x20) (0, 2)
    some (leBytes 1 c.1 ++ leBytes 1 c.2 ++ leBytes 2 0)
  else none

/-- The RW mandatory objects: ADDR, LINKDLY, PWM_DIV, AXCFG. -/
def objRW (o : Nat) : Bool := o == 5 || o == 6 || o == 8 || (0x20 ≤ o && o < 0x24)

/-- The knot-capable objects: PWM_DIV, AXCFG. -/
def objKnot (o : Nat) : Bool := o == 8 || (0x20 ≤ o && o < 0x24)

/-- The value lies in the object's range (R511). -/
def NodeSt.inRange (n : NodeSt) (o : Nat) (v : List Byte) : Bool :=
  if o = 5 then leNat v ≤ 0x40
  else if o = 8 then 1 ≤ leNat v && leNat v ≤ 16
  else if 0x20 ≤ o && o < 0x24 then
    let sp := leAt v 0 1
    sp < 2 && bit (n.splits.getD (o - 0x20) 0) sp && leAt v 1 1 ≤ 2 && leAt v 2 2 == 0
  else true

/-- An object takes a value. ADDR: the node has just taken an address, so no last MSEQ is held (R45) and its starting cycle
is to come (R72). -/
def NodeSt.store (n : NodeSt) (o : Nat) (v : List Byte) : NodeSt :=
  if o = 5 then { n with addr := leNat v, lastMseq := none, started := false, everApplied := false, lostRun := 0,
                         last := [{}, {}, {}, {}], shadows := if leNat v = 0 then [] else n.shadows, sealed := if leNat v = 0 then [] else n.sealed }
  else if o = 6 then { n with dIn := leAt v 0 4, dOut := leAt v 4 4 }
  else if o = 8 then { n with pwmDiv := leNat v }
  else if 0x20 ≤ o && o < 0x24 then
    { n with axcfg := updAt n.axcfg (o - 0x20) (fun _ => (leAt v 0 1, leAt v 1 1)) }
  else n

/-- The first case of R511 that applies to an access of object `o` with data `v`; `knot` for a KNOT_PREP, `rd` a READ, whose
MLEN is not compared (notes/assumptions/2022.md). -/
def NodeSt.result (n : NodeSt) (o : Nat) (v : List Byte) (rd knot : Bool) : Nat :=
  match n.object o with
  | none => 1
  | some old =>
    if !rd && !objRW o then 2
    else if !rd && v.length ≠ old.length then 3
    else if knot && !objKnot o then 5
    else if !rd && !n.inRange o v then 6
    else if knot && n.room ≤ n.shadows.length then 4
    else 0

/-- Discard every shadow value of a knot (R213). -/
def NodeSt.discard (n : NodeSt) (k : Nat) : NodeSt :=
  { n with shadows := n.shadows.filter (fun x => x.knot != k), sealed := n.sealed.filter (· != k) }

/-- Data bytes to the 24 of MDATA. -/
def pad24 (d : List Byte) : List Byte := (d ++ List.replicate 24 0).take 24

/-- The PARAM uplink: MSEQ, MRES, OBJ, MLEN, MDATA (R45). -/
def paramUp (mseq mres obj : Nat) (d : List Byte) : List Byte :=
  leBytes 1 mseq ++ leBytes 1 mres ++ leBytes 2 obj ++ leBytes 1 d.length ++ leBytes 3 0 ++ pad24 d

/-- A request to a node: MOP, OBJ and data. -/
structure NReq where
  mop : Nat
  obj : Nat
  data : List Byte
  deriving DecidableEq, Repr

/-- Execute one new request whole or not at all (R511): the node after it, the result and the data answered. A KNOT_PREP's
value begins at MDATA[4], so its MLEN is 4 more than the object's size (notes/assumptions/2022.md). -/
def NodeSt.perform (n : NodeSt) (q : NReq) : NodeSt × Nat × List Byte :=
  match q.mop with
  | 0 => (n, 0, [])
  | 1 =>
    let r := n.result q.obj q.data true false
    (n, r, if r = 0 then (n.object q.obj).getD [] else [])
  | 2 =>
    let r := n.result q.obj q.data false false
    (if r = 0 then n.store q.obj q.data else n, r, [])
  | 3 =>
    let o := leAt q.data 1 2
    let v := q.data.drop 4
    let r := n.result o v false true
    (if r = 0 then { n with shadows := n.shadows ++ [⟨leAt q.data 0 1, o, v⟩] } else n, r, [])
  | 4 =>
    let k := leAt q.data 0 1
    if (n.shadows.filter (fun x => x.knot == k)).length = leAt q.data 1 1 then
      ({ n with sealed := k :: n.sealed.filter (· != k) }, 0, [])
    else (n.discard k, 7, [])
  | 5 => (n.discard (leAt q.data 0 1), 0, [])
  | _ => (n, 8, [])

/-- A mailbox request reaches the node (R45): a repeat is answered with the response already given, a new one executed. A
node that has just taken an address by it holds no last MSEQ. -/
def NodeSt.mailbox (n : NodeSt) (mseq : Nat) (q : NReq) : NodeSt :=
  if n.lastMseq = some mseq then n
  else
    let r := n.perform q
    { r.1 with lastMseq := if q.mop = 2 && q.obj = 5 && r.2.1 = 0 then none else some mseq,
               response := paramUp mseq r.2.1 q.obj r.2.2 }

/-- The PARAM uplink: the latest response, or that of a node that has executed no request (R511). -/
def NodeSt.paramUplink (n : NodeSt) : List Byte := if n.response.isEmpty then paramUp 0 0xFF 0 [] else n.response

def State.nodeMailbox (s : State) (k mseq : Nat) (q : NReq) : State := s.setNode k ((s.node k).mailbox mseq q)

/-! ## Leaving the ring (R72, R213) -/

/-- The node turns every bridge off, enters its safe state and sets its address to 0. -/
def NodeSt.leave (n : NodeSt) : NodeSt :=
  { n with addr := 0, applied := [{}, {}, {}, {}], last := [{}, {}, {}, {}], everApplied := false, inFb := false, started := false, lostRun := 0, held := [],
           heldCyc := none, shadows := [], sealed := [], announced := none, dec := none, sto := 15, claim := none, grant := none }

/-! ## Uplinks -/

/-- NSTAT as the node writes it (R43). -/
def NodeSt.nstat (n : NodeSt) : Nat :=
  n.apply + 4 * b2n n.knotMissed + 8 * b2n n.loopIn + 16 * b2n n.loopOut + 32 * b2n n.linkIn + 64 * b2n n.linkOut
    + 128 * b2n n.locked + 256 * b2n n.busOk + 512 * b2n (n.safety && n.sto % 2 ^ n.nax == 2 ^ n.nax - 1)

/-- ASTAT (R43, R56): ENABLED as the bridge stands, IN_FALLBACK as the latest apply left it; OVERCURRENT, POS_VALID and the
node-defined bits are measured with the sample. An unlocked node writes ENABLED = 0 and POS_VALID = 0. -/
def NodeSt.astat (n : NodeSt) (a sampled : Nat) : Nat :=
  let on := n.locked && (n.applied.getD a {}).on && !(n.safety && bit n.sto a)
  putBits (putBits (putBits sampled 0 0 (b2n on)) 2 2 (b2n (n.locked && bit sampled 2))) 3 3 (b2n n.inFb)

/-- An axis's 16 uplink bytes; IC is 0 in the node-current split. -/
def NodeSt.axisUplink (n : NodeSt) (a : Nat) : List Byte :=
  let x := n.sample.getD a ⟨0, 0, 0, 0, 0, 0, 0⟩
  let st := n.astat a x.astat.toNat
  let ic := if (n.axcfg.getD a (0, 2)).1 = 1 then 0 else x.ic.toNat
  leBytes 2 st ++ leBytes 2 x.ia.toNat ++ leBytes 2 x.ib.toNat ++ leBytes 2 ic ++ leBytes 4 x.pos.toNat
    ++ leBytes 2 x.vbus.toNat ++ leBytes 2 x.aux.toNat

/-- NKNOT (R70): the announced knot of this header, if every shadow sealed for it is held. -/
def NodeSt.nknot (n : NodeSt) (h : Hdr) : Nat :=
  if h.kaValid && n.sealed.contains h.kaId then h.kaId else 0xFF

/-- The AXIS uplink (R43). -/
def NodeSt.axisDatagramUplink (n : NodeSt) (h : Hdr) : List Byte :=
  leBytes 2 n.nstat ++ leBytes 1 (n.nknot h) ++ leBytes 1 n.nerr ++
    ((List.range n.nax).map n.axisUplink).flatten

/-- The uplink container of the safety logic (R379, R380); safe speeds are measured values, free here. -/
def NodeSt.containerUp (n : NodeSt) (free : Nat) : List Byte :=
  let b := leBytes 2 (n.seqLast.getD 0) ++ leBytes 1 n.conn ++ leBytes 1 (n.sto % 2 ^ n.nax) ++
    ((List.range 4).map (fun i => leBytes 2 (if i < n.nax then (Config.freeWord (free + i)).toNat else 0))).flatten
  b ++ leBytes 4 (crc32Seed (n.seed ^^^ 0xFFFFFFFF) b)

/-- A downlink container (R380): accepted, it sets STO per axis. -/
def NodeSt.container (n : NodeSt) (c : List Byte) : NodeSt :=
  let seq := leAt c 0 2
  let wdc := leAt c 4 1
  let fresh : Bool :=
    match n.seqLast with
    | none => true
    | some q => let d := i16 ((seq : Int) - q); decide (1 ≤ d ∧ d ≤ (wdc : Int))
  if n.safety && crc32Seed n.seed (c.take 12) == leAt c 12 4 && leAt c 2 1 == n.conn && fresh then
    { n with seqLast := some seq, sto := leAt c 3 1 % 16 }
  else n

/-- A DISCOVER slot (R49). -/
def NodeSt.discoverSlot (n : NodeSt) : List Byte :=
  leBytes 8 n.serial ++ leBytes 2 n.vendor ++ leBytes 2 n.product ++ leBytes 1 n.nax ++ leBytes 1 n.speeds
    ++ leBytes 1 (b2n n.slowOut + 2 * b2n (n.addr != 0)) ++ leBytes 1 0

/-! ## One datagram in forward travel (R50) -/

/-- The bytes of a frame in passage, and the node state that a good FCS would leave. -/
structure Pass where
  f : List Byte
  n : NodeSt
  deriving DecidableEq, Repr

def Pass.write (p : Pass) (o : Nat) (bs : List Byte) : Pass := { p with f := patch p.f o bs }

/-- HITS of a datagram raised by 1. -/
def Pass.hit (p : Pass) (d : Dg) : Pass := p.write (d.off + 6) (leBytes 2 (d.hits + 1))

/-- The NODE field holds this node's address. -/
def NodeSt.addressed (n : NodeSt) (node : Nat) : Bool := 1 ≤ node && node ≤ 0x40 && node == n.addr

/-- The NODE field of a PARAM datagram matches this node: its address, or its position (R42). -/
def NodeSt.named (n : NodeSt) (node pos : Nat) : Bool :=
  n.addressed node || (0x80 ≤ node && node ≤ 0xBF && node - 0x7F == pos)

/-- The node serves one datagram. `n0` is the node as the frame arrived; `pos` its position; `free` numbers free values. -/
def nodeDatagram (n0 : NodeSt) (h : Hdr) (pos free : Nat) (p : Pass) (d : Dg) : Pass :=
  let down := slice p.f d.down d.dlen
  match d.dtype with
  | 0x01 =>
    if n0.addressed d.node then
      let nctl := leAt down 0 2
      let p := (p.write d.up ((n0.axisDatagramUplink h).take d.ulen)).hit d
      { p with n := { p.n with held := down, heldCyc := some h.cycle, knotMissed := false,
                               loopOut := p.n.loopOut || bit nctl 1 } }
    else p
  | 0x02 =>
    if n0.named d.node pos then
      let q : NReq := ⟨leAt down 1 1, leAt down 2 2, (down.drop 8).take (min 24 (leAt down 4 1))⟩
      let p := (p.write d.up ((n0.paramUplink).take d.ulen)).hit d
      { p with n := p.n.mailbox (leAt down 0 1) q }
    else p
  | 0x03 =>
    if n0.addressed d.node then
      let p := (p.write d.up ((n0.containerUp free).take d.ulen)).hit d
      { p with n := p.n.container down }
    else p
  | 0x04 =>
    if d.node = 0xFF && n0.addr = 0 then
      let gs := leAt down 0 1
      if gs = 1 then
        let cs := leAt p.f d.up 8
        if n0.claim.isNone && n0.grant.isNone && (cs = 0 || cs > n0.serial) then
          let claim := leBytes 8 n0.serial ++ leBytes 2 n0.vendor ++ leBytes 2 n0.product ++ leBytes 1 n0.nax ++ leBytes 3 0
          let p := (p.write d.up (claim.take d.ulen)).write (d.off + 6) (leBytes 2 1)
          { p with n := { p.n with claim := some h.cycle } }
        else p
      else if gs = 2 && n0.claim.isSome then
        if leAt down 4 8 = n0.serial then { p with n := { p.n with grant := some (leAt down 1 1, leAt down 12 4) } }
        else { p with n := { p.n with claim := none } }
      else p
    else p
  | 0x05 =>
    if d.node = 0 && 16 * pos ≤ d.ulen then ((p.write (d.up + 16 * (pos - 1)) n0.discoverSlot)).hit d else p
  | 0x06 =>
    if d.node = 0 && 16 * pos ≤ d.ulen then
      let w := fun i => leBytes 4 (Config.freeWord (free + i)).toNat
      let turn := leAt down 0 1 == 0x7F + pos || (n0.addr != 0 && leAt down 0 1 == n0.addr)
      let slot := if turn then w 0 ++ w 1 ++ leBytes 8 0 else w 0 ++ leBytes 4 0 ++ w 2 ++ leBytes 4 0
      (p.write (d.up + 16 * (pos - 1)) slot).hit d
    else p
  | _ => p

/-! ## A frame in forward travel (R50 to R52, R55, R63, R71, R75) -/

/-- Ring time at the stamp point of a frame, in 1/16 ns (R55): TSTAMP + (CORR_in + 16 × d_port) / 16 ns, with `dPort`, the
ingress link delay, in 1/16 ns. -/
def ringTime16 (h : Hdr) (dPort : Nat) : Nat := (16 * h.tstamp + h.corr + dPort) % 2 ^ 36

/-- The node's clock in ns of ring time: steered to the latest good frame, and running on from it (R55). -/
def NodeSt.ringNow (n : NodeSt) (clk : Nat) : Option Nat := n.tring.map (fun t => u32 ((t.1 / 16 : Nat) + (clk - t.2 : Nat) : Nat))

/-- CSTART(c) as the node knows it (R56): of the latest good frame, and TCYC further for each cycle from there. -/
def NodeSt.cstartOf (n : NodeSt) (c : Nat) : Nat :=
  u32 ((n.cstart : Int) + i32 ((c : Int) - (n.lastGood.getD c : Nat)) * (n.tcyc : Int))

/-- S(c) and A(c) (R56). -/
def NodeSt.sampleInst (n : NodeSt) (c : Nat) : Nat := u32 (n.cstartOf c + n.sph : Nat)
def NodeSt.applyInst (n : NodeSt) (c : Nat) : Nat := u32 (n.cstartOf c + n.aph : Nat)

/-- The cycle of the node's ring time that is in progress (R75); before it has ring time, cycle `c`. -/
def NodeSt.cycNow (n : NodeSt) (clk c : Nat) : Nat :=
  match n.ringNow clk, n.lastGood with
  | some t, some g => if n.tcyc = 0 then g else u32 ((g : Int) + dt t n.cstart / (n.tcyc : Int))
  | _, _ => c

/-- The latest cycles of a list of arrivals, with `c`. -/
def cycSeen (c : Nat) (xs : List Nat) : List Nat := if xs.contains c then xs else (c :: xs).take 4

/-- The node holds every shadow value sealed for the knot, or it has applied the knot: a GO decision that finds neither sets
KNOT_MISSED (R71). -/
def NodeSt.knowsKnot (n : NodeSt) (k c : Nat) : Bool := n.sealed.contains k || n.appliedKnot == some (k, c)

/-- What a good header tells the node: lock (the 64th cycle with a good frame), announces, decisions, HEALNOW. -/
def NodeSt.header (n : NodeSt) (h : Hdr) : NodeSt :=
  let fresh := n.lastGood != some h.cycle
  let g := if fresh then min (n.goodCycles + 1) 64 else n.goodCycles
  let n := { n with goodCycles := g, lastGood := some h.cycle, locked := n.locked || g == 64,
                    cstart := h.cstart, tcyc := h.tcyc, sph := h.sph, aph := h.aph,
                    healSeen := n.healSeen || (h.healnow && (n.loopIn || n.loopOut)) }
  let n := if h.kaValid then { n with announced := some (h.kaId, h.kaCyc) } else n
  if h.kdValid then
    { n with dec := some ⟨h.kdId, h.kdCyc, h.kdRepeat, h.kdCode⟩,
             announced := if (n.announced.map (·.1)) = some h.kdId then none else n.announced,
             knotMissed := n.knotMissed || (h.kdCode == 1 && !n.knowsKnot h.kdId h.kdCyc) }
  else n

/-- A frame is the node's to process: VER = 1 and the OUI and protocol identifier held, or none held yet (R51). -/
def NodeSt.accepts (n : NodeSt) (f : List Byte) : Bool :=
  let h := Hdr.parse f
  20 ≤ f.length && h.etype == 0x88B7 && h.ver == 1 &&
    (match n.ouiProto with | none => true | some (o, p) => h.oui == o && h.proto == p)

/-- LOOP_AT and THRU of a DELAY frame's datagram (R49). -/
def delayFields (f : List Byte) (ds : List Dg) : Option (Nat × Bool) :=
  match ds.find? (fun d => d.dtype == 6) with
  | some d => some (leAt f d.down 1, bit (leAt f (d.down + 1) 1) 0)
  | none => none

/-- A node processes a frame in forward travel; `atOut`: its own turn at IN, which takes the frame in at OUT (R75). -/
def State.nodeForward (s : State) (k : Nat) (atOut : Bool) (f : List Byte) : State :=
  let n := s.node k
  if !n.accepts f then s.setNode k { n with discarded := inc32 n.discarded }
  else
    let h := Hdr.parse f
    let dg := datagrams f
    let good := fcsGood f
    let delay := if h.ftype = 2 then delayFields f dg.1 else none
    let thru := match delay with | some (_, t) => t | none => false
    let dPort := if atOut then n.dOut else n.dIn
    let res := (Config.freeWord s.free).toNat
    let s := s.burn
    let pos := h.hops + 1
    let body := frameBody f
    let body := patch body 22 (leBytes 1 (min (h.hops + 1) 255))
    let body := patch body 32 (leBytes 4 (h.corr + dPort + res))
    let p := dg.1.foldl (nodeDatagram n h pos (s.free + 1)) ⟨body, n⟩
    let s := { s with free := s.free + 8 }
    -- the state a bad FCS leaves: counters only (R52)
    let n' :=
      if good then
        let m := { p.n.header h with tring := some (ringTime16 h dPort, s.tim.clk) }
        { m with fwdCycs := cycSeen (m.cycNow s.tim.clk s.cyc) m.fwdCycs }
      else { n with fcsErr := inc32 n.fcsErr }
    let n' := if dg.2 then { n' with lenErr := inc32 n'.lenErr } else n'
    let n' := { n' with pos := pos }
    let n' := if good && n'.ouiProto.isNone then { n' with ouiProto := some (h.oui, h.proto) } else n'
    let s := s.setNode k n'
    -- R63: the node LOOP_AT names turns the frame; R75: a looped node turns every other, and sets LOOPED in it
    let turnDelay := match delay with | some (at', _) => at' == 0x7F + pos || (n.addr != 0 && at' == n.addr) | none => false
    let turnLoop := n'.loopOut && !thru
    let looped := (turnLoop && !turnDelay) || atOut
    let body := if looped then patch p.f 20 (leBytes 1 (leAt p.f 20 1 ||| 16)) else p.f
    s.nodeSend k (turnDelay || turnLoop) (sealFrame body good)

/-- A node forwards a frame in reverse travel (R51), stamping a DELAY slot (R63). The first frame it takes, in either travel,
sets its OUI and PROTO. -/
def State.nodeReverse (s : State) (k : Nat) (f : List Byte) : State :=
  let n := s.node k
  if !n.accepts f then s.setNode k { n with discarded := inc32 n.discarded }
  else
    let h := Hdr.parse f
    let body := frameBody f
    let res := (Config.freeWord s.free).toNat
    let body := patch body 32 (leBytes 4 (h.corr + n.dOut + res))
    let body :=
      if h.ftype = 2 && n.pos ≠ 0 then
        match (datagrams f).1.find? (fun d => d.dtype == 6) with
        | some d =>
          let o := d.up + 16 * (n.pos - 1)
          patch (patch body (o + 4) (leBytes 4 (Config.freeWord (s.free + 1)).toNat)) (o + 12) (leBytes 4 (Config.freeWord (s.free + 2)).toNat)
        | none => body
      else body
    let good := fcsGood f
    let s := { s with free := s.free + 3 }
    let s :=
      if good then
        s.setNode k { n with revCycs := cycSeen (n.cycNow s.tim.clk s.cyc) n.revCycs,
                             ouiProto := if n.ouiProto.isNone then some (h.oui, h.proto) else n.ouiProto }
      else s.setNode k { n with fcsErr := inc32 n.fcsErr }
    s.nodeSend k true (sealFrame body good)

/-- A DELAY frame with THRU = 1, which every node takes at either port in any state (R63, R75). -/
def NodeSt.takesThru (n : NodeSt) (f : List Byte) : Bool :=
  n.accepts f && (Hdr.parse f).ftype == 2 && (match delayFields f (datagrams f).1 with | some (_, t) => t | none => false)

/-- A frame arrives at IN: forward travel. A node looped at IN ignores it on that side, but for a DELAY frame with THRU (R75). -/
def State.nodeAtIn (s : State) (k : Nat) (f : List Byte) : State :=
  let n := s.node k
  if n.loopIn && n.accepts f && !n.takesThru f then s else s.nodeForward k false f

/-- A frame arrives at OUT: reverse travel, or the forward input of a node looped at IN; with OUT broken as well, that side is
ignored (R75). -/
def State.nodeAtOut (s : State) (k : Nat) (f : List Byte) : State :=
  let n := s.node k
  if !n.loopIn || !n.accepts f || n.takesThru f then s.nodeReverse k f
  else if n.loopOut then s
  else s.nodeForward k true f

/-! ## Sample, apply, lost cycles (R56, R71, R72) -/

/-- A locked node takes its samples at S(c). -/
def NodeSt.takeSample (n : NodeSt) (c : Nat) (xs : List AxisSample) : NodeSt :=
  if n.locked then { n with sample := xs, sampleAt := n.sampleInst c } else n

/-- The commands in a held AXIS downlink; STO and ENABLE = 0 turn the bridge off. -/
def NodeSt.commands (n : NodeSt) : List AxCmd :=
  (List.range 4).map (fun a =>
    if a < n.nax then
      let o := 4 + 8 * a
      let actl := leAt n.held o 2
      ⟨bit actl 0 && !(n.safety && bit n.sto a), actl, leAt n.held (o + 2) 2, leAt n.held (o + 4) 2, leAt n.held (o + 6) 2⟩
    else {})

/-- The shadow values of knot `k`, decided for cycle `c`, go into their objects, in prepare order (R71). -/
def NodeSt.applyKnot (n : NodeSt) (k c : Nat) : NodeSt :=
  let vs := n.shadows.filter (fun x => x.knot == k)
  { (vs.foldl (fun m x => m.store x.obj x.value) n).discard k with appliedKnot := some (k, c) }

/-- A decision acts at A(c): GO applies sealed shadow values, VOID discards them (R71). The value is what APPLY becomes for
it: 0 APPLIED, or 2 LATE on the repeat. A node that is not locked applies nothing (R56; notes/assumptions/2017.md). -/
def NodeSt.decide (n : NodeSt) (d : KDec) : Option Nat × NodeSt :=
  if d.code ≠ 1 then (none, { n.discard d.knot with dec := none })
  else if n.locked && n.sealed.contains d.knot then (some (2 * b2n d.rpt), { n.applyKnot d.knot d.cyc with dec := none })
  else (none, { n with dec := none })

/-- Knot work at A(c) (R71), whether or not the cycle brought the node its AXIS datagram: the decision of cycle `c` or the
repeat of cycle c − 1; a knot announced for an earlier cycle of which no decision came is discarded and missed. -/
def NodeSt.knotAt (n : NodeSt) (c : Nat) : Option Nat × NodeSt :=
  let r : Option Nat × NodeSt :=
    match n.dec with
    | some d => if (!d.rpt && d.cyc == c) || (d.rpt && u32 ((d.cyc : Int) + 1) == c) then n.decide d else (none, n)
    | none => (none, n)
  match r.2.announced with
  | some (k, cc) =>
    if dt c cc < 1 then r
    else if r.2.sealed.contains k then (r.1, { r.2.discard k with knotMissed := true, announced := none })
    else (r.1, { r.2 with announced := none })
  | none => r

/-- The node applies its held downlink of cycle `c` at A(c), the start of a period of its PWM carrier (R56), with its knot work.
DROP acts on a node that is not locked too (R72). -/
def NodeSt.applyAt (n : NodeSt) (c : Nat) : NodeSt :=
  if n.heldCyc = some c && bit (leAt n.held 0 2) 0 then n.leave
  else
    let r := n.knotAt c
    let m := r.2
    if !m.locked || m.heldCyc ≠ some c then { m with apply := r.1.getD m.apply }
    else
      let m := { m with started := m.started || (m.addr != 0), lostRun := 0, apply := r.1.getD 0, inFb := false,
                        actAt := m.applyInst c, car := some (m.applyInst c, m.tcyc, m.pwmDiv) }
      { m with applied := m.commands, last := m.commands, everApplied := true }

/-- The node's own fallback of an axis, from the last command `c` it applied (R72); ZERO leaves a bridge off that the command
had off (notes/assumptions/2018.md). -/
def NodeSt.fallback (n : NodeSt) (a : Nat) (c : AxCmd) : AxCmd :=
  match (n.axcfg.getD a (0, 2)).2 with
  | 0 => if n.everApplied then c else {}
  | 1 => if (n.axcfg.getD a (0, 2)).1 = 0 then { c with w0 := 0x8000, w1 := 0x8000, w2 := 0x8000 } else { c with w0 := 0, w1 := 0, w2 := 0 }
  | _ => {}

/-- Cycle `c` was lost at A(c) (R72): fallback for 8 cycles, then the node leaves the ring. -/
def NodeSt.lostAt (n : NodeSt) (c : Nat) : NodeSt :=
  if !n.started || n.heldCyc = some c then n
  else
    let run := n.lostRun + 1
    let n := { n with lostRun := run, lostCnt := inc32 n.lostCnt }
    if 8 < run then n.leave
    else
      let r := n.knotAt c
      let n := r.2
      { n with apply := r.1.getD 1, inFb := true, applied := (List.range 4).map (fun a => n.fallback a (n.last.getD a {})) }

/-! ## Loops, heal, reset, watchdog (R75, R77, R510, R380, R35) -/

/-- Cycle `c` counts (R75): good Finil frames arrived at the reverse input and none at the forward input. -/
def NodeSt.counts (n : NodeSt) (c : Nat) : Bool := n.revCycs.contains c && !n.fwdCycs.contains c

/-- The two cycles before `c`, the one in progress, count (R75). -/
def NodeSt.reverseOnly (n : NodeSt) (c : Nat) : Bool := n.counts (u32 ((c : Int) - 1)) && n.counts (u32 ((c : Int) - 2))

/-- The node loops back (R75); on reverse frames only, at the end of the second cycle that counts. -/
def NodeSt.loopback (n : NodeSt) (clk cyc : Nat) (c : LoopCause) : NodeSt :=
  match c with
  | .linkIn => { n with linkIn := false, loopIn := true }
  | .linkOut => { n with linkOut := false, loopOut := true }
  | .reverseOnly => if n.reverseOnly (n.cycNow clk cyc) then { n with loopIn := true } else n
  | .loopOut => { n with loopOut := true }

/-- A break node leaves loopback at the end of the first cycle in which it saw HEALNOW. -/
def NodeSt.healnow (n : NodeSt) : NodeSt :=
  if n.healSeen then { n with loopIn := false, loopOut := false, healSeen := false } else n

/-- The lowest-numbered split offered (R46). -/
def lowSplit (sp : Nat) : Nat := if bit sp 0 then 0 else 1

/-- A node's own reset (R510): its ring state is cleared; its equipment and links stand, and so does a loop whose link is
down. -/
def NodeSt.reset (n : NodeSt) : NodeSt :=
  { vendor := n.vendor, product := n.product, revision := n.revision, serial := n.serial, nax := n.nax, phash := n.phash,
    trdy := n.trdy, speeds := n.speeds, splits := n.splits, posBits := n.posBits, ifs := n.ifs, safety := n.safety,
    conn := n.conn, seed := n.seed, room := n.room, busOk := n.busOk, nerr := n.nerr, linkIn := n.linkIn,
    linkOut := n.linkOut, speedIn := n.speedIn, speedOut := n.speedOut, slowOut := n.slowOut, loopIn := n.loopIn && !n.linkIn,
    loopOut := n.loopOut && (!n.linkOut || n.slowOut), axcfg := n.splits.map (fun sp => (lowSplit sp, 2)) }

/-- A link of the node comes up (R35): OUT follows the speed of IN, or the node loops back and reports SLOWOUT; a loop that
stood for SLOWOUT ends with it. -/
def NodeSt.linkUp (n : NodeSt) (out : Bool) (speed : Nat) : NodeSt :=
  if out then
    if speed > n.speedIn then { n with linkOut := true, speedOut := speed, slowOut := true, loopOut := true }
    else { n with linkOut := true, speedOut := speed, slowOut := false, loopOut := n.loopOut && !n.slowOut }
  else { n with linkIn := true, speedIn := speed }

/-! ## Commands -/

def execNodeFrameProcess (r : Fin 4) (nd : Fin 64) (frame : List Byte) (s : State) : Res :=
  .next (s.nodeAtIn (nodeKey r nd) frame)

def execNodeReverseForward (r : Fin 4) (nd : Fin 64) (frame : List Byte) (s : State) : Res :=
  .next (s.nodeAtOut (nodeKey r nd) frame)

def State.modNode (s : State) (r nd : Nat) (f : NodeSt → NodeSt) : State :=
  s.setNode (nodeKey r nd) (f (s.node (nodeKey r nd)))

/-- A claimant takes its granted address (R68). -/
def NodeSt.takeGrant (n : NodeSt) : NodeSt :=
  match n.grant with
  | some (a, _) =>
    { n with addr := a, grant := none, claim := none, lastMseq := none, response := [], started := false,
             everApplied := false, last := [{}, {}, {}, {}], lostRun := 0 }
  | none => n

def execNodeAddressTake (r : Fin 4) (nd : Fin 64) (s : State) : Res := .next (s.modNode r nd NodeSt.takeGrant)

/-- A frame with a grant naming `serial` is about to reach node `nd` of ring `r`. -/
def isGrantFrame (r : Fin 4) (nd : Fin 64) (serial : Nat) (i : Instr) : Bool :=
  match i with
  | .nodeFrameProcess r' nd' f =>
    r' == r && nd' == nd && (datagrams f).1.any (fun d => d.dtype == 4 && leAt f d.down 1 == 2 && leAt f (d.down + 4) 8 == serial)
  | _ => false

/-- NODE_CLAIM_TIMEOUT: a grant with the same stamp wins (R68, R229). -/
def execNodeClaimTimeout (r : Fin 4) (nd : Fin 64) (s : State) : Res :=
  .next (s.modNode r nd (fun n => if n.grant.isNone && !s.arrives (isGrantFrame r nd n.serial) then { n with claim := none } else n))

def execNodeSample (r : Fin 4) (nd : Fin 64) (samples : List AxisSample) (s : State) : Res :=
  .next (s.modNode r nd (fun n => n.takeSample s.cyc samples))

def execNodeApply (r : Fin 4) (nd : Fin 64) (s : State) : Res := .next (s.modNode r nd (fun n => n.applyAt s.cyc))

def execNodeLostCycle (r : Fin 4) (nd : Fin 64) (s : State) : Res := .next (s.modNode r nd (fun n => n.lostAt s.cyc))

def execNodeLoopback (r : Fin 4) (nd : Fin 64) (cause : LoopCause) (s : State) : Res :=
  .next (s.modNode r nd (fun n => n.loopback s.tim.clk s.cyc cause))

def execNodeHealnow (r : Fin 4) (nd : Fin 64) (s : State) : Res := .next (s.modNode r nd NodeSt.healnow)

def execNodeReset (r : Fin 4) (nd : Fin 64) (s : State) : Res := .next (s.modNode r nd NodeSt.reset)

/-- R380: no container accepted for WDC consecutive cycles. -/
def execNodeSafetyWatchdog (r : Fin 4) (nd : Fin 64) (s : State) : Res :=
  .next (s.modNode r nd (fun n => if n.safety then { n with sto := 15 } else n))

def execNodeLinkUp (r : Fin 4) (nd : Fin 64) (out : Bool) (speed : Fin 3) (s : State) : Res :=
  .next (s.modNode r nd (fun n => n.linkUp out speed))

def execMailboxNop (r : Fin 4) (nd : Fin 64) (seq : Byte) (s : State) : Res :=
  .next (s.nodeMailbox (nodeKey r nd) seq.toNat ⟨0, 0, []⟩)

def execMailboxRead (r : Fin 4) (nd : Fin 64) (seq : Byte) (obj : BitVec 16) (s : State) : Res :=
  .next (s.nodeMailbox (nodeKey r nd) seq.toNat ⟨1, obj.toNat, []⟩)

def execMailboxWrite (r : Fin 4) (nd : Fin 64) (seq : Byte) (obj : BitVec 16) (value : List Byte) (s : State) : Res :=
  .next (s.nodeMailbox (nodeKey r nd) seq.toNat ⟨2, obj.toNat, value⟩)

def execKnotPrep (r : Fin 4) (nd : Fin 64) (seq : Byte) (knot : BitVec 8) (obj : BitVec 16) (value : List Byte)
    (s : State) : Res :=
  .next (s.nodeMailbox (nodeKey r nd) seq.toNat
    ⟨3, obj.toNat, leBytes 1 knot.toNat ++ leBytes 2 obj.toNat ++ leBytes 1 0 ++ value⟩)

def execKnotSeal (r : Fin 4) (nd : Fin 64) (seq : Byte) (knot count : BitVec 8) (s : State) : Res :=
  .next (s.nodeMailbox (nodeKey r nd) seq.toNat ⟨4, 0, leBytes 1 knot.toNat ++ leBytes 1 count.toNat⟩)

def execKnotCancel (r : Fin 4) (nd : Fin 64) (seq : Byte) (knot : BitVec 8) (s : State) : Res :=
  .next (s.nodeMailbox (nodeKey r nd) seq.toNat ⟨5, 0, leBytes 1 knot.toNat⟩)

/-- R511: a reserved MOP. A `mop` that names an operation is executed as that operation on object 0 without data. -/
def execMailboxUnknownOp (r : Fin 4) (nd : Fin 64) (seq mop : Byte) (s : State) : Res :=
  .next (s.nodeMailbox (nodeKey r nd) seq.toNat ⟨mop.toNat, 0, []⟩)

end Sys2Proof.Machine
end

