-- ==== Sys2Proof/Machine/Sched.lean ====
section
/-! DEFINITION. A ring port's schedule (R58, R59), departures (R40), deadlines (R84, R509), the mailbox queue (R45) and the
node table's accessors (R62): what the release unit, the knot engine and the ports share. -/

namespace Sys2Proof.Machine

def State.ring (s : State) (r : Nat) : Ring := SMap.get (fun _ => {}) s.net.rings r
def State.setRing (s : State) (r : Nat) (x : Ring) : State :=
  { s with net := { s.net with rings := SMap.put (fun _ => {}) s.net.rings r x } }
def State.modRing (s : State) (r : Nat) (f : Ring → Ring) : State := s.setRing r (f (s.ring r))

/-- A schedule entry (R58). -/
structure SEnt where
  idx : Nat
  fidx : Nat
  divexp : Nat
  dtype : Nat
  node : Nat
  phase : Nat
  dlen : Nat
  ulen : Nat
  axbase : Nat
  nax : Nat
  deriving DecidableEq, Repr

/-- Bytes of an entry's datagram. -/
def SEnt.len (e : SEnt) : Nat := 8 + e.dlen + e.ulen

/-- The entry is sent in cycle `n` (R58). -/
def SEnt.sentIn (e : SEnt) (n : Nat) : Bool := n % 2 ^ e.divexp == e.phase

/-- Entry `i` of both banks in a row: 0 to 511 bank 0, 512 to 1,023 bank 1. -/
def State.sent (s : State) (r i : Nat) : SEnt :=
  let w0 := s.reg (R.RING_SCH_W0 r i)
  let w1 := s.reg (R.RING_SCH_W1 r i)
  ⟨i % 512, bits w0 30 27, bits w0 26 24, bits w0 23 16, bits w0 15 8, bits w0 7 0, bits w1 31 21, bits w1 20 10,
    bits w1 9 2, bits w1 1 0 + 1⟩

/-- Indices of the valid entries of a bank, ascending: an unlisted word is not valid. -/
def schedIdx (base : Nat) : List (Nat × Word) → List Nat
  | [] => []
  | (a, w) :: m =>
    if base ≤ a && a < base + 0x1000 && (a - base) % 8 == 0 && bit w.toNat 31 then (a - base) / 8 :: schedIdx base m
    else schedIdx base m

/-- The valid entries of bank `b`, in ascending entry order (R58). -/
def State.bank (s : State) (r b : Nat) : List SEnt :=
  (schedIdx (R.RING_SCH_W0 r 0 + 0x1000 * b) s.regs).map (fun i => s.sent r (512 * b + i))

/-- The active bank (R58). -/
def State.activeBank (s : State) (r : Nat) : List SEnt := s.bank r (s.f (R.RING_SCHED_ACTIVE_NOW r))

/-- FLAST: the largest frame index of a bank. -/
def flastOf (es : List SEnt) : Nat := es.foldl (fun m e => max m e.fidx) 0

/-- Datagram area of frame `f` in cycle `n`. -/
def areaOf (es : List SEnt) (n f : Nat) : Nat :=
  ((es.filter (fun e => e.fidx == f && e.sentIn n)).map SEnt.len).foldl (· + ·) 0

/-- Byte time in tenths of a ns (R37), by STAT.SPEED. -/
def tB10 (speed : Nat) : Nat := match speed with | 0 => 8 | 1 => 32 | _ => 80

/-- D(N, f) − CSTART(N) in tenths of a ns (R40). -/
def State.depart10 (s : State) (r n f : Nat) : Nat :=
  let es := s.activeBank r
  let tb := tB10 (s.f (R.RING_STAT_SPEED r))
  10 * s.fa (R.RING_TX_OFFSET r) + ((List.range f).map (fun g => (84 + areaOf es n g + 20) * tb)).foldl (· + ·) 0

/-- CSTART(M), projected, in the value of ring `r`'s time domain (R39, R509). -/
def State.ringCstart (s : State) (r m : Nat) : Nat := s.cstartOf (s.fa (R.RING_CTRL_TDOM r)) m

/-- TSTAMP of frame `f` of cycle `n` in whole ns (R40), a part of a ns dropped (notes/assumptions/2020.md). -/
def State.tstampOf (s : State) (r n f : Nat) : Nat := u32 ((s.ringCstart r n : Int) + (s.depart10 r n f / 10 : Nat))

/-! ## Binding of axes to nodes (R58, R197) -/

/-- The first valid AXIS entry that maps to axis `n` over the rings in order, with its ring; and how many do. -/
def State.axisEntries (s : State) (n : Nat) : List (Nat × SEnt) :=
  ((List.range 4).map (fun r =>
    ((s.activeBank r).filter (fun e => e.dtype == 1 && e.axbase ≤ n && n < e.axbase + e.nax)).map (fun e => (r, e)))).flatten

def State.axisEntry (s : State) (n : Nat) : Option (Nat × SEnt) := (s.axisEntries n).head?

/-- BIND of axis `n` (R197). -/
def State.bindWord (s : State) (n : Nat) : Nat :=
  match s.axisEntries n with
  | [] => 0
  | (r, e) :: more => 2 ^ 15 + b2n (!more.isEmpty) * 2 ^ 14 + (n - e.axbase) * 1024 + r * 256 + e.node % 128

/-- Every slot's BIND is derived from the active banks at a boundary: the slots an entry names now or BIND named before. -/
def State.deriveBinds (s : State) : State :=
  let named := ((List.range 4).map (fun r =>
    ((s.activeBank r).filter (fun e => e.dtype == 1)).map (fun e => (List.range e.nax).map (fun a => e.axbase + a)))).flatten.flatten
  let old := s.regs.filterMap (fun c =>
    if 0x10000000 ≤ c.1 && c.1 < 0x10100000 && c.1 % 0x1000 == 0x700 then some ((c.1 - 0x10000000) / 0x1000) else none)
  let s := forEach old (fun n s => s.setReg (R.AX_BIND n) 0) s
  forEach named (fun n s => if n < 256 then s.setReg (R.AX_BIND n) (s.bindWord n) else s) s

/-- Ring and address of the node axis `n` is bound to. -/
def State.boundNode (s : State) (n : Nat) : Option (Nat × Nat) :=
  if s.on (R.AX_BIND_NET_VALID n) then some (s.f (R.AX_BIND_RING n), s.f (R.AX_BIND_NODE n)) else none

/-- GANG of the gang led by channel 4q (R349). -/
def State.gangKind (s : State) (q : Nat) : Nat := s.fa (R.PC_STP_CTRL_GANG (4 * q))
/-- The axis a gang or valve channel serves (R338, R349). -/
def State.pcAxis (s : State) (c : Nat) : Nat := s.fa (R.PC_CTRL_AXIS c)
/-- The lead or valve channel that serves axis `n` (R338, R349). -/
def State.axisChan (s : State) (n : Nat) : Option Nat :=
  firstIdx 64 (fun c => s.onA (R.PC_CTRL_AXEN c) && s.pcAxis c == n)
/-- The gang that stands for the node of axis `n`: its number and kind (R349). -/
def State.axisGang (s : State) (n : Nat) : Option (Nat × Nat) :=
  match s.axisChan n with
  | none => none
  | some c => if c % 4 = 0 && s.gangKind (c / 4) != 0 then some (c / 4, s.gangKind (c / 4)) else none

/-- A planned splice advances the release deadlines of target cycle K by PXADV, in tenths of a ns (R409 step 3). -/
def State.spliceAdvance (s : State) (n m : Nat) : Int :=
  match s.dx.splice with
  | some p =>
    if p.giving && p.sack && p.k == m && bit (s.f (R.DX_AXMASK (n / 32))) (n % 32) then -10 * (s.f R.DX_PXADV_NS : Int) else 0
  | none => 0

/-- The release deadline of axis `n` for target cycle `m` in tenths of a ns of the ring's domain, relative to CSTART of the
current cycle (R84): D(m, f) − 320 ns; CSTART(m) − 200 ns for a stepper gang (R356), A(m) − 200 ns for a brushless one
(R363); a slot with none of these has CSTART(m) (notes/assumptions/21.md). -/
def State.deadlineRel10 (s : State) (n m : Nat) : Int :=
  let ahead := s.spliceAdvance n m + i32 ((m : Int) - (s.cyc : Int)) * (s.tcyc : Int) * 10
  match s.axisEntry n with
  | some (r, e) => ahead + (s.depart10 r m e.fidx : Int) - 3200
  | none =>
    match s.axisGang n with
    | some (_, 1) => ahead - 2000
    | some (q, 2) => ahead + 10 * (s.fa (R.PC_STP_LAPH (4 * q)) : Int) - 2000
    | _ => ahead

/-- A stamp of domain `d` relative to CSTART of the current cycle. -/
def State.relNow (s : State) (d t : Nat) : Int := dt t (s.cstart d)

/-- The mark that wakes a virtual axis: the first whose tag is the axis's FB_TAG (R158), its ring and number. -/
def State.axisMark (s : State) (n : Nat) : Option (Nat × Nat) :=
  match firstIdx 64 (fun i => s.onA (R.RING_MARK_C_EN (i / 16) (i % 16)) && s.onA (R.RING_MARK_C_TAGEN (i / 16) (i % 16)) &&
      s.fa (R.RING_MARK_C_TAG (i / 16) (i % 16)) == s.f (R.AX_FB_TAG_TAG n)) with
  | some i => some (i / 16, i % 16)
  | none => none

/-- The time domain of an axis (R84, R158): its ring's, the mark's ring's for a virtual axis, or the grid domain. -/
def State.axisDom (s : State) (n : Nat) : Nat :=
  match s.axisEntry n with
  | some (r, _) => s.fa (R.RING_CTRL_TDOM r)
  | none =>
    if s.fa (R.AX_CTRL_KIND n) = 3 then
      match s.axisMark n with
      | some (r, _) => s.fa (R.RING_CTRL_TDOM r)
      | none => s.grid
    else s.grid

/-- A release of axis `n` for cycle `m` stamped at `t` (axis domain) is in time (R84). -/
def State.inTime (s : State) (n m t : Nat) : Bool :=
  decide (10 * s.relNow (s.axisDom n) t ≤ s.deadlineRel10 n m)

/-! ## Node table (R74) -/

def nfFree : Nat := 0
def nfPresent : Nat := 1
def nfMissing : Nat := 2
def nfReserved : Nat := 3
def nfRejoined : Nat := 4

/-- STATE of address `a` (1 to 64). -/
def State.ntState (s : State) (r a : Nat) : Nat := s.f (R.RING_NT_STATE_STATE r (a - 1))
def State.setNt (s : State) (r a v : Nat) : State := s.set (R.RING_NT_STATE_STATE r (a - 1)) v

/-- The axis slots bound to a node. -/
def State.nodeAxes (s : State) (r a : Nat) : List Nat :=
  (((s.activeBank r).filter (fun e => e.dtype == 1 && e.node == a)).map
    (fun e => (List.range e.nax).map (fun i => e.axbase + i))).flatten.filter
      (fun n => decide (n < 256) && s.boundNode n == some (r, a))

/-! ## Mailbox queue (R45) -/

def State.mailSend (s : State) (r : Nat) (q : MReq) : State := s.modRing r (fun x => { x with mbox := x.mbox ++ [q] })

/-- The node address a request's NODE field stands for: an address itself, a position of CONFIG, or (256 more) a position
counted from the tail port. -/
def Ring.reqAddr (x : Ring) (a : Nat) : Nat :=
  if a < 128 then a else if a < 256 then a - 0x7F else a - 256 - 0x7F + x.discHead.length

/-- The one mailbox sequence of the node a NODE field names (R45): a request by position runs on the sequence of the address
that position has been given. -/
def Ring.mseq (x : Ring) (a : Nat) : MSeq := SMap.get (fun _ => {}) x.mseqs (x.reqAddr a)
def Ring.setMseq (x : Ring) (a : Nat) (m : MSeq) : Ring := { x with mseqs := SMap.put (fun _ => {}) x.mseqs (x.reqAddr a) m }

/-- A fresh sequence for an address (R45). -/
def State.freshMseq (s : State) (r a : Nat) : State := s.modRing r (fun x => x.setMseq a {})

/-- Requests that wait for node `a`. -/
def Ring.dropReqs (x : Ring) (a : Nat) : List MReq := x.mbox.filter (fun q => x.reqAddr q.addr != a)

/-- The group-2 source of a ring event (R430). -/
def ringSrc (r ev idx : Nat) : Nat := srcOf 2 (r * 512 + ev * 64 + idx)

end Sys2Proof.Machine
end

