-- ==== Sys2Proof/Machine/Hitch.lean ====
section
/-! DEFINITION. Hitches (R148 to R157): publications, master extrapolation, ratio and cam, engage checks and the blend. -/

namespace Sys2Proof.Machine

open F32 (add sub mul fma fms div sqrt)

def State.ax (s : State) (n : Nat) : Ax := SMap.get (fun _ => {}) s.axes n
def State.setAx (s : State) (n : Nat) (x : Ax) : State := { s with axes := SMap.put (fun _ => {}) s.axes n x }
def State.modAx (s : State) (n : Nat) (f : Ax → Ax) : State := s.setAx n (f (s.ax n))

/-! ## Modes and kinds (R183) -/

def mOff : Nat := 0
def mHold : Nat := 1
def mProfile : Nat := 2
def mVelocity : Nat := 3
def mHitch : Nat := 4
def mTorque : Nat := 5
def mIdent : Nat := 6
def mStep : Nat := 7
def mValve : Nat := 8
def kUnused : Nat := 0
def kNetwork : Nat := 1
def kLocal : Nat := 2
def kVirtual : Nat := 3

/-- CTRL_ACT.MODE of an axis. -/
def State.mode (s : State) (n : Nat) : Nat := s.fa (R.AX_CTRL_MODE n)
def State.axKind (s : State) (n : Nat) : Nat := s.fa (R.AX_CTRL_KIND n)
/-- The rate exponent k (R88). -/
def State.rateK (s : State) (n : Nat) : Nat := s.fa (R.AX_CTRL_RATE n)
def State.owner (s : State) (n : Nat) : Nat := s.f (R.AX_OWNER_DOM n)

/-- The hardware writes the active MODE and its staged copy (R182). -/
def State.setMode (s : State) (n m : Nat) : State := s.setBoth (R.AX_CTRL_MODE n) m

/-- A signed 64-bit register pair. -/
def State.s64 (s : State) (lo hi : Fld) : Int := i64 (s.f64 lo hi)
def State.s64a (s : State) (lo hi : Fld) : Int := i64 (s.f64a lo hi)

/-- X_ACT (R102). -/
def State.xAct (s : State) (n : Nat) : Int := s.s64 (R.AX_X_ACT_LO n) (R.AX_X_ACT_HI n)

/-! ## Publications (R148, R196) -/

structure Pub where
  cyc : Nat
  s : Nat
  refOk : Bool
  actOk : Bool
  ref : Kin
  act : Kin
  deriving DecidableEq, Repr

def State.pub (s : State) (n i : Nat) : Pub :=
  { cyc := s.f (R.AX_PUB_CYC n i), s := s.f (R.AX_PUB_S n i), refOk := s.on (R.AX_PUB_FLAGS_REF_VALID n i),
    actOk := s.on (R.AX_PUB_FLAGS_ACT_VALID n i),
    ref := ⟨s.s64 (R.AX_PUB_REF_X_LO n i) (R.AX_PUB_REF_X_HI n i), s.w (R.AX_PUB_REF_V n i), s.w (R.AX_PUB_REF_A n i)⟩,
    act := ⟨i64 (s.s64 (R.AX_PUB_ACT_X_LO n i) (R.AX_PUB_ACT_X_HI n i) * 65536), s.w (R.AX_PUB_ACT_V n i), 0⟩ }

/-- A new publication overwrites the older and flips PUB_NEW (R196). ACT x is X_ACT in counts. -/
def State.publish (s : State) (n cyc st : Nat) (refOk actOk : Bool) (ref : Kin) (xAct : Int) (vMeas : Word) : State :=
  let i := 1 - s.f (R.AX_PUB_NEW n)
  let s := (s.set (R.AX_PUB_CYC n i) cyc).set (R.AX_PUB_S n i) st
  let s := s.set64 (R.AX_PUB_REF_X_LO n i) (R.AX_PUB_REF_X_HI n i) ref.x
  let s := (s.set (R.AX_PUB_REF_V n i) ref.v.toNat).set (R.AX_PUB_REF_A n i) ref.a.toNat
  let s := s.set64 (R.AX_PUB_ACT_X_LO n i) (R.AX_PUB_ACT_X_HI n i) xAct
  let s := s.set (R.AX_PUB_ACT_V n i) vMeas.toNat
  let s := (s.setB (R.AX_PUB_FLAGS_REF_VALID n i) refOk).setB (R.AX_PUB_FLAGS_ACT_VALID n i) actOk
  s.set (R.AX_PUB_NEW n) i

/-- The newest publication of `m` whose cycle is before `n` (R149). -/
def State.usablePub (s : State) (m n : Nat) : Option Pub :=
  let i := s.f (R.AX_PUB_NEW m)
  let a := s.pub m i
  let b := s.pub m (1 - i)
  if dt a.cyc n < 0 then some a else if dt b.cyc n < 0 then some b else none

/-- The publication a follower of `m` uses at cycle `n`, unless the master is lost (R151). -/
def State.masterPub (s : State) (m n : Nat) (useAct : Bool) : Option Pub :=
  match s.usablePub m n with
  | none => none
  | some p =>
    if dt p.cyc n < -(2 ^ (s.rateK m + 2) : Int) then none
    else if !(if useAct then p.actOk else p.refOk) then none
    else if !useAct && s.mode m == mOff then none
    else some p

/-- Extrapolation of a publication `ns` after its S (R149). -/
def extrapolate (p : Pub) (useAct : Bool) (ns : Int) : FM Kin := do
  let k := if useAct then p.act else p.ref
  let τ ← secs ns
  let h ← mul F32.half k.a
  let h ← fma h τ k.v
  let d ← mul h τ
  let x ← fixedOf d
  let v ← fma k.a τ k.v
  pure ⟨k.x + x, v, k.a⟩

/-! ## Ratio and cam (R152 to R154) -/

def State.hitchCfg (s : State) (n : Nat) : HitchCfg :=
  { cam := s.onA (R.AX_HITCH_CTRL_TYPE n), master := s.fa (R.AX_HITCH_CTRL_MASTER n),
    num := i32 (s.fa (R.AX_HITCH_NUM n)), den := s.fa (R.AX_HITCH_DEN n),
    addr := s.fa (R.AX_CAM_ADDR_LO n) + 2 ^ 32 * s.fa (R.AX_CAM_ADDR_HI n) }

def State.mOfs (s : State) (n : Nat) : Int := s.s64a (R.AX_M_OFS_LO n) (R.AX_M_OFS_HI n)
def State.sOfsReg (s : State) (n : Nat) : Int := s.s64a (R.AX_S_OFS_LO n) (R.AX_S_OFS_HI n)

def camNpts (s : State) (a : Nat) : Nat := s.rd (a + 4) 2
def camPeriod (s : State) (a : Nat) : Nat := s.rd (a + 8) 4
def camY (s : State) (a i : Nat) : Word := toW (s.rd (a + 32 + 8 * i) 4)
def camS (s : State) (a i : Nat) : Word := toW (s.rd (a + 36 + 8 * i) 4)

/-- The quotient of two naturals, converted once with truncation (R105, R154). -/
def quotW (a b : Nat) : FM Word := F32.round false (a * 2 ^ 80 / b) (-80)

/-- Interpolation between two points (R154 steps 5 and 6): Y, Y' and Y''. -/
def camInterp (cubic : Bool) (u h y0 s0 y1 s1 : Word) : FM (Word × Word × Word) := do
  if !cubic then
    let d ← sub y1 y0
    let y ← fma u d y0
    let yp ← div d h
    pure (y, yp, 0)
  else
    let k (n : Int) : Word := F32.val (F32.ofInt n)
    let u2 ← mul u u
    let u3 ← mul u2 u
    let t ← mul (k 2) u3
    let c1 ← fms (k 3) u2 t
    let c1 ← add c1 F32.one
    let c2 ← fms (k 2) u2 u3
    let c2 ← add c2 u
    let t ← mul (k 3) u2
    let c3 ← fms (k 2) u3 t
    let c4 ← fms u u u3
    let y ← mul c1 y0
    let t ← mul c2 h
    let y ← fma t s0 y
    let y ← fma c3 y1 y
    let t ← mul c4 h
    let y ← fma t s1 y
    let dy ← sub y0 y1
    let t ← mul (k 6) u2
    let d1 ← fms (k 6) u t
    let t ← mul (k 3) u2
    let d2 ← fms (k 4) u t
    let d2 ← add d2 F32.one
    let d3 ← fms (k 2) u t
    let p ← mul d1 dy
    let t ← mul d2 h
    let p ← fma t s0 p
    let t ← mul d3 h
    let p ← fma t s1 p
    let yp ← div p h
    let f1 ← fma (k 12) u (F32.neg (k 6))
    let f2 ← fma (k 6) u (F32.neg (k 4))
    let f3 ← fma (k 6) u (F32.neg (k 2))
    let q ← mul f1 dy
    let t ← mul f2 h
    let q ← fma t s0 q
    let t ← mul f3 h
    let q ← fma t s1 q
    let hh ← mul h h
    let ypp ← div q hh
    pure (y, yp, ypp)

/-- The hitch at a master state, with S_OFS in use `sOfs` (16 fractional bits): R152, R154. -/
def State.hitchAt (s : State) (n : Nat) (c : HitchCfg) (sOfs : Int) (m : Kin) : FM Kin := do
  let w := m.x - s.mOfs n * 65536
  if !c.cam then
    let x := sOfs + Int.tdiv (c.num * w) c.den
    let fn ← F32.ofInt c.num
    let fd ← F32.ofInt c.den
    let r ← div fn fd
    let v ← mul r m.v
    let a ← mul r m.a
    pure ⟨i64 x, v, a⟩
  else
    let per := camPeriod s c.addr
    let np := camNpts s c.addr
    let p16 : Int := (per : Int) * 65536
    let turns := w / p16
    let θ := w - turns * p16
    let i := (θ * np / p16).toNat
    let rem := (θ * np - i * p16).toNat
    let u ← quotW rem (per * 65536)
    let fp ← F32.ofInt per
    let fnp ← F32.ofInt np
    let h ← div fp fnp
    let rise := i32 (s.rd (c.addr + 12) 4)
    let yEnd ← (do
      let fr ← F32.ofInt rise
      add (camY s c.addr 0) fr)
    let last := i + 1 == np
    let y1 := if last then yEnd else camY s c.addr (i + 1)
    let s1 := if last then camS s c.addr 0 else camS s c.addr (i + 1)
    let (y, yp, ypp) ← camInterp (s.rd (c.addr + 6) 1 != 0) u h (camY s c.addr i) (camS s c.addr i) y1 s1
    let yx ← fixedOf y
    let v ← mul yp m.v
    let vv ← mul m.v m.v
    let t ← mul ypp vv
    let a ← fma yp m.a t
    pure ⟨i64 (sOfs + turns * rise * 65536 + yx), v, a⟩

/-- The checks of a cam table at engage (R153). -/
def State.camOk (s : State) (d a : Nat) : Bool :=
  let np := camNpts s a
  a % 16 == 0 && s.engOk islDSP d a 32 .read && s.rd a 4 == 0x314D4143 && 4 ≤ np && np ≤ 4096 && s.rd (a + 6) 1 ≤ 1 &&
    np ≤ camPeriod s a && s.engOk islDSP d a (32 + 8 * np) .read &&
    crc32 (s.bytes (a + 32) (8 * np)) == s.rd (a + 16) 4 &&
    (List.range np).all (fun i => F32.isFinite (camY s a i) && F32.isFinite (camS s a i))

/-- The masters above axis `n`, followed while they run a hitch, at most `fuel` of them (R150). -/
def State.masters (s : State) : Nat → Nat → List Nat
  | 0, _ => []
  | fuel + 1, n =>
    let m := s.fa (R.AX_HITCH_CTRL_MASTER n)
    if s.mode m == mHitch then m :: s.masters fuel m else [m]

/-- Read rights of a domain on an axis slot (R178). -/
def State.axReadable (s : State) (d n : Nat) : Bool := s.axRight d (R.AX_CTRL n) false

/-- ENG_AT of an AT engage on a cam hitch is not less than MPERIOD (R192). -/
def State.engAtBad (s : State) (n : Nat) : Bool :=
  s.onA (R.AX_HITCH_CTRL_TYPE n) && s.onA (R.AX_HITCH_CTRL_ENG_MODE n) &&
    camPeriod s (s.hitchCfg n).addr ≤ s.fa (R.AX_ENG_AT n)

/-- Engage is refused (R150, R192). -/
def State.engageRefused (s : State) (n : Nat) : Bool :=
  let c := s.hitchCfg n
  let ms := s.masters 6 n
  c.master == n || ms.contains n || 4 < ms.length || !s.axReadable (s.owner n) c.master ||
    s.axisDom c.master != s.axisDom n || (s.onA (R.AX_HITCH_CTRL_ENG_MODE n) && !c.cam) ||
    (c.cam && !s.camOk (s.owner n) c.addr) || s.engAtBad n

/-- The master phase has passed `p` counts between two positions less M_OFS, in the direction of motion (R155, R157). -/
def passed (per p : Nat) (w0 w1 : Int) : Bool :=
  let q : Int := (per : Int) * 65536
  let e : Int := (p : Int) * 65536
  if w0 ≤ w1 then decide ((w0 - e) / q < (w1 - e) / q)
  else decide ((e - w0) / q < (e - w1) / q)

/-! ## The blend (R156) -/

/-- p at a master state, before its clamp, and whether it has reached 1. -/
def blendP (h : HitchSt) (dist : Word) (m : Kin) : FM Word := do
  let d ← countsOf (m.x - h.xme)
  let d := if h.neg then F32.neg d else d
  div d dist

/-- The reference while the engage blend runs: `k` is the hitch's own state at the master state `m`. -/
def blendAt (h : HitchSt) (dist : Word) (m k : Kin) : FM Kin := do
  let c (n : Int) : Word := F32.val (F32.ofInt n)
  let travel ← countsOf (m.x - h.xme)
  let fr ← mul h.rho travel
  let frx ← fixedOf fr
  let xFree := h.xe + frx
  let vFree ← mul h.rho m.v
  let aFree ← mul h.rho m.a
  let p ← blendP h dist m
  let p := F32.clamp p 0 F32.one
  let sv := if h.neg then F32.neg m.v else m.v
  let p1 ← div sv dist
  let sa := if h.neg then F32.neg m.a else m.a
  let p2 ← div sa dist
  let pp ← mul p p
  let ppp ← mul pp p
  let t ← mul (c 6) pp
  let t ← fms (c 15) p t
  let t ← add t (c 10)
  let b ← mul ppp t
  let omp ← sub F32.one p
  let omp2 ← mul omp omp
  let t ← mul (c 30) pp
  let b1 ← mul t omp2
  let t ← mul (c 60) p
  let t ← mul t omp
  let om2 ← fms (c 2) p F32.one
  let b2 ← mul t om2
  let Δ ← countsOf (k.x - xFree)
  let bx ← mul b Δ
  let bxx ← fixedOf bx
  let dv ← sub k.v vFree
  let v ← fma b dv vFree
  let t ← mul b1 p1
  let v ← fma t Δ v
  let da ← sub k.a aFree
  let a ← fma b da aFree
  let t ← mul (c 2) b1
  let t ← mul t p1
  let a ← fma t dv a
  let p11 ← mul p1 p1
  let t ← mul b2 p11
  let t ← fma b1 p2 t
  let a ← fma t Δ a
  pure ⟨i64 (xFree + bxx), v, a⟩

end Sys2Proof.Machine
end

