-- ==== Sys2Proof/Machine/Channel.lean ====
section
/-! DEFINITION. Power-stage channels (spec/13_power_stage_channels.md): the commanded state, the sequencer, faults, the
carrier and its windows, valve shots and their groups, freezes, commits; and what gangs (spec/14) share with them. -/

namespace Sys2Proof.Machine

def State.chan (s : State) (c : Nat) : Chan := SMap.get (fun _ => {}) s.pwr.chans c
def State.setChan (s : State) (c : Nat) (x : Chan) : State :=
  { s with pwr := { s.pwr with chans := SMap.put (fun _ => {}) s.pwr.chans c x } }
def State.modChan (s : State) (c : Nat) (f : Chan → Chan) : State := s.setChan c (f (s.chan c))

/-- Gang `q` has its lead at channel 4q (R349). -/
def State.gang (s : State) (q : Nat) : Gang := SMap.get (fun _ => {}) s.pwr.gangs q
def State.setGang (s : State) (q : Nat) (x : Gang) : State :=
  { s with pwr := { s.pwr with gangs := SMap.put (fun _ => {}) s.pwr.gangs q x } }
def State.modGang (s : State) (q : Nat) (f : Gang → Gang) : State := s.setGang q (f (s.gang q))

/-- SAFE_OFF[b] is asserted (R367). -/
def State.safeOff (s : State) (b : Nat) : Bool := bit (s.f R.BEL_SO_ASSERTED) b

/-- The level an input pin has now, which no command gives (notes/assumptions/31.md). -/
def State.input (s : State) (p : Nat) : Bool := Config.pinIn s.free p

/-- Pin numbers of a channel's five pins and a group's two ("Bank pin order"). -/
def pcPin (c i : Nat) : Nat := 90 * (c / 16) + 5 * (c % 16) + i
def hgPin (g i : Nat) : Nat := 90 * (g / 4) + 80 + 2 * (g % 4) + i

/-- The function a pin is judged by: in the rest interval of a change, the one it leaves (R497). -/
def State.pinJudged (s : State) (p : Nat) : Nat :=
  match s.pwr.resting.find? (fun x => x.1 == p) with
  | some x => x.2
  | none => s.fa (R.PIN_PIN_FUNC p)

/-- The channel's pins are muxed to it (R335, R495, R497). -/
def State.pcMuxed (s : State) (c : Nat) : Bool := (List.range 5).all (fun i => s.pinJudged (pcPin c i) == 1)

/-- Owning domain of a channel (R468). -/
def State.pcDom (s : State) (c : Nat) : Nat := s.f (R.DOM_PCOWN_DOM c)

/-- Group-7 report of a channel event (R430). -/
def State.pcReport (s : State) (c ev cls : Nat) : State := s.report (srcOf 7 (c * 16 + ev)) cls (s.pcDom c) [c]
/-- Group-8 report of a high-side group's event (R430). -/
def State.hgReport (s : State) (g ev cls : Nat) : State :=
  s.report (srcOf 8 (g * 16 + ev)) cls (s.f (R.DOM_HGOWN_DOM g)) [g]

/-! ## Modes and gangs -/

def State.pcMode (s : State) (c : Nat) : Nat := s.fa (R.PC_CTRL_MODE c)
/-- Channels of gang `q`. -/
def State.gangChans (s : State) (q : Nat) : List Nat :=
  match s.gangKind q with
  | 1 => [4 * q, 4 * q + 1, 4 * q + 2, 4 * q + 3]
  | 2 => [4 * q, 4 * q + 1, 4 * q + 2]
  | _ => []
/-- Channel `c` is in gang `c / 4`. -/
def State.inGang (s : State) (c : Nat) : Bool := (s.gangChans (c / 4)).contains c

/-- The gang commands its channels Z: a channel is not enabled, the axis is OFF, or the segment's policy is OFF (R350, R356). -/
def State.gangZ (s : State) (q : Nat) : Bool :=
  !(s.gangChans q).all (fun c => s.on (R.PC_CTRL_EN c)) || s.mode (s.pcAxis (4 * q)) == mOff || (s.gang q).off

/-! ## Commanded state and sequencer (R322, R328) -/

/-- The legs of a chopper state (R359): (a leg, b leg) for positive σ, exchanged for negative. -/
def chopLegs (st decay : Nat) (fast neg : Bool) : Nat × Nat :=
  let p : Nat × Nat :=
    match st with
    | 0 => (2, 2)
    | 1 => (1, 2)
    | 2 => if decay = 1 || (decay = 2 && fast) then (2, 1) else (2, 2)
    | _ => (2, 1)
  if neg then (p.2, p.1) else p

/-- The a-leg channel of the chopper phase that channel `c` belongs to. -/
def phaseOf (c : Nat) : Nat := c - c % 2

/-- Channels configured as members of a group (R339). -/
def State.members (s : State) (g : Nat) : List Nat :=
  (List.range 16).filterMap (fun j =>
    let c := 16 * (g / 4) + j
    if s.pcMode c == 4 && s.fa (R.PC_VCFG_ROLE c) == 1 && s.fa (R.PC_VCFG_HG c) == g then some c else none)

/-- The high-side channel of a group (R339). -/
def State.hsChan (s : State) (g : Nat) : Nat := 16 * (g / 4) + s.fa (R.HG_CTRL_HSCH g)

/-- Channels whose active shot is a member shot of a group: a shot keeps the ROLE and HG it started with (R326, R339). -/
def State.activeMembers (s : State) (g : Nat) : List Nat :=
  (List.range 16).filterMap (fun j =>
    let c := 16 * (g / 4) + j
    match (s.chan c).shot with
    | some h => if h.role == 1 && h.hg == g then some c else none
    | none => none)

/-- Channels whose active member shot holds channel `c` on as its high side (R339, R348). -/
def State.heldBy (s : State) (c : Nat) : List Nat :=
  (List.range 16).filterMap (fun j =>
    let d := 16 * (c / 16) + j
    match (s.chan d).shot with
    | some h => if h.role == 1 && h.hs == c then some d else none
    | none => none)

/-- The group of the active shot of channel `c`. -/
def State.shotGroup (s : State) (c : Nat) : Nat := match (s.chan c).shot with | some h => h.hg | none => 0

/-- Requests of the mode logic (R325, R337, R339, R359); an enabled channel follows its mode from the next period start
(R335). -/
def State.modeReq (s : State) (c : Nat) : Bool × Bool :=
  let x := s.chan c
  if !x.follow then (false, false) else
  match s.pcMode c with
  | 4 =>
    match s.fa (R.PC_VCFG_ROLE c) with
    | 2 => ((s.heldBy c).any (fun d => !s.on (R.HG_STAT_CPF (s.shotGroup d))), false)
    | _ =>
      match x.shot with
      | none => (false, false)
      | some h =>
        if h.on then (h.role != 1, h.role == 1) else (false, h.role == 0 && h.fw)
  | 5 =>
    let a := phaseOf c
    let legs := chopLegs (s.f (R.PC_CHP_STATE a)) (s.fa (R.PC_CHP_CTRL_DECAY a)) (s.chan a).fast (s.chan a).neg
    let l := if c = a then legs.1 else legs.2
    (l == 1, l == 2)
  | 0 => (false, false)
  | _ => (x.reqH, x.reqL)

/-- REQ_H and REQ_L now: of OVR, which replaces the mode logic whole, or of the mode logic (R322). -/
def State.reqNow (s : State) (c : Nat) : Bool × Bool :=
  if s.on (R.PC_OVR_OVEN c) then (s.on (R.PC_OVR_REQ_H c), s.on (R.PC_OVR_REQ_L c)) else s.modeReq c

/-- A both-on request (R322), which no EN enters. On a frozen channel compare edges are not applied: OVR alone can make it
(R343). Between carriers the channel is commanded Z (R326). -/
def State.bothOn (s : State) (c : Nat) : Bool :=
  let r := s.reqNow c
  r.1 && r.2 && !(s.chan c).zHold &&
    (s.on (R.PC_OVR_OVEN c) || !(s.on (R.PC_STAT_FROZEN c) || (s.chan c).held))

/-- What the channel is commanded (R322): 0 Z, 1 H, 2 L. -/
def State.wanted (s : State) (c : Nat) : Nat :=
  let x := s.chan c
  if !s.on (R.PC_CTRL_EN c) || s.on (R.PC_STAT_XON c) || x.ocForce || x.zHold || (s.inGang c && s.gangZ (c / 4)) then 0
  else
    let r := s.reqNow c
    if r.1 && r.2 then 0 else if r.1 then 1 else if r.2 then 2 else 0

/-- EN falls; the sequencer is OFF, or waits for a new target (R328). -/
def State.seqTo (s : State) (c w : Nat) : State :=
  if (s.chan c).target = w then s
  else
    let s := (s.clr (R.PC_STAT_EN_PIN c)).set (R.PC_STAT_SEQ c) (if w = 0 then 0 else 1)
    s.modChan c (fun x => { x with target := w, pulseSet := false })

/-- HG.STAT NACT and HSON follow the shots of the group. -/
def State.syncGroup (s : State) (g : Nat) : State :=
  (s.set (R.HG_STAT_NACT g) (s.activeMembers g).length).setB (R.HG_STAT_HSON g)
    (s.f (R.PC_STAT_SEQ (s.hsChan g)) == 2)

/-- The groups whose high side is channel `c` follow it. -/
def State.syncGroupsOf (s : State) (c : Nat) : State :=
  if s.pcMode c == 4 && s.fa (R.PC_VCFG_ROLE c) == 2 then
    forN 4 (fun i s => let g := 4 * (c / 16) + i; if s.hsChan g == c then s.syncGroup g else s) s
  else s

/-- SHOT_STAT of a channel follows its queue. -/
def State.syncShots (s : State) (c : Nat) : State :=
  let x := s.chan c
  ((s.set (R.PC_SHOT_STAT_DEPTH c) x.queue.length).setB (R.PC_SHOT_STAT_ACTIVE c) x.shot.isSome).setB
    (R.PC_SHOT_STAT_WAITDEF c) x.deferred.isSome

/-- The stamp domain of a channel's shots. -/
def State.shotNow (s : State) (c : Nat) : Nat := s.rnow (s.fa (R.PC_VCFG_TDOM c))

/-- A shot that is late (R336): not performed, counted, R24. -/
def State.shotLate (s : State) (c : Nat) : State :=
  ((s.count (R.PC_LATE_CNT c)).lateAction (islPB0 + c / 16)).pcReport c 9 clsWarn

/-- Heads whose t_on lies in the past are late (R24); so are those that lie before the end of a shot that ends now (R336).
On a frozen channel shots neither start nor end (R343). -/
def State.shotHeads (s : State) (c : Nat) : State :=
  if s.on (R.PC_STAT_FROZEN c) then s
  else
    let now := s.shotNow c
    let late := (s.chan c).queue.takeWhile (fun e => decide (dt e.1 now < 0))
    if late.isEmpty then s
    else forEach late (fun _ s => s.shotLate c)
      ((s.modChan c (fun x => { x with queue := x.queue.drop late.length })).syncShots c)

/-- The active shot of a channel is over (R337, R341). -/
def State.dropShot (s : State) (c : Nat) : State :=
  match (s.chan c).shot with
  | none => s
  | some _ =>
    let s := s.modChan c (fun x => { x with shot := none, edges := [], endMissed := false })
    ((s.bump (R.PC_SHOT_CNT c)).syncShots c).shotHeads c

/-- A channel fault (R334): its bit latches, EN falls, the active shot ends, CTRL.EN is cleared, a record is written. -/
def State.chanFault (s : State) (c : Nat) (x : Fld) (ev cls : Nat) : State :=
  let s := ((s.raise x).clr (R.PC_CTRL_EN c)).dropShot c
  let s := (s.seqTo c 0).modChan c (fun x => { x with ocForce := false, held := false })
  let s := if s.pcMode c == 4 && s.fa (R.PC_VCFG_ROLE c) == 2 then
      forEach (s.heldBy c) (fun m s => ((s.dropShot m).seqTo m 0).syncGroup (s.shotGroup m)) s
    else s
  (s.syncGroupsOf c).pcReport c ev cls

/-- The channel is frozen, or its levels still hold after a freeze (R343, R345). -/
def State.frozen (s : State) (c : Nat) : Bool := s.on (R.PC_STAT_FROZEN c) || (s.chan c).held

/-- The commanded state of one channel is evaluated: a both-on request latches XON, whatever EN is (R330); a frozen channel
keeps its levels (R343). -/
def State.evalChan (s : State) (c : Nat) : State :=
  if s.bothOn c && !s.on (R.PC_STAT_XON c) then s.chanFault c (R.PC_STAT_XON c) 0 clsFault
  else if s.frozen c then s
  else s.seqTo c (s.wanted c)

/-- The high side of a member shot, and its group (R339). -/
def State.evalHigh (s : State) (o : Option Shot) : State :=
  match o with
  | some h => if h.role == 1 then (s.evalChan h.hs).syncGroup h.hg else s
  | none => s

/-- A channel and everything that hangs on it: its gang's channels, its shot's high side, the groups whose high side it is. -/
def State.evalAround (s : State) (c : Nat) : State :=
  let s := s.evalChan c
  let s := forEach ((s.gangChans (c / 4)).filter (· != c)) (fun d s => s.evalChan d) s
  if s.pcMode c == 4 then (s.evalHigh (s.chan c).shot).syncGroupsOf c else s

/-- A channel fault with everything that hangs on the channel; the high side of the shot it ends opens (R334, R339). -/
def State.fault (s : State) (c : Nat) (x : Fld) (ev cls : Nat) : State :=
  ((s.chanFault c x ev cls).evalAround c).evalHigh (s.chan c).shot

/-- A fault of the whole bank: every channel of it, enabled or not (R334). -/
def State.bankFault (s : State) (b : Nat) (x : Nat → Fld) (ev : Nat) : State :=
  forN 16 (fun j s => s.fault (16 * b + j) (x (16 * b + j)) ev clsFault) s

/-- STAT.SAFEOFF of every channel of a bank follows SAFE_OFF; an assertion is the fault of R334. -/
def State.bankSafeOff (s : State) (b : Nat) (asserted : Bool) : State :=
  if asserted then s.bankFault b R.PC_STAT_SAFEOFF 7
  else forN 16 (fun j s => s.clr (R.PC_STAT_SAFEOFF (16 * b + j))) s

/-! ## Windows of a period (R323, R325, R327) -/

/-- TCYC × 32 / (5 × DIV) × k, in u (R323). -/
def cycleStart (tcyc div k : Nat) : Nat := k * tcyc * 32 / (5 * div)

/-- P_k of the period with index `k` of a cycle of `tcyc` ns. -/
def State.periodLen (s : State) (c tcyc k : Nat) : Nat :=
  if s.fa (R.PC_CTRL_SYNC c) = 1 then
    let div := max 1 (s.fa (R.PC_CTRL_DIV c))
    cycleStart tcyc div (k + 1) - cycleStart tcyc div k
  else s.fa (R.PC_PER c)

/-- The index that follows `k`, and TCYC of the cycle its period belongs to, `tc` being that of period `k` (R323). -/
def State.nextIndex (s : State) (c tc k : Nat) : Nat × Nat :=
  let k' := (k + 1) % max 1 (s.fa (R.PC_CTRL_DIV c))
  (k', if k' = 0 then s.tcyc else tc)

/-- The index of the first period of a carrier, from the instant at which it starts: CSTART + PHASE + k × TCYC / DIV (R323). -/
def State.firstIndex (s : State) (c : Nat) : Nat :=
  if s.fa (R.PC_CTRL_SYNC c) = 1 then
    let div := max 1 (s.fa (R.PC_CTRL_DIV c))
    let t := dt s.gnow (s.cstart s.grid) - (s.fa (R.PC_PHASE c) : Int)
    let t := if t < 0 then t + s.tcyc else t
    min (div - 1) (((t + 1) * div / (max 1 s.tcyc : Nat)).toNat)
  else 0

/-- CMPA in use: for a brushless phase floor(W × P / 65,536) of the applied payload (R363). -/
def State.cmpA (s : State) (c p : Nat) : Nat :=
  if s.gangKind (c / 4) = 2 && s.inGang c then
    match (s.gang (c / 4)).duty with
    | none => 0
    | some (u, v, w) => (match c % 4 with | 0 => u | 1 => v | _ => w) * p / 65536
  else s.fa (R.PC_CMP c 0)

/-- [a, b) clipped to the period. -/
def inWin (a b p t : Nat) : Bool := decide (a ≤ t ∧ t < min b p)

/-- The requests `t` u after the start of a period of length `p` (R325). -/
def State.windowReq (s : State) (c p t : Nat) : Bool × Bool :=
  let comp := s.onA (R.PC_CTRL_COMPL c)
  match s.pcMode c with
  | 1 => let h := inWin 0 (s.cmpA c p) p t; (h, !h && comp)
  | 2 =>
    let a := s.cmpA c p
    let h := if p ≤ a then true else inWin ((p - a) / 2) ((p - a) / 2 + a) p t
    (h, !h && comp)
  | 3 => (inWin (s.fa (R.PC_CMP c 0)) (s.fa (R.PC_CMP c 1)) p t, inWin (s.fa (R.PC_CMP c 2)) (s.fa (R.PC_CMP c 3)) p t)
  | _ => (false, false)

/-- Instants of a period at which a window can begin or end, ascending. -/
def State.breaks (s : State) (c p : Nat) : List Nat :=
  let a := s.cmpA c p
  let l := match s.pcMode c with
    | 1 => [0, a]
    | 2 => [0, (p - a) / 2, (p - a) / 2 + a]
    | 3 => [0, s.fa (R.PC_CMP c 0), s.fa (R.PC_CMP c 1), s.fa (R.PC_CMP c 2), s.fa (R.PC_CMP c 3)]
    | _ => [0]
  ((l.filter (· < p)).foldl (fun l k => insertBy id k l) []).eraseDups

/-- Changes of the requests over a period, from the requests `r` in force before it. -/
def changesFrom (req : Nat → Bool × Bool) : Bool × Bool → List Nat → List (Nat × Bool × Bool)
  | _, [] => []
  | r, t :: ts => if req t = r then changesFrom req r ts else (t, req t) :: changesFrom req (req t) ts

/-- The minimum-pulse filter (R327): an interval shorter than `m` that is no both-on interval is removed, and the state
before it continues. Answers the changes kept among those before `p`, and the number removed there. -/
def minPulse (m p : Nat) : List (Nat × Bool × Bool) → List (Nat × Bool × Bool) × Nat
  | [] => ([], 0)
  | [(t, q)] => if t < p then ([(t, q)], 0) else ([], 0)
  | (t, q) :: (t', q') :: rest =>
    let x := minPulse m p ((t', q') :: rest)
    if p ≤ t then ([], 0) else if t' - t < m && q != (true, true) then (x.1, x.2 + 1) else ((t, q) :: x.1, x.2)

/-- The changes of the requests over `n` periods from index `k` of a cycle of `tc` ns, which starts `o` u after the first,
from the requests `r`. `later` holds the values of the periods that follow. -/
def State.rawEdges (s later : State) (c : Nat) : Nat → Nat → Nat → Nat → Bool × Bool → List (Nat × Bool × Bool)
  | 0, _, _, _, _ => []
  | n + 1, tc, k, o, r =>
    let p := s.periodLen c tc k
    let here := changesFrom (s.windowReq c p) r (s.breaks c p)
    let last := match here.getLast? with | some e => e.2 | none => r
    let i := later.nextIndex c tc k
    here.map (fun e => (e.1 + o, e.2)) ++ later.rawEdges later c n i.2 i.1 (o + p) last

/-- The values that the next period start finds: the set that waits for it is active then (R326). -/
def State.nextSet (s : State) (c : Nat) : State :=
  match (s.chan c).next with
  | some l => forEach l (fun (w : Nat × Word) s => s.setActReg w.1 w.2.toNat) s
  | none => s

/-- The edges of a period, with how many intervals were removed in it. Seven periods hold the longest interval that MINP can
remove; the values of each are those active for it (R327). -/
def State.periodEdges (s : State) (c tc k p : Nat) (r : Bool × Bool) : List (Nat × Bool × Bool) × Nat :=
  minPulse (s.fa (R.PC_MINP c)) p (s.rawEdges (s.nextSet c) c 7 tc k 0 r)

/-- The changes of the requests in one period, before the filter. -/
def State.rawPeriod (s : State) (c tc k : Nat) (r : Bool × Bool) : List (Nat × Bool × Bool) := s.rawEdges s c 1 tc k 0 r

/-- What remains of the period in progress is judged again, with the values of the period that follows it (R327). -/
def State.rejudge (s : State) (c : Nat) : State :=
  let x := s.chan c
  let mode := s.pcMode c
  if !x.follow || !(mode == 1 || mode == 2 || mode == 3) then s
  else
    let e := s.periodEdges c x.tc x.k (s.periodLen c x.tc x.k) (x.raw0H, x.raw0L)
    s.setChan c { x with edges := e.1.filter (fun w => x.edgeAt < w.1) }

/-! ## Staged sets (R326, R339, R349) -/

/-- Addresses of a channel's RWS registers. -/
def pcStaged (c : Nat) : List Nat :=
  ([0x00, 0x10, 0x14, 0x18, 0x1C, 0x20, 0x24, 0x28, 0x2C, 0x30, 0x34, 0x38, 0x3C, 0x48, 0x4C, 0x50, 0x54,
    0x80, 0x84, 0x88, 0x8C, 0x90, 0x94, 0x98, 0x9C, 0xA0, 0xC0, 0xC4, 0xC8, 0xCC] : List Nat).map (fun o => R.PC_CTRL c + o)

/-- A field in a view of the registers. -/
def fv (v : Nat → Nat) (x : Fld) : Nat := bits (v x.addr) x.hi x.lo

/-- The ranges of "PC[c] fields" and "STP and CHP fields", and R323. -/
def State.pcRangesOk (s : State) (c : Nat) (v : Nat → Nat) : Bool :=
  let div := fv v (R.PC_CTRL_DIV c)
  let cyc := fv v (R.PC_CTRL_SYNC c) == 1
  fv v (R.PC_CTRL_MODE c) ≤ 5 && fv v (R.PC_CTRL_SYNC c) ≤ 2 && 1 ≤ div &&
    12800 ≤ fv v (R.PC_PER c) && fv v (R.PC_PER c) ≤ 16777215 &&
    (!cyc || (2000 * div ≤ s.tcyc && s.tcyc ≤ 2621439 * div && fv v (R.PC_PHASE c) < s.tcyc)) &&
    1 ≤ fv v (R.PC_GATE_TGOFF c) && fv v (R.PC_VCFG_ROLE c) ≤ 2 && (fv v (R.PC_VCFG_ROLE c) != 1 || fv v (R.PC_VCFG_HG c) / 4 == c / 16) &&
    fv v (R.PC_STP_CTRL_GANG c) ≤ 2 && (fv v (R.PC_STP_CTRL_GANG c) == 0 || c % 4 == 0) &&
    fv v (R.PC_STP_CTRL_MRES c) ≤ 8 && 1 ≤ fv v (R.PC_STP_DMAX c) &&
    1 ≤ fv v (R.PC_STP_SMUL c) && fv v (R.PC_STP_SMUL c) ≤ 4096 &&
    1000 ≤ fv v (R.PC_STP_TMAX c) && fv v (R.PC_STP_TMAX c) ≤ 1000000000 &&
    (fv v (R.PC_STP_CTRL_GANG c) == 0 || (fv v (R.PC_STP_LSPH c) < s.tcyc && fv v (R.PC_STP_LAPH c) < s.tcyc)) &&
    (fv v (R.PC_STP_CTRL_SIN c) == 0x1F || fv v (R.PC_STP_CTRL_SIN c) % 2 == 0) &&
    (fv v (R.PC_STP_CTRL_ENC c) == 0x1F || fv v (R.PC_STP_CTRL_ENC c) < 16) &&
    fv v (R.PC_CHP_CTRL_DECAY c) ≤ 2 && fv v (R.PC_CHP_CTRL_AIN c) ≤ 79

/-- AXEN (R338): the axis has active KIND = LOCAL and no other channel names it. -/
def State.pcAxenOk (s : State) (c : Nat) (v : Nat → Nat) : Bool :=
  fv v (R.PC_CTRL_AXEN c) == 0 ||
    (s.axKind (fv v (R.PC_CTRL_AXIS c)) == kLocal &&
      (List.range 64).all (fun d => d == c || fv v (R.PC_CTRL_AXEN d) == 0 || fv v (R.PC_CTRL_AXIS d) != fv v (R.PC_CTRL_AXIS c)))

/-- R339 for a member and for the high side of a group. -/
def State.pcGroupOk (s : State) (c : Nat) (v : Nat → Nat) : Bool :=
  let isHs (d : Nat) : Bool := fv v (R.PC_CTRL_MODE d) == 4 && fv v (R.PC_VCFG_ROLE d) == 2
  (!(fv v (R.PC_CTRL_MODE c) == 4 && fv v (R.PC_VCFG_ROLE c) == 1) || isHs (s.hsChan (fv v (R.PC_VCFG_HG c)))) &&
    (isHs c || (List.range 4).all (fun i =>
      let g := 4 * (c / 16) + i
      s.hsChan g != c ||
        (List.range 16).all (fun j =>
          let d := 16 * (c / 16) + j
          d == c || !(fv v (R.PC_CTRL_MODE d) == 4 && fv v (R.PC_VCFG_ROLE d) == 1 && fv v (R.PC_VCFG_HG d) == g))))

/-- The converter of a chopper is claimed by no other (spec/14, "Hysteresis chopper"). -/
def pcAdcOk (c : Nat) (v : Nat → Nat) : Bool :=
  fv v (R.PC_CHP_CTRL_EN c) == 0 ||
    (List.range 64).all (fun d =>
      d == c || fv v (R.PC_CHP_CTRL_EN d) == 0 || fv v (R.PC_CHP_CTRL_ADC d) != fv v (R.PC_CHP_CTRL_ADC c))

/-- "Gang kinds" for the gang led by channel 4q (R349). -/
def State.gangOk (s : State) (q : Nat) (v : Nat → Nat) : Bool :=
  let c := 4 * q
  let lead := fv v (R.PC_CTRL_AXEN c) == 1 && s.axKind (fv v (R.PC_CTRL_AXIS c)) == kLocal
  match fv v (R.PC_STP_CTRL_GANG c) with
  | 1 =>
    lead && (List.range 4).all (fun i => fv v (R.PC_CTRL_MODE (c + i)) == 5 && (i == 0 || fv v (R.PC_CTRL_AXEN (c + i)) == 0)) &&
      fv v (R.PC_CHP_CTRL_EN c) == 1 && fv v (R.PC_CHP_CTRL_EN (c + 2)) == 1
  | 2 =>
    lead && (List.range 3).all (fun i =>
      fv v (R.PC_CTRL_MODE (c + i)) == 2 && fv v (R.PC_CTRL_COMPL (c + i)) == 1 && fv v (R.PC_CTRL_SYNC (c + i)) == 1 &&
        fv v (R.PC_CTRL_DIV (c + i)) == fv v (R.PC_CTRL_DIV c) && fv v (R.PC_PHASE (c + i)) == fv v (R.PC_STP_LAPH c) &&
        (i == 0 || fv v (R.PC_CTRL_AXEN (c + i)) == 0))
  | _ => true

/-- The checks of one channel's set in a view of the registers (R326). The fourth channel of a brushless gang is free of it. -/
def State.pcSetOk (s : State) (c : Nat) (v : Nat → Nat) : Bool :=
  s.pcRangesOk c v && s.pcAxenOk c v && s.pcGroupOk c v && pcAdcOk c v &&
    (s.gangOk (c / 4) v || (c % 4 == 3 && fv v (R.PC_STP_CTRL_GANG (c - 3)) == 2 && s.gangKind (c / 4) != 1))

/-- The view in which the channels of `cs` have their staged sets and all others their active ones. A set that waits for its
period start counts as active. -/
def State.pcView (s : State) (cs : List Nat) (a : Nat) : Nat :=
  let c := (a - 0x10100000) / 0x100
  if cs.contains c then s.reg a
  else
    match (s.chan c).next with
    | some l => (match l.find? (fun w => w.1 == a) with | some w => w.2.toNat | none => s.actReg a)
    | none => s.actReg a

/-- The words become the channel's active set (R326). -/
def State.pcActivate (s : State) (l : List (Nat × Word)) : State :=
  forEach l (fun (w : Nat × Word) s => s.setActReg w.1 w.2.toNat) s

/-- A passing set waits for the next period start; a change of MODE, SYNC, DIV or PHASE ends the period at the boundary, and
the channel is Z until the first period of the new carrier. VALVE parameters reach the next shot (R326). A channel that is
not enabled has no period: its set is active at once (notes/assumptions/1301.md). -/
def State.pcAccept (s : State) (c : Nat) (l : List (Nat × Word)) : State :=
  let v (a : Nat) : Nat := match l.find? (fun w => w.1 == a) with | some w => w.2.toNat | none => s.actReg a
  let changed := fv v (R.PC_CTRL_MODE c) != s.fa (R.PC_CTRL_MODE c) || fv v (R.PC_CTRL_SYNC c) != s.fa (R.PC_CTRL_SYNC c) ||
    fv v (R.PC_CTRL_DIV c) != s.fa (R.PC_CTRL_DIV c) || fv v (R.PC_PHASE c) != s.fa (R.PC_PHASE c)
  if changed then
    let s := (s.pcActivate l).modChan c (fun x => { x with next := none, follow := false, zHold := true, edges := [],
                                                             reqH := false, reqL := false, k := 0, extAt := none,
                                                             held := false })
    s.evalAround c
  else if s.pcMode c == 4 || !s.on (R.PC_CTRL_EN c) then (s.pcActivate l).evalAround c
  else (s.modChan c (fun x => { x with next := some l })).rejudge c

/-- The channels of `cs` whose sets pass beside those of the others that pass; a set that fails counts no more for the rest, which
are judged again, at most `fuel` times (R326, R349). -/
def State.pcPass (s : State) : Nat → List Nat → List Nat
  | 0, cs => cs.filter (fun c => s.pcSetOk c (s.pcView cs))
  | fuel + 1, cs =>
    let good := cs.filter (fun c => s.pcSetOk c (s.pcView cs))
    if good.length = cs.length then cs else s.pcPass fuel good

/-- The commits requested of the channels at the boundary of cycle `n` (R326, R349). -/
def State.chanBoundary (s : State) (n : Nat) : State :=
  let cs := (List.range 64).filter (fun c => s.on (R.PC_CMT_GO c))
  if cs.isEmpty then s
  else
    let good := s.pcPass 64 cs
    forEach cs (fun c s =>
      let s := s.clr (R.PC_CMT_GO c)
      if good.contains c then (s.set (R.PC_CMT_CYC c) n).pcAccept c ((pcStaged c).map (fun a => (a, toW (s.reg a))))
      else s.raise (R.PC_STAT_CFGERR c)) s

/-- A knot WRITE takes one staged register of a channel alone (R201, R326); the answer is false for a state refusal. -/
def State.pcTakeOne (s : State) (a : Nat) : Bool × State :=
  let c := (a - 0x10100000) / 0x100
  let v (b : Nat) : Nat := if b = a then s.reg a else s.pcView [] b
  if s.pcSetOk c v then
    let base := ((s.chan c).next).getD []
    (true, s.pcAccept c (base.filter (fun w => w.1 != a) ++ [(a, toW (s.reg a))]))
  else (false, s.raise (R.PC_STAT_CFGERR c))

/-- RWS registers of a group (R348). -/
def hgStaged (g : Nat) : List Nat := [R.HG_CTRL g, R.HG_IBUDGET_W g, R.HG_CPCFG g]

/-- The checks of a group's set (R339, R348). -/
def State.hgSetOk (s : State) (g : Nat) (v : Nat → Nat) : Bool :=
  let h := 16 * (g / 4) + fv v (R.HG_CTRL_HSCH g)
  fv v (R.HG_CTRL_POLICY g) ≤ 2 && s.pcMode h == 4 && s.fa (R.PC_VCFG_ROLE h) == 2

def State.hgTake (s : State) (g : Nat) (l : List Nat) : Bool × State :=
  let v (a : Nat) : Nat := if l.contains a then s.reg a else s.actReg a
  if s.hgSetOk g v then (true, (forEach l (fun a s => s.take a) s).syncGroup g) else (false, s.raise (R.HG_STAT_CFGERR g))

def State.groupBoundary (s : State) (n : Nat) : State :=
  forN 16 (fun g s =>
    if s.on (R.HG_CMT_GO g) then
      let (ok, s) := (s.clr (R.HG_CMT_GO g)).hgTake g (hgStaged g)
      if ok then s.set (R.HG_CMT_CYC g) n else s
    else s) s

/-! ## Shots (R336 to R342) -/

/-- A write of SHOT_D (R336). -/
def State.shotPush (s : State) (c d : Nat) : State :=
  let x := s.chan c
  if 8 ≤ x.queue.length || s.fa (R.PC_VCFG_ROLE c) == 2 then
    (s.raise (R.PC_SHOT_STAT_OVF c)).pcReport c 8 clsWarn
  else if d = 0 then s
  else ((s.setChan c { x with queue := x.queue ++ [(s.f (R.PC_SHOT_T_T_ON c), d)] }).syncShots c).shotHeads c

def State.shotFlush (s : State) (c : Nat) : State :=
  (s.modChan c (fun x => { x with queue := [], deferred := none })).syncShots c

/-- The active shot ends now (R336, R337): the channel goes to Z, the group is told. During a freeze its end is remembered
(R343, R345). -/
def State.shotStop (s : State) (c : Nat) : State :=
  if s.on (R.PC_STAT_FROZEN c) then s.modChan c (fun x => { x with endMissed := x.shot.isSome })
  else ((s.dropShot c).evalAround c).evalHigh (s.chan c).shot

/-- The axis of a valve channel leaves VALVE: its shot ends and its queue is flushed (R338). -/
def State.valveLeave (s : State) (n : Nat) : State :=
  match s.axisChan n with
  | none => s
  | some c => if s.pcMode c == 4 then (s.shotStop c).shotFlush c else s

/-- Shots of a channel may start: VALVE, and the axis it serves in VALVE (R338). -/
def State.shotsRun (s : State) (c : Nat) : Bool :=
  s.pcMode c == 4 && (!s.onA (R.PC_CTRL_AXEN c) || s.mode (s.pcAxis c) == mValve)

/-- The shot starts at stamp `t` with the active values (R337). -/
def State.shotBegin (s : State) (c t d : Nat) : State :=
  let h : Shot := { ton := t, dur := d, vpeak := s.fa (R.PC_VPEAK c), per := s.fa (R.PC_PER c), vhold := s.fa (R.PC_VHOLD c),
                    minp := s.fa (R.PC_MINP c), fw := s.onA (R.PC_VCFG_FW c), ipeak := s.fa (R.PC_VIMAX_IPEAK c),
                    ihold := s.fa (R.PC_VIMAX_IHOLD c), role := s.fa (R.PC_VCFG_ROLE c), hg := s.fa (R.PC_VCFG_HG c),
                    hs := s.hsChan (s.fa (R.PC_VCFG_HG c)) }
  ((s.modChan c (fun x => { x with shot := some h, deferred := none, edges := [] })).syncShots c).evalAround c

/-- The group is ready (R339); the pump monitor's level is an outside input. -/
def State.groupReady (s : State) (g : Nat) : Bool :=
  let h := s.hsChan g
  s.on (R.HG_CTRL_EN g) && s.on (R.PC_CTRL_EN h) && bits (s.reg (R.PC_STAT h)) 6 0 == 0 && !s.on (R.HG_STAT_CPF g) &&
    (!s.on (R.HG_CTRL_CPEN g) || s.input (hgPin g 1))

/-- The current of the other active shots plus the new one's IPEAK (R340). -/
def State.groupCurrent (s : State) (g c : Nat) : Nat :=
  ((s.activeMembers g).filterMap (fun d => if d = c then none else (s.chan d).shot)).foldl
    (fun a h => a + (if h.hold then h.ihold else h.ipeak)) (s.fa (R.PC_VIMAX_IPEAK c))

/-- A flag of R340 in both the channel's SHOT_STAT and HG.STAT, its counter and its record. -/
def State.groupFlag (s : State) (g : Nat) (a b n : Fld) (ev : Nat) : State :=
  (((s.raise a).raise b).count n).hgReport g ev clsInfo

/-- Group admission of a member shot that reaches its start (R340). -/
def State.admitShot (s : State) (c g t d : Nat) : State :=
  if !s.groupReady g then
    (s.groupFlag g (R.PC_SHOT_STAT_GNRDY c) (R.HG_STAT_GNRDY g) (R.HG_GNRDY_CNT g) 4).burn
  else
    let s := s.burn
    let busy := !(s.activeMembers g).isEmpty
    let defer (s : State) : State :=
      if busy then
        ((s.groupFlag g (R.PC_SHOT_STAT_DEF c) (R.HG_STAT_DEFER g) (R.HG_DEFER_CNT g) 1).modChan c
          (fun x => { x with deferred := some (t, d) })).syncShots c
      else s.shotBegin c t d
    let reject (s : State) : State :=
      if busy then s.groupFlag g (R.PC_SHOT_STAT_REJ c) (R.HG_STAT_REJECT g) (R.HG_REJECT_CNT g) 2 else s.shotBegin c t d
    match s.fa (R.HG_CTRL_POLICY g) with
    | 0 =>
      let lim := s.fa (R.HG_IBUDGET g)
      if lim = 0 || s.groupCurrent g c ≤ lim then s.shotBegin c t d
      else
        let s := s.groupFlag g (R.PC_SHOT_STAT_BUDGET c) (R.HG_STAT_BUDGET g) (R.HG_BUDGET_CNT g) 3
        if s.onA (R.HG_CTRL_BUDFB g) then reject s else defer s
    | 1 => defer s
    | _ => reject s

/-- The head shot reaches t_on (R336, R337). A head that the active or the deferred shot of its channel keeps from starting is
late, and so is one whose t_on has passed (R24). -/
def State.shotStart (s : State) (c : Nat) : State :=
  let x := s.chan c
  if s.on (R.PC_STAT_FROZEN c) || !s.shotsRun c then s
  else
    match x.queue with
    | [] => s
    | (t, d) :: rest =>
      let s := (s.setChan c { x with queue := rest }).syncShots c
      if x.shot.isSome || x.deferred.isSome || decide (dt t (s.shotNow c) < 0) then s.shotLate c
      else if s.fa (R.PC_VCFG_ROLE c) = 1 then s.admitShot c (s.fa (R.PC_VCFG_HG c)) t d
      else s.shotBegin c t d

/-- The first deferred shot of a group starts (R341): earliest original t_on, then channel number, of the channels whose shots
may start (R338, R343). -/
def State.deferredStart (s : State) (g : Nat) : State :=
  if !(s.activeMembers g).isEmpty then s
  else
    let ds := ((s.members g).filter (fun c => s.shotsRun c && !s.on (R.PC_STAT_FROZEN c))).filterMap
      (fun c => (s.chan c).deferred.map (fun x => (c, x)))
    let best := ds.foldl (fun (b : Option (Nat × Nat × Nat)) x =>
      match b with
      | none => some x
      | some y => if dt x.2.1 y.2.1 < 0 then some x else some y) none
    match best with
    | none => s
    | some (c, _, d) => s.shotBegin c (s.shotNow c) d

def State.shotPeakEnd (s : State) (c : Nat) : State :=
  if s.on (R.PC_STAT_FROZEN c) then s
  else (s.modChan c (fun x => { x with shot := x.shot.map (fun h => { h with hold := true }) })).syncShots c

/-- A hold period of shot `h`: the shot with its state at the period's start, the end of its active part where that lies
inside the period, and whether R327 removed an interval. The active part of the first period joins the peak, and any active
part joins an active state that goes on; the last period is cut at t_on + D, and a free state Z joins the Z that follows. -/
def Shot.holdPart (h : Shot) : Shot × Option Nat × Bool :=
  let a := h.vhold * h.per / 65536
  let left := (h.dur - h.vpeak) * 32 / 5 - h.holds * h.per
  let act := min a left
  let free := min (h.per - a) (left - act)
  let dropOn := !h.on && 0 < act && act < h.minp
  let on := 0 < act && !dropOn
  let joins := !h.fw && left ≤ h.per
  let dropOff := on && 0 < free && free < h.minp && !joins
  ({ h with hold := true, on := on, holds := h.holds + 1 },
   if on && 0 < free && !dropOff then some act else none, dropOn || dropOff)

/-- A hold period starts: the active state for floor(VHOLD × P / 65,536) u, then the free state; R327 acts on both. While the
channel is frozen its periods are only counted (R343). -/
def State.holdPeriod (s : State) (c : Nat) : State :=
  match (s.chan c).shot with
  | none => s
  | some h =>
    if s.on (R.PC_STAT_FROZEN c) then s.modChan c (fun x => { x with shot := some { h with hold := true, holds := h.holds + 1 } })
    else
      let r := h.holdPart
      let s := if r.2.2 then s.count (R.PC_MPF_CNT c) else s
      let edges := match r.2.1 with | some a => [(a, false, false)] | none => []
      (s.modChan c (fun x => { x with shot := some r.1, edges := edges, ocForce := false, held := false })).evalAround c

/-- The shot reaches t_on + D (R337). -/
def State.shotEnd (s : State) (c : Nat) : State := s.shotStop c

/-- The charge pump of a group has failed (R342): its shots end and its high side opens. -/
def State.pumpStop (s : State) (g : Nat) : State :=
  let s := ((s.raise (R.HG_STAT_CPF g)).clr (R.HG_STAT_CPOK g)).count (R.HG_CPF_CNT g)
  let s := forEach (s.activeMembers g) (fun c s => ((s.dropShot c).evalChan c).evalHigh (s.chan c).shot) s
  ((s.evalChan (s.hsChan g)).syncGroup g).hgReport g 0 clsFault

/-- CPF (R342): every shot of the group ends and the high side goes to Z. -/
def State.pumpFault (s : State) (g : Nat) : State :=
  if s.f (R.PC_STAT_SEQ (s.hsChan g)) == 2 && s.on (R.HG_CTRL_EN g) && s.on (R.HG_CTRL_CPEN g) then s.pumpStop g else s

/-! ## Enable, freeze, halt-dwell (R335, R343 to R346) -/

/-- A write of CTRL.EN (R335). -/
def State.chanEnable (s : State) (c : Nat) (en : Bool) : State :=
  if !en then
    let o := (s.chan c).shot
    let s := (s.clr (R.PC_CTRL_EN c)).dropShot c
    ((s.modChan c (fun x => { x with follow := false, held := false })).evalAround c).evalHigh o
  else if bits (s.reg (R.PC_STAT c)) 6 0 != 0 || s.safeOff (c / 16) || !s.locked (islPB0 + c / 16) || !s.pcMuxed c then
    s.raise (R.PC_STAT_ENERR c)
  else if s.on (R.PC_CTRL_EN c) then s
  else
    let s := (s.raise (R.PC_CTRL_EN c)).modChan c (fun x => { x with follow := false, k := 0, edges := [] })
    s.evalAround c

/-- Channel `c` is governed by core `k` (R343). -/
def State.governs (s : State) (k c : Nat) : Bool := s.f (R.PC_HALT_CORE c) == k || s.f (R.PC_HALT_CORE c) == 0x3F

/-- The halt-dwell timer starts (R346); DWELL = 0 is an immediate expiry. -/
def State.dwellStart (s : State) (c : Nat) : State :=
  if s.f (R.PC_HALT_DWELL c) = 0 then s.fault c (R.PC_STAT_HDWELL c) 5 clsFault else s.raise (R.PC_STAT_DWELLRUN c)

/-- A debug halt of core `k` freezes its governed channels and starts their timers (R343, R346). -/
def State.freezeCore (s : State) (k : Nat) : State :=
  forN 64 (fun c s => if s.governs k c then (s.raise (R.PC_STAT_FROZEN c)).dwellStart c else s) s

/-- A halt by a second stack fault starts the timers only (R344). -/
def State.dwellCore (s : State) (k : Nat) : State :=
  forN 64 (fun c s => if s.governs k c then s.dwellStart c else s) s

/-- The end of a freeze (R345): the commanded state is taken up at the next period start; shots whose end or start fell in
the freeze end, or are late. -/
def State.unfreeze (s : State) (c : Nat) : State :=
  let ended := (s.chan c).endMissed
  let s := (s.clr (R.PC_STAT_FROZEN c)).modChan c (fun x => { x with held := s.on (R.PC_CTRL_EN c) && !ended })
  let s := if ended then s.shotStop c else s
  let s := if s.pcMode c == 4 then s.shotHeads c else s
  s.evalAround c

/-- Some core that governs the channel is still halted, by a debugger or (`any`) at all. -/
def State.haltedFor (s : State) (c : Nat) (any : Bool) : Bool :=
  (List.range 36).any (fun k => s.governs k c && ((s.core k).dbgHalt || (any && (s.core k).sfHalt)))

/-- A freeze, or a halt-dwell timer, of a channel with no halted core that governs it any more ends (R345, R346). -/
def State.thaw (s : State) (c : Nat) : State :=
  let s := if s.on (R.PC_STAT_FROZEN c) && !s.haltedFor c false then s.unfreeze c else s
  if !s.haltedFor c true then s.clr (R.PC_STAT_DWELLRUN c) else s

/-- A halt of core `k` ends. -/
def State.thawCore (s : State) (k : Nat) : State := forN 64 (fun c s => if s.governs k c then s.thaw c else s) s

/-- A write to a register of a channel that is not frozen, by a strand on another online core, stops the timer (R346). -/
def State.dwellTouch (s : State) (c : Nat) (who : Requester) : State :=
  if who.kind == .core && !s.on (R.PC_STAT_FROZEN c) && !s.governs who.index c && s.on (R.DSP_CORE_ONLINE who.index) then
    s.clr (R.PC_STAT_DWELLRUN c)
  else if who.kind == .core && !s.on (R.PC_STAT_FROZEN c) && s.f (R.PC_HALT_CORE c) == 0x3F && s.coreUp who.index then
    s.clr (R.PC_STAT_DWELLRUN c)
  else s

/-! ## Carrier events -/

/-- The applied payload of a brushless gang is taken at its first period start at or after A(N) (R363). -/
def State.dutyTake (s : State) (c : Nat) : State :=
  if s.gangKind (c / 4) = 2 && s.inGang c then
    match (s.gang (c / 4)).dutyNext with
    | some (t, on, u, v, w) =>
      if dt s.gnow t ≥ 0 then s.modGang (c / 4) (fun g => { g with duty := some (u, v, w), off := !on, dutyNext := none }) else s
    | none => s
  else s

/-- u → ns. -/
def uNs (u : Nat) : Nat := u * 5 / 32

/-- Triggers 2c and 2c + 1 of the period that follows one of `p` u leave at this period's start, with their stamps (R333). -/
def State.sendTriggers (s : State) (c p p' : Nat) : State :=
  forN 2 (fun i s =>
    if s.onA (R.PC_TRG_EN c i) && s.fa (R.PC_TRG_OFS c i) < p' then
      { s with pwr := { s.pwr with trig := SMap.put (fun _ => 0) s.pwr.trig (2 * c + i)
                                    (u32 (((s.chan c).startAt + uNs (p + s.fa (R.PC_TRG_OFS c i)) : Nat) : Int)) } }
    else s) s

/-- The pulse of SYNCOUT (R324). -/
def State.syncoutPulse (s : State) (c : Nat) : State :=
  if s.onA (R.PC_CTRL_SOUT c) then
    let b := c / 16
    { s with pwr := { s.pwr with syncOut := SMap.put (fun _ => 0) s.pwr.syncOut b (SMap.get (fun _ => 0) s.pwr.syncOut b + 1) } }
  else s

/-- u of the interval that runs at the end of a period of `p` u with the changes `l`, `iv` of it lying before the period. -/
def intervalAt (iv p : Nat) (l : List (Nat × Bool × Bool)) : Nat :=
  match l.getLast? with | some e => p - e.1 | none => iv + p

/-- The windows of the period that starts (R325, R327). An interval that the values of the period before made too short, and
those of this one long enough, holds from the start. -/
def State.startWindows (s : State) (c tc k p : Nat) : State :=
  let x := s.chan c
  let raw0 : Bool × Bool := if x.follow then (x.rawH, x.rawL) else (false, false)
  let iv := if x.follow then x.ivAt else 0
  let here := s.rawPeriod c tc k raw0
  let e := s.periodEdges c tc k p raw0
  let s := s.countK (R.PC_MPF_CNT c) e.2
  let first := match here.head? with | some w => w.1 | none => p
  let r : Bool × Bool := if x.follow then (x.reqH, x.reqL) else (false, false)
  let r := if r != raw0 && s.fa (R.PC_MINP c) ≤ iv + first then raw0 else r
  let r : (Bool × Bool) × List (Nat × Bool × Bool) := match e.1 with | (0, q) :: rest => (q, rest) | l => (r, l)
  let raw := match here.getLast? with | some w => w.2 | none => raw0
  s.modChan c (fun x => { x with reqH := r.1.1, reqL := r.1.2, edges := r.2, raw0H := raw0.1, raw0L := raw0.2, rawH := raw.1,
                                 rawL := raw.2, ivAt := intervalAt iv p here, edgeAt := 0 })

/-- A carrier period starts (R323 to R327, R332, R333, R363): the set that waited becomes active; a channel in VALVE keeps the
end of its hold period's active part. -/
def State.carrierStart (s : State) (c : Nat) : State :=
  let x := s.chan c
  let s := (s.nextSet c).modChan c (fun x => { x with next := none })
  let i : Nat × Nat := if x.follow then s.nextIndex c x.tc x.k else (s.firstIndex c, s.tcyc)
  let s := s.dutyTake c
  let p := s.periodLen c i.2 i.1
  let s := if s.pcMode c == 4 then s else s.startWindows c i.2 i.1 p
  let force := x.ocForce && s.input (pcPin c 4) != s.onA (R.PC_OCCFG_OCPOL c)
  let s := s.modChan c (fun x => { x with k := i.1, tc := i.2, follow := true, zHold := false, ocForce := force, extAt := none,
                                           held := false, startAt := x.extAt.getD s.gnow })
  let s := if x.ocForce then s.burn else s
  let n := s.nextIndex c i.2 i.1
  let s := s.sendTriggers c p (s.periodLen c n.2 n.1)
  (s.syncoutPulse c).evalAround c

/-- The next edge of the period, or the end of a hold period's active part (R325, R337). -/
def State.compareEdge (s : State) (c : Nat) : State :=
  match (s.chan c).edges with
  | [] => s
  | (o, q) :: rest =>
    if s.frozen c then s.modChan c (fun x => { x with edges := rest, reqH := q.1, reqL := q.2, edgeAt := o })
    else
      let s := s.modChan c (fun x =>
        { x with edges := rest, reqH := q.1, reqL := q.2, edgeAt := o, shot := x.shot.map (fun h => { h with on := q.1 || q.2 }) })
      s.evalAround c

/-- A timed action of a channel's output is performed (R24, R25): bits 0 and 1 of the level it leaves are the channel's REQ_H
and REQ_L from then on, and the gate interlock acts on the state they give (notes/assumptions/2027.md). Outputs 0 to 15 of the
island of a bank are its channels. -/
def State.chanAction (s old : State) (isl out : Nat) : State :=
  if islPB0 ≤ isl && isl < islPB0 + 4 && out < 16 && old.actionDue isl out then
    let c := 16 * (isl - islPB0) + out
    let v := SMap.get (fun _ => 0) s.tim.outs (outKey isl out)
    (s.modChan c (fun x => { x with reqH := bit v 0, reqL := bit v 1 })).evalAround c
  else s

/-- PULSE takes the commanded level (R328 step 3). -/
def State.pulseSet (s : State) (c : Nat) : State :=
  if s.f (R.PC_STAT_SEQ c) = 1 && !s.frozen c then
    (s.setB (R.PC_STAT_PULSE_PIN c) ((s.chan c).target == 1)).modChan c (fun x => { x with pulseSet := true })
  else s

/-- A gate sense reads on (R328). -/
def State.gateOn (s : State) (c : Nat) (low : Bool) : Bool :=
  if low then s.on (R.PC_STAT_GSL_IN c) != s.onA (R.PC_GATE_GSLPOL c)
  else s.on (R.PC_STAT_GSH_IN c) != s.onA (R.PC_GATE_GSHPOL c)

/-- EN rises: PULSE has its level and the opposite side's sense reads off (R328 step 4). -/
def State.enRise (s : State) (c : Nat) : State :=
  let x := s.chan c
  let opposite := x.target == 1
  if s.f (R.PC_STAT_SEQ c) = 1 && x.pulseSet && !s.frozen c && s.on (R.PC_CTRL_EN c) && !s.gateOn c opposite then
    ((s.raise (R.PC_STAT_EN_PIN c)).set (R.PC_STAT_SEQ c) (x.target + 1)).syncGroupsOf c
  else s

/-- A filtered gate sense changes; both on at once is GBOTH (R331). -/
def State.gateSense (s : State) (c : Nat) (low level : Bool) : State :=
  let s := s.setB (if low then R.PC_STAT_GSL_IN c else R.PC_STAT_GSH_IN c) level
  if s.gateOn c true && s.gateOn c false then s.fault c (R.PC_STAT_GBOTH c) 1 clsSafety else s

/-- A change of the gate sense of one side to `on` carries the stamp of an expiry, and wins (R229, R329). -/
def State.senseWaits (s : State) (c : Nat) (low on : Bool) : Bool :=
  s.arrives (fun i => match i with
    | .gateSenseChange d l v =>
      d.val == c && l == low && on == (v != (if low then s.onA (R.PC_GATE_GSLPOL c) else s.onA (R.PC_GATE_GSHPOL c)))
    | _ => false)

/-- t0 + TGOFF: the opposite gate still reads on (R329). -/
def State.goffTimeout (s : State) (c : Nat) : State :=
  let low := (s.chan c).target == 1
  if s.f (R.PC_STAT_SEQ c) = 1 && s.gateOn c low && !s.senseWaits c low false then s.fault c (R.PC_STAT_GOFF c) 2 clsFault else s

/-- t_r + TGON: the driven gate does not read on; not checked when TGON = 0 (R329). -/
def State.gonTimeout (s : State) (c : Nat) : State :=
  let q := s.f (R.PC_STAT_SEQ c)
  if 2 ≤ q && s.fa (R.PC_GATE_TGON c) != 0 && !s.gateOn c (q == 3) && !s.senseWaits c (q == 3) true then
    s.fault c (R.PC_STAT_GON c) 3 clsFault
  else s

/-- What ends the halt-dwell timer carries the stamp of its expiry: the end of the halt of the last core that governs the channel,
or a permitted write to it (R346). -/
def State.dwellEnds (s : State) (c : Nat) : Bool :=
  s.arrives (fun i => match i with
    | .haltEnd k => s.governs k c && (List.range 36).all (fun j => j == k.val || !(s.governs j c && ((s.core j).dbgHalt || (s.core j).sfHalt)))
    | .registerWrite who a _ v =>
      a.toNat / 0x100 == 0x101000 + c && !(s.dwellTouch c who).on (R.PC_STAT_DWELLRUN c) &&
        s.check who a.toNat 4 (v.toNat % 2 ^ 32) .write == .ok
    | _ => false)

end Sys2Proof.Machine
end

