-- ==== Sys2Proof/Machine/Stepper.lean ====
section
/-! DEFINITION. Gangs (spec/14_steppers_and_chopper.md): microsteps and the rate multiplier, segments, step and direction
inputs, the hysteresis chopper, the encoder; and the event commands of channels (spec/13). -/

namespace Sys2Proof.Machine

/-! ## Setpoints (R352, R353) -/

/-- S[j] of R352: floor(65,536 × sin(π j / 512)), with S[256] = 65,535. -/
def quarterWave (j : Nat) : Nat :=
  if 256 ≤ j then 65535 else F32.sinFix (F32.halfPi * j / 256) * 65536 / 2 ^ F32.trigP

/-- Sine and cosine of the electrical position, scaled by 65,536 (R352). -/
def phaseSinCos (m mres : Nat) : Int × Int :=
  let e := m * 2 ^ (8 - mres) % 1024
  let j := e % 256
  let a : Int := quarterWave j
  let b : Int := quarterWave (256 - j)
  match e / 256 with
  | 0 => (a, b)
  | 1 => (b, -a)
  | 2 => (-a, -b)
  | _ => (-b, a)

/-- The setpoint of the phase whose a leg is channel `c`. -/
def State.setpoint (s : State) (c : Nat) : Int :=
  let l := 4 * (c / 4)
  let sc := phaseSinCos (s.f (R.PC_STP_M l)) (s.fa (R.PC_STP_CTRL_MRES l))
  let i : Nat := if s.on (R.PC_STP_STAT_HOLDACT l) then s.fa (R.PC_STP_I_IHOLD l) else s.fa (R.PC_STP_I_IRUN l)
  Int.tdiv ((i : Int) * (if c % 4 = 0 then sc.2 else sc.1)) 65536

/-! ## Rate multiplier (R354) -/

/-- The gang's mode runs segments (R355). -/
def segMode (m : Nat) : Bool := m == mHold || m == mProfile || m == mVelocity || m == mHitch

/-- The gang may issue microsteps now: its mode, and no freeze of its channels (R355, R358, R343). -/
def State.gangSteps (s : State) (q : Nat) : Bool :=
  let m := s.mode (s.pcAxis (4 * q))
  s.gangKind q == 1 && (segMode m || m == mStep) && !(s.gangChans q).any (fun c => s.on (R.PC_STAT_FROZEN c))

/-- R364: a latched limit of the axis stops microsteps toward its side. -/
def State.limStop (s : State) (q : Nat) (neg : Bool) : Bool :=
  let n := s.pcAxis (4 * q)
  s.onA (R.PC_STP_CTRL_LIMHW (4 * q)) && s.on (if neg then R.AX_STATUS_LIMN n else R.AX_STATUS_LIMP n)

/-- LIMSTOP (R364). -/
def State.limStopBit (s : State) (q : Nat) : Bool := s.limStop q true || s.limStop q false

/-- The accumulator brought to now: one addition of R in each PB clock with microsteps left (R354). -/
def State.accNow (s : State) (q : Nat) : Nat :=
  let g := s.gang q
  if g.left = 0 then g.acc
  else min (2 ^ 32 - 1) (g.acc + s.f (R.PC_STP_RATE (4 * q)) * ((s.tim.clk - g.accAt) * 2 / 5))

/-- One carry of the accumulator: M moves by one in direction d, the hold current ends, and the chopper compares later
samples against the new setpoints (R353, R354, R364). -/
def State.microstep (s : State) (q : Nat) : State :=
  let g := s.gang q
  let c := 4 * q
  if g.left = 0 || !s.gangSteps q then s
  else if s.limStop q g.neg then s.setGang q { g with left := 0, tgt := s.f (R.PC_STP_M c) }
  else
    let r := s.f (R.PC_STP_RATE c)
    let k := if r = 0 then 0 else (2 ^ 32 - g.acc + r - 1) / r
    let s := s.set (R.PC_STP_M c) (u32 ((s.f (R.PC_STP_M c) : Int) + (if g.neg then -1 else 1)))
    let s := s.clr (R.PC_STP_STAT_HOLDACT c)
    s.setGang q { g with acc := (g.acc + k * r) % 2 ^ 32, left := g.left - 1, lastMove := s.tim.clk, accAt := s.tim.clk }

/-- hold_active: no microstep for THOLD ms; 0 never (R353). -/
def State.holdTimeout (s : State) (q : Nat) : State :=
  if s.gangKind q = 1 && s.fa (R.PC_STP_THOLD (4 * q)) != 0 then s.raise (R.PC_STP_STAT_HOLDACT (4 * q)) else s

/-! ## Segments (R355, R356) -/

/-- PB clocks in a segment (R355). -/
def State.segClocks (s : State) (q : Nat) : Nat := 2 ^ s.rateK (s.pcAxis (4 * q)) * s.tcyc * 2 / 5

/-- The segment of a gang from CSTART(T), T the cycle `n` that starts: an accepted X_REF, or the axis's policy; Z where its payload
has ENABLE = 0 (R356). -/
def State.segStart (s : State) (q n : Nat) : State :=
  let g := s.gang q
  let l := 4 * q
  match g.plan with
  | none => s
  | some (t, r) =>
    if t ≠ n then s
    else
      let s := s.setGang q { g with plan := none }
      if !segMode (s.mode (s.pcAxis l)) then s
      else
        match (if g.planOff then none else r) with
        | some xref =>
          let dm := i32 (((xref / 65536 : Int) % 2 ^ 32) - (s.f (R.PC_STP_M l) : Int))
          let c := s.segClocks q
          let lim := min (s.fa (R.PC_STP_DMAX l)) (c / 4)
          let left := min dm.natAbs lim
          let s := if lim < dm.natAbs then s.raise (R.PC_STP_STAT_DSAT l) else s
          let rate := if c = 0 then 0 else left * 2 ^ 32 / c % 2 ^ 32
          let s := s.set (R.PC_STP_RATE l) rate
          let s := s.modGang q (fun g => { g with acc := 2 ^ 31, accAt := s.tim.clk, left := left, neg := dm < 0,
                                                  segLeft := left, segNeg := dm < 0, off := false })
          forEach (s.gangChans q) (fun c s => s.evalChan c) s
        | none =>
          let p := if g.planOff then 3 else s.fa (R.AX_SUP_FBPOL (s.pcAxis l))
          let left := if p = 0 || p = 2 then g.segLeft else 0
          let s := s.modGang q (fun g =>
            { g with left := left, segLeft := left, neg := g.segNeg, off := p == 3,
                     acc := if p = 0 || p = 2 then 2 ^ 31 else g.acc, accAt := s.tim.clk })
          forEach (s.gangChans q) (fun c s => s.evalChan c) s

/-! ## Step and direction inputs (R357, R358) -/

/-- The STEP-mode gang that takes the captures of TCI[i], and whether it is the direction input. -/
def State.stepGang (s : State) (i : Nat) : Option (Nat × Bool) :=
  match firstIdx 16 (fun q => s.gangKind q == 1 && s.mode (s.pcAxis (4 * q)) == mStep && s.fa (R.PC_STP_CTRL_SIN (4 * q)) != 31 &&
      s.fa (R.PC_STP_CTRL_SIN (4 * q)) == i - i % 2) with
  | some q => some (q, i % 2 == 1)
  | none => none

/-- The level of the latest direction capture at or before `t`. -/
def dirAt (t : Nat) : List (Nat × Bool) → Option Bool
  | [] => none
  | (u, l) :: rest => if dt u t ≤ 0 then some l else dirAt t rest

/-- Direction captures that can still count, newest first: up to and including the first at or before `t`. -/
def dirKeep (t : Nat) : List (Nat × Bool) → List (Nat × Bool)
  | [] => []
  | (u, l) :: rest => if dt u t ≤ 0 then [(u, l)] else (u, l) :: dirKeep t rest

/-- The direction captures of a gang; the latest of captures long ago stands for all of them, as one just before `t`. -/
def State.dirsOf (s : State) (q t : Nat) : List (Nat × Bool) :=
  let g := s.gang q
  if s.longAgo g.dirClk then (match g.dirs with | [] => [] | e :: _ => [(t, e.2)]) else g.dirs

/-- A direction capture. -/
def State.dirCapture (s : State) (q stamp : Nat) (level : Bool) : State :=
  let t := u32 ((stamp : Int) - 100)
  let l := dirKeep t ((stamp, level) :: s.dirsOf q t)
  s.modGang q (fun g => { g with dirs := l, dirClk := s.tim.clk })

/-- A step capture (R358). Before any direction capture the input's level is the pin's, which no command gives. -/
def State.stepCapture (s : State) (q tn : Nat) : State :=
  let g := s.gang q
  let l := 4 * q
  if !s.gangSteps q then s
  else
    let t := u32 ((tn : Int) - 100)
    let dir := dirAt t (s.dirsOf q t)
    let lev := match dir with
      | some b => b
      | none => s.input (392 + s.fa (R.PC_STP_CTRL_SIN l) + 1)
    let s := if dir.isNone then s.burn else s
    let up := lev != s.onA (R.PC_STP_CTRL_DIRPOL l)
    let m := s.f (R.PC_STP_M l)
    let base : Int := if g.left = 0 then m else g.tgt
    let tgt := u32 (base + (if up then 1 else -1) * (s.fa (R.PC_STP_SMUL l) : Int))
    let tmax := s.fa (R.PC_STP_TMAX l)
    let tau := match g.lastStep with
      | none => tmax
      | some t =>
        let d := dt tn t
        if s.longAgo g.stepClk || d < 0 || (tmax : Int) < d then tmax else d.toNat
    let dm := i32 ((tgt : Int) - m)
    let c := tau * 2 / 5
    let want := if c = 0 then 2 ^ 32 else dm.natAbs * 2 ^ 32 / c
    let sat := 2 ^ 30 < want
    let acc := s.accNow q
    let s := if sat then s.raise (R.PC_STP_STAT_SINOVR l) else s
    let s := s.set (R.PC_STP_RATE l) (min want (2 ^ 30))
    let s := s.setGang q
      { g with acc := acc, accAt := s.tim.clk, tgt := tgt, left := dm.natAbs, neg := dm < 0, lastStep := some tn, stepClk := s.tim.clk }
    if s.limStop q (dm < 0) then s.modGang q (fun g => { g with left := 0, tgt := m }) else s

/-! ## The chopper (R359 to R361) -/

/-- Legs of both channels of a phase are evaluated. -/
def State.evalPhase (s : State) (a : Nat) : State := (s.evalChan a).evalChan (a + 1)

/-- The phase with a-leg `a` chops: a STEP2 gang with the chopper on. -/
def State.chops (s : State) (a : Nat) : Bool := s.gangKind (a / 4) == 1 && a % 2 == 0 && s.onA (R.PC_CHP_CTRL_EN a)

/-- The offset in use (R361). -/
def State.chopOfs (s : State) (a : Nat) : Int := if s.onA (R.PC_CHP_CTRL_ADAPT a) then i16 (s.f (R.PC_CHP_MEAN_OFS a)) else 0

def State.chopGo (s : State) (a st : Nat) : State :=
  (s.set (R.PC_CHP_STATE a) st).modChan a (fun x => { x with entered := s.tim.clk, fast := st == 2 && s.fa (R.PC_CHP_CTRL_DECAY a) == 2 })

/-- DRIVE ends (R359). -/
def State.chopDecay (s : State) (a : Nat) : State := (s.chopGo a 2).bump (R.PC_CHP_CNT a)

/-- PB clocks since the state was entered are at least `n`: 2.5 ns each. -/
def State.chopSince (s : State) (a n : Nat) : Bool := decide (5 * n ≤ 2 * (s.tim.clk - (s.chan a).entered))

/-- One sample of the phase current (R359 to R361). A frozen phase keeps its state (R343). -/
def State.chopSample (s : State) (a code : Nat) : State :=
  if !s.chops a then s
  else
    let i := satS 16 ((code : Int) - s.fa (R.PC_CHP_HYS_AZERO a))
    let sp := s.setpoint a
    let neg : Bool := sp < 0
    let m := if neg then -i else i
    let hys := s.fa (R.PC_CHP_HYS_HYS a)
    let o := s.chopOfs a
    let upper := (sp.natAbs : Int) + o + (hys / 2 : Nat)
    let lower := (sp.natAbs : Int) + o - (hys / 2 : Nat)
    let x := s.chan a
    let s := if hys ≤ sp.natAbs then
        s.modChan a (fun x => { x with sumM := x.sumM + m, sumE := x.sumE + ((sp.natAbs : Int) - m), nM := x.nM + 1 })
      else s
    let st := s.f (R.PC_CHP_STATE a)
    let old := if x.neg then -i else i
    let s :=
      if s.on (R.PC_STAT_FROZEN a) || s.on (R.PC_STAT_FROZEN (a + 1)) then s
      else if sp = 0 then (if st = 0 then s else s.chopGo a 0)
      else
        match st with
        | 0 => (s.chopGo a 1).modChan a (fun x => { x with neg := neg })
        | 1 =>
          if x.neg != neg then s.chopGo a 3
          else if upper ≤ m && s.chopSince a (s.fa (R.PC_CHP_T_TBLANK a)) then s.chopDecay a
          else s
        | 2 =>
          if x.neg != neg then s.chopGo a 3
          else if m ≤ lower && s.chopSince a (s.fa (R.PC_CHP_T_TOFFMIN a)) &&
              s.input (pcPin a 4) == s.onA (R.PC_OCCFG_OCPOL a) then s.chopGo a 1
          else s
        | _ => if old ≤ (hys / 2 : Nat) then (s.chopGo a 1).modChan a (fun x => { x with neg := neg }) else s
    s.burn.evalPhase a

/-- MIXED decay: FDT ns after entry the decay is SLOW (R359). -/
def State.fastEnd (s : State) (a : Nat) : State :=
  if s.f (R.PC_CHP_STATE a) = 2 then (s.modChan a (fun x => { x with fast := false })).evalPhase a else s

/-- The end of a cycle: OFS and MEAN (R361). -/
def State.chopCycle (s : State) (a : Nat) : State :=
  let x := s.chan a
  let lim : Int := s.fa (R.PC_CHP_OFS_OFSMAX a)
  let o := if !s.onA (R.PC_CHP_CTRL_ADAPT a) then 0
    else if x.nM = 0 then s.chopOfs a
    else max (-lim) (min lim (s.chopOfs a + Int.tdiv (Int.tdiv x.sumE x.nM) (2 ^ s.fa (R.PC_CHP_OFS_KOFS a))))
  let mean := if x.nM = 0 then 0 else Int.tdiv x.sumM x.nM
  let s := (s.set (R.PC_CHP_MEAN_OFS a) (u16 o)).set (R.PC_CHP_MEAN_MEAN a) (u16 mean)
  s.modChan a (fun x => { x with sumM := 0, sumE := 0, nM := 0 })

/-- The chopper offsets of every phase, and the segments that start, at the boundary of cycle `n`. -/
def State.gangBoundary (s : State) (n : Nat) : State :=
  forN 16 (fun q s =>
    if s.gangKind q = 1 then ((s.chopCycle (4 * q)).chopCycle (4 * q + 2)).segStart q n else s) s

/-! ## The encoder (R362) -/

/-- An edge pair changed both inputs: ENCERR and its record (R362, R430). -/
def State.encErr (s : State) (q : Nat) (g : Gang) : State :=
  ((s.setGang q g).raise (R.PC_STP_STAT_ENCERR (4 * q))).pcReport (4 * q) 10 clsWarn

/-- The gang's encoder inputs now read `a` and `b`. -/
def State.encoderEdge (s : State) (q : Nat) (a b : Bool) : State :=
  if s.gangKind q ≠ 2 || s.fa (R.PC_STP_CTRL_ENC (4 * q)) = 31 then s
  else
    let g := s.gang q
    let da := a != g.encA
    let db := b != g.encB
    let g' := { g with encA := a, encB := b }
    if da && db then s.encErr q g'
    else if !da && !db then s
    else
      let up := if da then a != b else a == b
      let now := s.gnow
      let hist := (now, g.enc) :: (if s.longAgo g.encClk then [] else g.encHist.filter (fun e => decide (dt now e.1 ≤ 1100)))
      s.setGang q { g' with enc := u32 ((g.enc : Int) + (if up then 1 else -1)), encHist := hist, encClk := s.tim.clk }

/-- The count at stamp `t` of the last microseconds (R351): an edge at `t` counts (R229). -/
def encAtStamp (t : Nat) : Nat → List (Nat × Nat) → Nat
  | n, [] => n
  | n, (u, before) :: rest => if 0 < dt u t then encAtStamp t before rest else n

/-! ## Over-current, the external carrier -/

/-- A filtered PC_ISNS detection (R332, R343, R359). -/
def State.overcurrent (s : State) (c : Nat) : State :=
  let mode := s.fa (R.PC_OCCFG_OCMODE c)
  let latch (s : State) : State := s.fault c (R.PC_STAT_OC c) 4 clsFault
  if mode = 0 then s
  else if s.on (R.PC_STAT_FROZEN c) || mode = 2 then latch s
  else if mode = 1 then
    let s := s.count (R.PC_OC_CNT c)
    match (if s.pcMode c = 4 then (s.chan c).shot else none) with
    | none => (s.modChan c (fun x => { x with ocForce := true })).evalAround c
    | some h =>
      if h.hold then (s.modChan c (fun x => { x with shot := some { h with on := false }, edges := [] })).evalAround c
      else
        -- the peak ends here, and the hold phase starts at this instant
        let ran := min h.dur (dt (s.shotNow c) h.ton).toNat
        (s.modChan c (fun x => { x with shot := some { h with vpeak := ran } })).holdPeriod c
  else if s.chops c && s.f (R.PC_CHP_STATE c) = 1 then ((s.chopDecay c).count (R.PC_OC_CNT c)).evalPhase c
  else s

/-- The period in progress ends `u` after its start: the edges beyond are not reached, and the windows of the next period start
from the requests there (R323, R325). -/
def State.cutPeriod (s : State) (c u : Nat) : State :=
  if s.pcMode c == 4 then s
  else
    let x := s.chan c
    let here := (s.rawPeriod c x.tc x.k (x.raw0H, x.raw0L)).filter (fun w => w.1 < u)
    let raw := match here.getLast? with | some w => w.2 | none => (x.raw0H, x.raw0L)
    s.setChan c { x with edges := x.edges.filter (fun w => w.1 < u), rawH := raw.1, rawL := raw.2, ivAt := intervalAt 0 u here }

/-- A rising edge of PB_SYNCIN[b], stamped at detection minus its 2-clock filter (R323). -/
def State.syncinEdge (s : State) (b : Nat) : State :=
  forN 16 (fun j s =>
    let c := 16 * b + j
    if s.fa (R.PC_CTRL_SYNC c) = 2 then
      let t := u32 ((s.gnow : Int) - 5 + s.fa (R.PC_PHASE c))
      (s.modChan c (fun x => { x with extAt := some t })).cutPeriod c ((dt t (s.chan c).startAt * 32 / 5).toNat)
    else s) s

/-- Analog conversions carried to TIM (R333, R362, R504): the triggers whose stamp is reached have started theirs. -/
def State.adcConvert (s : State) (k ain code : Nat) : State :=
  let a := SMap.put (fun _ => 0) s.pwr.adc ain code
  { s with pwr := { s.pwr with adc := SMap.put (fun _ => 0) a (128 + k) code,
                               trig := s.pwr.trig.filter (fun t => decide (0 < dt t.2 s.gnow)),
                               adcCyc := SMap.put (fun _ => 0) s.pwr.adcCyc (128 * k + ain) (s.cyc + 1) } }

/-! ## Event commands of channels and gangs -/

/-- CARRIER_PERIOD_START (R323 to R326, R333). -/
def execCarrierPeriodStart (ch : Fin 64) (s : State) : Res := .next (s.carrierStart ch)
/-- SYNCIN_EDGE (R323). -/
def execSyncinEdge (bank : Fin 4) (s : State) : Res := .next (s.syncinEdge bank)
/-- SYNC_LOSS (R323): the periods continue as FREE; an edge of the same stamp wins (R229). -/
def execSyncLoss (ch : Fin 64) (s : State) : Res :=
  .next (if s.fa (R.PC_CTRL_SYNC ch) = 2 && !s.arrives (fun i => match i with | .syncinEdge b => b.val == ch.val / 16 | _ => false) then
    s.raise (R.PC_STAT_SYNCLOSS ch) else s)
/-- SYNCOUT_PULSE_END (R324): 100 ns after a period start the pulse ends; the pin is the OR of those that run. -/
def execSyncoutPulseEnd (bank : Fin 4) (s : State) : Res :=
  .next { s with pwr := { s.pwr with
    syncOut := SMap.put (fun _ => 0) s.pwr.syncOut bank (SMap.get (fun _ => 0) s.pwr.syncOut bank - 1) } }
/-- COMPARE_EDGE (R325, R327). -/
def execCompareEdge (ch : Fin 64) (s : State) : Res := .next (s.compareEdge ch)
/-- PULSE_SET (R328). -/
def execPulseSet (ch : Fin 64) (s : State) : Res := .next (s.pulseSet ch)
/-- EN_RISE (R328). -/
def execEnRise (ch : Fin 64) (s : State) : Res := .next (s.enRise ch)
/-- GOFF_TIMEOUT (R329). -/
def execGoffTimeout (ch : Fin 64) (s : State) : Res := .next (s.goffTimeout ch)
/-- GON_TIMEOUT (R329). -/
def execGonTimeout (ch : Fin 64) (s : State) : Res := .next (s.gonTimeout ch)
/-- OVERCURRENT_DETECT (R332). -/
def execOvercurrentDetect (ch : Fin 64) (s : State) : Res := .next (s.overcurrent ch)
/-- ADC_CONVERSION (R333, R504). -/
def execAdcConversion (k : Fin 16) (ain : Fin 80) (code : BitVec 16) (s : State) : Res :=
  .next (s.adcConvert k ain code.toNat)
/-- SHOT_START (R336, R337, R340). -/
def execShotStart (ch : Fin 64) (s : State) : Res := .next (s.shotStart ch)
/-- DEFERRED_SHOT_START (R341). -/
def execDeferredShotStart (g : Fin 16) (s : State) : Res := .next (s.deferredStart g)
/-- SHOT_PEAK_END (R337). -/
def execShotPeakEnd (ch : Fin 64) (s : State) : Res := .next (s.shotPeakEnd ch)
/-- HOLD_PERIOD_START (R337). -/
def execHoldPeriodStart (ch : Fin 64) (s : State) : Res := .next (s.holdPeriod ch)
/-- SHOT_END (R337). -/
def execShotEnd (ch : Fin 64) (s : State) : Res := .next (s.shotEnd ch)
/-- CHARGE_PUMP_FAULT (R342). -/
def execChargePumpFault (g : Fin 16) (s : State) : Res := .next (s.pumpFault g)
/-- HALT_DWELL_EXPIRY (R346). -/
def execHaltDwellExpiry (ch : Fin 64) (s : State) : Res :=
  .next (if s.on (R.PC_STAT_DWELLRUN ch) && !s.dwellEnds ch then
    (s.clr (R.PC_STAT_DWELLRUN ch)).fault ch (R.PC_STAT_HDWELL ch) 5 clsFault else s)
/-- MICROSTEP (R354). -/
def execMicrostep (gang : Fin 16) (s : State) : Res := .next (s.microstep gang)
/-- HOLD_CURRENT_TIMEOUT (R353). -/
def execHoldCurrentTimeout (gang : Fin 16) (s : State) : Res := .next (s.holdTimeout gang)
/-- CHOPPER_SAMPLE (R359 to R361). -/
def execChopperSample (ch : Fin 64) (code : BitVec 16) (s : State) : Res := .next (s.chopSample ch code.toNat)
/-- FAST_DECAY_END (R359). -/
def execFastDecayEnd (ch : Fin 64) (s : State) : Res := .next (s.fastEnd ch)
/-- ENCODER_EDGE (R362). -/
def execEncoderEdge (gang : Fin 16) (a b : Bool) (s : State) : Res := .next (s.encoderEdge gang a b)

end Sys2Proof.Machine
end

