-- ==== Sys2Proof/Machine/Ident.lean ====
section
/-! DEFINITION. What every file over the axes shares: the phases and the loop period of an axis (R83, R97); and the
identification sweep (R127 to R133): its entry checks, excitation, correlation and result buffer. -/

namespace Sys2Proof.Machine

open F32 (add sub mul fma fms div sqrt)

/-! ## Phases and periods -/

/-- SPH and APH of an axis (R83): its ring's, its brushless gang's LSPH and LAPH (R363), or none. -/
def State.phases (s : State) (n : Nat) : Nat × Nat :=
  match s.boundNode n with
  | some (r, _) => (s.fa (R.RING_SPH r), s.fa (R.RING_APH r))
  | none =>
    match s.axisGang n with
    | some (q, 2) => (s.fa (R.PC_STP_LSPH (4 * q)), s.fa (R.PC_STP_LAPH (4 * q)))
    | _ => (0, 0)

/-- 2^k × TCYC in ns (R97). -/
def State.loopNs (s : State) (n : Nat) : Nat := 2 ^ s.rateK n * s.tcyc
/-- L_SA in ns (R83). -/
def State.lsa (s : State) (n : Nat) : Int := (s.loopNs n : Int) + ((s.phases n).2 : Int) - ((s.phases n).1 : Int)
/-- T_s as binary32 seconds (R97). -/
def State.loopSecs (s : State) (n : Nat) : FM Word := secs (s.loopNs n)
/-- The instant S(N) of an axis (R83). -/
def State.sampleInst (s : State) (n cyc : Nat) : Inst := ⟨cyc, ((s.phases n).1 : Int)⟩

/-! ## Constants and the power of R128 -/

/-- 2π (R94). -/
def f32TwoPi : Word := 0x40C90FDA
/-- 0.4 (R94). -/
def f32TwoFifths : Word := 0x3ECCCCCC
/-- 2^32 and its inverse. -/
def f32Pow32 : Word := 0x4F800000
def f32Inv32 : Word := 0x2F800000

/-- Fixed-point bits of the power. -/
def powP : Nat := 256
/-- 2 × atanh(a / b) in fixed point, for a ≤ b / 3. -/
def atanh2Go (z2 : Nat) : Nat → Nat → Nat → Nat → Nat
  | 0, _, _, acc => acc
  | n + 1, t, k, acc => atanh2Go z2 n (t * z2 / 2 ^ powP) (k + 2) (acc + t / k)
def atanh2 (a b : Nat) : Nat :=
  let z := a * 2 ^ powP / b
  2 * atanh2Go (z * z / 2 ^ powP) 90 z 1 0
/-- e^x in fixed point for x below 1. -/
def expGo (x : Nat) : Nat → Nat → Nat → Nat → Nat
  | 0, _, _, acc => acc
  | n + 1, t, k, acc => expGo x n (t * x / 2 ^ powP / k) (k + 1) (acc + t)
def expFix (x : Nat) : Nat := expGo x 70 (2 ^ powP) 1 0

/-- r^e for finite r ≥ 1 and 0 ≤ e ≤ 1, rounded toward zero (R94). -/
def powW (r e : Word) : FM Word :=
  match F32.ofWord r, F32.ofWord e with
  | .fin false m x, .fin false me xe =>
    let l := Nat.log2 m
    let k : Nat := ((l : Int) + x).toNat
    let ln2 := atanh2 1 3
    let lnr := k * ln2 + atanh2 (m - 2 ^ l) (m + 2 ^ l)
    let y := if xe ≥ 0 then lnr * me * 2 ^ xe.toNat else lnr * me / 2 ^ (-xe).toNat
    let q := y / ln2
    F32.round false (expFix (y - q * ln2) + 2 ^ 100) ((q : Int) - (powP : Int))
  | _, _ => pure F32.one

/-- f_i of R128. -/
def State.identFreq (s : State) (n i : Nat) : FM Word := do
  let f0 := s.wa (R.AX_ID_F0 n)
  let r ← div (s.wa (R.AX_ID_F1 n)) f0
  let fi ← F32.ofInt i
  let fm ← F32.ofInt ((s.fa (R.AX_ID_CFG_STEPS n) : Int) - 1)
  let e ← div fi fm
  let p ← powW r e
  mul f0 p

/-- PINC_i of R128, with the loop period `ts`. -/
def State.identPinc (s : State) (n i : Nat) (ts : Word) : FM Nat := do
  let f ← s.identFreq n i
  let t ← mul f ts
  let t ← mul t f32Pow32
  let z ← F32.toU32 t
  pure z.toNat

/-- φ = 2π × acc / 2^32 (R131). -/
def identPhase (acc : Nat) : FM Word := do
  let a ← F32.ofInt acc
  let p ← mul f32TwoPi a
  mul p f32Inv32

/-- e(n) of R128. -/
def State.identExcite (s : State) (n : Nat) : FM Word := do
  let ph ← identPhase (s.ax n).ident.acc
  let sn ← F32.sin ph
  mul (s.wa (R.AX_ID_AMP n)) sn

/-! ## Result buffer (R133) -/

def State.identBuf (s : State) (n : Nat) : Nat := s.fa (R.AX_ID_BUF_LO n) + 2 ^ 32 * s.fa (R.AX_ID_BUF_HI n)

/-- Bytes stored in the buffer with the owning domain's rights. -/
def State.identStore (s : State) (n ofs : Nat) (bs : List Byte) : State :=
  let a := s.identBuf n + ofs
  if s.engOk islDSP (s.owner n) a bs.length .write then s.store a bs else s.engRefused (s.owner n) a bs.length .write

/-- The header (R133): STATE 0 RUNNING, 1 DONE, 2 ABORTED. -/
def State.identHeader (s : State) (n state reason : Nat) : State :=
  let x := (s.ax n).ident
  s.identStore n 0 (leBytes 1 state ++ leBytes 1 reason ++ leBytes 2 (s.fa (R.AX_ID_CFG_STEPS n)) ++ leBytes 2 x.step ++
    leBytes 2 0 ++ leBytes 4 x.lsa ++ leBytes 4 x.ts.toNat ++ leBytes 16 0 ++ leBytes 32 x.mask)

/-- The record of the step in progress (R131, R133): the sums scaled by 2 / N_VALID. -/
def State.identRecord (s : State) (n : Nat) (complete : Bool) : State :=
  let x := (s.ax n).ident
  let words : List Word := F32.val (do
    let pinc ← s.identPinc n x.step x.ts
    let fp ← F32.ofInt pinc
    let fa ← mul fp f32Inv32
    let fa ← div fa x.ts
    let nv ← F32.ofInt x.nv
    let k ← div F32.two nv
    let a ← mul x.ure k
    let b ← mul x.uim k
    let c ← mul x.yre k
    let d ← mul x.yim k
    pure [fa, a, b, c, d])
  s.identStore n (64 + 32 * x.step) ((words.map (fun w => leBytes 4 w.toNat)).flatten ++ leBytes 2 (min x.nv 65535) ++
    leBytes 2 (min x.nl 65535) ++ leBytes 4 (x.cFirst.getD 0) ++
    leBytes 1 (b2n complete + 2 * b2n x.held + 4 * b2n x.sat) ++ leBytes 3 0)

/-- The sweep is aborted (R132): the partial results are written. The axis enters HOLD at its next activation (`identLeave`). -/
def State.identAbort (s : State) (n reason : Nat) : State :=
  if s.on (R.AX_STATUS_IDRUN n) then ((s.identRecord n false).identHeader n 2 reason).clr (R.AX_STATUS_IDRUN n) else s

/-- A splice ends the sweep in the unit that takes over: it holds the axis, and the results stay with the other unit (R132). -/
def State.identTaken (s : State) (n : Nat) : State := s.clr (R.AX_STATUS_IDRUN n)

/-! ## Entry (R127) -/

/-- The conditions of an entry to IDENT beside HOLD and the standard loop. -/
def State.identOk (s : State) (n : Nat) : Bool :=
  let steps := s.fa (R.AX_ID_CFG_STEPS n)
  let f0 := s.wa (R.AX_ID_F0 n)
  let f1 := s.wa (R.AX_ID_F1 n)
  let lim := F32.val (do
    let ts ← s.loopSecs n
    div f32TwoFifths ts)
  2 ≤ steps && steps ≤ 256 && s.fa (R.AX_ID_N_NMEAS n) != 0 && F32.gt f0 0 && F32.ge f1 f0 && F32.le f1 lim &&
    s.engOk islDSP (s.owner n) (s.identBuf n) (64 + 32 * steps) .write

/-- The sweep starts: the header is written before the first step. -/
def State.identStart (s : State) (n : Nat) : State :=
  let ts := F32.val (s.loopSecs n)
  let s := s.modAx n (fun x => { x with ident := { ts := ts, lsa := u32 (s.lsa n) } })
  (s.raise (R.AX_STATUS_IDRUN n)).identHeader n 0 0

/-! ## Sampling (R129 to R131) -/

/-- No fallback payload was applied in the previous ID_GUARD cycles (R130): inserted by the release unit, or reported by
the node, whose report also spoils its own sample. -/
def State.identGuardOk (s : State) (n cyc : Nat) : Bool :=
  let g : Int := s.fa (R.AX_ID_CFG_GUARD n)
  let x := s.ax n
  x.fbAt.all (fun m => let d := dt cyc m; decide (d < 1 ∨ g < d)) &&
    x.nodeFbAt.all (fun m => let d := dt cyc m; decide (d < 0 ∨ g < d))

/-- A step ends with its record; the last ends the sweep (R131, R132). -/
def State.identStepEnd (s : State) (n : Nat) : State :=
  let s := s.identRecord n true
  let x := (s.ax n).ident
  let mask := x.mask ||| 2 ^ x.step
  if x.step + 1 ≥ s.fa (R.AX_ID_CFG_STEPS n) then
    let s := s.modAx n (fun a => { a with ident := { a.ident with mask := mask } })
    let s := ((s.identHeader n 1 0).clr (R.AX_STATUS_IDRUN n)).modAx n (fun a => { a with ran := mHold })
    if s.mode n = mIdent then s.setMode n mHold else s
  else
    let s := s.modAx n (fun a => { a with ident :=
      { step := x.step + 1, acc := x.acc, mask := mask, ts := x.ts, lsa := x.lsa } })
    s.identHeader n 0 0

/-- The step is aborted when N_VALID + N_LOST reaches 16 × ID_NMEAS (R131). -/
def State.identTimedOut (s : State) (n : Nat) : Bool :=
  let x := (s.ax n).ident
  decide (16 * s.fa (R.AX_ID_N_NMEAS n) ≤ x.nv + x.nl)

/-- `k` cycles of the axis gave no valid sample: after the settling they are counted as lost (R131). -/
def State.identLost (s : State) (n k : Nat) : State :=
  let x := (s.ax n).ident
  if k = 0 || x.settle < s.fa (R.AX_ID_N_NSET n) then s
  else s.modAx n (fun a => { a with ident := { a.ident with nl := a.ident.nl + k, held := true } })

/-- acc advances by the PINC of step `i` (R128). -/
def State.identAdvance (s : State) (n i : Nat) : State :=
  let p := F32.val (s.identPinc n i (s.ax n).ident.ts)
  s.modAx n (fun a => { a with ident := { a.ident with acc := (a.ident.acc + p) % 2 ^ 32 } })

/-- One activation of the sweep with u(n) and y(n): `ok` for a valid sample, `sat` when a limit acted on u. -/
def State.identSample (s : State) (n cyc : Nat) (u y : Word) (ok sat : Bool) : State :=
  let x := (s.ax n).ident
  if x.settle < s.fa (R.AX_ID_N_NSET n) then
    s.modAx n (fun a => { a with ident := { a.ident with settle := a.ident.settle + 1 } })
  else
    let s :=
      if ok then
        let r := F32.val (do
          let ph ← identPhase x.acc
          let c ← F32.cos ph
          let q ← F32.sin ph
          let a ← fma u c x.ure
          let b ← fma u (F32.neg q) x.uim
          let e ← fma y c x.yre
          let f ← fma y (F32.neg q) x.yim
          pure (a, b, e, f))
        s.modAx n (fun a => { a with ident := { a.ident with
          nv := a.ident.nv + 1, ure := r.1, uim := r.2.1, yre := r.2.2.1, yim := r.2.2.2,
          cFirst := some (a.ident.cFirst.getD cyc), sat := a.ident.sat || sat } })
      else s.identLost n 1
    if (s.ax n).ident.nv ≥ s.fa (R.AX_ID_N_NMEAS n) then s.identStepEnd n else s

/-- The sweep's part of an activation: `missed` cycles of the axis gave none since the last one. acc advances by the PINC of the
step the activation belongs to (R128, R131). -/
def State.identActivation (s : State) (n cyc missed : Nat) (u y : Word) (ok sat : Bool) : State :=
  let i := (s.ax n).ident.step
  ((s.identLost n missed).identSample n cyc u y ok sat).identAdvance n i

/-- STEP_TIMEOUT (R131, R132). -/
def execStepTimeout (a : Fin 256) (s : State) : Res :=
  .next (if s.on (R.AX_STATUS_IDRUN a) && s.identTimedOut a then s.identAbort a 5 else s)

end Sys2Proof.Machine
end

