-- ==== Sys2Proof/Machine/AxisBlock.lean ====
section
/-! DEFINITION. The axis block (spec/07_axis_block.md): the supervisor (R120 to R126), landings (R194), commit groups and
their checks (R180 to R193), release deadlines and fallback payloads (R84 to R88, R125, R126), limit inputs (R159, R160). -/

namespace Sys2Proof.Machine

/-! ## The supervisor (R120 to R123) -/

/-- The stamp now in the time domain of an axis. -/
def State.axNow (s : State) (n : Nat) : Nat := s.rnow (s.axisDom n)

/-- Channels of the axis's gang or valve take up a mode change (R338, R350). -/
def State.evalAxisChans (s : State) (n : Nat) : State :=
  match s.axisChan n with
  | none => s
  | some c => s.evalAround c

/-- What is left of a segment or an input target of the axis's gang is dropped, or only what points `neg` (R358, R364). -/
def State.gangDrop (s : State) (n : Nat) (side : Option Bool) : State :=
  match s.axisGang n with
  | some (q, 1) =>
    let g := s.gang q
    if g.left != 0 && (match side with | none => true | some b => g.neg == b) then
      s.setGang q { g with left := 0, segLeft := 0, tgt := s.f (R.PC_STP_M (4 * q)) }
    else s
  | _ => s

/-- The active mode changed: shots of a mode left end (R338), a gang's segment or input target ends with OFF and with a change to
or from STEP (R350, R357), and an axis in OFF enables nothing by itself (R99). -/
def State.modeLeft (s : State) (n old new : Nat) : State :=
  let s := if old = mValve && new ≠ mValve then s.valveLeave n else s
  let s := if old ≠ new && (new = mOff || new = mStep || old = mStep) then s.gangDrop n none else s
  let s := if new = mOff then s.modAx n (fun x => { x with armed := false }) else s
  s.evalAxisChans n

/-- The active mode of an axis becomes `m` by hardware (R182), with what hangs on the mode. -/
def State.hwMode (s : State) (n m : Nat) : State :=
  let old := s.mode n
  (s.setMode n m).modeLeft n old m

/-- A hitch is dropped. -/
def State.dropHitch (s : State) (n : Nat) : State :=
  ((s.clr (R.AX_STATUS_HWAIT n)).clr (R.AX_STATUS_HLOCK n)).modAx n (fun x => { x with hitch := {} })

/-- A supervisor action (R122): HOLD and RAMP wait for the next activation, STO acts at once, SIGNAL raises the interrupt. -/
def State.superAct (s : State) (n act : Nat) : State :=
  match act with
  | 0 => if s.mode n = mOff then s else (s.identAbort n 3).modAx n (fun x => { x with hold := true })
  | 1 => if s.mode n = mOff then s else (s.identAbort n 3).modAx n (fun x => { x with ramp := true })
  | 2 =>
    let s := (s.identAbort n 3).modAx n (fun x => { x with armed := false, hold := false, ramp := false, hard := false, lim := none })
    s.hwMode n mOff
  | _ => s.raiseSupervisor n

/-- Action field and STATUS bit of an event: 0 FE, 1 FBLOSS, 2 NODEMISS, 3 OVC, 4 LATE (R120, R193). -/
def State.eventAct (s : State) (n ev : Nat) : Nat := bits (s.actReg (R.AX_SUP n)) (2 * ev + 1) (2 * ev)
def eventBit (n ev : Nat) : Fld := ⟨R.AX_STATUS n, ev, ev⟩

/-- HOLD and RAMP of FBLOSS, NODEMISS and LATE are carried out as STO (R123). -/
def substituted (ev act : Nat) : Bool := (ev == 1 || ev == 2 || ev == 4) && act ≤ 1

/-- The order of the actions (R123): STO, RAMP, HOLD, SIGNAL. -/
def actRank (act : Nat) : Nat :=
  match act with
  | 2 => 3
  | 1 => 2
  | 0 => 1
  | _ => 0

def strongest (acts : List Nat) : Nat := acts.foldl (fun a b => if actRank a < actRank b then b else a) 3

/-- The action an event alone asks for (R123). -/
def State.ownAct (s : State) (n ev : Nat) : Nat := if substituted ev (s.eventAct n ev) then 2 else s.eventAct n ev

/-- The action taken at stamp `t` for an event of the same stamp that came before. -/
def State.actTaken (s : State) (n t : Nat) : Option Nat :=
  match (s.ax n).tdAct with
  | some (t', c, a) => if t' = t && s.tim.clk - c < 2 ^ 31 then some a else none
  | none => none

/-- Supervisor events of one t_d (R120, R122, R123): each is latched and logged with the action taken, which is the strongest of
all; an action that was taken at this stamp before is not taken again. None occurs for a virtual axis (R158). -/
def State.supervise (s : State) (n : Nat) (evs : List Nat) : State :=
  if s.axKind n = kVirtual || evs.isEmpty then s
  else
    let t := s.axNow n
    let before := s.actTaken n t
    let act := strongest (evs.map (s.ownAct n) ++ before.toList)
    let s := forEach evs (fun ev s =>
      ((s.raise (eventBit n ev)).set (R.AX_T_D n) t).report (srcOf 3 (n * 8 + ev)) clsFault (s.owner n)
        [t, act, b2n (substituted ev (s.eventAct n ev))]) s
    let s := s.modAx n (fun x => { x with tdAct := some (t, s.tim.clk, act) })
    if before = some act then s else s.superAct n act

/-- A node of the axis is declared missing (R73, R120). -/
def State.nodeMissEvent (s : State) (n : Nat) : State := (s.identAbort n 1).supervise n [2]

/-- Any event bit FE to LATE is latched (R122). -/
def State.eventLatched (s : State) (n : Nat) : Bool := bits (s.reg (R.AX_STATUS n)) 4 0 != 0
/-- LIMP or LIMN is latched. -/
def State.limitLatched (s : State) (n : Nat) : Bool := bits (s.reg (R.AX_STATUS n)) 6 5 != 0
/-- A stop of class 2 or 3 runs or waits for its activation (R147). -/
def State.stopRuns (s : State) (n : Nat) : Bool :=
  let x := s.ax n
  x.hard || x.hold || x.ramp || x.lim.isSome || x.stop == 3

/-! ## Landings (R194, R121) -/

/-- Following error e_s with 16 fractional bits (R121). -/
def State.followErr (s : State) (n : Nat) : Int := s.s64 (R.AX_X_REF_LO n) (R.AX_X_REF_HI n) - s.xAct n * 65536

/-- FE is evaluated in these modes. -/
def feMode (m : Nat) : Bool := m == mHold || m == mProfile || m == mHitch || m == mIdent

/-- The landing exceeds FE_LIM in a mode that evaluates it. -/
def State.feExceeds (s : State) (n : Nat) : Bool :=
  feMode (s.mode n) && decide (s.fa (R.AX_FE_LIM n) * 65536 < (s.followErr n).natAbs)

/-- The following-error timer at a landing stamped `t` (R121). -/
def State.feTimer (s : State) (n t : Nat) : State :=
  if !s.feExceeds n then s.modAx n (fun x => { x with feAt := none, feDone := false })
  else if s.fa (R.AX_FE_TIME n) = 0 then s.modAx n (fun x => { x with feDone := true })
  else if (s.ax n).feDone then s
  else s.modAx n (fun x => { x with feAt := some (x.feAt.getD t) })

/-! ## Stops that wait (R160, R95) -/

/-- A limit stop whose t_l is at or before the stamp of the wake is carried out by this activation (R160). -/
def State.limDue (s : State) (n stamp : Nat) : State :=
  match (s.ax n).lim with
  | some (t, r) =>
    if 0 ≤ dt stamp t then s.modAx n (fun x => { x with lim := none, hard := x.hard || !r, ramp := x.ramp || r }) else s
  | none => s

/-- The stamp that wakes the activation: of the landing, or of the mark of a virtual axis (R158, R160). -/
def State.wakeStamp (s : State) (n : Nat) : Nat :=
  if s.axKind n = kVirtual then (s.ax n).sStamp else s.f (R.AX_FB_STAMP n)

/-- A stop binds a user program too (R95): at the wake that would carry it out the mode becomes HOLD. The motion to a stop is the
program's own. -/
def State.userStops (s : State) (n : Nat) : State :=
  let s := s.limDue n (s.wakeStamp n)
  let x := s.ax n
  if x.hard || x.hold || x.ramp then
    let s := (s.dropHitch n).modAx n (fun x => { x with hard := false, hold := false, ramp := false, stop := 0, ran := mHold })
    if s.mode n = mOff then s else s.hwMode n mHold
  else s.modAx n (fun x => { x with ran := s.mode n })

/-- A wake of cycle `c` (R88, R96): the activation it starts runs with the active set as it stands; a user program's stops are
due. -/
def State.wokenIn (s : State) (n c : Nat) : State :=
  if s.onA (R.AX_CTRL_LOOP n) then s.userStops n else s.modAx n (fun x => { x with woken := some c, old := none })

/-- The axis's strand is woken in cycle `c` (R88). -/
def State.inPhase (s : State) (n c : Nat) : Bool :=
  c % 2 ^ s.rateK n == s.fa (R.AX_CTRL_RPHASE n) % 2 ^ s.rateK n

/-- A landing of the axis's feedback (R194): snapshot, position, following error, over-current, operand tag. -/
def State.landing (s : State) (n : Nat) (f : Feedback) : State :=
  if s.axKind n = kVirtual then s -- R194
  else
  let t := s.axNow n
  let astat := f.s.astat.toNat
  let ok := bit astat 2 && !bit astat 1
  let nb := s.f (R.AX_AXCAP_POS_BITS n)
  let s := (s.set (R.AX_FB0_IA n) f.s.ia.toNat).set (R.AX_FB0_ASTAT n) astat
  let s := (s.set (R.AX_FB1_IC n) f.s.ic.toNat).set (R.AX_FB1_IB n) f.s.ib.toNat
  let s := ((s.set (R.AX_POS n) f.s.pos.toNat).set (R.AX_FB3_AUX n) f.s.aux.toNat).set (R.AX_FB3_VBUS n) f.s.vbus.toNat
  let s := ((s.set (R.AX_NSTAT_NERR n) f.nerr).set (R.AX_NSTAT_NKNOT n) f.nknot).set (R.AX_NSTAT_NSTAT n) f.nstat
  let s := (s.set (R.AX_FB_CYC n) f.cyc).set (R.AX_FB_STAMP n) t
  let s := (s.setB (R.AX_VALID_VALID n) ok).setB (R.AX_STATUS_FBINVALID n) (!ok)
  let s :=
    if ok && nb != 0 then
      let d := sw nb ((f.s.pos.toNat : Int) - s.f (R.AX_POS_PREV n))
      (s.set64 (R.AX_X_ACT_LO n) (R.AX_X_ACT_HI n) (s.xAct n + d)).set (R.AX_POS_PREV n) f.s.pos.toNat
    else s
  let s := s.set (R.AX_E_S n) (F32.val (F32.roundInt (s.followErr n) (-16) false)).toNat
  let s := s.modAx n (fun x =>
    { x with sStamp := u32 ((s.cstartOf (s.axisDom n) f.cyc : Int) + (s.phases n).1),
             validCyc := if ok then some f.cyc else x.validCyc,
             nodeFbAt := if f.nstat % 4 != 0 then (f.cyc :: x.nodeFbAt).take 17 else x.nodeFbAt })
  let fe := s.feExceeds n && s.fa (R.AX_FE_TIME n) == 0 && !(s.ax n).feDone
  let s := (s.feTimer n t).supervise n ((if fe then [0] else []) ++ (if bit astat 1 then [3] else []))
  if s.axKind n != kUnused && s.inPhase n f.cyc then (s.wokenIn n f.cyc).fillTag (s.f (R.AX_FB_TAG_TAG n)) f.cyc else s

/-- The landing that waits for the axis (R194). -/
def State.feedbackLanding (s : State) (n : Nat) : State :=
  match (s.ax n).pending with
  | none => s
  | some f => (s.modAx n (fun x => { x with pending := none })).landing n f

/-- The boundary of cycle `n` ends cycle n − 1: an axis that should have landed and did not count a loss (R120). -/
def State.lossBoundary (s : State) (n : Nat) : State :=
  forN 256 (fun a s =>
    let due : Bool :=
      match s.boundNode a with
      | some (r, _) => s.axKind a == kNetwork && 2 ≤ s.f (R.RING_STAT_STATE r) && s.f (R.RING_STAT_STATE r) ≤ 6
      | none => s.axKind a == kLocal && (s.axisGang a).isSome
    if !due then s
    else if (s.ax a).validCyc = some (u32 ((n : Int) - 1)) then s.modAx a (fun x => { x with lossRun := 0, lossDone := false })
    else (s.raise (R.AX_STATUS_FBINVALID a)).modAx a (fun x => { x with lossRun := x.lossRun + 1 })) s

/-! ## Local landings (R338, R351) -/

/-- The landing of gang `q` in the cycle in progress (R351). -/
def State.gangLanding (s : State) (q : Nat) : State :=
  let c := 4 * q
  let kind := s.gangKind q
  if kind ≠ 1 && kind ≠ 2 then s
  else
    let n := s.pcAxis c
    let chans := s.gangChans q
    let en := chans.all (fun c => s.on (R.PC_CTRL_EN c))
    let oc := chans.any (fun c => s.on (R.PC_STAT_OC c))
    let encErr := s.on (R.PC_STP_STAT_ENCERR c)
    let astat := b2n en + 2 * b2n oc + 4 * b2n (kind == 1 || !encErr)
    let cur (x : Nat) : BitVec 16 :=
      if kind = 1 then (if x = 2 then 0 else BitVec.ofNat 16 (s.f (R.PC_CHP_MEAN_MEAN (c + 2 * x))))
      else
        let ch := c + x
        let code := SMap.get (fun _ => 0) s.pwr.adc (s.fa (R.PC_CHP_CTRL_AIN ch))
        BitVec.ofNat 16 (u16 (satS 16 ((code : Int) - s.fa (R.PC_CHP_HYS_AZERO ch))))
    let pos := if kind = 1 then s.f (R.PC_STP_M c)
      else encAtStamp (u32 ((s.cstart s.grid : Int) + s.fa (R.PC_STP_LSPH c))) (s.gang q).enc
        (if s.longAgo (s.gang q).encClk then [] else (s.gang q).encHist)
    let s := ((s.set (R.AX_AXCAP_POS_BITS n) 32).set (R.AX_AXCAP_SPLITS n) 1).set (R.AX_I_FS n) (s.fa (R.PC_STP_IFS c))
    s.landing n { cyc := s.cyc, s := { astat := BitVec.ofNat 16 astat, ia := cur 0, ib := cur 1, ic := cur 2,
                                       pos := toW pos, vbus := BitVec.ofNat 16 (s.f (R.PC_STP_VBUS c)), aux := 0 } }

/-- Landings of valve axes at the boundary of cycle `n` (R338). -/
def State.valveLandings (s : State) (n : Nat) : State :=
  forN 64 (fun c s =>
    if s.pcMode c == 4 && s.onA (R.PC_CTRL_AXEN c) then
      let astat := b2n (s.on (R.PC_CTRL_EN c)) + 2 * b2n (s.on (R.PC_STAT_OC c)) + 4
      s.landing (s.pcAxis c) { cyc := n, s := { astat := BitVec.ofNat 16 astat, ia := 0, ib := 0, ic := 0,
                                                pos := toW (s.f (R.PC_SHOT_CNT c)), vbus := 0, aux := 0 } }
    else s) s

/-! ## Limit inputs (R159 to R161) -/

/-- A limit of the axis is detected at t_l = `t`: latch, record, and the stop waits for the first activation woken at or after
t_l (R160). ACT 0 HARD, 1 RAMP. -/
def State.limitAt (s : State) (n : Nat) (neg : Bool) (t : Nat) : State :=
  let s := s.raise (if neg then R.AX_STATUS_LIMN n else R.AX_STATUS_LIMP n)
  let s := s.report (srcOf 3 (n * 8 + 6)) clsWarn (s.owner n) [b2n neg, t]
  let s := if s.onA (R.PC_STP_CTRL_LIMHW ((s.axisChan n).getD 0)) then s.gangDrop n (some neg) else s -- R364
  if s.mode n = mOff then s
  else
    let r := s.onA (R.AX_LIM_ACT n)
    (s.identAbort n 3).modAx n (fun x => { x with lim := match x.lim with
      | some (t0, r0) => some (if dt t t0 < 0 then t else t0, r0 && r)
      | none => some (t, r) })

/-- A limit input of the axis is detected now. -/
def State.limitHit (s : State) (n : Nat) (neg : Bool) : State := s.limitAt n neg (s.axNow n)

/-- The input's pin index; 0xFF disables it (R159). -/
def State.limPin (s : State) (n : Nat) (neg : Bool) : Nat := s.fa (if neg then R.AX_LIM_NPIN n else R.AX_LIM_PPIN n)

/-- The input is active now: its level, which no command gives, against LIM.POL (R159). -/
def State.limActive (s : State) (n : Nat) (neg : Bool) : Bool :=
  s.limPin n neg != 0xFF && s.input (424 + s.limPin n neg) == bit (s.fa (R.AX_LIM_POL n)) (if neg then 1 else 0)

/-! ## Commit groups (R180 to R193) -/

/-- How a group, or an entry of a knot, fared: taken; a failure of its values; a refusal by the axis's state (R208); or taken with
the start it carries refused, on its values or by the axis's state (R142, R186). -/
inductive Take where
  | ok
  | value
  | state
  | startValue
  | startState
  deriving DecidableEq, Repr

/-- Groups in the bit order of GMASK. -/
def gCTRL : Nat := 0
def gPRF : Nat := 1
def gLOOP : Nat := 2
def gNB : Nat := 3
def gGT : Nat := 4
def gID : Nat := 5
def gREP : Nat := 6
def gHITCH : Nat := 7
def gSUP : Nat := 8
def gLIM : Nat := 9
def gSHIFT : Nat := 10

/-- Addresses from `o` on, `k` of them, `d` apart, of axis `n`. -/
def axWords (n o d k : Nat) : List Nat := (List.range k).map (fun i => R.AX_CTRL n + o + d * i)

/-- Staged registers of a group (R179). -/
def groupRegs (n g : Nat) : List Nat :=
  match g with
  | 0 => axWords n 0x000 4 1
  | 1 => axWords n 0x080 4 10
  | 2 => axWords n 0x100 8 24
  | 3 => axWords n 0x200 4 30
  | 4 => axWords n 0x280 4 33
  | 5 => axWords n 0x340 4 7
  | 6 => axWords n 0x400 4 12
  | 7 => axWords n 0x480 4 12
  | 8 => axWords n 0x500 4 3
  | 9 => axWords n 0x510 4 5
  | 10 => axWords n 0x644 4 2
  | _ => []

/-- The commit group of an axis register offset (R179). -/
def groupOf (o : Nat) : Option Nat :=
  (List.range 11).find? (fun g => (groupRegs 0 g).contains (0x10000000 + o))

def State.takeRegs (s : State) (l : List Nat) : State := forEach l (fun a s => s.take a) s

/-- Some staged word of a list differs from the active one. -/
def State.differs (s : State) (l : List Nat) : Bool := l.any (fun a => s.reg a != s.actReg a)

def finPos (w : Word) : Bool := F32.isFinite w && F32.gt w 0
def finNonneg (w : Word) : Bool := F32.isFinite w && F32.ge w 0
def finUnit (w : Word) : Bool := finNonneg w && F32.le w F32.one

/-- The generator's state at CSTART of cycle `n`; an axis without a generator stands at X_ACT (R139). -/
def State.genAt (s : State) (n c : Nat) : Kin :=
  let m := s.mode n
  if m = mOff || m = mTorque || m = mStep || m = mValve then ⟨s.xAct n * 65536, 0, 0⟩
  else F32.val ((s.ax n).gen.at' ⟨c, 0⟩ s.tcyc)

/-- |D_r| ≥ 2^47 counts, or the target is toward a blocked side (R142, R161). -/
def State.startBlocked (s : State) (n c : Nat) (tgt : Int) : Bool :=
  let d := tgt * 65536 - (s.genAt n c).x
  decide (2 ^ 47 * 65536 ≤ d.natAbs) || (s.on (R.AX_STATUS_LIMP n) && decide (0 < d)) ||
    (s.on (R.AX_STATUS_LIMN n) && decide (d < 0))

/-- X_TGT lies outside the enabled software range (R142). -/
def State.outOfRange (s : State) (n : Nat) (x : Int) : Bool :=
  s.onA (R.AX_LIM_SWEN n) && (decide (x < s.s64a (R.AX_XMIN_LO n) (R.AX_XMIN_HI n)) || decide (s.s64a (R.AX_XMAX_LO n) (R.AX_XMAX_HI n) < x))

/-- A mode the axis's kind allows (R145, R349), for the staged KIND `k`. -/
def State.modeAllowed (s : State) (n k m : Nat) : Bool :=
  match k with
  | 0 => m == mOff
  | 1 => m ≤ 6
  | 2 =>
    match s.axisGang n with
    | some (_, 1) => m ≤ 4 || m == mStep
    | some (_, _) => m ≤ 5
    | none => m ≤ 4 || m == mValve
  | _ => m ≤ 4

/-- The node of the axis is REJOINED (R218). -/
def State.rejoined (s : State) (n : Nat) : Bool :=
  match s.boundNode n with
  | some (r, a) => a != 0 && s.ntState r a == nfRejoined
  | none => false

/-- AXCAP of axis `i` of node `a`, if it was read, reaches slot `n` (R104, R145). -/
def State.capTo (s : State) (r a i n : Nat) : State :=
  match (s.ring r).caps.find? (fun c => c.1 == 4 * a + i) with
  | some (_, d) =>
    ((s.set (R.AX_AXCAP_SPLITS n) (leAt d 0 1)).set (R.AX_AXCAP_POS_BITS n) (leAt d 1 1)).set (R.AX_I_FS n) (leAt d 4 4)
  | none => s

/-- The capabilities of slot `n`, from the node it is bound to. -/
def State.capFor (s : State) (n : Nat) : State :=
  forN 4 (fun r s => forEach ((s.activeBank r).filter (fun e => e.dtype == 1 && e.axbase ≤ n && n < e.axbase + e.nax)) (fun e s =>
    if s.boundNode n == some (r, e.node) then s.capTo r e.node (n - e.axbase) n else s) s) s

/-- Offsets of the snapshot that read 0 for a virtual axis: all but X_ACT and V_MEAS (R194). -/
def snapOffsets : List Nat :=
  [0x600, 0x604, 0x608, 0x60C, 0x610, 0x614, 0x618, 0x61C, 0x628, 0x630, 0x634, 0x638, 0x63C, 0x640, 0x64C]

/-- The snapshot follows a change of KIND (R194): a virtual axis's reads 0; another's takes the capabilities of its node. -/
def State.kindChanged (s : State) (n : Nat) : State :=
  if s.axKind n = kVirtual then forEach snapOffsets (fun o s => s.setReg (R.AX_CTRL n + o) 0) s else s.capFor n

/-- The CTRL group at the boundary of cycle `c` (R183, R146, R147, R100, R102, R122, R218). -/
def State.takeCtrl (s : State) (n c : Nat) : Take × State :=
  let old := s.mode n
  let new := s.f (R.AX_CTRL_MODE n)
  let kind := s.f (R.AX_CTRL_KIND n)
  let me := R.AX_STATUS_MODEERR n
  let kindOrLoop := kind != s.axKind n || s.f (R.AX_CTRL_LOOP n) != s.fa (R.AX_CTRL_LOOP n)
  let splitNew := s.f (R.AX_CTRL_SPLIT n)
  let split := splitNew != s.fa (R.AX_CTRL_SPLIT n)
  let offered := match kind with
    | 1 => bit (s.f (R.AX_AXCAP_SPLITS n)) splitNew
    | 2 => splitNew == 0
    | _ => true
  let write := new != old
  let modeBad := !s.modeAllowed n kind new
  let splitBad := split && (old != mOff || !offered)
  let kindBad := kindOrLoop && old != mOff
  -- R147, R161: with a limit latched only moves away from it are accepted, and a stop
  let limited := s.limitLatched n && !(new == mHold || new == mProfile || new == mVelocity)
  let away := new != mOff && ((kind == kNetwork && s.f (R.AX_AXCAP_POS_BITS n) == 0) ||
    (write && (s.eventLatched n || s.stopRuns n || s.rejoined n || limited)))
  if modeBad || splitBad || kindBad || away then
    let s := if modeBad || kindBad || away then s.raise me else s
    let s := if splitBad then s.raise (R.AX_STATUS_SPLITERR n) else s
    (if modeBad || splitBad then .value else .state, s)
  else
    let kindOld := s.axKind n
    let s := s.take (R.AX_CTRL n)
    let s := if s.axKind n = kindOld then s else s.kindChanged n
    if !write then (.ok, s)
    else
      let s := s.modAx n (fun x => { x with modeCyc := c, barred := x.barred && new == mOff })
      if new = mIdent && s.onA (R.AX_CTRL_LOOP n) then (.ok, ((s.raise me).raise (R.AX_STATUS_IDERR n)).hwMode n mHold) -- R95, R127
      else (.ok, (if old = mIdent then s.identAbort n 4 else s).modeLeft n old new)

/-- The PRF group (R186, R139, R142, R138). A refused start leaves the group taken; a VELOCITY change that a stop or a latched event
refuses leaves it as it was (R147). -/
def State.takePrf (s : State) (n c : Nat) : Take × State :=
  let pe := R.AX_STATUS_PRFERR n
  let lims := [R.AX_VMAX n, R.AX_AMAX n, R.AX_DMAX n, R.AX_JMAX n, R.AX_SDMAX n, R.AX_SJMAX n]
  let tgt := s.s64 (R.AX_X_TGT_LO n) (R.AX_X_TGT_HI n)
  let go := s.on (R.AX_PRF_CTRL_GO n)
  let blocked := s.stopRuns n || s.eventLatched n
  if !(F32.isFinite (s.w (R.AX_VTGT n)) && lims.all (fun x => finPos (s.w x))) then (.value, s.raise pe)
  else if go && s.mode n == mProfile && s.outOfRange n tgt then
    -- the group is taken and its start refused; in a knot this is a failure of its values
    (.startValue, (((s.takeRegs (groupRegs n gPRF)).clr (R.AX_PRF_CTRL_GO n)).setA (R.AX_PRF_CTRL_GO n) 0).raise pe)
  else
    let vel := s.mode n == mVelocity && s.differs [R.AX_VTGT_W n, R.AX_VMAX_W n, R.AX_AMAX_W n, R.AX_DMAX_W n, R.AX_JMAX_W n]
    if vel && blocked then (.state, s.raise pe)
    else
    let s := s.takeRegs (groupRegs n gPRF)
    let s := if go then (s.clr (R.AX_PRF_CTRL_GO n)).setA (R.AX_PRF_CTRL_GO n) 0 else s
    if vel then (.ok, s.modAx n (fun x => { x with vchg := some c }))
    else if go && s.mode n == mProfile then
      if blocked || s.startBlocked n c tgt then (.startState, s.raise pe)
      else (.ok, (s.clr (R.AX_STATUS_PDONE n)).modAx n (fun x => { x with start := some c }))
    else (.ok, s)

/-- Ranges of "Loop parameter pairs" (R187). -/
def State.loopOk (s : State) (n : Nat) : Bool :=
  let p (i : Nat) : Word := s.w (R.AX_LP n i)
  ([1, 6, 8, 9] : List Nat).all (fun i => F32.isFinite (p i)) &&
    ([0, 2, 3, 4, 7, 10, 11, 12, 13, 15, 16, 17, 19] : List Nat).all (fun i => finNonneg (p i)) &&
    ([5, 14, 18] : List Nat).all (fun i => finUnit (p i)) &&
    1 ≤ s.f (R.AX_CPR n) && 1 ≤ s.f (R.AX_POLES n) && s.f (R.AX_POLES n) ≤ 64

/-- Ranges of R162; TADDR's is that of R171, checked with the table. -/
def State.repOk (s : State) (n : Nat) : Bool :=
  finUnit (s.w (R.AX_REP_Q n)) && finUnit (s.w (R.AX_REP_LGAIN n)) && s.f (R.AX_REP_LEAD_T n) ≤ 10000000 &&
    finPos (s.w (R.AX_REP_UMAX n)) && F32.ge (s.w (R.AX_REP_VMIN n)) 0 && F32.ge (s.w (R.AX_REP_AMAX n)) 0

/-- The REP group (R191, R171, R172). -/
def State.takeRep (s : State) (n : Nat) : Take × State :=
  if !s.repOk n then (.value, s.raise (R.AX_STATUS_PARERR n))
  else
    let any := s.differs (groupRegs n gREP)
    let enNow := s.on (R.AX_REP_CTRL_EN n) && !s.onA (R.AX_REP_CTRL_EN n)
    let named := s.differs [R.AX_REP_MASTER_W n, R.AX_REP_TADDR_LO_W n, R.AX_REP_TADDR_HI_W n] ||
      s.f (R.AX_REP_CTRL_LEARN n) != s.fa (R.AX_REP_CTRL_LEARN n)
    let drop := s.differs [R.AX_REP_MASTER_W n, R.AX_REP_M_OFS_W n, R.AX_REP_TADDR_LO_W n, R.AX_REP_TADDR_HI_W n] ||
      s.f (R.AX_REP_CTRL_MSRC n) != s.fa (R.AX_REP_CTRL_MSRC n)
    let lifted := any && s.on (R.AX_STATUS_REPERR n)
    let s := s.takeRegs (groupRegs n gREP)
    let s := if lifted then s.clr (R.AX_STATUS_REPERR n) else s
    (.ok, s.modAx n (fun x => { x with rep :=
      { (if drop then { x.rep with n := 0 } else x.rep) with check := x.rep.check || enNow || named || lifted } }))

/-- Ranges of the HITCH group (R192). -/
def State.hitchGroupOk (s : State) (n : Nat) : Bool :=
  s.f (R.AX_HITCH_DEN n) != 0 && s.f (R.AX_HITCH_CTRL_DIS_TO n) != 3 && finNonneg (s.w (R.AX_ENG_DIST n))

/-- Ranges of the LIM group (R193): GPIO pins are 0 to 63. -/
def State.limGroupOk (s : State) (n : Nat) : Bool :=
  let pin (p : Nat) : Bool := p == 0xFF || p < 64
  pin (s.f (R.AX_LIM_PPIN n)) && pin (s.f (R.AX_LIM_NPIN n)) &&
    (!s.on (R.AX_LIM_SWEN n) ||
      decide (s.s64 (R.AX_XMIN_LO n) (R.AX_XMIN_HI n) < s.s64 (R.AX_XMAX_LO n) (R.AX_XMAX_HI n)))

/-- A group checked by `ok` alone, taken whole. A parameter of a running sweep that changes ends the sweep first, with what it ran
on (R132). -/
def State.takePlain (s : State) (n g : Nat) (ok : Bool) : Take × State :=
  if ok then
    (.ok, (if s.differs (groupRegs n g) && (g = gLOOP || g = gNB || g = gID) then s.identAbort n 7 else s).takeRegs (groupRegs n g))
  else (.value, s.raise (R.AX_STATUS_PARERR n))

/-- The HITCH group (R192): a new master, ratio or table in HITCH is a hitch change, refused while a stop runs or an event or limit
bit is latched (R147, R157). -/
def State.takeHitch (s : State) (n : Nat) : Take × State :=
  let change := s.differs [R.AX_HITCH_NUM_W n, R.AX_HITCH_DEN_W n, R.AX_CAM_ADDR_LO_W n, R.AX_CAM_ADDR_HI_W n] ||
    s.f (R.AX_HITCH_CTRL_MASTER n) != s.fa (R.AX_HITCH_CTRL_MASTER n) || s.f (R.AX_HITCH_CTRL_TYPE n) != s.fa (R.AX_HITCH_CTRL_TYPE n)
  if s.hitchGroupOk n && s.mode n == mHitch && change && (s.stopRuns n || s.eventLatched n || s.limitLatched n) then
    (.state, s.raise (R.AX_STATUS_PRFERR n))
  else s.takePlain n gHITCH (s.hitchGroupOk n)

/-- The SUP group (R193): a change of the timer's limits while it runs is refused by the axis's state. -/
def State.takeSup (s : State) (n : Nat) : Take × State :=
  let fb := s.f (R.AX_SUP_FBLOSS_CYC n)
  let lim := s.f (R.AX_SUP_FB_LIMIT n)
  if !(1 ≤ fb && fb ≤ 8 && 1 ≤ lim && lim ≤ 8 && s.f (R.AX_FE_TIME n) ≤ 1000000000) then
    (.value, s.raise (R.AX_STATUS_PARERR n))
  else if (s.ax n).feAt.isSome && s.differs [R.AX_FE_LIM_W n, R.AX_FE_TIME_W n] then (.state, s.raise (R.AX_STATUS_PARERR n))
  else (.ok, s.takeRegs (groupRegs n gSUP))

/-- The SHIFT group (R195). -/
def State.takeShift (s : State) (n : Nat) : Take × State :=
  let d := s.s64 (R.AX_X_SHIFT_LO n) (R.AX_X_SHIFT_HI n)
  if d = 0 then (.ok, s)
  else if !((s.mode n == mOff || s.mode n == mHold) && !s.on (R.AX_STATUS_STOPPING n) && !(s.ax n).hitch.on) then
    (.state, s.raise (R.AX_STATUS_PARERR n))
  else
    let s := s.set64 (R.AX_X_ACT_LO n) (R.AX_X_ACT_HI n) (s.xAct n + d)
    let s := if s.axKind n = kVirtual then s
      else s.set64 (R.AX_X_REF_LO n) (R.AX_X_REF_HI n) (s.s64 (R.AX_X_REF_LO n) (R.AX_X_REF_HI n) + d * 65536)
    let s := s.modAx n (fun x => { x with gen := x.gen.shift (d * 65536), lastX := i64 (x.lastX + d), rep := { x.rep with n := 0 } })
    (.ok, s.set64 (R.AX_X_SHIFT_LO n) (R.AX_X_SHIFT_HI n) 0)

/-- A group checked and taken (R181). -/
def State.groupTake (s : State) (n g c : Nat) : Take × State :=
  match g with
  | 0 => s.takeCtrl n c
  | 1 => s.takePrf n c
  | 2 => s.takePlain n gLOOP (s.loopOk n)
  | 3 => s.takePlain n gNB ((groupRegs n gNB).all (fun a => F32.isFinite (toW (s.reg a))))
  | 4 => s.takePlain n gGT ((groupRegs n gGT).all (fun a => finNonneg (toW (s.reg a))))
  | 5 => s.takePlain n gID true
  | 6 => s.takeRep n
  | 7 => s.takeHitch n
  | 8 => s.takeSup n
  | 9 => s.takePlain n gLIM (s.limGroupOk n)
  | _ => s.takeShift n

/-- What the boundary replaced is kept for an activation that was woken before it (R96): `before` is the state before the group. -/
def State.keepOld (s before : State) (n g : Nat) : State :=
  match (before.ax n).woken with
  | none => s
  | some _ =>
    let x := before.ax n
    let o : OldSet := x.old.getD ⟨x.modeCyc, x.start, x.vchg, x.rep.check, []⟩
    let more := (groupRegs n g).filter (fun a => before.actReg a != s.actReg a && !(o.words.any (fun p => p.1 == a)))
    s.modAx n (fun y => { y with old := some { o with words := o.words ++ more.map (fun a => (a, before.actReg a)) } })

/-- One group of one axis taken at the boundary of cycle `c` (R181). -/
def State.axTake (s : State) (n g c : Nat) : Take × State :=
  let r := s.groupTake n g c
  (r.1, r.2.keepOld s n g)

/-- A group that is not taken is marked in CMT_ERR (R181). -/
def State.cmtErr (s : State) (n g : Nat) (t : Take) : State :=
  if t ≠ .value && t ≠ .state then s else s.orF (R.AX_CMT_ERR_ERRGRP n) (2 ^ g)

/-- Groups of a mask, in bit order. -/
def maskGroups (m : Nat) : List Nat := (List.range 11).filter (fun g => bit m g)

/-- The commits requested, at the boundary of cycle `c` (R180). -/
def State.axisCommits (s : State) (c : Nat) : State :=
  forN 256 (fun n s =>
    if s.on (R.AX_CMT_GO n) then
      let s := s.clr (R.AX_CMT_GO n)
      let s := forEach (maskGroups (s.f (R.AX_CMT_GMASK n))) (fun g s =>
        let r := s.axTake n g c
        r.2.cmtErr n g r.1) s
      s.set (R.AX_CMT_CYC n) c
    else s) s

/-! ## Release deadlines and payloads (R84 to R88, R125, R126) -/

/-- The words of OFF and ZERO (R125). -/
def State.zeroWord (s : State) (n : Nat) : Nat := if s.onA (R.AX_CTRL_SPLIT n) then 0 else 0x8000

/-- Axis `n` is in STO under Belay (R368). -/
def State.axSto (s : State) (n : Nat) : Bool := bit (s.f (R.BEL_AXSTO_STO (n / 32))) (n % 32)

/-! ## Nodes that may not drive their axes (R68, R74, R218) -/

/-- ENABLE stays 0 for the axis: its node is away (RESERVED), REJOINED, or has joined by a bight and the axis has not been
enabled since (R68, R74, R218). -/
def State.nodeBars (s : State) (n : Nat) : Bool :=
  (s.ax n).barred ||
    (match s.boundNode n with
     | some (r, a) => a != 0 && (s.ntState r a == nfReserved || s.ntState r a == nfRejoined)
     | none => false)

/-- The capabilities of every slot that the boundary bound anew: `old` is the state before it. -/
def State.capsBound (s old : State) : State :=
  forN 4 (fun r s => forEach ((s.activeBank r).filter (fun e => e.dtype == 1)) (fun e s => forN e.nax (fun i s =>
    let n := e.axbase + i
    if n < 256 && s.boundNode n == some (r, e.node) && s.boundNode n != old.boundNode n && s.axKind n != 3 then s.capTo r e.node i n
    else s) s) s) s

/-- The payload forced to ENABLE = 0 in OFF (an STO included), while its node bars the axis, and in STO under Belay (R122,
R146, R218, R368). -/
def State.forceOff (s : State) (n : Nat) (p : AxCmd) : AxCmd :=
  if s.mode n = mOff || s.nodeBars n || s.axSto n then { p with on := false, actl := p.actl - p.actl % 2 } else p

/-- A payload with its ACTL: ENABLE and the active SPLIT. -/
def State.mkPay (s : State) (n : Nat) (on : Bool) (w0 w1 w2 : Nat) : AxCmd :=
  { on := on, actl := b2n on + 2 * s.fa (R.AX_CTRL_SPLIT n), w0 := w0, w1 := w1, w2 := w2 }

/-- The cycle whose deadline of axis `n` is the next or the present one. -/
def State.deadlineCyc (s : State) (n : Nat) : Nat := if 0 ≤ s.deadlineRel10 n s.cyc then s.cyc else u32 ((s.cyc : Int) + 1)

/-- The fallback payload (R125, R126), counted; FB_RUN already holds this insertion. -/
def State.fallbackPay (s : State) (n : Nat) : AxCmd :=
  let x := s.ax n
  let pol := s.fa (R.AX_SUP_FBPOL n)
  let spent := s.fa (R.AX_SUP_FB_LIMIT n) ≤ s.f (R.AX_STATUS_FB_RUN n)
  let z := s.zeroWord n
  let central := !s.onA (R.AX_CTRL_SPLIT n)
  let last : Nat × Nat × Nat := match x.pay with | some p => (p.w0, p.w1, p.w2) | none => (z, z, z)
  let w : Nat × Nat × Nat :=
    if spent then (z, z, z)
    else
      match pol with
      | 0 => last
      | 1 => if central then (match x.succ with | some d => d | none => (z, z, z)) else last
      | _ => (z, z, z)
  -- R126: from FB_LIMIT on the payload follows the LATE action, which is STO unless it is SIGNAL (R123)
  s.mkPay n (pol != 3 && x.armed && !(spent && s.eventAct n 4 != 3)) w.1 w.2.1 w.2.2

/-- The held release of axis `n` for cycle `m`: the last accepted (R309). -/
def State.heldFor (s : State) (n m : Nat) : Option Held :=
  s.dsp.held.foldl (fun b h => if h.axis = n && h.tgt = m then some h else b) none

/-- Held releases of axis `n` up to cycle `m` are used up. -/
def State.dropHeld (s : State) (n m : Nat) : State :=
  { s with dsp := { s.dsp with held := s.dsp.held.filter (fun h => !(h.axis == n && dt h.tgt m ≤ 0)) } }

/-- FB_RUN and FB_CNT at an insertion (R126), and its trace record (R318). -/
def State.countFallback (s : State) (n m : Nat) : State :=
  let t := s.f (R.AX_STRAND_STRAND n)
  let s := s.trace 11 t 63 (s.f (R.AX_STRAND_FLOW n)) m (s.f (R.ST_STAT_EPOCH t)) n
  let s := (s.count (R.AX_STATUS_FB_RUN n)).count (R.AX_FB_CNT n)
  s.modAx n (fun x => { x with fbAt := (m :: x.fbAt).take 17 })

/-- What an accepted release commands: the four words of its payload. -/
def heldPay (h : Held) : AxCmd :=
  let w (i : Nat) : Nat := h.payload.getD i 0
  { on := w 0 % 2 == 1, actl := w 0 % 4, w0 := w 1, w1 := w 2, w2 := w 3 }

/-- The deadline of the activation that was woken has passed: the previous set is held no longer (R96). -/
def State.oldPassed (s : State) (n m : Nat) : State :=
  match (s.ax n).woken with
  | some c => if (2 ^ s.rateK n : Int) ≤ dt m c then s.modAx n (fun x => { x with woken := none, old := none }) else s
  | none => s

/-- The release deadline of axis `n` for cycle `m` passes (R84 to R88, R125): the payload of the cycle is fixed. -/
def State.deadline (s : State) (n m : Nat) : State :=
  let s := s.oldPassed n m
  let target := s.inPhase n m
  let gang := s.axisGang n
  let held := if s.locked islDSP then s.heldFor n m else none -- R22, R86
  let s := s.dropHeld n m
  if gang.isNone && (s.boundNode n).isNone then s
  else if s.mode n = mStep then s
  else
    match gang with
    | some (q, 1) =>
      if !target then s
      else
        match held with
        | some h =>
          let off := !(s.forceOff n (s.mkPay n true 0 0 0)).on
          s.modGang q (fun g => { g with plan := some (m, some h.xref), planOff := off })
        | none =>
          let off := !(s.forceOff n (s.mkPay n true 0 0 0)).on
          (s.countFallback n m).modGang q (fun g => { g with plan := some (m, none), planOff := off })
    | _ =>
      let (s, p) : State × AxCmd :=
        if !target then (s, (s.ax n).pay.getD (s.mkPay n false (s.zeroWord n) (s.zeroWord n) (s.zeroWord n)))
        else
          match held with
          | some h => (s.modAx n (fun x => { x with succ := match h.succ with | [a, b, c] => some (a, b, c) | _ => none }), heldPay h)
          | none =>
            let s := s.countFallback n m
            let p := s.fallbackPay n
            (s.modAx n (fun x => { x with succ := none }), p)
      let p := s.forceOff n p
      let s := s.modAx n (fun x => { x with pay := some p, fixed := some (m, p) })
      match gang with
      | some (q, 2) =>
        let at' := u32 ((s.cstartOf s.grid m : Int) + s.fa (R.PC_STP_LAPH (4 * q)))
        s.modGang q (fun g => { g with dutyNext := some (at', p.on, p.w0, p.w1, p.w2) })
      | _ => s

/-- The axis of a held SEQ record: none. -/
def noAxis : Nat := 4096

/-- A release is accepted (R309, R118, R126): held for its target cycle, FB_RUN back to 0, X_REF and v_ref for the supervisor.
For cycle K of a planned splice it is forwarded to the partner too (R409). -/
def State.acceptRelease (s : State) (h : Held) : State :=
  let n := h.axis
  let s := { s with dsp := { s.dsp with held := s.dsp.held ++ [h] } }
  let s := s.clr (R.AX_STATUS_FB_RUN n)
  let s := if s.axKind n = kVirtual then s
    else (s.set64 (R.AX_X_REF_LO n) (R.AX_X_REF_HI n) h.xref).set (R.AX_V_REF n) h.vref
  let s := s.modAx n (fun x => { x with armed := x.armed || ((heldPay h).on && s.mode n != mOff), lateDone := false })
  match s.dx.splice with
  | some p =>
    if p.giving && p.sack && p.k == h.tgt && bit (s.f (R.DX_AXMASK (n / 32))) (n % 32) then
      { s with dx := { s.dx with fwd := s.dx.fwd ++ [⟨n, h.tgt, h.xref, h.vref, h.payload, h.succ⟩] } }
    else s
  | none => s

/-- A late release (R85, R126): counted and reported; FLOW.LATE or FLOW.OVF is the caller's. -/
def State.lateRelease (s : State) (n tgt : Nat) : State :=
  (s.count (R.AX_LATE_CNT n)).report (srcOf 4 (256 + n)) clsWarn (s.owner n) [tgt]

/-- At a boundary where a new TCYC takes effect, held releases whose arrival is after the new deadline are late (R509). -/
def State.recheckHeld (s : State) : State :=
  let (keep, late) := s.dsp.held.partition (fun h => h.axis == noAxis || s.inTime h.axis h.tgt h.stamp)
  let s := { s with dsp := { s.dsp with held := keep } }
  forEach late (fun h s => (s.count (R.FLOW_LATE h.flow)).lateRelease h.axis h.tgt) s

/-! ## Writes of the block (R178, R184, R185, R197) -/

/-- W1C of STATUS: LIMP and LIMN clear only while their input is inactive (R161, R184). -/
def State.axStatusW (s : State) (n v : Nat) : State :=
  let m := v &&& 0x0007EFFF
  let m := if s.limActive n false then m &&& 0xFFFFFFDF else m
  let m := if s.limActive n true then m &&& 0xFFFFFFBF else m
  let s := if bits v 6 5 != 0 then s.burn else s
  s.setReg (R.AX_STATUS n) (s.reg (R.AX_STATUS n) &&& (0xFFFFFFFF ^^^ m))

/-- CNTCLR (R185). -/
def State.axCntclr (s : State) (n : Nat) : State := ((s.clr (R.AX_FB_CNT n)).clr (R.AX_LATE_CNT n)).clr (R.AX_NUM_CNT n)

/-! ## Event commands of the axis block -/

/-- A landing that ends the excess carries the stamp of the timer's expiry, and wins (R121, R229). -/
def State.feEnds (s : State) (n : Nat) : Bool :=
  s.arrives (fun i => match i with
    | .feedbackLanding a => a.val == n && (s.ax n).pending.isSome && !(s.feedbackLanding n).feExceeds n
    | .gangLanding q => s.gangKind q != 0 && s.pcAxis (4 * q) == n && !(s.gangLanding q).feExceeds n
    | _ => false)

/-- FE_TIMER_EXPIRY (R121). -/
def execFeTimerExpiry (a : Fin 256) (s : State) : Res :=
  .next (if (s.ax a).feAt.isSome && !s.feEnds a then (s.modAx a (fun x => { x with feAt := none, feDone := true })).supervise a [0] else s)
/-- FBLOSS_EVENT (R120). -/
def execFblossEvent (a : Fin 256) (s : State) : Res :=
  .next (if s.fa (R.AX_SUP_FBLOSS_CYC a) ≤ (s.ax a).lossRun && !(s.ax a).lossDone then
    ((s.modAx a (fun x => { x with lossDone := true })).identAbort a 2).supervise a [1] else s)
/-- LATE_EVENT (R126). -/
def execLateEvent (a : Fin 256) (s : State) : Res :=
  .next (if s.fa (R.AX_SUP_FB_LIMIT a) ≤ s.f (R.AX_STATUS_FB_RUN a) && !(s.ax a).lateDone then
    (s.modAx a (fun x => { x with lateDone := true })).supervise a [4] else s)
/-- LIMIT_INPUT_ACTIVE (R159, R160). -/
def execLimitInputActive (a : Fin 256) (neg : Bool) (s : State) : Res :=
  .next (if s.limPin a neg = 0xFF then s else s.limitHit a neg)
/-- GANG_LANDING (R351). -/
def execGangLanding (gang : Fin 16) (s : State) : Res := .next (s.gangLanding gang)

end Sys2Proof.Machine
end

