-- ==== Sys2Proof/Machine/RegAcc.lean ====
section
/-! DEFINITION. Plain accesses to a register by its access types (R5 to R7): what a block does to a register that has no
effect of its own. -/

namespace Sys2Proof.Machine

/-- Bit mask of a field. -/
def FSpec.mask (f : FSpec) : Nat := (2 ^ (f.hi + 1 - f.lo) - 1) * 2 ^ f.lo

/-- The bits of a register in fields whose access type satisfies `p`. -/
def accMask (p : Acc → Bool) (fs : List FSpec) : Nat := fs.foldl (fun m f => if p f.acc then m ||| f.mask else m) 0

/-- The bits of the register at `a` in fields whose access type satisfies `p`. -/
def regMask (p : Acc → Bool) (a : Nat) : Nat := match specOf a with | none => 0 | some fs => accMask p fs

def Acc.isRW (x : Acc) : Bool := x == .rw
def Acc.isRWS (x : Acc) : Bool := x == .rws
def Acc.isStored (x : Acc) : Bool := x == .rw || x == .rws

/-- The bits of `y` where `m` has ones, those of `x` elsewhere. -/
def mergeBits (x y m : Nat) : Nat := (x &&& (0xFFFFFFFF ^^^ m)) ||| (y &&& m)

/-- The word after a plain write of `v` (R5): RW and RWS take `v`, W1C clears, W1S sets, the others keep their value. -/
def plainWord (fs : List FSpec) (x v : Nat) : Nat :=
  let y := mergeBits x v (accMask Acc.isStored fs)
  let y := y &&& (0xFFFFFFFF ^^^ (v &&& accMask (· == .w1c) fs))
  y ||| (v &&& accMask (· == .w1s) fs)

/-- A plain write; a reserved address takes nothing (R7). -/
def State.plainWrite (s : State) (a v : Nat) : State :=
  match specOf a with
  | none => s
  | some fs => s.setReg a (plainWord fs (s.reg a) v)

/-- A write of the RW and RWS fields only. -/
def State.storeWrite (s : State) (a v : Nat) : State :=
  match specOf a with
  | none => s
  | some fs => s.setReg a (mergeBits (s.reg a) v (accMask Acc.isStored fs))

/-- What a read of a word returns (R5): WO fields read 0, and reserved bits read 0. -/
def plainRead (fs : List FSpec) (x : Nat) : Nat := x &&& accMask (· != .wo) fs

/-- A read clears RSK fields (R5). -/
def State.readEffect (s : State) (a : Nat) : State :=
  let m := regMask (· == .rsk) a
  if m = 0 then s else s.setReg a (s.reg a &&& (0xFFFFFFFF ^^^ m))

end Sys2Proof.Machine
end

