-- ==== Sys2Proof/Machine/Belay.lean ====
section
/-! DEFINITION. The Belay safety island (spec/15_belay_safety.md): its configuration and vote, states, guard inputs, zones,
SAFE_OFF outputs, STO of axes, safety containers and diagnostics (R366 to R389). -/

namespace Sys2Proof.Machine

def State.modBel (s : State) (f : Bel → Bel) : State := { s with bel := f s.bel }

/-- "Belay states" as STAT.STATE codes them (R389). OFF is an unpowered PD02. -/
def bLoad : Nat := 1
def bTest : Nat := 2
def bRun : Nat := 3
def bFault : Nat := 4
def bSealOpen : Nat := 5

def State.belSt (s : State) : Nat := s.f R.BEL_STAT_STATE

/-- DIAG bits (R383). -/
def dGTPF : Nat := 0
def dXSHORT : Nat := 1
def dSOFB : Nat := 2
def dSOTP : Nat := 3
def dOSCT : Nat := 4
def dOSCB : Nat := 5
def dLOCK : Nat := 6
def dCFGCRC : Nat := 7
def dBIST : Nat := 8
def dCFGINV : Nat := 9
def dSTOCONF : Nat := 10

/-! ## The configuration image (R371) -/

def cfgNzone (f : List Byte) : Nat := leAt f 11 1
def cfgNconn (f : List Byte) : Nat := leAt f 12 2
def cfgSotest (f : List Byte) : Bool := bit (leAt f 14 2) 0
def cfgWdc (f : List Byte) : Nat := leAt f 16 1
def cfgBwd (f : List Byte) : Nat := leAt f 17 1
def cfgSlsN (f : List Byte) : Nat := leAt f 18 1
def cfgNsomask (f : List Byte) : Nat := leAt f 19 1
def cfgTpw (f : List Byte) : Nat := leAt f 22 2
def cfgG (f : List Byte) (i : Nat) : Nat := leAt f (24 + 2 * i) 2
def cfgRole (f : List Byte) (i : Nat) : Nat := bits (cfgG f i) 1 0
def cfgManual (f : List Byte) (i : Nat) : Bool := bit (cfgG f i) 2
def cfgLenc (f : List Byte) (e : Nat) : Nat := leAt f (48 + 4 * e) 4
def cfgLencOn (f : List Byte) (e : Nat) : Bool := bit (cfgLenc f e) 31
def cfgLencPair (f : List Byte) (e : Nat) : Nat := bits (cfgLenc f e) 11 8
def cfgLencAxis (f : List Byte) (e : Nat) : Nat := bits (cfgLenc f e) 7 0

/-- A connection of the image. -/
structure CConn where
  ring : Nat
  addr : Nat
  conn : Nat
  nax : Nat
  seed : Nat
  axbase : Nat
  spare : Nat
  spdunit : Word
  deriving DecidableEq, Repr

def cfgConn (f : List Byte) (c : Nat) : CConn :=
  let o := 64 + 16 * c
  ⟨leAt f o 1, leAt f (o + 1) 1, leAt f (o + 2) 1, leAt f (o + 3) 1, leAt f (o + 4) 4, leAt f (o + 8) 2, leAt f (o + 10) 2,
    toW (leAt f (o + 12) 4)⟩

/-- A zone of the image. -/
structure CZone where
  func : Nat
  trig : Nat
  flags : Nat
  somask : Nat
  tss1 : Nat
  slslim : Word
  rstin : Nat
  axmask : Nat
  spare : Nat
  deriving DecidableEq, Repr

def cfgZone (f : List Byte) (z : Nat) : CZone :=
  let o := 64 + 16 * cfgNconn f + 64 * z
  ⟨leAt f o 1, leAt f (o + 1) 1, leAt f (o + 2) 1, leAt f (o + 3) 1, leAt f (o + 4) 4, toW (leAt f (o + 8) 4),
    leAt f (o + 12) 1, leAt f (o + 32) 32, leAt f (o + 13) 19⟩

/-- CRC and magic of an image (R370, R371). -/
def cfgValid (f : List Byte) : Bool :=
  let n := leAt f 4 4
  leAt f 0 4 == 0x31594C42 && 68 ≤ n && n ≤ 16384 && f.length == n && leAt f (n - 4) 4 == crc32 (f.take (n - 4))

def inR (lo hi x : Nat) : Bool := lo ≤ x && x ≤ hi

/-- No two of a list are equal. -/
def distinct (l : List Nat) : Bool := l.eraseDups.length == l.length

/-- "Configuration image" ranges and R372. -/
def cfgAccepted (f : List Byte) : Bool :=
  let nz := cfgNzone f
  let nc := cfgNconn f
  let conns := (List.range nc).map (cfgConn f)
  let zones := (List.range nz).map (cfgZone f)
  let covered (n : Nat) : Bool :=
    conns.any (fun c => c.axbase ≤ n && n < c.axbase + c.nax) ||
      (List.range 4).any (fun e => cfgLencOn f e && cfgLencAxis f e == n)
  leAt f 4 4 == 64 + 16 * nc + 64 * nz + 4 && leAt f 10 1 ≤ 15 && inR 1 32 nz && nc ≤ 256 && leAt f 14 2 ≤ 1 &&
    inR 3 8 (cfgWdc f) && inR 3 8 (cfgBwd f) && inR 1 8 (cfgSlsN f) && cfgNsomask f ≤ 15 && inR 10 1000 (leAt f 20 2) &&
    inR 50 1000 (cfgTpw f) && inR 10 1000 (leAt f 40 2) && inR 200 1000 (leAt f 42 2) && inR 1 600 (leAt f 44 2) &&
    leAt f 46 2 == 0 &&
    (List.range 8).all (fun i =>
      cfgRole f i ≤ 2 && bits (cfgG f i) 7 3 == 0 &&
        (cfgRole f i == 0 || 1 ≤ bits (cfgG f i) 15 8) &&
        (cfgRole f i != 1 || 2 * cfgTpw f < 100 * bits (cfgG f i) 15 8)) &&
    (List.range 4).all (fun e => bits (cfgLenc f e) 30 12 == 0) &&
    conns.all (fun c => c.ring ≤ 3 && inR 1 64 c.addr && 1 ≤ c.conn && inR 1 4 c.nax && c.seed != 0 && c.spare == 0 &&
      c.axbase + c.nax ≤ 256 && F32.isFinite c.spdunit && F32.gt c.spdunit 0) &&
    distinct (conns.map (fun c => 256 * c.ring + c.addr)) && distinct (conns.map (·.conn)) && distinct (conns.map (·.seed)) &&
    distinct ((conns.map (fun c => (List.range c.nax).map (fun i => c.axbase + i))).flatten) &&
    zones.all (fun z => z.func ≤ 2 && z.flags ≤ 15 && z.somask ≤ 15 && z.tss1 ≤ 60000000 && z.spare == 0 &&
      (z.rstin == 0xFF || (z.rstin < 8 && cfgRole f z.rstin == 2)) &&
      (z.func != 2 || (List.range 256).all (fun n => !bit z.axmask n || covered n)))

/-- "Configuration vote" (R370): the configuration, and whether one copy disagreed. -/
def cfgVote (c : List (List Byte)) : Option (List Byte × Bool) :=
  let good := c.filter cfgValid
  match good with
  | [a, b, d] =>
    if a == b && b == d then some (a, false)
    else if a == b || a == d then some (a, true)
    else if b == d then some (b, true)
    else none
  | [a, b] => if a == b then some (a, true) else none
  | _ => none

/-- Copy `k` of the configuration as MRAM holds it: LEN bytes, at most 16 KiB. -/
def State.cfgCopy (s : State) (k : Nat) : List Byte :=
  let a := 0x04FC0000 + 0x4000 * k
  s.bytes a (min (s.rd (a + 4) 4) 16384)

/-! ## Records, outputs and zones (R367, R368, R377, R378) -/

/-- EXT source 64 (R368). -/
def State.belExt (s : State) : State := s.ext 64

def State.belReport (s : State) (inst : Nat) (data : List Nat) : State := s.report (srcOf 9 inst) clsSafety 0 data

/-- State of zone `z` as ZSTATE codes it: 0 READY, 1 MONITOR, 2 STOPPING, 3 SAFE, 4 WAITRST. -/
def zoneFld (z : Nat) : Fld := ⟨R.BEL_ZSTATE_W (z / 8), 4 * (z % 8) + 3, 4 * (z % 8)⟩
def State.zone (s : State) (z : Nat) : Nat := s.f (zoneFld z)

/-- A zone changes state: ZSTATE, the record, the interrupt. -/
def State.setZone (s : State) (z st : Nat) : State :=
  if s.zone z = st then s
  else
    let s := if st = 1 then
        s.modBel (fun b => { b with sls := b.sls.filter (fun e => e.1 / 256 != z),
                                    conns := b.conns.map (fun e => (e.1, { e.2 with readBy := (65536 + z) :: e.2.readBy })),
                                    lenBase := forN 4 (fun e m =>
                                      SMap.put (fun _ => 0) m (4 * z + e) (s.f (R.BEL_LENCNT_EDGES e))) b.lenBase })
      else s
    ((s.set (zoneFld z) st).belReport (288 + z) [st]).belExt

/-- The CONNF bit of connection `c`. -/
def connfFld (c : Nat) : Fld := ⟨R.BEL_CONNF_W (c / 32), c % 32, c % 32⟩

/-- A source of zone `z` demands (R377): a guard, ZREQ, or a failed connection that carries an axis of the zone. -/
def State.zoneDemand (s : State) (z : Nat) : Bool :=
  let f := s.bel.cfg
  let c := cfgZone f z
  (s.f R.BEL_GIN_DEMAND &&& c.trig) != 0 || (bit c.flags 0 && bit (s.f R.BEL_ZREQ_REQ) z) ||
    (bit c.flags 1 && (List.range (cfgNconn f)).any (fun k =>
      let x := cfgConn f k
      s.on (connfFld k) && (List.range x.nax).any (fun i => bit c.axmask (x.axbase + i))))

/-- Outputs asserted (R367): a WAITRST zone has not released yet (R378). -/
def State.soWanted (s : State) : Nat :=
  let f := s.bel.cfg
  let g := s.f R.BEL_SO_GBOTHREQ
  if s.belSt ≠ bRun then 15
  else
    let zs := (List.range (cfgNzone f)).foldl (fun m z =>
      if s.zone z = 3 || s.zone z = 4 then m ||| (cfgZone f z).somask else m) 0
    (zs ||| g ||| (if s.bel.nso then cfgNsomask f else 0)) % 16

/-- Axes in STO (R368), a 256-bit mask. -/
def State.stoWanted (s : State) : Nat :=
  let f := s.bel.cfg
  if s.belSt ≠ bRun then 2 ^ 256 - 1
  else
    let zs := (List.range (cfgNzone f)).foldl (fun m z =>
      if s.zone z = 3 || s.zone z = 4 then m ||| (cfgZone f z).axmask else m) 0
    (List.range (cfgNconn f)).foldl (fun m k =>
      if s.on (connfFld k) then
        let c := cfgConn f k
        (List.range c.nax).foldl (fun m i => m ||| 2 ^ (c.axbase + i)) m
      else m) zs

/-- The outputs and AXSTO follow their causes; the banks see each change of SAFE_OFF (R367). -/
def State.belOutputs (s : State) : State :=
  let old := s.f R.BEL_SO_ASSERTED
  let new := s.soWanted
  let s := (s.set R.BEL_SO_ASSERTED new).set R.BEL_SO_READBACK (15 - new)
  let s := forN 4 (fun b s => if bit new b == bit old b then s else s.bankSafeOff b (bit new b)) s
  let m := s.stoWanted
  let words := (List.range 8).map (fun w => m / 2 ^ (32 * w) % 2 ^ 32)
  let changed := (List.range 8).any (fun w => s.f (R.BEL_AXSTO_STO w) != words.getD w 0)
  let s := forN 8 (fun w s => s.set (R.BEL_AXSTO_STO w) (words.getD w 0)) s
  if changed then s.belExt else s

/-- Zone `z` takes up its sources (R378). -/
def State.zoneEval (s : State) (z : Nat) : State :=
  let c := cfgZone s.bel.cfg z
  let d := s.zoneDemand z
  match s.zone z with
  | 0 => if d then s.setZone z (match c.func with | 0 => 3 | 1 => 2 | _ => 1) else s
  | 1 => if d then s else s.setZone z 0
  | 3 => if d then s else s.setZone z (if bit c.flags 2 then 4 else 0)
  | 4 => if d then s.setZone z 3 else s
  | _ => s

/-- Every zone takes up its sources, and the outputs follow. -/
def State.belEval (s : State) : State :=
  (if s.belSt = bRun then forN (cfgNzone s.bel.cfg) (fun z s => s.zoneEval z) s else s).belOutputs

/-- Reset actions for the zones of `p` in WAITRST (R378). -/
def State.zoneResets (s : State) (p : Nat → Bool) : State :=
  if s.belSt ≠ bRun then s
  else
    (forN (cfgNzone s.bel.cfg) (fun z s => if s.zone z = 4 && p z && !s.zoneDemand z then s.setZone z 0 else s) s).belOutputs

/-! ## States (R369) -/

/-- Belay changes state; leaving RUN puts every zone into SAFE. -/
def State.belTo (s : State) (st : Nat) : State :=
  let old := s.belSt
  let s := (s.set R.BEL_STAT_STATE st).belReport 0 [st, s.f R.BEL_STAT_SEAL_CNT]
  let s := if old = bRun then forN 32 (fun z s => s.setZone z 3) s else s
  s.belEval

/-- LOAD (R369, R384): DIAG, counters and latched demands are cleared. -/
def State.belLoad (s : State) : State :=
  let had := s.reg R.BEL_DIAG != 0
  let s := (((s.setReg R.BEL_DIAG 0).clr R.BEL_CNT_CRC).clr R.BEL_CNT_SEQ).clr R.BEL_CNT_WD
  let s := (s.set R.BEL_GIN_FAIL 0).set R.BEL_GIN_DEMAND (s.f R.BEL_GIN_DEMAND &&& (255 ^^^ s.bel.latched))
  let s := s.modBel (fun b => { b with bist := false, opened := 0, tested := 0, latched := 0, nso := false, sls := [] })
  let s := (s.clr R.BEL_STAT_CFGVALID).clr R.BEL_STAT_CFGDEG
  let s := s.belTo bLoad
  if had then s.belExt else s

/-- A detection (R383): its DIAG bit, a safety record, and FAULT for a global reaction. -/
def State.belDiag (s : State) (d : Nat) (global : Bool) (data : List Nat) : State :=
  let s := ((s.setReg R.BEL_DIAG (s.reg R.BEL_DIAG ||| 2 ^ d)).belReport (1 + d) data).belExt
  if global && (s.belSt = bLoad || s.belSt = bTest || s.belSt = bRun) then s.belTo bFault else s.belOutputs

/-- Release of the PD02 reset (R369): every register at its reset value but what AON holds (R374). -/
def State.belPowerUp (s : State) : State :=
  let sealed := s.f R.BEL_STAT_SEAL
  let code := s.f R.BEL_STAT_SEALCODE
  let cnt := s.f R.BEL_STAT_SEAL_CNT
  let s := { s with regs := s.regs.filter (fun c => !(0x10340000 ≤ c.1 && c.1 < 0x10350000)), bel := {} }
  let s := ((s.set R.BEL_STAT_SEAL sealed).set R.BEL_STAT_SEALCODE code).set R.BEL_STAT_SEAL_CNT cnt
  let s := forN 4 (fun b s => s.bankSafeOff b true) s
  let s := s.belLoad
  if sealed = 1 then s.belTo bSealOpen else s

/-- The vote ends LOAD (R369, R370, R372). -/
def State.configVote (s : State) : State :=
  if s.belSt ≠ bLoad then s
  else
    match cfgVote ((List.range 3).map s.cfgCopy) with
    | none => s.belDiag dCFGINV true []
    | some (f, degraded) =>
      if !cfgAccepted f then s.belDiag dCFGINV true []
      else
        let s := s.modBel (fun b => { b with cfg := f, conns := [] })
        let s := (s.raise R.BEL_STAT_CFGVALID).setB R.BEL_STAT_CFGDEG degraded
        (s.set R.BEL_CFG_CRC_CRC (leAt f (f.length - 4) 4)).belTo bTest

/-- Every MANUALT guard has been opened and closed (R376). -/
def State.manualDone (s : State) : Bool :=
  (List.range 8).all (fun i =>
    !(cfgRole s.bel.cfg i == 1 && cfgManual s.bel.cfg i) || bit s.bel.tested i)

/-- TEST ends in RUN once BIST, the pulse tests and the manual tests have passed; zones start in SAFE (R378). -/
def State.belStart (s : State) : State :=
  if s.belSt = bTest && s.bel.bist && s.manualDone then s.belTo bRun else s

def State.belTestDone (s : State) (pass : Bool) : State :=
  if s.belSt ≠ bTest then s
  else if pass then (s.modBel (fun b => { b with bist := true })).belStart
  else s.belDiag dBIST true []

/-- A diagnostic of guard input `i` latches its demand until LOAD; in TEST it is a failed guard test (R375, R376). -/
def State.guardDiag (s : State) (d i : Nat) : State :=
  let s := s.orF R.BEL_GIN_FAIL (2 ^ i)
  let s := (s.orF R.BEL_GIN_DEMAND (2 ^ i)).modBel (fun b => { b with latched := b.latched ||| 2 ^ i })
  (s.belDiag d (s.belSt == bTest) [i]).belEval

/-- Guard input `g`, opened before, closes with the stamp of GTTIME's expiry, and wins (R376). -/
def State.closingWaits (s : State) (g : Nat) : Bool :=
  bit s.bel.opened g && s.arrives (fun i => match i with | .guardDemandEnd d => d.val == g | _ => false)

/-- GTTIME expires in TEST (R376). -/
def State.gttime (s : State) : State :=
  if s.belSt ≠ bTest || s.manualDone then s
  else
    match firstIdx 8 (fun i => cfgRole s.bel.cfg i == 1 && cfgManual s.bel.cfg i && !bit s.bel.tested i && !s.closingWaits i) with
    | some i => s.guardDiag dGTPF i
    | none => s

/-- RESTART (R369). -/
def State.belRestart (s : State) : State :=
  if s.belSt ≠ bFault && s.belSt ≠ bSealOpen then s
  else if s.on R.BEL_STAT_SEAL then s.raise R.BEL_STAT_RSTERR
  else s.belLoad

/-- A filtered change of SEAL_OPEN (R374); closing it stops a wipe of the logline (R429). -/
def State.sealChange (s : State) (opened : Bool) : State :=
  let s := s.setB R.BEL_STAT_SEAL opened
  if !opened then s.modLog (fun l => { l with eraseAborted := l.erase.isSome })
  else
    let s := s.count R.BEL_STAT_SEAL_CNT
    let s := s.setReg (R.AON_RET_W 0) (s.f R.BEL_STAT_SEAL_CNT)
    if s.islOn islBLY && s.belSt ≠ bSealOpen then s.belTo bSealOpen else s

/-! ## Writing a configuration (R373) -/

def State.cfgResult (s : State) (r : Nat) : State := s.set R.BEL_CFGW_CTL_RESULT r

/-- CFGW_CTL.GO. -/
def State.configWrite (s : State) : State :=
  let a := 4 * s.f R.BEL_CFGW_LO_ADDR + 2 ^ 32 * s.f R.BEL_CFGW_HI_ADDR
  let n := min (s.rd (a + 4) 4) 16384
  let img := s.bytes a n
  let code := s.sealCode
  let readable := (match s.range a with | some g => g.isMem | none => false) &&
    (match s.range (a + (n - 1)) with | some g => g.isMem | none => false)
  if s.belSt ≠ bSealOpen then s.cfgResult 3
  else
    let s := s.burn
    if !readable then s.cfgResult 5
    else if code ≠ leAt img 10 1 then s.cfgResult 4
    else if !(cfgValid img && cfgAccepted img) then s.cfgResult 5
    else (s.modBel (fun b => { b with img := img })).cfgResult 1

/-- The write ends: `good` when every copy read back. A copy that did not is left with free bytes, those after it untouched. -/
def State.configWriteDone (s : State) (good : Bool) : State :=
  if s.f R.BEL_CFGW_CTL_RESULT ≠ 1 then s
  else
    let img := s.bel.img
    let put (k : Nat) (bs : List Byte) (s : State) : State := s.store (0x04FC0000 + 0x4000 * k) bs
    let s := s.modBel (fun b => { b with img := [] })
    if good then
      let code := s.sealCode
      let s := forN 3 (fun k s => put k img s) s.burn
      s.cfgResult (if code = leAt img 10 1 then 2 else 4)
    else
      let bad := (Config.freeWord s.free).toNat % 3
      let junk := (List.range img.length).map (fun i => Config.freeByte s.free i)
      let s := forN bad (fun k s => put k img s) s
      (put bad junk { s with free := s.free + img.length + 1 }).cfgResult 6

/-! ## Guard inputs (R375, R376) -/

def State.isGuard (s : State) (i : Nat) : Bool := cfgRole s.bel.cfg i == 1

/-- The pulse of guard `g`: the levels of the inputs in its last clock, and TPW after its end. Inputs in demand are not
tested. -/
def State.guardPulse (s : State) (g during after : Nat) : State :=
  if !s.isGuard g || !(s.belSt = bTest || s.belSt = bRun) then s
  else
    let closed (i : Nat) : Bool := !bit (s.f R.BEL_GIN_DEMAND) i
    let wasClosed := (List.range 8).map closed
    let s := s.set R.BEL_GIN_LEVEL after
    let s := if wasClosed.getD g false && (bit during g || !bit after g) then s.guardDiag dGTPF g else s
    forN 8 (fun j s =>
      if j ≠ g && s.isGuard j && wasClosed.getD j false && wasClosed.getD g false && !bit during j then
        (s.guardDiag dXSHORT j).guardDiag dXSHORT g
      else s) s

def State.guardDemand (s : State) (g : Nat) : State :=
  if !s.isGuard g then s
  else
    let s := (s.set ⟨R.BEL_GIN, g, g⟩ 0).orF R.BEL_GIN_DEMAND (2 ^ g)
    let s := if s.belSt = bTest then s.modBel (fun b => { b with opened := b.opened ||| 2 ^ g }) else s
    s.belEval

def State.guardDemandEnd (s : State) (g : Nat) : State :=
  if !s.isGuard g then s
  else
    let s := s.set ⟨R.BEL_GIN, g, g⟩ 1
    let s := if bit s.bel.latched g then s else s.set ⟨R.BEL_GIN, 8 + g, 8 + g⟩ 0
    if s.belSt = bTest then
      (if bit s.bel.opened g then (s.modBel (fun b => { b with tested := b.tested ||| 2 ^ g })).belStart else s)
    else s.belEval

/-- A reset action on input `g` (R375, R378). -/
def State.resetAction (s : State) (g : Nat) : State :=
  if cfgRole s.bel.cfg g ≠ 2 then s else s.zoneResets (fun z => (cfgZone s.bel.cfg z).rstin == g)

/-! ## Zone functions (R377) -/

/-- TSS1 of zone `z` expires. -/
def State.ss1Expiry (s : State) (z : Nat) : State := if s.zone z = 2 then (s.setZone z 3).belOutputs else s

/-- The connection that carries axis `n`. -/
def State.axConn (s : State) (n : Nat) : Option Nat :=
  firstIdx (cfgNconn s.bel.cfg) (fun k => let c := cfgConn s.bel.cfg k; c.axbase ≤ n && n < c.axbase + c.nax)

def State.bconn (s : State) (k : Nat) : BConn := SMap.get (fun _ => {}) s.bel.conns k
def State.setBconn (s : State) (k : Nat) (x : BConn) : State :=
  s.modBel (fun b => { b with conns := SMap.put (fun _ => {}) b.conns k x })

/-- The magnitude of a speed reading of an axis in a zone, and the state with its window closed (R377). A network axis has a
reading for each uplink accepted while the zone monitors, and none for a missing one. -/
def State.slsSpeed (s : State) (z n : Nat) : Option (Word × State) :=
  let f := s.bel.cfg
  match s.axConn n with
  | some k =>
    let c := cfgConn f k
    let x := s.bconn k
    let raw := i16 (x.spd.getD (n - c.axbase) 0)
    if x.spd.isEmpty || x.readBy.contains (256 * z + n) || x.readBy.contains (65536 + z) then none
    else some (F32.abs (F32.val (do F32.mul (← F32.ofInt raw) c.spdunit)), s.setBconn k { x with readBy := (256 * z + n) :: x.readBy })
  | none =>
    match firstIdx 4 (fun e => cfgLencOn f e && cfgLencAxis f e == n) with
    | some e =>
      let now := s.f (R.BEL_LENCNT_EDGES e)
      let base := SMap.get (fun _ => 0) s.bel.lenBase (4 * z + e)
      let edges := u32 ((now : Int) - base)
      some (F32.val (F32.ofInt ((edges : Int) * 1000)),
        s.modBel (fun b => { b with lenBase := SMap.put (fun _ => 0) b.lenBase (4 * z + e) now }))
    | none => none

/-- One reading of axis `n` in a monitoring zone (R377). -/
def State.slsReading (s : State) (z n : Nat) : State :=
  let c := cfgZone s.bel.cfg z
  if s.belSt ≠ bRun || cfgNzone s.bel.cfg ≤ z || s.zone z ≠ 1 || !bit c.axmask n then s
  else
    match s.slsSpeed z n with
    | none => s
    | some (v, s) =>
      let key := 256 * z + n
      let fast := F32.gt v c.slslim
      let run := if fast then SMap.get (fun _ => 0) s.bel.sls key + 1 else 0
      let s := s.modBel (fun b => { b with sls := SMap.put (fun _ => 0) b.sls key run })
      if cfgSlsN s.bel.cfg ≤ run then (s.setZone z (if bit c.flags 3 then 2 else 3)).belOutputs else s

/-! ## Containers (R379, R381, R382) -/

/-- The connection of a node. -/
def State.connOf (s : State) (r a : Nat) : Option Nat :=
  firstIdx (cfgNconn s.bel.cfg) (fun k => let c := cfgConn s.bel.cfg k; c.ring == r && c.addr == a)

/-- STO requests of a connection's axes. -/
def State.connCmd (s : State) (k : Nat) : Nat :=
  let c := cfgConn s.bel.cfg k
  (List.range c.nax).foldl (fun m i => if s.axSto (c.axbase + i) then m + 2 ^ i else m) 0

/-- The downlink container of cycle `n` for a node, and the state with its requests noted; a node of no connection gets
zeros. -/
def State.containerDown (s : State) (r a n : Nat) : List Byte × State :=
  match s.connOf r a with
  | none => (List.replicate 16 0, s)
  | some k =>
    let f := s.bel.cfg
    let c := cfgConn f k
    let cmd := s.connCmd k
    let b := leBytes 2 n ++ leBytes 1 c.conn ++ leBytes 1 cmd ++ leBytes 1 (cfgWdc f) ++ List.replicate 7 0
    let x := s.bconn k
    let req := (List.range 4).map (fun i =>
      if !bit cmd i then none
      else if bit x.asked i then x.req.getD i none
      else some n)
    (b ++ leBytes 4 (crc32Seed c.seed b), s.setBconn k { x with started := true, req := req, asked := cmd })

/-- An uplink container of cycle `n` passed by a ring port (R381), in every state of Belay with a configuration. -/
def State.containerUp (s : State) (r a n : Nat) (b : List Byte) : State :=
  match s.connOf r a with
  | none => s
  | some k =>
    if !s.islOn islBLY then s
    else
      let f := s.bel.cfg
      let c := cfgConn f k
      let age := i16 ((n : Int) - 1 - (leAt b 0 2 : Int))
      if leAt b 12 4 ≠ crc32Seed (c.seed ^^^ 0xFFFFFFFF) (b.take 12) || leAt b 2 1 ≠ c.conn then s.count R.BEL_CNT_CRC
      else if !(decide (0 ≤ age ∧ age ≤ (cfgWdc f : Int) - 1)) then s.count R.BEL_CNT_SEQ
      else
        let st := leAt b 3 1
        let x := s.bconn k
        s.setBconn k { x with got := true,
                              req := (List.range 4).map (fun i => if bit st i then none else x.req.getD i none),
                              spd := (List.range 4).map (fun i => leAt b (4 + 2 * i) 2), readBy := [] }

/-- The unit gives up its duplex rings: its Belay neither writes nor judges containers on them (R388). -/
def State.connsLeave (s : State) (rings : List Nat) : State :=
  forN (cfgNconn s.bel.cfg) (fun k s => if rings.contains (cfgConn s.bel.cfg k).ring then s.setBconn k {} else s) s

/-- The boundary ends a cycle of every connection whose containers have started (R381). -/
def State.belBoundary (s : State) : State :=
  forN (cfgNconn s.bel.cfg) (fun k s =>
    let x := s.bconn k
    if !x.started then s
    else s.setBconn k { x with got := false, ok := if x.got then min (x.ok + 1) 255 else 0,
                               miss := if x.got then 0 else min (x.miss + 1) 255 }) s

/-- CONNF of a connection is set. -/
def State.connFail (s : State) (k : Nat) : State :=
  if s.on (connfFld k) then s else ((s.raise (connfFld k)).belReport (16 + k) [k]).belExt

/-- No container accepted for BWD cycles (R381). -/
def State.connWatchdog (s : State) (k : Nat) : State :=
  if k < cfgNconn s.bel.cfg && cfgBwd s.bel.cfg ≤ (s.bconn k).miss then
    ((s.count R.BEL_CNT_WD).connFail k).belEval
  else s

/-- An STO request first carried in cycle M is not confirmed by cycle M + 4 (R381). -/
def State.stoConfirmTimeout (s : State) (k : Nat) : State :=
  let due := (s.bconn k).req.any (fun r => match r with | some m => decide (4 ≤ dt s.cyc m) | none => false)
  if k < cfgNconn s.bel.cfg && due then
    let s := (s.connFail k).modBel (fun b => { b with nso := true })
    (s.belDiag dSTOCONF false [k]).belEval
  else s

/-- A W1C write of CONNF[w] (R381). -/
def State.connfClear (s : State) (w mask : Nat) : State :=
  let n := cfgBwd s.bel.cfg
  let clear (i : Nat) : Bool := bit mask i && s.on (connfFld (32 * w + i)) && n ≤ (s.bconn (32 * w + i)).ok && 1 ≤ n
  let bits' := (List.range 32).filter clear
  if bits'.isEmpty then s
  else (forEach bits' (fun i s => s.clr (connfFld (32 * w + i))) s).belExt.belEval

/-! ## GBOTH, test pulses and further diagnostics (R383, R385, R386) -/

def State.gbothRequest (s : State) (b : Nat) : State :=
  ((s.orF R.BEL_SO_GBOTHREQ (2 ^ b)).belReport (272 + b) [b]).belOutputs

/-- A channel of the bank still has GBOTH. -/
def State.bankGboth (s : State) (b : Nat) : Bool := (List.range 16).any (fun j => s.on (R.PC_STAT_GBOTH (16 * b + j)))

/-- SORST (R385). -/
def State.sorst (s : State) (mask : Nat) : State :=
  let keep := (List.range 4).foldl (fun m b =>
    if bit (s.f R.BEL_SO_GBOTHREQ) b && !(bit mask b && !s.bankGboth b) then m + 2 ^ b else m) 0
  (s.set R.BEL_SO_GBOTHREQ keep).belOutputs

/-- A test pulse of a released output (R386). -/
def State.soPulse (s : State) (b : Nat) (good : Bool) : State :=
  if good || s.belSt ≠ bRun || !cfgSotest s.bel.cfg || s.safeOff b then s else s.belDiag dSOTP true [b]

/-- The working copy fails its CRC (R383). -/
def State.cfgCrcCheck (s : State) : State :=
  if (s.belSt = bTest || s.belSt = bRun) && !cfgValid s.bel.cfg then s.belDiag dCFGCRC true [] else s

/-- An edge on TCI[i] is counted by every LENC on its pair (R377). -/
def State.lencEdge (s : State) (i : Nat) : State :=
  forN 4 (fun e s =>
    if cfgLencOn s.bel.cfg e && cfgLencPair s.bel.cfg e == i / 2 && s.islOn islBLY then s.bump (R.BEL_LENCNT_EDGES e) else s) s

/-! ## Register writes (R389) -/

/-- A write of DOM[0] to the Belay block. -/
def State.belWrite (s : State) (a v : Nat) : State :=
  if a = R.BEL_CTRL_W then (if bit v 0 then s.belRestart else s)
  else if a = R.BEL_SORST_W then s.sorst (v % 16)
  else if a = R.BEL_ZREQ_W then (s.set R.BEL_ZREQ_REQ v).belEval
  else if a = R.BEL_ZRST_W then s.zoneResets (fun z => bit v z)
  else if a = R.BEL_CFGW_CTL then (if bit v 0 then s.configWrite else s)
  else if 0x10340080 ≤ a && a < 0x103400A0 then s.connfClear ((a - 0x10340080) / 4) v
  else s.storeWrite a v

/-- Belay acts only while its island runs. -/
def State.withBel (s : State) (f : State → State) : State := if s.islOn islBLY then f s else s

/-! ## Event commands of Belay -/

/-- BELAY_POWER_UP (R369). -/
def execBelayPowerUp (s : State) : Res := .next s.belPowerUp
/-- CONFIG_VOTE (R370). -/
def execConfigVote (s : State) : Res := .next (s.withBel fun s => s.configVote)
/-- BELAY_TEST_DONE (R369). -/
def execBelayTestDone (pass : Bool) (s : State) : Res := .next (s.withBel fun s => s.belTestDone pass)
/-- GTTIME_EXPIRY (R376). -/
def execGttimeExpiry (s : State) : Res := .next (s.withBel fun s => s.gttime)
/-- SEAL_OPEN (R374). -/
def execSealOpen (opened : Bool) (s : State) : Res := .next (s.sealChange opened)
/-- CONFIG_WRITE_DONE (R373). -/
def execConfigWriteDone (good : Bool) (s : State) : Res := .next (s.withBel fun s => s.configWriteDone good)
/-- GUARD_TEST_PULSE (R375). -/
def execGuardTestPulse (g : Fin 8) (during after : BitVec 8) (s : State) : Res :=
  .next (s.withBel fun s => s.guardPulse g during.toNat after.toNat)
/-- GUARD_DEMAND (R375). -/
def execGuardDemand (g : Fin 8) (s : State) : Res := .next (s.withBel fun s => s.guardDemand g)
/-- GUARD_DEMAND_END (R375). -/
def execGuardDemandEnd (g : Fin 8) (s : State) : Res := .next (s.withBel fun s => s.guardDemandEnd g)
/-- RESET_ACTION (R375). -/
def execResetAction (g : Fin 8) (s : State) : Res := .next (s.withBel fun s => s.resetAction g)
/-- SS1_TIMER_EXPIRY (R377). -/
def execSs1TimerExpiry (z : Fin 32) (s : State) : Res := .next (s.withBel fun s => s.ss1Expiry z)
/-- SLS_READING (R377). -/
def execSlsReading (z : Fin 32) (axis : Fin 256) (s : State) : Res := .next (s.withBel fun s => s.slsReading z axis)
/-- CONNECTION_WATCHDOG (R381). -/
def execConnectionWatchdog (n : Fin 256) (s : State) : Res := .next (s.withBel fun s => s.connWatchdog n)
/-- STO_CONFIRM_TIMEOUT (R381). -/
def execStoConfirmTimeout (n : Fin 256) (s : State) : Res := .next (s.withBel fun s => s.stoConfirmTimeout n)
/-- GBOTH_REQUEST (R385). -/
def execGbothRequest (bank : Fin 4) (s : State) : Res := .next (s.withBel fun s => s.gbothRequest bank)
/-- SAFE_OFF_TEST_PULSE (R386). -/
def execSafeOffTestPulse (b : Fin 4) (good : Bool) (s : State) : Res := .next (s.withBel fun s => s.soPulse b good)
/-- SAFE_OFF_FEEDBACK_FAULT (R383). -/
def execSafeOffFeedbackFault (b : Fin 4) (s : State) : Res := .next (s.withBel fun s => s.belDiag dSOFB true [b])
/-- OSC_CHECK_WINDOW (R383): the 1 ms window against TIM, or the 1 s window against the backup oscillator. -/
def execOscCheckWindow (backup good : Bool) (s : State) : Res :=
  .next (s.withBel fun s => if good then s else s.belDiag (if backup then dOSCB else dOSCT) true [])
/-- CONFIG_CRC_CHECK (R383). -/
def execConfigCrcCheck (s : State) : Res := .next (s.withBel fun s => s.cfgCrcCheck)
/-- GATE_SENSE_CHANGE (R328, R331): GBOTH requests SAFE_OFF of the bank. -/
def execGateSenseChange (ch : Fin 64) (low level : Bool) (s : State) : Res :=
  let s' := s.gateSense ch low level
  .next (if s'.on (R.PC_STAT_GBOTH ch) && !s.on (R.PC_STAT_GBOTH ch) then s'.withBel (fun s => s.gbothRequest (ch / 16)) else s')

end Sys2Proof.Machine
end

