-- ==== Sys2Proof/Machine/Crypto.lean ====
section
/-! DEFINITION. The image check's cryptography (R461): SHA-384 (FIPS 180-4) and the ECDSA P-384 verification of FIPS 186-5. -/

namespace Sys2Proof.Machine

/-! ## SHA-384 -/

def shaK0 : List Nat :=
  [0x428A2F98D728AE22, 0x7137449123EF65CD, 0xB5C0FBCFEC4D3B2F, 0xE9B5DBA58189DBBC,
   0x3956C25BF348B538, 0x59F111F1B605D019, 0x923F82A4AF194F9B, 0xAB1C5ED5DA6D8118,
   0xD807AA98A3030242, 0x12835B0145706FBE, 0x243185BE4EE4B28C, 0x550C7DC3D5FFB4E2,
   0x72BE5D74F27B896F, 0x80DEB1FE3B1696B1, 0x9BDC06A725C71235, 0xC19BF174CF692694,
   0xE49B69C19EF14AD2, 0xEFBE4786384F25E3, 0x0FC19DC68B8CD5B5, 0x240CA1CC77AC9C65]
def shaK1 : List Nat :=
  [0x2DE92C6F592B0275, 0x4A7484AA6EA6E483, 0x5CB0A9DCBD41FBD4, 0x76F988DA831153B5,
   0x983E5152EE66DFAB, 0xA831C66D2DB43210, 0xB00327C898FB213F, 0xBF597FC7BEEF0EE4,
   0xC6E00BF33DA88FC2, 0xD5A79147930AA725, 0x06CA6351E003826F, 0x142929670A0E6E70,
   0x27B70A8546D22FFC, 0x2E1B21385C26C926, 0x4D2C6DFC5AC42AED, 0x53380D139D95B3DF,
   0x650A73548BAF63DE, 0x766A0ABB3C77B2A8, 0x81C2C92E47EDAEE6, 0x92722C851482353B]
def shaK2 : List Nat :=
  [0xA2BFE8A14CF10364, 0xA81A664BBC423001, 0xC24B8B70D0F89791, 0xC76C51A30654BE30,
   0xD192E819D6EF5218, 0xD69906245565A910, 0xF40E35855771202A, 0x106AA07032BBD1B8,
   0x19A4C116B8D2D0C8, 0x1E376C085141AB53, 0x2748774CDF8EEB99, 0x34B0BCB5E19B48A8,
   0x391C0CB3C5C95A63, 0x4ED8AA4AE3418ACB, 0x5B9CCA4F7763E373, 0x682E6FF3D6B2B8A3,
   0x748F82EE5DEFB2FC, 0x78A5636F43172F60, 0x84C87814A1F0AB72, 0x8CC702081A6439EC]
def shaK3 : List Nat :=
  [0x90BEFFFA23631E28, 0xA4506CEBDE82BDE9, 0xBEF9A3F7B2C67915, 0xC67178F2E372532B,
   0xCA273ECEEA26619C, 0xD186B8C721C0C207, 0xEADA7DD6CDE0EB1E, 0xF57D4F7FEE6ED178,
   0x06F067AA72176FBA, 0x0A637DC5A2C898A6, 0x113F9804BEF90DAE, 0x1B710B35131C471B,
   0x28DB77F523047D84, 0x32CAAB7B40C72493, 0x3C9EBE0A15C9BEBC, 0x431D67C49C100D4C,
   0x4CC5D4BECB3E42B6, 0x597F299CFC657E2A, 0x5FCB6FAB3AD6FAEC, 0x6C44198C4A475817]

/-- The 80 round constants: the first 64 bits of the fractional parts of the cube roots of the first 80 primes. -/
def shaK : List Nat := shaK0 ++ shaK1 ++ shaK2 ++ shaK3

/-- The initial hash value of SHA-384. -/
def shaInit : List Nat :=
  [0xCBBB9D5DC1059ED8, 0x629A292A367CD507, 0x9159015A3070DD17, 0x152FECD8F70E5939,
   0x67332667FFC00B31, 0x8EB44A8768581511, 0xDB0C2E0D64F98FA7, 0x47B5481DBEFA4FA4]

def w64 (x : Nat) : Nat := x % 2 ^ 64
def ror64 (x n : Nat) : Nat := x / 2 ^ n + x % 2 ^ n * 2 ^ (64 - n)
def bsig0 (x : Nat) : Nat := ror64 x 28 ^^^ ror64 x 34 ^^^ ror64 x 39
def bsig1 (x : Nat) : Nat := ror64 x 14 ^^^ ror64 x 18 ^^^ ror64 x 41
def ssig0 (x : Nat) : Nat := ror64 x 1 ^^^ ror64 x 8 ^^^ x / 2 ^ 7
def ssig1 (x : Nat) : Nat := ror64 x 19 ^^^ ror64 x 61 ^^^ x / 2 ^ 6

/-- The message schedule: the 16 latest words, newest first, and the words still to produce. -/
def shaSched : Nat → List Nat → List Nat → List Nat
  | 0, _, acc => acc.reverse
  | n + 1, w, acc =>
    let x := w64 (ssig1 (w.getD 1 0) + w.getD 6 0 + ssig0 (w.getD 14 0) + w.getD 15 0)
    shaSched n (x :: w.take 15) (x :: acc)

structure Sha where
  a : Nat
  b : Nat
  c : Nat
  d : Nat
  e : Nat
  f : Nat
  g : Nat
  h : Nat

/-- One round. -/
def Sha.round (s : Sha) (kw : Nat × Nat) : Sha :=
  let t1 := s.h + bsig1 s.e + ((s.e &&& s.f) ^^^ ((2 ^ 64 - 1 - s.e) &&& s.g)) + kw.1 + kw.2
  let t2 := bsig0 s.a + ((s.a &&& s.b) ^^^ (s.a &&& s.c) ^^^ (s.b &&& s.c))
  ⟨w64 (t1 + t2), s.a, s.b, s.c, w64 (s.d + t1), s.e, s.f, s.g⟩

/-- One block of 16 words. -/
def shaBlock (hs w : List Nat) : List Nat :=
  let g := fun i => hs.getD i 0
  let r := (shaK.zip (w ++ shaSched 64 w.reverse [])).foldl Sha.round
    ⟨g 0, g 1, g 2, g 3, g 4, g 5, g 6, g 7⟩
  [w64 (g 0 + r.a), w64 (g 1 + r.b), w64 (g 2 + r.c), w64 (g 3 + r.d), w64 (g 4 + r.e), w64 (g 5 + r.f), w64 (g 6 + r.g),
   w64 (g 7 + r.h)]

/-- The blocks of a padded message. -/
def shaBlocks : Nat → List Byte → List Nat → List Nat
  | 0, _, hs => hs
  | n + 1, m, hs => shaBlocks n (m.drop 128) (shaBlock hs ((List.range 16).map (fun i => beAt m (8 * i) 8)))

/-- SHA-384 of a message, as a number of 384 bits. -/
def sha384 (m : List Byte) : Nat :=
  let n := m.length
  let blocks := (n + 17 + 127) / 128
  let p := m ++ [0x80] ++ List.replicate (128 * blocks - n - 17) 0 ++ beBytes 16 (8 * n)
  ((shaBlocks blocks p shaInit).take 6).foldl (fun x w => x * 2 ^ 64 + w) 0

/-! ## ECDSA on P-384 -/

def p384P : Nat := 2 ^ 384 - 2 ^ 128 - 2 ^ 96 + 2 ^ 32 - 1
def p384N : Nat := 0xFFFFFFFFFFFFFFFFFFFFFFFFFFFFFFFFFFFFFFFFFFFFFFFFC7634D81F4372DDF581A0DB248B0A77AECEC196ACCC52973
def p384B : Nat := 0xB3312FA7E23EE7E4988E056BE3F82D19181D9C6EFE8141120314088F5013875AC656398D8A2ED19D2A85C8EDD3EC2AEF
def p384Gx : Nat := 0xAA87CA22BE8B05378EB1C71EF320AD746E1D3B628BA79B9859F741E082542A385502F25DBF55296C3A545E3872760AB7
def p384Gy : Nat := 0x3617DE4A96262C6F5D9E98BF9292DC29F8F41DBD289A147CE9DA3113B5F0B8C00A60B1CE1D7E819D7A431D7C90EA0E5F

/-- `x ^ e mod m` for exponents below `2 ^ n`. -/
def powMod (m x : Nat) : Nat → Nat → Nat
  | 0, _ => 1 % m
  | n + 1, e =>
    let h := powMod m x n (e / 2)
    if e % 2 = 1 then h * h % m * x % m else h * h % m

/-- The inverse modulo a prime below 2^384. -/
def invMod (m x : Nat) : Nat := powMod m (x % m) 384 (m - 2)

/-- An affine point; `none` is the point at infinity. -/
abbrev ECPoint := Option (Nat × Nat)

def ecAdd (a b : ECPoint) : ECPoint :=
  match a, b with
  | none, q => q
  | p, none => p
  | some (x1, y1), some (x2, y2) =>
    let P := p384P
    if x1 = x2 && (y1 + y2) % P = 0 then none
    else
      let l :=
        if x1 = x2 then (3 * x1 * x1 + P - 3) % P * invMod P (2 * y1) % P
        else (y2 + P - y1) % P * invMod P (x2 + P - x1) % P
      let x := (l * l + 2 * P - x1 - x2) % P
      some (x, (l * (x1 + P - x) + P - y1) % P)

/-- `k` times a point, `k` below `2 ^ n`. -/
def ecMul (a : ECPoint) : Nat → Nat → ECPoint
  | 0, _ => none
  | n + 1, k =>
    let h := ecMul a n (k / 2)
    let d := ecAdd h h
    if k % 2 = 1 then ecAdd d a else d

/-- The signature (r, s) of the hash `e` verifies under the public key (x, y). -/
def ecdsaOk (x y r s e : Nat) : Bool :=
  let P := p384P
  let N := p384N
  let onCurve := x < P && y < P && (y * y) % P == (x * x * x + (P - 3) * x + p384B) % P
  if !onCurve || r = 0 || N ≤ r || s = 0 || N ≤ s then false
  else
    let w := invMod N s
    match ecAdd (ecMul (some (p384Gx, p384Gy)) 384 (e % N * w % N)) (ecMul (some (x, y)) 384 (r * w % N)) with
    | none => false
    | some (v, _) => v % N == r

end Sys2Proof.Machine
end

