-- ==== Sys2Proof/Machine/Learn.lean ====
section
/-! DEFINITION. Repetitive learning per turn (spec/06_repetitive_learning.md): the table's checks, the bin of a master
position, the read u_rep, the accumulator and the commit. -/

namespace Sys2Proof.Machine

open F32 (add sub mul fma fms div)

/-! ## The table (R168) -/

def State.repAddr (s : State) (n : Nat) : Nat := s.fa (R.AX_REP_TADDR_LO n) + 2 ^ 32 * s.fa (R.AX_REP_TADDR_HI n)
def repNB (s : State) (a : Nat) : Nat := s.rd (a + 4) 2
def repPeriod (s : State) (a : Nat) : Nat := s.rd (a + 8) 4
def repFlags (s : State) (a : Nat) : Nat := s.rd (a + 6) 1
def repBinAddr (a i : Nat) : Nat := a + 32 + 4 * i

/-- The kinds of memory a table may lie in (R171). -/
def State.repPlace (s : State) (a len : Nat) (shared : Bool) : Bool :=
  match s.range a, s.range (a + len - 1) with
  | some g, some g' => g == g' && (g == .sram || (!shared && (g == .local || g == .dram)))
  | _, _ => false

/-- The checks of R171 pass. -/
def State.repTableOk (s : State) (n : Nat) : Bool :=
  let a := s.repAddr n
  let nb := repNB s a
  let len := 32 + 4 * nb
  let learn := s.onA (R.AX_REP_CTRL_LEARN n)
  let shared := bit (repFlags s a) 1
  let d := s.owner n
  a % 16 == 0 && s.engOk islDSP d a 32 .read && s.rd a 4 == 0x31504552 && (nb == 1024 || nb == 2048 || nb == 4096) &&
    nb ≤ repPeriod s a && s.engOk islDSP d a len .read && (!learn || s.engOk islDSP d a len .write) &&
    s.repPlace a len shared &&
    !(learn && !shared && (List.range 256).any (fun m => m != n && s.onA (R.AX_REP_CTRL_EN m) && s.onA (R.AX_REP_CTRL_LEARN m) &&
      s.repAddr m == a))

/-- What is due at an activation: a discard by CTRL.CLR (R172), and the check after a boundary (R171). -/
def State.repCheck (s : State) (n : Nat) : State :=
  let s := if (s.ax n).rep.clr then s.modAx n (fun x => { x with rep := { x.rep with n := 0, clr := false } }) else s
  if (s.ax n).rep.check then
    let s := s.modAx n (fun x => { x with rep := { x.rep with check := false } })
    if s.onA (R.AX_REP_CTRL_EN n) && !s.repTableOk n then s.raise (R.AX_STATUS_REPERR n) else s
  else s

/-! ## Bins (R164) -/

/-- Bin and position in it of a master position with 16 fractional bits. -/
def repBin (x mOfs : Int) (p nb : Nat) : FM (Nat × Word) := do
  let q : Int := (p : Int) * 65536
  let w := x - mOfs * 65536
  let θ := w % q
  let i := (θ * nb / q).toNat
  let a ← F32.ofInt (θ * nb - i * q)
  let b ← F32.ofInt q
  let u ← div a b
  pure (i, u)

def State.repMOfs (s : State) (n : Nat) : Int := i32 (s.fa (R.AX_REP_M_OFS n))

/-- The master's state `ns` after S of this activation, for cycle `c` (R163): of its publication, extrapolated. -/
def State.repMaster (s : State) (n c : Nat) (ns : Int) : Option (FM Kin) :=
  let m := s.fa (R.AX_REP_MASTER n)
  let act := s.onA (R.AX_REP_CTRL_MSRC n)
  (s.masterPub m c act).map (fun p => extrapolate p act (dt (s.ax n).sStamp p.s + ns))

/-! ## The read (R165) -/

/-- A bin, read as 0 when it is not finite; and whether it was finite. -/
def State.repBinRead (s : State) (n i : Nat) : Word × Bool :=
  let w := toW (s.rd (repBinAddr (s.repAddr n) i) 4)
  if F32.isFinite w then (w, true) else (0, false)

/-- u_rep at the master state of t_mid (R165), with REPNUM. -/
def State.repRead (s : State) (n : Nat) (m : Kin) : FM (Word × State) := do
  let a := s.repAddr n
  let nb := repNB s a
  let (i, u) ← repBin m.x (s.repMOfs n) (repPeriod s a) nb
  let t0 := s.repBinRead n i
  let t1 := s.repBinRead n ((i + 1) % nb)
  let d ← sub t1.1 t0.1
  let y ← fma u d t0.1
  let lim := s.wa (R.AX_REP_UMAX n)
  pure (F32.clamp y (F32.neg lim) lim, if t0.2 && t1.2 then s else s.raise (R.AX_STATUS_REPNUM n))

/-! ## The update (R166 to R169) -/

/-- commit(b, e_mean) of R167: one atomic read-modify-write unless the table is frozen (R169). -/
def State.repCommit (s : State) (n b : Nat) (mean vm : Word) : FM State := do
  let a := s.repAddr n
  if bit (repFlags s a) 0 || !s.engOk islDSP (s.owner n) a 32 .write then pure s
  else
    let nb := repNB s a
    let lt ← F32.ofInt (s.fa (R.AX_REP_LEAD_T n))
    let x ← mul lt f32Nano
    let x ← mul x (F32.abs vm)
    let fn ← F32.ofInt nb
    let x ← mul x fn
    let fp ← F32.ofInt (repPeriod s a)
    let x ← div x fp
    let lb ← F32.toU32 x
    let lb := min ((s.fa (R.AX_REP_LEAD_B n) + lb.toNat) % 2 ^ 32) (nb / 4)
    let wi := if F32.ge vm 0 then (b + nb - lb) % nb else (b + lb) % nb
    let old := toW (s.rd (repBinAddr a wi) 4)
    let ge ← mul (s.wa (R.AX_REP_Q n)) old
    let v ← fma (s.wa (R.AX_REP_LGAIN n)) mean ge
    let lim := s.wa (R.AX_REP_UMAX n)
    let v := F32.clamp v (F32.neg lim) lim
    let fin := F32.isFinite v
    let v := if fin then v else 0
    let s := s.wr (repBinAddr a wi) 4 v.toNat
    let s := s.wr (a + 12) 4 ((s.rd (a + 12) 4 + 1) % 2 ^ 32)
    let s := if fin then s else s.raise (R.AX_STATUS_REPNUM n)
    pure (s.bump (R.AX_REP_COMMITS n))

/-- The accumulator is discarded (R166). -/
def State.repDrop (s : State) (n : Nat) : State := s.modAx n (fun x => { x with rep := { x.rep with n := 0 } })

/-- An accumulating activation with e_L, its master state at S (R167). -/
def State.repAccumulate (s : State) (n : Nat) (eL : Word) (m : Kin) : FM State := do
  let a := s.repAddr n
  let nb := repNB s a
  let (b, _) ← repBin m.x (s.repMOfs n) (repPeriod s a) nb
  let r := (s.ax n).rep
  if r.n > 0 && b == r.bin then
    let sum ← add r.sum eL
    pure (s.modAx n (fun x => { x with rep := { x.rep with sum := sum, n := min (r.n + 1) 65535 } }))
  else
    let s ← (do
      if r.n > 0 then
        let fn ← F32.ofInt r.n
        let mean ← div r.sum fn
        let s ← s.repCommit n r.bin mean m.v
        let fwd := (b + nb - r.bin) % nb
        let gap := min fwd (nb - fwd)
        pure (if gap > 1 then s.countK (R.AX_REP_SKIPCNT n) (gap - 1) else s)
      else pure s)
    pure (s.modAx n (fun x => { x with rep := { x.rep with bin := b, sum := eL, n := 1 } }))

/-- What the repetitive stage of an activation needs (R163, R166). -/
structure RepIn where
  /-- Master states at S and t_mid; none when the master is lost. -/
  atS : Option Kin
  atM : Option Kin
  /-- Every condition of R166 that the cascade decides. -/
  may : Bool
  eL : Word

/-- The master is lost for the repetitive term (R174). -/
def State.repLost (s : State) (n : Nat) : State :=
  let s := s.repDrop n
  if s.on (R.AX_STATUS_REPMLOST n) then s
  else (s.raise (R.AX_STATUS_REPMLOST n)).report (srcOf 3 (n * 8 + 7)) clsWarn (s.owner n) [1, s.fa (R.AX_REP_MASTER n)]

/-- The update of an activation (R166): it accumulates, or discards the accumulator. -/
def State.repUpdate (s : State) (n : Nat) (x : RepIn) : FM State :=
  match x.atS with
  | none => pure (s.repDrop n)
  | some m =>
    let amax := s.wa (R.AX_REP_AMAX n)
    let ok := x.may && s.onA (R.AX_REP_CTRL_LEARN n) && !s.onA (R.AX_REP_CTRL_FREEZE n) &&
      F32.ge (F32.abs m.v) (s.wa (R.AX_REP_VMIN n)) && (!F32.gt amax 0 || F32.le (F32.abs m.a) amax)
    if ok then s.repAccumulate n x.eL m else pure (s.repDrop n)

end Sys2Proof.Machine
end

