-- ==== Sys2Proof/Machine/Reference.lean ====
section
/-! DEFINITION. The reference of an activation (spec/05_profiles_hitches_limits.md): the transition from the mode that ran
to the active mode (R146, R147), profile starts, stops, hitches, and the state at the two instants asked for. -/

namespace Sys2Proof.Machine

open F32 (add sub mul fma fms div)

/-- The instants of an activation (R107, R158): its cycle, S as a stamp and as an instant, and ns from S to the second
instant (t_mid, or the segment end of a stepper gang, R356). -/
structure When where
  cyc : Nat
  stamp : Nat
  at' : Inst
  next : Int
  deriving DecidableEq, Repr

def When.later (w : When) : Inst := ⟨w.at'.cyc, w.at'.ofs + w.next⟩

/-- Both states asked for. -/
structure Refs where
  s : Kin
  m : Kin
  deriving DecidableEq, Repr

/-- Modes with a reference. -/
def refMode (m : Nat) : Bool := m == mHold || m == mProfile || m == mVelocity || m == mHitch || m == mIdent

/-! ## Targets and plans -/

def State.tgtX (s : State) (n : Nat) : Int := s.s64a (R.AX_X_TGT_LO n) (R.AX_X_TGT_HI n)
def State.lims (s : State) (n : Nat) : Lims := ⟨s.wa (R.AX_AMAX n), s.wa (R.AX_DMAX n), s.wa (R.AX_JMAX n)⟩
/-- Active limits allow a start (R142). -/
def State.limsOk (s : State) (n : Nat) : Bool :=
  [R.AX_VMAX n, R.AX_AMAX n, R.AX_DMAX n, R.AX_JMAX n, R.AX_SDMAX n, R.AX_SJMAX n].all (fun x => finPos (s.wa x))

/-- The target velocity in VELOCITY: VTGT within ±VMAX, 0 toward a blocked side (R138, R161). -/
def State.velTarget (s : State) (n : Nat) : Word :=
  let v := F32.clamp (s.wa (R.AX_VTGT n)) (F32.neg (s.wa (R.AX_VMAX n))) (s.wa (R.AX_VMAX n))
  if (s.on (R.AX_STATUS_LIMP n) && F32.gt v 0) || (s.on (R.AX_STATUS_LIMN n) && F32.lt v 0) then 0 else v

def State.setGen (s : State) (n : Nat) (g : Gen) : State := s.modAx n (fun x => { x with gen := g })

/-- What a refused start leaves (R142): the plan in progress, unchanged; or, for an axis without a generator state (`fresh`), a
generator set to `k`. -/
def State.startRefused (s : State) (n : Nat) (t : Inst) (k : Kin) (fresh : Bool) : State :=
  (if fresh then s.setGen n (Gen.held t k) else s).raise (R.AX_STATUS_PRFERR n)

/-- A position move planned at `t` from `k` to the active X_TGT (R140, R142). -/
def State.planTo (s : State) (n : Nat) (t : Inst) (k : Kin) (fresh : Bool := false) : FM State := do
  let tgt := s.tgtX n
  let d := tgt * 65536 - k.x
  let bad := !s.limsOk n || s.outOfRange n tgt || decide (2 ^ 47 * 65536 ≤ d.natAbs) ||
    (s.on (R.AX_STATUS_LIMP n) && decide (0 < d)) || (s.on (R.AX_STATUS_LIMN n) && decide (d < 0))
  if bad then pure (s.startRefused n t k fresh)
  else
    let g ← Gen.move t k (tgt * 65536) (s.wa (R.AX_VMAX n)) (s.lims n)
    pure ((s.setGen n g).clr (R.AX_STATUS_PDONE n))

/-- A velocity change planned at `t` from `k` to the target velocity (R137, R138). -/
def State.changeTo (s : State) (n : Nat) (t : Inst) (k : Kin) (fresh : Bool := false) : FM State := do
  if !s.limsOk n then pure (s.startRefused n t k fresh)
  else
    let g ← Gen.change t k (s.velTarget n) (s.lims n)
    pure (s.setGen n g)

/-- The generator stands still at X_ACT, the mode is HOLD (R144, R122). -/
def State.hardStop (s : State) (n : Nat) (t : Inst) : State :=
  let s := (s.setGen n (Gen.held t ⟨s.xAct n * 65536, 0, 0⟩)).dropHitch n
  let s := (s.clr (R.AX_STATUS_STOPPING n)).modAx n (fun x =>
    { x with stop := 0, hard := false, hold := false, ramp := false, start := none, vchg := none, ran := mHold })
  if s.mode n = mOff then s else s.hwMode n mHold

/-- A ramped stop of class `cls` starts at `t` from `k` (R143); with no usable SDMAX or SJMAX it is a hard stop, and the
record says so. -/
def State.rampStop (s : State) (n cls : Nat) (t : Inst) (k : Kin) : FM State := do
  let a := s.wa (R.AX_SDMAX n)
  let j := s.wa (R.AX_SJMAX n)
  if !(finPos a && finPos j) then
    pure ((s.hardStop n t).report (srcOf 3 (n * 8 + 6)) clsWarn (s.owner n) [2, s.axNow n])
  else
    let g ← Gen.change t k 0 ⟨a, a, j⟩
    let s := ((s.setGen n g).dropHitch n).raise (R.AX_STATUS_STOPPING n)
    pure (s.modAx n (fun x => { x with stop := cls, ramp := false, hold := false, hard := false, start := none, vchg := none }))

/-! ## Hitches -/

/-- The master's state `ns` after S (R149). -/
def State.masterAt (s : State) (n : Nat) (w : When) (c : HitchCfg) (ns : Int) : Option (FM Kin) :=
  let act := s.onA (R.AX_HITCH_CTRL_MSRC n)
  (s.masterPub c.master w.cyc act).map (fun p => extrapolate p act (dt w.stamp p.s + ns))

/-- The reference of an engaged hitch `ns` after S, blended while the engage blend runs (R152 to R156). -/
def State.hitchRef (s : State) (n : Nat) (mf : FM Kin) : FM Kin := do
  let h := (s.ax n).hitch
  let m ← mf
  let k ← s.hitchAt n h.cfg h.sOfs m
  if h.blend then blendAt h (s.wa (R.AX_ENG_DIST n)) m k else pure k

/-- An engage refused: HITCHERR, and the mode goes back (R150, R182). -/
def State.refuseEngage (s : State) (n back : Nat) : State :=
  (((s.dropHitch n).raise (R.AX_STATUS_HITCHERR n)).hwMode n back).modAx n (fun x => { x with ran := back })

/-- HITCH is entered from `back`: engage is checked and waits (R150, R155). -/
def State.enterHitch (s : State) (n back : Nat) : State :=
  if s.engageRefused n then s.refuseEngage n back
  else (s.raise (R.AX_STATUS_HWAIT n)).modAx n (fun x => { x with hitch := { cfg := s.hitchCfg n, back := back } })

/-- Master position at S less M_OFS: what ENG_AT and DIS_AT are passed by. -/
def State.masterW (s : State) (n : Nat) (m : Kin) : Int := m.x - s.mOfs n * 65536

/-- The engage instant is this activation's S: `k` the slave's state, `m` the master's (R155, R156). -/
def State.engage (s : State) (n : Nat) (k m : Kin) : FM State := do
  let h := (s.ax n).hitch
  let dist := s.wa (R.AX_ENG_DIST n)
  let blend := F32.gt dist 0
  if blend && F32.isZero m.v && !F32.isZero k.v then pure (s.refuseEngage n h.back)
  else
    let abs := s.onA (R.AX_HITCH_CTRL_OFS_MODE n)
    let at0 ← s.hitchAt n h.cfg 0 m
    let sOfs := if abs then s.sOfsReg n * 65536 else k.x - at0.x
    let rho ← (if !blend || F32.isZero m.v then pure (0 : Word) else div k.v m.v)
    let s := s.set64 (R.AX_S_OFS_USED_LO n) (R.AX_S_OFS_USED_HI n) (sOfs / 65536)
    let s := s.modAx n (fun x => { x with hitch :=
      { h with on := true, blend := blend, sOfs := sOfs, xe := k.x, rho := rho, xme := m.x, neg := F32.lt m.v 0 } })
    pure (if blend then s.raise (R.AX_STATUS_HWAIT n) else (s.clr (R.AX_STATUS_HWAIT n)).raise (R.AX_STATUS_HLOCK n))

/-- The blend has reached p = 1 (R156). -/
def State.lockIf (s : State) (n : Nat) (m : Kin) : FM State := do
  let h := (s.ax n).hitch
  if h.on && h.blend then
    let p ← blendP h (s.wa (R.AX_ENG_DIST n)) m
    pure (if F32.ge p F32.one then
      ((s.modAx n (fun x => { x with hitch := { x.hitch with blend := false } })).clr (R.AX_STATUS_HWAIT n)).raise (R.AX_STATUS_HLOCK n)
    else s)
  else pure s

/-- The master is lost (R151): the hitch is dropped and a ramped stop begins. -/
def State.masterLost (s : State) (n : Nat) (w : When) : FM State := do
  let k ← (s.ax n).gen.at' w.at' s.tcyc
  let s := (s.raise (R.AX_STATUS_MSTALE n)).report (srcOf 3 (n * 8 + 7)) clsWarn (s.owner n) [0, s.fa (R.AX_HITCH_CTRL_MASTER n)]
  s.rampStop n 3 w.at' k

/-- DIS_AT is passed (R157): DIS_ARM clears, and the generator goes on as DIS_TO selects, from `k`. -/
def State.disengage (s : State) (n : Nat) (w : When) (k : Kin) : FM State := do
  let s := (s.dropHitch n).setBoth (R.AX_HITCH_CTRL_DIS_ARM n) 0
  match s.fa (R.AX_HITCH_CTRL_DIS_TO n) with
  | 1 =>
    let s ← s.planTo n w.at' k
    pure ((s.hwMode n mProfile).modAx n (fun x => { x with ran := mProfile }))
  | 2 =>
    let s ← s.changeTo n w.at' k
    pure ((s.hwMode n mVelocity).modAx n (fun x => { x with ran := mVelocity }))
  | _ => s.rampStop n 5 w.at' k

/-- One activation in HITCH (R149 to R157): the generator is left at the state of S. -/
def State.hitchStep (s : State) (n : Nat) (w : When) : FM State := do
  let x := s.ax n
  if x.stop != 0 then pure s
  else
  -- the configuration changed while engage waits: it is checked anew; ENG_AT too (R192)
  let s := if !x.hitch.on && (x.hitch.cfg != s.hitchCfg n || s.engAtBad n) then s.enterHitch n x.hitch.back else s
  let x := s.ax n
  if s.mode n != mHitch then pure s
  else
    match s.masterAt n w x.hitch.cfg 0 with
    | none => s.masterLost n w
    | some mf =>
      let m ← mf
      let wNow := s.masterW n m
      let h := x.hitch
      -- a new MASTER, ratio or table: disengage without a stop, then engage (R157)
      if h.on && h.cfg != s.hitchCfg n then
        let k ← s.hitchRef n (pure m)
        let s := ((s.setGen n (Gen.held w.at' k)).dropHitch n).enterHitch n mHold
        if s.mode n != mHitch then s.rampStop n 4 w.at' k
        else
          match s.masterAt n w (s.hitchCfg n) 0 with
          | none => s.masterLost n w
          | some mf =>
            let m' ← mf
            let s := s.modAx n (fun x => { x with hitch := { x.hitch with wPrev := some (s.masterW n m') } })
            if s.onA (R.AX_HITCH_CTRL_ENG_MODE n) then pure s
            else
              let s ← s.engage n k m'
              let s ← s.lockIf n m'
              if s.mode n != mHitch then s.rampStop n 4 w.at' k
              else
                let k' ← s.hitchRef n (pure m')
                pure (s.setGen n (Gen.held w.at' k'))
      else if h.on then
        let k ← s.hitchRef n (pure m)
        let s ← s.lockIf n m
        let s := (s.setGen n (Gen.held w.at' k)).modAx n (fun x => { x with hitch := { x.hitch with wPrev := some wNow } })
        let per := camPeriod s h.cfg.addr
        let dis := s.onA (R.AX_HITCH_CTRL_DIS_ARM n) && h.cfg.cam && s.fa (R.AX_DIS_AT n) < per &&
          (match h.wPrev with | some p => passed per (s.fa (R.AX_DIS_AT n)) p wNow | none => false)
        if dis then s.disengage n w k else pure s
      else
        let k ← x.gen.at' w.at' s.tcyc
        let go := if s.onA (R.AX_HITCH_CTRL_ENG_MODE n) then
            (match h.wPrev with | some p => passed (camPeriod s h.cfg.addr) (s.fa (R.AX_ENG_AT n)) p wNow | none => false)
          else true
        let s := s.modAx n (fun x => { x with hitch := { x.hitch with wPrev := some wNow } })
        if go then
          let s ← s.engage n k m
          let s ← s.lockIf n m
          if (s.ax n).hitch.on then
            let k' ← s.hitchRef n (pure m)
            pure (s.setGen n (Gen.held w.at' k'))
          else pure s
        else pure s

/-! ## Transitions (R146) -/

/-- The generator takes over the hitch at S (R157), blended if the engage blend runs; without a master, the state it has. -/
def State.hitchToGen (s : State) (n : Nat) (w : When) : FM State := do
  let h := (s.ax n).hitch
  if h.on then
    match s.masterAt n w h.cfg 0 with
    | none => pure (s.dropHitch n)
    | some mf =>
      let k ← s.hitchRef n mf
      pure ((s.setGen n (Gen.held w.at' k)).dropHitch n)
  else pure (s.dropHitch n)

/-- A mode write refused at its activation: MODEERR, the mode that ran stays (R146, R182). -/
def State.refuseMode (s : State) (n ran : Nat) (bit' : Fld) : State := (s.raise bit').hwMode n ran

/-- "Axis mode transitions": from the mode that ran to the active mode. `vf` is this activation's filtered velocity. -/
def State.transition (s : State) (n : Nat) (w : When) (vf : Word) : FM State := do
  let x := s.ax n
  let act := s.mode n
  let me := R.AX_STATUS_MODEERR n
  let origin : Inst := ⟨x.modeCyc, 0⟩
  let xa : Kin := ⟨s.xAct n * 65536, 0, 0⟩
  if act = x.ran || x.stop = 3 then pure s
  else
    let s0 := (s.clr (R.AX_STATUS_STOPPING n)).modAx n (fun a => { a with stop := 0 })
    let done (t : State) : State := t.modAx n (fun a => { a with ran := t.mode n })
    if x.ran = mOff then
      match act with
      | 1 => pure (done (s0.setGen n (Gen.held w.at' xa)))
      | 2 => do let t ← s0.planTo n origin xa true; pure (done t)
      | 3 => do let t ← s0.changeTo n origin xa true; pure (done t)
      | 5 => pure (done s0)
      | _ => pure (s.refuseMode n mOff me)
    else if x.ran = mTorque then
      let k : Kin := ⟨xa.x, vf, 0⟩
      match act with
      | 1 => do let t ← s0.rampStop n 4 w.at' k; pure (done t)
      | 2 => do let t ← s0.planTo n origin k true; pure (done t)
      | 3 => do let t ← s0.changeTo n origin k true; pure (done t)
      | _ => pure (s.refuseMode n mTorque me)
    else
      -- HOLD, PROFILE, VELOCITY, HITCH, IDENT
      let s1 ← s0.hitchToGen n w
      match act with
      | 1 =>
        if x.ran = mIdent || x.ran = mHold then pure (done s1)
        else do
          let k ← (s1.ax n).gen.at' w.at' s.tcyc
          let t ← s1.rampStop n 4 w.at' k
          pure (done t)
      | 2 => do
        let t0 := if x.ran = mHitch then w.at' else origin
        let k ← (s1.ax n).gen.at' t0 s.tcyc
        let k := if x.ran = mVelocity then { k with x := xa.x } else k
        let t ← s1.planTo n t0 k
        pure (done t)
      | 3 => do
        let t0 := if x.ran = mHitch then w.at' else origin
        let k ← (s1.ax n).gen.at' t0 s.tcyc
        let t ← s1.changeTo n t0 k
        pure (done t)
      | 4 =>
        if x.ran = mIdent then pure (s.refuseMode n mHold me)
        else if s.engageRefused n then pure (s.refuseEngage n x.ran) -- a ramp to HOLD that runs goes on (R143)
        else pure (done (s1.enterHitch n x.ran))
      | 5 => pure (done s1)
      | 6 =>
        if x.ran = mHold && s.identOk n then pure (done (s1.identStart n))
        else pure (s.refuseMode n x.ran (R.AX_STATUS_IDERR n))
      | _ => pure (s.refuseMode n x.ran me)

/-- Entries that the mode that ran forbids, refused before anything of the activation runs (R127, R146). -/
def State.refuseEntry (s : State) (n : Nat) : State :=
  let x := s.ax n
  let m := s.mode n
  if x.stop = 3 || !(m = mHitch || m = mIdent) then s
  else if x.ran = mOff then
    (if m = mIdent then s.raise (R.AX_STATUS_IDERR n) else s).refuseMode n mOff (R.AX_STATUS_MODEERR n)
  else if x.ran = mTorque then s.refuseMode n mTorque (if m = mIdent then R.AX_STATUS_IDERR n else R.AX_STATUS_MODEERR n)
  else s

/-- After a sweep was aborted the axis enters HOLD at its next activation, whatever mode but OFF is written (R132, R146). -/
def State.identLeave (s : State) (n : Nat) : State :=
  if (s.ax n).ran = mIdent && !s.on (R.AX_STATUS_IDRUN n) then
    (if s.mode n = mOff then s else s.hwMode n mHold).modAx n (fun x => { x with ran := mHold })
  else s

/-- A stop waits for this activation: the mode write, start or VELOCITY change that reaches the same activation is refused
(R147). -/
def State.refuseBehindStop (s : State) (n : Nat) : State :=
  let x := s.ax n
  let m := s.mode n
  if !(x.hard || x.ramp || x.hold) then s
  else
    let s := if x.start.isSome || x.vchg.isSome then
        (s.raise (R.AX_STATUS_PRFERR n)).modAx n (fun a => { a with start := none, vchg := none })
      else s
    if m = x.ran || x.ran = mIdent || !(refMode m || m = mTorque) then s
    else
      let s := (s.raise (R.AX_STATUS_MODEERR n)).hwMode n x.ran
      if x.ran = mOff then s.modAx n (fun a => { a with hard := false, hold := false, ramp := false }) else s

/-- Stops that wait for this activation, in their order (R147); the state the ramp starts from in TORQUE has velocity `vf`. -/
def State.takeStops (s : State) (n : Nat) (w : When) (vf : Word) : FM State := do
  let x := s.ax n
  if x.hard then pure (s.hardStop n w.at')
  else if x.ramp then
    let s1 ← s.hitchToGen n w
    let k ← (if x.ran = mTorque then pure (⟨s.xAct n * 65536, vf, 0⟩ : Kin) else (s1.ax n).gen.at' w.at' s.tcyc)
    s1.rampStop n 3 w.at' k
  else if x.hold then pure (s.hardStop n w.at')
  else pure s

/-- A start or a VELOCITY change taken since the last activation (R139, R138). -/
def State.takeStart (s : State) (n : Nat) : FM State := do
  let x := s.ax n
  let s := s.modAx n (fun a => { a with start := none, vchg := none })
  match x.start, x.vchg with
  | some c, _ =>
    if s.mode n = mProfile && x.ran = mProfile then
      let k ← x.gen.at' ⟨c, 0⟩ s.tcyc
      s.planTo n ⟨c, 0⟩ k
    else pure s
  | none, some c =>
    if s.mode n = mVelocity && x.ran = mVelocity then
      let k ← x.gen.at' ⟨c, 0⟩ s.tcyc
      s.changeTo n ⟨c, 0⟩ k
    else pure s
  | none, none => pure s

/-- The reference at both instants: the hitch's, or the generator's (R107). -/
def State.refsNow (s : State) (n : Nat) (w : When) : FM Refs := do
  let x := s.ax n
  let k ← x.gen.at' w.at' s.tcyc
  if s.mode n = mHitch && x.hitch.on then
    match s.masterAt n w x.hitch.cfg w.next with
    | some mf =>
      let m ← s.hitchRef n mf
      pure ⟨k, m⟩
    | none => pure ⟨k, k⟩
  else
    let m ← x.gen.at' w.later s.tcyc
    pure ⟨k, m⟩

/-- A reference outside the enabled software range is an active limit of that side, with t_l = S (R159), unless it is latched. -/
def State.softLimit (s : State) (n : Nat) (w : When) (x : Int) : State :=
  let lo := s.s64a (R.AX_XMIN_LO n) (R.AX_XMIN_HI n) * 65536
  let hi := s.s64a (R.AX_XMAX_LO n) (R.AX_XMAX_HI n) * 65536
  if !s.onA (R.AX_LIM_SWEN n) then s
  else if hi < x && !s.on (R.AX_STATUS_LIMP n) then (s.limitAt n false w.stamp).limDue n w.stamp
  else if x < lo && !s.on (R.AX_STATUS_LIMN n) then (s.limitAt n true w.stamp).limDue n w.stamp
  else s

/-- The whole reference stage of an activation with valid feedback: stops, transition, start, hitch, both states. -/
def State.reference (s : State) (n : Nat) (w : When) (vf : Word) : FM (State × Refs) := do
  let s ← s.takeStops n w vf
  let s ← s.transition n w vf
  let s ← s.takeStart n
  let s ← (if s.mode n = mHitch then s.hitchStep n w else pure s)
  let r ← s.refsNow n w
  if refMode (s.mode n) then
    let s' := s.softLimit n w r.s.x
    let s' ← s'.takeStops n w vf
    let r' ← s'.refsNow n w
    pure (s', r')
  else pure (s, r)

/-! ## Ends of plans -/

/-- PROFILE_DONE (R141). -/
def State.profileDone (s : State) (n : Nat) : State :=
  let g := (s.ax n).gen
  match g.tgt with
  | none => s
  | some x =>
    let s := s.setGen n { g with segs := [], x := x, v := 0, a := 0, tgt := none }
    if s.mode n = mProfile then s.raise (R.AX_STATUS_PDONE n) else s

/-- RAMPED_STOP_END (R143): x_ref is held, the mode is HOLD. A mode write taken at a boundary but not yet activated stands (R146). -/
def State.rampEnd (s : State) (n : Nat) : State :=
  if s.on (R.AX_STATUS_STOPPING n) then
    let g := (s.ax n).gen
    let s := (s.setGen n { g with segs := [], v := 0, a := 0 }).clr (R.AX_STATUS_STOPPING n)
    let x := s.ax n
    let s := s.modAx n (fun x => { x with stop := 0, ran := mHold })
    if s.mode n = mOff || (x.stop ≠ 3 && s.mode n ≠ x.ran) then s else s.hwMode n mHold
  else s

def execProfileDone (a : Fin 256) (s : State) : Res := .next (s.profileDone a)
def execRampedStopEnd (a : Fin 256) (s : State) : Res := .next (s.rampEnd a)

end Sys2Proof.Machine
end

