-- ==== Sys2Proof/Machine/Knot.lean ====
section
/-! DEFINITION. The knot engine's slots (spec/08_knots.md): opening, adding and closing (R200 to R205), the states (R203),
prepare and announce on the network (R210, R211), cancel (R216), confirmation (R214, R215) and the end report (R220). What a
knot does at its boundary stands in Sys2Proof.Machine.KnotCommit. -/

namespace Sys2Proof.Machine

/-! ## Slots -/

def State.knot (s : State) (k : Nat) : Knot := SMap.get (fun _ => {}) s.ke.slots k
def State.setKnot (s : State) (k : Nat) (x : Knot) : State :=
  { s with ke := { s.ke with slots := SMap.put (fun _ => {}) s.ke.slots k x } }
def State.modKnot (s : State) (k : Nat) (f : Knot → Knot) : State := s.setKnot k (f (s.knot k))

/-- "Knot slot states" as STAT.STATE codes them (R221). -/
def kFree : Nat := 0
def kOpen : Nat := 1
def kWait : Nat := 2
def kPrepare : Nat := 3
def kAnnounced : Nat := 4
def kConfirm : Nat := 5
def kDone : Nat := 6
def kVoid : Nat := 7

/-- REASON codes (R221). -/
def rsnCancel : Nat := 1
def rsnAdd : Nat := 2
def rsnCheck : Nat := 3
def rsnPrep : Nat := 4
def rsnNotArmed : Nat := 5
def rsnCycle : Nat := 6
def rsnSplice : Nat := 7
def rsnSize : Nat := 8
def rsnPool : Nat := 9
def rsnCfg : Nat := 11

def State.kState (s : State) (k : Nat) : Nat := s.f (R.K_STAT_STATE k)
def State.setKState (s : State) (k v : Nat) : State := s.set (R.K_STAT_STATE k) v
/-- The owning domain of a slot (R203). -/
def State.kDom (s : State) (k : Nat) : Nat := s.f (R.K_OWNER_DOM k)

/-- KE.USED follows the slots that are not FREE. -/
def State.kUsed (s : State) (k : Nat) (used : Bool) : State :=
  if k < 32 then s.set (⟨R.KE_USED_LO_W, k, k⟩) (b2n used) else s.set (⟨R.KE_USED_HI_W, k - 32, k - 32⟩) (b2n used)

/-! ## End of a knot (R202, R220) -/

/-- A knot enters DONE or VOID: the pool entries return, the end is counted and recorded, and the outcome tag is filled with
STAT. -/
def State.knotEnd (s : State) (k st : Nat) : State :=
  let s := s.setKState k st
  let s := s.set R.KE_POOL_FREE (s.f R.KE_POOL_FREE + s.f (R.K_SIZE_RSIZE k))
  let s := s.count (if st = kDone then R.KE_CNT_GO else R.KE_CNT_VOID)
  let s := s.countK R.KE_CNT_LATE (s.f (R.K_OUT_LATE k))
  let s := s.countK R.KE_CNT_MISSED (s.f (R.K_OUT_MISSED k))
  let bad := st = kVoid || s.on (R.K_STAT_FAULTED k)
  let s := s.report (srcOf 4 (64 + k)) (if bad then clsWarn else clsInfo) (s.kDom k)
    [s.reg (R.K_STAT k), s.f (R.K_CCYC k), s.reg (R.K_OUT k)]
  if s.on (R.K_CFG_TAGEN k) then s.fillTag (s.f (R.K_CFG_TAG k)) (s.reg (R.K_STAT k)) else s

/-- A knot becomes VOID for a reason (R203). -/
def State.knotVoid (s : State) (k reason : Nat) : State := (s.set (R.K_STAT_REASON k) reason).knotEnd k kVoid

/-! ## Open and add (R200 to R204, R222) -/

/-- OPEN of a FREE slot by domain `d` (R202, R203); `cfgOk` is false for a reserved field of KOPEN. -/
def State.knotOpen (s : State) (k d size : Nat) (cfgOk : Bool) : State :=
  let refuse (r : Nat) : State := s.set (R.K_STAT_REASON k) r
  if !cfgOk then refuse rsnCfg
  else if size = 0 || 512 < size then refuse rsnSize
  else if s.f R.KE_POOL_FREE < size then refuse rsnPool
  else
    let s := s.set R.KE_POOL_FREE (s.f R.KE_POOL_FREE - size)
    let s := ((s.setReg (R.K_STAT k) kOpen).set (R.K_OWNER_DOM k) d).setReg (R.K_SIZE k) size
    let s := ((s.setReg (R.K_OUT k) 0).setReg (R.K_ERR k) 0).kUsed k true
    let s := forN 8 (fun i s => (s.setReg (0x10302000 + 0x20 * k + 4 * i) 0).setReg (0x10302800 + 0x20 * k + 4 * i) 0) s
    s.setKnot k {}

/-- A word of a knot entry, and its kind (R200). -/
def kw (e : List Nat) (i : Nat) : Nat := e.getD i 0
def kKind (e : List Nat) : Nat := bits (kw e 0) 31 28
/-- Axis of a GROUP, START or MODE entry. -/
def kAxis (e : List Nat) : Nat := bits (kw e 0) 7 0
/-- Ring and node address of a NODE or REJOIN entry. -/
def kRing (e : List Nat) : Nat := bits (kw e 0) 23 22
def kAddr (e : List Nat) : Nat := bits (kw e 0) 14 8

/-- Ranges a WRITE entry may name (R201). -/
def kWritable (g : Range) (a : Nat) : Bool :=
  match g with
  | .ax | .pc | .hg | .pin | .tio => true
  | .ring => (a - 0x10120000) % 0x4000 < 0x200
  | .tb => a == R.TB_TCYC_W
  | _ => false

/-- Domain `d` has write rights to the register at `a` (R201). -/
def State.domWrites (s : State) (d a : Nat) : Bool :=
  match s.range a with
  | none => false
  | some g => s.regRight ⟨.core, 0, d, none⟩ g a 0 true

/-- The WRITE entry's own condition. -/
def State.kWriteOk (s : State) (d : Nat) (e : List Nat) : Bool :=
  let a := kw e 1
  bits (kw e 0) 27 0 == 0 && a % 4 == 0 && (match s.range a with | some g => kWritable g a | none => false) &&
    (specOf a).isSome && kw e 3 &&& regMask Acc.isStored a == kw e 3 && s.domWrites d a

/-- The bound axes of a node are all the domain's to write. -/
def State.kNodeRights (s : State) (d r a : Nat) : Bool :=
  (s.nodeAxes r a).all (fun n => s.axRight d (R.AX_CTRL n) true)

/-- "Entry kinds", condition at add (R201). -/
def State.kAddOk (s : State) (k : Nat) (e : List Nat) : Bool :=
  let d := s.kDom k
  let ax := bits (kw e 0) 27 8 == 0 && s.axRight d (R.AX_CTRL (kAxis e)) true
  let rest := kw e 2 == 0 && kw e 3 == 0
  let r := kRing e
  let a := kAddr e
  let inTable := 1 ≤ a && a ≤ 64
  match kKind e with
  | 1 => s.kWriteOk d e
  | 2 => ax && rest && kw e 1 != 0 && kw e 1 < 2048
  | 3 => ax && rest && kw e 1 == 0
  | 4 => ax && rest && kw e 1 ≤ 8
  | 5 =>
    bits (kw e 0) 27 24 == 0 && bits (kw e 0) 21 15 == 0 && bits (kw e 0) 7 4 == 0 &&
      1 ≤ bits (kw e 0) 3 0 && bits (kw e 0) 3 0 ≤ 8 && kw e 1 < 65536 && inTable && s.on (R.RING_CTRL_EN r) &&
      s.ntState r a == nfPresent && (s.activeBank r).any (fun x => x.dtype == 1 && x.node == a) &&
      ((s.knot k).ents.filter (fun x => kKind x == 5 && kRing x == r && kAddr x == a)).length < 255
  | 6 =>
    bits (kw e 0) 27 24 == 0 && bits (kw e 0) 21 15 == 0 && bits (kw e 0) 7 0 == 0 && kw e 1 == 0 && rest && inTable &&
      s.kNodeRights d r a
  | _ => false

/-- ERRENT holds the first refused entry (R202, R208). -/
def State.kErr (s : State) (k i : Nat) : State :=
  if s.on (R.K_ERR_EVALID k) then s else (s.set (R.K_ERR_EIDX k) i).raise (R.K_ERR_EVALID k)

/-- ADD of an entry (R200 to R202). -/
def State.knotAdd (s : State) (k : Nat) (e : List Nat) : State :=
  if s.kState k ≠ kOpen then s
  else
    let i := s.f (R.K_SIZE_ADDED k)
    if i < s.f (R.K_SIZE_RSIZE k) && s.kAddOk k e then
      (s.modKnot k (fun x => { x with ents := x.ents ++ [e] })).set (R.K_SIZE_ADDED k) (i + 1)
    else (s.raise (R.K_STAT_ADDERR k)).kErr k i

/-! ## Close (R205, R210) -/

/-- Participants: the nodes of the NODE entries, in add order. -/
def Knot.nodes (x : Knot) : List (Nat × Nat) :=
  ((x.ents.filter (fun e => kKind e == 5)).map (fun e => (kRing e, kAddr e))).eraseDups

/-- Rings of a knot. -/
def Knot.rings (x : Knot) : List Nat := (x.parts.map (·.ring)).eraseDups

/-- A network knot other than `k` with a fixed commit cycle shares a ring and is less than 3 cycles away from `c` (R205). -/
def State.kCrowded (s : State) (k c : Nat) : Bool :=
  let x := s.knot k
  (List.range 64).any (fun j =>
    let y := s.knot j
    j != k && kPrepare ≤ s.kState j && s.kState j ≤ kConfirm && y.fixed && y.rings.any (fun r => x.rings.contains r) &&
      (dt c (s.f (R.K_CCYC j))).natAbs < 3)

/-- t_dec(M) = CSTART(M) − 1,000 ns (R211), projected. -/
def State.tDec (s : State) (m : Nat) : Nat := u32 ((s.cstartOf s.grid m : Int) - 1000)

/-- CCYC is fixed. -/
def State.fixCcyc (s : State) (k c : Nat) : State := (s.set (R.K_CCYC k) c).modKnot k (fun x => { x with fixed := true })

/-- WHEN = NEXT of a network knot whose prepare is complete: the earliest cycle that meets R211 and the spacing (R205). -/
def State.kChoose (s : State) (k : Nat) : State :=
  let n := s.cyc
  let first := if decide (dt s.gnow (s.tDec (n + 1)) ≤ 0) then n + 4 else n + 5
  match findFrom (fun c => !s.kCrowded k (c % 2 ^ 32)) 512 first with
  | some c => s.fixCcyc k (c % 2 ^ 32)
  | none => s

/-- The KNOT_PREP and KNOT_SEAL requests of one participant enter the ring's mailbox queue (R210). -/
def State.kSendPrep (s : State) (k : Nat) (p : Nat × Nat) : State :=
  let es := (s.knot k).ents.filter (fun e => kKind e == 5 && kRing e == p.1 && kAddr e == p.2)
  let s := forEach es (fun e s =>
    let o := bits (kw e 1) 15 0
    let v := (leBytes 4 (kw e 2) ++ leBytes 4 (kw e 3)).take (bits (kw e 0) 3 0)
    s.mailSend p.1 { addr := p.2, mop := 3, obj := o, data := leBytes 1 k ++ leBytes 2 o ++ [0] ++ v, use := 64 + k }) s
  s.mailSend p.1 { addr := p.2, mop := 4, obj := 0, data := leBytes 1 k ++ leBytes 1 es.length, use := 128 + k }

/-- CLOSE (R203, R205). -/
def State.knotClose (s : State) (k : Nat) : State :=
  if s.kState k ≠ kOpen then s
  else
    let x := s.knot k
    let nodes := x.nodes
    let network := !nodes.isEmpty
    let parts : List KPart := nodes.map (fun p => { ring := p.1, addr := p.2 })
    let s := s.setB (R.K_STAT_NETWORK k) network
    let s := s.set (R.K_OUT_NODES k) nodes.length
    let s := s.setKnot k { x with parts := parts, order := s.ke.closes, fixed := false }
    let s := { s with ke := { s.ke with closes := s.ke.closes + 1 } }
    let c := s.f (R.K_CYC k)
    let ahead := dt c s.cyc
    let at' := !s.on (R.K_CFG_WHEN k)
    if s.on (R.K_STAT_ADDERR k) then s.knotVoid k rsnAdd
    else if at' && !(decide ((if network then 4 else 1) ≤ ahead ∧ ahead ≤ 1048576) && !(network && s.kCrowded k c)) then
      s.knotVoid k rsnCycle
    else if s.f (R.K_CFG_FAULT_ACT k) = 3 then s.knotVoid k rsnCfg
    else if network then
      let s := if at' then s.fixCcyc k c else s
      forEach nodes (fun p s => s.kSendPrep k p) (s.setKState k kPrepare)
    else (s.fixCcyc k (if at' then c else (s.cyc + 1) % 2 ^ 32)).setKState k kWait

/-! ## Prepare and announce (R210, R211) -/

/-- The prepare of knot `k` stops: queued requests are dropped, and KNOT_CANCEL goes to every node that was sent one. -/
def State.kStop (s : State) (k : Nat) : State :=
  let x := s.knot k
  forEach x.parts (fun p s =>
    let mine (q : MReq) : Bool := q.addr == p.addr && q.use == 64 + k
    let total := (x.ents.filter (fun e => kKind e == 5 && kRing e == p.ring && kAddr e == p.addr)).length
    let waiting := ((s.ring p.ring).mbox.filter mine).length
    let s := s.modRing p.ring (fun g =>
      { g with mbox := g.mbox.filter (fun q => !(q.addr == p.addr && (q.use == 64 + k || q.use == 128 + k))) })
    if waiting < total then s.mailSend p.ring { addr := p.addr, mop := 5, obj := 0, data := leBytes 1 k, use := 0 } else s) s

/-- The decision of knot `k` goes into the headers of every ring it names (R69, R211). -/
def State.kDecision (s : State) (k : Nat) (go : Bool) : State :=
  let c := s.f (R.K_CCYC k)
  forEach (s.knot k).rings (fun r s =>
    s.modRing r (fun g => { g with kdec := g.kdec ++ [{ knot := k, ccyc := c, go := some go }] })) s

/-- A response to a KNOT_PREP (`seal` false) or KNOT_SEAL of knot `k` from a node (R210). -/
def State.knotResponse (s : State) (k r a : Nat) (isSeal : Bool) (mres : Nat) : State :=
  if s.kState k ≠ kPrepare then s
  else if mres ≠ 0 then (s.kStop k).knotVoid k rsnPrep
  else if !isSeal then s
  else
    let s := s.modKnot k (fun x =>
      { x with parts := x.parts.map (fun p => if p.ring = r && p.addr = a then { p with sealed := true } else p) })
    if (s.knot k).parts.all (·.sealed) && !(s.knot k).fixed then s.kChoose k else s

/-- t_dec(CCYC − 3): a complete prepare is announced, an incomplete one makes the knot VOID (R210, R211). -/
def State.knotAnnounce (s : State) (k : Nat) : State :=
  let x := s.knot k
  if s.kState k ≠ kPrepare || !x.fixed then s
  else if x.parts.all (·.sealed) then
    let c := s.f (R.K_CCYC k)
    (forEach x.rings (fun r s => s.modRing r (fun g => { g with kann := g.kann ++ [{ knot := k, ccyc := c }] })) s).setKState k
      kAnnounced
  else (s.kStop k).knotVoid k rsnPrep

/-- Every participant reported ARMED in cycle CCYC − 1 (R211, R218). -/
def State.kArmed (s : State) (k : Nat) : Bool :=
  let prev := u32 ((s.f (R.K_CCYC k) : Int) - 1)
  (s.knot k).parts.all (fun p =>
    let u := SMap.get (fun _ => (0, 0, 0)) (s.ring p.ring).nstat p.addr
    !p.gone && u.2.1 == k && u.2.2 == prev)

/-! ## Cancel and release (R203, R216) -/

/-- CANCEL before the decision instant, or before a local knot's boundary. -/
def State.knotCancel (s : State) (k : Nat) : State :=
  let st := s.kState k
  if st = kOpen || st = kWait then s.knotVoid k rsnCancel
  else if st = kPrepare then (s.kStop k).knotVoid k rsnCancel
  else if st = kAnnounced then (s.kDecision k false).knotVoid k rsnCancel
  else s

/-- RELEASE of a slot in DONE or VOID. -/
def State.knotRelease (s : State) (k : Nat) : State :=
  if s.kState k = kDone || s.kState k = kVoid then ((s.setKState k kFree).kUsed k false).setKnot k {} else s

/-! ## Confirmation (R214, R215) -/

/-- A participant's report of the uplink `off` cycles after CCYC. -/
def KPart.note (p : KPart) (off : Int) (v : Nat × Bool) : KPart :=
  if off = 1 then { p with rep1 := some v } else if off = 2 then { p with rep2 := some v }
  else if off = 3 then { p with rep3 := some v } else p

/-- The participant has reported KNOT_MISSED in the window. -/
def KPart.missed (p : KPart) : Bool := [p.rep1, p.rep2, p.rep3].any (fun v => match v with | some (_, b) => b | none => false)

/-- An uplink of cycle `c` of node `a` landed with APPLY and KNOT_MISSED in `nstat`: knots in their window note it. A participant of
a VOID knot that reports KNOT_MISSED is counted in CNT_MISSED, and nothing else follows (R214). -/
def State.knotUplink (s : State) (r a c nstat : Nat) : State :=
  forN 64 (fun k s =>
    if s.kState k ≠ kConfirm && s.kState k ≠ kVoid then s
    else
      let off := dt c (s.f (R.K_CCYC k))
      let v := (nstat % 4, bit nstat 2)
      let mine (p : KPart) : Bool := p.ring == r && p.addr == a
      let new := s.kState k == kVoid && 1 ≤ off && off ≤ 3 && v.2 && (s.knot k).parts.any (fun p => mine p && !p.missed)
      let s := if new then s.count R.KE_CNT_MISSED else s
      s.modKnot k (fun x => { x with parts := x.parts.map (fun p => if mine p then p.note off v else p) })) s

/-- A node is declared missing (R218). -/
def State.knotNodeMissing (s : State) (r a : Nat) : State :=
  forN 64 (fun k s =>
    if kPrepare ≤ s.kState k && s.kState k ≤ kConfirm then
      s.modKnot k (fun x => { x with parts := x.parts.map (fun p => if p.ring = r && p.addr = a then { p with gone := true } else p) })
    else s) s

/-- "Network knot outcomes" (R214): 0 APPLIED, 1 LATE, 2 MISSED. -/
def KPart.outcome (p : KPart) : Nat :=
  if p.gone then 2
  else
    match p.rep1, p.rep2 with
    | some (0, false), _ => 0
    | none, some (0, false) => 0
    | some (1, _), some (2, _) => 1
    | _, _ => 2

/-- The axis an entry names: by a WRITE to an AX block, a GROUP, a START or a MODE. -/
def kEntryAxes (e : List Nat) : List Nat :=
  match kKind e with
  | 1 => if 0x10000000 ≤ kw e 1 && kw e 1 < 0x10100000 then [(kw e 1 - 0x10000000) / 0x1000] else []
  | 2 | 3 | 4 => [kAxis e]
  | _ => []

/-- The axis set of a knot (R215): those, and every slot bound to a node of a NODE or REJOIN entry. -/
def State.kAxes (s : State) (k : Nat) : List Nat :=
  (((s.knot k).ents.map (fun e =>
    if kKind e = 5 || kKind e = 6 then s.nodeAxes (kRing e) (kAddr e) else kEntryAxes e)).flatten).eraseDups

/-- FAULT_ACT on one axis: HOLD and RAMP become STO where the axis has lost its feedback, its node or its releases (R123, R215). -/
def State.kFaultAct (s : State) (act n : Nat) : State :=
  let lost := s.on (R.AX_STATUS_FBLOSS n) || s.on (R.AX_STATUS_NODEMISS n) || s.on (R.AX_STATUS_LATE n)
  s.superAct n (if act ≤ 1 && lost then 2 else act)

/-- A bit of LATEMAP or MISSMAP (R214). -/
def kMapBit (base k : Nat) (p : KPart) : Fld :=
  ⟨base + 0x20 * k + 4 * (2 * p.ring + (p.addr - 1) / 32), (p.addr - 1) % 32, (p.addr - 1) % 32⟩

/-- t_dec(CCYC + 4): the confirmation window ends (R214, R215). -/
def State.knotConfirmEnd (s : State) (k : Nat) : State :=
  if s.kState k ≠ kConfirm then s
  else
    let ps := (s.knot k).parts
    let late := ps.filter (fun p => p.outcome == 1)
    let missed := ps.filter (fun p => p.outcome == 2)
    let s := (s.set (R.K_OUT_LATE k) late.length).set (R.K_OUT_MISSED k) missed.length
    let s := forEach late (fun p s => s.raise (kMapBit 0x10302000 k p)) s
    let s := forEach missed (fun p s => s.raise (kMapBit 0x10302800 k p)) s
    let faulted := !missed.isEmpty || (!late.isEmpty && !s.on (R.K_CFG_LATEPOL k))
    let s := if faulted then
        forEach (s.kAxes k) (fun n s => s.kFaultAct (s.f (R.K_CFG_FAULT_ACT k)) n) (s.raise (R.K_STAT_FAULTED k))
      else s
    s.knotEnd k kDone

/-! ## Register and instruction access (R203, R221, R222) -/

/-- A write of the knot engine's registers, after the rights of R203. -/
def State.keWrite (s : State) (d a v : Nat) : Verdict × State :=
  if a < 0x10301000 || 0x10302000 ≤ a then (.ok, s)
  else
    let k := (a - 0x10301000) / 0x40
    match a % 0x40 with
    | 0x00 =>
      match bits v 31 28 with
      | 1 => if s.kState k = kFree then (.ok, s.knotOpen k d (bits v 9 0) true) else (.refused, s)
      | 2 => (.ok, s.knotAdd k ((List.range 4).map (fun i => s.f (R.K_ENT k i))))
      | 3 => (.ok, s.knotClose k)
      | 4 => (.ok, s.knotCancel k)
      | 5 => (.ok, s.knotRelease k)
      | _ => (.ok, s)
    | 0x04 => (.ok, if s.kState k = kOpen then s.plainWrite a v else s)
    | _ => (.ok, s.plainWrite a v)

/-- KOPEN (R222): the slot number, or 0x8000_0000 | REASON. -/
def State.kopen (s : State) (d g : Nat) : Nat × State :=
  match firstIdx 64 (fun k => s.kState k == kFree) with
  | none => (0x80000000 + 10, s)
  | some k =>
    let s' := s.knotOpen k d (bits g 9 0) (!bit g 15 && bits g 31 30 == 0 && bits g 13 12 != 3)
    if s'.kState k = kOpen then
      (k, ((((s'.set (R.K_CFG_WHEN k) (bits g 10 10)).set (R.K_CFG_LATEPOL k) (bits g 11 11)).set (R.K_CFG_FAULT_ACT k)
        (bits g 13 12)).set (R.K_CFG_TAGEN k) (bits g 14 14)).set (R.K_CFG_TAG k) (bits g 29 16))
    else (0x80000000 + s'.f (R.K_STAT_REASON k), s')

end Sys2Proof.Machine
end

