-- ==== Sys2Proof/Machine/DxBase.lean ====
section
/-! DEFINITION. The duplex block, first part (spec/16_duplex_failover.md): states (R399), heartbeats (R397), insertions
(R410), the PEER datagram (R396), the reduced set (R408) and the records of the mirror set (R404, R405). What a port, a
takeover and a splice do stands in Sys2Proof.Machine.Duplex. -/

namespace Sys2Proof.Machine

def State.modDx (s : State) (f : Dx → Dx) : State := { s with dx := f s.dx }

/-- "Duplex states" as STAT.STATE codes them (R414). -/
def dxOff : Nat := 0
def dxSeek : Nat := 1
def dxActive : Nat := 2
def dxSync : Nat := 3
def dxStandby : Nat := 4
def dxFenced : Nat := 5

def State.dxSt (s : State) : Nat := s.f R.DX_STAT_STATE

/-- Ring `r` is a duplex ring (R391), and this unit serves it as one (R399). -/
def State.duplexRing (s : State) (r : Nat) : Bool :=
  s.dxSt != dxOff && bit (s.f R.DX_CTRL_RINGMASK) r && s.on (R.RING_CTRL_DUPLEX r)

/-- The duplex rings. -/
def State.duplexRings (s : State) : List Nat := (List.range 4).filter s.duplexRing

/-- This unit's ROLE strap, UNIT_ID and serial (R392, R32). -/
def State.unitRole (s : State) : Nat := s.f R.DOM_BOOT_STRAPS_ROLE
def State.unitId (s : State) : Nat := s.f R.DOM_BOOT_STRAPS_UNIT_ID
def State.serial (s : State) : Nat := s.f64 R.ID_SERIAL_LO R.ID_SERIAL_HI
def State.partnerSerial (s : State) : Nat := s.f64 R.DX_PSERIAL_LO R.DX_PSERIAL_HI

/-- A record of group 10 (R430). -/
def State.dxReport (s : State) (inst : Nat) (data : List Nat) : State :=
  s.report (srcOf 10 inst) (if inst = 6 || inst = 7 then clsFault else clsWarn) 0 data

/-- A transition (R399): the state, DX_ACTIVE (R392), HOT, the containers of a unit that gives up its rings (R388), a record and
EXT source 65. -/
def State.dxTo (s : State) (st : Nat) : State :=
  let old := s.dxSt
  let s := (s.set R.DX_STAT_STATE st).setB R.DX_STAT_ACTIVE (st == dxActive)
  let s := s.setB R.DX_STAT_HOT (st == dxStandby)
  let s := if old = dxActive && st ≠ dxActive then s.connsLeave s.duplexRings else s
  (s.dxReport 0 [old, st]).ext 65

/-- Axis `n` is mirrored (R404). -/
def State.mirrored (s : State) (n : Nat) : Bool := bit (s.f (R.DX_AXMASK (n / 32))) (n % 32)
def State.mirroredAxes (s : State) : List Nat := (List.range 256).filter s.mirrored

/-- Region `r` is enabled. -/
def State.mirRegion (s : State) (r : Nat) : Bool := s.on (R.DX_MIR_ADDR_HI_EN r)
def State.mirAddr (s : State) (r : Nat) : Nat := 16 * s.f (R.DX_MIR_ADDR_LO_ADDR r) + 2 ^ 32 * s.f (R.DX_MIR_ADDR_HI_ADDR r)

/-- A peer lane is up, and the peer link is not lost (R397, R407). -/
def State.peerUp (s : State) : Bool :=
  (s.on R.DX_STAT_LANE0_UP || s.on R.DX_STAT_LANE1_UP) && !s.on R.DX_STAT_PEER_LINK_DOWN

/-! ## Mirror records (R404, R405) -/

/-- The class A record of an axis. -/
def State.axMirror (s : State) (n : Nat) : AxMirror :=
  let x := s.ax n
  let h := x.hitch
  { axis := n, mode := s.mode n, status := s.reg (R.AX_STATUS n), fbRun := s.f (R.AX_STATUS_FB_RUN n),
    xAct := s.xAct n, posPrev := s.f (R.AX_POS_PREV n), xRef := s.s64 (R.AX_X_REF_LO n) (R.AX_X_REF_HI n),
    vRef := s.f (R.AX_V_REF n), feAt := x.feAt, hOn := h.on, hBlend := h.blend, hNeg := h.neg, hOfs := h.sOfs,
    hOfsUsed := s.f64 (R.AX_S_OFS_USED_LO n) (R.AX_S_OFS_USED_HI n), hStart := h.xe, hRho := h.rho, hMaster := h.xme,
    repBin := x.rep.bin, repSum := x.rep.sum, repN := x.rep.n, iv := x.iv, id := x.id, iq := x.iq, nb := x.nb }

/-- Node-table words of the entries of ring `r` that are not FREE. -/
def State.ntWords (s : State) (r : Nat) : List (Nat × Nat) :=
  (((List.range 64).filter (fun i => s.ntState r (i + 1) != nfFree)).map (fun i =>
    (List.range 7).map (fun j => (R.RING_NT_SERIAL_LO_W r i + 4 * j, s.reg (R.RING_NT_SERIAL_LO_W r i + 4 * j))))).flatten

/-- Class C as it stands now. -/
def State.classC (s : State) (n : Nat) : MirrorRec :=
  let tb := [(R.TB_CTRL_W, s.reg R.TB_CTRL_W), (R.TB_TCYC_W, s.actReg R.TB_TCYC_W)] ++
    (((List.range 2).map (fun d => [(R.TD_RATE_W d, s.reg (R.TD_RATE_W d)), (R.TD_RESID_W d, u32 ((s.dom d).resid / phase16))])).flatten)
  let rings := (s.duplexRings.map (fun r =>
    [(R.RING_STAT r, s.reg (R.RING_STAT r)), (R.RING_TOPO r, s.reg (R.RING_TOPO r)), (R.RING_SCHED r, s.reg (R.RING_SCHED r))]
      ++ s.ntWords r)).flatten
  let slots := ((List.range 64).filter (fun k => s.kState k != kFree)).map (fun k => (R.K_STAT k, s.reg (R.K_STAT k)))
  .classC n (tb ++ rings ++ slots)

/-- Class G of some groups of an axis, for boundary `n`. -/
def State.classG (s : State) (n axis : Nat) (gs : List Nat) : MirrorRec :=
  .classG n ((gs.map (groupRegs axis)).flatten.map (fun a => (a, s.reg a, s.actReg a)))

/-- Class P of an axis. -/
def State.classP (s : State) (n axis : Nat) : MirrorRec := .classP n axis (s.ax axis).gen (s.ax axis).modeCyc

/-- A decision on knot `k` from source `src` reaches the standby; the first of a source stands. -/
def State.decided (s : State) (k src : Nat) (go : Bool) : State :=
  s.modDx (fun d => if d.kdec.any (fun x => x.1 == k && x.2.1 == src) then d else { d with kdec := d.kdec ++ [(k, src, go)] })

/-- The decision on knot `k` that counts: of a header, else of its repeat, else of the mirrored record (R219). -/
def Dx.decision (d : Dx) (k : Nat) : Option (Nat × Bool) :=
  ((List.range 3).filterMap (fun src => d.kdec.find? (fun x => x.1 == k && x.2.1 == src))).head?.map (·.2)

/-- Registers of a knot slot (R221). -/
def kRegs (k : Nat) : List Nat := [R.K_CFG k, R.K_CYC_W k, R.K_STAT k, R.K_CCYC_W k, R.K_SIZE k, R.K_OWNER_W k, R.K_OUT k]

/-- Class K of a slot. -/
def State.classK (s : State) (n k : Nat) (go : Option Bool) : MirrorRec :=
  .classK n k ((kRegs k).map (fun a => (a, s.reg a))) (s.knot k).ents go

/-- A region's copy of cycle `n`, whole. -/
def State.classF (s : State) (n r : Nat) : MirrorRec :=
  .region r n (s.bytes (s.mirAddr r) (s.f (R.DX_MIR_LEN_LEN r))) true

/-- A full mirror copy (R399): every group, plan and slot, every region, and its end. -/
def State.fullCopy (s : State) : List MirrorRec :=
  let n := s.cyc
  (s.mirroredAxes.map (fun a => [s.classG n a (List.range 11), s.classP n a])).flatten ++
    ((List.range 64).filter (fun k => s.kState k != kFree)).map (fun k => s.classK n k none) ++
    ((List.range 32).filter s.mirRegion).map (fun r => s.classF n r) ++ [.copyDone]

/-- A record is queued for the partner behind the cycle's classes C and A (R406); mirroring stops without a partner or a
peer link (R399, R407). -/
def State.mirrorQueue (s : State) (m : MirrorRec) : State :=
  if s.dxSt = dxActive && s.on R.DX_STAT_PARTNER && s.peerUp then s.modDx (fun d => { d with queued := d.queued ++ [m] }) else s

/-! ## Planned splices: what abandons one (R409, R410) -/

/-- The splice is abandoned: SABORT is sent and SPLICERR set. -/
def State.spliceAbort (s : State) : State :=
  match s.dx.splice with
  | none => s
  | some p =>
    let s := s.modDx (fun d => { d with splice := none, wantSwitch := false, wantBack := false, abort := p.giving })
    (s.raise R.DX_STAT_SPLICERR).dxReport 2 [p.k]

/-! ## Heartbeats and insertions (R397, R410) -/

/-- 60 s in ns. -/
def minuteNs : Nat := 60000000000

/-- Insertions whose stamps lie within 60 s of `t`. -/
def recentIns (t : Nat) (xs : List Nat) : List Nat := xs.filter (fun x => t - x ≤ minuteNs)

/-- An insertion of the partner (R410). -/
def State.insertion (s : State) : State :=
  let t := s.glong
  let xs := recentIns t (t :: s.dx.ins)
  let s := s.modDx (fun d => { d with ins := xs, holdFrom := some t, parts := [], recv := [], full := false, inRow := 0 })
  let s := s.count R.DX_INS_COUNT
  let s := s.spliceAbort
  if 3 ≤ xs.length && !s.on R.DX_STAT_LOCKOUT then (s.raise R.DX_STAT_LOCKOUT).dxReport 4 [xs.length] else s

/-- The partner's heartbeat of cycle `n` arrives, on the peer link or on a ring; it counts until CSTART(n + 1) (R397). -/
def State.dxBeat (s : State) (peer : Bool) (n : Nat) : State :=
  let st := s.dxSt
  if st = dxOff || st = dxFenced || decide (0 < dt s.gnow (s.cstartOf s.grid (u32 ((n : Int) + 1)))) then s
  else
    let s := s.modDx (fun d => if peer then { d with beatPeer := some n } else { d with beatRing := some n })
    if s.on R.DX_STAT_PARTNER || st = dxSeek then s
    else
      let s := (s.raise R.DX_STAT_PARTNER).insertion
      if st = dxActive then (s.modDx (fun d => { d with queued := s.fullCopy })).dxTo dxActive else s

/-- A heartbeat from serial `p` is the partner's: the serial last learned, or the first heard while no partner is held. -/
def State.isPartner (s : State) (p : Nat) : Bool :=
  p != s.serial && (p == s.partnerSerial || !s.on R.DX_STAT_PARTNER)

/-- The partner's serial is learned. -/
def State.learnPartner (s : State) (p : Nat) : State := s.set64 R.DX_PSERIAL_LO R.DX_PSERIAL_HI p

/-! ## The reduced set (R408) -/

/-- AXPOS of an axis. -/
def State.recAxpos (s : State) (n : Nat) : List Byte :=
  leBytes 1 1 ++ leBytes 1 n ++ leBytes 1 (s.mode n) ++ leBytes 1 0 ++ leBytes 4 s.cyc ++ leBytes 8 (uw 64 (s.xAct n))

/-- KNOT of a slot; KD_CODE 1 GO, 2 VOID, 0 while it is open. -/
def State.recKnot (s : State) (k : Nat) : List Byte :=
  let st := s.kState k
  leBytes 1 2 ++ leBytes 1 k ++ leBytes 1 st ++ leBytes 1 (if st = kVoid then 2 else if kConfirm ≤ st then 1 else 0) ++
    leBytes 4 (s.f (R.K_CCYC k)) ++ leBytes 8 0

/-- PLAN of an axis: four records. -/
def State.recPlan (s : State) (n : Nat) : List (List Byte) :=
  let g := (s.ax n).gen
  let k : Kin := match g.segs with | [] => ⟨g.x, g.v, g.a⟩ | x :: _ => ⟨x.x, x.v, x.a⟩
  let w (a : Fld) : List Byte := leBytes 4 (s.fa a)
  [leBytes 1 3 ++ leBytes 1 n ++ leBytes 1 (s.mode n) ++ leBytes 1 0 ++ leBytes 4 g.cyc ++ leBytes 8 (uw 64 k.x),
   leBytes 4 k.v.toNat ++ leBytes 4 k.a.toNat ++ leBytes 8 (s.f64a (R.AX_X_TGT_LO n) (R.AX_X_TGT_HI n)),
   w (R.AX_VTGT n) ++ w (R.AX_VMAX n) ++ w (R.AX_AMAX n) ++ w (R.AX_DMAX n),
   w (R.AX_JMAX n) ++ w (R.AX_SDMAX n) ++ w (R.AX_SJMAX n) ++ leBytes 4 0]

/-- A record takes the next RSEQ. -/
def State.recPut (s : State) (r : List Byte) : State :=
  s.modDx (fun d => { d with rseq := (d.rseq + 1) % 65536, unacked := d.unacked ++ [((d.rseq + 1) % 65536, none, r)] })

def Dx.gen (d : Dx) (n : Nat) : Gen := SMap.get (fun _ => {}) d.gens n
def Dx.kState (d : Dx) (k : Nat) : Nat := SMap.get (fun _ => 0) d.kst k

/-- The records due: KNOT of every slot whose state changed, then PLAN of every axis whose plan changed (R408). -/
def State.recDue (s : State) : State :=
  let s := forN 64 (fun k s =>
    if s.dx.kState k = s.kState k then s
    else (s.recPut (s.recKnot k)).modDx (fun d => { d with kst := SMap.put (fun _ => 0) d.kst k (s.kState k) })) s
  forEach s.mirroredAxes (fun n s =>
    if s.dx.gen n = (s.ax n).gen then s
    else (forEach (s.recPlan n) (fun r s => s.recPut r) s).modDx
      (fun d => { d with gens := SMap.put (fun _ => {}) d.gens n (s.ax n).gen })) s

/-- AXPOS records of the mirrored axes in turn, `k` of them. -/
def State.recAxposes (s : State) : Nat → State
  | 0 => s
  | k + 1 =>
    let xs := s.mirroredAxes
    match xs with
    | [] => s
    | _ =>
      let i := s.dx.axpos % xs.length
      ((s.recPut (s.recAxpos (xs.getD i 0))).modDx (fun d => { d with axpos := i + 1 })).recAxposes k

/-- The first run of records with consecutive RSEQ that wait to be sent, at most `k`. -/
def recRun : Nat → List (Nat × Option Nat × List Byte) → List (Nat × List Byte)
  | 0, _ => []
  | _, [] => []
  | k + 1, (q, none, b) :: xs => (q, b) :: (match xs with | (_, none, _) :: _ => recRun k xs | _ => [])
  | k + 1, (_, some _, _) :: xs => recRun (k + 1) xs

/-- The records of one PEER datagram with room for `m`: those that wait, and AXPOS records in the room left. -/
def State.recTake (s : State) (m : Nat) : List (Nat × List Byte) × State :=
  if s.dxSt ≠ dxActive || !s.on R.DX_STAT_PEER_LINK_DOWN || m = 0 then ([], s)
  else
    let s := s.recDue
    let waiting := (s.dx.unacked.filter (fun x => x.2.1.isNone)).length
    let s := s.recAxposes (m - waiting)
    let run := recRun m s.dx.unacked
    (run, s.modDx (fun d => { d with unacked := d.unacked.map (fun x =>
      if run.any (fun y => y.1 == x.1) then (x.1, some s.cyc, x.2.2) else x) }))

/-- Records that RACK has not confirmed within 8 cycles are sent again (R408). -/
def State.recResend (s : State) : State :=
  s.modDx (fun d => { d with unacked := d.unacked.map (fun x =>
    match x.2.1 with
    | some c => if 8 ≤ dt s.cyc c then (x.1, none, x.2.2) else x
    | none => x) })

/-- RACK confirms every record up to it. -/
def State.recAck (s : State) (rack : Nat) : State :=
  s.modDx (fun d => { d with unacked := d.unacked.filter (fun x => decide (0 < i16 ((x.1 : Int) - rack))) })

/-- One record received in order: a PLAN waits until its four records are here; a newer record replaces an older one of its
kind and number. -/
def Dx.recIn (d : Dx) (r : List Byte) : Dx :=
  let keep (x : List Byte) : Dx := { d with got := d.got.filter (fun y => y.take 2 != x.take 2) ++ [x], part := [] }
  if d.part.isEmpty then (if leAt r 0 1 = 3 then { d with part := r } else keep r)
  else
    let p := d.part ++ r
    if p.length < 64 then { d with part := p } else keep p

/-- Records of a PEER datagram, from RSEQ `q` on: those that follow RACK without a gap (R396). -/
def Dx.recGet (d : Dx) (q : Nat) : List (List Byte) → Dx
  | [] => d
  | r :: rs =>
    let d := if q = (d.rack + 1) % 65536 then { d.recIn r with rack := q } else d
    d.recGet ((q + 1) % 65536) rs

/-! ## The PEER datagram (R396) -/

/-- The downlink with room for `m` records. -/
def State.peerDown (s : State) (m : Nat) : List Byte × State :=
  let (recs, s) := s.recTake m
  let sp := s.dx.splice
  let sreq := match sp with | some p => p.giving | none => false
  let b := leBytes 1 s.dxSt ++ leBytes 1 (b2n (s.on R.DX_STAT_PEER_LINK_DOWN) + 2 * b2n sreq + 4 * b2n s.dx.abort) ++
    leBytes 2 (match recs with | (q, _) :: _ => q | [] => 0) ++
    leBytes 4 (match sp with | some p => if sreq then p.k else 0 | none => 0) ++
    leBytes 4 (s.f R.DX_MIRCYC) ++ leBytes 1 recs.length ++ leBytes 3 0
  let body := (recs.map (·.2)).flatten
  (b ++ body ++ List.replicate (16 * m - body.length) 0, s)

/-- The uplink of the turning unit. -/
def State.peerUplink (s : State) : List Byte :=
  let sack := match s.dx.splice with | some p => !p.giving && p.sack | none => false
  leBytes 8 s.serial ++ leBytes 1 s.dxSt ++
    leBytes 1 (b2n (s.on R.DX_STAT_PEER_LINK_DOWN) + 2 * b2n sack + 4 * b2n (s.on R.DX_STAT_HOT)) ++
    leBytes 2 s.dx.rack ++ leBytes 4 (s.f R.DX_MIRCYC)

/-- SREQ for cycle `k` at the partner: a standby that is HOT answers SACK (R409). -/
def State.spliceAsked (s : State) (k : Nat) : State :=
  if s.dxSt = dxStandby && s.on R.DX_STAT_HOT then s.modDx (fun d => { d with splice := some { k := k, sack := true, giving := false } })
  else s

/-- SABORT at the partner. -/
def State.spliceAborted (s : State) : State :=
  match s.dx.splice with
  | some p => if p.giving then s else s.modDx (fun d => { d with splice := none })
  | none => s

/-- SACK at the active unit. -/
def State.spliceAcked (s : State) : State :=
  s.modDx (fun d => { d with splice := d.splice.map (fun p => if p.giving then { p with sack := true } else p) })

/-- The downlink at the turning unit, from the partner. -/
def State.peerDownIn (s : State) (b : List Byte) : State :=
  let fl := leAt b 1 1
  let s := s.modDx (fun d => { d with pState := leAt b 0 1 })
  let s := if bit fl 1 then s.spliceAsked (leAt b 4 4) else s
  let s := if bit fl 2 then s.spliceAborted else s
  s.modDx (fun d => d.recGet (leAt b 2 2) ((List.range (leAt b 12 1)).map (fun i => slice b (16 + 16 * i) 16)))

/-- The uplink at the sending unit, from cycle `n`, with HITS = 1. -/
def State.peerUpIn (s : State) (n : Nat) (b : List Byte) : State :=
  let p := leAt b 0 8
  if !s.isPartner p then s
  else
    let fl := leAt b 9 1
    let s := (s.learnPartner p).modDx (fun d => { d with pState := leAt b 8 1, pHot := bit fl 2 })
    let s := s.dxBeat false n
    let s := if bit fl 1 then s.spliceAcked else s
    s.recAck (leAt b 10 2)

end Sys2Proof.Machine
end

