-- ==== Sys2Proof/Machine/RingSend.lean ====
section
/-! DEFINITION. A ring port's sending side (spec/02_finil_ring.md): the states of R62, the frames of discovery, of the delay
sweep, of CONFIG and of the cycle (R39 to R49, R58, R69), and the mailbox (R45). -/

namespace Sys2Proof.Machine

/-- "Ring port states" as STAT.STATE codes them. -/
def rpIdle : Nat := 0
def rpListen : Nat := 1
def rpDiscover : Nat := 2
def rpSweep : Nat := 3
def rpConfig : Nat := 4
def rpRun : Nat := 5
def rpDual : Nat := 6
def rpFollow : Nat := 7
def rpFault : Nat := 8

def State.rpSt (s : State) (r : Nat) : Nat := s.f (R.RING_STAT_STATE r)
def State.rpTo (s : State) (r st : Nat) : State := s.set (R.RING_STAT_STATE r) st

/-- The port runs cyclic frames. -/
def State.cyclic (s : State) (r : Nat) : Bool := s.rpSt r == rpRun || s.rpSt r == rpDual

/-- The phase of ring `r`'s domain in 1/16 ns. -/
def State.now16 (s : State) (r : Nat) : Nat := (s.dom (s.fa (R.RING_CTRL_TDOM r))).phase / phase16.toNat

/-- The port a duplex unit sends from: the primary's head, the secondary's tail (R391, R394). -/
def State.ownTail (s : State) (r : Nat) : Bool := s.duplexRing r && s.unitRole == 1

/-! ## The states of R62 -/

/-- AUTO steps down one speed (R35). -/
def State.stepDown (s : State) (r : Nat) : State :=
  let s := s.set (R.RING_STAT_SPEED r) (min 2 (s.f (R.RING_STAT_SPEED r) + 1))
  (s.raise (R.RING_STAT_SPEED_DOWN r)).report (ringSrc r 7 0) clsWarn 0 [r, s.f (R.RING_STAT_SPEED r)]

/-- A port link that is up is below the ring speed. -/
def State.slowLink (s : State) (r : Nat) : Bool :=
  let v := s.f (R.RING_STAT_SPEED r)
  (s.on (R.RING_PORT_STAT_HEAD_LINK r) && v < s.f (R.RING_PORT_STAT_HEAD_SPEED r)) ||
    (s.on (R.RING_PORT_STAT_TAIL_LINK r) && v < s.f (R.RING_PORT_STAT_TAIL_SPEED r))

def State.autoSpeed (s : State) (r : Nat) : Bool := s.f (R.RING_PORT_CFG_SPEED r) == 3

/-- What a new discovery starts from; each node's mailbox sequence goes on (R45). -/
def Ring.fresh (x : Ring) : Ring :=
  { nstat := x.nstat, live := x.live, caps := x.caps, fol := x.fol, firedIn := x.firedIn,
    mseqs := x.mseqs.map (fun m => (m.1, { m.2 with busy := none })) }

/-- With AUTO, a port link below the ring speed steps it down. -/
def State.speedCheck (s : State) (r : Nat) : State :=
  if s.autoSpeed r && s.slowLink r && s.f (R.RING_STAT_SPEED r) < 2 then s.stepDown r else s

/-- Discovery is restarted at the ring's present speed, or the next lower one that every port link reaches (R35, R65). -/
def State.rediscover (s : State) (r : Nat) : State :=
  let s := s.modRing r Ring.fresh
  let s := (s.clr (R.RING_STAT_BREAK r)).setReg (R.RING_TOPO r) 0
  let s := s.rpTo r rpDiscover
  (s.speedCheck r).speedCheck r

/-- DISCOVER at the speed PORT_CFG gives; AUTO starts at 10 Gb/s (R35). -/
def State.discover (s : State) (r : Nat) : State :=
  let v := s.f (R.RING_PORT_CFG_SPEED r)
  (s.set (R.RING_STAT_SPEED r) (if v = 3 then 0 else v)).rediscover r

/-- LISTEN with a fresh window (R60). -/
def State.listen (s : State) (r : Nat) : State := (s.modRing r Ring.fresh).rpTo r rpListen

/-- CTRL.EN := 1 (R62). -/
def State.portEnable (s : State) (r : Nat) : State :=
  if s.rpSt r ≠ rpIdle then s
  else if s.f (R.RING_OUI r) = 0 then s.raise (R.RING_STAT_CFGERR r)
  else (s.clr (R.RING_STAT_CFGERR r)).listen r

/-- The port is IDLE. -/
def State.portIdle (s : State) (r : Nat) : State := (s.modRing r Ring.fresh).rpTo r rpIdle

/-- CTRL.EN := 0: a sending port stops after the current cycle (R62). -/
def State.portDisable (s : State) (r : Nat) : State :=
  if s.sending r then s.modRing r (fun x => { x with stopping := true }) else s.portIdle r

/-! ## The sweep's steps (R64) -/

/-- The steps of a sweep: port side (true for a segment fed from the tail) and k. The last link of a whole ring is measured
with the tail port's turn; a segment fed from the tail has no link before its position 1 (notes/assumptions/41.md). -/
def State.sweepPlan (s : State) (r : Nat) : List (Bool × Nat) :=
  let x := s.ring r
  let head := s.on (R.RING_PORT_STAT_HEAD_LINK r)
  let nh := x.discHead.length
  let nt := x.discTail.length
  (if head then ((List.range nh).map (fun i => (false, i + 1))) ++ (if x.discLoop then [] else [(false, nh + 1)]) else []) ++
    (if x.discLoop || !head then (List.range nt).map (fun i => (true, i + 2)) else [])

/-- Nodes of a segment. -/
def Ring.segLen (x : Ring) (tail : Bool) : Nat := if tail then x.discTail.length else x.discHead.length

/-- The step in progress. -/
def State.sweepNow (s : State) (r : Nat) : Option (Bool × Nat) := (s.sweepPlan r)[(s.ring r).swStep]?

/-- LOOP_AT of a step. -/
def Ring.loopAt (x : Ring) (p : Bool × Nat) : Nat := if p.2 = x.segLen p.1 + 1 then 0xFE else 0x7F + p.2

/-- The delay measured for a link, 0 where none was. -/
def delayFor (plan : List (Bool × Nat)) (ds : List Nat) (p : Bool × Nat) : Nat :=
  match plan.findIdx? (· == p) with | some i => ds.getD i 0 | none => 0

/-! ## Headers (R39, R40, R69) -/

/-- The knot announced in cycle `n`. -/
def Ring.announce (x : Ring) (n : Nat) : Option KWire := x.kann.find? (fun k => decide (1 ≤ dt k.ccyc n ∧ dt k.ccyc n ≤ 3))
/-- The knot decided in cycle `n`, or repeated in it. -/
def Ring.decision (x : Ring) (n : Nat) : Option KWire := x.kdec.find? (fun k => decide (0 ≤ dt n k.ccyc ∧ dt n k.ccyc ≤ 1))

/-- The header of frame `f` of cycle `n` sent from the head or the tail port. -/
def State.header (s : State) (r n ftype f flast plen : Nat) (tail : Bool) : Hdr :=
  let x := s.ring r
  let ka := x.announce n
  let kd := x.decision n
  let heal := x.heal == 3 && (match x.healAt with | some h => decide (0 ≤ dt n h ∧ dt n h ≤ 1) | none => false)
  { da := s.f (R.RING_DA_LO r) + 2 ^ 32 * s.f (R.RING_DA_HI r), sa := s.f (R.RING_SA_LO r) + 2 ^ 32 * s.f (R.RING_SA_HI r),
    oui := s.f (R.RING_OUI r), proto := s.f (R.RING_PROTO r), verFtype := 0x10 + ftype,
    flags := 64 * r + 32 * b2n tail + 8 * s.fa (R.RING_CTRL_TDOM r) + 4 * b2n heal, fidxFlast := 16 * f + flast,
    kctl := b2n ka.isSome + 2 * b2n kd.isSome + 4 * (match kd with | some k => b2n (k.ccyc != n) | none => 0),
    cycle := n, tstamp := s.tstampOf r n f, cstart := s.ringCstart r n, tcyc := s.tcyc, sph := s.fa (R.RING_SPH r),
    aph := s.fa (R.RING_APH r), plen := plen,
    kaId := match ka with | some k => k.knot | none => 0, kaCyc := match ka with | some k => k.ccyc | none => 0,
    kdId := match kd with | some k => k.knot | none => 0, kdCyc := match kd with | some k => k.ccyc | none => 0,
    kdCode := match kd with | some k => (if k.go = some true then 1 else 2) | none => 0,
    hbFlags := s.unitRole + 2 * b2n (s.duplexRing r), hbSeq := n % 65536, hbUnit := s.unitId, hbSerial := s.serial }

/-- A whole frame. -/
def frameOf (h : Hdr) (area : List Byte) : List Byte := sealFrame (h.encode ++ area) true

/-- A frame leaves a port. -/
def State.setSent (s : State) (r : Nat) (tail : Bool) (f : List Byte) : State :=
  s.modRing r (fun x => if tail then { x with sentTail := f } else { x with sentHead := f })

/-- A datagram with empty uplink. -/
def dgram (dtype node ulen : Nat) (down : List Byte) : List Byte :=
  dgHeader dtype node down.length ulen 0 ++ down ++ List.replicate ulen 0

/-! ## Discovery, delay and CONFIG frames -/

/-- The DISCOVER frame of a port (R49, R62). -/
def State.discoverFrame (s : State) (r : Nat) (tail : Bool) : List Byte :=
  let a := dgram 5 0 1024 (List.replicate 4 0)
  frameOf (s.header r s.cyc 1 0 0 a.length tail) a

/-- A DELAY frame (R49, R63); DSEQ is the cycle number's low half (notes/assumptions/2023.md). -/
def State.delayFrame (s : State) (r loopAt : Nat) (thru tail : Bool) : List Byte :=
  let a := dgram 6 0 1024 (leBytes 1 loopAt ++ leBytes 1 (b2n thru) ++ leBytes 2 s.cyc)
  frameOf (s.header r s.cyc 2 0 0 a.length tail) a

/-! ## The mailbox (R45) -/

/-- The 32 downlink bytes of a request. -/
def paramDown (mseq : Nat) (q : MReq) : List Byte :=
  leBytes 1 mseq ++ leBytes 1 q.mop ++ leBytes 2 q.obj ++ leBytes 1 q.data.length ++ leBytes 3 0 ++ pad24 q.data

/-- A request becomes the one in flight to its node. -/
def Ring.launch (x : Ring) (q : MReq) : Ring :=
  let m := x.mseq q.addr
  (x.setMseq q.addr { mseq := (m.mseq + 1) % 256, busy := some q })

/-- Drop the first request that `p` names from the queue. -/
def dropFirst (p : MReq → Bool) : List MReq → List MReq
  | [] => []
  | q :: qs => if p q then qs else q :: dropFirst p qs

/-- The request a PARAM datagram to the node of field `a` carries: the unanswered one, else the next of its queue. -/
def Ring.serve (x : Ring) (a : Nat) : Ring :=
  let mine (q : MReq) : Bool := x.reqAddr q.addr == x.reqAddr a
  match (x.mseq a).busy with
  | some _ => x
  | none =>
    match x.mbox.find? mine with
    | some q => ({ x with mbox := dropFirst mine x.mbox }).launch q
    | none => x

/-- Requests in flight, by NODE field. -/
def Ring.busyOnes (x : Ring) : List Nat := x.mseqs.filterMap (fun m => m.2.busy.map (·.addr))

/-- The NODE field a mailbox carrier takes in cycle `n`: a new request in queue order, else the requests in flight in turn. A
node by its position from the tail port is named by its address. -/
def Ring.carry (x : Ring) (n : Nat) : Option Nat :=
  let name (a : Nat) : Nat := if a < 256 then a else x.reqAddr a
  match x.mbox.find? (fun q => (x.mseq q.addr).busy.isNone) with
  | some q => some (name q.addr)
  | none =>
    let b := x.busyOnes.map name
    if b.isEmpty then none else b[n % b.length]?

/-- The PARAM downlink to address `a`; with no request, its latest MSEQ again as a NOP, which the node takes for a repeat. -/
def Ring.paramTo (x : Ring) (a : Nat) : List Byte :=
  let m := x.mseq a
  match m.busy with
  | some q => paramDown m.mseq q
  | none => paramDown m.mseq { addr := a, mop := 0, obj := 0, data := [], use := 0 }

/-- The frame of CONFIG from one port: the requests by position of its side, as many as fit. -/
def State.configFrame (s : State) (r : Nat) (tail : Bool) : List Byte × State :=
  let mine (a : Nat) : Bool := decide (256 ≤ a) == tail
  let x := s.ring r
  let waiting := (x.busyOnes ++ x.mbox.map (·.addr)).eraseDups.filter mine
  let now := waiting.take 19
  let x := now.foldl Ring.serve x
  let a := (now.map (fun k => dgram 2 (k % 256) 32 (x.paramTo k))).flatten
  (frameOf (s.header r s.cyc 0 0 0 a.length tail) a, s.setRing r x)

/-! ## Cyclic datagrams (R43, R48, R58) -/

/-- What an AXIS datagram carries for slot `a` in cycle `n`; a slot not bound to the node goes out disabled. -/
def State.axisWords (s : State) (r node n a : Nat) : AxCmd :=
  if a < 256 && s.boundNode a == some (r, node) then
    let z := s.zeroWord a
    let x := s.ax a
    match x.fixed with
    | some (m, p) => if m = n then p else s.forceOff a (x.pay.getD (s.mkPay a false z z z))
    | none => s.forceOff a (x.pay.getD (s.mkPay a false z z z))
  else {}

/-- The AXIS downlink (R43). -/
def State.axisDown (s : State) (r n : Nat) (e : SEnt) : List Byte :=
  let x := s.ring r
  leBytes 2 (b2n (x.drop.contains e.node) + 2 * b2n (x.loopOutTo == e.node && e.node != 0)) ++ leBytes 2 0 ++
    ((List.range e.nax).map (fun i =>
      let p := s.axisWords r e.node n (e.axbase + i)
      leBytes 2 p.actl ++ leBytes 2 p.w0 ++ leBytes 2 p.w1 ++ leBytes 2 p.w2)).flatten

/-- The grant sent in cycle `n`, if one is (R67). -/
def Ring.grantIn (x : Ring) (n : Nat) : Option Grant := x.grants.find? (fun g => decide (1 ≤ dt n g.n ∧ dt n g.n ≤ 3))

/-- The address a new node is granted: the lowest-numbered that is FREE and in no grant (notes/assumptions/2024.md). -/
def State.freeAddr (s : State) (r : Nat) : Option Nat :=
  (firstIdx 64 (fun i => s.ntState r (i + 1) == nfFree && !(s.ring r).grants.any (fun g => g.addr == i + 1))).map (· + 1)

/-- An address is held for a serial (R74). -/
def State.anyReserved (s : State) (r : Nat) : Bool := (List.range 64).any (fun i => s.ntState r (i + 1) == nfReserved)

/-- The BIGHT downlink of cycle `n`: GRANTED for three cycles, else OPEN, or CLOSED with no address to give (R48, R67). -/
def State.bightDown (s : State) (r n : Nat) : List Byte :=
  match (s.ring r).grantIn n with
  | some g => leBytes 1 2 ++ leBytes 1 g.addr ++ leBytes 2 0 ++ leBytes 8 g.serial ++ leBytes 4 (u32 ((g.n : Int) + 4))
  | none => leBytes 1 (if (s.freeAddr r).isSome || s.anyReserved r then 1 else 0) ++ List.replicate 15 0

/-- One datagram of a cyclic frame. -/
def State.datagram (s : State) (r n : Nat) (e : SEnt) : List Byte × State :=
  let fit (b : List Byte) : List Byte := (b ++ List.replicate e.dlen 0).take e.dlen
  let out (node : Nat) (b : List Byte) : List Byte := dgram e.dtype node e.ulen (fit b)
  match e.dtype with
  | 1 => (out e.node (s.axisDown r n e), s)
  | 2 =>
    let x := s.ring r
    match (if e.node = 0 then x.carry n else some e.node) with
    | none => (out 0 [], s)
    | some a =>
      let x := x.serve a
      (out (a % 256) (x.paramTo a), s.setRing r x)
  | 3 =>
    let c := s.containerDown r e.node n
    (out e.node c.1, c.2)
  | 4 => (out e.node (s.bightDown r n), s)
  | 7 =>
    let c := s.peerDown ((e.dlen - 16) / 16)
    (out e.node c.1, c.2)
  | _ => (out e.node [], s)

/-- The datagram area of frame `f`, in ascending entry order. -/
def State.areaBytes (s : State) (r n : Nat) : List SEnt → List Byte × State
  | [] => ([], s)
  | e :: es =>
    let a := s.datagram r n e
    let b := a.2.areaBytes r n es
    (a.1 ++ b.1, b.2)

/-- The heal fails: HEALERR, and DUALFEED stays. -/
def State.healFail (s : State) (r : Nat) : State :=
  ((s.raise (R.RING_STAT_HEALERR r)).report (ringSrc r 5 0) clsWarn 0 [s.f (R.RING_TOPO_BREAK_U r), s.f (R.RING_TOPO_BREAK_V r)]).modRing
    r (fun x => { x with heal := 0, healVals := [], healAt := none, sentDelay := [] })

/-- Frame `f` of the cycle in progress leaves its port or ports (R40, R62, R394, R402). -/
def State.sendCyclic (s : State) (r f : Nat) : State :=
  let n := s.cyc
  let bank := s.activeBank r
  let flast := flastOf bank
  if flast < f then s
  else
    let a := s.areaBytes r n (bank.filter (fun e => e.fidx == f && e.sentIn n))
    let s := a.2
    let frame (tail : Bool) : List Byte := frameOf (s.header r n 0 f flast a.1.length tail) a.1
    let dual := s.rpSt r == rpDual
    let own := s.ownTail r
    let s := s.setSent r own (frame own)
    let s :=
      if !dual then s
      else if s.duplexRing r then
        if s.peerUp then s.modDx (fun d => { d with copies := SMap.put (fun _ => []) d.copies r (frame own) }) else s
      else s.setSent r true (frame true)
    let x := s.ring r
    if x.heal ≠ 1 || f ≠ flast then s
    else if !x.sentDelay.isEmpty then s.healFail r -- the frame before it was lost
    else
      let v := s.f (R.RING_TOPO_BREAK_V r)
      s.modRing r (fun y => { y with sentDelay := s.delayFrame r (if v = 0 then 0xFE else v) true own })

/-- FRAME_SEND: frame `f` of the cycle in progress (R40, R62). Discovery, the sweep and CONFIG send frame 0 only. -/
def State.frameSend (s : State) (r f : Nat) : State :=
  if !s.islOn (ringIsl r) || !s.locked (ringIsl r) then s -- R22
  else
    let st := s.rpSt r
    if st = rpRun || st = rpDual then s.sendCyclic r f
    else if f ≠ 0 then s
    else if st = rpDiscover then (s.setSent r false (s.discoverFrame r false)).setSent r true (s.discoverFrame r true)
    else if st = rpSweep then
      match s.sweepNow r with
      | none => s
      | some p =>
        (s.setSent r p.1 (s.delayFrame r ((s.ring r).loopAt p) false p.1)).modRing r (fun x => { x with delaySent := s.now16 r })
    else if st = rpConfig then
      let a := s.configFrame r false
      let s := a.2.setSent r false a.1
      if (s.ring r).discLoop || !s.on (R.RING_PORT_STAT_HEAD_LINK r) then
        let b := s.configFrame r true
        b.2.setSent r true b.1
      else s
    else s

def execFrameSend (r : Fin 4) (f : Fin 16) (s : State) : Res := .next (s.frameSend r f)

end Sys2Proof.Machine
end

