-- ==== Sys2Proof/Machine/RingRecv.lean ====
section
/-! DEFINITION. A ring port's receiving side (spec/02_finil_ring.md): received frames (R54), listen and collisions (R60,
R61), discovery and the sweep (R62 to R65), the cycle's datagrams, claims and grants (R67, R68, R74), breaks and healing (R76,
R77), missing nodes (R73), the turn of a duplex unit (R393), and the port's own boundary work and register writes. -/

namespace Sys2Proof.Machine

/-! ## Listening, following and the turn (R60, R61, R224, R393) -/

/-- CTRL.DUPLEX hands a ring with a valid cycle over to the duplex block (R62, R399): a unit in SEEK is in SYNC and its
domains follow the ring. -/
def State.dxFollow (s : State) (r p : Nat) : State :=
  if !s.duplexRing r then s
  else
    let s := if s.isPartner p then s.learnPartner p else s
    if s.dxSt = dxSeek then
      let s := forEach s.duplexRings (fun q s => s.set (R.TD_CFG_SRC (s.fa (R.RING_CTRL_TDOM q))) 2) s
      s.dxTo dxSync
    else s

/-- A unit none of whose rings sends takes cycle number, CSTART and TCYC from the header it follows; the ring keeps them in any
case for its marks (R91). -/
def State.adoptCycle (s : State) (r : Nat) (h : Hdr) : State :=
  let s := s.modRing r (fun x => { x with fol := some (h.cycle, h.cstart, h.tcyc) })
  if s.anySending then s
  else
    let d := h.tdom
    let age := dt (s.now d) h.cstart
    let other := u32 ((s.now (1 - d) : Int) - age)
    { s with tim := { s.tim with cyc := h.cycle, folTcyc := some h.tcyc,
                                 cstartA := if d = 0 then h.cstart else other, cstartB := if d = 0 then other else h.cstart } }

/-- The header time of a followed ring reaches the domains that follow it (R224), with the ingress link delay of the port. -/
def State.followTime (s : State) (r : Nat) (tail : Bool) (h : Hdr) : State :=
  let t := u32 (ringTime16 h (Config.portDelay r (b2n tail)) / 16 : Nat)
  forN 2 (fun d s => if s.f (R.TD_CFG_RSEL d) = r then s.ringTime d t else s) s

/-- A cycle seen while listening: full when every FIDX has come (R60). -/
def State.listenFrame (s : State) (r : Nat) (tail : Bool) (h : Hdr) : State :=
  let x := s.ring r
  let mask := (if x.seenCyc = some h.cycle then x.seenMask else 0) ||| 2 ^ h.fidx
  let s := s.modRing r (fun x => { x with seenCyc := some h.cycle, seenLast := h.flast, seenMask := mask })
  if mask = 2 ^ (h.flast + 1) - 1 then (((s.rpTo r rpFollow).adoptCycle r h).followTime r tail h).dxFollow r h.hbSerial else s

/-- The turn of a frame by the unit that is not sending (R393): PEER uplink and HITS, the last step of the sweep, CORR. An
island whose replica is not locked sends nothing (R22). -/
def State.turnFrame (s : State) (r : Nat) (tail : Bool) (f : List Byte) (h : Hdr) (ds : List Dg) : State :=
  let w (i : Nat) : List Byte := leBytes 4 (Config.freeWord (s.free + i)).toNat
  let res := (Config.freeWord s.free).toNat + (Config.freeWord (s.free + 1)).toNat
  let body := patch (frameBody f) 32 (leBytes 4 (h.corr + res))
  let body := ds.foldl (fun b d =>
    if d.dtype = 7 && d.node = 0xFE then
      patch (patch b d.up ((s.peerUplink).take d.ulen)) (d.off + 6) (leBytes 2 (d.hits + 1))
    else if d.dtype = 6 && leAt b d.down 1 = 0xFE && 16 * (h.hops + 1) ≤ d.ulen then
      patch b (d.up + 16 * h.hops) (w 2 ++ w 3 ++ leBytes 8 0)
    else b) body
  let s := ds.foldl (fun s d => if d.dtype = 7 && d.node = 0xFE then s.peerDownIn (slice f d.down d.dlen) else s) s
  if s.locked (ringIsl r) then ({ s with free := s.free + 4 }).setSent r tail (sealFrame body true) else s

/-- The standby sees the requests that pass: each node's sequence is known to it at a takeover (R45). -/
def State.followMseq (s : State) (r : Nat) (f : List Byte) (ds : List Dg) : State :=
  ds.foldl (fun s d =>
    if d.dtype = 2 && 1 ≤ d.node && d.node ≤ 0x40 then s.modRing r (fun x => x.setMseq d.node { mseq := leAt f d.down 1 }) else s) s

/-- A frame of another unit on a ring this unit follows. -/
def State.followFrame (s : State) (r : Nat) (tail : Bool) (f : List Byte) (h : Hdr) (ds : List Dg) : State :=
  let s := (s.adoptCycle r h).followTime r tail h
  let s := (s.modRing r (fun x => { x with retCyc := h.cycle })).followMseq r f ds
  if !s.duplexRing r || !s.isPartner h.hbSerial then s
  else
    let s := (s.learnPartner h.hbSerial).dxBeat false h.cycle
    let s := if h.kdValid then s.decided h.kdId (b2n h.kdRepeat) (h.kdCode == 1) else s
    if h.src = (s.unitRole == 0) then s.turnFrame r tail f h ds
    else s.modDx (fun d => { d with copies := SMap.put (fun _ => []) d.copies r f })

/-- The tuple of R61 as one number: ROLE, UNIT_ID, serial. -/
def foreignRank (role unit serial : Nat) : Nat := role * 2 ^ 72 + unit * 2 ^ 64 + serial

/-- The port gives the ring up to the unit of a foreign header (R61, R399). -/
def State.foreignLost (s : State) (r : Nat) (data : List Nat) : State :=
  let s := (s.raise (R.RING_STAT_FOREIGN r)).report (ringSrc r 1 0) clsWarn 0 data
  if s.duplexRing r && s.dxSt == dxActive then
    let s := forEach s.duplexRings (fun q s => if s.sending q then s.listen q else s) s
    let s := s.modDx (fun d => { d with parts := [], recv := [], full := false, inRow := 0 })
    forEach s.duplexRings (fun q s => s.set (R.TD_CFG_SRC (s.fa (R.RING_CTRL_TDOM q))) 2) (s.dxTo dxSync)
  else s.listen r

/-- A foreign header while the port sends (R61, R399). -/
def State.foreignHeader (s : State) (r : Nat) (h : Hdr) : State :=
  let s := s.count (R.RING_FOREIGN_CNT r)
  if foreignRank s.unitRole s.unitId s.serial ≤ foreignRank (h.hbFlags % 2) h.hbUnit h.hbSerial then s
  else s.foreignLost r [h.hbSerial % 2 ^ 32, h.hbSerial / 2 ^ 32]

/-! ## Discovery (R62) -/

/-- One discovery result of a port side. -/
def State.discoverIn (s : State) (r : Nat) (f : List Byte) (h : Hdr) (ds : List Dg) : State :=
  match ds.find? (fun d => d.dtype == 5) with
  | none => s
  | some d =>
    let slots := (List.range (min d.hits 64)).map (fun i => slice f (d.up + 16 * i) 16)
    if (slots.any (fun b => bit (leAt b 14 1) 0) || s.slowLink r) && s.autoSpeed r && s.f (R.RING_STAT_SPEED r) < 2 then
      (s.stepDown r).modRing r Ring.fresh
    else
      let s := s.modRing r (fun x =>
        if h.src then { x with discTail := slots, discSameT := if x.discTail = slots then x.discSameT + 1 else 1 }
        else { x with discHead := slots, discLoop := h.looped,
                      discSame := if x.discHead = slots && x.discLoop == h.looped then x.discSame + 1 else 1 })
      let x := s.ring r
      let head := s.on (R.RING_PORT_STAT_HEAD_LINK r)
      let needTail := (x.discLoop || !head) && s.on (R.RING_PORT_STAT_TAIL_LINK r)
      if (!head || 3 ≤ x.discSame) && (!needTail || 3 ≤ x.discSameT) then
        (s.modRing r (fun x => { x with swStep := 0, swVals := [], swRej := 0, swDelays := [] })).rpTo r rpSweep
      else s

/-! ## The sweep (R64, R65) -/

/-- L, R_F and R_R of the slot at position `p` of a DELAY datagram. -/
def delayL (f : List Byte) (d : Dg) (p : Nat) : Int :=
  let o := d.up + 16 * (p - 1)
  i32 ((leAt f (o + 4) 4 : Int) - leAt f o 4)
def delayRes (f : List Byte) (d : Dg) (p : Nat) : Int :=
  let o := d.up + 16 * (p - 1)
  (leAt f (o + 8) 4 : Int) + leAt f (o + 12) 4

/-- 16 values of 2 × d are accepted when the d lie within 4 ns; the mean of d in 1/16 ns, toward zero (R64). -/
def delayMean (vs : List Int) : Option Nat :=
  let hi := vs.foldl max (vs.headD 0)
  let lo := vs.foldl min (vs.headD 0)
  if hi - lo ≤ 128 then some (uw 32 ((vs.foldl (· + ·) 0).tdiv 32)) else none

/-- A request by position in CONFIG. -/
def posReq (tail : Bool) (p mop obj : Nat) (data : List Byte) (use : Nat) : MReq :=
  { addr := 0x7F + p + 256 * b2n tail, mop := mop, obj := obj, data := data, use := use }

/-- The mailbox sequences by the addresses that discovery gives: each node, known by its serial, keeps its own (R45). -/
def State.mseqsMoved (s : State) (r : Nat) : List (Nat × MSeq) :=
  let x := s.ring r
  let slots := x.discHead ++ x.discTail
  (List.range slots.length).foldl (fun m i =>
    let sn := leAt (slots.getD i []) 0 8
    match firstIdx 64 (fun j => s.reg (R.RING_NT_SERIAL_LO_W r j) + 2 ^ 32 * s.reg (R.RING_NT_SERIAL_HI_W r j) == sn) with
    | some j => SMap.put (fun _ => {}) m (i + 1) (SMap.get (fun _ => {}) x.mseqs (j + 1))
    | none => m) []

/-- CONFIG (R62): addresses follow positions, head segment first; the node table is filled, and ADDR and LINKDLY go out. -/
def State.configNodes (s : State) (r : Nat) : State :=
  let x := s.ring r
  let plan := s.sweepPlan r
  let nh := x.discHead.length
  let nt := if x.discLoop || !s.on (R.RING_PORT_STAT_HEAD_LINK r) then x.discTail.length else 0
  let s := s.modRing r (fun x => { x with mseqs := s.mseqsMoved r })
  let s := forN 64 (fun i s => forN 8 (fun j s => s.setReg (R.RING_NT_SERIAL_LO_W r i + 4 * j) 0) s) s
  let one (tail : Bool) (p : Nat) (slot : List Byte) (s : State) : State :=
    let a := if tail then nh + p else p
    if 64 < a then s
    else
      let i := a - 1
      let dIn := delayFor plan x.swDelays (tail, p)
      let dOut := delayFor plan x.swDelays (tail, p + 1)
      let s := (s.setReg (R.RING_NT_SERIAL_LO_W r i) (leAt slot 0 4)).setReg (R.RING_NT_SERIAL_HI_W r i) (leAt slot 4 4)
      let s := (s.set (R.RING_NT_IDENT_VENDOR r i) (leAt slot 8 2)).set (R.RING_NT_IDENT_PRODUCT r i) (leAt slot 10 2)
      let s := ((s.set (R.RING_NT_STATE_POS r i) p).setB (R.RING_NT_STATE_TAILSEG r i) tail).set (R.RING_NT_STATE_NAX r i) (leAt slot 12 1)
      let s := ((s.setNt r a nfPresent).setReg (R.RING_NT_DIN_W r i) dIn).setReg (R.RING_NT_DOUT_W r i) dOut
      let s := s.mailSend r (posReq tail p 2 5 (leBytes 1 a) 5)
      let s := s.mailSend r (posReq tail p 2 6 (leBytes 4 dIn ++ leBytes 4 dOut) 5)
      let s := s.mailSend r (posReq tail p 1 4 [] 3)
      forN (min (leAt slot 12 1) 4) (fun ax s => s.mailSend r (posReq tail p 1 (0x10 + ax) [] (8 + ax))) s
  let s := forN nh (fun i s => one false (i + 1) (x.discHead.getD i []) s) s
  let s := forN nt (fun i s => one true (i + 1) (x.discTail.getD i []) s) s
  let s := s.set (R.RING_TOPO_NODES r) (min 64 (nh + nt))
  let s :=
    if x.discLoop then
      ((s.raise (R.RING_STAT_BREAK r)).set (R.RING_TOPO_BREAK_U r) nh).set (R.RING_TOPO_BREAK_V r) (if nt = 0 then 0 else nh + 1)
    else s
  s.rpTo r rpConfig

/-- A step is rejected (R62). -/
def State.stepRejected (s : State) (r : Nat) : State :=
  let k := (s.ring r).swRej + 1
  if 3 ≤ k then
    ((s.raise (R.RING_STAT_SWEEPERR r)).rpTo r rpFault).report (ringSrc r 4 0) clsWarn 0 [(s.ring r).swStep]
  else s.modRing r (fun x => { x with swRej := k, swVals := [] })

/-- A DELAY frame of the step in progress comes back. -/
def State.delayIn (s : State) (r : Nat) (f : List Byte) (h : Hdr) (ds : List Dg) : State :=
  match s.sweepNow r, ds.find? (fun d => d.dtype == 6) with
  | some (tail, k), some d =>
    let x := s.ring r
    let n := x.segLen tail
    if h.src ≠ tail || leAt f d.down 1 ≠ x.loopAt (tail, k) then s
    else if h.looped && !(x.discLoop && tail) then s.rediscover r
    else if d.hits ≠ min k n then (s.count (R.RING_HITS_ERR r)).rediscover r
    else
      let l0 := i32 ((s.now16 r : Int) - x.delaySent)
      let before := if k = 1 then l0 else delayL f d (k - 1) - delayRes f d (k - 1)
      let turn : Int := if k ≤ n || (s.duplexRing r && k ≤ 64) then delayL f d k else i32 (Config.freeWord s.free).toNat
      let vs := x.swVals ++ [before - turn]
      let s := s.burn
      if vs.length < 16 then s.modRing r (fun x => { x with swVals := vs })
      else
        match delayMean vs with
        | none => s.stepRejected r
        | some m =>
          let s := s.modRing r (fun x => { x with swDelays := x.swDelays ++ [m], swStep := x.swStep + 1, swVals := [], swRej := 0 })
          if (s.sweepNow r).isNone then s.configNodes r else s
  | _, _ => s

/-! ## Healing (R77) -/

/-- ns of the ring's domain counted across wraps, in which NODE_RETRY and HEAL_WAIT run (R230). -/
def State.ringLong (s : State) (r : Nat) : Nat := s.long (s.fa (R.RING_CTRL_TDOM r))

/-- Links at the break up for HEAL_WAIT ms; a break at the partner's end has one node (R403). -/
def State.healReady (s : State) (r : Nat) : Bool :=
  let x := s.ring r
  let ok (a : Nat) (t : Option Nat) : Bool :=
    a == 0 || (match t with | some t0 => decide (s.f (R.RING_HEAL_WAIT r) * 1000000 ≤ s.ringLong r - t0) | none => false)
  let u := s.f (R.RING_TOPO_BREAK_U r)
  let v := s.f (R.RING_TOPO_BREAK_V r)
  ok u x.upU && ok v x.upV && (u != 0 && v != 0 || s.duplexRing r && (u != 0 || v != 0))

/-- HEALNOW from the next cycle on. -/
def State.healLeave (s : State) (r : Nat) : State :=
  s.modRing r (fun x => { x with heal := 3, healAt := some (u32 ((s.cyc : Int) + 1)) })

/-- A heal starts: the link u to v is measured; a break at the partner's end whose upstream side is the partner's port is
closed with the delays held (notes/assumptions/41.md). -/
def State.healStart (s : State) (r : Nat) : State :=
  if s.f (R.RING_TOPO_BREAK_U r) = 0 then s.healLeave r
  else s.modRing r (fun x => { x with heal := 1, healVals := [], loopOutTo := 0, sentDelay := [] })

/-- CTRL.HEAL := 1 (R77). -/
def State.healWrite (s : State) (r : Nat) : State :=
  if s.rpSt r ≠ rpDual || (s.ring r).heal ≠ 0 then s
  else if s.healReady r then s.healStart r
  else s.raise (R.RING_STAT_HEALERR r)

/-- Position of an address from its feeding port. -/
def State.posOf (s : State) (r a : Nat) : Nat := if a = 0 then 0 else s.f (R.RING_NT_STATE_POS r (a - 1))

/-- A DELAY frame of the heal comes back. -/
def State.healDelay (s : State) (r : Nat) (f : List Byte) (ds : List Dg) : State :=
  match ds.find? (fun d => d.dtype == 6) with
  | none => s
  | some d =>
    let u := s.f (R.RING_TOPO_BREAK_U r)
    let v := s.f (R.RING_TOPO_BREAK_V r)
    let p := s.posOf r u
    if p = 0 || 64 ≤ p then s.healFail r
    else if d.hits ≠ p + b2n (v != 0) then (s.count (R.RING_HITS_ERR r)).healFail r
    else
      let vs := (s.ring r).healVals ++ [delayL f d p - delayL f d (p + 1) - delayRes f d p]
      let s := s.modRing r (fun x => { x with sentDelay := [] })
      if vs.length < 16 then s.modRing r (fun x => { x with healVals := vs })
      else
        match delayMean vs with
        | none => s.healFail r
        | some m =>
          let s := s.modRing r (fun x => { x with heal := 2, healVals := [] })
          let s := s.setReg (R.RING_NT_DOUT_W r (u - 1)) m
          let wr (a : Nat) (s : State) : State :=
            s.mailSend r { addr := a, mop := 2, obj := 6,
                           data := leBytes 4 (s.reg (R.RING_NT_DIN_W r (a - 1))) ++ leBytes 4 (s.reg (R.RING_NT_DOUT_W r (a - 1))), use := 7 }
          let s := wr u s
          if v = 0 then s else wr v (s.setReg (R.RING_NT_DIN_W r (v - 1)) m)

/-- The writes of LINKDLY are answered: the break nodes may leave loopback. -/
def State.healWritten (s : State) (r mres : Nat) : State :=
  if (s.ring r).heal ≠ 2 then s
  else if mres ≠ 0 then s.healFail r
  else
    let x := s.ring r
    if x.mbox.any (fun q => q.use == 7) || x.mseqs.any (fun m => match m.2.busy with | some q => q.use == 7 | none => false) then s
    else s.healLeave r

/-- The latest AXIS uplink of a break node, from a cycle after H, shows it looped at neither port. -/
def Ring.unlooped (x : Ring) (a : Nat) : Bool :=
  a == 0 ||
    (let u := SMap.get (fun _ => (0, 0, 0)) x.nstat a
     !bit u.1 3 && !bit u.1 4 && (match x.healAt with | some h => decide (1 ≤ dt u.2.2 h) | none => false))

/-- The heal is complete when both break nodes have left loopback (R77). -/
def State.healCheck (s : State) (r : Nat) : State :=
  let x := s.ring r
  if x.heal = 3 && x.unlooped (s.f (R.RING_TOPO_BREAK_U r)) && x.unlooped (s.f (R.RING_TOPO_BREAK_V r)) then
    let s := (s.clr (R.RING_STAT_BREAK r)).clr (R.RING_TOPO_BREAK_U r)
    let s := (s.clr (R.RING_TOPO_BREAK_V r)).rpTo r rpRun
    s.modRing r (fun x => { x with heal := 0, healAt := none, loopOutTo := 0, upU := none, upV := none, sentDelay := [] })
  else s

/-- A node still looped at H + 8: HEALERR, and LOOP_OUT to u (R77). Its report may come with the same stamp and wins (R229): `wait`. -/
def State.healTimeout (s : State) (r : Nat) (wait : Bool) : State :=
  if (s.ring r).heal ≠ 3 || wait then s
  else (s.healFail r).modRing r (fun x => { x with loopOutTo := s.f (R.RING_TOPO_BREAK_U r) })

/-! ## Mailbox responses (R45, R68, R74) -/

/-- The node has answered its LINKDLY after a grant: PRESENT, or REJOINED at a reserved address; its objects are read. Its axes
stay disabled until they are enabled (R68), and their first valid activation is a gap (R103). -/
def State.nodeJoined (s : State) (r a : Nat) : State :=
  let again := s.ntState r a == nfReserved
  let s := s.setNt r a (if again then nfRejoined else nfPresent)
  let s := forEach (s.nodeAxes r a) (fun n s => s.modAx n (fun x => { x with barred := true, lastN := none })) s
  let s := s.modRing r (fun x => { x with grants := x.grants.filter (fun g => g.addr != a) })
  let ask (obj use : Nat) (s : State) : State := s.mailSend r { addr := a, mop := 1, obj := obj, data := [], use := use }
  let s := ask 4 3 (ask 2 2 (ask 1 1 s))
  forN (min (s.f (R.RING_NT_STATE_NAX r (a - 1))) 4) (fun i s => ask (0x10 + i) (8 + i) s) s

/-- IDENT is read: a rejoined node's is checked against the table, another's recorded (R68, R74). -/
def State.identRead (s : State) (r a : Nat) (d : List Byte) : State :=
  let i := a - 1
  if s.ntState r a = nfRejoined then
    let same := leAt d 0 2 == s.f (R.RING_NT_IDENT_VENDOR r i) && leAt d 2 2 == s.f (R.RING_NT_IDENT_PRODUCT r i) &&
      leAt d 8 4 == s.reg (R.RING_NT_SERIAL_LO_W r i) && leAt d 12 4 == s.reg (R.RING_NT_SERIAL_HI_W r i)
    s.modRing r (fun x => { x with identBad := if same then x.identBad.filter (· != a) else a :: x.identBad.filter (· != a) })
  else
    let s := (s.set (R.RING_NT_IDENT_VENDOR r i) (leAt d 0 2)).set (R.RING_NT_IDENT_PRODUCT r i) (leAt d 2 2)
    (s.setReg (R.RING_NT_SERIAL_LO_W r i) (leAt d 8 4)).setReg (R.RING_NT_SERIAL_HI_W r i) (leAt d 12 4)

/-- PHASH is read: recorded, or checked at a rejoin (R74). -/
def State.phashRead (s : State) (r a v : Nat) : State :=
  let i := a - 1
  if s.ntState r a = nfRejoined then
    if v = s.reg (R.RING_NT_PHASH_W r i) && !(s.ring r).identBad.contains a then s.clr (R.RING_NT_STATE_HASH_MISMATCH r i)
    else (s.raise (R.RING_NT_STATE_HASH_MISMATCH r i)).report (ringSrc r 3 i) clsWarn 0 [a, v]
  else s.setReg (R.RING_NT_PHASH_W r i) v

/-- AXCAP of axis `i` of a node is read: the port keeps it, and the slot bound to the axis, now or at a later boundary, learns
the splits, the position width and the full-scale current (R104). -/
def State.axcapRead (s : State) (r a i : Nat) (d : List Byte) : State :=
  let s := s.modRing r (fun x => { x with caps := x.caps.filter (fun c => c.1 != 4 * a + i) ++ [(4 * a + i, d)] })
  match (s.activeBank r).find? (fun e => e.dtype == 1 && e.node == a) with
  | none => s
  | some e => if e.axbase + i < 256 && s.axKind (e.axbase + i) != 3 then s.capTo r a i (e.axbase + i) else s

/-- A request is answered: result `mres`, data `d`. -/
def State.answered (s : State) (r : Nat) (q : MReq) (mres : Nat) (d : List Byte) : State :=
  let a := (s.ring r).reqAddr q.addr
  if 64 ≤ q.use && q.use < 128 then s.knotResponse (q.use - 64) r a false mres
  else if 128 ≤ q.use then s.knotResponse (q.use - 128) r a true mres
  else if q.use = 7 then s.healWritten r mres
  else if q.use = 4 then s.nodeJoined r a
  else if mres ≠ 0 || a = 0 || 64 < a then s
  else
    match q.use with
    | 1 => s.identRead r a d
    | 2 => s.set (R.RING_NT_STATE_NAX r (a - 1)) (leAt d 0 1)
    | 3 => s.phashRead r a (leAt d 0 4)
    | 6 => (s.setReg (R.RING_NT_PHASH_W r (a - 1)) (leAt d 0 4)).clr (R.RING_NT_STATE_HASH_MISMATCH r (a - 1))
    | u => if 8 ≤ u && u < 12 then s.axcapRead r a (u - 8) d else s

/-- A PARAM uplink with the awaited MSEQ; MRES = 0xFF is no response (R45, R511). -/
def State.paramIn (s : State) (r key : Nat) (b : List Byte) : State :=
  let x := s.ring r
  let m := x.mseq key
  match m.busy with
  | none => s
  | some q =>
    if leAt b 0 1 ≠ m.mseq || leAt b 1 1 = 0xFF then s
    else (s.setRing r (x.setMseq key { m with busy := none })).answered r q (leAt b 1 1) ((b.drop 8).take (min 24 (leAt b 4 1)))

/-! ## Claims and grants (R67, R74) -/

/-- A claim returned in cycle `n` (R67): the address held for its serial, or the first FREE one. -/
def State.claimIn (s : State) (r n : Nat) (b : List Byte) : State :=
  let sn := leAt b 0 8
  if sn = 0 || ((s.ring r).grantIn n).isSome then s
  else
    let s := s.count (R.RING_CLAIM_CNT r)
    let held := firstIdx 64 (fun i =>
      s.ntState r (i + 1) == nfReserved && s.reg (R.RING_NT_SERIAL_LO_W r i) + 2 ^ 32 * s.reg (R.RING_NT_SERIAL_HI_W r i) == sn)
    let a := match held with | some i => some (i + 1) | none => s.freeAddr r
    match a with
    | none => s
    | some a =>
      s.modRing r (fun x => { x with
        grants := x.grants.filter (fun g => g.addr != a) ++ [⟨n, a, sn, leAt b 8 2, leAt b 10 2, leAt b 12 1⟩],
        retryAt := x.retryAt.filter (fun y => y.1 != a) })

/-- The granted address is valid: the table entry of a new node is filled, its sequence starts afresh and LINKDLY goes out
before the node is recorded (R68, R510). -/
def State.grantValid (s : State) (r : Nat) (g : Grant) : State :=
  let i := g.addr - 1
  let s :=
    if s.ntState r g.addr = nfReserved then s
    else
      let s := (s.setReg (R.RING_NT_SERIAL_LO_W r i) (g.serial % 2 ^ 32)).setReg (R.RING_NT_SERIAL_HI_W r i) (g.serial / 2 ^ 32)
      ((s.set (R.RING_NT_IDENT_VENDOR r i) g.vendor).set (R.RING_NT_IDENT_PRODUCT r i) g.product).set (R.RING_NT_STATE_NAX r i) g.nax
  let s := s.freshMseq r g.addr
  let s := s.modRing r (fun x => { x with drop := x.drop.filter (· != g.addr), mbox := x.dropReqs g.addr,
                                          missRun := SMap.put (fun _ => 0) x.missRun g.addr 0 })
  s.mailSend r { addr := g.addr, mop := 2, obj := 6,
                 data := leBytes 4 (s.reg (R.RING_NT_DIN_W r i)) ++ leBytes 4 (s.reg (R.RING_NT_DOUT_W r i)), use := 4 }

/-- An entry becomes FREE (R74). -/
def State.freeEntry (s : State) (r a : Nat) : State :=
  let s := ((s.setNt r a nfFree).clr (R.RING_NT_STATE_HASH_MISMATCH r (a - 1))).clr (R.RING_NT_RETRY_RETRY_LEFT r (a - 1))
  s.modRing r (fun x => { x with drop := x.drop.filter (· != a), retryAt := x.retryAt.filter (fun y => y.1 != a) })

/-- A grant whose LINKDLY stays unanswered for 64 cycles is given up (notes/assumptions/42.md). -/
def State.grantLapse (s : State) (r : Nat) (g : Grant) : State :=
  let s := s.modRing r (fun x => { x with grants := x.grants.filter (· != g), mbox := x.dropReqs g.addr })
  (s.freshMseq r g.addr).freeEntry r g.addr

/-! ## Cyclic frames (R54) -/

/-- The words of axis `i` of an AXIS uplink. -/
def axisSample (b : List Byte) (i : Nat) : AxisSample :=
  let o := 4 + 16 * i
  let h (k : Nat) : BitVec 16 := BitVec.ofNat 16 (leAt b (o + k) 2)
  ⟨h 0, h 2, h 4, h 6, toW (leAt b (o + 8) 4), h 12, h 14⟩

/-- Time since when a link report holds. -/
def upSince (clk : Nat) (up : Bool) (t : Option Nat) : Option Nat := if up then some (t.getD clk) else none

/-- The break bits of a node's NSTAT (R76, R77). -/
def State.breakIn (s : State) (r a nstat : Nat) (tail : Bool) : State :=
  if s.rpSt r ≠ rpDual then s
  else
    let s := if bit nstat 4 && !tail && (s.ring r).heal = 0 then s.set (R.RING_TOPO_BREAK_U r) a else s
    let s := if bit nstat 3 && tail && (s.ring r).heal = 0 then s.set (R.RING_TOPO_BREAK_V r) a else s
    let s := if a = s.f (R.RING_TOPO_BREAK_U r) then s.modRing r (fun x => { x with upU := upSince (s.ringLong r) (bit nstat 6) x.upU }) else s
    let s := if a = s.f (R.RING_TOPO_BREAK_V r) then s.modRing r (fun x => { x with upV := upSince (s.ringLong r) (bit nstat 5) x.upV }) else s
    s.healCheck r

/-- An AXIS uplink of cycle `n` (R43, R194). -/
def State.axisIn (s : State) (r n a : Nat) (tail : Bool) (b : List Byte) : State :=
  let nstat := leAt b 0 2
  let nknot := leAt b 2 1
  let s := s.modRing r (fun x => { x with nstat := SMap.put (fun _ => (0, 0, 0)) x.nstat a (nstat, nknot, n) })
  let s := if 1 ≤ a && a ≤ 64 then s.setB (R.RING_NT_STATE_TAILSEG r (a - 1)) tail else s
  let s := s.knotUplink r a n nstat
  let s :=
    match (s.activeBank r).find? (fun e => e.dtype == 1 && e.node == a) with
    | none => s
    | some e =>
      forN e.nax (fun i s =>
        let ax := e.axbase + i
        if ax < 256 && s.boundNode ax == some (r, a) then
          s.modAx ax (fun x => { x with pending := some { cyc := n, nstat := nstat, nknot := nknot, nerr := leAt b 3 1, s := axisSample b i } })
        else s) s
  s.breakIn r a nstat tail

/-- Expected HITS (R42); a BIGHT may have a claim or none, and a mailbox carrier with nothing to carry names no node. -/
def hitsOk (d : Dg) : Bool :=
  match d.dtype with
  | 1 | 3 | 7 => d.hits == 1
  | 2 => d.hits == 1 || d.node == 0
  | 4 => d.hits ≤ 1
  | _ => true

/-- The AXIS answer of a node: which side it came from, and whether the frame was turned (R76). -/
def State.axisFrom (s : State) (r a : Nat) (h : Hdr) : State :=
  s.modRing r (fun x =>
    if h.src = s.ownTail r then { x with sideLead := some h.cycle, turned := if h.looped then a :: x.turned else x.turned }
    else { x with sideRear := some h.cycle })

/-- One datagram of a returned frame: counted, or used once (R54). Two datagrams of a cycle are the same when type and NODE agree
(notes/assumptions/2025.md). -/
def State.dgramIn (s : State) (r : Nat) (f : List Byte) (h : Hdr) (d : Dg) : State :=
  if !hitsOk d then s.count (R.RING_HITS_ERR r)
  else
    let key := d.dtype * 256 + d.node + (if 128 ≤ d.node && d.node < 0xC0 && h.src then 65536 else 0)
    let x := s.ring r
    if x.retSeen.contains key then s
    else
      let s := s.setRing r { x with retSeen := x.retSeen ++ [key] }
      let b := slice f d.up d.ulen
      match d.dtype with
      | 1 => (s.axisFrom r d.node h).axisIn r h.cycle d.node h.src b
      | 2 => s.paramIn r (if 128 ≤ d.node && h.src && ((s.ring r).mseq (d.node + 256)).busy.isSome then d.node + 256 else d.node) b
      | 3 => s.containerUp r d.node h.cycle b
      | 4 => if d.hits = 1 then s.claimIn r h.cycle b else s
      | 7 => s.peerUpIn h.cycle b
      | _ => s

/-- RETURN_LIMIT in ns; 0 stands for TCYC. -/
def State.returnLimit (s : State) (r : Nat) : Nat :=
  let v := s.fa (R.RING_RETURN_LIMIT r)
  if v = 0 then s.tcyc else v

/-- A frame counts as the cycle's whole return: not LOOPED, or turned by the end node of a ring taken over (R394, R400). -/
def State.wholeReturn (s : State) (r : Nat) (h : Hdr) : Bool :=
  !h.looped || (s.duplexRing r && s.rpSt r == rpRun && (s.f (R.RING_TOPO_BREAK_U r) != 0 || s.f (R.RING_TOPO_BREAK_V r) != 0))

/-- A cyclic frame of this unit comes back. -/
def State.cyclicIn (s : State) (r : Nat) (f : List Byte) (h : Hdr) (ds : List Dg) : State :=
  let x := s.ring r
  let late := s.rpSt r == rpRun && decide ((s.returnLimit r : Int) < dt (s.now (s.fa (R.RING_CTRL_TDOM r))) (s.ringCstart r h.cycle))
  let s := if late then s.count (R.RING_LATE_RET r) else s
  if decide (dt h.cycle x.retCyc < 0) then s
  else
    let s := if h.cycle = x.retCyc then s else s.modRing r (fun x => { x with retCyc := h.cycle, retSeen := [], retFrames := 0, turned := [] })
    let flags := 2 ^ ((if h.src = s.ownTail r then 16 else 32) + h.fidx) + (if s.wholeReturn r h then 2 ^ h.fidx else 0)
    let s := s.modRing r (fun x => { x with retFrames := x.retFrames ||| flags })
    ds.foldl (fun s d => s.dgramIn r f h d) s

/-- A frame of this unit comes back to one of its ports. Copies in reverse travel that reach the head port are discarded
(R77); on a duplex ring the return in that direction is the cycle's own (R394). -/
def State.ownFrame (s : State) (r : Nat) (tail : Bool) (f : List Byte) (h : Hdr) (ds : List Dg) : State :=
  let st := s.rpSt r
  if h.src && !tail && !s.duplexRing r then s
  else if h.ftype = 1 then (if st = rpDiscover then s.discoverIn r f h ds else s)
  else if h.ftype = 2 then
    if st = rpSweep then s.delayIn r f h ds else if (s.ring r).heal = 1 then s.healDelay r f ds else s
  else if h.ftype = 0 && (st = rpConfig || st = rpRun || st = rpDual) then s.cyclicIn r f h ds
  else s

/-- A frame arrives at a ring port (R54, R60, R61). -/
def State.ringReceive (s : State) (r : Nat) (tail : Bool) (f : List Byte) : State :=
  let st := s.rpSt r
  if !s.islOn (ringIsl r) || st = rpIdle then s
  else if !fcsGood f then s.count (R.RING_FCS_ERR r)
  else if !isFinil f (s.f (R.RING_OUI r)) (s.f (R.RING_PROTO r)) then s.count (R.RING_NONFINIL r)
  else
    let dg := datagrams f
    let h := Hdr.parse f
    let s := if dg.2 then s.count (R.RING_LEN_ERR r) else s
    if h.hbSerial = s.serial then s.ownFrame r tail f h dg.1
    else if s.sending r then s.foreignHeader r h
    else if st = rpListen then s.listenFrame r tail h
    else if st = rpFollow then s.followFrame r tail f h dg.1
    else s

/-! ## Breaks and missing nodes (R62, R73, R76) -/

/-- Nodes that have answered in frames of cycle `n` turned at the break: those up to the last before it. -/
def Ring.answeredIn (x : Ring) (n : Nat) : List Nat := if x.retCyc = n then x.turned else []

/-- The node at position `p` of ring `r` that takes part, 0 for none. -/
def State.nodeAt (s : State) (r p : Nat) : Nat :=
  match firstIdx 64 (fun i => s.ntState r (i + 1) != nfFree && s.posOf r (i + 1) == p) with
  | some i => i + 1
  | none => 0

/-- A ring that runs is broken (R62, R76): DUALFEED, and the break lies after the last node that answered in a turned frame;
with none, it is told by the nodes' own reports of the cycles that follow. -/
def State.ringBreak (s : State) (r : Nat) : State :=
  let x := s.ring r
  let n := s.cyc
  let s := ((s.raise (R.RING_STAT_BREAK r)).rpTo r rpDual).report (ringSrc r 0 0) clsFault 0 [n]
  let u := (x.answeredIn n).foldl (fun m a => if s.posOf r m < s.posOf r a then a else m) 0
  if u = 0 then s
  else
    let v := if s.f (R.RING_TOPO_BREAK_U r) = u && s.f (R.RING_TOPO_BREAK_V r) ≠ 0 then s.f (R.RING_TOPO_BREAK_V r)
      else s.nodeAt r (s.posOf r u + 1)
    let s := (s.set (R.RING_TOPO_BREAK_U r) u).set (R.RING_TOPO_BREAK_V r) v
    let looped := bit (SMap.get (fun _ => (0, 0, 0)) x.nstat u).1 4
    if looped then s else s.modRing r (fun x => { x with loopOutTo := u })

/-- A broken ring where nothing answers from the leading side, as when a node fails in silence with its links up (R76): LOOP_OUT
goes to the node before the downstream break node, and, as long as none answers, to the one before that, every second cycle
(notes/assumptions/2026.md). -/
def State.aimLoopOut (s : State) (r n : Nat) : State :=
  let x := s.ring r
  let fresh := match x.loopTry with | some c => decide (dt n c < 2) | none => false
  if s.rpSt r ≠ rpDual || x.heal ≠ 0 || x.sideLead = some (u32 ((n : Int) - 1)) || s.f (R.RING_TOPO_BREAK_U r) ≠ 0 || fresh then s
  else
    let v := s.f (R.RING_TOPO_BREAK_V r)
    let before := if x.loopTry.isSome then s.posOf r x.loopOutTo else if v = 0 then s.f (R.RING_TOPO_NODES r) + 1 else s.posOf r v
    let a := s.nodeAt r (before - 1)
    if before ≤ 1 || a = 0 then s else s.modRing r (fun x => { x with loopOutTo := a, loopTry := some n })

/-- A good frame that `p` accepts is about to reach ring `r`. -/
def isRingFrame (r : Nat) (p : List Byte → Bool) (i : Instr) : Bool :=
  match i with
  | .ringFrameReceive r' _ f => r'.val == r && fcsGood f && p f
  | _ => false

/-- The last frame of cycle `n` of unit `serial`. -/
def isLastFrame (serial n flast : Nat) (f : List Byte) : Bool :=
  let h := Hdr.parse f
  h.hbSerial == serial && h.cycle == n && h.ftype == 0 && h.fidx == flast && !h.looped

/-- RETURN_LIMIT passes without the last frame of the cycle (R62, R76); a frame that arrives with the same stamp wins (R229). -/
def State.returnLimitExpiry (s : State) (r : Nat) : State :=
  let x := s.ring r
  let flast := flastOf (s.activeBank r)
  if s.rpSt r ≠ rpRun || !s.islOn (ringIsl r) || (x.retCyc = s.cyc && bit x.retFrames flast) ||
      s.arrives (isRingFrame r (isLastFrame s.serial s.cyc flast)) then s
  else s.ringBreak r

/-- A node is declared missing (R73): DROP, RESERVED for NODE_RETRY, a record, its axes and its knots. -/
def State.nodeGone (s : State) (r a : Nat) : State :=
  let s := s.setNt r a nfReserved
  let s := s.modRing r (fun x => { x with
    drop := a :: x.drop.filter (· != a), mbox := x.dropReqs a,
    retryAt := SMap.put (fun _ => 0) x.retryAt a (s.ringLong r + s.f (R.RING_NODE_RETRY r) * 1000000) })
  let s := if (s.ring r).heal ≠ 0 && (s.f (R.RING_TOPO_BREAK_U r) = a || s.f (R.RING_TOPO_BREAK_V r) = a) then s.healFail r else s
  let s := (s.freshMseq r a).report (ringSrc r 2 (a - 1)) clsFault 0 [a, s.cyc]
  let s := s.knotNodeMissing r a
  forEach (s.nodeAxes r a) (fun n s => s.nodeMissEvent n) s

/-- The table entry of a node that takes part: PRESENT or REJOINED. -/
def State.nodeHere (s : State) (r a : Nat) : Bool := s.ntState r a == nfPresent || s.ntState r a == nfRejoined

/-- MISS_LIMIT cycles in a row without the node (R73). -/
def State.nodeMissing (s : State) (r a : Nat) : State :=
  if !s.nodeHere r a || SMap.get (fun _ => 0) (s.ring r).missRun a < s.f (R.RING_MISS_LIMIT r) then s else s.nodeGone r a

/-- A returned bight with a claim of `serial`. -/
def isClaim (serial : Nat) (f : List Byte) : Bool :=
  (datagrams f).1.any (fun d => d.dtype == 4 && d.hits == 1 && leAt f d.up 8 == serial)

/-- NODE_RETRY ends (R74): the address is FREE unless a claim of its node holds it; a claim with the same stamp wins (R229). -/
def State.nodeRetry (s : State) (r a : Nat) : State :=
  let sn := s.reg (R.RING_NT_SERIAL_LO_W r (a - 1)) + 2 ^ 32 * s.reg (R.RING_NT_SERIAL_HI_W r (a - 1))
  if s.ntState r a ≠ nfReserved || (s.ring r).grants.any (fun g => g.addr == a) || s.arrives (isRingFrame r (isClaim sn)) then s
  else s.freeEntry r a

/-- ms left of NODE_RETRY (RETRY_LEFT). -/
def State.retryLeft (s : State) (r a : Nat) : Nat :=
  match (s.ring r).retryAt.find? (fun y => y.1 == a) with
  | some (_, t) => (t - s.ringLong r + 999999) / 1000000
  | none => 0

/-! ## The boundary -/

/-- R59: the staged bank may become active. -/
def bankOk (es : List SEnt) : Bool :=
  (List.range 16).all (fun f => (List.range 128).all (fun n => areaOf es n f ≤ 1434)) &&
    es.all (fun e => e.dtype != 1 || (e.dlen == 4 + 8 * e.nax && e.ulen == 4 + 16 * e.nax))

/-- A staged SCHED.ACTIVE is taken (R59). -/
def State.takeSched (s : State) (r : Nat) : Take × State :=
  let b := s.f (R.RING_SCHED_ACTIVE r)
  if b = s.fa (R.RING_SCHED_ACTIVE r) then (.ok, s)
  else if bankOk (s.bank r b) then (.ok, (s.take (R.RING_SCHED r)).set (R.RING_SCHED_ACTIVE_NOW r) b)
  else (.value, (s.raise (R.RING_STAT_SCHEDERR r)).report (ringSrc r 6 0) clsWarn 0 [b])

/-- A staged CTRL.TDOM is taken (R57, R233). -/
def State.takeTdom (s : State) (r : Nat) : Take × State :=
  let d := s.f (R.RING_CTRL_TDOM r)
  if d = s.fa (R.RING_CTRL_TDOM r) then (.ok, s)
  else if !s.sending r || (s.deltaPhase 0 1).natAbs ≤ phaseNs then (.ok, s.setA (R.RING_CTRL_TDOM r) d)
  else (.state, (s.raise R.TB_STAT_TDOMERR).report (srcOf 6 (2 * 64)) clsWarn 0 [r])

/-- No frame of cycle `c` was lost to a heal (R77): each came back at the end that was fed with it, or, once the break nodes
leave loopback, from the leading port or the other. -/
def State.healWhole (s : State) (r c : Nat) : Bool :=
  let x := s.ring r
  let rearFed := s.f (R.RING_TOPO_BREAK_V r) != 0 && (!s.duplexRing r || s.peerUp)
  x.retCyc == c && (List.range (flastOf (s.activeBank r) + 1)).all (fun f =>
    let lead := bit x.retFrames (16 + f)
    let rear := bit x.retFrames (32 + f)
    if x.heal = 3 then lead || rear
    else (s.f (R.RING_TOPO_BREAK_U r) == 0 || lead) && (!rearFed || rear))

/-- The cycle number's boundary at a port: starts and stops (R62), missing nodes (R73), heals (R77), grants (R67), knot
fields (R69), and the time of a followed ring (R224). `n` is the cycle that starts. -/
def State.ringBoundary (s : State) (r n : Nat) : State :=
  let x := s.ring r
  let prev := u32 ((n : Int) - 1)
  let s :=
    if s.rpSt r = rpFollow && x.retCyc ≠ prev then
      forN 2 (fun d s => if s.f (R.TD_CFG_RSEL d) = r then s.ringTimeLost d else s) s
    else s
  if x.stopping then s.portIdle r
  else
    let s := if x.runAt = some n && s.rpSt r = rpConfig then (s.rpTo r rpRun).modRing r (fun x => { x with runAt := none }) else s
    let s :=
      if !s.cyclic r || x.runAt = some n then s
      else
        let came (a : Nat) : Bool := x.retCyc == prev && [1, 2, 3].any (fun t => x.retSeen.contains (t * 256 + a))
        forN 64 (fun i s =>
          let a := i + 1
          if s.ntState r a = nfPresent || s.ntState r a = nfRejoined then
            let run := if came a then 0 else min (SMap.get (fun _ => 0) (s.ring r).missRun a + 1) 255
            s.modRing r (fun x => { x with missRun := SMap.put (fun _ => 0) x.missRun a run })
          else s) s
    let s := if s.rpSt r = rpDual && (s.ring r).heal ≠ 0 && !s.healWhole r prev then s.healFail r else s
    let s := s.aimLoopOut r n
    let s := forEach x.grants (fun g s =>
      if dt n g.n = 4 then s.grantValid r g else if 68 ≤ dt n g.n then s.grantLapse r g else s) s
    s.modRing r (fun x => { x with kann := x.kann.filter (fun k => decide (1 ≤ dt k.ccyc n)),
                                   kdec := x.kdec.filter (fun k => decide (dt n k.ccyc ≤ 1)) })

/-! ## Register writes and links -/

/-- CTRL.CNTCLR. -/
def State.ringCntclr (s : State) (r : Nat) : State :=
  forN 7 (fun i s => s.setReg (R.RING_FCS_ERR_W r + 4 * i) 0) s

/-- RUN := 1 in CONFIG: cyclic frames from the next cycle start. -/
def State.ringRun (s : State) (r : Nat) : State :=
  if s.rpSt r = rpConfig then s.modRing r (fun x => { x with runAt := some (u32 ((s.cyc : Int) + 1)) }) else s

/-- REDISCOVER := 1 in a sending state or FAULT. -/
def State.ringRediscover (s : State) (r : Nat) : State :=
  if s.sending r || s.rpSt r = rpFault then s.discover r else s

/-- A write of RING[x].CTRL. -/
def State.ringCtrlW (s : State) (r v : Nat) : State :=
  let s := s.storeWrite (R.RING_CTRL r) v
  let s := if bit v 7 then s.ringCntclr r else s
  if bit v 0 then
    let s := s.portEnable r
    let s := if bit v 3 then s.ringRediscover r else s
    let s := if bit v 2 then s.healWrite r else s
    if bit v 1 then s.ringRun r else s
  else s.portDisable r

/-- A write of the ring block by DOM[0]. -/
def State.ringWrite (s : State) (a v : Nat) : State :=
  let r := (a - 0x10120000) / 0x4000
  let o := (a - 0x10120000) % 0x4000
  if o = 0 then s.ringCtrlW r v
  else if o = 0x38 then s.set (R.RING_MISS_LIMIT r) (max 9 (v % 256))
  else if 0x1000 ≤ o && o < 0x1800 then
    let i := (o - 0x1000) / 0x20
    if o % 0x20 = 0x0C && bit v 16 then
      s.mailSend r { addr := i + 1, mop := 1, obj := 4, data := [], use := 6 }
    else s
  else s.plainWrite a v

/-- A port link comes up or goes down (R35, R62, R65). -/
def State.portLink (s : State) (r : Nat) (tail up : Bool) (speed : Nat) : State :=
  let s := if tail then (s.setB (R.RING_PORT_STAT_TAIL_LINK r) up).set (R.RING_PORT_STAT_TAIL_SPEED r) speed
    else (s.setB (R.RING_PORT_STAT_HEAD_LINK r) up).set (R.RING_PORT_STAT_HEAD_SPEED r) speed
  let st := s.rpSt r
  if st = rpSweep || (st = rpDiscover && s.autoSpeed r && s.slowLink r) then s.rediscover r else s

/-! ## Event commands -/

def execPortLinkChange (r : Fin 4) (tail up : Bool) (speed : Fin 3) (s : State) : Res := .next (s.portLink r tail up speed)

/-- LISTEN_WINDOW_EXPIRY (R60, R62, R399): no valid cycle was seen; a unit in SEEK becomes ACTIVE without a partner. -/
def State.listenExpiry (s : State) (r : Nat) : State :=
  if s.rpSt r ≠ rpListen then s
  else
    let s := s.discover r
    if s.duplexRing r && s.dxSt = dxSeek then (s.clr R.DX_STAT_PARTNER).dxTo dxActive else s

def execListenWindowExpiry (r : Fin 4) (s : State) : Res := .next (s.listenExpiry r)

/-- A frame with AXIS reports that show neither break node looped. -/
def State.isUnlooped (s : State) (r : Nat) (f : List Byte) : Bool :=
  let clear (a : Nat) : Bool :=
    a == 0 || (datagrams f).1.any (fun d => d.dtype == 1 && d.node == a && d.hits == 1 && bits (leAt f d.up 2) 4 3 == 0)
  clear (s.f (R.RING_TOPO_BREAK_U r)) && clear (s.f (R.RING_TOPO_BREAK_V r))

def execHealTimeout (r : Fin 4) (s : State) : Res := .next (s.healTimeout r (s.arrives (isRingFrame r (s.isUnlooped r))))

def execReturnLimitExpiry (r : Fin 4) (s : State) : Res := .next (s.returnLimitExpiry r)

def execNodeMissing (r : Fin 4) (a : Fin 64) (s : State) : Res := .next (s.nodeMissing r (a + 1))

def execNodeRetryExpiry (r : Fin 4) (a : Fin 64) (s : State) : Res := .next (s.nodeRetry r (a + 1))

end Sys2Proof.Machine
end

