-- ==== Sys2Proof/Machine/Duplex.lean ====
section
/-! DEFINITION. The duplex block, second part (spec/16_duplex_failover.md): the mirror at both ends (R404 to R406), takeover
(R400, R401), fencing (R398), planned splices and take-back (R409, R410), the peer link (R397, R402, R407) and the block's
register writes (R404, R406, R414). -/

namespace Sys2Proof.Machine

/-! ## Installing a mirror (R405, R219) -/

/-- The class A record of an axis is installed. Its bridge counts as enabled in every mode but OFF (notes/assumptions/43.md). -/
def State.installA (s : State) (m : AxMirror) : State :=
  let n := m.axis
  let s := (s.setMode n m.mode).setReg (R.AX_STATUS n) m.status
  let s := (s.set64 (R.AX_X_ACT_LO n) (R.AX_X_ACT_HI n) m.xAct).set (R.AX_POS_PREV n) m.posPrev
  let s := (s.set64 (R.AX_X_REF_LO n) (R.AX_X_REF_HI n) m.xRef).set (R.AX_V_REF n) m.vRef
  let s := (s.set (R.AX_STATUS_FB_RUN n) m.fbRun).set64 (R.AX_S_OFS_USED_LO n) (R.AX_S_OFS_USED_HI n) m.hOfsUsed
  s.modAx n (fun x => { x with
    ran := m.mode, feAt := m.feAt, iv := m.iv, id := m.id, iq := m.iq, nb := m.nb, armed := m.mode != mOff,
    rep := { x.rep with bin := m.repBin, sum := m.repSum, n := m.repN },
    hitch := { x.hitch with on := m.hOn, blend := m.hBlend, neg := m.hNeg, sOfs := m.hOfs, xe := m.hStart, rho := m.hRho, xme := m.hMaster,
                            cfg := s.hitchCfg n } })

/-- One word of class C. RING STAT stays this unit's own, and RESID waits for the domain this unit steers (R399). -/
def State.installWord (s : State) (a v : Nat) : State :=
  if a = R.TB_TCYC_W then (s.setReg a v).setActReg a v
  else if 0x10310000 ≤ a && a < 0x10320000 then (if a % 0x40 = 0x14 && 0x10310100 ≤ a then s else s.setReg a v)
  else if 0x10120000 ≤ a && a < 0x10130000 then
    let r := (a - 0x10120000) / 0x4000
    if a = R.RING_STAT r then s
    else if a = R.RING_SCHED r then
      (s.setBoth (R.RING_SCHED_ACTIVE r) (bits v 8 8)).set (R.RING_SCHED_ACTIVE_NOW r) (bits v 8 8)
    else s.setReg a v
  else s.setReg a v

/-- KE.POOL_FREE follows the slots of mirrored knots too: the pool less what the slots from OPEN to CONFIRM reserve (R202). -/
def State.poolSync (s : State) : State :=
  let held := (List.range 64).foldl (fun n k =>
    if kOpen ≤ s.kState k && s.kState k ≤ kConfirm then n + s.f (R.K_SIZE_RSIZE k) else n) 0
  s.set R.KE_POOL_FREE (s.f R.ID_FP_KNOTPOOL - held)

/-- A mirrored slot has become FREE. -/
def State.slotGone (s : State) (k : Nat) : State :=
  (((s.setKState k kFree).kUsed k false).setKnot k {}).modDx (fun d => { d with kdec := d.kdec.filter (fun x => x.1 != k) })

/-- Class C is installed: entries of a node table that it does not list are FREE, slots it does not list too. -/
def State.installC (s : State) (ws : List (Nat × Nat)) : State :=
  let s := forEach s.duplexRings (fun r s => forN 64 (fun i s => s.setNt r (i + 1) nfFree) s) s
  let s := forN 64 (fun k s => if s.kState k ≠ kFree && !ws.any (fun w => w.1 == R.K_STAT k) then s.slotGone k else s) s
  (forEach ws (fun w s => s.installWord w.1 w.2) s).poolSync

/-- Class G, at the boundary it names. -/
def State.installG (s : State) (ws : List (Nat × Nat × Nat)) : State :=
  forEach ws (fun w s => (s.setReg w.1 w.2.1).setActReg w.1 w.2.2) s

/-- Class K: the slot's registers and entries; a decision it carries is the mirrored decision of R219. -/
def State.installK (s : State) (k : Nat) (ws : List (Nat × Nat)) (ents : List (List Nat)) (go : Option Bool) : State :=
  let s := if s.kState k = kFree then s.slotGone k else s
  let s := (forEach ws (fun w s => s.setReg w.1 w.2) s).poolSync
  let s := (s.kUsed k true).modKnot k (fun x =>
    let y : Knot := { x with ents := ents, fixed := true, order := s.ke.closes }
    if x.parts.isEmpty then { y with parts := y.nodes.map (fun p => { ring := p.1, addr := p.2 }) } else y)
  let s := { s with ke := { s.ke with closes := s.ke.closes + 1 } }
  match go with
  | none => s
  | some g => s.decided k 2 g

/-- Bytes gathered of a region. -/
def Dx.part' (d : Dx) (r : Nat) : List Byte := SMap.get (fun _ => []) d.parts r

/-- A piece of a region copy; a copy that is whole is written to memory at once (R405). -/
def State.installF (s : State) (r cyc : Nat) (data : List Byte) (last : Bool) : State :=
  let b := s.dx.part' r ++ data
  if last then
    ((s.store (s.mirAddr r) b).set (R.DX_MIR_CYC r) cyc).modDx (fun d => { d with parts := SMap.put (fun _ => []) d.parts r [] })
  else s.modDx (fun d => { d with parts := SMap.put (fun _ => []) d.parts r b })

/-- A record that waited for the boundary it names. -/
def State.installAt (s : State) (m : MirrorRec) : State :=
  match m with
  | .classG _ ws => s.installG ws
  | .classP _ n g c => s.modAx n (fun x => { x with gen := g, modeCyc := c })
  | .classK _ k ws es go => s.installK k ws es go
  | _ => s

/-- Records whose boundary is at or before cycle `n` are installed in order of arrival. -/
def State.installDue (s : State) (n : Nat) : State :=
  let due := s.dx.wait.filter (fun x => decide (dt x.1 n ≤ 0))
  let s := s.modDx (fun d => { d with wait := d.wait.filter (fun x => !decide (dt x.1 n ≤ 0)) })
  forEach due (fun x s => s.installAt x.2) s

/-- The wakes held after a planned splice go out (R409 step 5). -/
def State.releaseWakes (s : State) : State :=
  let s := s.modDx (fun d => { d with holdWake := none })
  forEach s.mirroredAxes (fun n s =>
    let t := s.f (R.AX_FB_TAG_TAG n)
    if s.on (R.TAG_CTL_FULL t) && s.on (R.TAG_CTL_OWNED t) && s.on (R.TAG_CTL_WAIT t) then s.wakeOwner t else s) s

/-- The END of cycle `n`'s mirror (R405): with a good END the cycle is installed; a full copy and 8 cycles in a row make the
unit HOT (R399). -/
def State.mirrorEnd (s : State) (n count : Nat) (good : Bool) : State :=
  let recs := s.dx.recv
  let s := s.modDx (fun d => { d with recv := [] })
  if !good || count ≠ recs.length then s.modDx (fun d => { d with inRow := 0 })
  else
    let s := forEach recs (fun m s =>
      match m with
      | .classC _ ws => s.installC ws
      | .classA a => s.installA a
      | _ => s) s
    let s := (s.set R.DX_MIRCYC n).modDx (fun d => { d with inRow := min (d.inRow + 1) 255, lateRow := 0 })
    let s := match s.dx.holdWake with | some k => if decide (0 ≤ dt n k) then s.releaseWakes else s | none => s
    if s.dxSt = dxSync && s.dx.full && 8 ≤ s.dx.inRow then s.dxTo dxStandby else s

/-- A mirror record arrives (R405). A unit that has just become active by a splice still takes the mirror it waits for. -/
def State.mirrorIn (s : State) (m : MirrorRec) : State :=
  if !(s.dxSt = dxSync || s.dxSt = dxStandby || (s.dxSt = dxActive && s.dx.holdWake.isSome)) || !s.peerUp then s
  else
    let wait (c : Nat) : State := (s.modDx (fun d => { d with wait := d.wait ++ [(c, m)] })).installDue s.cyc
    match m with
    | .classC _ _ | .classA _ => s.modDx (fun d => { d with recv := d.recv ++ [m] })
    | .classG c _ => wait c
    | .classP c _ _ _ => wait c
    | .classK c _ _ _ _ => wait c
    | .region r c b last => (s.installF r c b last).modDx (fun d => { d with recv := d.recv ++ [.region r c [] last] })
    | .endOf n k good => s.mirrorEnd n k good
    | .copyDone => s.modDx (fun d => { d with full := true })

/-- The END of cycle N has not come by CSTART(N + 2) (R406). -/
def State.mirrorLate (s : State) : State :=
  if !(s.dxSt = dxSync || s.dxSt = dxStandby) then s
  else
    let s := (s.count R.DX_MIRLATE_CNT).dxReport 3 [s.cyc]
    let s := s.modDx (fun d => { d with lateRow := min (d.lateRow + 1) 255, inRow := 0 })
    if 8 ≤ s.dx.lateRow && s.dxSt = dxStandby then
      (((s.raise R.DX_STAT_HOTLOST).dxReport 1 [s.cyc]).modDx (fun d => { d with full := false, lateRow := 0 })).dxTo dxSync
    else s

/-! ## Sending a mirror (R404, R405) -/

/-- The standard loop posts the axis's class A record after its release. -/
def State.postMirror (s : State) (n : Nat) : State :=
  if s.on R.DX_CTRL_EN && s.mirrored n then
    s.modDx (fun d => { d with posted := d.posted.filter (fun x => x.1 != n) ++ [(n, s.axMirror n)] })
  else s

/-- The mirror of the cycle before the one in progress is closed (R405). -/
def State.mirrorSend (s : State) : State :=
  if s.dxSt ≠ dxActive || !s.on R.DX_STAT_PARTNER || !s.peerUp then s
  else
    let n := u32 ((s.cyc : Int) - 1)
    let c := s.dx.snap.getD (s.classC n)
    let as := s.mirroredAxes.map (fun a =>
      MirrorRec.classA (match s.dx.posted.find? (fun x => x.1 == a) with | some x => x.2 | none => s.axMirror a))
    let fs := ((List.range 32).filter (fun r => s.mirRegion r && n % 2 ^ s.f (R.DX_MIR_ADDR_HI_DIVEXP r) == 0)).map (fun r => s.classF n r)
    let recs := [c] ++ as ++ fs
    let s := forEach fs (fun m s => match m with | .region r _ _ _ => s.set (R.DX_MIR_CYC r) n | _ => s) s
    (s.set R.DX_MIRCYC n).modDx (fun d => { d with
      sent := recs ++ [.endOf n recs.length true] ++ d.queued, queued := [], posted := [] })

/-- What the boundary of cycle `n` changed of the mirrored axes goes out as classes G and P (R404); `old` is the state before
it. The class C of the cycle that ends is held for its END. -/
def State.mirrorBoundary (s old : State) (n : Nat) : State :=
  if s.dxSt ≠ dxActive then s
  else
    let s := s.modDx (fun d => { d with snap := some (s.classC (u32 ((n : Int) - 1))), abort := false })
    forEach s.mirroredAxes (fun a s =>
      let gs := (List.range 11).filter (fun g => (groupRegs a g).any (fun x => s.reg x != old.reg x || s.actReg x != old.actReg x))
      if gs.isEmpty then s else s.mirrorQueue (s.classG n a gs)) s

/-- A changed plan of an axis goes out as class P. -/
def State.mirrorPlan (s : State) (a : Nat) : State :=
  if s.dxSt = dxActive && s.mirrored a && s.peerUp && s.dx.gen a ≠ (s.ax a).gen then
    (s.mirrorQueue (s.classP s.cyc a)).modDx (fun d => { d with gens := SMap.put (fun _ => {}) d.gens a (s.ax a).gen })
  else s

/-- A knot slot's entries or decision go out as class K (R219). -/
def State.mirrorKnot (s : State) (k : Nat) (go : Option Bool) : State := s.mirrorQueue (s.classK s.cyc k go)

/-! ## Takeover (R400, R401) -/

/-- Domains that follow a ring switch to ACTSRC, keeping their value and rate. -/
def State.actSource (s : State) : State :=
  forN 2 (fun d s => if s.f (R.TD_CFG_SRC d) = 2 then (s.ringLeave d).set (R.TD_CFG_SRC d) (s.f R.DX_CTRL_ACTSRC) else s) s

/-- The record of a kind and number among those received of the reduced set (R408). -/
def Dx.recOf (d : Dx) (kind n : Nat) : Option (List Byte) := d.got.find? (fun b => leAt b 0 1 == kind && leAt b 1 1 == n)

/-- An axis taken over from the reduced set (R401). -/
def State.reducedAxis (s : State) (n : Nat) : State :=
  let s :=
    match s.dx.recOf 1 n with
    | none => s
    | some b => (s.setMode n (leAt b 2 1)).set64 (R.AX_X_ACT_LO n) (R.AX_X_ACT_HI n) (leAt b 8 8)
  let s :=
    match s.dx.recOf 3 n with
    | none => s
    | some b =>
      let k : Kin := ⟨i64 (leAt b 8 8), toW (leAt b 16 4), toW (leAt b 20 4)⟩
      let t : Inst := ⟨leAt b 4 4, 0⟩
      let l : Lims := ⟨toW (leAt b 40 4), toW (leAt b 44 4), toW (leAt b 48 4)⟩
      let w := toW (leAt b 36 4)
      let m := leAt b 2 1
      let g := if m = mProfile then F32.val (Gen.move t k (i64 (leAt b 24 8) * 65536) w l)
        else if m = mVelocity then F32.val (Gen.change t k (F32.clamp (toW (leAt b 32 4)) (F32.neg w) w) l)
        else Gen.held t k
      s.setGen n g
  s.modAx n (fun x => { x with iv := 0, id := 0, iq := 0, nb := [(0, 0), (0, 0), (0, 0), (0, 0), (0, 0), (0, 0)], rep := {},
                               armed := s.mode n != mOff, ran := s.mode n })

/-- The state the new active unit starts from (R401): 0 the mirror, 1 the reduced set, 2 every mirrored axis in OFF. -/
def State.takeState (s : State) : Nat × State :=
  if s.dxSt = dxStandby && s.on R.DX_STAT_HOT then (0, s)
  else if s.dxSt = dxStandby then (1, forEach s.mirroredAxes (fun n s => s.reducedAxis n) s)
  else (2, forEach s.mirroredAxes (fun n s => (s.identAbort n 3).hwMode n mOff) s)

/-- One mirrored knot at a splice (R219): without a decision it is VOID; a decided one is confirmed from the uplinks. -/
def State.spliceKnot (s : State) (k : Nat) : State :=
  if s.kState k ≠ kPrepare && s.kState k ≠ kAnnounced then s
  else
    match s.dx.decision k with
    | some (_, true) => s.setKState k kConfirm
    | _ => s.knotVoid k rsnSplice

def State.spliceKnots (s : State) : State := forN 64 (fun k s => s.spliceKnot k) s

/-- What a splice ends or empties on an axis of the unit that takes over: the repetitive accumulator (R176), a sweep (R132). -/
def State.spliceAxis (s : State) (n : Nat) : State :=
  (s.identTaken n).modAx n (fun x => { x with rep := { x.rep with n := 0 }, woken := none, old := none })

/-- Last node address of a ring by position. -/
def State.endNode (s : State) (r : Nat) : Nat :=
  (List.range 64).foldl (fun m i => if s.ntState r (i + 1) != nfFree && s.posOf r m < s.posOf r (i + 1) then i + 1 else m) 0

/-- A duplex port starts to send from what it holds: RUN, with no discovery (R400); `open'` marks the end the old active unit
has left. -/
def State.portTake (s : State) (r : Nat) (open' : Bool) : State :=
  let s := (s.rpTo r rpRun).modRing r (fun x => { x with retSeen := [], retFrames := 0, turned := [], kann := [], kdec := [] })
  if !open' then s
  else if s.unitRole = 1 then
    s.set (R.RING_TOPO_BREAK_V r) ((firstIdx 64 (fun i => s.ntState r (i + 1) != nfFree && s.posOf r (i + 1) == 1)).elim 0 (· + 1))
  else s.set (R.RING_TOPO_BREAK_U r) (s.endNode r)

/-- SPLICE_CNT, SPLICE_CYC and the record of a splice; W1 tells the choice of R401. -/
def State.spliceLog (s : State) (choice : Nat) : State :=
  ((s.count R.DX_SPLICE_CNT).set R.DX_SPLICE_CYC s.cyc).dxReport 7 [s.cyc, choice]

/-- The latest cycle whose heartbeat of the partner counted on any path. -/
def Dx.beat (d : Dx) : Option Nat :=
  match d.beatRing, d.beatPeer with
  | some a, some b => some (if dt a b < 0 then b else a)
  | some a, none => some a
  | none, b => b

/-- No heartbeat of the partner counted for two cycles before the one in progress. -/
def State.partnerSilent (s : State) : Bool :=
  match s.dx.beat with
  | none => true
  | some m => decide (3 ≤ dt s.cyc m)

/-- TAKEOVER at the boundary of the cycle in progress (R400). -/
def State.takeover (s : State) : State :=
  if !(s.dxSt = dxSync || s.dxSt = dxStandby) || !s.partnerSilent then s
  else
    let (choice, s) := s.takeState
    let s := (s.dxTo dxActive).clr R.DX_STAT_PARTNER
    let s := forEach s.duplexRings (fun r s => s.portTake r true) s
    let s := forEach s.mirroredAxes (fun n s => ((s.spliceAxis n).modAx n (fun x => { x with lastN := none })).deadline n s.cyc) s
    (s.actSource.spliceKnots).spliceLog choice

/-! ## Planned splices and take-back (R409, R410) -/

/-- A planned splice may proceed (R409). -/
def State.spliceReady (s : State) : Bool :=
  s.dxSt == dxActive && s.dx.pState == dxStandby && s.dx.pHot && s.on R.DX_STAT_PARTNER && s.peerUp &&
    s.duplexRings.all (fun r => s.rpSt r == rpRun) &&
    (List.range 64).all (fun k => !(kPrepare ≤ s.kState k && s.kState k ≤ kConfirm))

/-- A take-back request may be granted (R410). -/
def State.backReady (s : State) : Bool :=
  s.dx.wantBack && s.on R.DX_CTRL_TBAUTO && s.unitRole == 1 && s.dx.holdFrom.isNone && !s.on R.DX_STAT_LOCKOUT

/-- A splice that is wanted starts when it may: K := N + 8, with SREQ. -/
def State.spliceTry (s : State) : State :=
  if (s.dx.splice.isNone && (s.dx.wantSwitch || s.backReady)) && s.spliceReady then
    s.modDx (fun d => { d with splice := some { k := u32 ((s.cyc : Int) + 8) }, wantSwitch := false, wantBack := false, fwd := [] })
  else s

/-- CSTART(K) of a planned splice: the roles are exchanged (R409 step 4). -/
def State.spliceBoundary (s : State) : State :=
  match s.dx.splice with
  | none => s
  | some p =>
    if p.k ≠ s.cyc || !p.sack then s
    else
      let s := s.modDx (fun d => { d with splice := none, pState := if p.giving then dxActive else dxStandby, inRow := 8, full := true })
      if p.giving then
        let s := (forEach s.mirroredAxes (fun n s => s.identAbort n 6) s).dxTo dxStandby
        let s := forEach s.duplexRings (fun r s => s.rpTo r rpFollow) s
        let s := forEach s.duplexRings (fun q s => s.set (R.TD_CFG_SRC (s.fa (R.RING_CTRL_TDOM q))) 2) s
        s.spliceLog 0
      else
        let s := (forEach s.mirroredAxes (fun n s => s.spliceAxis n) s).dxTo dxActive
        let s := forEach s.duplexRings (fun r s => s.portTake r false) s
        let s := s.actSource.spliceLog 0
        let k1 := u32 ((p.k : Int) - 1)
        if decide (0 ≤ dt (s.f R.DX_MIRCYC) k1) then s else s.modDx (fun d => { d with holdWake := some k1 })

/-- No SACK by CSTART(K − 2). -/
def State.spliceTimeout (s : State) : State :=
  match s.dx.splice with
  | some p => if p.giving && !p.sack && decide (dt p.k s.cyc ≤ 2) then s.spliceAbort else s
  | none => s

/-- The end break a takeover left is healed when the partner is in SYNC and its port link is up (R403). -/
def State.dxHeal (s : State) : State :=
  if s.dxSt ≠ dxActive || !s.on R.DX_STAT_PARTNER || s.dx.pState < dxSync then s
  else forEach s.duplexRings (fun r s =>
    if s.rpSt r = rpRun && (s.ring r).heal = 0 && (s.f (R.RING_TOPO_BREAK_U r) != 0 || s.f (R.RING_TOPO_BREAK_V r) != 0) then
      (s.rpTo r rpDual).healStart r
    else s) s

/-- The duplex block's own part of a boundary. -/
def State.dxBoundary (s : State) (n : Nat) : State :=
  if s.dxSt = dxOff then s
  else (((s.installDue n).spliceBoundary).spliceTry).dxHeal

/-! ## Fencing, enable, rejoin (R398, R399) -/

/-- The unit fences itself (R398). -/
def State.dxFence (s : State) : State :=
  if s.dxSt = dxOff || s.dxSt = dxFenced then s
  else
    let rings := s.duplexRings
    let s := forEach rings (fun r s => ((s.portIdle r).clr (R.RING_PORT_STAT_HEAD_LINK r)).clr (R.RING_PORT_STAT_TAIL_LINK r)) s
    let s := ((s.clr R.DX_STAT_LANE0_UP).clr R.DX_STAT_LANE1_UP).clr R.DX_STAT_PARTNER
    let s := s.modDx (fun d => { d with splice := none, wantSwitch := false, wantBack := false, queued := [], posted := [] })
    (s.dxReport 6 [s.cyc]).dxTo dxFenced

/-- SEEK: the duplex rings' ports listen (R399, R60). -/
def State.dxSeekStart (s : State) : State :=
  let s := s.dxTo dxSeek
  let s := s.modDx (fun d => { kickAt := s.glong, ins := d.ins, rseq := d.rseq })
  let s := s.clr R.DX_STAT_PARTNER
  forEach s.duplexRings (fun r s => (if s.rpSt r = rpIdle then s.portEnable r else s.listen r).raise (R.RING_CTRL_EN r)) s

/-- CTRL.EN := 1 in OFF. -/
def State.dxEnable (s : State) : State := if s.dxSt = dxOff then s.dxSeekStart else s

/-- CTRL.EN := 0 (R399). -/
def State.dxDisable (s : State) : State :=
  if s.dxSt = dxOff then s
  else
    let s := forEach s.duplexRings (fun r s => s.portDisable r) s
    let s := s.modDx (fun d => { ins := d.ins, rseq := d.rseq })
    ((s.clr R.DX_STAT_PARTNER).clr R.DX_STAT_PEER_LINK_DOWN).dxTo dxOff

def State.dxRejoin (s : State) : State := if s.dxSt = dxFenced then s.dxSeekStart else s

/-- TBCLR (R410). -/
def State.tbClear (s : State) : State := s.clr R.DX_STAT_LOCKOUT

/-- CTRL.SWITCH (R409). -/
def State.dxSwitch (s : State) : State :=
  if s.dxSt = dxActive then (s.modDx (fun d => { d with wantSwitch := true })).spliceTry else s

def State.liveKick (s : State) : State := s.modDx (fun d => { d with kickAt := s.glong })

/-! ## The peer link (R397, R407) -/

/-- The partner is lost (R397, R399). -/
def State.partnerLost (s : State) : State :=
  if s.dxSt = dxOff || s.dxSt = dxFenced || !s.on R.DX_STAT_PARTNER || !s.partnerSilent then s
  else
    let s := s.clr R.DX_STAT_PARTNER
    if s.dxSt = dxActive then (s.modDx (fun d => { d with queued := [], sent := [], posted := [], pState := 0, pHot := false })).dxTo dxActive
    else s

/-- The peer link is lost (R407). -/
def State.peerLinkLost (s : State) : State :=
  if s.dxSt = dxOff || s.on R.DX_STAT_PEER_LINK_DOWN then s
  else
    let s := ((s.raise R.DX_STAT_PEER_LINK_DOWN).clr R.DX_STAT_LANE0_UP).clr R.DX_STAT_LANE1_UP
    let s := s.dxReport 5 [s.cyc]
    let s := s.modDx (fun d => { d with
      queued := [], recv := [], parts := [], inRow := 0, lateRow := 0, full := false, unacked := [],
      kst := (List.range 64).foldl (fun m k => SMap.put (fun _ => 0) m k (s.kState k)) [],
      gens := s.mirroredAxes.foldl (fun m n => SMap.put (fun _ => {}) m n (s.ax n).gen) [] })
    if s.dxSt = dxStandby then s.clr R.DX_STAT_HOT else s

/-- The peer link returns (R407): a standby takes a full copy again; this is no insertion. -/
def State.peerLinkReturn (s : State) : State :=
  if s.dxSt = dxOff || !s.on R.DX_STAT_PEER_LINK_DOWN then s
  else
    let s := s.clr R.DX_STAT_PEER_LINK_DOWN
    if s.dxSt = dxStandby then (s.modDx (fun d => { d with got := [], part := [], full := false, inRow := 0 })).dxTo dxSync
    else if s.dxSt = dxActive && s.on R.DX_STAT_PARTNER then s.modDx (fun d => { d with unacked := [], queued := s.fullCopy })
    else s

/-- A payload forwarded for cycle K (R409 step 3): an accepted release if it is in time. -/
def State.forwarded (s : State) (p : Forward) : State :=
  let t := s.axNow p.axis
  if s.inTime p.axis p.tgt t then s.acceptRelease ⟨s.f (R.AX_STRAND_FLOW p.axis), p.axis, p.tgt, t, p.xref, p.vref, p.payload, p.succ, []⟩ else s

/-- A message on a lane of the peer link. -/
def State.peerMessage (s : State) (lane : Nat) (m : PeerMsg) : State :=
  if s.dxSt = dxOff || s.dxSt = dxFenced then s
  else
    let s := s.raise (if lane = 0 then R.DX_STAT_LANE0_UP else R.DX_STAT_LANE1_UP)
    match m with
    | .heartbeat p c st hot =>
      if s.isPartner p then ((s.learnPartner p).modDx (fun d => { d with pState := st, pHot := hot })).dxBeat true c else s
    | .sreq k => s.spliceAsked k
    | .sack k => if (match s.dx.splice with | some p => p.k == k | none => false) then s.spliceAcked else s
    | .sabort => s.spliceAborted
    | .takeback => if s.dxSt = dxActive then (s.modDx (fun d => { d with wantBack := true })).spliceTry else s
    | .copy r f =>
      if s.dxSt = dxActive || !s.duplexRing r || !s.locked (ringIsl r) then s -- R22
      else
        let body := patch (frameBody f) 20 (leBytes 1 (putBits (leAt f 20 1) 5 5 s.unitRole))
        s.setSent r (s.ownTail r) (sealFrame body true)
    | .returned r f => if s.dxSt = dxActive && s.duplexRing r then s.ringReceive r (s.ownTail r) f else s
    | .payload p => if s.dxSt = dxStandby || s.dxSt = dxActive then s.forwarded p else s

/-! ## Register writes (R404, R406, R414) -/

/-- Bytes the copies of R402 take. -/
def State.copyBytes (s : State) : Nat :=
  (((List.range 4).filter (fun r => bit (s.f R.DX_CTRL_RINGMASK) r && s.on (R.RING_CTRL_DUPLEX r))).map (fun r =>
    let es := s.activeBank r
    ((List.range (flastOf es + 1)).map (fun f => 84 + 20 + (List.range 128).foldl (fun m n => max m (areaOf es n f)) 0)).foldl (· + ·) 0)).foldl
      (· + ·) 0

/-- The bytes of a cycle's mirror fit what the peer link carries (R406), in 1/128 bytes. With no lane up the budget of both is
taken (notes/assumptions/43.md). -/
def State.mirrorFits (s : State) : Bool :=
  let two := s.on R.DX_STAT_LANE0_UP == s.on R.DX_STAT_LANE1_UP
  let b := if two then 24 * s.tcyc / 10 else 12 * s.tcyc / 10
  let need := 1024 + 128 * s.mirroredAxes.length
  let reg := ((List.range 32).map (fun r =>
    if s.mirRegion r then s.f (R.DX_MIR_LEN_LEN r) * 128 / 2 ^ s.f (R.DX_MIR_ADDR_HI_DIVEXP r) else 0)).foldl (· + ·) 0
  128 * (need + s.copyBytes + 64) + reg ≤ 128 * b

/-- A write of AXMASK or MIR[r] takes only a set that R404 and R406 allow. -/
def State.mirrorSetWrite (s : State) (a v : Nat) : State :=
  let t := s.plainWrite a v
  let kinds := t.mirroredAxes.all (fun n => t.axKind n == kNetwork || t.axKind n == kVirtual)
  if kinds && t.mirrorFits then t else s.raise R.DX_STAT_MIRERR

/-- A write of DX.CTRL. -/
def State.dxCtrlW (s : State) (v : Nat) : State :=
  let s := s.storeWrite R.DX_CTRL v
  let s := if bit v 0 then s.dxEnable else s.dxDisable
  let s := if bit v 6 then s.tbClear else s
  let s := if bit v 5 then s.dxRejoin else s
  let s := if bit v 3 then s.dxSwitch else s
  if bit v 4 then s.dxFence else s

/-- A write of the duplex block by DOM[0]. -/
def State.dxWrite (s : State) (a v : Nat) : State :=
  if a = R.DX_CTRL then s.dxCtrlW v
  else if a = R.DX_LIVE then
    let s := s.set R.DX_LIVE_WIN (bits v 31 16)
    if bit v 0 then s.liveKick else s
  else if (0x10350020 ≤ a && a < 0x10350040) || (0x10350100 ≤ a && a < 0x10350300) then s.mirrorSetWrite a v
  else s.plainWrite a v

/-- Read views: the strap, the hold-off left and the insertions of the last 60 s. -/
def State.dxView (s : State) (a : Nat) : Option Nat :=
  if a = R.DX_STAT then some (putBits (s.reg a) 9 9 s.unitRole)
  else if a = R.DX_TB_LEFT_W then
    some (match s.dx.holdFrom with
      | some t => s.f R.DX_TB_HOLD_MS - (s.glong - t) / 1000000
      | none => 0)
  else if a = R.DX_INS then some (putBits (s.reg a) 23 16 (min 255 (recentIns s.glong s.dx.ins).length))
  else none

/-- A heartbeat that will insert the partner waits behind the command in progress. -/
def State.insertionWaits (s : State) : Bool :=
  !s.on R.DX_STAT_PARTNER && s.arrives (fun i => match i with | .peerMessageReceive _ (.heartbeat ..) => true | _ => false)

/-! ## Event commands -/

/-- HEARTBEAT_SEND (R397). -/
def execHeartbeatSend (s : State) : Res :=
  .next (if s.dxSt = dxOff || s.dxSt = dxFenced then s else s.modDx (fun d => { d with hbSent := some s.cyc }))

def execPeerMessageReceive (lane : Fin 2) (msg : PeerMsg) (s : State) : Res := .next (s.peerMessage lane msg)

def execPartnerLost (s : State) : Res := .next s.partnerLost

def execPeerLinkLost (s : State) : Res := .next s.peerLinkLost

def execPeerLinkReturn (s : State) : Res := .next s.peerLinkReturn

def execTakeover (s : State) : Res := .next s.takeover

/-- A permitted kick carries the stamp of the watchdog's expiry, and wins (R229, R398). -/
def State.kickWaits (s : State) : Bool :=
  s.arrives (fun i => match i with
    | .liveKick who => s.check who R.DX_LIVE 4 0 .write == .ok
    | .registerWrite who a _ v => a.toNat == R.DX_LIVE && bit v.toNat 0 && s.check who R.DX_LIVE 4 (v.toNat % 2 ^ 32) .write == .ok
    | _ => false)

/-- LIVE_WATCHDOG_EXPIRY (R398). -/
def execLiveWatchdogExpiry (s : State) : Res := .next (if s.kickWaits then s else s.dxFence)

def execSpliceAbort (s : State) : Res := .next s.spliceTimeout

/-- TAKEBACK_HOLDOFF_EXPIRY (R410): an insertion that waits behind it carries its stamp and restarts the hold-off (R229). -/
def execTakebackHoldoffExpiry (s : State) : Res :=
  .next (if s.insertionWaits then s else (s.modDx (fun d => { d with holdFrom := none })).spliceTry)

def execMirrorRecordReceive (m : MirrorRec) (s : State) : Res := .next (s.mirrorIn m)

def execMirrorLate (s : State) : Res := .next s.mirrorLate

def execReducedRecordResend (s : State) : Res := .next s.recResend

def execMirrorEndSend (s : State) : Res := .next s.mirrorSend

end Sys2Proof.Machine
end

