-- ==== Sys2Proof/Machine/Reset.lean ====
section
/-! DEFINITION. Resets: of one island (R443, R20), of what a power domain holds (R442), and of the device. A reset gives the
registers and the state of the units concerned their reset values; memory keeps its bytes while its domain keeps its level
(notes/assumptions/50.md). -/

namespace Sys2Proof.Machine

/-- The registers at addresses of `p` take their reset values. -/
def State.dropRegs (s : State) (p : Nat → Bool) : State :=
  { s with regs := s.regs.filter (fun c => !p c.1), act := s.act.filter (fun c => !p c.1) }

/-- Memory at addresses of `p` loses its contents. -/
def State.dropMem (s : State) (p : Nat → Bool) : State := { s with mem := s.mem.filter (fun c => !p c.1) }

/-- A register block's address lies in island `i`. -/
def inIsland (i a : Nat) : Bool :=
  match addressMap.find? (fun r => r.lo ≤ a && a ≤ r.hi) with
  | some r => !r.what.isMem && islOf r.what a == i
  | none => false

/-- An address is served by domain `d` (R10, R11). -/
def inDomain (d a : Nat) : Bool :=
  match addressMap.find? (fun r => r.lo ≤ a && a ≤ r.hi) with
  | some r => pdOf r.what a == d
  | none => false

/-- The cores of a core island. -/
def islCores (i : Nat) : List Nat := if i < 32 then [i] else if i = 32 then [32, 33, 34, 35] else []

/-- A core's island is reset (R311, R313): a placement it still runs is migrated, and what it held is lost. -/
def State.resetCore (s : State) (c : Nat) : State :=
  let s := if s.on (R.DSP_CORE_RUN_V c) then s.migrate c else s
  let s := if (s.core c).detached then s.endDetached c else s
  let s := (s.freeSlot c).clr (R.DSP_CORE_SHADOW c)
  (s.setCore c { dbgHalt := (s.core c).dbgHalt, resetDone := true }).syncHalt c

/-- The dispatcher's island is reset: every strand, tag and flow at reset; which cores are online is kept. -/
def State.resetDsp (s : State) : State :=
  let up := (List.range 36).filter (fun c => s.on (R.DSP_CORE_ONLINE c))
  let cores := s.dsp.cores.map (fun c =>
    (c.1, { c.2 with ctx := {}, detached := false, strand := 0, epoch := 0, pendq := [], stall := none, shadow := none,
                     sfHalt := false, bank := none, pfBusy := false, suspReq := 0 }))
  let s := s.dropRegs (inIsland islDSP)
  let s := { s with dsp := { debugger := s.dsp.debugger }, axes := [], ke := {} }
  let s := forEach cores (fun c s => s.setCore c.1 c.2) s
  forN 36 (fun c s => (s.setB (R.DSP_CORE_ONLINE c) (up.contains c)).syncHalt c) s

/-- Bank island `b` is reset; STAT.SAFEOFF shows Belay's output again (R330). -/
def State.resetBank (s : State) (b : Nat) : State :=
  let s := s.dropRegs (inIsland (islPB0 + b))
  let s := { s with pwr := { s.pwr with chans := s.pwr.chans.filter (fun c => c.1 / 16 != b),
                                        gangs := s.pwr.gangs.filter (fun c => c.1 / 4 != b),
                                        syncOut := s.pwr.syncOut.filter (fun c => c.1 != b) } }
  if s.safeOff b then forN 16 (fun j s => s.raise (R.PC_STAT_SAFEOFF (16 * b + j))) s else s

/-- Island `i` is reset (R443). Channels that R20 marked failed toward or from it are cleared. -/
def State.resetIsland (s : State) (i : Nat) : State :=
  let s := forEach (islCores i) (fun c s => s.resetCore c) s
  let s :=
    if i = islDSP then s.resetDsp
    else if i = islRAB || i = islRCD then
      let s := s.dropRegs (inIsland i)
      { s with net := { s.net with rings := s.net.rings.filter (fun x => ringIsl x.1 != i) } }
    else if islPB0 ≤ i && i < islPB0 + 4 then s.resetBank (i - islPB0)
    else if i = islTIM then
      let s := s.dropRegs (inIsland i)
      { s with tim := { clk := s.tim.clk, reps := s.tim.reps, actions := s.tim.actions, lateCnt := s.tim.lateCnt,
                        outs := s.tim.outs, failed := s.tim.failed },
               pwr := { s.pwr with adc := [], adcCyc := [] } }
    else s
  let s := s.setRep i {}
  { s with tim := { s.tim with failed := s.tim.failed.filter (fun x => x.1 != i && x.2 != i),
                               actions := s.tim.actions.filter (fun x => x.isl != i),
                               lateCnt := s.tim.lateCnt.filter (fun x => x.1 != i),
                               outs := s.tim.outs.filter (fun x => x.1 / 2 ^ 32 != i) } }

/-- Belay in reset (R367, R383): every SAFE_OFF asserted; what AON holds of the seal is kept (R374). -/
def State.belOff (s : State) : State :=
  let sealed := s.f R.BEL_STAT_SEAL
  let code := s.f R.BEL_STAT_SEALCODE
  let cnt := s.f R.BEL_STAT_SEAL_CNT
  let s := { s.dropRegs (inIsland islBLY) with bel := {} }
  let s := ((s.set R.BEL_STAT_SEAL sealed).set R.BEL_STAT_SEALCODE code).set R.BEL_STAT_SEAL_CNT cnt
  forN 4 (fun b s => s.bankSafeOff b true) (s.set R.BEL_STAT_STATE 0).belOutputs

/-- Islands whose root domain is `d`. -/
def domIslands (d : Nat) : List Nat := (List.range 44).filter (fun i => rootPD i == d)

/-- Domain `d` has lost its level (R442): its islands and blocks are at reset, its memories lost; MRAM keeps its bytes. -/
def State.domainOff (s : State) (d : Nat) : State :=
  let s := (s.set R.PMU_PD_STAT_PD (s.f R.PMU_PD_STAT_PD &&& (0xFFFFFF ^^^ 2 ^ d)))
  let s := { s with pmu := { s.pmu with iso := s.pmu.iso &&& (0xFFFFFF ^^^ 2 ^ d) } }
  let cores := ((domIslands d).map islCores).flatten
  let s := forEach cores (fun c s => if s.on (R.DSP_CORE_ONLINE c) then s.coreOffline c else s) s
  let s := if d = 2 then s.belOff else if d = 3 then s else forEach (domIslands d) (fun i s => s.resetIsland i) s
  let s := s.dropMem (fun a => inDomain d a && !(0x04000000 ≤ a && a < 0x05000000))
  match d with
  | 1 => { s.dropRegs (inDomain 1) with log := {} }
  | 13 => (s.clr R.DX_STAT_LANE0_UP).clr R.DX_STAT_LANE1_UP
  | 14 => { s.dropRegs (inDomain 14) with host := { s.host with dma := [], outRead := none, outSent := none, msix := none, txSent := [] } }
  | 15 => (s.clr R.DOM_DRAM_READY).clr R.DOM_DRAM_TRAINERR
  | 20 => { s.dropRegs (inDomain 20) with pwr := { s.pwr with adc := [], adcCyc := [] } }
  | 22 => { s.dropRegs (inDomain 22) with host := { s.host with front := [], back := [], fill := none } }
  | _ => s

/-- Domain `d` has reached its level and its resets are released (R442, R313, R369). -/
def State.domainOn (s : State) (d : Nat) : State :=
  let s := s.set R.PMU_PD_STAT_PD (s.f R.PMU_PD_STAT_PD ||| 2 ^ d)
  let s := { s with pmu := { s.pmu with iso := s.pmu.iso &&& (0xFFFFFF ^^^ 2 ^ d) } }
  let s := forEach ((domIslands d).map islCores).flatten (fun c s => s.coreOnline c) s
  if d = 2 then s.belPowerUp else s

/-- A device reset (R20, R443): every island but AON. `cold`: the volatile memories have lost their level. -/
def State.deviceReset (s : State) (cold : Bool) : State :=
  let sealed := s.f R.BEL_STAT_SEAL
  let code := s.f R.BEL_STAT_SEALCODE
  let t : State :=
    { State.reset with
      pending := s.pending, free := s.free, resp := s.resp
      regs := s.regs.filter (fun c => 0x10381000 ≤ c.1 && c.1 < 0x10382000)
      mem := s.mem.filter (fun c => (0x04000000 ≤ c.1 && c.1 < 0x05000000) || (!cold && c.1 < 0x01000000))
      tim := { clk := s.tim.clk }
      net := { s.net with rings := [] }
      dsp := { debugger := s.dsp.debugger }
      pmu := { why := s.pmu.why }
      boot := { s.boot with rom := false, waitHost := false, prog := none, mwr := none } }
  ((t.set R.BEL_STAT_SEAL sealed).set R.BEL_STAT_SEALCODE code).set R.BEL_STAT_SEAL_CNT (s.f (R.AON_RET 0) % 65536)

/-- Only PD00 is powered (R445, R451). -/
def State.powerOff (s : State) : State := (s.deviceReset true).set R.PMU_PD_STAT_PD 1

end Sys2Proof.Machine
end

