-- ==== Sys2Proof/Machine/Boot.lean ====
section
/-! DEFINITION. Boot (R457 to R463) and the MRAM boot area (R464): the image check, the boot ROM's outcome, a cold start,
fuse programming and MRAM writes. -/

namespace Sys2Proof.Machine

/-- Group-12 report (R484). -/
def State.hostReport (s : State) (kind idx cls : Nat) (data : List Nat) : State :=
  s.report (srcOf 12 (kind * 64 + idx)) cls 0 data

/-! ## Images (R460, R461) -/

/-- Where an image is read: bytes from an offset. -/
abbrev ImgSrc := Nat → Nat → List Byte

structure ImgHdr where
  imgLen : Nat
  load : Nat
  entry : Nat
  version : Nat
  keyIdx : Nat
  deriving DecidableEq, Repr

def imgHdr (h : List Byte) : ImgHdr := ⟨leAt h 8 4, leAt h 12 4, leAt h 16 4, leAt h 20 4, leAt h 24 1⟩

/-- Step 1 of R461: every field of the header lies in its range. -/
def imgFormatOk (h : List Byte) (slot : Nat) : Bool :=
  let x := imgHdr h
  leAt h 0 4 == 0x31425950 && leAt h 4 4 == 512 && 16 ≤ x.imgLen && x.imgLen ≤ 8388608 && x.imgLen % 16 == 0 &&
    x.imgLen + 512 ≤ slot && x.load % 16 == 0 && x.load + x.imgLen ≤ 0xFF0000 && x.load ≤ x.entry &&
    x.entry < x.load + x.imgLen && x.entry % 4 == 0 && x.version ≤ 64 && x.keyIdx ≤ 3 &&
    leAt h 25 7 == 0 && leAt h 224 288 == 0

/-- The KEYHASH fuse of key `i`, as the number its 48 bytes spell. -/
def Boot.hash (b : Boot) (i : Nat) : Nat := beNat (SMap.get (fun _ => []) b.keyHash i)

/-- The check of R461: 0, or the reason of the first failure. -/
def State.imageReason (s : State) (rd : ImgSrc) (slot : Nat) : Nat :=
  let h := rd 0 512
  let x := imgHdr h
  let secure := s.on R.DOM_BOOT_FUSE_SECURE
  if !imgFormatOk h slot then 1
  else if secure && (bit (s.f R.DOM_BOOT_FUSE_KEYREV) x.keyIdx || s.boot.hash x.keyIdx == 0 ||
      sha384 (slice h 32 96) != s.boot.hash x.keyIdx) then 2
  else if x.version < s.f R.DOM_BOOT_FUSE_MINVER then 3
  else if secure &&
      !ecdsaOk (beAt h 32 48) (beAt h 80 48) (beAt h 128 48) (beAt h 176 48)
        (sha384 (patch h 128 (List.replicate 96 0) ++ rd 512 x.imgLen)) then 4
  else 0

/-! ## The boot ROM (R458, R459, R462) -/

/-- ST[0] is placed on SC0 as R458 step 3 describes, in the boot ROM. -/
def State.romStart (s : State) : State :=
  let s := (s.set (R.ST_SMASK 0) 1).set (R.ST_ATTR_NOPREEMPT 0) 1
  let s := ((s.set (R.ST_SAVE 0) (0xFFF800 / 2048)).set (R.ST_SWLO 0) (0xFF0000 / 16)).set (R.ST_SWHI 0) (0xFFF800 / 16)
  let s := ((s.setSt 0 stRunning).set (R.ST_STAT_LASTCORE 0) 32)
  let s := (s.raise (R.DSP_CORE_RUN_V 32)).set (R.DSP_CORE_RUN 32) 0
  let x : Ctx := { s.creation 0 with pc := 0, ssw := 0x80000000 }
  let s := s.modCore 32 (fun k => { k with ctx := x, strand := 0, epoch := s.f (R.ST_STAT_EPOCH 0), detached := false })
  { s with boot := { s.boot with rom := true } }

/-- The image passes: it is copied to LOAD, recorded, and ST[0] goes on at ENTRY (R458 step 4). -/
def State.bootInto (s : State) (rd : ImgSrc) (slot : Nat) : State :=
  let x := imgHdr (rd 0 512)
  let s := s.store x.load (rd 512 x.imgLen)
  let s := s.hostReport 0 slot clsInfo [slot, x.version, x.keyIdx, b2n (!s.on R.DOM_BOOT_FUSE_SECURE)]
  let g := (s.core 32).ctx.g
  let g := SMap.put (fun _ => 0) (SMap.put (fun _ => 0) g 4 (toW slot)) 5 (toW x.version)
  let s := s.modCore 32 (fun k => { k with ctx := { k.ctx with pc := x.entry, g := g } })
  { s with boot := { s.boot with rom := false, waitHost := false } }

/-- No bootable image: kind 2, and the ROM idles (R462). -/
def State.bootNone (s : State) : State :=
  ({ s with boot := { s.boot with waitHost := false } } : State).hostReport 2 0 clsFault []

/-- The slots are checked in the order given; the first that passes boots (R462). -/
def State.bootSlots (s : State) : List (Nat × ImgSrc × Nat) → State
  | [] => s.bootNone
  | (slot, rd, size) :: more =>
    let r := s.imageReason rd size
    if r = 0 then s.bootInto rd slot else (s.hostReport 1 slot clsWarn [r]).bootSlots more

/-- Descending VERSION, slot 0 first when equal (R462). -/
def slotOrder (a b : Nat × ImgSrc × Nat) : List (Nat × ImgSrc × Nat) :=
  if (imgHdr (a.2.1 0 512)).version < (imgHdr (b.2.1 0 512)).version then [b, a] else [a, b]

/-- The ROM prepares for the image the host will write (R459). -/
def State.bootHost (s : State) : State :=
  let s := s.domainOn 14
  let s := s.set R.PMU_PD_REQ_PD (s.f R.PMU_PD_REQ_PD ||| 2 ^ 14)
  let s := ((s.raise R.PCIE_CTRL_LINKEN).set (R.PCIE_FN_CFG_BAR2SZ 0) 24).raise (R.PCIE_FN_CFG_IN_EN 0)
  { s with boot := { s.boot with waitHost := true } }

/-- The ROM takes the source the straps name (R459). -/
def State.romRun (s : State) : State :=
  match s.f R.DOM_BOOT_STRAPS_BOOT_SRC with
  | 0 =>
    let rd := fun (b : Nat) o n => (List.range n).map (fun i => SMap.get memDflt s.boot.flash (b + o + i))
    s.bootSlots (slotOrder (0, rd 0, 0x1000000) (1, rd 0x1000000, 0x1000000))
  | 1 =>
    let rd := fun (b : Nat) o n => s.bytes (b + o) n
    s.bootSlots (slotOrder (0, rd 0x04C00000, 0x1E0000) (1, rd 0x04DE0000, 0x1E0000))
  | 2 => s.bootHost
  | _ => s.bootNone

/-- The host rings the doorbell the ROM waits for: inbound access ends for every function, then the image is checked. -/
def State.bootDoorbell (s : State) (load : Nat) : State :=
  let s := forN 64 (fun f s => s.clr (R.PCIE_FN_CFG_IN_EN f)) s
  if load < 512 || 0xFF0000 < load || (imgHdr (s.bytes (load - 512) 512)).load ≠ load then
    (s.hostReport 1 0 clsWarn [1]).bootNone
  else s.bootSlots [(0, fun o n => s.bytes (load - 512 + o) n, 0x1000000)]

/-- R458 from its first step, with the reset cause given (R445, R446); `cold`: the memories have lost their level. -/
def State.coldStart (s : State) (cause : Nat) (cold : Bool) : State :=
  let s := s.deviceReset cold
  let s := s.setReg (R.AON_RET_W 1) (putBits (s.reg (R.AON_RET_W 1)) 3 0 cause)
  let s := (s.set R.PMU_RESET_CAUSE_CAUSE cause).set R.PMU_RAIL_STAT_IN_REG 0x7F
  let s := s.setReg R.DOM_BOOT_STRAPS (s.boot.straps % 256 - bits s.boot.straps 3 3 * 8)
  let s := ((s.setB R.DOM_BOOT_FUSE_SECURE s.boot.secure).set R.DOM_BOOT_FUSE_KEYREV s.boot.keyrev).set
    R.DOM_BOOT_FUSE_MINVER (popCount 64 s.boot.minver)
  s.belPowerUp.romStart.romRun

/-! ## Fuses (R463) -/

/-- A write of FUSEPROG with GO. -/
def State.fuseProgram (s : State) : State :=
  if s.boot.prog.isSome then s
  else
    let ver := s.on R.DOM_FUSEPROG_VER
    let key := s.f R.DOM_FUSEPROG_KEY
    let others := (List.range 4).any (fun i => i != key && !bit s.boot.keyrev i && s.boot.hash i != 0)
    let last := !ver && !bit s.boot.keyrev key && s.boot.hash key != 0 && !others
    if last then (s.set R.DOM_FUSEPROG_RESULT 3).hostReport 9 0 clsWarn [3]
    else
      { s.set R.DOM_FUSEPROG_RESULT 1 with
        boot := { s.boot with prog := some (ver, if ver then s.f R.DOM_FUSEPROG_BIT else key) } }

/-- FUSE_PROGRAM_DONE: the fuses take effect at the next boot. -/
def State.fuseDone (s : State) : State :=
  match s.boot.prog with
  | none => s
  | some (ver, i) =>
    let b := { s.boot with prog := none }
    let b := if ver then { b with minver := b.minver ||| 2 ^ i } else { b with keyrev := b.keyrev ||| 2 ^ i }
    ({ s.set R.DOM_FUSEPROG_RESULT 2 with boot := b }).hostReport 9 0 clsInfo [2]

/-! ## MRAM boot area (R464) -/

/-- The parts of the boot area: offset and size ("Boot area layout"); the Belay part is not among them. -/
def mramParts : List (Nat × Nat) := [(0, 0x1E0000), (0x1E0000, 0x1E0000), (0x3CC000, 0x34000)]

/-- A write of MWR_CTL.GO. -/
def State.mramWrite (s : State) : State :=
  if s.boot.mwr.isSome then s
  else
    let src := 4 * s.f R.DOM_MWR_SRC
    let dst := 4 * s.f R.DOM_MWR_DST
    let len := s.f R.DOM_MWR_LEN
    let ok := 4 ≤ len && len ≤ 1966080 && len % 4 == 0 && src + len ≤ 0x1000000 &&
      mramParts.any (fun p => p.1 ≤ dst && dst + len ≤ p.1 + p.2)
    if !ok then (s.set R.DOM_MWR_CTL_RESULT 3).hostReport 9 0 clsWarn [3]
    else { s.set R.DOM_MWR_CTL_RESULT 1 with boot := { s.boot with mwr := some (src, dst, len) } }

/-- MRAM_WRITE_DONE: every byte is written, or the write stopped at a 4 KiB piece whose read-back failed; which piece, and
what that piece holds, are free. -/
def State.mramDone (s : State) (good : Bool) : State :=
  match s.boot.mwr with
  | none => s
  | some (src, dst, len) =>
    let s := { s with boot := { s.boot with mwr := none } }
    let data := s.bytes src len
    let a := 0x04C00000 + dst
    if good then ((s.store a data).set R.DOM_MWR_CTL_RESULT 2).hostReport 9 0 clsInfo [2]
    else
      let k := (Config.freeWord s.free).toNat % ((len + 4095) / 4096)
      let bad := (List.range (min 4096 (len - 4096 * k))).map (fun i => Config.freeByte s.free i)
      let s := (s.store a (data.take (4096 * k) ++ bad)).burn
      (s.set R.DOM_MWR_CTL_RESULT 4).hostReport 9 0 clsWarn [4]

/-! ## Event commands -/

/-- POWER_UP (R458): power is applied; PD00 has no earlier contents (R440). -/
def execPowerUp (s : State) : Res :=
  let s := s.dropRegs (fun a => 0x10381000 ≤ a && a < 0x10382000)
  .next (({ s with pmu := { s.pmu with why := 0 } } : State).coldStart 0 true)

/-- FUSE_PROGRAM_DONE (R463). -/
def execFuseProgramDone (s : State) : Res := .next s.fuseDone

/-- MRAM_WRITE_DONE (R464). -/
def execMramWriteDone (good : Bool) (s : State) : Res := .next (s.mramDone good)

/-- DRAM_TRAINING_DONE (R471): of a controller that is powered. -/
def execDramTrainingDone (good : Bool) (s : State) : Res :=
  .next (if s.pdOn 15 then (s.setB R.DOM_DRAM_READY good).setB R.DOM_DRAM_TRAINERR (!good) else s)

end Sys2Proof.Machine
end

