-- ==== Sys2Proof/Machine/Fids.lean ====
section
/-! DEFINITION. The fid block's registers (spec/17_logline_and_fids.md, R430 to R433, R437): arming, disarming, and the
start and stop of slots. What a firing does is in Sys2Proof.Machine.FidFire. -/

namespace Sys2Proof.Machine

/-! ## Sources (R430, R431) -/

/-- SRC names a source of R430. -/
def knownSrc (src : Nat) : Bool :=
  let i := src % 2048
  let k := i / 64
  let j := i % 64
  match src / 2048 with
  | 0 => i ≤ 5 || (64 ≤ i && i ≤ 318)
  | 1 => i / 8 < 44 && i % 8 ≤ 4
  | 2 => bits i 8 6 == 2 || bits i 8 6 == 3 || j == 0
  | 3 => true
  | 4 => i ≤ 511
  | 5 => (k ≤ 4 && j < 36 && k != 3) || (k == 3 && j == 0)
  | 6 => match k with
    | 0 => j < 2
    | 1 => j == 0
    | 2 => j == 0
    | 3 => j < 2
    | 4 => j < 32
    | 5 => j < 32
    | 6 => j < 32
    | _ => false
  | 7 => i / 16 < 64 && i % 16 ≤ 10
  | 8 => i / 16 < 16 && i % 16 ≤ 4
  | 9 => i ≤ 11 || (16 ≤ i && i ≤ 275) || (288 ≤ i && i ≤ 319)
  | 10 => i ≤ 7
  | 11 => match k with
    | 0 => j < 7
    | 1 => j < 24
    | 2 => j < 44
    | 3 => j < 44
    | 4 => j < 32
    | 5 => j < 32
    | 6 => j ≤ 5
    | 7 => j < 33
    | _ => false
  | 12 => match k with
    | 0 => j < 3
    | 1 => j < 3
    | 2 => j == 0
    | 3 => j < 4
    | 4 => j < 8
    | 5 => true
    | 6 => j == 0
    | 7 => j < 4
    | 8 => j == 0
    | 9 => j == 0
    | _ => false
  | 13 => i < 256
  | _ => false

/-- A known source has a fid (R431). -/
def hasFid (src : Nat) : Bool :=
  let i := src % 2048
  match src / 2048 with
  | 0 => i == 4 || i == 64
  | 12 => i / 64 != 2
  | 13 => false
  | _ => true

/-! ## Arming (R432) -/

def State.modFid (s : State) (f : Fids → Fids) : State := { s with fid := f s.fid }

def Fids.slot (x : Fids) (j : Nat) : FidSlot := SMap.get (fun _ => {}) x.slots j
def State.setFidSlot (s : State) (j : Nat) (x : FidSlot) : State :=
  s.modFid (fun f => { f with slots := SMap.put (fun _ => {}) f.slots j x })

/-- The keys of the unlock sequence. -/
def fidKey0 : Nat := 0x0000F1D0
def fidKey1 : Nat := 0x00000F1D

/-- A write of UNLOCK: the second key within 1 ms of the first arms the block for ARMTIME ms; any other write restarts the
sequence. -/
def State.fidUnlock (s : State) (key : Nat) : State :=
  let first := match s.fid.unlockAt with | some t => s.tim.clk - t ≤ 1000000 | none => false
  if key = fidKey0 then s.modFid (fun f => { f with unlockAt := some s.tim.clk })
  else
    let s := s.modFid (fun f => { f with unlockAt := none })
    if key = fidKey1 && first then
      (s.raise R.FID_CTRL_ARMED).modFid (fun f => { f with armedUntil := some (s.tim.clk + s.f R.FID_ARMTIME_MS * 1000000) })
    else s

/-- A running slot stops: RESULT reads STOPPED (R432, R433). -/
def State.fidStop (s : State) (j : Nat) : State :=
  if (s.fid.slot j).running then
    ((s.setFidSlot j {}).clr (R.FS_CTRL_GO j)).set (R.FS_STAT_RESULT j) 6
  else s

/-- The block disarms, which stops every slot (R432). -/
def State.fidDisarm (s : State) : State :=
  let s := (s.clr R.FID_CTRL_ARMED).modFid (fun f => { f with armedUntil := none })
  forN 8 (fun j s => s.fidStop j) s

/-- ARMLEFT: whole milliseconds left. -/
def State.fidArmLeft (s : State) : Nat :=
  match s.fid.armedUntil with
  | some t => (t - s.tim.clk) / 1000000
  | none => 0

/-! ## Slots (R433) -/

/-- The stamp of firing `m`. -/
def State.fidStamp (s : State) (j m : Nat) : Nat := (s.f (R.FS_T0 j) + m * s.f (R.FS_PER_US j) * 1000) % 2 ^ 32

/-- A slot has no firing left: done. -/
def State.fidFinish (s : State) (j : Nat) : State :=
  if (s.fid.slot j).n ≤ (s.fid.slot j).m then
    ((s.setFidSlot j {}).clr (R.FS_CTRL_GO j)).set (R.FS_STAT_RESULT j) 2
  else s

/-- `k` firings of a slot are missed. -/
def State.fidMiss (s : State) (j k : Nat) : State := s.countK (R.FS_STAT_MISSED j) k

/-- Firings at the start of a slot whose stamps have passed when they are scheduled are missed (R24, R433). -/
def State.fidSkip (s : State) (j : Nat) : State :=
  let past := -dt (s.f (R.FS_T0 j)) s.gnow
  let n := s.f (R.FS_CTRL_N j)
  let per := s.f (R.FS_PER_US j) * 1000
  let k := if past ≤ 0 then 0 else if per = 0 then n else min n ((past.toNat + per - 1) / per)
  (s.fidMiss j k).setFidSlot j { running := true, m := k, n := n }

/-- GO of a slot that does not run: refused, or started from m = 0. -/
def State.fidGo (s : State) (j : Nat) : State :=
  let src := s.f (R.FS_SRC_SRC j)
  if (s.fid.slot j).running then s
  else if !s.on R.FID_CTRL_ARMED then s.set (R.FS_STAT_RESULT j) 3
  else if !knownSrc src then s.set (R.FS_STAT_RESULT j) 4
  else if !hasFid src then s.set (R.FS_STAT_RESULT j) 5
  else
    let s := ((s.setReg (R.FS_STAT j) 1).raise (R.FS_CTRL_GO j))
    (s.fidSkip j).fidFinish j

/-- A write of FS[j].CTRL: STOP, N, then GO. A slot that runs keeps the N it was started with (R433). -/
def State.fidCtrlW (s : State) (j v : Nat) : State :=
  let s := if bit v 30 then s.fidStop j else s
  let s := s.set (R.FS_CTRL_N j) (v % 65536)
  if bit v 31 then s.fidGo j else s

/-- A write of the fid block (R437). -/
def State.fidWrite (s : State) (a v : Nat) : State :=
  if a = R.FID_UNLOCK_W then s.fidUnlock v
  else if a = R.FID_CTRL then (if bit v 0 then s.fidDisarm else s)
  else if a = R.FID_ARMTIME_W then s.set R.FID_ARMTIME_MS v
  else if a = R.FID_WIN_W then s.set R.FID_WIN_US v
  else if 0x10370100 ≤ a && a < 0x10370200 then
    let j := (a - 0x10370100) / 0x20
    match a % 0x20 with
    | 0x00 => s.set (R.FS_SRC_SRC j) v
    | 0x04 => s.fidCtrlW j v
    | 0x08 => s.set (R.FS_T0 j) v
    | 0x0C => s.set (R.FS_PER_US j) v
    | 0x10 => (s.set (R.FS_DATA_CLASS j) (bits v 9 8)).set (R.FS_DATA_BURST j) (bits v 7 0)
    | _ => s
  else s

end Sys2Proof.Machine
end

