-- ==== Sys2Proof/Machine/Pmu.lean ====
section
/-! DEFINITION. Power management (spec/18_power_management.md): rails, domain switching, island resets, operating points,
standby, DC buses, the mains-loss sequence and the saved state. -/

namespace Sys2Proof.Machine

def State.modPmu (s : State) (f : Pmu → Pmu) : State := { s with pmu := f s.pmu }

/-- Group-11 report (R455). -/
def State.pmuReport (s : State) (kind idx cls : Nat) (data : List Nat) : State :=
  s.report (srcOf 11 (kind * 64 + idx)) cls 0 data

/-! ## Power domains (R441, R442) -/

/-- "Domain order and switching". -/
def pdOrder : List Nat := [0, 3, 1, 2, 21, 10, 9, 4, 5, 6, 7, 8, 11, 12, 13, 14, 15, 20, 16, 17, 18, 19, 22, 23]

/-- The cores of a cluster domain. -/
def pdCores (d : Nat) : List Nat := ((domIslands d).map islCores).flatten

/-- Every core of the domain is offline (R313). -/
def State.pdOffline (s : State) (d : Nat) : Bool := (pdCores d).all (fun c => !s.on (R.DSP_CORE_ONLINE c))

/-- Why the domain may not be switched off: 0 it may, 1 a condition of R441, 3 never. -/
def State.pdReason (s : State) (d : Nat) : Nat :=
  if d < 4 then 3
  else
    let bad :=
      match d with
      | 21 => s.anySending
      | 10 => !s.activeStrands.isEmpty
      | 9 => s.anySending || (List.range 64).any (fun k => s.f (R.K_STAT_STATE k) != 0)
      | 8 => !s.pmu.via
      | 11 => s.f (R.RING_STAT_STATE 0) != 0 || s.f (R.RING_STAT_STATE 1) != 0
      | 12 => s.f (R.RING_STAT_STATE 2) != 0 || s.f (R.RING_STAT_STATE 3) != 0
      | 13 => s.on R.DX_CTRL_EN
      | _ => false
    if bad then 1 else 0

/-- A refused domain keeps its state (R442): PD_ERR, PDERR, a record, and the next domain. -/
def State.pdRefuse (s : State) (d reason : Nat) : State :=
  let s := ((s.set R.PMU_PD_ERR_REASON reason).set R.PMU_PD_ERR_DOM d).raise R.PMU_STAT_PDERR
  (s.modPmu (fun p => { p with refused := p.refused ||| 2 ^ d, cur := none })).pmuReport 1 d clsWarn [3, reason]

/-- The next domain of the request: every one to be switched off, in reverse order, then those to be switched on (R442). -/
def State.pdNext (s : State) : Option (Nat × Bool) :=
  let want := s.f R.PMU_PD_REQ_PD
  let have' := s.f R.PMU_PD_STAT_PD
  let pick := fun (on : Bool) (l : List Nat) =>
    l.find? (fun d => bit want d == on && bit have' d != on && !bit s.pmu.refused d)
  match pick false pdOrder.reverse with
  | some d => some (d, false)
  | none => (pick true pdOrder).map (fun d => (d, true))

/-- CTRL.EN := 0 on every channel of bank `b`, which ends the shots; a frozen channel is not reached. -/
def State.bankDisable (s : State) (b : Nat) : State :=
  forN 16 (fun j s =>
    let c := 16 * b + j
    if s.on (R.PC_STAT_FROZEN c) then s else s.chanEnable c false) s

/-- Switching of a domain begins: off, a bank is disabled, a cluster's cores are asked offline, and the domain is isolated. -/
def State.pdBegin (s : State) (d : Nat) (on : Bool) : State :=
  let s := s.modPmu (fun p => { p with cur := some (d, on) })
  if on then s
  else
    let s :=
      if 16 ≤ d && d < 20 then
        let s := s.bankDisable (d - 16)
        (forN 4 (fun g s => s.clr (R.HG_CTRL_EN (4 * (d - 16) + g))) s).pmuReport 1 d clsInfo [2]
      else s
    let s := forEach (pdCores d) (fun c s => s.coreOffreq c) s
    if s.pdOffline d then s.modPmu (fun p => { p with iso := p.iso ||| 2 ^ d }) else s

/-- Take the next domain that is not refused, if any; `n` bounds the refusals on the way. -/
def State.pdAdvance (s : State) : Nat → State
  | 0 => s
  | n + 1 =>
    match s.pdNext with
    | none => s
    | some (d, on) =>
      let r := if on then 0 else s.pdReason d
      if r = 0 then s.pdBegin d on else (s.pdRefuse d r).pdAdvance n

/-- A write of PD_REQ (R442): a running sequence goes on with the new request. -/
def State.domainRequest (s : State) (pd : Nat) (via : Bool) : State :=
  let s := (s.set R.PMU_PD_REQ_PD pd).modPmu (fun p => { p with refused := 0, via := via })
  if s.pmu.cur.isSome then s else s.pdAdvance 25

/-- The domain in progress reaches its level, or loses it; a cluster whose cores are not offline yet waits. -/
def State.domainDone (s : State) : State :=
  match s.pmu.cur with
  | none => s
  | some (d, on) =>
    if !on && !s.pdOffline d then s
    else
      let s := if on then s.domainOn d else s.domainOff d
      let s := (s.modPmu (fun p => { p with cur := none })).pmuReport 1 d clsInfo [b2n on]
      s.pdAdvance 25

/-- The cluster's cores did not go offline within 100 µs (R441). -/
def State.domainTimeout (s : State) : State :=
  match s.pmu.cur with
  | some (d, false) => if s.pdOffline d then s else (s.pdRefuse d 2).pdAdvance 25
  | _ => s

/-! ## Island reset (R443) -/

/-- A write of ISLRST with GO; while a reset runs it writes ISLAND alone (notes/assumptions/1804.md). -/
def State.islandReset (s : State) (i : Nat) : State :=
  let s := s.set R.PMU_ISLRST_ISLAND i
  if s.pmu.rst.isSome then s
  else
    let ok := i < 41 && s.islOn i && (islCores i).all (fun c => !s.on (R.DSP_CORE_ONLINE c))
    if ok then (s.raise R.PMU_ISLRST_GO).modPmu (fun p => { p with rst := some i })
    else ((s.clr R.PMU_ISLRST_GO).raise R.PMU_ISLRST_REFUSED).pmuReport 2 i clsWarn [1]

def State.islandResetDone (s : State) : State :=
  match s.pmu.rst with
  | none => s
  | some i =>
    (((s.resetIsland i).clr R.PMU_ISLRST_GO).modPmu (fun p => { p with rst := none })).pmuReport 2 i clsInfo [0]

/-! ## Operating points (R444) -/

/-- VCORE of an operating point, mV. -/
def oppLevel (o : Nat) : Nat := match o with | 3 => 850 | 2 => 780 | 1 => 720 | _ => 680

/-- The level VCORE needs: that of the highest point selected, never below OPP1's. -/
def State.vcoreNeeded (s : State) : Nat :=
  (List.range 33).foldl (fun m i => max m (oppLevel (s.f (R.PMU_ISL_OPP i)))) 720

/-- A write of ISL[i].OPP: a raise lifts VCORE before the clock. -/
def State.oppChange (s : State) (i o : Nat) : State :=
  let old := s.f (R.PMU_ISL_OPP i)
  let s := s.set (R.PMU_ISL_OPP i) o
  if o = old then s
  else
    let s := s.raise (R.PMU_ISL_BUSY i)
    s.modPmu (fun p => { p with oppQ := p.oppQ.filter (· != i) ++ [i], vcore := max p.vcore s.vcoreNeeded })

/-- The oldest change is complete; VCORE comes down to what is needed once none is left. -/
def State.oppDone (s : State) : State :=
  match s.pmu.oppQ with
  | [] => s
  | i :: more =>
    let o := s.f (R.PMU_ISL_OPP i)
    let need := s.vcoreNeeded
    let s := (s.clr (R.PMU_ISL_BUSY i)).modPmu (fun p =>
      { p with oppQ := more, clocks := SMap.put (fun _ => 3) p.clocks i o, vcore := if more.isEmpty then need else p.vcore })
    s.pmuReport 7 i clsInfo [o]

/-! ## Saved state (R454, R411) -/

def halfAddr (h : Nat) : Nat := 0x04800000 + 0x200000 * h

/-- A half is valid: its MAGIC, LEN and CRC check. -/
def State.halfValid (s : State) (h : Nat) : Bool :=
  let a := halfAddr h
  let len := s.rd (a + 4) 4
  s.rd a 4 == 0x31564153 && 68 ≤ len && len ≤ 0x200000 && crc32 (s.bytes a (len - 4)) == s.rd (a + len - 4) 4

def State.halfSeq (s : State) (h : Nat) : Nat := s.rd (halfAddr h + 8) 4

/-- The half the next record goes into: an invalid one, or the one with the lower SSEQ. -/
def State.saveHalf (s : State) : Nat :=
  if !s.halfValid 0 then 0 else if !s.halfValid 1 then 1 else if s.halfSeq 1 < s.halfSeq 0 then 1 else 0

/-- SSEQ of the latest record: of the valid halves and of SAVE.SSEQ. -/
def State.lastSseq (s : State) : Nat :=
  let v := fun h => if s.halfValid h then s.halfSeq h else 0
  max (max (v 0) (v 1)) (s.f R.PMU_SAVE_SSEQ_SSEQ)

def State.epochBytes (s : State) (d : Nat) : List Byte :=
  let c := s.dom d
  leBytes 4 c.epochRef ++ leBytes 4 c.epochNs ++ leBytes 8 c.epochSec

/-- The PRESENT nodes, by ring and address. -/
def State.presentNodes (s : State) : List (Nat × Nat) :=
  ((List.range 4).map (fun r =>
    ((List.range 64).filter (fun i => s.ntState r (i + 1) == nfPresent)).map (fun i => (r, i + 1)))).flatten

def State.savedAxes (s : State) : List Nat :=
  (List.range 256).filter (fun n => bit (s.f (R.PMU_SAVE_AXMASK (n / 32))) (n % 32))

/-- The enabled regions: address and length. -/
def State.savedRegions (s : State) : List (Nat × Nat) :=
  ((List.range 16).filter (fun r => s.on (R.PMU_SAVE_REG1_EN r))).map (fun r =>
    (16 * s.f (R.PMU_SAVE_REG0_ADDR_LO r) + 2 ^ 32 * s.f (R.PMU_SAVE_REG1_ADDR_HI r), s.f (R.PMU_SAVE_REG2_LEN r)))

def State.nodeEntry (s : State) (x : Nat × Nat) : List Byte :=
  let i := x.2 - 1
  leBytes 1 x.1 ++ leBytes 1 x.2 ++ leBytes 2 0 ++ leBytes 4 (s.f (R.RING_NT_PHASH_PHASH x.1 i)) ++
    leBytes 4 (s.f (R.RING_NT_SERIAL_LO x.1 i)) ++ leBytes 4 (s.f (R.RING_NT_SERIAL_HI x.1 i))

def State.axisSave (s : State) (n : Nat) : List Byte :=
  leBytes 1 n ++ leBytes 3 0 ++ leBytes 4 (s.f (R.AX_POS_PREV n)) ++
    leBytes 4 (s.f (R.AX_X_ACT_LO n)) ++ leBytes 4 (s.f (R.AX_X_ACT_HI n))

/-- `n` rounded up to a multiple of 16. -/
def up16 (n : Nat) : Nat := (n + 15) / 16 * 16

def State.regionSave (s : State) (x : Nat × Nat) : List Byte :=
  leBytes 8 x.1 ++ leBytes 4 x.2 ++ leBytes 4 0 ++ s.bytes x.1 x.2 ++ List.replicate (up16 x.2 - x.2) 0

/-- Bytes of the record. -/
def State.saveLen (s : State) : Nat :=
  64 + 16 * s.presentNodes.length + 16 * s.savedAxes.length +
    (s.savedRegions.map (fun x => 16 + up16 x.2)).foldl (· + ·) 0 + 4

/-- "Saved-state record". -/
def State.saveRecord (s : State) : List Byte :=
  let nodes := s.presentNodes
  let axes := s.savedAxes
  let regs := s.savedRegions
  let b := leBytes 4 0x31564153 ++ leBytes 4 s.saveLen ++ leBytes 4 (s.lastSseq + 1) ++ leBytes 2 (s.f R.LL_BOOTN_BOOTN) ++
    leBytes 2 nodes.length ++ leBytes 2 axes.length ++ leBytes 2 regs.length ++ leBytes 4 s.cyc ++
    s.epochBytes 0 ++ s.epochBytes 1 ++ leBytes 8 0 ++ (nodes.map s.nodeEntry).flatten ++ (axes.map s.axisSave).flatten ++
    (regs.map s.regionSave).flatten
  b ++ leBytes 4 (crc32 b)

/-- SAVEERR and its record. -/
def State.saveErr (s : State) : State := (s.raise R.PMU_STAT_SAVEERR).pmuReport 6 3 clsSafety [2]

/-- The write of a record begins; one that would exceed 2 MiB is not written. -/
def State.saveBegin (s : State) : State :=
  if s.pmu.save.isSome then s
  else if 0x200000 < s.saveLen then s.saveErr
  else s.modPmu (fun p => { p with save := some (s.saveHalf, s.saveRecord) })

/-- A write that does not complete leaves its first bytes, fewer than all; how many is free. -/
def State.saveAbandon (s : State) : State :=
  match s.pmu.save with
  | none => s
  | some (h, b) =>
    let n := (Config.freeWord s.free).toNat % b.length
    ((s.store (halfAddr h) (b.take n)).burn).modPmu (fun p => { p with save := none })

/-- The write completes into its half, or fails. -/
def State.saveDone (s : State) (good : Bool) : State :=
  match s.pmu.save with
  | none => s
  | some (h, b) =>
    if good then
      ((s.store (halfAddr h) b).set R.PMU_SAVE_SSEQ_SSEQ (leAt b 8 4)).modPmu (fun p => { p with save := none })
    else s.saveAbandon.saveErr

/-- Step 3 writes its record once the staging FIFO is empty. -/
def State.saveWhenEmpty (s : State) : State :=
  if s.pmu.saveWait && s.log.held = 0 then (s.modPmu (fun p => { p with saveWait := false })).saveBegin else s

/-! ### Restore (R411) -/

/-- Every node entry of the record matches the node table. -/
def State.savedNodesOk (s : State) (a : Nat) : Nat → Bool
  | 0 => true
  | n + 1 =>
    let e := a + 16 * n
    let r := s.rd e 1
    let i := s.rd (e + 1) 1 - 1
    r < 4 && i < 64 && s.ntState r (i + 1) == nfPresent && s.rd (e + 4) 4 == s.f (R.RING_NT_PHASH_PHASH r i) &&
      s.rd (e + 8) 4 == s.f (R.RING_NT_SERIAL_LO r i) && s.rd (e + 12) 4 == s.f (R.RING_NT_SERIAL_HI r i) &&
      s.savedNodesOk a n

def State.restoreAxes (s : State) (a : Nat) : Nat → State
  | 0 => s
  | n + 1 =>
    let s := s.restoreAxes a n
    let e := a + 16 * n
    let ax := s.rd e 1
    if bit (s.f (R.DX_AXMASK (ax / 32))) (ax % 32) then
      ((s.set (R.AX_POS_PREV ax) (s.rd (e + 4) 4)).set (R.AX_X_ACT_LO ax) (s.rd (e + 8) 4)).set (R.AX_X_ACT_HI ax) (s.rd (e + 12) 4)
    else s

/-- The regions that are repetitive tables of an axis are put back. -/
def State.restoreRegions (s : State) (a : Nat) : Nat → State
  | 0 => s
  | n + 1 =>
    let dst := s.rd a 8
    let len := s.rd (a + 8) 4
    let s := if (List.range 256).any (fun i => s.repAddr i == dst && dst != 0) then s.store dst (s.bytes (a + 16) len) else s
    s.restoreRegions (a + 16 + up16 len) n

def State.restoreEpoch (s : State) (d a : Nat) : State :=
  let s := (s.set (R.TD_EPOCH_REF d) (s.rd a 4)).set (R.TD_EPOCH_NS d) (s.rd (a + 4) 4)
  let s := (s.set (R.TD_EPOCH_SEC_LO d) (s.rd (a + 8) 4)).set (R.TD_EPOCH_SEC_HI d) (s.rd (a + 12) 4)
  s.epochWrite d (s.rd (a + 12) 4)

/-- The latest valid half. -/
def State.restoreHalf (s : State) : Option Nat :=
  match s.halfValid 0, s.halfValid 1 with
  | true, true => some (if s.halfSeq 0 < s.halfSeq 1 then 1 else 0)
  | true, false => some 0
  | false, true => some 1
  | false, false => none

/-- The active unit of a pair loads the saved state before it enters RUN (R411). -/
def State.restoreSaved (s : State) : State :=
  match s.restoreHalf with
  | none => s.raise R.DX_STAT_RESTERR
  | some h =>
    let a := halfAddr h
    let nn := s.rd (a + 14) 2
    let na := s.rd (a + 16) 2
    if nn ≠ s.presentNodes.length || !s.savedNodesOk (a + 64) nn then s.raise R.DX_STAT_RESTERR
    else
      let s := s.restoreAxes (a + 64 + 16 * nn) na
      let s := s.restoreRegions (a + 64 + 16 * nn + 16 * na) (s.rd (a + 18) 2)
      (s.restoreEpoch 0 (a + 24)).restoreEpoch 1 (a + 40)

/-! ## Mains loss (R449 to R452) -/

def State.mlsAxis (s : State) (n : Nat) : Bool := bit (s.f (R.PMU_MLS_AXMASK (n / 32))) (n % 32)

/-- A step starts: STEP, T[s], the step held by AON, and a SAFETY record (R446, R450). -/
def State.mlsStep (s : State) (k t : Nat) : State :=
  let s := ((s.set R.PMU_STAT_STEP k).set (R.PMU_MLS_T_STAMP (k - 1)) t)
  let s := s.setReg (R.AON_RET_W 1) (putBits (s.reg (R.AON_RET_W 1)) 7 4 k)
  s.pmuReport 6 k clsSafety [0, t]

/-- The sequence starts at `t` (R450). -/
def State.mlsStart (s : State) (t : Nat) : State :=
  if s.f R.PMU_STAT_STEP ≠ 0 then s
  else
    let s := s.ext 66
    let s := if s.on R.PMU_MLS_TAG_TAGEN then s.fillTag (s.f R.PMU_MLS_TAG_TAG) t else s
    let s := s.mlsStep 1 t
    if s.on R.PMU_MLS_CTRL_HWRAMP then
      forN 256 (fun n s => if s.mlsAxis n then s.superAct n 1 else s) s
    else s

/-- PF, or the condition of R449: with MLS.CTRL.EN = 0 only a record is written. -/
def State.mainsFail (s : State) (t : Nat) : State :=
  if s.on R.PMU_MLS_CTRL_EN then s.mlsStart t else s.pmuReport 6 0 clsSafety [3, t]

/-- Step 2, STO. -/
def State.mlsSto (s : State) : State :=
  if s.f R.PMU_STAT_STEP ≠ 1 then s
  else
    let s := s.mlsStep 2 s.gnow
    let s := forN 256 (fun n s => if s.mlsAxis n then s.superAct n 2 else s) s
    forN 4 (fun b s => if bit (s.f R.PMU_MLS_BANKMASK) b then s.bankDisable b else s) s

/-- Step 3, SAVE. -/
def State.mlsSave (s : State) : State :=
  if s.f R.PMU_STAT_STEP ≠ 2 then s
  else
    let s := s.mlsStep 3 s.gnow
    if s.on R.PMU_SAVE_CTRL_EN then (s.modPmu (fun p => { p with saveWait := true })).saveWhenEmpty else s

/-- Step 4, OFF: Belay in reset, then MLS_DONE; the domains go off once it is committed. `why` is the cause of the next
start on VIN return. -/
def State.mlsOff (s : State) (why : Nat) : State :=
  let s := s.mlsStep 4 s.gnow
  let s := s.domainOff 2
  (s.modPmu (fun p => { p with off4 := true, saveWait := false, why := why })).pmuReport 6 0 clsSafety [1]

/-- Step 3 ends: a record that is not finished is abandoned. -/
def State.mlsSaveEnd (s : State) : State :=
  if s.f R.PMU_STAT_STEP ≠ 3 then s
  else
    let s := if s.pmu.save.isSome || s.pmu.saveWait then s.saveAbandon.saveErr else s
    s.mlsOff 3

/-- PF is inactive again (R452). -/
def State.pfRelease (s : State) : State :=
  let s := s.clr R.PMU_STAT_PF
  let st := s.f R.PMU_STAT_STEP
  let early := st = 1 || (st = 2 && decide (dt s.gnow (s.f (R.PMU_MLS_T_STAMP 1)) ≤ 0))
  if early && s.on R.PMU_CTRL_PFRECOVER then (s.set R.PMU_STAT_STEP 0).pmuReport 6 1 clsWarn [4] else s

/-! ## The final step (R451) -/

/-- The final step: Belay in reset, last gasp, every domain off but PD00, PD01 and PD03. -/
def State.finalStep (s : State) (cause : Nat) : State :=
  if s.f R.PMU_STAT_STEP = 5 then s
  else
    let s := s.domainOff 2
    let s := s.requestLastGasp cause
    let s := (s.mlsStep 5 s.gnow).raise R.PMU_STAT_JUMP
    let s := s.saveAbandon
    let s := s.modPmu (fun p => { p with off4 := false, saveWait := false, cur := none, rst := none, why := 4 })
    forEach pdOrder.reverse (fun d s =>
      if 4 ≤ d && bit (s.f R.PMU_PD_STAT_PD) d then s.domainOff d else s) s

/-- What waits for the logline: the write of step 3; in step 4 and in the final step the power goes once its records are
committed (R450, R451). -/
def State.afterCommit (s : State) : State :=
  let s := s.saveWhenEmpty
  let done := s.log.held = 0 && s.log.committing.isNone
  if s.pmu.off4 && s.log.held = 0 then s.powerOff
  else if s.f R.PMU_STAT_STEP = 5 && done && s.log.gaspDone then s.powerOff
  else s

/-- Rail `k` has left regulation (R439). -/
def State.railFault (s : State) (k : Nat) : State :=
  let s := s.set R.PMU_RAIL_STAT_RAIL_FAULT (s.f R.PMU_RAIL_STAT_RAIL_FAULT ||| 2 ^ k)
  let s := s.set R.PMU_RAIL_STAT_IN_REG (s.f R.PMU_RAIL_STAT_IN_REG &&& (127 ^^^ 2 ^ k))
  (s.pmuReport 0 k clsSafety [k, s.reg R.PMU_RAIL_STAT]).finalStep 1

/-! ## DC buses (R447 to R449) -/

def State.busAxis (s : State) (j n : Nat) : Bool := bit (s.f (R.BUS_AXMASK j (n / 32))) (n % 32)

/-- VBUS of bus `j` from the landings or the conversion of cycle `n`; `none` without one. -/
def State.busVoltage (s : State) (j n : Nat) : Option Nat :=
  if s.on (R.BUS_CFG_KIND j) then
    let k := s.f (R.BUS_CFG_ADC j)
    let i := s.f (R.BUS_CFG_AIN j)
    if SMap.get (fun _ => 0) s.pwr.adcCyc (128 * k + i) = n + 1 then
      let code := SMap.get (fun _ => 0) s.pwr.adc i
      some (F32.val (do F32.toRange 0 65535 (← F32.mul (s.w (R.BUS_SCALE j)) (← F32.ofInt code)))).toNat
    else none
  else
    ((List.range 256).filter (fun a => s.busAxis j a && (s.ax a).validCyc == some n)).foldl (fun m a =>
      let v := s.f (R.AX_FB3_VBUS a)
      match m with
      | none => some v
      | some w => some (min v w)) none

/-- A threshold's bit latches and EXT 66 is raised on the first cycle it is crossed (R447). -/
def State.busThreshold (s : State) (j k : Nat) (x : Fld) (crossed : Bool) (v : Nat) : State :=
  let key := 4 * j + k
  let was := SMap.get (fun _ => false) s.pmu.crossed key
  let s := s.modPmu (fun p => { p with crossed := SMap.put (fun _ => false) p.crossed key crossed })
  if crossed && !was then ((s.raise x).ext 66).pmuReport 4 j clsWarn [k, v] else s

/-- Bus `j` forms its voltage of cycle `n` at the next boundary (R447). -/
def State.busEval (s : State) (j n : Nat) : State :=
  let s := match s.busVoltage j n with
    | none => s.raise (R.BUS_STAT_STALE j)
    | some v => s.set (R.BUS_STAT_VBUS j) v
  let v := s.f (R.BUS_STAT_VBUS j)
  let s := forN 16 (fun i s => if bit (s.f (R.BUS_GANGMASK j)) i then s.set (R.PC_STP_VBUS (4 * i)) v else s) s
  let s := s.busThreshold j 2 (R.BUS_STAT_OV j) (decide (s.f (R.BUS_TH1_OV j) < v)) v
  let s := s.busThreshold j 1 (R.BUS_STAT_UVW j) (decide (v < s.f (R.BUS_TH1_UVW j))) v
  s.busThreshold j 0 (R.BUS_STAT_UVS j) (decide (v < s.f (R.BUS_TH2_UVS j))) v

/-- BUS_EVALUATE at the boundary of cycle `n + 1`, and the condition of R449. -/
def State.busBoundary (s : State) (n : Nat) : State :=
  let on := (List.range 32).filter (fun j => s.on (R.BUS_CFG_EN j))
  let s := forEach on (fun j s => s.busEval j n) s
  let mains := on.filter (fun j => s.on (R.BUS_CFG_MAINS j))
  if !mains.isEmpty && mains.all (fun j => decide (s.f (R.BUS_STAT_VBUS j) < s.f (R.BUS_TH2_UVS j))) then
    s.mainsFail (s.cstart s.grid)
  else s

/-- The node of axis `a` has collapsed, seen on bus `j` (R448): STO on every axis bound to it. -/
def State.nodeCollapse (s : State) (j a : Nat) : State :=
  if !(s.on (R.BUS_CFG_EN j) && !s.on (R.BUS_CFG_KIND j) && s.busAxis j a) then s
  else
    match s.boundNode a with
    | none => s
    | some (r, nd) =>
      let s := forEach (s.nodeAxes r nd) (fun n s => s.superAct n 2) s
      ((s.raise (R.BUS_STAT_COLL j)).pmuReport 5 j clsFault [r * 256 + nd]).ext 66

/-! ## Standby (R445, R440) -/

/-- A write of STANDBY.GO by DOM[0]: step 4 without steps 1 to 3. -/
def State.standbyGo (s : State) : State :=
  if 4 ≤ s.f R.PMU_STAT_STEP then s else (s.saveAbandon).mlsOff 1

/-- A wake (R445): of a device of which only PD00 is powered. -/
def State.wake (s : State) (alarm : Bool) : State :=
  if s.f R.PMU_PD_STAT_PD ≠ 1 then s
  else if alarm then (if s.on R.AON_STANDBY_ALARMEN then s.coldStart 2 true else s)
  else if s.on R.AON_STANDBY_AUTOWAKE then s.coldStart s.pmu.why true
  else s

/-- VAON changes over; without VIN and VBAT, PD00 resets (R440), and no regulator has a source (R438). -/
def State.vbatChange (s : State) (vin vbat : Bool) : State :=
  if vin || vbat then s
  else
    let s := s.powerOff.dropRegs (fun a => 0x10381000 ≤ a && a < 0x10382000)
    (s.clr R.BEL_STAT_SEAL_CNT).modPmu (fun p => { p with why := 0 })

/-! ## Register writes (R456) -/

/-- A write of the PMU block; `via`: from a control-core strand or the debug port (R441). -/
def State.pmuWrite (s : State) (via : Bool) (a v : Nat) : State :=
  if a = R.PMU_CTRL then
    let s := s.set R.PMU_CTRL_PFRECOVER (bits v 0 0)
    if bit v 2 then s.coldStart 5 false
    else if bit v 1 then s.mlsStart s.gnow
    else s
  else if a = R.PMU_PD_REQ_W then s.domainRequest (v % 2 ^ 24) via
  else if a = R.PMU_ISLRST then if bit v 31 then s.islandReset (v % 64) else s.set R.PMU_ISLRST_ISLAND (v % 64)
  else if 0x10380040 ≤ a && a < 0x103800C4 then s.oppChange ((a - 0x10380040) / 4) (v % 4)
  else if a = R.PMU_SAVE_CTRL then
    let s := s.set R.PMU_SAVE_CTRL_EN (bits v 0 0)
    if bit v 1 then s.saveBegin else s
  else if a = R.AON_STANDBY then
    let s := (s.set R.AON_STANDBY_ALARMEN (bits v 1 1)).set R.AON_STANDBY_AUTOWAKE (bits v 0 0)
    if bit v 31 then s.standbyGo else s
  else if 0x10381100 ≤ a && a < 0x10381110 then s
  else s.storeWrite a v

/-! ## Event commands -/

/-- RAIL_FAULT (R439). -/
def execRailFault (k : Fin 7) (s : State) : Res := .next (s.railFault k)
/-- DOMAIN_LEVEL_LOSS (R451): of PD01, PD02 or PD03. -/
def execDomainLevelLoss (d : Fin 24) (s : State) : Res :=
  .next (if 1 ≤ d.val && d.val ≤ 3 then
      (s.finalStep 2).set R.PMU_PD_STAT_PD ((s.finalStep 2).f R.PMU_PD_STAT_PD &&& (0xFFFFFF ^^^ 2 ^ d.val))
    else s)
/-- VBAT_CHANGEOVER (R440). -/
def execVbatChangeover (vin vbat : Bool) (s : State) : Res := .next (s.vbatChange vin vbat)
/-- DOMAIN_SWITCH_DONE (R442). -/
def execDomainSwitchDone (s : State) : Res := .next s.domainDone
/-- DOMAIN_SWITCH_TIMEOUT (R441). -/
def execDomainSwitchTimeout (s : State) : Res := .next s.domainTimeout
/-- ISLAND_RESET_DONE (R443). -/
def execIslandResetDone (s : State) : Res := .next s.islandResetDone
/-- OPP_CHANGE_DONE (R444). -/
def execOppChangeDone (s : State) : Res := .next s.oppDone
/-- WAKE (R445). -/
def execWake (alarm : Bool) (s : State) : Res := .next (s.wake alarm)
/-- NODE_COLLAPSE (R448). -/
def execNodeCollapse (j : Fin 32) (a : Fin 256) (s : State) : Res := .next (s.nodeCollapse j a)
/-- PF_ASSERT (R450): t_pf is now. -/
def execPfAssert (s : State) : Res := .next ((s.raise R.PMU_STAT_PF).mainsFail s.gnow)
/-- MLS_STOP_END (R450). -/
def execMlsStopEnd (s : State) : Res := .next s.mlsSto
/-- MLS_STO_END (R450). -/
def execMlsStoEnd (s : State) : Res := .next s.mlsSave
/-- MLS_SAVE_END (R450). -/
def execMlsSaveEnd (s : State) : Res := .next s.mlsSaveEnd
/-- PF_RELEASE (R452). -/
def execPfRelease (s : State) : Res := .next s.pfRelease
/-- SAVE_WRITE_DONE (R454). -/
def execSaveWriteDone (good : Bool) (s : State) : Res := .next (s.saveDone good)
/-- DEBUG_PORT_RESET (R20, R445). -/
def execDebugPortReset (s : State) : Res := .next (s.coldStart 6 false)

end Sys2Proof.Machine
end

