-- ==== Sys2Proof/Machine/HostIf.lean ====
section
/-! DEFINITION. The host interfaces (spec/19_boot_hosts_domains.md): the PCIe block's registers, DMA, the plant Ethernet port
with its PTP stamps (R234 to R237), the snapshot port. -/

namespace Sys2Proof.Machine

def State.modHost (s : State) (f : Hosts → Hosts) : State := { s with host := f s.host }

/-! ## Accesses of the hosts' engines -/

/-- The verdict on `n` bytes of memory at `a` for an engine's access (R26, R467, R469, R19). -/
def State.memVerdict (s : State) (who : Requester) (a n : Nat) (r : Right) : Verdict :=
  match s.range a, s.range (a + n - 1) with
  | none, _ => .outside
  | _, none => .outside
  | some g, some g' =>
    if g ≠ g' || !g.isMem then .refused
    else if !s.rangeRight who.dom g a n r then .noRights
    else if r = .write && (g = .mramLog || g = .mramData) then .refused
    else if !s.pdOn (pdOf g a) || !s.islOn (islOf g a) then .off (islOf g a)
    else if g = .outbound then (if s.on R.PCIE_STAT_BME && s.on R.PCIE_STAT_LINKUP then .ok else .refused)
    else if s.engOk islSYS who.dom a n r then .ok else .refused

/-- `n` bytes at `a`; what a PCIe address returns is free (R474). -/
def State.engRead (s : State) (a n : Nat) : List Byte × State :=
  if s.range a = some .outbound then ((List.range n).map (fun i => Config.freeByte s.free i), s.burn) else (s.bytes a n, s)

def State.engWrite (s : State) (a : Nat) (b : List Byte) : State :=
  if s.range a = some .outbound then
    s.modHost (fun h => { h with outSent := some (true, a - 0x800000000, b.length, leNat b) })
  else s.store a b

/-! ## DMA (R475, R476) -/

def State.dma (s : State) (k : Nat) : Option DmaCh := SMap.get (fun _ => none) (s.host.dma.map (fun x => (x.1, some x.2))) k

def State.setDma (s : State) (k : Nat) (x : Option DmaCh) : State :=
  s.modHost (fun h =>
    let l := h.dma.filter (fun y => y.1 != k)
    { h with dma := match x with | none => l | some c => l.filter (fun y => decide (y.1 < k)) ++ [(k, c)] ++ l.filter (fun y => decide (k < y.1)) })

def State.dmaWho (s : State) (k : Nat) : Requester := ⟨.dma, k, s.f (R.PCIE_CH_DOM_DOM k), none⟩

/-- A descriptor fault (R476). -/
def State.dmaFault (s : State) (k desc reason : Nat) : State :=
  let s := ((s.clr (R.PCIE_CH_STAT_BUSY k)).raise (R.PCIE_CH_STAT_FAULT k)).set (R.PCIE_CH_STAT_REASON k) reason
  let s := (s.set (R.PCIE_CH_FDESC_ADDR k) (desc / 32 % 2 ^ 27)).setDma k none
  s.hostReport 4 k clsWarn [desc % 2 ^ 32, desc / 2 ^ 32, reason]

/-- [a, a + n) lies in one window of the channel's domain with the right, or for DOM[0] in one range (R476). -/
def State.dmaSpan (s : State) (d a n : Nat) (r : Right) : Bool :=
  if d = 0 then
    match s.range a, s.range (a + n - 1) with
    | some g, some g' => g == g'
    | _, _ => false
  else s.memRight d a n r

/-- The descriptor at `a` is read and checked (R475, R476). -/
def State.dmaFetch (s : State) (k a : Nat) (stop : Bool) : State :=
  let who := s.dmaWho k
  match s.memVerdict who a 32 .read with
  | .ok =>
    let (b, s) := s.engRead a 32
    let c : DmaCh := { desc := a, src := leAt b 0 8, dst := leAt b 8 8, len := leAt b 16 4, ctrl := leAt b 20 4, next := leAt b 24 8, stop := stop }
    if c.len = 0 || 16777216 < c.len then s.dmaFault k a 1
    else if !s.dmaSpan who.dom c.src c.len .read then s.dmaFault k a 2
    else if !s.dmaSpan who.dom c.dst c.len .write then s.dmaFault k a 3
    else (s.setDma k (some c)).raise (R.PCIE_CH_STAT_BUSY k)
  | vd => (s.refuse vd who a false).dmaFault k a 4

/-- A write of CTRL.GO starts the chain at HEAD; a running channel runs on. -/
def State.dmaStart (s : State) (k : Nat) : State :=
  if (s.dma k).isSome then s
  else s.dmaFetch k (32 * s.f (R.PCIE_CH_HEAD_LO_HEAD k) + 2 ^ 32 * s.f (R.PCIE_CH_HEAD_HI_HEAD k)) false

/-- A write of CTRL.STOP ends the chain after the current descriptor. -/
def State.dmaStop (s : State) (k : Nat) : State :=
  match s.dma k with
  | none => s
  | some c => s.setDma k (some { c with stop := true })

/-- Bytes are copied in ascending order, each read before it is written, up to the first access error. -/
def State.dmaCopy (s : State) (who : Requester) (src dst : Nat) : Nat → Bool × State
  | 0 => (true, s)
  | n + 1 =>
    match s.memVerdict who src 1 .read with
    | .ok =>
      let (b, s) := s.engRead src 1
      match s.memVerdict who dst 1 .write with
      | .ok => (s.engWrite dst b).dmaCopy who (src + 1) (dst + 1) n
      | vd => (false, s.refuse vd who dst true)
    | vd => (false, s.refuse vd who src false)

/-- The descriptor's transfer ends (R476). -/
def State.dmaDone (s : State) (k : Nat) : State :=
  match s.dma k with
  | none => s
  | some c =>
    match s.dmaCopy (s.dmaWho k) c.src c.dst c.len with
    | (false, s) => s.dmaFault k c.desc 5
    | (true, s) =>
      let stop := match s.dma k with | some c' => c'.stop | none => c.stop
      let s := if bit c.ctrl 30 then s.fillTag (bits c.ctrl 13 0) (c.desc % 2 ^ 32) else s
      let s := if bit c.ctrl 31 then s.ext (131 + k) else s
      if stop || c.next = 0 then ((s.setDma k none).clr (R.PCIE_CH_STAT_BUSY k)).raise (R.PCIE_CH_STAT_DONE k)
      else s.dmaFetch k c.next false

/-! ## PTP messages (R234, R235, R237) -/

/-- A PTP message in a frame: offset of its header, transport (0 802.3, 1 UDP/IPv4), UDP header offset, event. -/
structure PtpMsg where
  ofs : Nat
  udp : Option Nat
  deriving DecidableEq, Repr

/-- Where a frame's PTP message lies, past at most one IEEE 802.1Q tag (R234, R477). -/
def ptpFind (f : List Byte) : Option PtpMsg :=
  let o := if beAt f 12 2 = 0x8100 then 18 else 14
  let ty := beAt f (o - 2) 2
  if ty = 0x88F7 then some ⟨o, none⟩
  else if ty = 0x0800 then
    let ihl := 4 * (leAt f o 1 % 16)
    let port := beAt f (o + ihl + 2) 2
    if leAt f (o + 9) 1 = 17 && (port = 319 || port = 320) then some ⟨o + ihl + 8, some (o + ihl)⟩ else none
  else none

def ptpType (f : List Byte) (m : PtpMsg) : Nat := leAt f m.ofs 1 % 16
def ptpSeq (f : List Byte) (m : PtpMsg) : Nat := beAt f (m.ofs + 30) 2

/-- Sync, Delay_Req, Pdelay_Req and Pdelay_Resp. -/
def ptpEvent (f : List Byte) (m : PtpMsg) : Bool := ptpType f m ≤ 3

/-- The instance a message matches: EN, its transport, domainNumber, and majorSdoId when AS = 1 (R235). -/
def State.ptpInst (s : State) (f : List Byte) (m : PtpMsg) : Option Nat :=
  firstIdx 2 (fun i =>
    let tr := s.f (R.PTP_PCFG_TRANSPORT i)
    s.on (R.PTP_PCFG_EN i) && (tr == 2 || tr == b2n m.udp.isSome) &&
      s.f (R.PTP_PCFG_DOMNUM i) == leAt f (m.ofs + 4) 1 &&
      (!s.on (R.PTP_PCFG_AS i) || s.f (R.PTP_PCFG_SDOID i) == leAt f m.ofs 1 / 16))

/-- The stamp of a message of instance `i` in 1/16 ns, corrected by the board's delay, within ±1 ns (R236). -/
def State.ptpStamp (s : State) (i : Nat) (corr : Int) : Int :=
  ((s.dom i).phase / 16000000000000 : Nat) + corr + (((Config.freeWord s.free).toNat % 33 : Nat) - 16)

/-- The stamp enters a FIFO. -/
def State.ptpNote (s : State) (tx : Bool) (i : Nat) (f : List Byte) (m : PtpMsg) (t16 : Int) : State :=
  s.ptpEnter tx i ⟨u32 (t16 / 16), (t16 % 16).toNat, ptpSeq f m, ptpType f m⟩

/-- correctionField increased by `d` in 1/16 ns (the field counts 2^−16 ns). -/
def ptpCorrect (f : List Byte) (m : PtpMsg) (d : Int) : List Byte :=
  patch f (m.ofs + 8) (beBytes 8 (uw 64 ((beAt f (m.ofs + 8) 8 : Int) + 4096 * d)))

/-- The UDP checksum of a changed message is 0 (R237). -/
def ptpUdp (f : List Byte) (m : PtpMsg) : List Byte :=
  match m.udp with
  | some u => patch f (u + 6) (beBytes 2 0)
  | none => f

/-- What a leaving message gets in flight (R237): the frame to send, or none where its epoch is not valid. `req` is the
request stamp of the descriptor in 1/16 ns. -/
def State.ptpOneStep (s : State) (i : Nat) (f : List Byte) (m : PtpMsg) (t16 req : Int) : Option (List Byte) :=
  if !s.on (R.PTP_PCFG_ONESTEP i) then some f
  else if ptpType f m = 0 then
    match s.ptpTime i (u32 (t16 / 16)) with
    | none => none
    | some (sec, ns) =>
      let f := patch f (m.ofs + 34) (beBytes 6 sec ++ beBytes 4 ns)
      some (ptpUdp (ptpCorrect f m (t16 % 16)) m)
  else if ptpType f m = 3 then some (ptpUdp (ptpCorrect f m (sw 36 (t16 - req))) m)
  else some f

/-! ## Plant Ethernet (R477, R478) -/

def State.ethWho (s : State) : Requester := ⟨.port, 1, s.f R.PCIE_ETH_CTRL_DOM, none⟩

/-- The port runs: PD14 on and EN = 1. -/
def State.ethOn (s : State) : Bool := s.pdOn 14 && s.on R.PCIE_ETH_CTRL_EN

/-- QFAULT bit of a queue: TX0, TX1, RX0, RX1. -/
def qfault (rx : Bool) (q : Nat) : Fld := ⟨R.PCIE_ETH_STAT, 2 + 2 * b2n rx + q, 2 + 2 * b2n rx + q⟩

/-- A queue stands: its QFAULT is set, or no TAIL has been written since it was cleared (R478). -/
def State.queueStopped (s : State) (rx : Bool) (q : Nat) : Bool :=
  s.on (qfault rx q) || bit s.host.qstop (2 * b2n rx + q)

/-- A write of a queue's TAIL restarts it once QFAULT is clear (R478). -/
def State.queueTail (s : State) (rx : Bool) (q : Nat) : State :=
  if s.on (qfault rx q) then s
  else s.modHost (fun h => { h with qstop := h.qstop &&& (15 ^^^ 2 ^ (2 * b2n rx + q)) })

/-- A queue stops on a fault (R478). -/
def State.queueFault (s : State) (rx : Bool) (q : Nat) : State :=
  ((s.raise (qfault rx q)).modHost (fun h => { h with qstop := h.qstop ||| 2 ^ (2 * b2n rx + q) })).hostReport 7 (2 * b2n rx + q) clsWarn [2 * b2n rx + q]

/-- The broadcast address, an enabled MACF entry, or the multicast hash (R477). -/
def State.daMatch (s : State) (da : List Byte) : Bool :=
  let x := beNat da
  let h := crc32 da / 2 ^ 26
  x == 2 ^ 48 - 1 ||
    (List.range 16).any (fun i => s.on (R.PCIE_MACF_HI_EN i) &&
      s.f (R.PCIE_MACF_LO_LO i) + 2 ^ 32 * s.f (R.PCIE_MACF_HI_HI i) == x) ||
    (leAt da 0 1 % 2 == 1 && (if h < 32 then bit (s.f R.PCIE_MCHASH_LO_HASH) h else bit (s.f R.PCIE_MCHASH_HI_HASH) (h - 32)))

def State.rxDesc (s : State) (q : Nat) : Nat :=
  16 * s.f (R.PCIE_RXQ_BASE_LO q) + 2 ^ 32 * s.f (R.PCIE_RXQ_BASE_HI q) + 16 * s.f (R.PCIE_RXQ_HEAD q)
def State.txDesc (s : State) (q : Nat) : Nat :=
  16 * s.f (R.PCIE_TXQ_BASE_LO q) + 2 ^ 32 * s.f (R.PCIE_TXQ_BASE_HI q) + 16 * s.f (R.PCIE_TXQ_HEAD q)

/-- A ring index advanced. -/
def ringNext (i size : Nat) : Nat := if size ≤ i + 1 then 0 else i + 1

def State.rxDrop (s : State) : State := s.count R.PCIE_RX_DROP

/-- A frame that is kept goes to a receive descriptor of queue `q` (R477, R478). -/
def State.rxDeliver (s : State) (q : Nat) (body : List Byte) (stamped : Bool) : State :=
  let who := s.ethWho
  let a := s.rxDesc q
  if s.queueStopped true q || s.f (R.PCIE_RXQ_SIZE q) < 2 then s.rxDrop
  else
    match s.memVerdict who a 16 .read, s.memVerdict who a 16 .write with
    | .ok, .ok =>
      let (d, s) := s.engRead a 16
      let w1 := leAt d 4 4
      if !bit w1 31 then s.rxDrop
      else
        let buf := leAt d 0 4 + 2 ^ 32 * bits w1 19 0
        match s.memVerdict who buf 1536 .write with
        | .ok =>
          let s := s.engWrite buf body
          let s := s.engWrite a (leBytes 4 (leAt d 0 4) ++ leBytes 4 (w1 % 2 ^ 31) ++
            leBytes 4 (b2n stamped * 4096 + body.length) ++ leBytes 4 0)
          let s := s.set (R.PCIE_RXQ_HEAD q) (ringNext (s.f (R.PCIE_RXQ_HEAD q)) (s.f (R.PCIE_RXQ_SIZE q)))
          (s.count R.PCIE_RX_OK).ext 139
        | vd => (s.refuse vd who buf true).queueFault true q
    | .ok, vd => (s.refuse vd who a true).queueFault true q
    | vd, _ => (s.refuse vd who a false).queueFault true q

/-- PLANT_FRAME_RECEIVE (R477, R235): a frame with its FCS. -/
def State.plantReceive (s : State) (f : List Byte) : State :=
  if !s.ethOn then s
  else
    let n := f.length
    if n < 64 || 1522 < n then s.rxDrop
    else if crc32 (f.take (n - 4)) ≠ leAt f (n - 4) 4 then s.count R.PCIE_RX_FCS
    else if beAt f 12 2 = 0x8808 && beAt f 14 2 = 1 then s.count R.PCIE_PAUSE_DROP
    else if !s.daMatch (f.take 6) then s
    else
      let body := f.take (n - 4)
      match ptpFind f with
      | none => s.rxDeliver 1 body false
      | some m =>
        match s.ptpInst f m with
        | none => s.rxDeliver 1 body false
        | some i =>
          if ptpEvent f m then
            let t := s.ptpStamp i (-(s.f (R.PTP_LAT_RXLAT i) : Int))
            (s.burn.ptpNote false i f m t).rxDeliver 0 body true
          else s.rxDeliver 0 body false

/-- A transmit descriptor of queue `q` completes: OWN clears, the head moves on. -/
def State.txComplete (s : State) (q a : Nat) (d : List Byte) : State :=
  let s := s.engWrite a (leBytes 4 (leAt d 0 4) ++ leBytes 4 (leAt d 4 4 % 2 ^ 31) ++ slice d 8 8)
  let s := s.set (R.PCIE_TXQ_HEAD q) (ringNext (s.f (R.PCIE_TXQ_HEAD q)) (s.f (R.PCIE_TXQ_SIZE q)))
  s.ext 140

/-- The frame of a descriptor leaves, with its FCS. -/
def State.txSend (s : State) (f : List Byte) : State :=
  (s.count R.PCIE_TX_OK).modHost (fun h => { h with txSent := f ++ leBytes 4 (crc32 f) })

/-- The frame of a descriptor as software wrote it: PTP stamps and one-step changes by the descriptor's instance INST, then the
wire (R235, R237, R477). -/
def State.txFrame (s : State) (f : List Byte) (w1 w2 w3 : Nat) : State :=
  match ptpFind f with
  | none => s.txSend f
  | some m =>
    if !ptpEvent f m then s.txSend f
    else
      let i := bits w2 12 12
      let t := s.ptpStamp i (s.f (R.PTP_LAT_TXLAT i))
      let s := s.burn
      let s := if bit w1 30 then s.ptpNote true i f m t else s
      match s.ptpOneStep i f m t (16 * (w3 : Int) + bits w2 19 16) with
      | some f => s.txSend f
      | none => (s.count (R.PTP_EPOCHERR i)).report (srcOf 6 (3 * 64 + i)) clsWarn (s.f R.PCIE_ETH_CTRL_DOM) [i]

/-- PLANT_TX_DONE (R478): the descriptor at the head of queue `q`. -/
def State.plantTx (s : State) (q : Nat) : State :=
  let who := s.ethWho
  let a := s.txDesc q
  if !s.ethOn || s.queueStopped false q || s.f (R.PCIE_TXQ_SIZE q) < 2 then s
  else
    let fault := fun (s : State) => (s.queueFault false q).ext 140
    match s.memVerdict who a 16 .read, s.memVerdict who a 16 .write with
    | .ok, .ok =>
      let (d, s) := s.engRead a 16
      let w1 := leAt d 4 4
      let w2 := leAt d 8 4
      let len := bits w2 10 0
      if !bit w1 31 then s
      else if len < 60 || 1518 < len then fault s
      else
        let buf := leAt d 0 4 + 2 ^ 32 * bits w1 19 0
        match s.memVerdict who buf len .read with
        | .ok =>
          let (f, s) := s.engRead buf len
          (s.txFrame f w1 w2 (leAt d 12 4)).txComplete q a d
        | vd => fault (s.refuse vd who buf false)
    | .ok, vd => fault (s.refuse vd who a true)
    | vd, _ => fault (s.refuse vd who a false)

/-! ## Snapshot port (R479 to R483) -/

/-- A firing of a mark with SNAP, or SWAPNOW (R481): `cyc` and `stamp` name the firing; firings in one instant count as one. -/
def State.snapFire (s : State) (cyc stamp : Nat) : State :=
  if !s.pdOn 22 then s
  else if s.host.fill.any (fun x => x.1 == cyc && x.2.1 == stamp) then s
  else if s.host.fill.isSome then (s.raise R.SNP_STAT_OVR).hostReport 8 0 clsWarn [cyc]
  else
    let xs := if s.on R.SNP_CTRL_AXFILL then (List.range 256).map (fun n => uw 64 (s.xAct n)) else []
    (s.raise R.SNP_STAT_COPY).modHost (fun h => { h with fill := some (cyc, stamp, xs) })

/-- Words of the back buffer. -/
def putBytes (m : List Host.Cell) (a : Nat) : List Byte → List Host.Cell
  | [] => m
  | b :: bs => putBytes (SMap.put memDflt m a b) (a + 1) bs

def getWord (m : List Host.Cell) (a : Nat) : Nat := leNat ((List.range 4).map (fun i => SMap.get memDflt m (a + i)))

/-- Positions as SNP.DOM may read them (R178). -/
def State.snapAxes (s : State) (xs : List Nat) : List Byte :=
  (xs.zip (List.range 256)).map (fun x =>
    leBytes 8 (if s.axRight (s.f R.SNP_CTRL_DOM) (0x10000000 + 0x1000 * x.2 + 0x620) false then x.1 else 0)) |>.flatten

/-- The fill ends and the buffers are exchanged; a refused source skips the swap (R481). -/
def State.snapSwap (s : State) : State :=
  match s.host.fill with
  | none => s
  | some (cyc, stamp, xs) =>
    let who : Requester := ⟨.port, 2, s.f R.SNP_CTRL_DOM, none⟩
    let src := 4 * s.f R.SNP_SRC_OFS
    let len := min (s.f R.SNP_LEN_LEN) 63228 -- a larger LEN: notes/assumptions/2066.md
    let s := (s.clr R.SNP_STAT_COPY).modHost (fun h => { h with fill := none })
    match (if len = 0 then Verdict.ok else s.memVerdict who src len .read) with
    | .ok =>
      let m := putBytes s.host.back 0x100 (s.snapAxes xs)
      let m := putBytes m 0x900 (s.bytes src len)
      let m := putBytes (putBytes (putBytes m 0 (leBytes 4 cyc)) 0xFFFC (leBytes 4 cyc)) 4 (leBytes 4 stamp)
      let s := (s.set R.SNP_LASTCYC cyc).set R.SNP_LASTSTAMP stamp
      s.modHost (fun h => { h with front := m, back := h.front })
    | vd => (s.refuse vd who src false).hostReport 8 0 clsWarn [cyc]

/-- The word a bus read returns (R479). -/
def State.snapRead (s : State) (word : Nat) : Nat :=
  let o := 4 * word
  if !s.on R.SNP_CTRL_EN then 0
  else if o < 0x10000 then getWord s.host.front o
  else if o = 0x11000 then b2n (s.on R.SNP_STAT_MBFULL) * 2 ^ 31 + s.f R.SNP_MBX_DBSEQ
  else 0

/-- A host write (R483). -/
def State.snapWrite (s : State) (word v : Nat) : State :=
  let o := 4 * word
  if !s.pdOn 22 || !s.on R.SNP_CTRL_EN || o < 0x10000 || 0x11000 ≤ o then s
  else if s.on R.SNP_STAT_MBFULL then s.count R.SNP_MB_DROP
  else
    let s := s.setReg (0x103B1000 + (o - 0x10000)) v
    if o = 0x10FFC then ((s.raise R.SNP_STAT_MBFULL).bump R.SNP_MBX_DBSEQ).ext 141 else s

/-- A write of the snapshot port block (R487). -/
def State.snpWrite (s : State) (d a v : Nat) : State :=
  if a = R.SNP_CTRL then
    let s := if d = 0 then s.set R.SNP_CTRL_DOM (bits v 15 8) else s
    let s := (s.set R.SNP_CTRL_AXFILL (bits v 1 1)).set R.SNP_CTRL_EN (bits v 0 0)
    if bit v 31 then s.snapFire s.cyc s.gnow else s
  else if a = R.SNP_SRC_W then s.set R.SNP_SRC_OFS (bits v 23 2)
  else if a = R.SNP_LEN_W then s.set R.SNP_LEN_LEN (bits v 15 0)
  else if a = R.SNP_MBX then if bit v 31 then s.clr R.SNP_STAT_MBFULL else s
  else s

/-! ## PCIe (R472 to R474) -/

/-- A write of the PCIe and plant Ethernet block (R486). -/
def State.pcieWrite (s : State) (a v : Nat) : Wr :=
  if a = R.PCIE_CTRL then
    let s := if s.on R.PCIE_CTRL_LINKEN then s else s.set R.PCIE_CTRL_NUMVF (bits v 7 1)
    (.ok, s.set R.PCIE_CTRL_LINKEN (bits v 0 0))
  else if a = R.PCIE_ID then (.ok, if s.on R.PCIE_CTRL_LINKEN then s else s.setReg a v)
  else if 0x103C0100 ≤ a && a < 0x103C0500 && a % 0x10 == 0 then
    if R.PCIE_FN_CFG 0 < a && bits v 23 16 = 0 then (.refused, s) else (.ok, s.storeWrite a v)
  else if 0x103C0500 ≤ a && a < 0x103C0600 then
    (.ok, s.modHost (fun h => { h with msix := some ((a - 0x103C0500) / 4, v % 8) }))
  else if 0x103C1000 ≤ a && a < 0x103C1100 && a % 0x20 == 0x0C then
    let k := (a - 0x103C1000) / 0x20
    let s := if bit v 0 then s.dmaStart k else s
    (.ok, if bit v 1 then s.dmaStop k else s)
  else if a = R.PCIE_TXQ_TAIL_W 0 || a = R.PCIE_TXQ_TAIL_W 1 then
    (.ok, (s.plainWrite a v).queueTail false ((a - R.PCIE_TXQ_TAIL_W 0) / 0x20))
  else if a = R.PCIE_RXQ_TAIL_W 0 || a = R.PCIE_RXQ_TAIL_W 1 then
    (.ok, (s.plainWrite a v).queueTail true ((a - R.PCIE_RXQ_TAIL_W 0) / 0x20))
  else (.ok, s.plainWrite a v)

/-- A host's doorbell write (R473, R459). -/
def State.doorbell (s : State) (f v : Nat) : State :=
  if !s.pdOn 14 then s
  else if f = 0 && s.boot.waitHost then s.bootDoorbell v
  else if s.on (R.PCIE_FN_CFG_DBTAGEN f) then s.fillTag (s.f (R.PCIE_FN_DB_TAG_TAG f)) v
  else s.ext (67 + f)

/-- The link changes state (R484); Bus Master Enable is the host's to set and no command gives it. -/
def State.pcieLink (s : State) (up : Bool) (gen width : Nat) : State :=
  let s := ((s.setB R.PCIE_STAT_LINKUP up).set R.PCIE_STAT_GEN gen).set R.PCIE_STAT_WIDTH width
  let bme := up && (Config.freeWord s.free).toNat % 2 == 1
  let s := (s.setB R.PCIE_STAT_BME bme).burn
  s.hostReport 6 0 clsInfo [s.reg R.PCIE_STAT]

/-- An outbound read is not completed in time (R474). -/
def State.outboundTimeout (s : State) : State :=
  match s.host.outRead with
  | none => s
  | some _ =>
    ((s.modHost (fun h => { h with outRead := none })).hostReport 5 0 clsWarn []).answer .accessError

/-! ## Event commands -/

/-- PCIE_DOORBELL (R473). -/
def execPcieDoorbell (f : Fin 64) (v : Word) (s : State) : Res := .next (s.doorbell f v.toNat)
/-- PCIE_OUTBOUND_TIMEOUT (R474). -/
def execPcieOutboundTimeout (s : State) : Res := .next s.outboundTimeout
/-- PCIE_LINK_CHANGE (R484). -/
def execPcieLinkChange (up : Bool) (gen width : BitVec 3) (s : State) : Res :=
  .next (if s.pdOn 14 then s.pcieLink up gen.toNat width.toNat else s)
/-- DMA_DESCRIPTOR_DONE (R476). -/
def execDmaDescriptorDone (k : Fin 8) (s : State) : Res := .next (s.dmaDone k)
/-- PLANT_FRAME_RECEIVE (R477). -/
def execPlantFrameReceive (frame : List Byte) (s : State) : Res := .next (s.plantReceive frame)
/-- PLANT_TX_DONE (R478). -/
def execPlantTxDone (q : Fin 2) (s : State) : Res := .next (s.plantTx q)
/-- SNAPSHOT_READ (R480). -/
def execSnapshotRead (word : BitVec 20) (s : State) : Res :=
  .next (if s.pdOn 22 then s.answer (.data (s.snapRead word.toNat)) else s.answer .none)
/-- SNAPSHOT_WRITE (R483). -/
def execSnapshotWrite (word : BitVec 20) (data : Word) (s : State) : Res := .next (s.snapWrite word.toNat data.toNat)
/-- SNAPSHOT_SWAP (R481). -/
def execSnapshotSwap (s : State) : Res := .next s.snapSwap

end Sys2Proof.Machine
end

