-- ==== Sys2Proof/Machine/Pins.lean ====
section
/-! DEFINITION. The pin mux (R493 to R497): staged writes, pin commits, and the switch of a pin's function. -/

namespace Sys2Proof.Machine

/-- The staged bits of PIN[p]. -/
def pinMask : Nat := 0x33F80

def pinFunc (w : Nat) : Nat := bits w 17 16

/-- A reserved value of FUNC, REST or PULL (R493). -/
def pinReserved (w : Nat) : Bool := pinFunc w == 3 || bits w 13 12 == 3 || bits w 11 10 == 3

/-- The item of a bank pin is in use (R496): its channel or group is enabled, or the bank's synchronisation. -/
def State.pinInUse (s : State) (p : Nat) : Bool :=
  let b := p / 90
  let l := p % 90
  if l < 80 then s.on (R.PC_CTRL_EN (16 * b + l / 5))
  else if l < 88 then s.on (R.HG_CTRL_EN (4 * b + (l - 80) / 2))
  else (List.range 16).any (fun j =>
    let c := 16 * b + j
    s.on (R.PC_CTRL_EN c) && (s.fa (R.PC_CTRL_SYNC c) == 2 || s.onA (R.PC_CTRL_SOUT c)))

/-- A change of FUNC of pin `p` to that of word `w` is refused (R496). -/
def State.pinRefused (s : State) (p w : Nat) : Bool :=
  p < 360 && pinFunc w != s.fa (R.PIN_PIN_FUNC p) && (!s.safeOff (p / 90) || s.pinInUse p)

/-- REJ, and the first refused pin (R496). -/
def State.pinReject (s : State) (p : Nat) : State :=
  let s := s.raise R.PIN_STAT_REJ
  if s.on R.PIN_REJPIN_VALID then s else (s.set R.PIN_REJPIN_PIN p).raise R.PIN_REJPIN_VALID

/-- The staged fields of pin `p` take effect, or are not taken (R494 to R496). -/
def State.pinTake (s : State) (p : Nat) : Take × State :=
  let a := R.PIN_PIN p
  let w := s.reg a &&& pinMask
  if w = s.actReg a &&& pinMask then (.ok, s)
  else if pinReserved w then (.value, s.raise R.PIN_STAT_CFGERR)
  else if s.pinRefused p w then (.state, s.pinReject p)
  else
    let old := s.fa (R.PIN_PIN_FUNC p)
    let s := s.setActReg a (mergeBits (s.actReg a) w pinMask)
    let s := if pinFunc w = old then s
      else { s with pwr := { s.pwr with resting := s.pwr.resting.filter (fun x => x.1 != p) ++ [(p, old)] } }
    (.ok, s)

/-- A pin commit: every pin whose staged copy differs (R494). -/
def State.pinCommit (s : State) : State := forN 488 (fun p s => (s.pinTake p).2) s

/-- The commit that CMT.GO asked for acts at the boundary of cycle `n`. -/
def State.pinBoundary (s : State) (n : Nat) : State :=
  if s.on R.PIN_STAT_BUSY then ((s.clr R.PIN_STAT_BUSY).pinCommit).set R.PIN_CMT_CYC n else s

/-- Two island clocks after a change of FUNC the new function drives the pin (R495). -/
def State.pinRestEnd (s : State) (p : Nat) : State :=
  { s with pwr := { s.pwr with resting := s.pwr.resting.filter (fun x => x.1 != p) } }

/-- A write of PIN[p] at address `a`: refused, or OE and OUT act at once and the other fields are staged (R493, R494). -/
def State.pinWord (s : State) (p a v : Nat) : Wr :=
  let refused := s.pinRefused p v && pinFunc v != 3
  if refused then (.refused, s.pinReject p)
  else
    let s := if pinReserved v then s.raise R.PIN_STAT_CFGERR else s
    let s := ((s.set (R.PIN_PIN_OE p) (bits v 2 2)).set (R.PIN_PIN_OUT p) (bits v 1 1))
    (.ok, s.setReg a (mergeBits (s.reg a) v pinMask))

/-- A write of the pin-mux block (R493, R496). -/
def State.pinWrite (s : State) (a v : Nat) : Wr :=
  if a < 0x10390000 + 4 * 488 then s.pinWord ((a - 0x10390000) / 4) a v
  else if a = R.PIN_CMT then
    let s := if bit v 1 then s.pinCommit else s
    (.ok, if bit v 0 then s.raise R.PIN_STAT_BUSY else s)
  else (.ok, s)

/-- HG_CP[g] (R342): a square wave of 400 MHz / (8 × (CPDIV + 1)) while the group is enabled with CPEN, else low. Its edges
keep to the TIM clock (notes/assumptions/2028.md). -/
def State.pumpLevel (s : State) (g : Nat) : Bool :=
  s.on (R.HG_CTRL_EN g) && s.on (R.HG_CTRL_CPEN g) && s.tim.clk / (10 * (s.fa (R.HG_CPCFG_CPDIV g) + 1)) % 2 == 1

/-- What pin `p` drives in its primary function, where that is an output of a bank or a TEO pin (R238, R320, R324, R342). -/
def State.primaryOut (s : State) (p : Nat) : Option Bool :=
  let b := p / 90
  let l := p % 90
  if p < 360 then
    if l < 80 then
      let c := 16 * b + l / 5
      if l % 5 = 0 then some (s.on (R.PC_STAT_PULSE_PIN c)) else if l % 5 = 1 then some (s.on (R.PC_STAT_EN_PIN c)) else none
    else if l < 88 then (if l % 2 = 0 then some (s.pumpLevel (4 * b + (l - 80) / 2)) else none)
    else if l = 89 then some (decide (0 < SMap.get (fun _ => 0) s.pwr.syncOut b))
    else none
  else if p < 392 then some (s.teoLevel (p - 360))
  else none

/-- The level of pin `p` as PIN[p].IN shows it: what the pin drives as an output of the P9, else the level outside. -/
def State.pinLevel (s : State) (p : Nat) : Bool :=
  if s.pwr.resting.any (fun x => x.1 == p) || s.fa (R.PIN_PIN_FUNC p) = 0 then
    match s.fa (R.PIN_PIN_REST p) with
    | 1 => false
    | 2 => true
    | _ => s.input p
  else if s.fa (R.PIN_PIN_FUNC p) = 2 && s.on (R.PIN_PIN_OE p) then s.on (R.PIN_PIN_OUT p)
  else if s.fa (R.PIN_PIN_FUNC p) = 1 then (s.primaryOut p).getD (s.input p)
  else s.input p

/-- PIN_SWITCH_REST_END (R495). -/
def execPinSwitchRestEnd (p : Fin 488) (s : State) : Res := .next (s.pinRestEnd p)

end Sys2Proof.Machine
end

