-- ==== Sys2Proof/Machine/BlockWrite.lean ====
section
/-! DEFINITION. What a permitted write does to a register of each block, by address range (R26), and what a read of one
returns and changes: the read views of values that are kept elsewhere. -/

namespace Sys2Proof.Machine

/-! ## Axis, channel and group registers -/

/-- The axis block (R178 to R197). The mode gates STRAND, FLOW and FB_TAG. -/
def State.axWrite (s : State) (a v : Nat) : Wr :=
  let n := (a - 0x10000000) / 0x1000
  match a % 0x1000 with
  | 0x040 => (.ok, s.axStatusW n v)
  | 0x050 => (.ok, if bit v 0 then s.axCntclr n else s)
  | 0x400 =>
    let s := s.storeWrite a v
    (.ok, if bit v 8 then s.modAx n (fun x => { x with rep := { x.rep with clr := true } }) else s)
  | 0x704 => if s.mode n = mOff then (.ok, s.plainWrite a v) else (.refused, s)
  | 0x708 => if s.mode n = mOff then (.ok, s.plainWrite a v) else (.refused, s)
  | _ => (.ok, s.plainWrite a v)

/-- Faults of a channel whose condition still holds cannot be cleared (R6, R330, R331). -/
def State.pcHeld (s : State) (c : Nat) : Nat :=
  b2n (s.bothOn c) + 2 * b2n (s.gateOn c true && s.gateOn c false) + 64 * b2n (!s.locked (islPB0 + c / 16))

/-- CNTCLR of a channel. -/
def State.pcCntclr (s : State) (c : Nat) : State := ((s.clr (R.PC_LATE_CNT c)).clr (R.PC_MPF_CNT c)).clr (R.PC_OC_CNT c)

/-- A write of SHOT_CTL (R336). -/
def State.shotCtl (s : State) (c v : Nat) : State :=
  let s := if bit v 0 then s.shotFlush c else s
  if bit v 1 then s.shotStop c else s

/-- A channel's registers (R347, "Stepper and chopper registers"). `who` may stop the halt-dwell timer (R346). -/
def State.pcWrite (s : State) (who : Requester) (a v : Nat) : State :=
  let c := (a - 0x10100000) / 0x100
  let s := s.dwellTouch c who
  match a % 0x100 with
  | 0x00 => (s.setReg a (putBits (mergeBits (s.reg a) v (regMask Acc.isRWS a)) 0 0 (s.reg a % 2))).chanEnable c (bit v 0)
  | 0x04 =>
    let w := bits v 6 0
    (s.setReg a (s.reg a &&& (0xFFFFFFFF ^^^ (w &&& (0x7F ^^^ (s.pcHeld c &&& 0x7F)))))).evalAround c
  | 0x40 => (s.plainWrite a v).thaw c
  | 0x44 => (s.set ⟨a, 2, 0⟩ v).evalAround c
  | 0x58 => s.set (R.PC_SHOT_T_T_ON c) v
  | 0x5C => s.shotPush c (v % 2 ^ 30)
  | 0x60 => s.shotCtl c v
  | 0x78 => if bit v 0 then s.pcCntclr c else s
  | _ => s.plainWrite a v

/-- CNTCLR of a group. -/
def State.hgCntclr (s : State) (g : Nat) : State := forN 5 (fun i s => s.setReg (R.HG_DEFER_CNT_W g + 4 * i) 0) s

/-- A group's registers (R348). -/
def State.hgWrite (s : State) (a v : Nat) : State :=
  let g := (a - 0x10110000) / 0x40
  match a % 0x40 with
  | 0x00 => (s.storeWrite a v).evalChan (s.hsChan g)
  | 0x04 => ((s.setReg a (s.reg a &&& (0xFFFFFFFF ^^^ (v % 2)))).evalChan (s.hsChan g)).syncGroup g
  | 0x2C => if bit v 0 then s.hgCntclr g else s
  | _ => s.plainWrite a v

/-! ## Domains and logline blocks -/

/-- The domains block (R471, R463, R464, R465, R469, R485). A command bit whose table states no reading is not left set here or in
any other block (DESIGN CHOICE, notes/assumptions/2035.md). -/
def State.domWrite (s : State) (a v : Nat) : Wr :=
  if a = R.DOM_DRAM then
    if s.pdOn 15 then (.refused, s)
    else (.ok, s.set R.DOM_DRAM_SIZE (v % 128))
  else if a = R.DOM_FUSEPROG then
    let s := s.storeWrite a v
    (.ok, if bit v 31 then s.fuseProgram else s)
  else if a = R.DOM_MWR_CTL then (.ok, if bit v 31 then s.mramWrite else s)
  else (.ok, s.plainWrite a v)

/-- A report of domain `d` through its window; SAFETY is stored as FAULT (R420). -/
def State.softReport (s : State) (d cls : Nat) : State :=
  s.report (srcOf 13 d) (min cls clsFault) d ((List.range 6).map (fun i => s.f (R.LW_DATA d i)))

/-- The logline block (R425, R426, R428, R436). -/
def State.llWrite (s : State) (a v : Nat) : State :=
  if a = R.LL_RD_SEQ_LO_W then
    let s := s.set R.LL_RD_SEQ_LO_SEQ v
    s.readStart (s.f64 R.LL_RD_SEQ_LO_SEQ R.LL_RD_SEQ_HI_SEQ) none
  else if a = R.LL_ERASE then (if bit v 31 then s.eraseGo (v % 16) else s.set R.LL_ERASE_CODE v)
  else if a = R.LL_RLIM_W 0 || a = R.LL_RLIM_W 9 then s
  else if 0x10368000 ≤ a then
    let d := (a - 0x10368000) / 0x80
    match a % 0x80 with
    | 0x18 =>
      let s := s.set (R.LW_GO_CLASS d) v
      if bit v 31 then s.softReport d (v % 4) else s
    | 0x20 =>
      let s := s.set (R.LW_SEQ_LO_SEQ d) v
      s.readStart (s.f64 (R.LW_SEQ_LO_SEQ d) (R.LW_SEQ_HI_SEQ d)) (some d)
    | _ => s.storeWrite a v
  else s.storeWrite a v

/-! ## Ring block -/

/-- The active unit loads the saved state before its first ring enters RUN (R411). -/
def State.restoreFirst (s : State) (a v : Nat) : State :=
  let r := (a - 0x10120000) / 0x4000
  if (a - 0x10120000) % 0x4000 = 0 && bits v 1 0 == 3 && s.rpSt r == rpConfig && s.duplexRing r && s.on R.DX_CTRL_RESTORE &&
      s.dxSt == dxActive && !s.duplexRings.any (fun q => s.cyclic q || (s.ring q).runAt.isSome) then s.restoreSaved
  else s

/-! ## Knot slots -/

/-- A network knot's slot that has changed state is mirrored (R219, R404). -/
def State.mirrorSlot (s old : State) (k : Nat) : State :=
  if s.kState k != old.kState k && (s.on (R.K_STAT_NETWORK k) || old.on (R.K_STAT_NETWORK k)) then s.mirrorKnot k none else s

/-- A write of the knot engine by domain `d`. -/
def State.knotWrite (s : State) (d a v : Nat) : Wr :=
  let r := s.keWrite d a v
  (r.1, r.2.mirrorSlot s ((a - 0x10301000) / 0x40 % 64))

/-! ## One write, by range -/

/-- The strand number a core's write carries (R315: SOFT names its sender). -/
def reqSender (who : Requester) : Nat := who.strand.getD 0

/-- The request comes from a control-core strand or the debug port (R441). -/
def reqVia (who : Requester) : Bool := reqIsDebug who || (who.kind == .core && who.index < 32)

/-- A permitted write of word `v` to the register at `a`. -/
def State.blockWrite (s : State) (who : Requester) (a v : Nat) : Wr :=
  match s.range a with
  | none => (.outside, s)
  | some g =>
    match g with
    | .ax => s.axWrite a v
    | .pc => (.ok, s.pcWrite who a v)
    | .hg => (.ok, s.hgWrite a v)
    | .ring => (.ok, (s.restoreFirst a v).ringWrite a v)
    | .dsp => s.dspWrite (reqSender who) a v
    | .ke => s.knotWrite who.dom a v
    | .tb => (.ok, s.tbWrite a v)
    | .tio => (.ok, s.tioWrite a v)
    | .bel => (.ok, s.belWrite a v)
    | .dx => (.ok, s.dxWrite a v)
    | .ll => (.ok, s.llWrite a v)
    | .fid => (.ok, s.fidWrite a v)
    | .pmu => (.ok, s.pmuWrite (reqVia who) a v)
    | .pin => s.pinWrite a v
    | .dom => s.domWrite a v
    | .snp => (.ok, s.snpWrite who.dom a v)
    | .pcie => s.pcieWrite a v
    | _ => (.ok, s)

/-! ## Reads -/

/-- Views of active copies (R9, "Axis block map", R493). -/
def State.actView (s : State) (g : Range) (a : Nat) : Option Nat :=
  let o := a % 0x1000
  match g with
  | .ax =>
    if o = 4 then some (s.actReg (a - 4))
    else if 0x100 ≤ o && o < 0x1C0 && o % 8 == 4 then some (s.actReg (a - 4))
    else none
  | .pin => if 0x10391000 ≤ a && a < 0x10391000 + 4 * 488 then some (s.actReg (a - 0x1000) &&& pinMask) else none
  | _ => none

/-- Views of input levels; each look at an input uses a fresh one. -/
def State.inView (s : State) (g : Range) (a : Nat) : Option Nat :=
  match g with
  | .pin => if a < 0x10390000 + 4 * 488 then some (putBits (s.reg a) 0 0 (b2n (s.pinLevel ((a - 0x10390000) / 4)))) else none
  | .bel => if a = R.BEL_STAT then some (putBits (s.reg a) 9 6 s.sealCode) else none
  | .pmu => if a = R.PMU_VIN_MEAS_W then some ((Config.freeWord s.free).toNat % 65536) else none
  | .pc =>
    if a % 0x100 = 4 then some (putBits (s.reg a) 22 22 (b2n (s.input (pcPin ((a - 0x10100000) / 0x100) 4))))
    else none
  | .hg => if a % 0x40 = 4 then some (putBits (s.reg a) 1 1 (b2n (s.input (hgPin ((a - 0x10110000) / 0x40) 1)))) else none
  | _ => none

/-- Views of state that is kept in another form. -/
def State.unitView (s : State) (g : Range) (a : Nat) : Option Nat :=
  match g with
  | .tb => s.timView a
  | .tio => s.timView a
  | .dsp => s.dspView a
  | .dx => s.dxView a
  | .pc => if a % 0x400 = 0xB0 then some (putBits (s.reg a) 1 1 (b2n (s.limStopBit ((a - 0x10100000) / 0x400)))) else none
  | .fid => if a = R.FID_ARMLEFT_W then some s.fidArmLeft else none
  | .ring =>
    let o := (a - 0x10120000) % 0x4000
    if 0x1000 ≤ o && o < 0x1800 && o % 0x20 == 0x1C then
      some (s.retryLeft ((a - 0x10120000) / 0x4000) ((o - 0x1000) / 0x20 + 1))
    else none
  | _ => none

/-- The word a read of the register at `a` sees. -/
def State.regView (s : State) (g : Range) (a : Nat) : Nat :=
  match s.actView g a with
  | some x => x
  | none =>
    match s.inView g a with
    | some x => x
    | none => (s.unitView g a).getD (s.reg a)

/-- What a read changes: RSK bits clear (R5), FIFO heads are removed (R240), the refused pin is forgotten (R493), a look at
an input is used up. -/
def State.readDoneAt (s : State) (g : Range) (a : Nat) : State :=
  let s := if (s.inView g a).isSome then s.burn else s
  let s := s.readEffect a
  match g with
  | .tb => s.timReadEffect a
  | .tio => s.timReadEffect a
  | .pin => if a = R.PIN_STAT then s.setReg R.PIN_REJPIN 0 else s
  | _ => s

/-- A permitted read of the register at `a`: WO fields, reserved bits and reserved addresses read 0 (R5, R7). -/
def State.blockRead (s : State) (g : Range) (a : Nat) : Nat × State :=
  match specOf a with
  | none => (0, s)
  | some fs => (plainRead fs (s.regView g a), s.readDoneAt g a)

end Sys2Proof.Machine
end

