-- ==== Sys2Proof/Machine/KnotCommit.lean ====
section
/-! DEFINITION. The commit of knots (R201, R204, R206 to R209, R211, R219): what each entry does at the boundary, value
failures and state refusals, the decision, and the registers a decided knot locks. -/

namespace Sys2Proof.Machine

/-! ## Registers taken alone -/

/-- What an outcome is to a knot (R208): a refused start is a failure of its values, or a refusal by the axis's state. -/
def Take.inKnot (a : Take) : Take :=
  match a with
  | .startValue => .value
  | .startState => .state
  | a => a

/-- The worse of two outcomes in a knot: a value failure, then a state refusal. -/
def Take.worse (a b : Take) : Take :=
  match a.inKnot, b.inKnot with
  | .value, _ => .value
  | _, .value => .value
  | .ok, b => b
  | a, _ => a

/-- A staged ring register (R57, R59, R207). -/
def State.ringTake (s : State) (a : Nat) : Take × State :=
  let r := (a - 0x10120000) / 0x4000
  if a = R.RING_CTRL r then s.takeTdom r
  else if a = R.RING_SCHED r then s.takeSched r
  else (.ok, s.take a)

/-- A staged channel register: its set is checked (R326); CMT_CYC holds the cycle. -/
def State.pcTake (s : State) (a c : Nat) : Take × State :=
  let r := s.pcTakeOne a
  if r.1 then (.ok, r.2.set (R.PC_CMT_CYC ((a - 0x10100000) / 0x100)) c) else (.state, r.2)

/-- A staged group register (R348). -/
def State.hgTakeOne (s : State) (a c : Nat) : Take × State :=
  let g := (a - 0x10110000) / 0x40
  let r := s.hgTake g [a]
  if r.1 then (.ok, r.2.set (R.HG_CMT_CYC g) c) else (.state, r.2)

/-- The table a knot's REP group names is refused (R171): the check of the next activation would fail on it as it stands. -/
def State.tableRefused (s : State) (n g : Nat) : Bool :=
  g == gREP && (s.ax n).rep.check && s.onA (R.AX_REP_CTRL_EN n) && !s.repTableOk n

/-- A group of an axis taken in a knot (R181, R208): a refused group is marked; a start that the axis's state refuses leaves its
group as it was; a table that is refused leaves the group taken. -/
def State.knotGroup (s : State) (n g c : Nat) : Take × State :=
  let r := s.axTake n g c
  if r.1 = .startState then (.state, (s.raise (R.AX_STATUS_PRFERR n)).cmtErr n g .state)
  else if r.1 = .ok && r.2.tableRefused n g then (.state, r.2)
  else (r.1.inKnot, r.2.cmtErr n g r.1)

/-- Groups of one axis taken in a knot. -/
def State.applyGroups (s : State) (n c : Nat) (gs : List Nat) : Take × State :=
  gs.foldl (fun p g =>
    let r := p.2.knotGroup n g c
    (p.1.worse r.1, r.2)) (.ok, s)

/-- A staged register that a WRITE entry names is taken at the boundary of cycle `c`: an axis register with its whole
group, any other alone (R201). -/
def State.takeStaged (s : State) (a c : Nat) : Take × State :=
  match s.range a with
  | some .ax =>
    let n := (a - 0x10000000) / 0x1000
    (match groupOf (a % 0x1000) with | some g => s.applyGroups n c [g] | none => (.ok, s))
  | some .pc => s.pcTake a c
  | some .hg => s.hgTakeOne a c
  | some .ring => s.ringTake a
  | some .pin => s.pinTake ((a - 0x10390000) / 4)
  | _ => (.ok, s.take a)

/-! ## Entries -/

/-- The owning domain of knot `k` as a requester of register writes. -/
def State.kWho (s : State) (k : Nat) : Requester := ⟨.core, 0, s.kDom k, none⟩

/-- The domain's rights at the boundary (R204). -/
def State.kRights (s : State) (k : Nat) (e : List Nat) : Bool :=
  let d := s.kDom k
  match kKind e with
  | 1 => s.domWrites d (kw e 1)
  | 5 => true
  | 6 => s.kNodeRights d (kRing e) (kAddr e)
  | _ => s.axRight d (R.AX_CTRL (kAxis e)) true

/-- The staged copy takes the word of a WRITE entry; TB.TCYC keeps within its limits (spec/09_time_base.md:146). -/
def State.stageWord (s : State) (a v : Nat) : State := if a = R.TB_TCYC_W then s.tbWrite a v else s.setReg a v

/-- A WRITE entry: the bits of MASK in staged fields go to the staged copy, which is then taken; those in RW fields are
written as an ordinary write. -/
def State.applyWrite (s : State) (k : Nat) (e : List Nat) (c : Nat) : Take × State :=
  let a := kw e 1
  let ms := kw e 3 &&& regMask Acc.isRWS a
  let mr := kw e 3 &&& regMask Acc.isRW a
  let r := if ms = 0 then (Take.ok, s) else (s.stageWord a (mergeBits (s.reg a) (kw e 2) ms)).takeStaged a c
  if mr = 0 then r
  else
    let stored := r.2.reg a &&& regMask Acc.isStored a
    let w := r.2.blockWrite (s.kWho k) a (mergeBits stored (kw e 2) mr)
    (r.1.worse (if w.1 = .ok then .ok else .state), w.2)

/-- One entry at the boundary of cycle `c` (R201). -/
def State.applyEntry (s : State) (k : Nat) (e : List Nat) (c : Nat) : Take × State :=
  let n := kAxis e
  if !s.kRights k e then (.state, s)
  else
    match kKind e with
    | 1 => s.applyWrite k e c
    | 2 => s.applyGroups n c (maskGroups (kw e 1))
    | 3 => (s.raise (R.AX_PRF_CTRL_GO n)).applyGroups n c [gPRF]
    | 4 => (s.set (R.AX_CTRL_MODE n) (kw e 1)).applyGroups n c [gCTRL]
    | 6 =>
      let r := kRing e
      let a := kAddr e
      if s.ntState r a = nfRejoined && !s.on (R.RING_NT_STATE_HASH_MISMATCH r (a - 1)) then 
        (.ok, forEach (s.nodeAxes r a) (fun n s => s.modAx n (fun x => { x with barred := false })) (s.setNt r a nfPresent))
      else (.value, s)
    | _ => (.ok, s)

/-- A refused entry: PARTIAL, ERRENT, a record (R208). -/
def State.kRefused (s : State) (k i : Nat) (e : List Nat) : State :=
  ((s.raise (R.K_STAT_PARTIAL k)).kErr k i).report (srcOf 4 (128 + k)) clsWarn (s.kDom k) [i, kw e 0, kw e 1]

/-- What a run over a knot's entries has found: the entries seen, the axes whose entries failed by their values and whether any
entry did, and the state the entries leave. -/
structure KRun where
  i : Nat := 0
  value : Bool := false
  bad : List Nat := []
  s : State

/-- One more entry. In a knot that is already decided (`decided`) a failure of its values refuses the entry only. -/
def KRun.entry (p : KRun) (k c : Nat) (decided : Bool) (e : List Nat) : KRun :=
  let t := p.s.applyEntry k e c
  match t.1 with
  | .ok | .startValue | .startState => { p with i := p.i + 1, s := t.2 }
  | .state => { p with i := p.i + 1, s := t.2.kRefused k p.i e }
  | .value =>
    if decided then { p with i := p.i + 1, s := t.2.kRefused k p.i e }
    else { i := p.i + 1, value := true, bad := p.bad ++ kEntryAxes e, s := t.2 }

/-- All entries in add order. -/
def State.applyKnot (s : State) (k c : Nat) (decided : Bool) : KRun :=
  (s.knot k).ents.foldl (fun p e => p.entry k c decided e) { s := s }

/-- Error bits of STATUS that a refused group sets: MODEERR, SPLITERR, PRFERR and PARERR (R181). -/
def statusErr : Nat := 0x2380

/-- Nothing of a VOID knot is applied, but the failures of its values are told (R100, R142, R146, R181): the error bits and CMT_ERR
of axis `n` as the run `t` left them. -/
def State.tellErrors (s t : State) (n : Nat) : State :=
  (s.setReg (R.AX_STATUS n) (s.reg (R.AX_STATUS n) ||| (t.reg (R.AX_STATUS n) &&& statusErr))).orF (R.AX_CMT_ERR_ERRGRP n)
    (t.f (R.AX_CMT_ERR_ERRGRP n))

/-- A knot whose values failed becomes VOID with reason CHECK. -/
def State.knotFailed (s : State) (k : Nat) (p : KRun) : State := (forEach p.bad (fun n s => s.tellErrors p.s n) s).knotVoid k rsnCheck

/-! ## Decision and locks (R209, R211) -/

/-- KNOT_DECIDE at t_dec(CCYC): ARMED reports, then the value checks on the staged copies as they stand. -/
def State.knotDecide (s : State) (k : Nat) : State :=
  if s.kState k ≠ kAnnounced then s
  else if !s.kArmed k then ((s.kDecision k false).knotVoid k rsnNotArmed).mirrorKnot k (some false)
  else
    let p := s.applyKnot k (s.f (R.K_CCYC k)) false
    if p.value then ((s.kDecision k false).knotFailed k p).mirrorKnot k (some false)
    else ((s.kDecision k true).setKState k kConfirm).mirrorKnot k (some true)

/-- A knot that has been decided GO and waits for its boundary. -/
def State.kLocking (s : State) (k : Nat) : Bool := s.kState k == kConfirm && !(s.knot k).committed

/-- Entry `e` covers the staged register at `a`. -/
def kCovers (e : List Nat) (a : Nat) : Bool :=
  let inGroups (n : Nat) (gs : List Nat) : Bool := gs.any (fun g => (groupRegs n g).contains a)
  match kKind e with
  | 1 =>
    if 0x10000000 ≤ kw e 1 && kw e 1 < 0x10100000 then
      kw e 1 / 0x1000 == a / 0x1000 && (groupOf (kw e 1 % 0x1000)).isSome && groupOf (kw e 1 % 0x1000) == groupOf (a % 0x1000)
    else kw e 1 == a && kw e 3 &&& regMask Acc.isRWS a != 0
  | 2 => inGroups (kAxis e) (maskGroups (kw e 1))
  | 3 => inGroups (kAxis e) [gPRF]
  | 4 => inGroups (kAxis e) [gCTRL]
  | _ => false

/-- The slots in use, by number. -/
def State.kSlots (s : State) : List Nat := (List.range 64).filter (fun k => s.kState k != kFree)

/-- The register at `a` is locked by a decided knot (R209). -/
def State.kLocked (s : State) (a : Nat) : Bool :=
  s.kSlots.any (fun k => s.kLocking k && (s.knot k).ents.any (fun e => kCovers e a))

/-! ## The boundary (R206, R208) -/

/-- The slot holds a network knot that this unit mirrors: it commits as R219 says. -/
def State.kMirrored (s : State) (k : Nat) : Bool := s.dxSt == dxStandby && s.on (R.K_STAT_NETWORK k)

/-- The knots that commit at cycle `c`, in the order of their CLOSE; a decided one that a splice has brought in late commits at once
(R219). -/
def State.kDue (s : State) (c : Nat) : List Nat :=
  (s.kSlots.filter (fun k => !s.kMirrored k &&
    ((s.kState k == kWait && s.f (R.K_CCYC k) == c) || (s.kLocking k && decide (0 ≤ dt c (s.f (R.K_CCYC k))))))).foldl
    (fun l k => insertBy (fun j => (s.knot j).order) k l) []

/-- The entries of a decided knot take effect. -/
def State.knotApply (s : State) (k c : Nat) : State := (s.applyKnot k c true).s.modKnot k (fun x => { x with committed := true })

/-- Knot `k` at its boundary: a local knot ends, DONE or VOID; a decided one is committed. -/
def State.knotCommit (s : State) (k c : Nat) : State :=
  if s.kState k = kWait then
    let r := s.applyKnot k c false
    if r.value then s.knotFailed k r else r.s.knotEnd k kDone
  else s.knotApply k c

/-- A standby commits its copy with the decision it holds (R219): of a header or its repeat as soon as the boundary CSTART(CCYC) has
passed; of the mirrored record once the cycle of the repeat has passed without one. -/
def State.knotStandby (s : State) (c : Nat) : State :=
  if s.dxSt ≠ dxStandby then s
  else
    forEach s.kSlots (fun k s =>
      match s.dx.decision k with
      | some (src, go) =>
        let after := dt c (s.f (R.K_CCYC k))
        if (s.knot k).committed || after < 0 || (src = 2 && after < 2) then s
        else
          let s := s.modDx (fun d => { d with kdec := d.kdec.filter (fun x => x.1 != k) })
          if go then s.knotApply k c else s
      | none => s) s

/-- Some knot that commits at cycle `c` covers the register at `a` (R206 step 1). -/
def State.kCoveredAt (s : State) (c a : Nat) : Bool :=
  (s.kDue c).any (fun k => (s.knot k).ents.any (fun e => kCovers e a))

def State.knotBoundary (s : State) (c : Nat) : State :=
  (forEach (s.kDue c) (fun k s => s.knotCommit k c) s).knotStandby c

end Sys2Proof.Machine
end

