-- ==== Sys2Proof/Machine/Release.lean ====
section
/-! DEFINITION. The release unit (spec/12_dispatcher.md, R307 to R310): the checks of a release, AXIS and SEQ flows. -/

namespace Sys2Proof.Machine

/-- A trace event of a release: its flow, TGT or SEQ, epoch and axis (R318). -/
def State.traceRel (s : State) (evt : Nat) (m : RelMsg) (flow arg axis : Nat) : State :=
  s.trace evt m.strand 63 flow arg m.epoch (axis % 256)

/-- A refused release: FLOW.REFUSED, and ACCESS_ASYNC for the strand with the record address. -/
def State.refuseRel (s : State) (m : RelMsg) (flow arg axis : Nat) : State :=
  let s := (s.count (R.FLOW_REFUSED flow)).traceRel 10 m flow arg axis
  s.modStrand m.strand (fun u => { u with errs := u.errs ++ [m.addr] })

/-- Releases a flow holds. -/
def State.heldOf (s : State) (f : Nat) : List Held := s.dsp.held.filter (fun h => h.flow == f)

/-- Flow overflow is reported (R308). -/
def State.flowOvf (s : State) (f arg : Nat) : State :=
  (s.count (R.FLOW_OVF f)).report (srcOf 4 (192 + f)) clsFault (s.f (R.FLOW_CTRL_DOM f)) [arg]

/-- The format of an AXIS record (R307). -/
def axisRecOk (m : RelMsg) : Bool :=
  m.addr % 16 == 0 && m.bytes.length == 48 && bits (leAt m.bytes 0 4) 27 16 == 48 && bits (leAt m.bytes 0 4) 15 8 == 0

/-- The format of a SEQ record (R307). -/
def seqRecOk (m : RelMsg) : Bool :=
  m.addr % 16 == 0 && 32 ≤ m.bytes.length && bits (leAt m.bytes 0 4) 27 16 == m.bytes.length &&
    bits (leAt m.bytes 4 4) 31 6 == 0

/-- An AXIS release arrives (R308). -/
def State.axisArrival (s : State) (m : RelMsg) : State :=
  let b := m.bytes
  let n := leAt b 0 1
  let tgt := leAt b 4 4
  let f := s.f (R.AX_STRAND_FLOW n)
  let w := s.f (R.TAG_VALUE (s.f (R.AX_FB_TAG_TAG n)))
  let stamp := s.axNow n
  if !(axisRecOk m && s.on (R.FLOW_CTRL_EN f) && s.f (R.FLOW_CTRL_KIND f) == 1 && m.dom == s.f (R.AX_OWNER_DOM n) &&
      m.dom == s.f (R.FLOW_CTRL_DOM f) && s.f (R.AX_STRAND_STRAND n) == m.strand) then s.refuseRel m f tgt n
  else if !s.inTime n tgt stamp then ((s.count (R.FLOW_LATE f)).traceRel 8 m f tgt n).lateRelease n tgt
  else if tgt ≠ (w + 2 ^ s.rateK n) % 2 ^ 32 then s.refuseRel m f tgt n
  else if 256 ≤ (s.heldOf f).length then (s.flowOvf f tgt).lateRelease n tgt
  else
    let s := (s.count (R.FLOW_ACCEPT f)).traceRel 7 m f tgt n
    s.acceptRelease ⟨f, n, tgt, stamp, sw 64 (leAt b 8 8), leAt b 16 4,
      (List.range 4).map (fun i => leAt b (20 + 2 * i) 2), (List.range 3).map (fun i => leAt b (28 + 2 * i) 2), b⟩

/-- A flow's ring buffer takes bytes into entry WRIDX, and WRIDX and NEXT advance (R310). -/
def State.seqWrite (s : State) (f : Nat) (b : List Byte) : State :=
  let elen := s.f (R.FLOW_ELEN_ELEN f)
  let nent := s.f (R.FLOW_ELEN_NENT f)
  let idx := s.f (R.FLOW_WRIDX f)
  let a := s.f64 (R.FLOW_DEST_LO f) (R.FLOW_DEST_HI f) + elen * idx
  let b := b.take elen
  let s :=
    if nent = 0 then s
    else if s.engOk islDSP (s.f (R.FLOW_CTRL_DOM f)) a b.length .write then s.store a b
    else s.engRefused (s.f (R.FLOW_CTRL_DOM f)) a b.length .write
  (s.set (R.FLOW_WRIDX f) (if nent = 0 then 0 else (idx + 1) % nent)).set (R.FLOW_NEXT f) (s.f (R.FLOW_NEXT f) + 1)

/-- Record NEXT, and the records held behind it, are delivered (R310). -/
def State.seqDrain (s : State) (f : Nat) : Nat → State
  | 0 => s
  | n + 1 =>
    let nx := s.f (R.FLOW_NEXT f)
    match (s.heldOf f).find? (fun h => h.tgt == nx) with
    | none => s
    | some h =>
      let s := { s with dsp := { s.dsp with held := s.dsp.held.filter (fun g => !(g.flow == f && g.tgt == nx)) } }
      (s.seqWrite f h.bytes).seqDrain f n

/-- A SEQ record arrives (R308, R310). -/
def State.seqArrival (s : State) (m : RelMsg) : State :=
  let b := m.bytes
  let q := leAt b 0 2
  let f := leAt b 4 4 % 64
  let d := i16 ((q : Int) - s.f (R.FLOW_NEXT f))
  if !(seqRecOk m && s.on (R.FLOW_CTRL_EN f) && s.f (R.FLOW_CTRL_KIND f) == 2 && m.dom == s.f (R.FLOW_CTRL_DOM f)) then
    s.refuseRel m f q 0
  else if d < 0 then s.refuseRel m f q 0
  else if 255 < d || 256 ≤ (s.heldOf f).length then s.flowOvf f q
  else
    let s := (s.count (R.FLOW_ACCEPT f)).traceRel 7 m f q 0
    let held := s.dsp.held.filter (fun h => !(h.flow == f && h.tgt == q))
    let s := { s with dsp := { s.dsp with held := held ++ [(⟨f, noAxis, q, s.gnow, 0, 0, [], [], b⟩ : Held)] } }
    s.seqDrain f 257

/-- A release arrives at the release unit (R308). -/
def State.relArrival (s : State) (m : RelMsg) : State :=
  let kind := bits (leAt m.bytes 0 4) 31 28
  let f := if kind = 1 then s.f (R.AX_STRAND_FLOW (leAt m.bytes 0 1)) else leAt m.bytes 4 4 % 64
  let arg := if kind = 1 then leAt m.bytes 4 4 else leAt m.bytes 0 2
  let n := if kind = 1 then leAt m.bytes 0 1 else 0
  if m.epoch ≠ s.f (R.ST_STAT_EPOCH m.strand) then (s.count (R.FLOW_STALE f)).traceRel 9 m f arg n
  else if kind = 1 then s.axisArrival m
  else if kind = 2 then s.seqArrival m
  else s.refuseRel m f arg n

/-- A posted release reaches the release unit; over a channel that has failed it does not, and its strand receives an access
error (R20, R276). -/
def State.relTravel (s : State) (m : RelMsg) : State :=
  if s.tim.failed.contains (min m.core 32, islDSP) then
    s.modStrand m.strand (fun u => { u with errs := u.errs ++ [m.addr] })
  else s.relArrival m

/-- The oldest posted release arrives; those of different cores, which R15 does not order, arrive in the order of their posting
(notes/assumptions/2032.md). -/
def State.releaseArrival (s : State) : State :=
  match s.dsp.posted with
  | [] => s
  | m :: l => { s with dsp := { s.dsp with posted := l } }.relTravel m

/-- Accesses from one core to island DSP act in program order (R265): the releases that core `c` has posted arrive before its
next access there. -/
def State.dspOrder (s : State) (c : Nat) : State :=
  let mine := s.dsp.posted.filter (fun m => m.core == c)
  if mine.isEmpty then s
  else forEach mine (fun m s => s.relTravel m) { s with dsp := { s.dsp with posted := s.dsp.posted.filter (fun m => m.core != c) } }

/-- The record a gap waits for is among the releases that arrive with the stamp of its expiry, and wins (R229, R310). -/
def State.gapEnds (s : State) (f : Nat) : Bool :=
  let n := (s.pending.filter (fun i => match i with | .releaseArrival => true | _ => false)).length
  (s.dsp.posted.take n).any (fun m => (s.relTravel m).f (R.FLOW_NEXT f) != s.f (R.FLOW_NEXT f))

/-- SEQ_GAP_EXPIRY (R310): record NEXT is missing while a later one is held; a skip entry takes its place. -/
def State.seqGap (s : State) (f : Nat) : State :=
  let nx := s.f (R.FLOW_NEXT f)
  let l := s.heldOf f
  if s.f (R.FLOW_CTRL_KIND f) ≠ 2 || l.isEmpty || l.any (fun h => h.tgt == nx) || s.gapEnds f then s
  else ((s.seqWrite f (leBytes 4 (0xFFFF0000 + nx))).count (R.FLOW_SKIPS f)).seqDrain f 257

def execSeqGapExpiry (f : Fin 64) (s : State) : Res := .next (s.seqGap f)

end Sys2Proof.Machine
end

