-- ==== Sys2Proof/Machine/Bus.lean ====
section
/-! DEFINITION. An access of one requester: the check, the register write or read or the memory access, and what a refused
access leaves (R5, R19, R26, R29, R209, R466 to R469). -/

namespace Sys2Proof.Machine

/-! ## Registers -/

/-- A write of word `v` to a register: refused, held by a decided knot (R209), or performed. -/
def State.regWrite (s : State) (who : Requester) (a v : Nat) : Bool × State :=
  match s.check who a 4 v .write with
  | .ok =>
    if s.kLocked a && regMask Acc.isRWS a != 0 then
      (true, { s with ke := { s.ke with held := s.ke.held ++ [(who, a, v)] } })
    else
      let r := s.blockWrite who a v
      match r.1 with
      | .ok => (true, r.2)
      | vd => (false, r.2.refuse vd who a true)
  | vd => (false, s.refuse vd who a true)

/-- The writes a decided knot held land, in the order of their arrival (R209). -/
def State.heldLand (s : State) : State :=
  let l := s.ke.held.filter (fun h => !s.kLocked h.2.1)
  let s := { s with ke := { s.ke with held := s.ke.held.filter (fun h => s.kLocked h.2.1) } }
  forEach l (fun h s => (s.regWrite h.1 h.2.1 h.2.2).2) s

/-- A read of a register; a refused one returns no data. -/
def State.regRead (s : State) (who : Requester) (a : Nat) : Option Nat × State :=
  match s.check who a 4 0 .read with
  | .ok =>
    (match s.range a with
     | some g => let r := s.blockRead g a; (some r.1, r.2)
     | none => (none, s))
  | vd => (none, s.refuse vd who a false)

/-! ## Memory -/

/-- The PCIe link takes outbound requests (R474). -/
def State.outboundOk (s : State) : Bool := s.on R.PCIE_STAT_BME && s.on R.PCIE_STAT_LINKUP

/-- An access of `n` bytes in a memory range. -/
def State.memWrite (s : State) (who : Requester) (a n v : Nat) : Bool × State :=
  match s.check who a n v .write with
  | .ok =>
    if s.range a = some .outbound && !s.outboundOk then (false, s) else (true, s.engWrite a (leBytes n v))
  | vd => (false, s.refuse vd who a true)

def State.memRead (s : State) (who : Requester) (a n : Nat) : Option Nat × State :=
  match s.check who a n 0 .read with
  | .ok =>
    if s.range a = some .outbound then
      if !s.outboundOk then (none, s)
      else
        let s := s.modHost (fun h => { h with outSent := some (false, a - 0x800000000, n, 0), outRead := some who })
        let r := s.engRead a n
        (some (leNat r.1), r.2)
    else (some (s.rd a n), s)
  | vd => (none, s.refuse vd who a false)

/-! ## Any access -/

/-- The address lies in a memory range, or outside the map. -/
def State.memLike (s : State) (a : Nat) : Bool := match s.range a with | some g => g.isMem | none => true

/-- The releases a core has posted reach island DSP before its next access there (R265). -/
def State.ordered (s : State) (who : Requester) (a : Nat) : State :=
  match s.range a with
  | some g => if who.kind == .core && islOf g a == islDSP && !g.isMem then s.dspOrder who.index else s
  | none => s

/-- A write of `n` bytes; 64 bits of a register block are two writes in ascending address order (R29). False: an access
error. -/
def State.busWrite (s : State) (who : Requester) (a n v : Nat) : Bool × State :=
  let s := s.ordered who a
  if s.memLike a then s.memWrite who a n v
  else if n = 4 then s.regWrite who a v
  else if n = 8 && a % 8 == 0 then
    let r := s.regWrite who a (v % 2 ^ 32)
    let t := r.2.regWrite who (a + 4) (v / 2 ^ 32 % 2 ^ 32)
    (r.1 && t.1, t.2)
  else (false, (s.refuse (s.check who a n v .write) who a true))

/-- A read of `n` bytes; `none`: an access error. -/
def State.busRead (s : State) (who : Requester) (a n : Nat) : Option Nat × State :=
  let s := s.ordered who a
  if s.memLike a then s.memRead who a n
  else if n = 4 then s.regRead who a
  else if n = 8 && a % 8 == 0 then
    let r := s.regRead who a
    let t := r.2.regRead who (a + 4)
    match r.1, t.1 with
    | some x, some y => (some (x + 2 ^ 32 * y), t.2)
    | _, _ => (none, t.2)
  else (none, (s.refuse (s.check who a n 0 .read) who a false))

/-! ## Commands that are accesses -/

/-- A write command, with its answer. -/
def State.cmdWrite (s : State) (who : Requester) (a n v : Nat) : State :=
  let r := s.busWrite who a n v
  r.2.answer (if r.1 then .ok else .accessError)

/-- A read command, with its answer; OFF and a want of rights return 0 with the access error (R19, R469). -/
def State.cmdRead (s : State) (who : Requester) (a n : Nat) : State :=
  let r := s.busRead who a n
  r.2.answer (match r.1 with
    | some x => .data x
    | none => (match s.check who a n 0 .read with | .off _ | .noRights => .offRead 0 | _ => .accessError))

/-- A command that writes some bits of one register and leaves its RW and RWS fields as they stand: field `x` takes `v`. -/
def State.cmdField (s : State) (who : Requester) (x : Fld) (v : Nat) : State :=
  s.cmdWrite who x.addr 4 (putBits (s.reg x.addr &&& regMask Acc.isStored x.addr) x.hi x.lo v)

/-- REGISTER_WRITE (R5). -/
def execRegisterWrite (who : Requester) (addr : BitVec 52) (size : Size) (data : BitVec 64) (s : State) : Res :=
  .next (s.cmdWrite who addr.toNat (sizeBytes size) (data.toNat % 2 ^ (8 * sizeBytes size)))

end Sys2Proof.Machine
end

