-- ==== Sys2Proof/Machine/Loop.lean ====
section
/-! DEFINITION. The standard loop (spec/04_axis_control_law.md): intake, position loop, velocity loop, current loop, output,
numeric faults, publications and the release of one activation. Arithmetic under R94. -/

namespace Sys2Proof.Machine

open F32 (add sub mul fma fms div sqrt)

/-! ## Constants (R94) -/

def f32Third : Word := 0x40400000 -- 3.0
def f32InvRoot3 : Word := 0x3F13CD3A
def f32HalfRoot3 : Word := 0x3F5DB3D7
def f32Root3 : Word := 0x3FDDB3D7
def f32Tenth : Word := 0x3DCCCCCC
def f32Inv32768 : Word := 0x38000000
def f32Two16' : Word := 0x47800000

/-- The constant `n` exactly. -/
def fc (n : Int) : Word := F32.val (F32.ofInt n)

/-! ## Parameters -/

def State.lp (s : State) (n i : Nat) : Word := s.wa (R.AX_LP n i)

/-! ## Intake (R102 to R105) -/

/-- What the intake gives: gap activation, loop periods since the last valid activation, v_meas. -/
structure Intake where
  gap : Bool
  v : Word
  deriving DecidableEq, Repr

/-- v_meas (R103). -/
def State.intake (s : State) (n c : Nat) (ts : Word) : FM Intake := do
  let x := s.ax n
  match x.lastN with
  | none => pure ⟨true, 0⟩
  | some l =>
    let m := i32 ((c : Int) - (l : Int)) / (2 ^ s.rateK n : Int)
    let d ← F32.ofInt (s.xAct n - x.lastX)
    let fm ← F32.ofInt m
    let t ← mul fm ts
    let v ← div d t
    pure ⟨decide (1 < m), v⟩

/-- A phase current in A (R104). -/
def State.current (s : State) (n : Nat) (x : Fld) : FM Word := do
  let c ← F32.ofInt (i16 (s.f x))
  let k ← mul (s.w (R.AX_I_FS n)) f32Inv32768
  mul c k

/-- V_BUS, with VBUS_MIN in its place when it is below (R104). -/
def State.busVolts (s : State) (n : Nat) : FM (Word × State) := do
  let u ← F32.ofInt (s.f (R.AX_FB3_VBUS n))
  let v ← mul u f32Tenth
  let vmin := s.lp n 19
  pure (if F32.lt v vmin then (vmin, s.raise (R.AX_STATUS_UNDERVOLT n)) else (v, s))

/-- θ_e (R105). -/
def State.elAngle (s : State) (n : Nat) : FM Word := do
  let cpr := s.fa (R.AX_CPR n)
  let poles := s.fa (R.AX_POLES n)
  let p := ((s.xAct n - i32 (s.fa (R.AX_COMM_OFS n))) % (max cpr 1 : Nat)).toNat
  let r := poles * p % max cpr 1
  let q ← quotW r (max cpr 1)
  mul f32TwoPi q

/-- ω_e (R105). -/
def State.elSpeed (s : State) (n : Nat) (v : Word) : FM Word := do
  let fp ← F32.ofInt (s.fa (R.AX_POLES n))
  let a ← mul f32TwoPi fp
  let a ← mul a v
  let fc' ← F32.ofInt (s.fa (R.AX_CPR n))
  div a fc'

/-! ## Notches (R111) -/

/-- One stage, with its new states. -/
def biquad (b0 b1 b2 a1 a2 x s1 s2 : Word) : FM (Word × Word × Word) := do
  let y ← fma b0 x s1
  let t ← fma b1 x s2
  let s1' ← fma (F32.neg a1) y t
  let t ← mul b2 x
  let s2' ← fma (F32.neg a2) y t
  pure (y, s1', s2')

/-- Stage `j` of axis `n` on `x`; its states are kept in the axis. -/
def State.notch (s : State) (n j : Nat) (x : Word) : FM (Word × State) := do
  let st := (s.ax n).nb.getD j (0, 0)
  let r ← biquad (s.wa (R.AX_NB_B0 n j)) (s.wa (R.AX_NB_B1 n j)) (s.wa (R.AX_NB_B2 n j)) (s.wa (R.AX_NB_A1 n j))
    (s.wa (R.AX_NB_A2 n j)) x st.1 st.2
  pure (r.1, s.modAx n (fun a => { a with nb := updAt a.nb j (fun _ => (r.2.1, r.2.2)) }))

/-- v_f: stages 0 to 3 on v_meas. -/
def State.filtered (s : State) (n : Nat) (v : Word) : FM (Word × State) := do
  let (v, s) ← s.notch n 0 v
  let (v, s) ← s.notch n 1 v
  let (v, s) ← s.notch n 2 v
  s.notch n 3 v

/-- Integrators and notch states cleared (R99). -/
def State.clearLoop (s : State) (n : Nat) : State :=
  s.modAx n (fun x => { x with iv := 0, id := 0, iq := 0, nb := [(0, 0), (0, 0), (0, 0), (0, 0), (0, 0), (0, 0)] })

/-! ## Position loop (R108 to R110) -/

/-- e_x in counts (R108). -/
def State.posError (s : State) (n : Nat) (xRef : Int) : FM Word := do
  let d := xRef - s.xAct n * 65536
  let e := satS 64 d
  if e ≠ d then F32.raise F32.flagSAT
  F32.roundInt e (-16) false

/-- g (R109). -/
def State.gainAt (s : State) (n : Nat) (ex : Word) : FM Word := do
  let es := s.fa (R.AX_GT_ESCALE n)
  if es = 0 then pure F32.one
  else
    let fe ← F32.ofInt es
    let r ← mul (fc 32) (F32.abs ex)
    let r ← div r fe
    let i := (F32.truncV (F32.ofWord r)).toNat
    if 32 ≤ i then pure (s.wa (R.AX_G n 32))
    else
      let fi ← F32.ofInt i
      let a ← sub r fi
      let d ← sub (s.wa (R.AX_G n (i + 1))) (s.wa (R.AX_G n i))
      fma a d (s.wa (R.AX_G n i))

def clampSym (x lim : Word) : Word := F32.clamp x (F32.neg lim) lim

/-! ## The cascade -/

/-- Excitation of an IDENT activation: the injected signal and the excitation; none outside a sweep (R129). -/
structure Exc where
  on : Bool := false
  inj : Nat := 0
  e : Word := 0

/-- What the reference, position and velocity stages give. -/
structure Casc where
  xRef : Int
  vRef : Word
  ex : Word := 0
  eL : Word := 0
  iq : Word := 0
  /-- A clamp acted on i_q*. -/
  clamped : Bool := false
  /-- u(n) of R129, and whether a limit acted on it. -/
  u : Word := 0
  sat : Bool := false
  deriving DecidableEq, Repr

/-- v_ref (R110); for VELOCITY the profile velocity alone. -/
def State.velRef (s : State) (n : Nat) (r : Refs) (x : Exc) : FM (Casc × Word) := do
  let vlim := s.lp n 2
  let eX ← (if x.on && x.inj = 2 then fixedOf x.e else pure 0)
  let xRef := i64 (r.s.x + eX)
  let ex ← s.posError n xRef
  if s.mode n = mVelocity then
    pure ({ xRef := xRef, vRef := clampSym r.m.v vlim, ex := ex }, r.m.a)
  else
    let g ← s.gainAt n ex
    let gk ← mul g (s.lp n 0)
    let p ← mul gk ex
    let v ← fma (s.lp n 1) r.m.v p
    let v ← (if x.on && x.inj = 1 then add v x.e else pure v)
    let vr := clampSym v vlim
    let uX ← (if x.on && x.inj = 2 then countsOf eX else pure vr)
    pure ({ xRef := xRef, vRef := vr, ex := ex, u := uX, sat := x.inj == 1 && vr != v }, r.m.a)

/-- The velocity loop and the current reference (R112). `gap` updates no integrator. -/
def State.velLoop (s : State) (n : Nat) (c : Casc) (aff vf uRep : Word) (gap : Bool) (x : Exc) : FM (Casc × State) := do
  let kv := s.lp n 3
  let iqmax := s.lp n 7
  let iv := (s.ax n).iv
  let ev ← sub c.vRef vf
  let uv ← fma kv ev iv
  let (un, s) ← s.notch n 4 uv
  let (un, s) ← s.notch n 5 un
  let t ← fma (s.lp n 6) aff un
  let iun ← add t uRep
  let iun ← (if x.on && x.inj = 0 then add iun x.e else pure iun)
  let iq := clampSym iun iqmax
  let eL ← mul kv ev
  let s ← (if gap then pure s else do
    let i ← fma (s.lp n 4) ev iv
    let d ← sub iq iun
    let i ← fma (s.lp n 5) d i
    pure (s.modAx n (fun a => { a with iv := clampSym i iqmax })))
  let c := { c with iq := iq, eL := eL, clamped := !F32.eq iq iun }
  pure (if x.on && x.inj = 0 then { c with u := iq, sat := !F32.eq iq iun } else c, s)

/-! ## Current loop (R113 to R116) -/

/-- Measured d and q currents and the duties; or the node-current references. -/
structure Out where
  iqM : Word := 0
  ok : Bool := true
  w : List Nat := [0, 0, 0]
  succ : List Nat := [0, 0, 0]
  deriving DecidableEq, Repr

/-- Modulation of (v_d, v_q) at θ (R116): d_x × 65,536 of each phase, before conversion. -/
def modulate (vd vq θ vbus : Word) : FM (List Word) := do
  let c ← F32.cos θ
  let sn ← F32.sin θ
  let t ← mul vd c
  let va ← fma (F32.neg vq) sn t
  let t ← mul vd sn
  let vb ← fma vq c t
  let nh := F32.neg F32.half
  let t1 ← mul nh va
  let pb ← fma f32HalfRoot3 vb t1
  let pc ← fma (F32.neg f32HalfRoot3) vb t1
  let mx := F32.max (F32.max va pb) pc
  let mn := F32.min (F32.min va pb) pc
  let sm ← add mx mn
  let v0 ← div (F32.neg sm) F32.two
  let duty (v : Word) : FM Word := do
    let a ← add v v0
    let a ← div a vbus
    let a ← add a F32.half
    mul a f32Two16'
  let u ← duty va
  let v ← duty pb
  let w ← duty pc
  pure [u, v, w]

/-- A duty word (R116 step 5). -/
def toDuty (d : Word) : FM Nat := do
  let z ← F32.toRange 0 65535 d
  pure z.toNat

def toDuties : List Word → FM (List Nat)
  | [] => pure []
  | d :: ds => do
    let a ← toDuty d
    let as ← toDuties ds
    pure (a :: as)

/-- The central split (R113 to R116): measured i_q, duties, successor duties; integrators updated unless `gap`. -/
def State.currentLoop (s : State) (n : Nat) (iqRef v vbus : Word) (gap : Bool) : FM (Out × State) := do
  let ia ← s.current n (R.AX_FB0_IA n)
  let ib ← s.current n (R.AX_FB1_IB n)
  let ic ← s.current n (R.AX_FB1_IC n)
  let t ← fma F32.two ia (F32.neg ib)
  let t ← sub t ic
  let iα ← div t f32Third
  let t ← sub ib ic
  let iβ ← mul t f32InvRoot3
  let θ ← s.elAngle n
  let ω ← s.elSpeed n v
  let c ← F32.cos θ
  let sn ← F32.sin θ
  let t ← mul iα c
  let id ← fma iβ sn t
  let t ← mul iβ c
  let iq ← fma (F32.neg iα) sn t
  let x := s.ax n
  let ed ← sub (s.lp n 8) id
  let eq ← sub iqRef iq
  let t ← fma (s.lp n 10) ed x.id
  let ωl ← mul ω (s.lp n 16)
  let vdu ← fma (F32.neg ωl) iq t
  let t ← fma (s.lp n 11) eq x.iq
  let fl ← fma (s.lp n 15) id (s.lp n 17)
  let vqu ← fma ω fl t
  let ml ← mul (s.lp n 18) vbus
  let vlim ← div ml f32Root3
  let t ← mul vdu vdu
  let sq ← fma vqu vqu t
  let mag ← sqrt sq
  let beyond := F32.gt mag vlim
  let (vd, vq) ← (if beyond then do
      let k ← div vlim mag
      let a ← mul vdu k
      let b ← mul vqu k
      pure (a, b)
    else pure (vdu, vqu))
  let s ← (if gap then pure s else do
    let a ← fma (s.lp n 12) ed x.id
    let d ← sub vd vdu
    let a ← fma (s.lp n 14) d a
    let b ← fma (s.lp n 13) eq x.iq
    let d ← sub vq vqu
    let b ← fma (s.lp n 14) d b
    pure (s.modAx n (fun y => { y with id := a, iq := b })))
  let ts ← s.loopSecs n
  let lsa ← secs (s.lsa n)
  let hts ← div ts F32.two
  let ahead ← add lsa hts
  let θo ← (if s.onA (R.AX_CTRL_ADV n) then fma ω ahead θ else pure θ)
  let θs ← fma ω ts θo
  let d ← modulate vd vq θo vbus
  let d2 ← modulate vd vq θs vbus
  let ok := ([vd, vq] ++ d).all F32.isFinite
  if ok then
    let w ← toDuties d
    let w2 ← toDuties d2
    pure ({ iqM := iq, w := w, succ := w2 }, s)
  else pure ({ iqM := iq, ok := false }, s)

/-- The node-current split (R117). -/
def State.nodeRefs (s : State) (n : Nat) (iqRef : Word) : FM Out := do
  let ifs := s.w (R.AX_I_FS n)
  let one (i : Word) : FM Word := do
    let a ← mul i (fc 32768)
    div a ifs
  let a ← one (s.lp n 8)
  let b ← one iqRef
  let iqM ← s.current n (R.AX_FB1_IB n)
  if F32.isFinite a && F32.isFinite b then
    let w0 ← F32.toRange (-32768) 32767 a
    let w1 ← F32.toRange (-32768) 32767 b
    pure { iqM := iqM, w := [u16 w0, u16 w1, 0] }
  else pure { iqM := iqM, ok := false }

/-! ## Release and publication (R118, R148, R307) -/

/-- The 48 bytes of an AXIS release record (R307). -/
def axisRecord (n tgt : Nat) (xRef : Int) (vRef : Word) (actl : Nat) (w succ : List Nat) : List Byte :=
  leBytes 4 (2 ^ 28 + 48 * 2 ^ 16 + n) ++ leBytes 4 tgt ++ leBytes 8 (uw 64 xRef) ++ leBytes 4 vRef.toNat ++
    leBytes 2 actl ++ (w.map (leBytes 2)).flatten ++ (succ.map (leBytes 2)).flatten ++ leBytes 14 0

/-- The activation's strand posts its release (R118). -/
def State.postRelease (s : State) (n tgt : Nat) (xRef : Int) (vRef : Word) (on : Bool) (w succ : List Nat) : State :=
  let t := s.f (R.AX_STRAND_STRAND n)
  let actl := b2n on + 2 * s.fa (R.AX_CTRL_SPLIT n)
  let m : RelMsg := { strand := t, epoch := s.f (R.ST_STAT_EPOCH t), dom := s.owner n, addr := 0,
                      bytes := axisRecord n tgt xRef vRef actl w succ, core := s.f (R.ST_STAT_LASTCORE t) }
  { s with dsp := { s.dsp with posted := s.dsp.posted ++ [m] } }

/-- The sticky flags of an activation reach its strand's SSW. -/
def State.strandFlags (s : State) (n : Nat) (fl : FFlags) : State :=
  s.modStrand (s.f (R.AX_STRAND_STRAND n)) (fun x =>
    { x with saved := { x.saved with ssw := x.saved.ssw ||| BitVec.zeroExtend 32 fl } })

/-- Integrators and notch states that are not finite are cleared (R119). -/
def State.clearNonfinite (s : State) (n : Nat) : State :=
  let c (w : Word) : Word := if F32.isFinite w then w else 0
  s.modAx n (fun x => { x with iv := c x.iv, id := c x.id, iq := c x.iq, nb := x.nb.map (fun p => (c p.1, c p.2)) })

/-- A numeric fault (R119). -/
def State.numFault (s : State) (n : Nat) : State :=
  ((((s.raise (R.AX_STATUS_NUMERR n)).count (R.AX_NUM_CNT n)).clearNonfinite n)).report (srcOf 3 (n * 8 + 5)) clsFault (s.owner n)
    [s.axNow n]

/-! ## One activation -/

/-- What ends every activation with valid feedback: V_MEAS and the memory of the last valid one (R103). -/
def State.markValid (s : State) (n c : Nat) (v : Word) : State :=
  (s.set (R.AX_V_MEAS n) v.toNat).modAx n (fun x => { x with lastN := some c, lastX := s.xAct n, lastSeen := some c })

/-- What OFF leaves of an axis: no hitch, no stop, no start (R146). -/
def State.quiet (s : State) (n : Nat) : State :=
  ((s.dropHitch n).clr (R.AX_STATUS_STOPPING n)).modAx n (fun x => { x with
    stop := 0, hard := false, hold := false, ramp := false, lim := none, start := none, vchg := none, ran := mOff,
    rep := { x.rep with n := 0 } })

/-- A mode without a loop: OFF, or STEP and VALVE treated as OFF with MODEERR (R98). Its reference is published as invalid, and
its position as `valid` says (R106, R148). -/
def State.activateNone (s : State) (n : Nat) (w : When) (v : Word) (valid : Bool) : State :=
  let m := s.mode n
  let s := (if m = mStep || m = mValve then s.raise (R.AX_STATUS_MODEERR n) else s).quiet n
  s.publish n w.cyc w.stamp false valid ⟨s.xAct n * 65536, 0, 0⟩ (s.xAct n) v

/-- The same with valid feedback, which releases the words of OFF (R118). -/
def State.activateOff (s : State) (n : Nat) (w : When) (v : Word) : State :=
  let s := s.activateNone n w v true
  let z := s.zeroWord n
  s.postRelease n (u32 ((w.cyc : Int) + 2 ^ s.rateK n)) (s.xAct n * 65536) 0 false [z, z, z] (if z = 0 then [0, 0, 0] else [z, z, z])

/-- Cycles of the axis since its last activation that gave none. -/
def State.missedSince (s : State) (n c : Nat) : Nat :=
  match (s.ax n).lastSeen with
  | some l => (i32 ((c : Int) - l) / (2 ^ s.rateK n : Int)).toNat - 1
  | none => 0

/-- An activation with feedback that is not valid (R106): no loop, no release; the reference is still published. -/
def State.activateInvalid (s : State) (n : Nat) (w : When) : State :=
  let x := s.ax n
  let m := s.mode n
  let k := F32.val (do
    if m = mHitch && x.hitch.on then
      match s.masterAt n w x.hitch.cfg 0 with
      | some mf => s.hitchRef n mf
      | none => x.gen.at' w.at' s.tcyc
    else x.gen.at' w.at' s.tcyc)
  let s := s.raise (R.AX_STATUS_FBINVALID n)
  let s := s.publish n w.cyc w.stamp (refMode m) false k (s.xAct n) (s.w (R.AX_V_MEAS n))
  let s :=
    if s.on (R.AX_STATUS_IDRUN n) then s.identActivation n w.cyc (s.missedSince n w.cyc) 0 0 false false else s
  s.modAx n (fun x => { x with lastSeen := some w.cyc })

/-- The repetitive stage's master states (R163): its own reference, or a publication. -/
def State.repStates (s : State) (n : Nat) (w : When) (r : Refs) : FM (Option (Kin × Kin)) :=
  if s.fa (R.AX_REP_MASTER n) = n then pure (some (r.s, r.m))
  else
    match s.repMaster n w.cyc 0, s.repMaster n w.cyc w.next with
    | some a, some b => do
      let x ← a
      let y ← b
      pure (some (x, y))
    | _, _ => pure none

/-- The servo part of an activation: cascade, output, release, learning, sweep. -/
def State.servo (s : State) (n : Nat) (w : When) (inp : Intake) (first : Bool) : FM State := do
  let velRuns := s.mode n != mTorque || (s.ax n).stop = 3 || (s.ax n).ramp || (s.ax n).hard || (s.ax n).hold -- R98
  let s := if first then s.clearLoop n else s
  let (vf, s) ← (if velRuns then s.filtered n inp.v else pure (inp.v, s))
  let (s, r) ← s.reference n w vf
  let mode := s.mode n
  let torque := mode = mTorque && (s.ax n).stop != 3
  let sweep := mode = mIdent && s.on (R.AX_STATUS_IDRUN n)
  let (vbus, s) ← s.busVolts n
  let e ← (if sweep then s.identExcite n else pure 0)
  let x : Exc := { on := sweep, inj := s.fa (R.AX_ID_CFG_INJ n), e := e }
  -- repetitive term: master states, read (R163, R165, R174)
  let repOn := s.onA (R.AX_REP_CTRL_EN n) && !s.on (R.AX_STATUS_REPERR n)
  let ms ← (if repOn then s.repStates n w r else pure none)
  let s := if repOn && ms.isNone then s.repLost n else s
  let (uRep, s) ← (match ms with
    | some m => if torque || mode = mIdent then pure ((0 : Word), s) else s.repRead n m.2
    | none => pure ((0 : Word), s))
  -- cascade
  let (c, s) ← (if torque then
      pure (({ xRef := s.xAct n * 65536, vRef := 0, iq := clampSym (s.lp n 9) (s.lp n 7) } : Casc), s)
    else do
      let (c, aff) ← s.velRef n r x
      s.velLoop n c aff vf uRep inp.gap x)
  let (o, s) ← (if s.onA (R.AX_CTRL_SPLIT n) then do
      let o ← s.nodeRefs n c.iq
      pure (o, s)
    else s.currentLoop n c.iq inp.v vbus inp.gap)
  let finite := F32.isFinite c.vRef && F32.isFinite c.iq && o.ok
  -- learning (R166)
  let learnMode := mode = mHold || mode = mProfile || mode = mVelocity || mode = mHitch
  let may := repOn && learnMode && !s.on (R.AX_STATUS_STOPPING n) && !s.on (R.AX_STATUS_HWAIT n) && !s.eventLatched n &&
    !s.limitLatched n && !inp.gap && !first && !c.clamped
  let s ← s.repUpdate n { atS := ms.map (·.1), atM := ms.map (·.2), may := may, eL := c.eL }
  let s ← (if repOn then pure s else pure (s.repDrop n))
  -- publication and release
  let s := s.publish n w.cyc w.stamp (!torque) true r.s (s.xAct n) inp.v
  let s :=
    if !finite then s.numFault n
    else s.postRelease n (u32 ((w.cyc : Int) + 2 ^ s.rateK n)) c.xRef c.vRef true o.w o.succ
  -- sweep (R130, R131)
  let s :=
    if sweep then
      let y := match s.fa (R.AX_ID_CFG_OUT n) with | 1 => c.ex | 2 => o.iqM | _ => inp.v
      s.identActivation n w.cyc (s.missedSince n w.cyc) c.u y (!inp.gap && s.identGuardOk n w.cyc) c.sat
    else s
  pure s

/-- A stepper gang's activation (R356): the reference alone, released as X_REF of the segment's end. -/
def State.stepperServo (s : State) (n : Nat) (w : When) (inp : Intake) : FM State := do
  let (s, r) ← s.reference n w 0
  let s := s.publish n w.cyc w.stamp true true r.s (s.xAct n) inp.v
  let z := s.zeroWord n
  pure (s.postRelease n (u32 ((w.cyc : Int) + 2 ^ s.rateK n)) r.m.x r.m.v true [z, z, z] [z, z, z])

/-- What every activation does first: the table's check (R171), stops that are due (R160), and the requests it refuses (R127, R132,
R146, R147). -/
def State.activationStart (s : State) (n : Nat) : State :=
  ((((s.repCheck n).limDue n (s.wakeStamp n)).identLeave n).refuseBehindStop n).refuseEntry n

/-- One activation of a network or local axis (R94 to R119). -/
def State.activateReal (s : State) (n c : Nat) : State :=
  let kind1 : Bool := match s.axisGang n with | some (_, 1) => true | _ => false
  let sphI := s.sampleInst n c
  let next : Int :=
    if kind1 then i32 (2 ^ (s.rateK n + 1)) * (s.tcyc : Int) - sphI.ofs else s.lsa n + (s.loopNs n / 2 : Nat)
  let w : When := { cyc := c, stamp := (s.ax n).sStamp, at' := sphI, next := next }
  let s := s.activationStart n
  let m := s.mode n
  let noLoop := m = mOff || m = mStep || m = mValve
  if !s.on (R.AX_VALID_VALID n) then
    if noLoop then
      ((s.raise (R.AX_STATUS_FBINVALID n)).activateNone n w (s.w (R.AX_V_MEAS n)) false).modAx n (fun x => { x with lastSeen := some c })
    else s.activateInvalid n w
  else
    let r := (do
      let ts ← s.loopSecs n
      let inp ← s.intake n c ts
      if noLoop then pure ((s.activateOff n w inp.v).markValid n c inp.v)
      else
        let first := (s.ax n).ran == mOff
        let s ← (if kind1 then s.stepperServo n w inp else s.servo n w inp first)
        pure (s.markValid n c inp.v)).run 0
    r.1.strandFlags n r.2

/-- One activation of a virtual axis woken by mark `m` of ring `r` (R158). -/
def State.activateVirtual (s : State) (n c r m : Nat) : State :=
  let ofs := s.fa (R.RING_MARK_T_OFFSET r m)
  let st := u32 ((s.ringCstart r c : Int) + ofs)
  let w : When := { cyc := c, stamp := st, at' := ⟨c, ofs⟩, next := 0 }
  let s := (s.modAx n (fun x => { x with sStamp := st })).activationStart n
  if s.mode n = mOff then
    ((s.quiet n).set (R.AX_V_MEAS n) 0).publish n c st false true ⟨s.xAct n * 65536, 0, 0⟩ (s.xAct n) 0
  else
    let res := (do
      let (s, k) ← s.reference n w 0
      let x := k.s.x / 65536
      let s := s.set64 (R.AX_X_ACT_LO n) (R.AX_X_ACT_HI n) x
      let s := s.set (R.AX_V_MEAS n) k.s.v.toNat
      pure (s.publish n c st true true k.s x k.s.v)).run 0
    res.1.strandFlags n res.2

/-- The activation consumes the tag that woke it: the strand's TAGRD (R265, R311). -/
def State.consumeTag (s : State) (n : Nat) : State :=
  let t := s.f (R.AX_FB_TAG_TAG n)
  if s.on (R.TAG_CTL_FULL t) then
    let v := s.f (R.TAG_VALUE t)
    (s.emptyTag t).modStrand (s.f (R.AX_STRAND_STRAND n)) (fun x => { x with tagrd := x.tagrd ++ [(t, v)] })
  else s

/-- The bits of the word at `a` that hardware writes as one field during an activation: MODE of CTRL, any other bit by itself. -/
def hwBits (a x y : Nat) : Nat :=
  let d := x ^^^ y
  if a % 0x1000 = 0 && d % 16 != 0 then d ||| 15 else d

/-- An activation `f` with the set it was woken with (R96): what boundaries have replaced since stands in its place while it runs,
and what they took reaches the next activation. -/
def State.withOld (s : State) (n : Nat) (f : State → State) : State :=
  match (s.ax n).old with
  | none => f s
  | some o =>
    let new := s.ax n
    let t := f ((forEach o.words (fun p s => s.setActReg p.1 p.2) s).modAx n (fun x =>
      { x with modeCyc := o.modeCyc, start := o.start, vchg := o.vchg, rep := { x.rep with check := o.check } }))
    let u := forEach o.words (fun p t => t.setActReg p.1 (mergeBits (s.actReg p.1) (t.actReg p.1) (hwBits p.1 p.2 (t.actReg p.1)))) t
    let rep := o.words.any (fun p => (groupRegs n gREP).contains p.1)
    u.modAx n (fun x => { x with
      modeCyc := new.modeCyc, start := if new.start = o.start then x.start else new.start,
      vchg := if new.vchg = o.vchg then x.vchg else new.vchg,
      rep := { x.rep with check := x.rep.check || (new.rep.check && (rep || !o.check)), n := if rep then 0 else x.rep.n } })

/-- The activation has released: the previous set is held no longer (R96). -/
def State.activated (s : State) (n : Nat) : State := s.modAx n (fun x => { x with woken := none, old := none })

/-- The activation of axis `n` by its tag: none while KIND is UNUSED (R183), while a user program runs it (R95), or in a
cycle that does not wake it (R88). -/
def State.activate (s : State) (n : Nat) : State :=
  let kind := s.axKind n
  let c := s.f (R.TAG_VALUE (s.f (R.AX_FB_TAG_TAG n)))
  if kind = kUnused then s
  else if s.onA (R.AX_CTRL_LOOP n) then s.userStops n
  else if kind = kVirtual then
    match s.axisMark n with
    | none => s
    | some (r, m) => ((s.consumeTag n).withOld n (fun s => s.activateVirtual n c r m)).activated n
  else if s.inPhase n c then ((s.consumeTag n).withOld n (fun s => s.activateReal n c)).activated n
  else s

end Sys2Proof.Machine
end

