-- ==== Sys2Proof/Machine/CorePath.lean ====
section
/-! DEFINITION. The memory path of a core (spec/10_lyshief_isa.md): the segment map and the local path of a control core
(R245, R246), translation on a supervisor core (R247), loads, stores and fetches. -/

namespace Sys2Proof.Machine

/-- Control cores are 0 to 31, supervisor cores 32 to 35. -/
def isCC (c : Nat) : Bool := c < 32

/-- SSW.DOM, SSW.K, SSW.IE and SSW.LS of a register state. -/
def Ctx.dom (x : Ctx) : Nat := bits x.ssw.toNat 23 16
def Ctx.kern (x : Ctx) : Bool := bit x.ssw.toNat 31
def Ctx.ie (x : Ctx) : Bool := bit x.ssw.toNat 30
def Ctx.ls (x : Ctx) : Bool := bit x.ssw.toNat 29

/-- A segment register (R296: SEG2 to SEG13 start at 0). -/
def Ctx.segOf (x : Ctx) (i : Nat) : Nat := SMap.get (fun _ => 0) x.seg i

/-- The requester of a core's accesses: the strand on it, in its domain. -/
def State.coreWho (s : State) (c : Nat) : Requester := ⟨.core, c, (s.core c).ctx.dom, some (s.core c).strand⟩

/-- Where an effective address leads (R245): a physical address that the domain protection unit checks, the core's own
local memory on segment 0xF, the ROM, an access error, a translation fault. -/
inductive Place where
  | phys (a : Nat)
  | own (a : Nat)
  | rom (o : Nat)
  | bad
  | fault
  deriving DecidableEq, Repr

/-- The map of a control core (R245). -/
def ccPlace (c : Nat) (x : Ctx) (ea : Nat) : Place :=
  let g := ea / 2 ^ 28
  let o := ea % 2 ^ 28
  if g = 14 then (if o < 0x40000 then .rom o else .bad)
  else if g = 15 then (if o < 0x40000 then .own (0x02000000 + c * 0x40000 + o) else .bad)
  else .phys (x.segOf g * 2 ^ 28 + o)

/-! ## Translation (R247) -/

/-- "Table entry": valid, with its reserved bits 0. -/
def pteOk (e : Nat) : Bool := bit e 0 && bits e 63 52 == 0 && bits e 11 8 == 0

/-- The translation an entry gives for `ea` in domain `d`. -/
def pteTlb (e ea d shift : Nat) : Tlb :=
  { vpn := ea / 2 ^ shift, shift := shift, pa := bits e 51 12 * 4096, dom := d, glob := bit e 6, u := bit e 5, x := bit e 4,
    w := bit e 3, r := bit e 2, dev := bit e 7 }

/-- An entry read by the walk, with the rights of domain `d`. -/
def State.pte (s : State) (d a : Nat) : Option Nat :=
  if s.engOk islSUP d a 8 .read then
    (let e := s.rd a 8
     if pteOk e then some e else none)
  else none

/-- The two-level walk. -/
def State.walk (s : State) (c ea : Nat) : Option Tlb :=
  let k := s.core c
  let d := k.ctx.dom
  match s.pte d (k.ttbrHi * 2 ^ 32 + k.ttbrLo + 8 * bits ea 31 22) with
  | none => none
  | some e =>
    if bit e 1 then (if bits e 21 12 = 0 then some (pteTlb e ea d 22) else none)
    else
      match s.pte d (bits e 51 12 * 4096 + 8 * bits ea 21 12) with
      | none => none
      | some e2 => some (pteTlb e2 ea d 12)

/-- A cached translation applies to `ea` in domain `d`. -/
def Tlb.hits (t : Tlb) (d ea : Nat) : Bool := t.vpn == ea / 2 ^ t.shift && (t.glob || t.dom == d)

/-- The permissions an access needs (R247). -/
def Tlb.allows (t : Tlb) (kern : Bool) (r : Right) : Bool :=
  (kern || t.u) && (match r with | .read => t.r | .write => t.w | .exec => t.x)

/-- A new translation enters the TLB of 64 entries; which one it replaces when all are used is free. -/
def State.tlbFill (s : State) (c : Nat) (t : Tlb) : State :=
  let l := (s.core c).tlb
  if l.length < 64 then s.modCore c (fun k => { k with tlb := k.tlb ++ [t] })
  else (s.modCore c (fun k => { k with tlb := l.eraseIdx (Config.tlbVictim s.free % 64) ++ [t] })).burn

/-- Translation on a supervisor core with MMUCTL[0] = 1; register blocks need DEV. `none`: a translation fault. -/
def State.translate (s : State) (c ea : Nat) (kern : Bool) (r : Right) : Option Nat × State :=
  let k := s.core c
  if !bit k.mmuctl 0 then (some ea, s)
  else
    let use (t : Tlb) : Option Nat :=
      let a := t.pa + ea % 2 ^ t.shift
      if t.allows kern r && (t.dev || s.memLike a) then some a else none
    match k.tlb.find? (fun t => t.hits k.ctx.dom ea) with
    | some t => (use t, s)
    | none =>
      match s.walk c ea with
      | none => (none, s)
      | some t => match use t with | some a => (some a, s.tlbFill c t) | none => (none, s)

/-- Where `ea` leads on core `c`. -/
def State.place (s : State) (c ea : Nat) (kern : Bool) (r : Right) : Place × State :=
  if isCC c then (ccPlace c (s.core c).ctx ea, s)
  else
    let t := s.translate c ea kern r
    match t.1 with
    | some a => (.phys a, t.2)
    | none => (.fault, t.2)

/-- An access whose data does not stall the core (R269): own local memory on a control core; on a supervisor core a hit in its
L1, which is free (notes/assumptions/2030.md). -/
def State.quick (s : State) (c a : Nat) : Bool :=
  if isCC c then 0x02000000 + c * 0x40000 ≤ a && a < 0x02000000 + (c + 1) * 0x40000
  else (s.range a == some .sram || s.range a == some .dram) && Config.l1Hit s.free a

/-- Whether the next access hits its L1 is free anew. -/
def State.l1 (s : State) (c a : Nat) : State :=
  if !isCC c && (s.range a == some .sram || s.range a == some .dram) then s.burn else s

/-! ## Loads, stores, fetches -/

/-- What a load or store comes to: a value (0 for a store) and whether the core stalls for it, a translation fault, an access
error. -/
inductive CAcc where
  | val (v : Nat) (slow : Bool)
  | xlate
  | access
  deriving DecidableEq, Repr

/-- A load of `n` bytes at `ea`. -/
def State.coreRead (s : State) (c ea n : Nat) : CAcc × State :=
  let p := s.place c ea (s.core c).ctx.kern .read
  let s := p.2
  match p.1 with
  | .fault => (.xlate, s)
  | .bad => (.access, s)
  | .rom o => (.val (leNat ((List.range n).map (fun i => Config.rom (o + i)))) false, s)
  | .own a => (.val (s.rd a n) false, s)
  | .phys a =>
    let r := s.busRead (s.coreWho c) a n
    match r.1 with
    | some v => (.val v (!s.quick c a), r.2.l1 c a)
    | none => (.access, r.2)

/-- A store of `n` bytes at `ea`. -/
def State.coreWrite (s : State) (c ea n v : Nat) : CAcc × State :=
  let p := s.place c ea (s.core c).ctx.kern .write
  let s := p.2
  match p.1 with
  | .fault => (.xlate, s)
  | .bad | .rom _ => (.access, s)
  | .own a => (.val 0 false, s.wr a n v)
  | .phys a =>
    let r := s.busWrite (s.coreWho c) a n v
    if r.1 then (.val 0 (!s.quick c a), r.2.l1 c a) else (.access, r.2)

/-- A fetch at `ea`: true if it fails (R246, R247). -/
def State.fetchFails (s : State) (c ea : Nat) : Bool × State :=
  if ea % 4 != 0 then (true, s)
  else if isCC c then
    (match ccPlace c (s.core c).ctx ea with | .rom _ | .own _ => (false, s) | _ => (true, s))
  else
    let t := s.translate c ea (s.core c).ctx.kern .exec
    let s := t.2
    match t.1 with
    | none => (true, s)
    | some a =>
      match s.check (s.coreWho c) a 4 0 .exec with
      | .ok => (!s.memLike a, s)
      | vd => (true, s.refuse vd (s.coreWho c) a false)

/-- The instruction word at `ea`, for the length of an instruction in a delay slot; 0 where none can be fetched. -/
def State.peek (s : State) (c ea : Nat) : Nat :=
  if isCC c then
    match ccPlace c (s.core c).ctx ea with
    | .rom o => leNat ((List.range 4).map (fun i => Config.rom (o + i)))
    | .own a => s.rd a 4
    | _ => 0
  else
    match (s.translate c ea (s.core c).ctx.kern .exec).1 with
    | some a => s.rd a 4
    | none => 0

/-- Words of the instruction at `ea`: 2 for format L. -/
def State.wordsAt (s : State) (c ea : Nat) : Nat := if s.peek c ea / 2 ^ 26 = 0x3F then 2 else 1

/-- The address after the second delay slot of a branch at `pc` (R250, R252). -/
def State.afterSlots (s : State) (c pc : Nat) : Nat :=
  let a := pc + 4 + 4 * s.wordsAt c (pc + 4)
  a + 4 * s.wordsAt c a

end Sys2Proof.Machine
end

