-- ==== Sys2Proof/Machine/Exc.lean ====
section
/-! DEFINITION. Exceptions and interrupts of a core (spec/11_loops_interrupts_exceptions.md): the frame, entry, stack checks
and the shadow save area, return, and the two entries that events raise. -/

namespace Sys2Proof.Machine

/-! ## Vectors of "Exception causes" (R275) -/

def vFetch : Nat := 1
def vIllegal : Nat := 2
def vPriv : Nat := 3
def vLength : Nat := 4
def vAlign : Nat := 5
def vXlate : Nat := 6
def vAccess : Nat := 7
def vAsync : Nat := 8
def vSyscall : Nat := 9
def vBreak : Nat := 10
/-- VEC of INT i. -/
def vInt (i : Nat) : Nat := 16 + i

/-! ## Stack checks (R288) -/

/-- The requester's domain has a right on 16 aligned bytes at physical address `a`: R466, R467, R468. -/
def State.domGrants (s : State) (who : Requester) (a : Nat) (r : Right) : Bool :=
  match s.range a with
  | none => s.memRight who.dom a 16 r
  | some g =>
    if g.isMem then s.rangeRight who.dom g a 16 r
    else (List.range 4).all (fun i => s.regRight who g (a + 4 * i) 0 (r == .write))

/-- Core `c` has the right that R288 asks for on 16 aligned bytes of its stack at `ea`; any domain may read the ROM (R245). -/
def State.stackRight (s : State) (c ea : Nat) (kern : Bool) (r : Right) : Bool :=
  match (s.place c ea kern r).1 with
  | .own _ => true
  | .rom _ => r == .read
  | .phys a => s.domGrants (s.coreWho c) a r
  | _ => false

/-- FAIL of "Shadow save record" (R290) for a frame of 32 bytes at `lo`: 0 when the check passes. -/
def State.stackFail (s : State) (c : Nat) (lo : Int) (kern : Bool) (r : Right) : Nat :=
  let x := (s.core c).ctx
  let a := lo.toNat
  let align := decide (lo % 16 ≠ 0)
  let window := decide (lo < (x.swlo : Int)) || decide ((x.swhi : Int) < lo + 32)
  let units := if align then 3 else 2
  let rights := decide (0 ≤ lo) && !(List.range units).all (fun i => s.stackRight c (a - a % 16 + 16 * i) kern r)
  b2n align + 2 * b2n window + 4 * b2n rights

/-! ## Stack faults (R289 to R292) -/

/-- STACKFAULT at the strand that R289 names. -/
def State.stackFaultInt (s : State) (t c : Nat) : State :=
  match s.stackfaultTarget t with
  | some u => s.raiseInt u 0 (t * 2 ^ 16 + c)
  | none => s

/-- The strand on core `c` is parked with what it attempted (R293). What waits for the end of the placement is the caller's. -/
def State.park (s : State) (c : Nat) (at' : Attempt) : State :=
  let t := (s.core c).strand
  let s := (s.suspend c).setSt t stParked
  (s.modStrand t (fun u => { u with saved := { u.saved with attempt := some at' } })).traceS 5 t c 0xFFFFFFFF

/-- A second stack fault, or one that no supervisor strand can receive (R292). -/
def State.secondFault (s : State) (c vec : Nat) (at' : Attempt) : State :=
  let t := (s.core c).strand
  let stop := s.stopDue c
  let sp := ((s.core c).ctx.reg 31).toNat
  let first := (s.core c).shadow
  let s := s.report (srcOf 5 (64 + c)) clsFault (s.f (R.ST_DOM t))
    [match first with | some r => r.strand | none => t, t, sp, vec, c]
  let s := ((s.modCore c (fun k => { k with sfHalt := true })).syncHalt c).dwellCore c
  let s := s.park c at'
  let s := s.modStrand t (fun u => { u with noShadow := true })
  let s := match first with
    | some r =>
      ((s.modStrand r.strand (fun u => { u with kept := some r })).modCore c (fun k => { k with shadow := none })).clr
        (R.DSP_CORE_SHADOW c)
    | none => s
  let s := s.stackFaultInt t c
  (if stop then s.toIdle t else s).coreOffline c

/-- A stack check has failed with `fail` (R289): the shadow record, the park, STACKFAULT. -/
def State.stackFault (s : State) (c fail epc ebta cause einfo eprog : Nat) (at' : Attempt) : State :=
  let k := s.core c
  let t := k.strand
  if k.shadow.isSome || (s.stackfaultTarget t).isNone then s.secondFault c (cause % 256) at'
  else
    let rec' := [epc, ebta, cause, k.ctx.ssw.toNat, einfo, eprog, (k.ctx.reg 31).toNat, t * 2 ^ 16 + fail]
    let stop := s.stopDue c
    let s := (s.modCore c (fun k => { k with shadow := some ⟨rec', t⟩ })).raise (R.DSP_CORE_SHADOW c)
    ((s.park c at').stackFaultInt t c).vacated c t stop

/-! ## Entry (R277, R278) -/

/-- ECAUSE of "Exception frame". -/
def ecause (vec ds : Nat) (tk lsusp hlong multi : Bool) : Nat :=
  vec + ds % 4 * 256 + b2n tk * 1024 + b2n lsusp * 2048 + b2n hlong * 4096 + b2n multi * 8192

/-- An error of a posted store of the placement on core `c` (R276, R306). -/
def State.storeError (s : State) (c ea : Nat) : State :=
  let k := s.core c
  if k.detached then
    s.modCore c (fun k => { k with ctx := { k.ctx with async := match k.ctx.async with | none => some (ea, false) | some a => some (a.1, true) } })
  else s.modStrand k.strand (fun u => { u with errs := u.errs ++ [ea] })

/-- The words of a frame stored upwards from `ea`; they are posted (R286), so an access error comes back as one of R276. -/
def State.pushWords (s : State) (c ea : Nat) : List Nat → State
  | [] => s
  | w :: ws =>
    let r := s.coreWrite c ea 4 w
    let s := if r.1 = .access then r.2.storeError c ea else r.2
    s.pushWords c (ea + 4) ws

/-- Entry with the words of the frame given. A detached placement ends (R311). -/
def State.entry (s : State) (c epc ebta cause einfo eprog ehold : Nat) : State :=
  if (s.core c).detached then s.endDetached c
  else
    let s := s.modCore c Core.land
    let x := (s.core c).ctx
    let sp := (x.reg 31).toNat
    let kern := !isCC c
    let fail := s.stackFail c ((sp : Int) - 32) kern .write
    if fail ≠ 0 then
      s.stackFault c fail epc ebta cause einfo eprog (.entry (cause % 256) epc ebta cause einfo eprog)
    else
      let eclk := (Config.freeWord s.free).toNat
      let ssw := toW (putBits (putBits x.ssw.toNat 30 30 0) 31 31 (b2n kern))
      let y := { x.setReg 31 (toW (sp - 32)) with
        ssw := ssw, lsusp := true, prog := 0, pc := x.vbase + 0x40 * (cause % 256), ds := 0, tk := false, bta := 0 }
      let s := (s.burn.setCtx c y).notePosted c
      s.pushWords c (sp - 32) [epc, ebta, cause, x.ssw.toNat, einfo, eprog, ehold, eclk]

/-- Entry to `vec` at the boundary the register state stands at (R279). -/
def State.enterAt (s : State) (c vec einfo : Nat) (hlong multi : Bool) (ehold : Nat) : State :=
  let x := (s.core c).ctx
  let tk := x.tk && x.ds != 0
  s.entry c x.pc (if tk then x.bta else 0) (ecause vec x.ds tk x.lsusp hlong multi) einfo x.prog ehold

/-- A synchronous exception of the instruction at the pc. -/
def State.exc (s : State) (c vec einfo : Nat) : State := s.enterAt c vec einfo false false 0

/-! ## Return (R280) -/

/-- SSW after ERET: sticky flags merged; DOM, K and LS of a control core, and LS of a supervisor core, are not the frame's. -/
def eretSsw (cc : Bool) (essw ssw : Nat) : Nat :=
  let m := bits essw 30 30 * 2 ^ 30 + bits ssw 29 29 * 2 ^ 29 + (bits essw 4 0 ||| bits ssw 4 0)
  if cc then m + bits ssw 31 31 * 2 ^ 31 + bits ssw 23 16 * 2 ^ 16 else m + bits essw 31 31 * 2 ^ 31 + bits essw 23 16 * 2 ^ 16

/-- Words of a frame, read upwards from `ea`, and the first address that failed. -/
def State.popWords (s : State) (c ea : Nat) : Nat → (List Nat × Option Nat) × State
  | 0 => (([], none), s)
  | n + 1 =>
    let r := s.coreRead c ea 4
    let t := r.2.popWords c (ea + 4) n
    match r.1 with
    | .val v _ => ((v :: t.1.1, t.1.2), t.2)
    | _ => ((0 :: t.1.1, some ea), t.2)

/-- ERET on core `c`, after its checks of K and placement. With DS = 0 and TK = 1 the branch's target is next at once. An
access error on the frame is one on a load (R275). -/
def State.eret (s : State) (c : Nat) : State :=
  let s := s.modCore c Core.land
  let x := (s.core c).ctx
  let sp := (x.reg 31).toNat
  let fail := s.stackFail c (sp : Int) x.kern .read
  if fail ≠ 0 then
    if (s.core c).detached then s.endDetached c
    else s.stackFault c (fail + 8) x.pc 0 (ecause 0 0 false x.lsusp false false) 0 x.prog .eret
  else
    let r := s.popWords c sp 8
    let w (i : Nat) : Nat := r.1.1.getD i 0
    let ds := bits (w 2) 9 8
    let now := ds == 0 && bit (w 2) 10
    match r.1.2 with
    | some ea => r.2.exc c vAccess ea
    | none =>
      r.2.setCtx c { x.setReg 31 (toW (sp + 32)) with
        ssw := toW (eretSsw (isCC c) (w 3) x.ssw.toNat), lsusp := bit (w 2) 11, prog := bits (w 5) 12 0,
        pc := if now then w 1 else w 0, ds := ds, tk := bit (w 2) 10 && !now, bta := if now then 0 else w 1 }

/-- A resumed strand first repeats what failed (R291). -/
def State.repeatAttempt (s : State) (c : Nat) : State :=
  match (s.core c).ctx.attempt with
  | none => s
  | some a =>
    let s := s.modCore c (fun k => { k with ctx := { k.ctx with attempt := none } })
    match a with
    | .entry _ epc ebta cause einfo eprog => s.entry c epc ebta cause einfo eprog 0
    | .eret => s.eret c

/-! ## What is due at a boundary (R276, R283) -/

/-- The next instruction is a delay slot, or a repeat of a strand with LS = 0 is active. -/
def Ctx.slotHeld (x : Ctx) : Bool := x.ds != 0 || (!x.ls && x.lc0 != 0 && !x.lsusp)

/-- An interrupt is deliverable to the placement on core `c`. -/
def State.intDue (s : State) (c : Nat) : Bool :=
  !(s.core c).detached && s.f (R.ST_IPEND (s.core c).strand) != 0 && (s.core c).ctx.ie

/-- An entry, or a suspension, comes before the next instruction. -/
def State.entryDue (s : State) (c : Nat) : Bool :=
  let k := s.core c
  (k.ctx.async.isSome && k.ctx.ds == 0) || (s.intDue c && !k.ctx.slotHeld) || (s.suspDue c && !k.ctx.slotHeld)

/-- The core executes: online, not halted, with a placement, and not in the boot ROM (R458). -/
def State.executes (s : State) (c : Nat) : Bool :=
  s.coreUp c && s.coreBusy c && s.islOn (min c 32) && !(c == 32 && s.boot.rom)

/-- Every issued instruction of the core has completed and its q writes have landed. -/
def Core.quiet (k : Core) : Bool := k.stall.isNone && k.pendq.isEmpty

/-- Errors that have reached the core become one ACCESS_ASYNC (R276). -/
def State.takeErrs (s : State) (c : Nat) : State :=
  let k := s.core c
  if k.detached then s
  else
    match (s.strand k.strand).errs with
    | [] => s
    | e :: es =>
      let s := s.modStrand k.strand (fun u => { u with errs := [] })
      s.modCore c (fun k => { k with ctx := { k.ctx with
        async := match k.ctx.async with | none => some (e, !es.isEmpty) | some a => some (a.1, true) } })

/-- ACCESS_ASYNC enters once conditions 1 and 2 of R283 allow. -/
def State.asyncEntry (s : State) (c : Nat) : State :=
  let k := s.core c
  match k.ctx.async with
  | none => s
  | some a =>
    if s.executes c && k.quiet && k.ctx.ds == 0 then
      (s.modCore c (fun k => { k with ctx := { k.ctx with async := none } })).enterAt c vAsync a.1 false a.2 0
    else s

/-- The interrupt of lowest number enters (R281); a hold-off longer than HOLDOFF_MAX is marked and reported (R285). -/
def State.intEntry (s : State) (c : Nat) : State :=
  let k := s.core c
  let t := k.strand
  if s.executes c && s.intDue c && k.quiet && !k.ctx.slotHeld && k.ctx.async.isNone then
    match firstIdx 5 (fun i => bit (s.f (R.ST_IPEND t)) i) with
    | none => s
    | some i =>
      let hold := (Config.freeWord s.free).toNat
      let long := decide (k.ctx.holdoff < hold)
      let s := s.burn.set (R.ST_IPEND t) (s.f (R.ST_IPEND t) - 2 ^ i)
      let s := if long then
          s.report (srcOf 5 c) clsWarn (s.f (R.ST_DOM t)) [t, vInt i, k.ctx.pc, hold]
        else s
      s.enterAt c (vInt i) (SMap.get (fun _ => 0) (s.strand t).einfo i) long false hold
  else s

/-- ACCESS_ASYNC (R276). -/
def execAccessAsync (c : Fin 36) (s : State) : Res :=
  .next (if s.coreBusy c then ((s.takeErrs c).asyncEntry c).settle c else s)

/-- INTERRUPT_ENTRY (R281 to R285). -/
def execInterruptEntry (c : Fin 36) (s : State) : Res := .next ((s.intEntry c).settle c)

/-- REMOTE_ACCESS_COMPLETE (R269, R270): the stalled instruction's data arrives. -/
def execRemoteAccessComplete (c : Fin 36) (s : State) : Res :=
  .next (match (s.core c).stall with
    | none => s
    | some y =>
      (s.modCore c (fun k =>
        { k with stall := none, ctx := y.qw.foldl (fun x w => x.setPhys w.1 w.2) (y.gw.foldl (fun x w => x.setReg w.1 w.2) k.ctx) })).settle c)

/-- A transfer from island `src` to `dst` is abandoned (R20): a core stalled for it receives ACCESS, at the instruction that
waited. -/
def State.stallAbandoned (s : State) (src dst : Nat) : State :=
  forN 36 (fun c s =>
    match (s.core c).stall with
    | some ⟨_, _, _, some (i, ea), b⟩ =>
      if min c 32 = src && i = dst then
        (s.modCore c (fun k => { k with stall := none, ctx := { k.ctx with
          pc := b.pc, ds := b.ds, tk := b.tk, bta := b.bta, lc0 := b.lc0, lc1 := b.lc1, sld := b.sld } })).exc c vAccess ea
      else s
    | _ => s) s

/-- Q_WRITE_LAND (R268): pending q write `k` lands. -/
def execQWriteLand (c : Fin 36) (k : Nat) (s : State) : Res :=
  .next (match (s.core c).pendq[k]? with
    | none => s
    | some w => (s.modCore c (fun x => { x with pendq := x.pendq.eraseIdx k, ctx := x.ctx.setPhys w.reg w.val })).settle c)

end Sys2Proof.Machine
end

