-- ==== Sys2Proof/Machine/IsaBase.lean ====
section
/-! DEFINITION. What every Lyshief instruction shares (spec/10_lyshief_isa.md, spec/11_loops_interrupts_exceptions.md): the
encoding that EINFO shows, guards, the order of the checks, the advance of the pc with delay slots and loop-back, and the
access to memory of instructions that compute on it. An instruction command runs on the placement its core holds; on a core
that cannot issue it now, it has no effect. -/

namespace Sys2Proof.Machine

/-! ## Encodings ("Format layouts", R249) -/

def encOp (op : Nat) (G : BitVec 4) (rest : Nat) : Nat := op * 2 ^ 26 + G.toNat * 2 ^ 22 + rest
def encR (op fn : Nat) (G : BitVec 4) (rd rs1 rs2 : BitVec 5) : Nat :=
  encOp op G (rd.toNat * 2 ^ 17 + rs1.toNat * 2 ^ 12 + rs2.toNat * 2 ^ 7 + fn)
def encI (op : Nat) (G : BitVec 4) (rd rs1 : BitVec 5) (imm : BitVec 12) : Nat :=
  encOp op G (rd.toNat * 2 ^ 17 + rs1.toNat * 2 ^ 12 + imm.toNat)
def encU (op : Nat) (G : BitVec 4) (rd : BitVec 5) (imm : BitVec 17) : Nat := encOp op G (rd.toNat * 2 ^ 17 + imm.toNat)
def encJ (op : Nat) (G : BitVec 4) (disp : BitVec 22) : Nat := encOp op G disp.toNat
def encQ (G : BitVec 4) (body : BitVec 8) (ci rot : Bool) (cnt : BitVec 12) : Nat :=
  encOp 0x16 G (body.toNat * 2 ^ 14 + b2n ci * 2 ^ 13 + b2n rot * 2 ^ 12 + cnt.toNat)
def encP (G : BitVec 4) (pt pf : BitVec 3) (rs1 rs2 : BitVec 5) (cc : BitVec 6) : Nat :=
  encOp 0x07 G (pt.toNat * 2 ^ 19 + pf.toNat * 2 ^ 16 + rs1.toNat * 2 ^ 11 + rs2.toNat * 2 ^ 6 + cc.toNat)
def encS (op : Nat) (G : BitVec 4) (rd : BitVec 5) (sr : BitVec 12) : Nat := encOp op G (rd.toNat * 2 ^ 17 + sr.toNat)
def encD (fn : Nat) (G : BitVec 4) (rd rs1 rs2 : BitVec 5) (cnt : BitVec 3) : Nat :=
  encR 0x1A (fn * 8 + cnt.toNat) G rd rs1 rs2
def encK (op fn : Nat) (G : BitVec 4) (rd rs1 rs2 rn : BitVec 5) : Nat := encR op (rn.toNat * 4 + fn) G rd rs1 rs2
def encV (op fn : Nat) (G : BitVec 4) (vd vs1 vs2 : BitVec 6) : Nat :=
  encOp op G (vd.toNat * 2 ^ 16 + vs1.toNat * 2 ^ 10 + vs2.toNat * 2 ^ 4 + fn)
def encVM (op : Nat) (G : BitVec 4) (vd : BitVec 6) (rb : BitVec 5) (ofs : BitVec 11) : Nat :=
  encOp op G (vd.toNat * 2 ^ 16 + rb.toNat * 2 ^ 11 + ofs.toNat)
def encVG (fn : Nat) (G : BitVec 4) (vd : BitVec 6) (rg : BitVec 5) (lane : BitVec 2) : Nat :=
  encOp 0x23 G (vd.toNat * 2 ^ 16 + rg.toNat * 2 ^ 11 + lane.toNat * 2 ^ 9 + fn)
/-- Word 0 of format L. -/
def encL (fn : Nat) (G : BitVec 4) (rd rs1 : BitVec 5) : Nat :=
  encOp 0x3F G (rd.toNat * 2 ^ 17 + rs1.toNat * 2 ^ 12 + fn)

/-- What the checks need to know of an instruction: its word (format L: word 0), its words, whether it is of the V slot, the
g registers it reads or writes as a V word, an encoding or a placement that is illegal whatever its guard (R249, R274), and
whether it is a branch. -/
structure Insn where
  word : Nat
  len : Nat := 1
  v : Bool := false
  guse : List Nat := []
  bad : Bool := false
  noSlot : Bool := false
  noBody : Bool := false
  branch : Bool := false
  deriving DecidableEq, Repr

/-! ## Guards, predicates -/

/-- p_i (R241: p0 reads 1). -/
def Ctx.pred (x : Ctx) (i : Nat) : Bool := i == 0 || x.p.getLsbD i
def Ctx.setPred (x : Ctx) (i : Nat) (b : Bool) : Ctx :=
  if i = 0 then x else { x with p := BitVec.ofNat 8 (putBits x.p.toNat i i (b2n b)) }

/-- The guard of R249. -/
def Ctx.guarded (x : Ctx) (G : BitVec 4) : Bool := x.pred (G.toNat % 8) != G.getLsbD 3

/-! ## Repeats and the pc (R264, R272, R273) -/

/-- `a` lies in the body of active level 0, or 1. -/
def Ctx.inBody0 (x : Ctx) (a : Nat) : Bool := x.lc0 != 0 && x.lsa0 ≤ a && a ≤ x.lea0
def Ctx.inBody1 (x : Ctx) (a : Nat) : Bool := x.lc1 != 0 && x.lsa1 ≤ a && a ≤ x.lea1

/-- An iteration of a level ends: SLD advances on ROT, LC counts down. -/
def Ctx.endIter0 (x : Ctx) : Ctx := { x with sld := if x.rot0 then (x.sld + 1) % 32 else x.sld, lc0 := x.lc0 - 1 }
def Ctx.endIter1 (x : Ctx) : Ctx := { x with sld := if x.rot1 then (x.sld + 1) % 32 else x.sld, lc1 := x.lc1 - 1 }

/-- The word at `last` has completed and `next` follows it: loop-back of the inner level, then of the outer (R264, R272). -/
def Ctx.loopBack (x : Ctx) (last next : Nat) : Ctx :=
  if x.lsusp then { x with pc := next }
  else
    let y := if x.lc1 ≠ 0 ∧ x.lea1 = last then x.endIter1 else x
    if x.lc1 ≠ 0 ∧ x.lea1 = last ∧ y.lc1 ≠ 0 then { y with pc := x.lsa1 }
    else if y.lc0 ≠ 0 ∧ y.lea0 = last then
      (let z := y.endIter0
       if z.lc0 ≠ 0 then { z with pc := z.lsa0 } else { z with pc := next })
    else { y with pc := next }

/-- The second delay slot of a branch taken to `x.bta` completes at `last` (R273): levels whose body the target leaves end,
with every level inside them; a word at LEA counts as the end of the iteration. -/
def Ctx.takeBranch (x : Ctx) (last : Nat) : Ctx :=
  let t := x.bta
  if x.lsusp then { x with pc := t }
  else
    let out0 := x.inBody0 last && !(x.lsa0 ≤ t && t ≤ x.lea0)
    let out1 := x.inBody1 last && !(x.lsa1 ≤ t && t ≤ x.lea1)
    let y := if out0 then { x with lc0 := 0, lc1 := 0 } else if out1 then { x with lc1 := 0 } else x
    let y := if y.lc1 ≠ 0 ∧ y.lea1 = last then y.endIter1 else y
    let y := if y.lc1 = 0 ∧ y.lc0 ≠ 0 ∧ y.lea0 = last then y.endIter0 else y
    { y with pc := t }

/-- An instruction of `len` words completes: the next pc. -/
def Ctx.after (x : Ctx) (len : Nat) : Ctx :=
  let last := x.pc + 4 * len - 4
  let next := x.pc + 4 * len
  if x.ds = 0 then x.loopBack last next
  else if x.ds = 1 then
    let y := { x with ds := 0, tk := false, bta := 0 }
    if x.tk then { x.takeBranch last with ds := 0, tk := false, bta := 0 } else y.loopBack last next
  else { x with ds := x.ds - 1, pc := next }

/-! ## Issue -/

/-- The V word of a pair beside the stalled S word (R267). -/
def Stall.pairs (y : Stall) (i : Insn) (pc : Nat) : Bool :=
  i.v && y.pairAt == some pc && i.guse.all (fun g => !(y.gw.any (fun w => w.1 == g)))

/-- The core can issue this instruction now. -/
def State.canIssue (s : State) (c : Nat) (i : Insn) : Bool :=
  s.executes c && !s.entryDue c &&
    (match (s.core c).stall with | none => true | some y => y.pairs i (s.core c).ctx.pc)

/-- A placement that raises an illegal-instruction exception whatever the guard (R250, R252, R265, R273, R274). -/
def State.misplaced (s : State) (c : Nat) (i : Insn) : Bool :=
  let x := (s.core c).ctx
  (i.noSlot && x.ds != 0) || (i.noBody && (x.inBody0 x.pc || x.inBody1 x.pc)) || (i.len == 2 && x.pc % 8 != 0) ||
    (i.branch &&
      (let l := s.afterSlots c x.pc - 4
       if x.inBody1 x.pc then decide (x.lea1 < l) else x.inBody0 x.pc && decide (x.lea0 < l)))

/-- The register state changes and the instruction completes. -/
def State.finish (s : State) (c len : Nat) (f : Ctx → Ctx) : State :=
  s.modCore c (fun k => { k with ctx := (f k.ctx).after len })

/-- A guarded-off instruction; the delay slots of a guarded-off branch still execute (R249). -/
def State.skip (s : State) (c : Nat) (i : Insn) : State :=
  if i.branch then s.modCore c (fun k => { k with ctx := { k.ctx with pc := k.ctx.pc + 4, ds := 2, tk := false, bta := 0 } })
  else s.finish c i.len id

/-- The fetch of an instruction: `some a` is the address that failed. -/
def State.fetchAll (s : State) (c : Nat) (i : Insn) : Option Nat × State :=
  let pc := (s.core c).ctx.pc
  let f := s.fetchFails c pc
  if f.1 then (some pc, f.2)
  else if i.len = 2 then
    let g := f.2.fetchFails c (pc + 4)
    (if g.1 then some (pc + 4) else none, g.2)
  else (none, f.2)

/-- An instruction on core `c`: fetch, encoding and placement, guard, effect; then what waited for this boundary. -/
def State.insn (s : State) (c : Nat) (G : BitVec 4) (i : Insn) (eff : State → State) : State :=
  if !s.canIssue c i then s
  else
    let f := s.fetchAll c i
    let s := f.2
    (match f.1 with
     | some a => s.exc c vFetch a
     | none =>
       if i.bad || s.misplaced c i then s.exc c vIllegal i.word
       else if !(s.core c).ctx.guarded G then s.skip c i
       else eff (s.modCore c (fun k => { k with issued := k.issued + 1 }))).settle c

/-! ## Results -/

/-- Sticky flags (R243: hardware only sets them). -/
def Ctx.orFlags (x : Ctx) (f : FFlags) : Ctx := { x with ssw := x.ssw ||| BitVec.zeroExtend 32 f }

/-- An instruction that writes rd from the register state. -/
def State.writeG (s : State) (c rd len : Nat) (f : Ctx → Word) : State := s.finish c len (fun x => x.setReg rd (f x))

/-- An instruction that writes rd with a binary32 result, or a conversion. -/
def State.writeF (s : State) (c rd : Nat) (f : Ctx → FM Word) : State :=
  s.finish c 1 (fun x => let r := (f x).run 0; (x.setReg rd r.1).orFlags r.2)

/-- Physical register of a q name (R243). -/
def Ctx.qIdx (x : Ctx) (n : Nat) : Nat := if n < 32 then n else 32 + (n - 32 + x.sld) % 32
def Ctx.qreg (x : Ctx) (n : Nat) : BitVec 128 := x.phys (x.qIdx n)

/-- Lane `i` of a q value, and four lanes as one. -/
def lane (v : BitVec 128) (i : Nat) : Word := BitVec.extractLsb' (32 * i) 32 v
def lanes (a b c d : Word) : BitVec 128 := BitVec.ofNat 128 (a.toNat + b.toNat * 2 ^ 32 + c.toNat * 2 ^ 64 + d.toNat * 2 ^ 96)

/-- A q write of latency `l` issues; it lands later (R268). -/
def State.writeQ (s : State) (c vd l : Nat) (v : BitVec 128) : State :=
  s.modCore c (fun k => { k with pendq := k.pendq ++ [⟨k.ctx.qIdx vd, v, k.issued + l⟩] })

/-! ## Memory within an instruction -/

/-- A computation that accesses memory: the state, the island and the address of an access that stalls the core, and the
sticky flags. -/
structure Run where
  s : State
  slow : Option (Nat × Nat) := none
  fl : FFlags := 0

/-- It ends with a value, or with a vector and EINFO. -/
abbrev CM := ExceptT (Nat × Nat) (StateM Run)

/-- A binary32 step. -/
def fm {α : Type} (m : FM α) : CM α := fun r =>
  let x := m.run 0
  (.ok x.1, { r with fl := r.fl ||| x.2 })

/-- The island that `ea` leads to. -/
def State.islAt (s : State) (c ea : Nat) (r : Right) : Nat :=
  match (s.place c ea (s.core c).ctx.kern r).1 with
  | .phys a => (match s.range a with | some g => islOf g a | none => islSYS)
  | _ => min c 32

/-- What stalls the core once an access at `ea` has been made (R269). -/
def Run.waits (r : Run) (c ea : Nat) (w : Right) (slow : Bool) : Option (Nat × Nat) :=
  if slow then some (r.s.islAt c ea w, ea) else r.slow

/-- The exceptions of data addresses in the order of R275: first a misaligned one, then one that does not translate. Each
access is its address, its width and its kind. -/
def preCheck (c : Nat) (l : List (Nat × Nat × Right)) : CM Unit := fun r =>
  match l.find? (fun x => x.1 % x.2.1 != 0) with
  | some x => (.error (vAlign, x.1), r)
  | none =>
    match l.find? (fun x => (r.s.place c x.1 (r.s.core c).ctx.kern x.2.2).1 == .fault) with
    | some x => (.error (vXlate, x.1), r)
    | none => (.ok (), r)

/-- A load of `n` bytes, aligned (R252). -/
def ldN (c ea n : Nat) : CM Nat := fun r =>
  if ea % n ≠ 0 then (.error (vAlign, ea), r)
  else
    let a := r.s.coreRead c ea n
    match a.1 with
    | .val v slow => (.ok v, { r with s := a.2, slow := r.waits c ea .read slow })
    | .xlate => (.error (vXlate, ea), { r with s := a.2 })
    | .access => (.error (vAccess, ea), { r with s := a.2 })

/-- A word. -/
def ldW (c ea : Nat) : CM Word := do
  let v ← ldN c (ea % 2 ^ 32) 4
  pure (toW v)

/-- A store of `n` bytes whose error is synchronous. -/
def stN (c ea n v : Nat) : CM Unit := fun r =>
  if ea % n ≠ 0 then (.error (vAlign, ea), r)
  else
    let a := r.s.coreWrite c ea n v
    match a.1 with
    | .val _ slow => (.ok (), { r with s := a.2, slow := r.waits c ea .write slow })
    | .xlate => (.error (vXlate, ea), { r with s := a.2 })
    | .access => (.error (vAccess, ea), { r with s := a.2 })

def stW (c ea : Nat) (v : Word) : CM Unit := stN c (ea % 2 ^ 32) 4 v.toNat

/-- An error raised by an instruction. -/
def failWith {α : Type} (vec einfo : Nat) : CM α := fun r => (.error (vec, einfo), r)

/-- Where an instruction stands. -/
def Ctx.back (x : Ctx) : Back := ⟨x.pc, x.ds, x.tk, x.bta, x.lc0, x.lc1, x.sld⟩

/-- The core stalls for data (R269); the results are written when it arrives. `far`: the island and the address waited for. -/
def State.deliver (s : State) (c : Nat) (far : Option (Nat × Nat)) (i : Insn) (gw : List (Nat × Word)) : State :=
  if far.isSome then
    s.modCore c (fun k =>
      { k with stall := some { gw := gw, pairAt := if !i.v && i.len == 1 && k.ctx.pc % 8 == 0 then some (k.ctx.pc + 4) else none,
                               far := far, back := k.ctx.back },
               ctx := k.ctx.after i.len })
  else s.finish c i.len (fun x => gw.foldl (fun x w => x.setReg w.1 w.2) x)

/-- An instruction that computes with memory and writes g registers. An error leaves the instruction to be run again. -/
def State.runG (s : State) (c : Nat) (i : Insn) (m : CM (List (Nat × Word))) : State :=
  match m.run { s := s } with
  | (.ok gw, r) => (r.s.modCore c (fun k => { k with ctx := k.ctx.orFlags r.fl })).deliver c r.slow i gw
  | (.error e, r) => r.s.exc c e.1 e.2

end Sys2Proof.Machine
end

