-- ==== Sys2Proof/Machine/IsaScalar.lean ====
section
/-! DEFINITION. Scalar instructions: the ALU group, immediates, CMP, the FPU group, the scaled moves, and the long forms
(R250 to R258, R263). -/

namespace Sys2Proof.Machine

/-! ## ALU group (OP 0x00) -/

/-- An instruction of format R that writes rd from rs1 and rs2. -/
def aluR (fn : Nat) (c : Nat) (G : BitVec 4) (rd rs1 rs2 : BitVec 5) (f : Word → Word → Word) (s : State) : State :=
  s.insn c G { word := encR 0x00 fn G rd rs1 rs2 }
    (fun s => s.writeG c rd.toNat 1 (fun x => f (x.reg rs1.toNat) (x.reg rs2.toNat)))

/-- Shift amount rs2[4:0]. -/
def shAmt (b : Word) : Nat := b.toNat % 32

/-- Leading zero bits (CLZ). -/
def clz (a : Word) : Nat := if a.toNat = 0 then 32 else 31 - Nat.log2 a.toNat

def execAdd (c : Fin 36) (G : BitVec 4) (rd rs1 rs2 : BitVec 5) (s : State) : Res := .next (aluR 0x00 c G rd rs1 rs2 (· + ·) s)
def execSub (c : Fin 36) (G : BitVec 4) (rd rs1 rs2 : BitVec 5) (s : State) : Res := .next (aluR 0x01 c G rd rs1 rs2 (· - ·) s)
def execAnd (c : Fin 36) (G : BitVec 4) (rd rs1 rs2 : BitVec 5) (s : State) : Res := .next (aluR 0x02 c G rd rs1 rs2 (· &&& ·) s)
def execOr (c : Fin 36) (G : BitVec 4) (rd rs1 rs2 : BitVec 5) (s : State) : Res := .next (aluR 0x03 c G rd rs1 rs2 (· ||| ·) s)
def execXor (c : Fin 36) (G : BitVec 4) (rd rs1 rs2 : BitVec 5) (s : State) : Res := .next (aluR 0x04 c G rd rs1 rs2 (· ^^^ ·) s)
def execShl (c : Fin 36) (G : BitVec 4) (rd rs1 rs2 : BitVec 5) (s : State) : Res :=
  .next (aluR 0x05 c G rd rs1 rs2 (fun a b => a <<< shAmt b) s)
def execShr (c : Fin 36) (G : BitVec 4) (rd rs1 rs2 : BitVec 5) (s : State) : Res :=
  .next (aluR 0x06 c G rd rs1 rs2 (fun a b => a >>> shAmt b) s)
def execSar (c : Fin 36) (G : BitVec 4) (rd rs1 rs2 : BitVec 5) (s : State) : Res :=
  .next (aluR 0x07 c G rd rs1 rs2 (fun a b => a.sshiftRight (shAmt b)) s)
def execMul (c : Fin 36) (G : BitVec 4) (rd rs1 rs2 : BitVec 5) (s : State) : Res := .next (aluR 0x08 c G rd rs1 rs2 (· * ·) s)
def execMulh (c : Fin 36) (G : BitVec 4) (rd rs1 rs2 : BitVec 5) (s : State) : Res :=
  .next (aluR 0x09 c G rd rs1 rs2 (fun a b => toW (u32 (a.toInt * b.toInt / 2 ^ 32))) s)
def execMulhu (c : Fin 36) (G : BitVec 4) (rd rs1 rs2 : BitVec 5) (s : State) : Res :=
  .next (aluR 0x0A c G rd rs1 rs2 (fun a b => toW (a.toNat * b.toNat / 2 ^ 32)) s)

/-- A division: DZ is set on divisor 0. -/
def aluDiv (fn : Nat) (c : Nat) (G : BitVec 4) (rd rs1 rs2 : BitVec 5) (f : Word → Word → Word) (s : State) : State :=
  s.insn c G { word := encR 0x00 fn G rd rs1 rs2 }
    (fun s => s.writeF c rd.toNat (fun x => do
      if x.reg rs2.toNat = 0 then F32.raise F32.flagDZ
      pure (f (x.reg rs1.toNat) (x.reg rs2.toNat))))

def execDiv (c : Fin 36) (G : BitVec 4) (rd rs1 rs2 : BitVec 5) (s : State) : Res :=
  .next (aluDiv 0x0B c G rd rs1 rs2 (fun a b => if b = 0 then 0 else toW (u32 (Int.tdiv a.toInt b.toInt))) s)
def execDivu (c : Fin 36) (G : BitVec 4) (rd rs1 rs2 : BitVec 5) (s : State) : Res :=
  .next (aluDiv 0x0C c G rd rs1 rs2 (fun a b => if b = 0 then 0 else toW (a.toNat / b.toNat)) s)
def execRem (c : Fin 36) (G : BitVec 4) (rd rs1 rs2 : BitVec 5) (s : State) : Res :=
  .next (aluDiv 0x0D c G rd rs1 rs2 (fun a b => if b = 0 then a else toW (u32 (Int.tmod a.toInt b.toInt))) s)
def execRemu (c : Fin 36) (G : BitVec 4) (rd rs1 rs2 : BitVec 5) (s : State) : Res :=
  .next (aluDiv 0x0E c G rd rs1 rs2 (fun a b => if b = 0 then a else toW (a.toNat % b.toNat)) s)
def execMin (c : Fin 36) (G : BitVec 4) (rd rs1 rs2 : BitVec 5) (s : State) : Res :=
  .next (aluR 0x0F c G rd rs1 rs2 (fun a b => if a.toInt ≤ b.toInt then a else b) s)
def execMax (c : Fin 36) (G : BitVec 4) (rd rs1 rs2 : BitVec 5) (s : State) : Res :=
  .next (aluR 0x10 c G rd rs1 rs2 (fun a b => if b.toInt ≤ a.toInt then a else b) s)
def execMinu (c : Fin 36) (G : BitVec 4) (rd rs1 rs2 : BitVec 5) (s : State) : Res :=
  .next (aluR 0x11 c G rd rs1 rs2 (fun a b => if a.toNat ≤ b.toNat then a else b) s)
def execMaxu (c : Fin 36) (G : BitVec 4) (rd rs1 rs2 : BitVec 5) (s : State) : Res :=
  .next (aluR 0x12 c G rd rs1 rs2 (fun a b => if b.toNat ≤ a.toNat then a else b) s)
def execClz (c : Fin 36) (G : BitVec 4) (rd rs1 rs2 : BitVec 5) (s : State) : Res :=
  .next (aluR 0x13 c G rd rs1 rs2 (fun a _ => toW (clz a)) s)
def execMov (c : Fin 36) (G : BitVec 4) (rd rs1 rs2 : BitVec 5) (s : State) : Res :=
  .next (aluR 0x14 c G rd rs1 rs2 (fun a _ => a) s)

/-! ## Immediates -/

/-- An instruction of format I. -/
def aluI (op : Nat) (c : Nat) (G : BitVec 4) (rd rs1 : BitVec 5) (imm : BitVec 12) (f : Word → Word → Word) (s : State) : State :=
  s.insn c G { word := encI op G rd rs1 imm }
    (fun s => s.writeG c rd.toNat 1 (fun x => f (x.reg rs1.toNat) (imm.signExtend 32)))

def execAddi (c : Fin 36) (G : BitVec 4) (rd rs1 : BitVec 5) (imm : BitVec 12) (s : State) : Res :=
  .next (aluI 0x01 c G rd rs1 imm (· + ·) s)
def execAndi (c : Fin 36) (G : BitVec 4) (rd rs1 : BitVec 5) (imm : BitVec 12) (s : State) : Res :=
  .next (aluI 0x02 c G rd rs1 imm (· &&& ·) s)
def execOri (c : Fin 36) (G : BitVec 4) (rd rs1 : BitVec 5) (imm : BitVec 12) (s : State) : Res :=
  .next (aluI 0x03 c G rd rs1 imm (· ||| ·) s)
def execXori (c : Fin 36) (G : BitVec 4) (rd rs1 : BitVec 5) (imm : BitVec 12) (s : State) : Res :=
  .next (aluI 0x04 c G rd rs1 imm (· ^^^ ·) s)

/-- The shift of SHI: IMM12[11:10] selects it, IMM12[4:0] is the amount. -/
def shiftImm (imm : BitVec 12) (a : Word) : Word :=
  let n := imm.toNat % 32
  match imm.toNat / 2 ^ 10 with
  | 0 => a <<< n
  | 1 => a >>> n
  | 2 => a.sshiftRight n
  | _ => a.rotateRight n

/-- SHI; IMM12[9:5] is reserved (R251). -/
def execShi (c : Fin 36) (G : BitVec 4) (rd rs1 : BitVec 5) (imm : BitVec 12) (s : State) : Res :=
  .next (s.insn c G { word := encI 0x05 G rd rs1 imm, bad := bits imm.toNat 9 5 != 0 }
    (fun s => s.writeG c rd.toNat 1 (fun x => shiftImm imm (x.reg rs1.toNat))))

def execMovi (c : Fin 36) (G : BitVec 4) (rd : BitVec 5) (imm : BitVec 17) (s : State) : Res :=
  .next (s.insn c G { word := encU 0x06 G rd imm } (fun s => s.writeG c rd.toNat 1 (fun _ => imm.signExtend 32)))

/-! ## CMP (OP 0x07) -/

/-- The relation CC[2:0] between two values of an order. -/
def relOf (r : Nat) (eq lt gt : Bool) : Bool :=
  match r with
  | 0 => eq | 1 => !eq | 2 => lt | 3 => lt || eq | 4 => gt | _ => gt || eq

/-- The relation of CMP: binary32 (R256), unsigned or signed. -/
def cmpRel (cc : BitVec 6) (a b : Word) : Bool :=
  if cc.getLsbD 5 then relOf (cc.toNat % 8) (F32.eq a b) (F32.lt a b) (F32.gt a b)
  else if cc.getLsbD 4 then relOf (cc.toNat % 8) (a == b) (decide (a.toNat < b.toNat)) (decide (b.toNat < a.toNat))
  else relOf (cc.toNat % 8) (a == b) (decide (a.toInt < b.toInt)) (decide (b.toInt < a.toInt))

/-- CC encodings with no meaning: relations 6 and 7, CC[5] with CC[4], CC[3]. -/
def ccBad (cc : BitVec 6) : Bool := 6 ≤ cc.toNat % 8 || (cc.getLsbD 5 && cc.getLsbD 4) || cc.getLsbD 3

/-- CMP: PT := c and PF := NOT c. -/
def execCmp (c : Fin 36) (G : BitVec 4) (pt pf : BitVec 3) (rs1 rs2 : BitVec 5) (cc : BitVec 6) (s : State) : Res :=
  .next (s.insn c G { word := encP G pt pf rs1 rs2 cc, bad := ccBad cc }
    (fun s => s.finish c 1 (fun x =>
      let r := cmpRel cc (x.reg rs1.toNat) (x.reg rs2.toNat)
      (x.setPred pt.toNat r).setPred pf.toNat (!r))))

/-! ## FPU group (OP 0x08) -/

/-- An FPU instruction: a function of rs1, rs2 and rd. -/
def fpu (fn : Nat) (c : Nat) (G : BitVec 4) (rd rs1 rs2 : BitVec 5) (f : Word → Word → Word → FM Word) (s : State) : State :=
  s.insn c G { word := encR 0x08 fn G rd rs1 rs2 }
    (fun s => s.writeF c rd.toNat (fun x => f (x.reg rs1.toNat) (x.reg rs2.toNat) (x.reg rd.toNat)))

/-- FABS and FNEG: a subnormal is read as zero (R254). -/
def fAbs (a : Word) : Word := F32.canon (F32.abs a)
def fNeg (a : Word) : Word := F32.canon (F32.neg a)

def execFadd (c : Fin 36) (G : BitVec 4) (rd rs1 rs2 : BitVec 5) (s : State) : Res :=
  .next (fpu 0x00 c G rd rs1 rs2 (fun a b _ => F32.add a b) s)
def execFsub (c : Fin 36) (G : BitVec 4) (rd rs1 rs2 : BitVec 5) (s : State) : Res :=
  .next (fpu 0x01 c G rd rs1 rs2 (fun a b _ => F32.sub a b) s)
def execFmul (c : Fin 36) (G : BitVec 4) (rd rs1 rs2 : BitVec 5) (s : State) : Res :=
  .next (fpu 0x02 c G rd rs1 rs2 (fun a b _ => F32.mul a b) s)
def execFfma (c : Fin 36) (G : BitVec 4) (rd rs1 rs2 : BitVec 5) (s : State) : Res :=
  .next (fpu 0x03 c G rd rs1 rs2 (fun a b d => F32.fma a b d) s)
def execFfms (c : Fin 36) (G : BitVec 4) (rd rs1 rs2 : BitVec 5) (s : State) : Res :=
  .next (fpu 0x04 c G rd rs1 rs2 (fun a b d => F32.fms a b d) s)
def execFdiv (c : Fin 36) (G : BitVec 4) (rd rs1 rs2 : BitVec 5) (s : State) : Res :=
  .next (fpu 0x05 c G rd rs1 rs2 (fun a b _ => F32.div a b) s)
def execFsqrt (c : Fin 36) (G : BitVec 4) (rd rs1 rs2 : BitVec 5) (s : State) : Res :=
  .next (fpu 0x06 c G rd rs1 rs2 (fun a _ _ => F32.sqrt a) s)
def execFmin (c : Fin 36) (G : BitVec 4) (rd rs1 rs2 : BitVec 5) (s : State) : Res :=
  .next (fpu 0x07 c G rd rs1 rs2 (fun a b _ => pure (F32.min a b)) s)
def execFmax (c : Fin 36) (G : BitVec 4) (rd rs1 rs2 : BitVec 5) (s : State) : Res :=
  .next (fpu 0x08 c G rd rs1 rs2 (fun a b _ => pure (F32.max a b)) s)
def execFabs (c : Fin 36) (G : BitVec 4) (rd rs1 rs2 : BitVec 5) (s : State) : Res :=
  .next (fpu 0x09 c G rd rs1 rs2 (fun a _ _ => pure (fAbs a)) s)
def execFneg (c : Fin 36) (G : BitVec 4) (rd rs1 rs2 : BitVec 5) (s : State) : Res :=
  .next (fpu 0x0A c G rd rs1 rs2 (fun a _ _ => pure (fNeg a)) s)
def execFclamp (c : Fin 36) (G : BitVec 4) (rd rs1 rs2 : BitVec 5) (s : State) : Res :=
  .next (fpu 0x0B c G rd rs1 rs2 (fun a b d => pure (F32.clamp d a b)) s)
def execCvtif (c : Fin 36) (G : BitVec 4) (rd rs1 rs2 : BitVec 5) (s : State) : Res :=
  .next (fpu 0x0C c G rd rs1 rs2 (fun a _ _ => F32.ofInt a.toInt) s)
def execCvtuf (c : Fin 36) (G : BitVec 4) (rd rs1 rs2 : BitVec 5) (s : State) : Res :=
  .next (fpu 0x0D c G rd rs1 rs2 (fun a _ _ => F32.ofInt a.toNat) s)
def execCvtfi (c : Fin 36) (G : BitVec 4) (rd rs1 rs2 : BitVec 5) (s : State) : Res :=
  .next (fpu 0x0E c G rd rs1 rs2 (fun a _ _ => do pure (toW (u32 (← F32.toI32 a)))) s)
def execCvtfu (c : Fin 36) (G : BitVec 4) (rd rs1 rs2 : BitVec 5) (s : State) : Res :=
  .next (fpu 0x0F c G rd rs1 rs2 (fun a _ _ => do pure (toW (u32 (← F32.toU32 a)))) s)
def execFtrunc (c : Fin 36) (G : BitVec 4) (rd rs1 rs2 : BitVec 5) (s : State) : Res :=
  .next (fpu 0x10 c G rd rs1 rs2 (fun a _ _ => pure (F32.trunc a)) s)
def execFfloor (c : Fin 36) (G : BitVec 4) (rd rs1 rs2 : BitVec 5) (s : State) : Res :=
  .next (fpu 0x11 c G rd rs1 rs2 (fun a _ _ => pure (F32.floor a)) s)
def execFsin (c : Fin 36) (G : BitVec 4) (rd rs1 rs2 : BitVec 5) (s : State) : Res :=
  .next (fpu 0x12 c G rd rs1 rs2 (fun a _ _ => F32.sin a) s)
def execFcos (c : Fin 36) (G : BitVec 4) (rd rs1 rs2 : BitVec 5) (s : State) : Res :=
  .next (fpu 0x13 c G rd rs1 rs2 (fun a _ _ => F32.cos a) s)

/-! ## Scaled moves (R258) -/

/-- SCLk_F at key 2k (1.0 unless written) and SCLk_C at key 2k + 1. -/
def sclDflt (i : Nat) : Word := if i % 2 = 0 then F32.one else 0
def Ctx.sclF (x : Ctx) (k : Nat) : Word := SMap.get sclDflt x.scl (2 * k)
def Ctx.sclC (x : Ctx) (k : Nat) : Nat := (SMap.get sclDflt x.scl (2 * k + 1)).toNat

/-- WIDTH 0b11: illegal at execution. -/
def Ctx.sclBad (x : Ctx) (k : Nat) : Bool := bits (x.sclC k) 17 16 == 3
/-- The width in bits, SGN and ZERO of a control word. -/
def sclWidth (w : Nat) : Nat := 8 * 2 ^ bits w 17 16
def sclZero (w : Nat) : Int := if bit w 18 then sw 16 (bits w 15 0 : Nat) else (bits w 15 0 : Nat)

/-- Fixed to binary32. -/
def smvf (f : Word) (cw : Nat) (a : Word) : FM Word := do
  let n := sclWidth cw
  let v : Int := if bit cw 18 then sw n a.toNat else (a.toNat % 2 ^ n : Nat)
  F32.mul (← F32.ofInt (v - sclZero cw)) f

/-- Binary32 to fixed. -/
def smvi (f : Word) (cw : Nat) (a : Word) : FM Word := do
  let n := sclWidth cw
  let z := sclZero cw
  let lo : Int := if bit cw 18 then -(2 ^ (n - 1) : Int) else 0
  let hi : Int := if bit cw 18 then (2 ^ (n - 1) : Int) - 1 else (2 ^ n : Int) - 1
  let y ← F32.mul a f
  let t : Int :=
    match F32.ofWord y with
    | .nan => z
    | .inf true => lo - 1
    | .inf false => hi + 1
    | v => F32.truncV v + z
  if F32.isNaN y || t < lo || hi < t then F32.raise F32.flagSAT
  pure (toW (u32 (max lo (min t hi))))

/-- A scaled move with SCL(rs2[1:0]); rs2[4:2] must be 0. -/
def scaled (fn : Nat) (c : Nat) (G : BitVec 4) (rd rs1 rs2 : BitVec 5) (f : Word → Nat → Word → FM Word) (s : State) : State :=
  let i : Insn := { word := encR 0x08 fn G rd rs1 rs2, bad := bits rs2.toNat 4 2 != 0 }
  let k := rs2.toNat % 4
  s.insn c G i (fun s =>
    if (s.core c).ctx.sclBad k then s.exc c vIllegal i.word
    else s.writeF c rd.toNat (fun x => f (x.sclF k) (x.sclC k) (x.reg rs1.toNat)))

def execSmvf (c : Fin 36) (G : BitVec 4) (rd rs1 rs2 : BitVec 5) (s : State) : Res := .next (scaled 0x14 c G rd rs1 rs2 smvf s)
def execSmvi (c : Fin 36) (G : BitVec 4) (rd rs1 rs2 : BitVec 5) (s : State) : Res := .next (scaled 0x15 c G rd rs1 rs2 smvi s)

/-! ## Long group (OP 0x3F): two words -/

/-- A long instruction that writes rd. -/
def longI (fn : Nat) (c : Nat) (G : BitVec 4) (rd rs1 : BitVec 5) (f : Word → Word) (s : State) : State :=
  s.insn c G { word := encL fn G rd rs1, len := 2 } (fun s => s.writeG c rd.toNat 2 (fun x => f (x.reg rs1.toNat)))

def execLi (c : Fin 36) (G : BitVec 4) (rd rs1 : BitVec 5) (imm : Word) (s : State) : Res :=
  .next (longI 0x000 c G rd rs1 (fun _ => imm) s)
def execAddi32 (c : Fin 36) (G : BitVec 4) (rd rs1 : BitVec 5) (imm : Word) (s : State) : Res :=
  .next (longI 0x001 c G rd rs1 (· + imm) s)
def execAndi32 (c : Fin 36) (G : BitVec 4) (rd rs1 : BitVec 5) (imm : Word) (s : State) : Res :=
  .next (longI 0x002 c G rd rs1 (· &&& imm) s)
def execOri32 (c : Fin 36) (G : BitVec 4) (rd rs1 : BitVec 5) (imm : Word) (s : State) : Res :=
  .next (longI 0x003 c G rd rs1 (· ||| imm) s)
def execXori32 (c : Fin 36) (G : BitVec 4) (rd rs1 : BitVec 5) (imm : Word) (s : State) : Res :=
  .next (longI 0x004 c G rd rs1 (· ^^^ imm) s)

end Sys2Proof.Machine
end

