-- ==== Sys2Proof/Machine/IsaMem.lean ====
section
/-! DEFINITION. Loads and stores (R252, R269, R270, R276). -/

namespace Sys2Proof.Machine

/-- EA = rs + OFS12. -/
def eaOf (base : Word) (ofs : Int) : Nat := u32 ((base.toNat : Int) + ofs)

/-- A load of `n` bytes; `f` extends the value to rd. -/
def loadOp (c : Nat) (G : BitVec 4) (i : Insn) (rd rb : BitVec 5) (ofs : Int) (n : Nat) (f : Nat → Word) (s : State) : State :=
  s.insn c G i (fun s => s.runG c i (do
    let v ← ldN c (eaOf ((s.core c).ctx.reg rb.toNat) ofs) n
    pure [(rd.toNat, f v)]))

/-- Format M. -/
def insnM (op : Nat) (G : BitVec 4) (rd rb : BitVec 5) (ofs : BitVec 12) : Insn := { word := encI op G rd rb ofs }

def execLdb (c : Fin 36) (G : BitVec 4) (rd rb : BitVec 5) (ofs : BitVec 12) (s : State) : Res :=
  .next (loadOp c G (insnM 0x09 G rd rb ofs) rd rb ofs.toInt 1 (fun v => toW (u32 (sw 8 v))) s)
def execLdbu (c : Fin 36) (G : BitVec 4) (rd rb : BitVec 5) (ofs : BitVec 12) (s : State) : Res :=
  .next (loadOp c G (insnM 0x0A G rd rb ofs) rd rb ofs.toInt 1 toW s)
def execLdh (c : Fin 36) (G : BitVec 4) (rd rb : BitVec 5) (ofs : BitVec 12) (s : State) : Res :=
  .next (loadOp c G (insnM 0x0B G rd rb ofs) rd rb ofs.toInt 2 (fun v => toW (u32 (sw 16 v))) s)
def execLdhu (c : Fin 36) (G : BitVec 4) (rd rb : BitVec 5) (ofs : BitVec 12) (s : State) : Res :=
  .next (loadOp c G (insnM 0x0C G rd rb ofs) rd rb ofs.toInt 2 toW s)
def execLdw (c : Fin 36) (G : BitVec 4) (rd rb : BitVec 5) (ofs : BitVec 12) (s : State) : Res :=
  .next (loadOp c G (insnM 0x0D G rd rb ofs) rd rb ofs.toInt 4 toW s)

/-- LDD moves the pair rd (low word) and rd + 1; RD must be even. -/
def execLdd (c : Fin 36) (G : BitVec 4) (rd rb : BitVec 5) (ofs : BitVec 12) (s : State) : Res :=
  let i := { insnM 0x0E G rd rb ofs with bad := rd.toNat % 2 != 0 }
  .next (s.insn c G i (fun s => s.runG c i (do
    let v ← ldN c (eaOf ((s.core c).ctx.reg rb.toNat) ofs.toInt) 8
    pure [(rd.toNat, toW v), (rd.toNat + 1, toW (v / 2 ^ 32))])))

/-- LDW32 (R250). -/
def execLdw32 (c : Fin 36) (G : BitVec 4) (rd rs1 : BitVec 5) (imm : Word) (s : State) : Res :=
  .next (loadOp c G { word := encL 0x005 G rd rs1, len := 2 } rd rs1 imm.toInt 4 toW s)

/-- A posted store of `n` bytes: an access error arrives later as ACCESS_ASYNC (R276). -/
def State.postStore (s : State) (c : Nat) (i : Insn) (ea n v : Nat) : State :=
  if ea % n ≠ 0 then s.exc c vAlign ea
  else
    let r := s.coreWrite c ea n v
    match r.1 with
    | .xlate => r.2.exc c vXlate ea
    | .access => ((r.2.storeError c ea).notePosted c).finish c i.len id
    | .val _ _ => (r.2.notePosted c).finish c i.len id

/-- A store of `n` bytes of a value made from the register state. -/
def storeOp (c : Nat) (G : BitVec 4) (i : Insn) (rb : BitVec 5) (ofs : Int) (n : Nat) (f : Ctx → Nat) (s : State) : State :=
  s.insn c G i (fun s =>
    s.postStore c i (eaOf ((s.core c).ctx.reg rb.toNat) ofs) n (f (s.core c).ctx))

def execStb (c : Fin 36) (G : BitVec 4) (rd rb : BitVec 5) (ofs : BitVec 12) (s : State) : Res :=
  .next (storeOp c G (insnM 0x0F G rd rb ofs) rb ofs.toInt 1 (fun x => (x.reg rd.toNat).toNat % 256) s)
def execSth (c : Fin 36) (G : BitVec 4) (rd rb : BitVec 5) (ofs : BitVec 12) (s : State) : Res :=
  .next (storeOp c G (insnM 0x10 G rd rb ofs) rb ofs.toInt 2 (fun x => (x.reg rd.toNat).toNat % 65536) s)
def execStw (c : Fin 36) (G : BitVec 4) (rd rb : BitVec 5) (ofs : BitVec 12) (s : State) : Res :=
  .next (storeOp c G (insnM 0x11 G rd rb ofs) rb ofs.toInt 4 (fun x => (x.reg rd.toNat).toNat) s)
def execStd (c : Fin 36) (G : BitVec 4) (rd rb : BitVec 5) (ofs : BitVec 12) (s : State) : Res :=
  .next (storeOp c G { insnM 0x12 G rd rb ofs with bad := rd.toNat % 2 != 0 } rb ofs.toInt 8
    (fun x => (x.reg rd.toNat).toNat + 2 ^ 32 * (x.reg (rd.toNat + 1)).toNat) s)
def execStw32 (c : Fin 36) (G : BitVec 4) (rd rs1 : BitVec 5) (imm : Word) (s : State) : Res :=
  .next (storeOp c G { word := encL 0x006 G rd rs1, len := 2 } rs1 imm.toInt 4 (fun x => (x.reg rd.toNat).toNat) s)

end Sys2Proof.Machine
end

