-- ==== Sys2Proof/Machine/IsaFlow.lean ====
section
/-! DEFINITION. Branches, repeats, the SYS group, special registers, the MMU group (R244, R247, R248, R250 to R252, R264,
R271 to R274, R280), and debug halts (R12, R345). -/

namespace Sys2Proof.Machine

/-! ## Branches (R250, R252, R273) -/

/-- A taken branch: two delay slots, then `target`. -/
def State.branchTo (s : State) (c target : Nat) (f : Ctx → Ctx) : State :=
  s.modCore c (fun k =>
    let x := f k.ctx
    { k with ctx := { x with pc := x.pc + 4, ds := 2, tk := true, bta := target } })

/-- g30 receives the address after the second delay slot. -/
def Ctx.link (a : Nat) (x : Ctx) : Ctx := x.setReg 30 (toW a)

/-- The address of the branch plus 4 × DISP22. -/
def jTarget (pc : Nat) (disp : BitVec 22) : Nat := u32 ((pc : Int) + 4 * disp.toInt)

def insnJ (op : Nat) (G : BitVec 4) (disp : BitVec 22) : Insn := { word := encJ op G disp, noSlot := true, branch := true }

def execB (c : Fin 36) (G : BitVec 4) (disp : BitVec 22) (s : State) : Res :=
  .next (s.insn c G (insnJ 0x13 G disp) (fun s => s.branchTo c (jTarget (s.core c).ctx.pc disp) id))
def execBl (c : Fin 36) (G : BitVec 4) (disp : BitVec 22) (s : State) : Res :=
  .next (s.insn c G (insnJ 0x14 G disp) (fun s =>
    s.branchTo c (jTarget (s.core c).ctx.pc disp) (Ctx.link (s.afterSlots c (s.core c).ctx.pc))))

/-- BR and BLR: target rs1; a target that is not word-aligned is illegal. -/
def branchReg (fn : Nat) (c : Nat) (G : BitVec 4) (rd rs1 rs2 : BitVec 5) (lk : Bool) (s : State) : State :=
  let i : Insn := { word := encR 0x15 fn G rd rs1 rs2, noSlot := true, branch := true }
  s.insn c G i (fun s =>
    let t := ((s.core c).ctx.reg rs1.toNat).toNat
    if t % 4 ≠ 0 then s.exc c vIllegal i.word
    else if lk then s.branchTo c t (Ctx.link (s.afterSlots c (s.core c).ctx.pc))
    else s.branchTo c t id)

def execBr (c : Fin 36) (G : BitVec 4) (rd rs1 rs2 : BitVec 5) (s : State) : Res := .next (branchReg 0x00 c G rd rs1 rs2 false s)
def execBlr (c : Fin 36) (G : BitVec 4) (rd rs1 rs2 : BitVec 5) (s : State) : Res := .next (branchReg 0x01 c G rd rs1 rs2 true s)

/-! ## REP (R264) -/

/-- The registers of a repeat level start. -/
def Ctx.startRep (x : Ctx) (n lea : Nat) (rot : Bool) : Ctx :=
  let y := { x with pc := x.pc + 4 }
  if x.lc0 = 0 then { y with lc0 := n, lsa0 := x.pc + 4, lea0 := lea, rot0 := rot }
  else { y with lc1 := n, lsa1 := x.pc + 4, lea1 := lea, rot1 := rot }

def execRep (c : Fin 36) (G : BitVec 4) (body : BitVec 8) (ci rot : Bool) (cnt : BitVec 12) (s : State) : Res :=
  let i : Insn := { word := encQ G body ci rot cnt, bad := !ci && bits cnt.toNat 6 0 != 0, noSlot := true }
  .next (s.insn c G i (fun s =>
    let x := (s.core c).ctx
    let n := if ci then cnt.toNat else (x.reg (bits cnt.toNat 11 7)).toNat
    let lea := x.pc + 4 * (body.toNat + 1)
    if x.lsusp || (x.lc0 ≠ 0 && (x.lc1 ≠ 0 || x.lea0 < lea)) then s.exc c vIllegal i.word
    else if 65535 < n then s.exc c vLength n
    else if n = 0 then s.setCtx c { x with pc := x.pc + 4 * (body.toNat + 2) }
    else s.setCtx c (x.startRep n lea rot)))

/-! ## SYS group (OP 0x17) -/

def insnR (op fn : Nat) (G : BitVec 4) (rd rs1 rs2 : BitVec 5) : Insn := { word := encR op fn G rd rs1 rs2 }

def execNop (c : Fin 36) (G : BitVec 4) (rd rs1 rs2 : BitVec 5) (s : State) : Res :=
  .next (s.insn c G (insnR 0x17 0x00 G rd rs1 rs2) (fun s => s.finish c 1 id))

/-- Every earlier store and posted instruction of the placement is acknowledged, and every error taken (R276). -/
def State.fenced (s : State) (c : Nat) : Bool :=
  let k := s.core c
  k.ctx.async.isNone && (k.detached || (s.strand k.strand).errs.isEmpty) &&
    s.dsp.posted.all (fun m => !(m.strand == k.strand && m.epoch == k.epoch))

/-- FENCE: while something is outstanding it stalls, and is given again. -/
def execFence (c : Fin 36) (G : BitVec 4) (rd rs1 rs2 : BitVec 5) (s : State) : Res :=
  .next (s.insn c G (insnR 0x17 0x01 G rd rs1 rs2) (fun s =>
    if s.fenced c then
      (if (s.core c).detached then s else s.modStrand (s.core c).strand (fun u => { u with posted := false })).finish c 1 id
    else s))

/-- An exception whose return point is the next instruction (R279). -/
def State.excAfter (s : State) (c vec einfo : Nat) : State :=
  let s := s.finish c 1 id
  (s.modCore c (fun k => { k with ctx := { k.ctx with ds := 0, tk := false, bta := 0 } })).exc c vec einfo

def execSyscall (c : Fin 36) (G : BitVec 4) (rd rs1 rs2 : BitVec 5) (s : State) : Res :=
  .next (s.insn c G (insnR 0x17 0x02 G rd rs1 rs2) (fun s => s.excAfter c vSyscall rs1.toNat))

/-- ERET (R280, R274). -/
def execEret (c : Fin 36) (G : BitVec 4) (rd rs1 rs2 : BitVec 5) (s : State) : Res :=
  let i := { insnR 0x17 0x03 G rd rs1 rs2 with noSlot := true, noBody := true }
  .next (s.insn c G i (fun s =>
    if !isCC c && !(s.core c).ctx.kern then s.exc c vPriv i.word else s.eret c))

/-- A debug halt of core `c` (R12, R312, R343): its prefetch slot is released, its governed channels freeze. -/
def State.debugHalt (s : State) (c : Nat) : State :=
  if (s.core c).dbgHalt then s
  else
    let s := (s.modCore c (fun k => { k with dbgHalt := true })).syncHalt c
    (s.freeSlot c).freezeCore c

/-- The end of a debug halt (R345). -/
def State.haltEnd (s : State) (c : Nat) : State :=
  if !(s.core c).dbgHalt then s
  else ((s.modCore c (fun k => { k with dbgHalt := false })).syncHalt c).thawCore c

/-- DEBUG_HALT (R12). -/
def execDebugHalt (c : Fin 36) (s : State) : Res := .next (s.debugHalt c)
/-- HALT_END (R345). -/
def execHaltEnd (c : Fin 36) (s : State) : Res := .next ((s.haltEnd c).settle c)

/-- BRK: a debug halt with a debugger attached, otherwise BREAK (R251). -/
def execBrk (c : Fin 36) (G : BitVec 4) (rd rs1 rs2 : BitVec 5) (s : State) : Res :=
  .next (s.insn c G (insnR 0x17 0x04 G rd rs1 rs2) (fun s =>
    if s.dsp.debugger then (s.finish c 1 id).debugHalt c else s.excAfter c vBreak (s.core c).ctx.pc))

/-! ## Special registers (R244, R271) -/

/-- What an access to a special register raises: 0 nothing, or a vector. VBASE and the MMU registers of a supervisor core
need K = 1; of ILLEGAL (R244) and PRIV the smaller priority number is taken (R275, notes/assumptions/2029.md). -/
def srFault (c : Nat) (kern : Bool) (sr : Nat) : Nat :=
  if sr < 0x0A || (0x10 ≤ sr && sr < 0x18) || (0x40 ≤ sr && sr < 0x43) then 0
  else if 0x20 ≤ sr && sr < 0x2E then (if isCC c then 0 else vIllegal)
  else if sr = 0x51 then (if isCC c || kern then 0 else vIllegal)
  else if 0x50 ≤ sr && sr < 0x56 then 0
  else if 0x60 ≤ sr && sr < 0x63 then (if !isCC c && kern then 0 else vIllegal)
  else vIllegal

/-- LCTL. -/
def Ctx.lctl (x : Ctx) : Nat := b2n x.lsusp * 256 + b2n x.rot1 * 2 + b2n x.rot0

/-- The value MFS reads. CLK is a free word: the model counts no core clocks. -/
def State.srRead (s : State) (c sr : Nat) : Nat :=
  let k := s.core c
  let x := k.ctx
  match sr with
  | 0x000 => x.ssw.toNat
  | 0x001 => x.prog
  | 0x002 => x.sld
  | 0x003 => putBits x.p.toNat 0 0 1
  | 0x004 => x.lc0
  | 0x005 => x.lc1
  | 0x006 => x.lsa0
  | 0x007 => x.lsa1
  | 0x008 => x.lea0
  | 0x009 => x.lea1
  | 0x040 => if isCC c then c else 64 + c
  | 0x041 => k.strand
  | 0x042 => (Config.freeWord s.free).toNat
  | 0x050 => x.lctl
  | 0x051 => x.vbase
  | 0x052 => x.swlo
  | 0x053 => x.swhi
  | 0x054 => x.holdoff
  | 0x055 => s.f (R.ST_IPEND k.strand)
  | 0x060 => k.ttbrLo
  | 0x061 => k.ttbrHi
  | 0x062 => k.mmuctl
  | _ =>
    if 0x10 ≤ sr && sr < 0x14 then (x.sclF (sr - 0x10)).toNat
    else if 0x14 ≤ sr && sr < 0x18 then x.sclC (sr - 0x14)
    else x.segOf (sr - 0x20)

/-- SSW after a write of `v`: RO fields keep; K and DOM of a supervisor core only with K = 1. -/
def sswWrite (cc : Bool) (ssw v : Nat) : Nat :=
  let m := bits v 30 30 * 2 ^ 30 + bits ssw 29 29 * 2 ^ 29 + bits v 4 0
  let from' := if !cc && bit ssw 31 then v else ssw
  m + bits from' 31 31 * 2 ^ 31 + bits from' 23 16 * 2 ^ 16

def Ctx.setScl (x : Ctx) (i : Nat) (v : Word) : Ctx := { x with scl := SMap.put sclDflt x.scl i v }

/-- The register state after MTS of `v`; writes to RO registers are ignored. -/
def srWrite (c sr v : Nat) (k : Core) : Core :=
  let x := k.ctx
  match sr with
  | 0x000 => { k with ctx := { x with ssw := toW (sswWrite (isCC c) x.ssw.toNat v) } }
  | 0x001 => { k with ctx := { x with prog := bits v 12 0 } }
  | 0x002 => { k with ctx := { x with sld := v % 32 } }
  | 0x003 => { k with ctx := { x with p := BitVec.ofNat 8 (putBits v 0 0 1) } }
  | 0x004 => { k with ctx := { x with lc0 := v % 65536 } }
  | 0x005 => { k with ctx := { x with lc1 := v % 65536 } }
  | 0x006 => { k with ctx := { x with lsa0 := v } }
  | 0x007 => { k with ctx := { x with lsa1 := v } }
  | 0x008 => { k with ctx := { x with lea0 := v } }
  | 0x009 => { k with ctx := { x with lea1 := v } }
  | 0x050 => { k with ctx := { x with lsusp := bit v 8, rot1 := bit v 1, rot0 := bit v 0 } }
  | 0x051 => if isCC c then k else { k with ctx := { x with vbase := v - v % 2048 } }
  | 0x060 => { k with ttbrLo := v - v % 8192 }
  | 0x061 => { k with ttbrHi := bits v 19 0 }
  | 0x062 => { k with mmuctl := bits v 0 0 }
  | _ =>
    if 0x10 ≤ sr && sr < 0x14 then { k with ctx := x.setScl (2 * (sr - 0x10)) (toW v) }
    else if 0x14 ≤ sr && sr < 0x18 then { k with ctx := x.setScl (2 * (sr - 0x14) + 1) (toW (bits v 18 0)) }
    else if 0x20 ≤ sr && sr < 0x2E then { k with ctx := { x with seg := SMap.put (fun _ => 0) x.seg (sr - 0x20) (bits v 23 0) } }
    else k

def execMfs (c : Fin 36) (G : BitVec 4) (rd : BitVec 5) (sr : BitVec 12) (s : State) : Res :=
  let i : Insn := { word := encS 0x25 G rd sr }
  .next (s.insn c G i (fun s =>
    let f := srFault c (s.core c).ctx.kern sr.toNat
    if f ≠ 0 then s.exc c f i.word
    else
      let v := s.srRead c sr.toNat
      (if sr.toNat = 0x042 then s.burn else s).writeG c rd.toNat 1 (fun _ => toW v)))

def execMts (c : Fin 36) (G : BitVec 4) (rd : BitVec 5) (sr : BitVec 12) (s : State) : Res :=
  let i : Insn := { word := encS 0x26 G rd sr }
  .next (s.insn c G i (fun s =>
    let f := srFault c (s.core c).ctx.kern sr.toNat
    if f ≠ 0 then s.exc c f i.word
    else (s.modCore c (fun k => srWrite c sr.toNat (k.ctx.reg rd.toNat).toNat k)).finish c 1 id))

/-! ## MMU group (OP 0x30) -/

/-- An MMU instruction: illegal on a control core, PRIV with K = 0. -/
def mmuOp (fn : Nat) (c : Nat) (G : BitVec 4) (rd rs1 rs2 : BitVec 5) (f : Ctx → List Tlb → List Tlb) (s : State) : State :=
  let i := insnR 0x30 fn G rd rs1 rs2
  s.insn c G i (fun s =>
    if isCC c then s.exc c vIllegal i.word
    else if !(s.core c).ctx.kern then s.exc c vPriv i.word
    else (s.modCore c (fun k => { k with tlb := f k.ctx k.tlb })).finish c 1 id)

def execTlbinv (c : Fin 36) (G : BitVec 4) (rd rs1 rs2 : BitVec 5) (s : State) : Res :=
  .next (mmuOp 0x00 c G rd rs1 rs2 (fun x l => l.filter (fun t => !t.hits x.dom (x.reg rs1.toNat).toNat)) s)
def execTlbinvd (c : Fin 36) (G : BitVec 4) (rd rs1 rs2 : BitVec 5) (s : State) : Res :=
  .next (mmuOp 0x01 c G rd rs1 rs2 (fun x l => l.filter (fun t => t.glob || t.dom != (x.reg rs1.toNat).toNat % 256)) s)
def execTlbinva (c : Fin 36) (G : BitVec 4) (rd rs1 rs2 : BitVec 5) (s : State) : Res :=
  .next (mmuOp 0x02 c G rd rs1 rs2 (fun _ _ => []) s)
/-- The caches hold nothing of their own in this model (notes/assumptions/2030.md): these three only complete. -/
def execIcinv (c : Fin 36) (G : BitVec 4) (rd rs1 rs2 : BitVec 5) (s : State) : Res :=
  .next (mmuOp 0x03 c G rd rs1 rs2 (fun _ l => l) s)
def execDcfl (c : Fin 36) (G : BitVec 4) (rd rs1 rs2 : BitVec 5) (s : State) : Res :=
  .next (mmuOp 0x04 c G rd rs1 rs2 (fun _ l => l) s)
def execDcfla (c : Fin 36) (G : BitVec 4) (rd rs1 rs2 : BitVec 5) (s : State) : Res :=
  .next (mmuOp 0x05 c G rd rs1 rs2 (fun _ l => l) s)

end Sys2Proof.Machine
end

