-- ==== Sys2Proof/Machine/IsaStrand.lean ====
section
/-! DEFINITION. The strand group and the knot group (R222, R265, R282, R293, R307, R311, R315). -/

namespace Sys2Proof.Machine

/-- The g register of an R-format operand. -/
def State.gOf (s : State) (c : Nat) (r : BitVec 5) : Nat := ((s.core c).ctx.reg r.toNat).toNat

/-- Whether register accesses of core `c` reach island DSP now: a read that every domain may make is performed. -/
def State.dspReach (s : State) (c : Nat) : Verdict := s.check (s.coreWho c) R.KE_POOL_FREE_W 4 0 .read

/-! ## WAITOP -/

/-- The strand ends its activation (R265, R293, R306): WAITING at the WAITOP, or READY after it where its wait set is full. -/
def State.waitop (s : State) (c : Nat) : State :=
  let t := (s.core c).strand
  if (s.core c).detached then s.endDetached c
  else
    let stop := s.stopDue c
    let s := s.traceS 3 t c 0
    let s := s.suspend c
    let s :=
      if s.f (R.ST_WAIT_WTAGS t) ≠ 0 && s.f (R.ST_WAIT_WEMPTY t) == 0 then
        (s.modStrand t (fun u => { u with saved := { u.saved with pc := u.saved.pc + 4 } })).makeReady t s.gnow 0xFFFFFFFF
      else s.setSt t stWaiting
    s.vacated c t stop

def execWaitop (c : Fin 36) (G : BitVec 4) (rd rs1 rs2 : BitVec 5) (s : State) : Res :=
  let i := { insnR 0x18 0x00 G rd rs1 rs2 with noSlot := true, noBody := true }
  .next (s.insn c G i (fun s => s.waitop c))

/-! ## RELEASE (R307) -/

/-- The bytes of a record of `n` words from `ea`, with the strand's rights. -/
def recordWords (c : Nat) : Nat → Nat → CM (List Byte)
  | _, 0 => pure []
  | ea, n + 1 => do
    let v ← ldN c (ea % 2 ^ 32) 4
    let l ← recordWords c (ea + 4) n
    pure (leBytes 4 v ++ l)

/-- The record at `ea`: LEN comes from its header; a record that R307 refuses for its place or length travels as its header. -/
def recordAt (c ea : Nat) : CM (List Byte) := do
  if ea % 4 ≠ 0 then pure []
  else
    let h ← ldN c ea 4
    let len := bits h 27 16
    if ea % 16 ≠ 0 || len % 16 ≠ 0 || len < 32 || 256 < len then pure (leBytes 4 h)
    else recordWords c ea (len / 4)

def execRelease (c : Fin 36) (G : BitVec 4) (rd rs1 rs2 : BitVec 5) (s : State) : Res :=
  .next (s.insn c G (insnR 0x18 0x01 G rd rs1 rs2) (fun s =>
    let ea := s.gOf c rs1
    match (recordAt c ea).run { s := s } with
    | (.error e, r) => r.s.exc c e.1 e.2
    | (.ok b, r) =>
      let k := r.s.core c
      let m : RelMsg := ⟨k.strand, k.epoch, k.ctx.dom, ea, b, c⟩
      let s := { r.s with dsp := { r.s.dsp with posted := r.s.dsp.posted ++ [m] } }
      (s.notePosted c).finish c 1 id))

/-! ## TAGRD, TAGWR -/

/-- The strand on core `c` may read tag `t` (R315); a detached placement may not (R311). -/
def State.tagOk (s : State) (c t : Nat) : Bool :=
  !(s.core c).detached && s.on (R.TAG_CTL_OWNED t) && s.f (R.TAG_CTL_OWNER t) == (s.core c).strand

/-- TAGRD: the value, and the tag is emptied; the core stalls for it (R269). -/
def execTagrd (c : Fin 36) (G : BitVec 4) (rd rs1 rs2 : BitVec 5) (s : State) : Res :=
  let i := insnR 0x18 0x02 G rd rs1 rs2
  .next (s.insn c G i (fun s =>
    let s := s.dspOrder c
    let t := s.gOf c rs1 % 2 ^ 14
    match s.dspReach c with
    | .ok =>
      if !s.tagOk c t then s.exc c vAccess (R.TAG_VALUE_W t)
      else
        let v := s.f (R.TAG_VALUE t)
        let s := if s.on (R.TAG_CTL_FULL t) then
            s.modStrand (s.core c).strand (fun u => { u with tagrd := u.tagrd ++ [(t, v)] }) else s
        (s.emptyTag t).deliver c (some (islDSP, R.TAG_VALUE_W t)) i [(rd.toNat, toW v)]
    | vd => (s.refuse vd (s.coreWho c) (R.TAG_VALUE_W t) false).exc c vAccess (R.TAG_VALUE_W t)))

/-- A register write of a tag or knot instruction, whose error is ACCESS at once (R275); none from a detached placement. -/
def State.dspStore (s : State) (c a v : Nat) : State :=
  if (s.core c).detached then s.exc c vAccess a
  else
    let r := (s.dspOrder c).regWrite (s.coreWho c) a v
    if r.1 then (r.2.notePosted c).finish c 1 id
    else r.2.exc c vAccess a

/-- TAGWR: rs2 fills the tag, as a write of TAG[t].VALUE (R265, R298, R315). -/
def execTagwr (c : Fin 36) (G : BitVec 4) (rd rs1 rs2 : BitVec 5) (s : State) : Res :=
  .next (s.insn c G (insnR 0x18 0x03 G rd rs1 rs2) (fun s =>
    s.dspStore c (R.TAG_VALUE_W (s.gOf c rs1 % 2 ^ 14)) (s.gOf c rs2)))

/-! ## Knot instructions (R222) -/

/-- The command register of knot slot `k`. -/
def kCmdAddr (k : Nat) : Nat := u32 ((0x10301000 : Int) + 0x40 * k)

def execKopen (c : Fin 36) (G : BitVec 4) (rd rs1 rs2 : BitVec 5) (s : State) : Res :=
  let i := insnR 0x19 0x00 G rd rs1 rs2
  .next (s.insn c G i (fun s =>
    if (s.core c).detached then s.exc c vAccess (kCmdAddr 0)
    else
      match s.dspReach c with
      | .ok =>
        let r := (s.dspOrder c).kopen (s.core c).ctx.dom (s.gOf c rs1)
        r.2.deliver c (some (islDSP, kCmdAddr 0)) i [(rd.toNat, toW r.1)]
      | vd => (s.refuse vd (s.coreWho c) (kCmdAddr 0) true).exc c vAccess (kCmdAddr 0)))

/-- KADD: the entry is read with the strand's rights; gp is aligned to 16 bytes. -/
def execKadd (c : Fin 36) (G : BitVec 4) (rd rs1 rs2 : BitVec 5) (s : State) : Res :=
  let i := insnR 0x19 0x01 G rd rs1 rs2
  .next (s.insn c G i (fun s =>
    let k := s.gOf c rs1
    let gp := s.gOf c rs2
    match ((preCheck c [(gp, 16, .read)]).run { s := s }).1 with
    | .error e => s.exc c e.1 e.2
    | .ok _ =>
    if (s.core c).detached || 64 ≤ k then s.exc c vAccess (kCmdAddr k)
    else
      match (recordWords c gp 4).run { s := s } with
      | (.error e, r) => r.s.exc c e.1 e.2
      | (.ok b, r) =>
        let s := r.s.dspOrder c
        match s.check (s.coreWho c) (kCmdAddr k) 4 (2 * 2 ^ 28) .write with
        | .ok =>
          (s.knotAdd k ((List.range 4).map (fun j => leAt b (4 * j) 4))).deliver c (some (islDSP, kCmdAddr k)) i []
        | vd => (s.refuse vd (s.coreWho c) (kCmdAddr k) true).exc c vAccess (kCmdAddr k)))

def execKclose (c : Fin 36) (G : BitVec 4) (rd rs1 rs2 : BitVec 5) (s : State) : Res :=
  .next (s.insn c G (insnR 0x19 0x02 G rd rs1 rs2) (fun s =>
    let k := s.gOf c rs1
    if 64 ≤ k then s.exc c vAccess (kCmdAddr k) else s.dspStore c (kCmdAddr k) (3 * 2 ^ 28)))

end Sys2Proof.Machine
end

