-- ==== Sys2Proof/Machine/IsaBlock.lean ====
section
/-! DEFINITION. The DSP group and the block groups (R259 to R262, R266, R287). -/

namespace Sys2Proof.Machine

/-! ## DSP group (OP 0x1A) -/

/-- A DSP instruction that computes rd; `cnt` must be 0 unless it is a stage count. -/
def dspOp (fn : Nat) (c : Nat) (G : BitVec 4) (rd rs1 rs2 : BitVec 5) (cnt : BitVec 3) (stages : Bool)
    (m : Nat → Word → Nat → Word → CM (List (Nat × Word))) (s : State) : State :=
  let i : Insn := { word := encD fn G rd rs1 rs2 cnt, bad := !stages && cnt != 0 }
  s.insn c G i (fun s =>
    let x := (s.core c).ctx
    s.runG c i (m c (x.reg rs1.toNat) (x.reg rs2.toNat).toNat (x.reg rd.toNat)))

/-- A biquad stage record of 32 bytes (R259): B0, B1, B2, A1, A2, S1, S2. -/
structure BStage where
  b0 : Word
  b1 : Word
  b2 : Word
  a1 : Word
  a2 : Word
  s1 : Word
  s2 : Word
  deriving DecidableEq, Repr

/-- The stage record at `a`. -/
def readStage (c a : Nat) : CM BStage := do
  pure ⟨← ldW c a, ← ldW c (a + 4), ← ldW c (a + 8), ← ldW c (a + 12), ← ldW c (a + 16), ← ldW c (a + 20), ← ldW c (a + 24)⟩

/-- One stage of R111: the output, and the record with its new states. -/
def runStage (b : BStage) (x : Word) : FM (Word × BStage) := do
  let y ← F32.fma b.b0 x b.s1
  let t ← F32.fma b.b1 x b.s2
  let s1 ← F32.fma (F32.neg b.a1) y t
  let t ← F32.mul b.b2 x
  let s2 ← F32.fma (F32.neg b.a2) y t
  pure (y, { b with s1 := s1, s2 := s2 })

/-- The states go back to the record. -/
def writeStage (c a : Nat) (b : BStage) : CM Unit := do
  stW c (a + 20) b.s1
  stW c (a + 24) b.s2

/-- `m` records from `a`. -/
def readStages (c : Nat) : Nat → Nat → CM (List BStage)
  | _, 0 => pure []
  | a, n + 1 => do
    let b ← readStage c a
    let l ← readStages c (a + 32) n
    pure (b :: l)

def runStages : List BStage → Word → FM (Word × List BStage)
  | [], x => pure (x, [])
  | b :: l, x => do
    let r ← runStage b x
    let q ← runStages l r.1
    pure (q.1, r.2 :: q.2)

def writeStages (c : Nat) : Nat → List BStage → CM Unit
  | _, [] => pure ()
  | a, b :: l => do
    writeStage c a b
    writeStages c (a + 32) l

/-- The words that `n` stages from `a` read and write. -/
def stageAddrs (a n : Nat) : List (Nat × Nat × Right) :=
  (List.range n).flatMap (fun j =>
    (List.range 7).map (fun i => ((a + 32 * j + 4 * i) % 2 ^ 32, 4, (.read : Right))) ++
      [((a + 32 * j + 20) % 2 ^ 32, 4, .write), ((a + 32 * j + 24) % 2 ^ 32, 4, .write)])

/-- BIQ (R259): CNT + 1 stages in sequence. -/
def execBiq (c : Fin 36) (G : BitVec 4) (rd rs1 rs2 : BitVec 5) (cnt : BitVec 3) (s : State) : Res :=
  .next (dspOp 0x0 c G rd rs1 rs2 cnt true (fun c x a _ => do
    preCheck c (stageAddrs a (cnt.toNat + 1))
    let l ← readStages c a (cnt.toNat + 1)
    let r ← fm (runStages l x)
    writeStages c a r.2
    pure [(rd.toNat, r.1)]) s)

/-- PI (R260): KP at 0, I at 16. -/
def execPi (c : Fin 36) (G : BitVec 4) (rd rs1 rs2 : BitVec 5) (cnt : BitVec 3) (s : State) : Res :=
  .next (dspOp 0x1 c G rd rs1 rs2 cnt false (fun c e a _ => do
    preCheck c [(a, 4, .read), ((a + 16) % 2 ^ 32, 4, .read)]
    let kp ← ldW c a
    let i ← ldW c (a + 16)
    let r ← fm (F32.fma kp e i)
    pure [(rd.toNat, r)]) s)

/-- PIU (R260): KI at 4, KAW at 8, LIM at 12, I at 16. -/
def execPiu (c : Fin 36) (G : BitVec 4) (rd rs1 rs2 : BitVec 5) (cnt : BitVec 3) (s : State) : Res :=
  .next (dspOp 0x2 c G rd rs1 rs2 cnt false (fun c e a d => do
    preCheck c [((a + 4) % 2 ^ 32, 4, .read), ((a + 8) % 2 ^ 32, 4, .read), ((a + 12) % 2 ^ 32, 4, .read),
      ((a + 16) % 2 ^ 32, 4, .read), ((a + 16) % 2 ^ 32, 4, .write)]
    let ki ← ldW c (a + 4)
    let kaw ← ldW c (a + 8)
    let lim ← ldW c (a + 12)
    let i ← ldW c (a + 16)
    let i ← fm (F32.fma ki e i)
    let i ← fm (F32.fma kaw d i)
    stW c (a + 16) (F32.clamp i (F32.neg lim) lim)
    pure []) s)

/-- TINT (R261): `n` segments, abscissa `r`, points from `a`. -/
def tint (c n : Nat) (r : Word) (a : Nat) : CM Word :=
  if n = 0 || 4095 < n || F32.isNaN r then pure F32.qnan
  else if F32.le r 0 then ldW c a
  else do
    let i ← fm (F32.toU32 r)
    let i := i.toNat
    if n ≤ i then ldW c (a + 4 * n)
    else
      preCheck c [((a + 4 * i) % 2 ^ 32, 4, .read), ((a + 4 * (i + 1)) % 2 ^ 32, 4, .read)]
      let p ← ldW c (a + 4 * i)
      let q ← ldW c (a + 4 * (i + 1))
      fm (do
        let f ← F32.ofInt i
        F32.fma (← F32.sub r f) (← F32.sub q p) p)

def execTint (c : Fin 36) (G : BitVec 4) (rd rs1 rs2 : BitVec 5) (cnt : BitVec 3) (s : State) : Res :=
  .next (dspOp 0x3 c G rd rs1 rs2 cnt false (fun c r a n => do
    let v ← tint c n.toNat r a
    pure [(rd.toNat, v)]) s)

/-- A table in MRAM takes no atomic operation (R28, R262). -/
def notMram (c ea : Nat) : CM Unit := fun r =>
  match (r.s.place c ea (r.s.core c).ctx.kern .write).1 with
  | .phys a =>
    if r.s.range a == some .mramLog || r.s.range a == some .mramData then (.error (vAccess, ea), r) else (.ok (), r)
  | _ => (.ok (), r)

/-- The body of RLU (R262): the value of rd. -/
def rlu (c tab desc : Nat) : CM Nat := do
  preCheck c ((List.range 5).map (fun i => ((desc + 4 * i) % 2 ^ 32, 4, (.read : Right))) ++
    [(tab, 4, .read), ((tab + 12) % 2 ^ 32, 4, .read), ((tab + 12) % 2 ^ 32, 4, .write)])
  let index ← ldN c (desc % 2 ^ 32) 4
  let eMean ← ldW c (desc + 4)
  let q ← ldW c (desc + 8)
  let l ← ldW c (desc + 12)
  let umax ← ldW c (desc + 16)
  notMram c tab
  let fl ← ldN c ((tab + 6) % 2 ^ 32) 1
  if fl % 2 = 1 then pure 0
  else
    let nb ← ldN c ((tab + 4) % 2 ^ 32) 2
    if nb ≤ index then pure 3
    else
      let a := tab + 32 + 4 * index
      preCheck c [(a % 2 ^ 32, 4, .read), (a % 2 ^ 32, 4, .write)]
      let u ← ldW c a
      let m ← fm (F32.mul q u)
      let t ← fm (F32.fma l eMean m)
      let t := F32.clamp t (F32.neg umax) umax
      let ok := F32.isFinite t
      let upd ← ldN c ((tab + 12) % 2 ^ 32) 4
      stW c a (if ok then t else 0)
      stN c ((tab + 12) % 2 ^ 32) 4 ((upd + 1) % 2 ^ 32)
      pure (if ok then 1 else 2)

/-- RLU always stalls the core (R269). -/
def execRlu (c : Fin 36) (G : BitVec 4) (rd rs1 rs2 : BitVec 5) (cnt : BitVec 3) (s : State) : Res :=
  .next (dspOp 0x4 c G rd rs1 rs2 cnt false (fun c tab desc _ => do
    let v ← rlu c tab.toNat desc
    (fun r => (.ok (), { r with slow := r.waits c tab.toNat .write true }) : CM Unit)
    pure [(rd.toNat, toW v)]) s)

/-! ## Block groups (OP 0x1B to 0x1D) -/

/-- `k` elements from element `i`: how far the loop came, and the error that stopped it. -/
def blockLoop (f : Nat → CM Unit) : Nat → Nat → Run → Nat × Option (Nat × Nat) × Run
  | 0, i, r => (i, none, r)
  | k + 1, i, r =>
    match (f i).run r with
    | (.ok _, r') => blockLoop f k (i + 1) r'
    | (.error e, r') => (i, some e, { r' with fl := r.fl })

/-- The element boundary at which a block of `n` elements stops: its end; or, where an interrupt entry of the core waits behind
it and R283 allows entry, a free one after element `p` (R287, notes/assumptions/1015.md). -/
def State.blockStop (s : State) (c n p : Nat) : Nat :=
  if s.arrives (fun i => match i with | .interruptEntry d => d.val == c | _ => false) && !(s.core c).ctx.slotHeld && p < n then
    min n (p + 1 + (Config.freeWord s.free).toNat % (n - p))
  else n

/-- A block instruction (R266, R274, R287): `f` computes one element from the addresses in rd, rs1 and rs2. An error at
element `i` enters with PROG = i; a stop at an element boundary leaves PROG there, and the instruction to be run again. -/
def blockOp (op fn : Nat) (c : Nat) (G : BitVec 4) (rd rs1 rs2 rn : BitVec 5) (f : Nat → Ctx → Nat → CM Unit) (s : State) : State :=
  let i : Insn := { word := encK op fn G rd rs1 rs2 rn, noSlot := true }
  s.insn c G i (fun s =>
    let x := (s.core c).ctx
    let n := (x.reg rn.toNat).toNat
    if 4096 < n then s.exc c vLength n
    else if n = 0 then s.finish c 1 id
    else
      let stop := s.blockStop c n x.prog
      let (p, e, r) := blockLoop (f c x) (stop - x.prog) x.prog { s := s.burn }
      let s := r.s.modCore c (fun k => { k with ctx := k.ctx.orFlags r.fl })
      match e with
      | some e => (s.modCore c (fun k => { k with ctx := { k.ctx with prog := p } })).exc c e.1 e.2
      | none =>
        if stop < n then s.modCore c (fun k => { k with ctx := { k.ctx with prog := p } })
        else (s.modCore c (fun k => { k with ctx := { k.ctx with prog := 0 } })).deliver c r.slow i [])

/-- Element `i` of the operand named by register `r`. -/
def Ctx.elem (x : Ctx) (r : BitVec 5) (i : Nat) : Nat := (x.reg r.toNat).toNat + 4 * i

/-- The exceptions of one element in the order of R275: it reads the words of `rs` and writes that of rd. -/
def elemCheck (c : Nat) (x : Ctx) (i : Nat) (rd : BitVec 5) (rs : List (BitVec 5)) (also : List (Nat × Nat × Right)) : CM Unit :=
  preCheck c (rs.map (fun r => (x.elem r i % 2 ^ 32, 4, (.read : Right))) ++ also ++ [(x.elem rd i % 2 ^ 32, 4, .write)])

/-- rd[i] := g(rs1[i], rs2[i]). -/
def elem2 (rd rs1 rs2 : BitVec 5) (g : Word → Word → FM Word) (c : Nat) (x : Ctx) (i : Nat) : CM Unit := do
  elemCheck c x i rd [rs1, rs2] []
  let a ← ldW c (x.elem rs1 i)
  let b ← ldW c (x.elem rs2 i)
  let v ← fm (g a b)
  stW c (x.elem rd i) v

def execBcopy (c : Fin 36) (G : BitVec 4) (rd rs1 rs2 rn : BitVec 5) (s : State) : Res :=
  .next (blockOp 0x1B 0 c G rd rs1 rs2 rn (fun c x i => do
    elemCheck c x i rd [rs1] []
    let a ← ldW c (x.elem rs1 i)
    stW c (x.elem rd i) a) s)
def execBfill (c : Fin 36) (G : BitVec 4) (rd rs1 rs2 rn : BitVec 5) (s : State) : Res :=
  .next (blockOp 0x1B 1 c G rd rs1 rs2 rn (fun c x i => stW c (x.elem rd i) (x.reg rs1.toNat)) s)
def execBadd (c : Fin 36) (G : BitVec 4) (rd rs1 rs2 rn : BitVec 5) (s : State) : Res :=
  .next (blockOp 0x1C 0 c G rd rs1 rs2 rn (elem2 rd rs1 rs2 F32.add) s)
def execBsub (c : Fin 36) (G : BitVec 4) (rd rs1 rs2 rn : BitVec 5) (s : State) : Res :=
  .next (blockOp 0x1C 1 c G rd rs1 rs2 rn (elem2 rd rs1 rs2 F32.sub) s)
def execBmul (c : Fin 36) (G : BitVec 4) (rd rs1 rs2 rn : BitVec 5) (s : State) : Res :=
  .next (blockOp 0x1C 2 c G rd rs1 rs2 rn (elem2 rd rs1 rs2 F32.mul) s)
def execBfma (c : Fin 36) (G : BitVec 4) (rd rs1 rs2 rn : BitVec 5) (s : State) : Res :=
  .next (blockOp 0x1C 3 c G rd rs1 rs2 rn (fun c x i => do
    elemCheck c x i rd [rs1, rs2, rd] []
    let a ← ldW c (x.elem rs1 i)
    let b ← ldW c (x.elem rs2 i)
    let d ← ldW c (x.elem rd i)
    let v ← fm (F32.fma a b d)
    stW c (x.elem rd i) v) s)
/-- BTINT: n_seg at offset 0 of the record in rs2, the points from offset 4. -/
def execBtint (c : Fin 36) (G : BitVec 4) (rd rs1 rs2 rn : BitVec 5) (s : State) : Res :=
  .next (blockOp 0x1D 0 c G rd rs1 rs2 rn (fun c x i => do
    elemCheck c x i rd [rs1] [((x.reg rs2.toNat).toNat, 4, .read)]
    let a ← ldW c (x.elem rs1 i)
    let n ← ldN c ((x.reg rs2.toNat).toNat) 4
    let v ← tint c n a ((x.reg rs2.toNat).toNat + 4)
    stW c (x.elem rd i) v) s)
/-- BBIQ: one stage record, whose states advance once per element. -/
def execBbiq (c : Fin 36) (G : BitVec 4) (rd rs1 rs2 rn : BitVec 5) (s : State) : Res :=
  .next (blockOp 0x1D 1 c G rd rs1 rs2 rn (fun c x i => do
    elemCheck c x i rd [rs1] (stageAddrs (x.reg rs2.toNat).toNat 1)
    let a ← ldW c (x.elem rs1 i)
    let b ← readStage c (x.reg rs2.toNat).toNat
    let r ← fm (runStage b a)
    stW c (x.elem rd i) r.1
    writeStage c (x.reg rs2.toNat).toNat r.2) s)

end Sys2Proof.Machine
end

