-- ==== Sys2Proof/Machine/IsaVec.lean ====
section
/-! DEFINITION. Vector arithmetic, vector loads and stores, moves and transforms (R243, R251, R258, R263, R268). -/

namespace Sys2Proof.Machine

/-- A function on each lane of up to three vectors, lane 0 first; the flags of every lane accumulate. -/
def lanewise (f : Word → Word → Word → FM Word) (a b d : BitVec 128) : FM (BitVec 128) := do
  let r0 ← f (lane a 0) (lane b 0) (lane d 0)
  let r1 ← f (lane a 1) (lane b 1) (lane d 1)
  let r2 ← f (lane a 2) (lane b 2) (lane d 2)
  let r3 ← f (lane a 3) (lane b 3) (lane d 3)
  pure (lanes r0 r1 r2 r3)

/-- A vector instruction of latency `l` that computes vd. -/
def State.vecRun (s : State) (c vd l : Nat) (m : FM (BitVec 128)) : State :=
  let r := m.run 0
  (s.writeQ c vd l r.1).finish c 1 (fun x => x.orFlags r.2)

/-- Format V; `f` works lane by lane on vs1, vs2 and vd. VDIV has latency 14, the others 4 (R269). -/
def vecOp (fn : Nat) (c : Nat) (G : BitVec 4) (vd vs1 vs2 : BitVec 6) (f : Word → Word → Word → FM Word) (s : State) : State :=
  s.insn c G { word := encV 0x20 fn G vd vs1 vs2, v := true } (fun s =>
    let x := (s.core c).ctx
    s.vecRun c vd.toNat (if fn = 0xA then 14 else 4) (lanewise f (x.qreg vs1.toNat) (x.qreg vs2.toNat) (x.qreg vd.toNat)))

def execVadd (c : Fin 36) (G : BitVec 4) (vd vs1 vs2 : BitVec 6) (s : State) : Res :=
  .next (vecOp 0x0 c G vd vs1 vs2 (fun a b _ => F32.add a b) s)
def execVsub (c : Fin 36) (G : BitVec 4) (vd vs1 vs2 : BitVec 6) (s : State) : Res :=
  .next (vecOp 0x1 c G vd vs1 vs2 (fun a b _ => F32.sub a b) s)
def execVmul (c : Fin 36) (G : BitVec 4) (vd vs1 vs2 : BitVec 6) (s : State) : Res :=
  .next (vecOp 0x2 c G vd vs1 vs2 (fun a b _ => F32.mul a b) s)
def execVfma (c : Fin 36) (G : BitVec 4) (vd vs1 vs2 : BitVec 6) (s : State) : Res :=
  .next (vecOp 0x3 c G vd vs1 vs2 (fun a b d => F32.fma a b d) s)
def execVfms (c : Fin 36) (G : BitVec 4) (vd vs1 vs2 : BitVec 6) (s : State) : Res :=
  .next (vecOp 0x4 c G vd vs1 vs2 (fun a b d => F32.fms a b d) s)
def execVmin (c : Fin 36) (G : BitVec 4) (vd vs1 vs2 : BitVec 6) (s : State) : Res :=
  .next (vecOp 0x5 c G vd vs1 vs2 (fun a b _ => pure (F32.min a b)) s)
def execVmax (c : Fin 36) (G : BitVec 4) (vd vs1 vs2 : BitVec 6) (s : State) : Res :=
  .next (vecOp 0x6 c G vd vs1 vs2 (fun a b _ => pure (F32.max a b)) s)
def execVclamp (c : Fin 36) (G : BitVec 4) (vd vs1 vs2 : BitVec 6) (s : State) : Res :=
  .next (vecOp 0x7 c G vd vs1 vs2 (fun a b d => pure (F32.clamp d a b)) s)
def execVabs (c : Fin 36) (G : BitVec 4) (vd vs1 vs2 : BitVec 6) (s : State) : Res :=
  .next (vecOp 0x8 c G vd vs1 vs2 (fun a _ _ => pure (fAbs a)) s)
def execVneg (c : Fin 36) (G : BitVec 4) (vd vs1 vs2 : BitVec 6) (s : State) : Res :=
  .next (vecOp 0x9 c G vd vs1 vs2 (fun a _ _ => pure (fNeg a)) s)
def execVdiv (c : Fin 36) (G : BitVec 4) (vd vs1 vs2 : BitVec 6) (s : State) : Res :=
  .next (vecOp 0xA c G vd vs1 vs2 (fun a b _ => F32.div a b) s)

/-! ## VLD, VST: 16 bytes at EA = rb + 16 × OFS11 -/

/-- VLD; data that lies elsewhere stalls the core, and the next instruction sees the value (R269). -/
def execVld (c : Fin 36) (G : BitVec 4) (vd : BitVec 6) (rb : BitVec 5) (ofs : BitVec 11) (s : State) : Res :=
  let i : Insn := { word := encVM 0x21 G vd rb ofs, v := true, guse := [rb.toNat] }
  .next (s.insn c G i (fun s =>
    match (ldN c (eaOf ((s.core c).ctx.reg rb.toNat) (16 * ofs.toInt)) 16).run { s := s } with
    | (.error e, r) => r.s.exc c e.1 e.2
    | (.ok v, r) =>
      let w := BitVec.ofNat 128 v
      if r.slow.isSome then
        r.s.modCore c (fun k =>
          let y : Stall := match k.stall with | some y => y | none => {}
          let b := if k.stall.isSome then y.back else k.ctx.back
          { k with stall := some { y with qw := y.qw ++ [(k.ctx.qIdx vd.toNat, w)], pairAt := none, far := r.slow, back := b }, ctx := k.ctx.after 1 })
      else (r.s.writeQ c vd.toNat 3 w).finish c 1 id))

/-- VST stores the value vd holds now (R268). -/
def execVst (c : Fin 36) (G : BitVec 4) (vd : BitVec 6) (rb : BitVec 5) (ofs : BitVec 11) (s : State) : Res :=
  .next (storeOp c G { word := encVM 0x22 G vd rb ofs, v := true, guse := [rb.toNat] } rb (16 * ofs.toInt) 16
    (fun x => (x.qreg vd.toNat).toNat) s)

/-! ## Vector moves (OP 0x23): latency 1, so the value stands for the next instruction -/

/-- A q write of latency 1. -/
def State.vecMove (s : State) (c vd : Nat) (f : Ctx → BitVec 128) : State :=
  s.finish c 1 (fun x => x.setPhys (x.qIdx vd) (f x))

def execVsplat (c : Fin 36) (G : BitVec 4) (vd : BitVec 6) (rg : BitVec 5) (lane : BitVec 2) (s : State) : Res :=
  .next (s.insn c G { word := encVG 0x0 G vd rg lane, v := true, guse := [rg.toNat] } (fun s =>
    s.vecMove c vd.toNat (fun x => let v := x.reg rg.toNat; lanes v v v v)))

/-- A vector with lane `i` replaced. -/
def setLane (q : BitVec 128) (i : Nat) (v : Word) : BitVec 128 :=
  let f (j : Nat) : Word := if j = i then v else lane q j
  lanes (f 0) (f 1) (f 2) (f 3)

def execVins (c : Fin 36) (G : BitVec 4) (vd : BitVec 6) (rg : BitVec 5) (lane : BitVec 2) (s : State) : Res :=
  .next (s.insn c G { word := encVG 0x1 G vd rg lane, v := true, guse := [rg.toNat] } (fun s =>
    s.vecMove c vd.toNat (fun x => setLane (x.qreg vd.toNat) lane.toNat (x.reg rg.toNat))))

def execVext (c : Fin 36) (G : BitVec 4) (vd : BitVec 6) (rg : BitVec 5) (lane : BitVec 2) (s : State) : Res :=
  .next (s.insn c G { word := encVG 0x2 G vd rg lane, v := true, guse := [rg.toNat] } (fun s =>
    s.writeG c rg.toNat 1 (fun x => Machine.lane (x.qreg vd.toNat) lane.toNat)))

/-! ## Transforms (OP 0x24) -/

/-- K1 = 1 / √3, K2 = √3 / 2, and 3.0 (R263). -/
def k1 : Word := 0x3F13CD3A
def k2 : Word := 0x3F5DB3D7
def three : Word := 0x40400000
def mHalf : Word := 0xBF000000

/-- CLPK (R263). -/
def clpk (v : BitVec 128) : FM (BitVec 128) := do
  let ia := lane v 0
  let ib := lane v 1
  let ic := lane v 2
  let th := lane v 3
  let t ← F32.mul F32.two ia
  let t ← F32.sub t ib
  let t ← F32.sub t ic
  let ial ← F32.div t three
  let t ← F32.sub ib ic
  let ibe ← F32.mul t k1
  let co ← F32.cos th
  let si ← F32.sin th
  let id ← F32.fma ibe si (← F32.mul ial co)
  let iq ← F32.fma (F32.neg ial) si (← F32.mul ibe co)
  pure (lanes id iq ial ibe)

/-- IPKC (R263). -/
def ipkc (v : BitVec 128) : FM (BitVec 128) := do
  let vd := lane v 0
  let vq := lane v 1
  let th := lane v 2
  let co ← F32.cos th
  let si ← F32.sin th
  let val ← F32.fma (F32.neg vq) si (← F32.mul vd co)
  let vbe ← F32.fma vq co (← F32.mul vd si)
  let vb ← F32.fma k2 vbe (← F32.mul mHalf val)
  let vc ← F32.fma (F32.neg k2) vbe (← F32.mul mHalf val)
  let hi := F32.max (F32.max val vb) vc
  let lo := F32.min (F32.min val vb) vc
  let v0 ← F32.mul (← F32.add hi lo) F32.half
  pure (lanes val vb vc (F32.neg v0))

/-- A transform of vs1: CLPK has latency 24, IPKC 20 (R269). -/
def transOp (fn : Nat) (c : Nat) (G : BitVec 4) (vd vs1 vs2 : BitVec 6) (f : BitVec 128 → FM (BitVec 128)) (s : State) : State :=
  s.insn c G { word := encV 0x24 fn G vd vs1 vs2, v := true } (fun s =>
    s.vecRun c vd.toNat (if fn = 0 then 24 else 20) (f ((s.core c).ctx.qreg vs1.toNat)))

def execClpk (c : Fin 36) (G : BitVec 4) (vd vs1 vs2 : BitVec 6) (s : State) : Res := .next (transOp 0x0 c G vd vs1 vs2 clpk s)
def execIpkc (c : Fin 36) (G : BitVec 4) (vd vs1 vs2 : BitVec 6) (s : State) : Res := .next (transOp 0x1 c G vd vs1 vs2 ipkc s)

/-- A scaled move per lane with SCL(VS2[1:0]); VS2[5:2] must be 0 (R258). -/
def vScaled (fn : Nat) (c : Nat) (G : BitVec 4) (vd vs1 vs2 : BitVec 6) (f : Word → Nat → Word → FM Word) (s : State) : State :=
  let i : Insn := { word := encV 0x24 fn G vd vs1 vs2, v := true, bad := bits vs2.toNat 5 2 != 0 }
  let k := vs2.toNat % 4
  s.insn c G i (fun s =>
    let x := (s.core c).ctx
    if x.sclBad k then s.exc c vIllegal i.word
    else s.vecRun c vd.toNat 4 (lanewise (fun a _ _ => f (x.sclF k) (x.sclC k) a) (x.qreg vs1.toNat) 0 0))

def execVsmvf (c : Fin 36) (G : BitVec 4) (vd vs1 vs2 : BitVec 6) (s : State) : Res := .next (vScaled 0x2 c G vd vs1 vs2 smvf s)
def execVsmvi (c : Fin 36) (G : BitVec 4) (vd vs1 vs2 : BitVec 6) (s : State) : Res := .next (vScaled 0x3 c G vd vs1 vs2 smvi s)

def execVmov (c : Fin 36) (G : BitVec 4) (vd vs1 vs2 : BitVec 6) (s : State) : Res :=
  .next (s.insn c G { word := encV 0x24 0x4 G vd vs1 vs2, v := true } (fun s =>
    s.vecMove c vd.toNat (fun x => x.qreg vs1.toNat)))

end Sys2Proof.Machine
end

