-- ==== Sys2Proof/Machine/Place.lean ====
section
/-! DEFINITION. Selection, placement, prefetch and preemption (spec/12_dispatcher.md, R300 to R306). -/

namespace Sys2Proof.Machine

/-! ## Selection (R300 to R303) -/

/-- CMASK or SMASK names the core (R302). -/
def State.maskHas (s : State) (t c : Nat) : Bool :=
  if c < 32 then bit (s.f (R.ST_CMASK t)) c else bit (s.f (R.ST_SMASK t)) (c - 32)

/-- The core takes placements: online, not halted, no offline request, not in the boot ROM. -/
def State.takesPlace (s : State) (c : Nat) : Bool :=
  s.coreUp c && !s.on (R.DSP_CORE_OFFREQ c) && !(c == 32 && s.boot.rom)

/-- The core is free for a placement. -/
def State.coreFree (s : State) (c : Nat) : Bool := s.takesPlace c && !s.coreBusy c

/-- The affinity window has ended (R302): AFFWIN, as it stands at this selection (R315), has passed since the ready stamp; at
the very stamp it ends, once AFFWIN_EXPIRY has come. -/
def State.windowOver (s : State) (t : Nat) : Bool :=
  let w := s.f (R.ST_ATTR_AFFWIN t)
  let u := s.strand t
  w == 0 || (match u.affSeen with | some v => decide (w ≤ v) | none => false) || decide ((w : Int) < dt s.gnow u.ready)

/-- The strand may go to core `c` now (R302): its masks, and LASTCORE within the affinity window; after it, LASTCORE where
both are free. -/
def State.mayGo (s : State) (t c : Nat) : Bool :=
  let l := s.f (R.ST_STAT_LASTCORE t)
  s.takesPlace c && s.maskHas t c &&
    (l == c || l == 63 || !s.coreUp l ||
      (s.windowOver t && !(s.coreFree l && s.maskHas t l)))

/-- A READY strand that the dispatcher may place: its posted stores have been accepted (R306, R311). -/
def State.canPlace (s : State) (t c : Nat) : Bool :=
  s.stOf t == stReady && !s.on (R.ST_STAT_DRAINING t) && s.mayGo t c

/-- `t` comes before `u` in the ready lists (R301). -/
def State.before (s : State) (t u : Nat) : Bool :=
  let p := s.f (R.ST_ATTR_PRIO t)
  let q := s.f (R.ST_ATTR_PRIO u)
  let d := dt (s.strand t).ready (s.strand u).ready
  p < q || (p == q && (decide (d < 0) || (d == 0 && t < u)))

/-- The first of a list of strands. -/
def State.firstOf (s : State) (l : List Nat) : Option Nat :=
  l.foldl (fun b t => match b with | none => some t | some u => if s.before t u then some t else b) none

/-- The strand R301 selects for core `c`. -/
def State.select (s : State) (c : Nat) : Option Nat := s.firstOf (s.activeStrands.filter (fun t => s.canPlace t c))

/-- The strand placed next on core `c`: the prefetched one within its level (R303). -/
def State.nextFor (s : State) (c : Nat) : Option Nat :=
  match s.select c with
  | none => none
  | some t =>
    let p := s.f (R.DSP_CORE_PF c)
    if s.on (R.DSP_CORE_PF_V c) && s.canPlace p c && !(s.f (R.ST_ATTR_PRIO t) < s.f (R.ST_ATTR_PRIO p)) then some p else some t

/-! ## Placement (R271, R293, R302) -/

/-- Strand `t` is placed on core `c`. Its save area stays as the last suspension left it (R296, R311). -/
def State.placeOn (s : State) (t c : Nat) : State :=
  let s := s.freeSlotOf t
  let u := s.strand t
  let x := { u.saved with vbase := 2048 * s.f (R.ST_VBASE t), swlo := 16 * s.f (R.ST_SWLO t),
                          swhi := 16 * s.f (R.ST_SWHI t), holdoff := s.f (R.ST_HOLDOFF_MAX t) }
  let s := s.modStrand t (fun u => { u with placed := s.gnow, tagrd := [], posted := false })
  let s := (s.setSt t stRunning).set (R.ST_STAT_LASTCORE t) c
  let s := (s.raise (R.DSP_CORE_RUN_V c)).set (R.DSP_CORE_RUN c) t
  let e := s.f (R.ST_STAT_EPOCH t)
  let s := s.modCore c (fun k => { k with ctx := x, strand := t, epoch := e, detached := false, pendq := [], stall := none,
                                          bank := none, suspReq := 0 })
  let s := (s.count R.DSP_PLACE_CNT).traceS 2 t c 0xFFFFFFFF
  (s.repeatAttempt c).takeErrs c

/-- STRAND_PLACE (R302): a strand still being loaded into the slot is placed once it is there. -/
def execStrandPlace (c : Fin 36) (s : State) : Res :=
  .next (if !s.coreFree c then s
    else
      match s.nextFor c with
      | none => s
      | some t =>
        if s.on (R.DSP_CORE_PF_V c) && s.f (R.DSP_CORE_PF c) == t && (s.core c).pfBusy then s else s.placeOn t c)

/-! ## Prefetch (R303, R304) -/

/-- The WAITING strand to prefetch: most urgent level, lowest PFORD, lowest number, of those whose LASTCORE is this core. -/
def State.waitPick (s : State) (c : Nat) : Option Nat :=
  let key (t : Nat) : Nat := (s.f (R.ST_ATTR_PRIO t) * 256 + s.f (R.ST_ATTR_PFORD t)) * 1024 + t
  (s.activeStrands.filter (fun t =>
    s.stOf t == stWaiting && s.f (R.ST_STAT_LASTCORE t) == c && s.maskHas t c && !s.on (R.ST_STAT_PREFETCHED t))).foldl
    (fun b t => match b with | none => some t | some u => if key t < key u then some t else b) none

/-- The strand the slot of core `c` is filled with. -/
def State.prefetchPick (s : State) (c : Nat) : Option Nat :=
  match s.firstOf (s.activeStrands.filter (fun t => s.canPlace t c && !s.on (R.ST_STAT_PREFETCHED t))) with
  | some t => some t
  | none => if s.activeStrands.any (fun t => s.canPlace t c) then none else s.waitPick c

/-- A strand enters the slot of core `c`; a bank that still holds it needs no load. -/
def State.prefetchInto (s : State) (c t : Nat) : State :=
  let s := s.freeSlot c
  let s := ((s.raise (R.DSP_CORE_PF_V c)).set (R.DSP_CORE_PF c) t).raise (R.ST_STAT_PREFETCHED t)
  (s.modCore c (fun k => { k with pfBusy := k.bank != some t })).traceS 1 t c 0xFFFFFFFF

/-- PREFETCH (R303, R304): a free slot is filled; a slot is reloaded with a strand of a more urgent level. -/
def execPrefetch (c : Fin 36) (s : State) : Res :=
  .next (if !s.takesPlace c then s
    else
      match s.prefetchPick c with
      | none => s
      | some t =>
        if !s.on (R.DSP_CORE_PF_V c) then s.prefetchInto c t
        else if s.stOf t == stReady && s.f (R.ST_ATTR_PRIO t) < s.f (R.ST_ATTR_PRIO (s.f (R.DSP_CORE_PF c))) then s.prefetchInto c t
        else s)

/-- PREFETCH_DONE (R304). -/
def execPrefetchDone (c : Fin 36) (s : State) : Res := .next (s.modCore c (fun k => { k with pfBusy := false }))

/-! ## Preemption (R305) -/

/-- Strand `t` may preempt what core `c` runs. -/
def State.mayPreempt (s : State) (t c : Nat) : Bool :=
  let u := s.f (R.DSP_CORE_RUN c)
  s.on (R.DSP_CORE_RUN_V c) && s.canPlace t c && s.f (R.ST_ATTR_PRIO t) < s.f (R.ST_ATTR_PRIO u) && !s.on (R.ST_ATTR_NOPREEMPT u)

/-- Core `d` is a better one to preempt than core `c`: a larger level runs there, then a later placement. -/
def State.betterCore (s : State) (d c : Nat) : Bool :=
  let u := s.f (R.DSP_CORE_RUN d)
  let v := s.f (R.DSP_CORE_RUN c)
  s.f (R.ST_ATTR_PRIO v) < s.f (R.ST_ATTR_PRIO u) ||
    (s.f (R.ST_ATTR_PRIO u) == s.f (R.ST_ATTR_PRIO v) && decide (0 < dt (s.strand u).placed (s.strand v).placed))

/-- A strand that has no free core, and for which core `c` is the one to preempt. -/
def State.preemptFor (s : State) (c : Nat) : Option Nat :=
  s.firstOf (s.activeStrands.filter (fun t =>
    s.mayPreempt t c && !(List.range 36).any (fun d => s.coreFree d && s.canPlace t d) &&
      !(List.range 36).any (fun d => s.mayPreempt t d && s.betterCore d c)))

/-- PREEMPT (R305). -/
def execPreempt (c : Fin 36) (s : State) : Res :=
  .next (if (s.core c).suspReq ≠ 0 || (s.preemptFor c).isNone then s
    else if (s.core c).heldOff then s.modCore c (fun k => { k with suspReq := 1 })
    else s.preemptNow c)

/-- AFFWIN_EXPIRY (R302): the affinity window of the ready stamp ends; a RUNNING strand keeps its stamp for a preemption. -/
def execAffwinExpiry (t : Fin 1024) (s : State) : Res :=
  .next (if s.stOf t == stReady || s.stOf t == stRunning then
      s.modStrand t (fun u => { u with affSeen := some (s.f (R.ST_ATTR_AFFWIN t)) })
    else s)

/-! ## Posted stores of a suspended strand (R306) -/

/-- DRAIN_COMPLETE. -/
def execDrainComplete (t : Fin 1024) (s : State) : Res :=
  .next (if s.on (R.ST_STAT_DRAINING t) then
    (s.clr (R.ST_STAT_DRAINING t)).modStrand t (fun u => { u with posted := false }) else s)

/-- DRAINLATE: after 200 ns the strand may be placed anyway. -/
def execDrainlate (t : Fin 1024) (s : State) : Res :=
  .next (if s.on (R.ST_STAT_DRAINING t) then
    let c := s.f (R.ST_STAT_LASTCORE t)
    let s := ((s.clr (R.ST_STAT_DRAINING t)).count R.DSP_DRAINLATE_CNT).traceS 15 t c 0xFFFFFFFF
    s.report (srcOf 5 (2 * 64 + c)) clsWarn (s.f (R.ST_DOM t)) [t, c]
  else s)

end Sys2Proof.Machine
end

