-- ==== Sys2Proof/Machine/FidFire.lean ====
section
/-! DEFINITION. What a fid firing does (spec/17_logline_and_fids.md, R431, R433, R434): the detector's own detection with its
reaction and report, at once or at the detector's next evaluation; and the replicas' unlock reaction (R22), which is one of
these detections. -/

namespace Sys2Proof.Machine

/-! ## Replicas and crossings (R20, R21, R22) -/

/-- A replica is unlocked (R22): the record and the reaction of its island; that of a ring island that serves a duplex ring
fences the unit (R398). Ports and releases look at the lock themselves. -/
def State.replicaUnlocked (s : State) (i : Nat) : State :=
  let s := (s.setRep i { s.rep i with locked := false }).report (srcOf 1 (i * 8 + 2)) clsFault 0 [i]
  if islPB0 ≤ i && i < islPB0 + 4 then s.bankFault (i - islPB0) R.PC_STAT_LOCK 6
  else if i = islBLY && s.islOn islBLY then s.belDiag dLOCK true []
  else if (List.range 4).any (fun r => ringIsl r == i && s.duplexRing r) then s.dxFence
  else s

/-- A crossing timer has expired (R20): the channel is failed and reported with both islands. -/
def State.crossingFailed (s : State) (src dst : Nat) : State :=
  let l := s.tim.failed
  let s := { s with tim := { s.tim with failed := if l.contains (src, dst) then l else l ++ [(src, dst)] } }
  s.report (srcOf 1 (src * 8)) clsWarn 0 [src, dst]

/-! ## Detections by source group (R430, R431) -/

/-- Group 1: kind `k` of island `i`. The channel of a fired crossing failure is the island's own toward SYS, or of SYS toward
DSP (notes/assumptions/60.md). -/
def State.fidIsland (s : State) (i k : Nat) : State :=
  match k with
  | 0 => s.crossingFailed i (if i = islSYS then islDSP else islSYS)
  | 1 => s.offResponse i
  | 2 => s.replicaUnlocked i
  | 3 => s.lateAction i
  | _ => s.report (srcOf 1 (i * 8 + 4)) clsWarn 0 []

/-- Group 2: event `ev` of ring `r`, address index `i`. -/
def State.fidRing (s : State) (r ev i : Nat) : State :=
  match ev with
  | 0 => if s.rpSt r = rpRun then s.ringBreak r else (s.raise (R.RING_STAT_BREAK r)).report (ringSrc r 0 0) clsFault 0 [s.cyc]
  | 1 => s.foreignLost r []
  | 2 => s.nodeGone r (i + 1)
  | 3 => (s.raise (R.RING_NT_STATE_HASH_MISMATCH r i)).report (ringSrc r 3 i) clsWarn 0 [i + 1]
  | 4 => ((s.raise (R.RING_STAT_SWEEPERR r)).rpTo r rpFault).report (ringSrc r 4 0) clsWarn 0 []
  | 5 => s.healFail r
  | 6 => (s.raise (R.RING_STAT_SCHEDERR r)).report (ringSrc r 6 0) clsWarn 0 []
  | _ => (s.raise (R.RING_STAT_SPEED_DOWN r)).report (ringSrc r 7 0) clsWarn 0 [r]

/-- Master lost of axis `n` (R151, R174): the hitch drops at the activation's instant, else the repetitive term loses it. -/
def State.fidMaster (s : State) (n : Nat) : State :=
  if (s.ax n).hitch.on then
    let p := s.phases n
    let c := s.cyc
    let w : When := ⟨c, u32 ((s.cstartOf (s.axisDom n) c : Int) + p.1), s.sampleInst n c, (p.2 : Int) - p.1⟩
    F32.val (s.masterLost n w)
  else s.repLost n

/-- Group 3: event `ev` of axis `n`. -/
def State.fidAxis (s : State) (n ev : Nat) : State :=
  match ev with
  | 1 => (s.identAbort n 2).supervise n [1]
  | 2 => s.nodeMissEvent n
  | 5 => s.numFault n
  | 6 => s.limitHit n false
  | 7 => s.fidMaster n
  | ev => s.supervise n [ev]

/-- Group 4: marks, knot ends and refusals, flow overflows, late releases. -/
def State.fidSequence (s : State) (i : Nat) : State :=
  if i < 64 then (s.orF (R.RING_MARK_OVR_OVR (i / 16)) (2 ^ (i % 16))).report (srcOf 4 i) clsWarn 0 [i]
  else if i < 128 then s.report (srcOf 4 i) clsInfo (s.kDom (i - 64)) [i - 64]
  else if i < 192 then s.kRefused (i - 128) 0 []
  else if i < 256 then s.flowOvf (i - 192) 0
  else s.lateRelease (i - 256) 0

/-- A fired second stack fault on core `c` (R292): the record, the halt, the park of what runs, STACKFAULT, offline. -/
def State.fidStack (s : State) (c : Nat) : State :=
  let t := (s.core c).strand
  let s := s.report (srcOf 5 (64 + c)) clsFault (s.f (R.ST_DOM t)) [t, t, ((s.core c).ctx.reg 31).toNat, 0, c]
  let s := ((s.modCore c (fun k => { k with sfHalt := true })).syncHalt c).dwellCore c
  let s :=
    if s.on (R.DSP_CORE_RUN_V c) then
      ((((s.suspend c).setSt t stParked).traceS 5 t c 0xFFFFFFFF).modStrand t (fun u => { u with noShadow := true })).stackFaultInt t c
    else s
  s.coreOffline c

/-- Group 5: kind `k` of core `c`. -/
def State.fidCore (s : State) (k c : Nat) : State :=
  let rep := s.report (srcOf 5 (k * 64 + c)) clsWarn 0 [c]
  match k with
  | 1 => s.fidStack c
  | 2 => rep.count R.DSP_DRAINLATE_CNT
  | 3 => rep.count R.DSP_TAGOVR_CNT
  | 4 => if s.on (R.DSP_CORE_ONLINE c) && !s.coreBusy c then s.coreOffline c else rep
  | _ => rep

/-- Group 6: kind `k`, index `i`. -/
def State.fidTime (s : State) (k i : Nat) : State :=
  let rep (s : State) (cls : Nat) : State := s.report (srcOf 6 (k * 64 + i)) cls 0 [i]
  match k with
  | 0 => rep (s.raise (R.TD_STAT_HOLDOVER i)) clsWarn
  | 1 => rep s clsInfo
  | 2 => rep (s.raise R.TB_STAT_TDOMERR) clsWarn
  | 3 => rep (s.count (R.PTP_EPOCHERR i)) clsWarn
  | 4 => rep (s.count (R.TEO_STAT_LATE i)) clsWarn
  | 5 => rep (s.raise (R.TEO_STAT_OVF i)) clsWarn
  | _ => rep (s.raise (R.TCI_STAT_OVF i)) clsWarn

/-- Group 7: event `ev` of channel `c`. GBOTH requests SAFE_OFF of the bank (R331). -/
def State.fidChan (s : State) (c ev : Nat) : State :=
  match ev with
  | 0 => s.fault c (R.PC_STAT_XON c) 0 clsFault
  | 1 => (s.fault c (R.PC_STAT_GBOTH c) 1 clsSafety).withBel (fun s => s.gbothRequest (c / 16))
  | 2 => s.fault c (R.PC_STAT_GOFF c) 2 clsFault
  | 3 => s.fault c (R.PC_STAT_GON c) 3 clsFault
  | 4 => s.fault c (R.PC_STAT_OC c) 4 clsFault
  | 5 => s.fault c (R.PC_STAT_HDWELL c) 5 clsFault
  | 6 => s.fault c (R.PC_STAT_LOCK c) 6 clsFault
  | 7 => s.fault c (R.PC_STAT_SAFEOFF c) 7 clsFault
  | 8 => (s.raise (R.PC_SHOT_STAT_OVF c)).pcReport c 8 clsWarn
  | 9 => ((s.count (R.PC_LATE_CNT c)).lateAction (islPB0 + c / 16)).pcReport c 9 clsWarn
  | _ => (s.raise (R.PC_STP_STAT_ENCERR c)).pcReport c 10 clsWarn

/-- Group 8: event `ev` of high-side group `g`. -/
def State.fidGroup (s : State) (g ev : Nat) : State :=
  match ev with
  | 0 => s.pumpStop g
  | 1 => ((s.raise (R.HG_STAT_DEFER g)).count (R.HG_DEFER_CNT g)).hgReport g 1 clsInfo
  | 2 => ((s.raise (R.HG_STAT_REJECT g)).count (R.HG_REJECT_CNT g)).hgReport g 2 clsInfo
  | 3 => ((s.raise (R.HG_STAT_BUDGET g)).count (R.HG_BUDGET_CNT g)).hgReport g 3 clsInfo
  | _ => ((s.raise (R.HG_STAT_GNRDY g)).count (R.HG_GNRDY_CNT g)).hgReport g 4 clsInfo

/-- Group 9: Belay. A fired guard fault names guard input 0, a fired STO fault the first connection. -/
def State.fidBelay (s : State) (i : Nat) : State :=
  if i = 0 then s.belReport 0 [s.belSt]
  else if i ≤ 11 then
    if i - 1 = dGTPF || i - 1 = dXSHORT then s.guardDiag (i - 1) 0
    else if i - 1 = dSTOCONF then (((s.connFail 0).modBel (fun b => { b with nso := true })).belDiag dSTOCONF false [0]).belEval
    else s.belDiag (i - 1) true []
  else if i < 272 then (s.connFail (i - 16)).belEval
  else if i < 276 then s.gbothRequest (i - 272)
  else s.belReport i [s.zone (i - 288)]

/-- Group 10: event `ev` of the duplex block. -/
def State.fidDuplex (s : State) (ev : Nat) : State :=
  match ev with
  | 1 => (s.raise R.DX_STAT_HOTLOST).dxReport 1 [s.cyc]
  | 2 => match s.dx.splice with
    | some _ => s.spliceAbort
    | none => (s.raise R.DX_STAT_SPLICERR).dxReport 2 []
  | 3 => s.mirrorLate
  | 4 => (s.raise R.DX_STAT_LOCKOUT).dxReport 4 []
  | 5 => s.peerLinkLost
  | 6 => s.dxFence
  | ev => s.dxReport ev []

/-- Group 11: kind `k`, index `i` of the PMU. A fired crossing of a bus threshold is that of UVW. -/
def State.fidPmu (s : State) (k i : Nat) : State :=
  match k with
  | 0 => s.railFault i
  | 3 => s.offResponse i
  | 4 => ((s.raise (R.BUS_STAT_UVW i)).ext 66).pmuReport 4 i clsWarn [1, s.f (R.BUS_STAT_VBUS i)]
  | 5 => ((s.raise (R.BUS_STAT_COLL i)).pmuReport 5 i clsFault []).ext 66
  | 6 => if i ≤ 1 then s.mainsFail s.gnow else s.pmuReport 6 i clsSafety []
  | k => s.pmuReport k i clsInfo []

/-- Group 12: kind `k`, index `i`. -/
def State.fidHost (s : State) (k i : Nat) : State :=
  match k with
  | 3 => (s.count R.DOM_VIOL_CNT).hostReport 3 i clsWarn []
  | 4 => s.dmaFault i 0 0
  | 7 => s.queueFault (2 ≤ i) (i % 2)
  | 8 => (s.raise R.SNP_STAT_OVR).hostReport 8 0 clsWarn [s.cyc]
  | 0 | 6 | 9 => s.hostReport k i clsInfo []
  | k => s.hostReport k i clsWarn []

/-- The detector of a source detects (R431). -/
def State.fidDetect (s : State) (src : Nat) : State :=
  let i := src % 2048
  match src / 2048 with
  | 0 => s.modFid (fun f => { f with wfail := true })
  | 1 => s.fidIsland (i / 8) (i % 8)
  | 2 => s.fidRing (i / 512) (i / 64 % 8) (i % 64)
  | 3 => s.fidAxis (i / 8) (i % 8)
  | 4 => s.fidSequence i
  | 5 => s.fidCore (i / 64) (i % 64)
  | 6 => s.fidTime (i / 64) (i % 64)
  | 7 => s.fidChan (i / 16) (i % 16)
  | 8 => s.fidGroup (i / 16) (i % 16)
  | 9 => s.fidBelay i
  | 10 => s.fidDuplex i
  | 11 => s.fidPmu (i / 64) (i % 64)
  | _ => s.fidHost (i / 64) (i % 64)

/-- The detection with its report marked INJ (R434). -/
def State.fidAct (s : State) (src : Nat) : State :=
  ((s.modFid (fun f => { f with firing := some src })).fidDetect src).modFid (fun f => { f with firing := none })

/-! ## Firings (R433) -/

/-- The island of a source's detector. -/
def srcIsl (src : Nat) : Nat :=
  let i := src % 2048
  match src / 2048 with
  | 1 => i / 8
  | 2 => ringIsl (i / 512)
  | 3 => islDSP
  | 4 => if i < 64 then ringIsl (i / 16) else islDSP
  | 5 => islDSP
  | 6 => islTIM
  | 7 => islPB0 + i / 256
  | 8 => islPB0 + i / 64
  | 9 => islBLY
  | _ => islSYS

/-- The detectors that evaluate at events: copies written, returns of a ring, landings, deadlines and activations of an axis, marks,
boundaries, arrivals of releases (R431). -/
def eventSrc (src : Nat) : Bool :=
  let i := src % 2048
  match src / 2048 with
  | 0 => i == 4
  | 2 => i / 64 % 8 ≤ 3
  | 3 => i % 8 != 6
  | 4 => true
  | 11 => i / 64 == 4 || i / 64 == 5
  | _ => false

/-- The firings that wait longer than 1 s for their detector's evaluation are missed (R433). -/
def State.fidExpire (s : State) : State :=
  let old := s.fid.pend.filter (fun x => decide (1000000000 < dt s.gnow x.2.2))
  let s := s.modFid (fun f => { f with pend := f.pend.filter (fun x => !decide (1000000000 < dt s.gnow x.2.2)) })
  forEach old (fun x s => s.fidMiss x.2.1 1) s

/-- The detectors of the sources in `p` evaluate: each detects once for the firings that wait for it, and every slot counts
its firing (R431, R433). -/
def State.fidTake (s : State) (p : Nat → Bool) : State :=
  if s.fid.pend.isEmpty then s
  else
    let s := s.fidExpire
    let mine := s.fid.pend.filter (fun x => p x.1)
    let s := s.modFid (fun f => { f with pend := f.pend.filter (fun x => !p x.1) })
    let s := forEach mine (fun x s => s.count (R.FS_STAT_DONE x.2.1)) s
    forEach (mine.map (·.1)).eraseDups (fun src s => s.fidAct src) s

/-- FLOOD: BURST reports of class CLASS, one every 100 ns (R431). -/
def State.fidFlood (s : State) (j stamp : Nat) : State :=
  forN (s.f (R.FS_DATA_BURST j)) (fun b s =>
    s.reportAt (srcOf 0 (64 + b)) (s.f (R.FS_DATA_CLASS j)) 0 (u32 (stamp + 100 * b : Nat)) [] true) s

/-- A running slot reaches a firing stamp (R431, R433). -/
def State.fidFire (s : State) (j : Nat) : State :=
  if !(s.fid.slot j).running then s
  else
    let src := s.f (R.FS_SRC_SRC j)
    let stamp := s.gnow
    let s := s.setFidSlot j { s.fid.slot j with m := (s.fid.slot j).m + 1 }
    let s :=
      if !s.islOn (srcIsl src) then s.fidMiss j 1
      else
        let s := (s.count R.FID_FIRED_CNT).modFid (fun f => { f with lastFire := some stamp, fireClk := s.tim.clk })
        if eventSrc src then s.modFid (fun f => { f with pend := f.pend ++ [(src, j, stamp)] })
        else
          let s := s.count (R.FS_STAT_DONE j)
          if src = 64 then s.fidFlood j stamp else s.fidAct src
    s.fidFinish j

/-! ## Event commands -/

/-- FID_FIRE (R431, R433). -/
def execFidFire (j : Fin 8) (s : State) : Res := .next (s.fidFire j)
/-- FID_ARM_EXPIRY (R432). -/
def execFidArmExpiry (s : State) : Res := .next (if s.on R.FID_CTRL_ARMED then s.fidDisarm else s)
/-- CROSSING_TIMER_EXPIRY (R20): the transfer is abandoned with an access error. -/
def execCrossingTimerExpiry (src dst : Fin 44) (s : State) : Res :=
  .next (((s.crossingFailed src dst).stallAbandoned src dst).answer .accessError)
/-- BEACON (R21). -/
def execBeacon (seen : BitVec 44) (s : State) : Res := .next (s.beacon seen.toNat)
/-- REPLICA_LOCK (R21): after 64 valid beacons in a row. -/
def execReplicaLock (isl : Fin 44) (s : State) : Res :=
  .next (if 64 ≤ (s.rep isl).good then s.setRep isl { s.rep isl with locked := true } else s)
/-- REPLICA_UNLOCK (R22): after 4 missed beacons in a row. -/
def execReplicaUnlock (isl : Fin 44) (s : State) : Res :=
  .next (if 4 ≤ (s.rep isl).miss && (s.rep isl).locked then s.replicaUnlocked isl else s)
/-- RELEASE_ARRIVAL (R308). -/
def execReleaseArrival (s : State) : Res :=
  .next (s.releaseArrival.fidTake (fun x => x / 2048 == 4 && 192 ≤ x % 2048))
/-- FEEDBACK_LANDING (R194). -/
def execFeedbackLanding (a : Fin 256) (s : State) : Res :=
  .next ((s.feedbackLanding a).fidTake (fun x => x / 8 == 3 * 256 + a && x % 8 ≤ 3))
/-- RELEASE_DEADLINE (R84 to R86, R125). -/
def execReleaseDeadline (a : Fin 256) (s : State) : Res :=
  .next ((s.deadline a (s.deadlineCyc a)).fidTake (fun x => x == srcOf 3 (a * 8 + 4)))
/-- RING_FRAME_RECEIVE (R54). -/
def execRingFrameReceive (r : Fin 4) (tail : Bool) (frame : List Byte) (s : State) : Res :=
  .next ((s.ringReceive r tail frame).fidTake (fun x => x / 512 == 2 * 4 + r && x / 64 % 8 ≤ 3))
/-- LOG_COMMIT_DONE (R417, R424): a WFAIL fid takes it (R431); the power-down steps that wait for commits go on. -/
def execLogCommitDone (ok0 ok1 : Bool) (s : State) : Res :=
  .next ((if s.log.committing.isSome then s.fidTake (fun x => x == 4) else s).commitDone ok0 ok1).afterCommit
/-- STANDARD_LOOP_ACTIVATION (R94), with what it sends a duplex partner (R405). -/
def execStandardLoopActivation (a : Fin 256) (s : State) : Res :=
  .next ((((s.activate a).postMirror a).mirrorPlan a).fidTake (fun x => x == srcOf 3 (a * 8 + 5) || x == srcOf 3 (a * 8 + 7)))

end Sys2Proof.Machine
end

