-- ==== Sys2Proof/Machine/Boundary.lean ====
section
/-! DEFINITION. The cycle boundary (R79 to R81, R206, R509) and what the clock brings beside it: cycle marks (R91, R92), timed
actions (R24), captures (R239), and the logline on the loss of the SYS clock (R427). -/

namespace Sys2Proof.Machine

/-! ## The boundary (R206) -/

/-- The length of the cycle in progress: TCYC, or that of the header followed while the unit follows a ring and sends on none
(R80, R91). -/
def State.lenCyc (s : State) : Nat :=
  if s.anySending || !(List.range 4).any (fun r => s.rpSt r == rpFollow) then s.tcyc else s.tim.folTcyc.getD s.tcyc

/-- Cycle N + 1 begins: CSTART(N + 1) = CSTART(N) + TCYC(N) in the grid domain, and as the value of the other domain at the
same instant (R79, R80, R225). -/
def State.nextCycle (s : State) : State :=
  let g := s.grid
  let c := u32 (s.cstart g + s.lenCyc : Nat)
  let other := u32 ((s.now (1 - g) : Int) - dt (s.now g) c)
  { s with tim := { s.tim with cyc := (s.cyc + 1) % 2 ^ 32, cstartA := if g = 0 then c else other,
                               cstartB := if g = 0 then other else c } }

/-- Addresses of a ring's staged registers. -/
def ringStaged (r : Nat) : List Nat :=
  [R.RING_CTRL r, R.RING_TX_OFFSET_W r, R.RING_SPH_W r, R.RING_APH_W r, R.RING_RETURN_LIMIT_W r, R.RING_SCHED r] ++
    ((List.range 16).map (fun m => [R.RING_MARK_T_W r m, R.RING_MARK_C r m])).flatten

/-- Staged ring and time-base values that no knot of this boundary covers are taken (R206 step 1). -/
def State.ringCommits (s : State) (c : Nat) : State :=
  let l := (((List.range 4).map ringStaged).flatten).filter (fun a => s.reg a != s.actReg a && !s.kCoveredAt c a)
  let s := forEach l (fun a s => (s.ringTake a).2) s
  if s.kCoveredAt c R.TB_TCYC_W then s else s.take R.TB_TCYC_W

/-- A new TCYC takes effect: generators keep their path (R136), and held releases are checked again (R509). -/
def State.tcycChange (s : State) (n old : Nat) : State :=
  if s.tcyc = old then s
  else
    let s := forEach s.axes (fun x s =>
      if x.2.gen.segs.isEmpty && F32.isZero x.2.gen.v then s else s.modAx x.1 (fun y => { y with gen := F32.val (y.gen.rebase n old) })) s
    s.recheckHeld

/-- What the ring ports and axes take up at the boundary of cycle `n`. -/
def State.portsBoundary (s : State) (n : Nat) : State :=
  let s := forN 4 (fun r s => s.ringBoundary r n) s
  let s := forN 4 (fun r s => s.modRing r (fun x => { x with live := s.rpSt r != rpIdle && s.rpSt r != rpListen })) s
  let old := s
  (((s.deriveBinds).capsBound old).lossBoundary n).valveLandings n

/-! ## Marks (R91, R92) -/

/-- Cycle number, CSTART and TCYC that the marks of ring `r` use (R91): the unit's; or, on a ring followed by a unit that sends on
another, those of the frames followed, carried on by the domain's time where it follows the ring. -/
def State.markCyc (s : State) (r : Nat) : Nat × Nat × Nat :=
  let d := s.fa (R.RING_CTRL_TDOM r)
  match (if s.rpSt r = rpFollow && s.anySending then (s.ring r).fol else none) with
  | some (n, c, t) =>
    let k := if 0 < t && s.ringSteered d && s.f (R.TD_CFG_RSEL d) = r then (dt (s.now d) c / (t : Int)).toNat else 0
    (u32 (n + k : Nat), u32 (c + k * t : Nat), t)
  | none => (s.cyc, s.ringCstart r s.cyc, s.lenCyc)

/-- Mark `m` of ring `r` fires in the cycle in progress (R91), once: its boundary fell neither in IDLE nor in LISTEN. -/
def State.markFires (s : State) (r m : Nat) : Bool :=
  let k := 2 ^ s.fa (R.RING_MARK_C_DIVEXP r m)
  let c := s.markCyc r
  s.onA (R.RING_MARK_C_EN r m) && c.1 % k == s.fa (R.RING_MARK_C_PHASE r m) % k &&
    s.fa (R.RING_MARK_T_OFFSET r m) < c.2.2 && s.islOn (ringIsl r) && s.locked (ringIsl r) && (s.ring r).live &&
    SMap.get (fun _ => 0) (s.ring r).firedIn m != c.1 + 1

/-- TAGEN of a firing: a tag still full sets OVR and is reported (R92). -/
def State.markTag (s : State) (r m : Nat) : State :=
  let t := s.fa (R.RING_MARK_C_TAG r m)
  let y := s.markCyc r
  let c := y.1
  let st := u32 (y.2.1 + s.fa (R.RING_MARK_T_OFFSET r m) : Nat)
  let s :=
    if s.on (R.TAG_CTL_FULL t) then
      (s.orF (R.RING_MARK_OVR_OVR r) (2 ^ m)).report (srcOf 4 (16 * r + m)) clsWarn 0 [t, c]
    else s
  (forN 256 (fun n s =>
    if s.axKind n == kVirtual && s.axisMark n == some (r, m) then
      (s.modAx n (fun x => { x with sStamp := st })).wokenIn n c
    else s) s).fillTag t c

/-- The actions of a firing (R92). -/
def State.markAct (s : State) (r m : Nat) : State :=
  let c := s.markCyc r
  let s := s.modRing r (fun x => { x with firedIn := SMap.put (fun _ => 0) x.firedIn m (c.1 + 1) })
  let s := if s.onA (R.RING_MARK_C_TAGEN r m) then s.markTag r m else s
  let s := if s.onA (R.RING_MARK_C_IRQ r m) then s.irq (16 * r + m) 2 (16 * r + m) else s
  let s :=
    if s.onA (R.RING_MARK_C_SNAP r m) then
      s.snapFire c.1 (u32 (c.2.1 + s.fa (R.RING_MARK_T_OFFSET r m) : Nat))
    else s
  s.orF (R.RING_MARK_FIRED_FIRED r) (2 ^ m)

/-- A mark that fires, with the fid of its source. -/
def State.markFire (s : State) (r m : Nat) : State :=
  if s.markFires r m then (s.markAct r m).fidTake (fun x => x == srcOf 4 (16 * r + m)) else s

/-- The marks with OFFSET = 0 fire at the boundary, after everything that takes effect there (R81, R206 step 4). -/
def State.boundaryMarks (s : State) : State :=
  forN 4 (fun r s => forN 16 (fun m s => if s.fa (R.RING_MARK_T_OFFSET r m) = 0 then s.markFire r m else s) s) s

/-- CYCLE_BOUNDARY: CSTART(N) of the next cycle (R206). Writes held on locked registers land last (R209). -/
def State.cycleBoundary (s : State) : State :=
  let old := s
  let s := s.nextCycle
  let n := s.cyc
  let s := (((s.ringCommits n).knotBoundary n).tcycChange n old.tcyc).axisCommits n
  let s := (((s.chanBoundary n).groupBoundary n).pinBoundary n).portsBoundary n
  let s := ((s.gangBoundary n).belBoundary).switchBoundary
  let s := ((s.boundaryMarks).heldLand).dxBoundary n
  let s := (s.mirrorBoundary old n).busBoundary (u32 ((n : Int) - 1))
  s.fidTake (fun x => (x / 2048 == 4 && 64 ≤ x % 2048 && x % 2048 < 192) || x / 64 == 11 * 32 + 4 || x / 64 == 11 * 32 + 5)

def execCycleBoundary (s : State) : Res := .next s.cycleBoundary

/-- MARK_FIRE (R91). A mark that the boundary has fired, or that has fired in this cycle, does not fire again. -/
def execMarkFire (r : Fin 4) (m : Fin 16) (s : State) : Res := .next (s.markFire r m)

/-! ## Timed actions and captures -/

/-- TIMED_ACTION_ARRIVAL (R24). -/
def execTimedActionArrival (isl : Fin 44) (out : Nat) (dom : Fin 2) (tAct : Word) (value : Nat) (s : State) : Res :=
  .next (s.actionArrive ⟨isl, out, dom, tAct.toNat, value⟩)
/-- TIMED_ACTION_PERFORM (R24, R25). -/
def execTimedActionPerform (isl : Fin 44) (out : Nat) (s : State) : Res :=
  .next ((s.actionPerform isl out).chanAction s isl out)

/-- A filtered edge of TCI[i] (R239); the captures of a gang in STEP mode go to the gang (R357), and Belay counts the edges of
its pairs itself (R377). -/
def State.capture (s : State) (i : Nat) (rising : Bool) : State :=
  let s := s.lencEdge i
  if !s.tciEdge i rising then s
  else
    let stamp := s.tciStamp i
    let s :=
      match s.stepGang i with
      | some (q, true) => s.dirCapture q stamp rising
      | some (q, false) => s.stepCapture q stamp
      | none => s.tciEnter i stamp rising
    s.tciTag i stamp

/-- TCI_CAPTURE (R239). -/
def execTciCapture (i : Fin 32) (rising : Bool) (s : State) : Res := .next (s.capture i rising)

/-! ## The SYS clock (R427) -/

/-- SYS_CLOCK_LOSS: STAT.STATE reads TCK, and no record is committed. -/
def execSysClockLoss (s : State) : Res :=
  .next (if s.f R.LL_STAT_STATE = 4 then s
    else (s.modLog (fun l => { l with tckFrom := s.f R.LL_STAT_STATE })).set R.LL_STAT_STATE 4)
/-- SYS_CLOCK_RETURN: SYS runs again. -/
def execSysClockReturn (s : State) : Res :=
  .next (if s.f R.LL_STAT_STATE = 4 then ((s.set R.LL_STAT_STATE s.log.tckFrom).logStart).syncOcc else s)

end Sys2Proof.Machine
end

