-- ==== Sys2Proof/Machine/RegRows.lean ====
section
/-! DEFINITION. The commands that a rule describes as an access to one register: each is that access, made by its
requester and checked like any other (R29, R178, R203, R315, R468); and the logline's and time base's event commands. A
command that sets one trigger bit leaves the register's RW and RWS fields as they stand. -/

namespace Sys2Proof.Machine

/-! ## Rings (R62, R74, R77) -/

/-- RING_PORT_ENABLE (R62). -/
def execRingPortEnable (who : Requester) (r : Fin 4) (s : State) : Res :=
  .next (s.cmdField who (R.RING_CTRL_EN r) 1)

/-- RING_PORT_DISABLE (R62). -/
def execRingPortDisable (who : Requester) (r : Fin 4) (s : State) : Res :=
  .next (s.cmdField who (R.RING_CTRL_EN r) 0)

/-- RING_RUN (R62). -/
def execRingRun (who : Requester) (r : Fin 4) (s : State) : Res :=
  .next (s.cmdField who (R.RING_CTRL_RUN r) 1)

/-- RING_REDISCOVER (R62). -/
def execRingRediscover (who : Requester) (r : Fin 4) (s : State) : Res :=
  .next (s.cmdField who (R.RING_CTRL_REDISCOVER r) 1)

/-- RING_HEAL (R77). -/
def execRingHeal (who : Requester) (r : Fin 4) (s : State) : Res :=
  .next (s.cmdField who (R.RING_CTRL_HEAL r) 1)

/-- RING_CNTCLR (R62). -/
def execRingCntclr (who : Requester) (r : Fin 4) (s : State) : Res :=
  .next (s.cmdField who (R.RING_CTRL_CNTCLR r) 1)

/-- NODE_ACCEPT (R74). -/
def execNodeAccept (who : Requester) (r : Fin 4) (a : Fin 64) (s : State) : Res :=
  .next (s.cmdField who (R.RING_NT_STATE_ACCEPT r a) 1)

/-! ## Axes and knots (R180, R185, R201 to R216) -/

/-- AXIS_COMMIT_REQUEST (R180). -/
def execAxisCommitRequest (who : Requester) (a : Fin 256) (gmask : BitVec 11) (s : State) : Res :=
  .next (s.cmdWrite who (R.AX_CMT a) 4 (gmask.toNat * 2 ^ 16 + 1))

/-- AXIS_CNTCLR (R185). -/
def execAxisCntclr (who : Requester) (a : Fin 256) (s : State) : Res :=
  .next (s.cmdWrite who (R.AX_CNTCLR_W a) 4 1)

/-- KNOT_OPEN (R202). -/
def execKnotOpen (who : Requester) (k : Fin 64) (size : BitVec 10) (s : State) : Res :=
  .next (s.cmdWrite who (R.K_CMD k) 4 (1 * 2 ^ 28 + size.toNat))

/-- KNOT_ADD (R201). -/
def execKnotAdd (who : Requester) (k : Fin 64) (s : State) : Res :=
  .next (s.cmdWrite who (R.K_CMD k) 4 (2 * 2 ^ 28))

/-- KNOT_CLOSE (R205). -/
def execKnotClose (who : Requester) (k : Fin 64) (s : State) : Res :=
  .next (s.cmdWrite who (R.K_CMD k) 4 (3 * 2 ^ 28))

/-- KNOT_SLOT_CANCEL (R216). -/
def execKnotSlotCancel (who : Requester) (k : Fin 64) (s : State) : Res :=
  .next (s.cmdWrite who (R.K_CMD k) 4 (4 * 2 ^ 28))

/-- KNOT_RELEASE (R203). -/
def execKnotRelease (who : Requester) (k : Fin 64) (s : State) : Res :=
  .next (s.cmdWrite who (R.K_CMD k) 4 (5 * 2 ^ 28))

/-- KNOT_ANNOUNCE (R211). -/
def execKnotAnnounce (k : Fin 64) (s : State) : Res :=
  .next ((s.knotAnnounce k).mirrorSlot s k)

/-- KNOT_DECIDE (R211). -/
def execKnotDecide (k : Fin 64) (s : State) : Res :=
  .next (s.knotDecide k)

/-- KNOT_CONFIRM_END (R214, R215). -/
def execKnotConfirmEnd (k : Fin 64) (s : State) : Res :=
  .next ((s.knotConfirmEnd k).mirrorSlot s k)

/-! ## Time base and timed I/O (R226 to R240) -/

/-- OFS_IN_WRITE (R226). -/
def execOfsInWrite (who : Requester) (d : Fin 2) (v : Word) (s : State) : Res :=
  .next (s.cmdWrite who (R.TD_OFS_IN_W d) 4 v.toNat)

/-- RATE_WRITE (R227). -/
def execRateWrite (who : Requester) (d : Fin 2) (v : Word) (s : State) : Res :=
  .next (s.cmdWrite who (R.TD_RATE_W d) 4 v.toNat)

/-- SWITCH_OVER_START (R232). -/
def execSwitchOverStart (who : Requester) (target : Fin 2) (s : State) : Res :=
  .next (s.cmdWrite who R.TB_SW 4 (2 ^ 31 + target))

/-- TIME_SNAP (R240). -/
def execTimeSnap (who : Requester) (s : State) : Res :=
  .next (s.cmdWrite who R.TB_SNAP_W 4 1)

/-- EPOCH_WRITE (R231). -/
def execEpochWrite (who : Requester) (d : Fin 2) (secHi : BitVec 16) (s : State) : Res :=
  .next (s.cmdWrite who (R.TD_EPOCH_SEC_HI_W d) 4 secHi.toNat)

/-- PTP_FIFO_READ (R240). -/
def execPtpFifoRead (who : Requester) (i : Fin 2) (tx : Bool) (s : State) : Res :=
  .next (s.cmdRead who (if tx then R.PTP_TX_INFO i else R.PTP_RX_INFO i) 4)

/-- TEO_PUSH (R238). -/
def execTeoPush (who : Requester) (i : Fin 32) (action : Fin 4) (s : State) : Res :=
  .next (s.cmdWrite who (R.TEO_Q_ACT i) 4 action)

/-- TEO_FLUSH (R238). -/
def execTeoFlush (who : Requester) (i : Fin 32) (s : State) : Res :=
  .next (s.cmdWrite who (R.TEO_Q_ACT i) 4 (2 ^ 31))

/-- TEO_ACTION (R238). -/
def execTeoAction (i : Fin 32) (s : State) : Res :=
  .next (s.teoAct i)

/-- TEO_PULSE_CLEAR (R238). -/
def execTeoPulseClear (i : Fin 32) (s : State) : Res :=
  .next (s.teoClear i)

/-- TCI_HEAD_READ (R240). -/
def execTciHeadRead (who : Requester) (i : Fin 32) (s : State) : Res :=
  .next (s.cmdRead who (R.TCI_HEAD_INFO i) 4)

/-- HOLDOVER (R228). -/
def execHoldover (d : Fin 2) (s : State) : Res :=
  .next (s.holdover d)

/-! ## Dispatcher (R293 to R317) -/

/-- STRAND_START (R295). -/
def execStrandStart (who : Requester) (t : Fin 1024) (s : State) : Res :=
  .next (s.cmdWrite who (R.ST_CMD_W t) 4 1)

/-- STRAND_STOP (R293). -/
def execStrandStop (who : Requester) (t : Fin 1024) (s : State) : Res :=
  .next (s.cmdWrite who (R.ST_CMD_W t) 4 2)

/-- STRAND_RESUME (R291). -/
def execStrandResume (who : Requester) (t : Fin 1024) (s : State) : Res :=
  .next (s.cmdWrite who (R.ST_CMD_W t) 4 3)

/-- STRAND_END (R293). -/
def execStrandEnd (who : Requester) (t : Fin 1024) (s : State) : Res :=
  .next (s.cmdWrite who (R.ST_CMD_W t) 4 4)

/-- STRAND_MIGRATE (R311). -/
def execStrandMigrate (who : Requester) (t : Fin 1024) (s : State) : Res :=
  .next (s.cmdWrite who (R.ST_CMD_W t) 4 5)

/-- TAG_VALUE_WRITE (R298). -/
def execTagValueWrite (who : Requester) (t : Fin 16384) (v : Word) (s : State) : Res :=
  .next (s.cmdWrite who (R.TAG_VALUE_W t) 4 v.toNat)

/-- CORE_OFFREQ (R313). -/
def execCoreOffreq (who : Requester) (c : Fin 36) (s : State) : Res :=
  .next (s.cmdWrite who (R.DSP_CORE c) 4 (2 ^ 29))

/-- CORE_ONREQ (R313). -/
def execCoreOnreq (who : Requester) (c : Fin 36) (s : State) : Res :=
  .next (s.cmdWrite who (R.DSP_CORE c) 4 (2 ^ 28))

/-- SOFT_INTERRUPT (R316). -/
def execSoftInterrupt (who : Requester) (t : Fin 1024) (s : State) : Res :=
  .next (s.cmdWrite who R.DSP_SOFT_W 4 (t * 2 ^ 16))

/-- PARKED_VIEW_SELECT (R317). -/
def execParkedViewSelect (who : Requester) (t : Fin 1024) (s : State) : Res :=
  .next (s.cmdWrite who R.DSP_PV_SEL 4 t)

/-! ## Channels and groups (R322 to R348) -/

/-- CHANNEL_COMMIT_REQUEST (R326). -/
def execChannelCommitRequest (who : Requester) (ch : Fin 64) (s : State) : Res :=
  .next (s.cmdWrite who (R.PC_CMT_W ch) 4 1)

/-- GROUP_COMMIT_REQUEST (R348). -/
def execGroupCommitRequest (who : Requester) (g : Fin 16) (s : State) : Res :=
  .next (s.cmdWrite who (R.HG_CMT_W g) 4 1)

/-- OVR_WRITE (R322). -/
def execOvrWrite (who : Requester) (ch : Fin 64) (v : BitVec 3) (s : State) : Res :=
  .next (s.cmdWrite who (R.PC_OVR ch) 4 v.toNat)

/-- CHANNEL_ENABLE (R335). -/
def execChannelEnable (who : Requester) (ch : Fin 64) (s : State) : Res :=
  .next (s.cmdField who (R.PC_CTRL_EN ch) 1)

/-- CHANNEL_CNTCLR (R347). -/
def execChannelCntclr (who : Requester) (ch : Fin 64) (s : State) : Res :=
  .next (s.cmdWrite who (R.PC_CNTCLR_W ch) 4 1)

/-- GROUP_CNTCLR (R348). -/
def execGroupCntclr (who : Requester) (g : Fin 16) (s : State) : Res :=
  .next (s.cmdWrite who (R.HG_CNTCLR_W g) 4 1)

/-- SHOT_PUSH (R336). -/
def execShotPush (who : Requester) (ch : Fin 64) (d : BitVec 30) (s : State) : Res :=
  .next (s.cmdWrite who (R.PC_SHOT_D_W ch) 4 d.toNat)

/-- SHOT_FLUSH (R336). -/
def execShotFlush (who : Requester) (ch : Fin 64) (s : State) : Res :=
  .next (s.cmdWrite who (R.PC_SHOT_CTL ch) 4 1)

/-- SHOT_ABORT (R336). -/
def execShotAbort (who : Requester) (ch : Fin 64) (s : State) : Res :=
  .next (s.cmdWrite who (R.PC_SHOT_CTL ch) 4 2)

/-! ## Belay (R369 to R385) -/

/-- BELAY_RESTART (R369). -/
def execBelayRestart (who : Requester) (s : State) : Res :=
  .next (s.cmdWrite who R.BEL_CTRL_W 4 1)

/-- CONFIG_WRITE (R373). -/
def execConfigWrite (who : Requester) (s : State) : Res :=
  .next (s.cmdWrite who R.BEL_CFGW_CTL 4 1)

/-- ZONE_REQUEST (R378). -/
def execZoneRequest (who : Requester) (mask : Word) (s : State) : Res :=
  .next (s.cmdWrite who R.BEL_ZREQ_W 4 mask.toNat)

/-- ZONE_RESET (R378). -/
def execZoneReset (who : Requester) (mask : Word) (s : State) : Res :=
  .next (s.cmdWrite who R.BEL_ZRST_W 4 mask.toNat)

/-- CONNF_CLEAR (R381). -/
def execConnfClear (who : Requester) (w : Fin 8) (mask : Word) (s : State) : Res :=
  .next (s.cmdWrite who (R.BEL_CONNF_W w) 4 mask.toNat)

/-- SORST (R385). -/
def execSorst (who : Requester) (mask : BitVec 4) (s : State) : Res :=
  .next (s.cmdWrite who R.BEL_SORST_W 4 mask.toNat)

/-! ## Duplex (R398, R399, R409, R410) -/

/-- DUPLEX_ENABLE (R399). -/
def execDuplexEnable (who : Requester) (s : State) : Res :=
  .next (s.cmdField who R.DX_CTRL_EN 1)

/-- DUPLEX_DISABLE (R399). -/
def execDuplexDisable (who : Requester) (s : State) : Res :=
  .next (s.cmdField who R.DX_CTRL_EN 0)

/-- DUPLEX_FENCE (R398). -/
def execDuplexFence (who : Requester) (s : State) : Res :=
  .next (s.cmdField who R.DX_CTRL_FENCE 1)

/-- DUPLEX_REJOIN (R399). -/
def execDuplexRejoin (who : Requester) (s : State) : Res :=
  .next (s.cmdField who R.DX_CTRL_REJOIN 1)

/-- LIVE_KICK (R398). -/
def execLiveKick (who : Requester) (s : State) : Res :=
  .next (s.cmdField who R.DX_LIVE_KICK 1)

/-- TAKEBACK_CLEAR (R410). -/
def execTakebackClear (who : Requester) (s : State) : Res :=
  .next (s.cmdField who R.DX_CTRL_TBCLR 1)

/-- SWITCH (R409). -/
def execSwitch (who : Requester) (s : State) : Res :=
  .next (s.cmdField who R.DX_CTRL_SWITCH 1)

/-! ## Logline and fids (R420 to R433) -/

/-- LOG_READ (R425). -/
def execLogRead (who : Requester) (seqLo : Word) (s : State) : Res :=
  .next (s.cmdWrite who R.LL_RD_SEQ_LO_W 4 seqLo.toNat)

/-- WINDOW_READ (R426). -/
def execWindowRead (who : Requester) (d : Fin 256) (seqLo : Word) (s : State) : Res :=
  .next (s.cmdWrite who (R.LW_SEQ_LO_W d) 4 seqLo.toNat)

/-- SOFTWARE_REPORT (R420). -/
def execSoftwareReport (who : Requester) (d : Fin 256) (cls : Fin 4) (s : State) : Res :=
  .next (s.cmdWrite who (R.LW_GO d) 4 (2 ^ 31 + cls))

/-- LOG_ERASE (R428). -/
def execLogErase (who : Requester) (code : BitVec 4) (s : State) : Res :=
  .next (s.cmdWrite who R.LL_ERASE 4 (2 ^ 31 + code.toNat))

/-- FID_UNLOCK (R432). -/
def execFidUnlock (who : Requester) (key : Word) (s : State) : Res :=
  .next (s.cmdWrite who R.FID_UNLOCK_W 4 key.toNat)

/-- FID_DISARM (R432). -/
def execFidDisarm (who : Requester) (s : State) : Res :=
  .next (s.cmdWrite who R.FID_CTRL 4 1)

/-- FID_SLOT_GO (R433). -/
def execFidSlotGo (who : Requester) (j : Fin 8) (n : BitVec 16) (s : State) : Res :=
  .next (s.cmdWrite who (R.FS_CTRL j) 4 (2 ^ 31 + n.toNat))

/-- FID_SLOT_STOP (R433). -/
def execFidSlotStop (who : Requester) (j : Fin 8) (s : State) : Res :=
  .next (s.cmdField who (R.FS_CTRL_STOP j) 1)

/-- LATCH_ADMIT (R422). -/
def execLatchAdmit (s : State) : Res :=
  .next (s.latchAdmit)

/-- LOG_SCAN_DONE (R419). -/
def execLogScanDone (s : State) : Res :=
  .next (s.scanDone)

/-- LOG_READ_DONE (R425). -/
def execLogReadDone (s : State) : Res :=
  .next (s.readDone)

/-- LOG_ERASE_DONE (R428, R429). -/
def execLogEraseDone (wiped : BitVec 16) (s : State) : Res :=
  .next (s.eraseDone wiped.toNat)

/-- LOG_REPORT (R422). -/
def execLogReport (src : BitVec 16) (cls : Fin 4) (dom : BitVec 8) (data : List Word) (s : State) : Res :=
  .next (s.report src.toNat cls dom.toNat (data.map (·.toNat)))

/-! ## Power, boot and hosts (R442 to R494) -/

/-- DOMAIN_REQUEST (R442). -/
def execDomainRequest (who : Requester) (pd : BitVec 24) (s : State) : Res :=
  .next (s.cmdWrite who R.PMU_PD_REQ_W 4 pd.toNat)

/-- ISLAND_RESET (R443). -/
def execIslandReset (who : Requester) (isl : BitVec 6) (s : State) : Res :=
  .next (s.cmdWrite who R.PMU_ISLRST 4 (2 ^ 31 + isl.toNat))

/-- OPP_CHANGE (R444). -/
def execOppChange (who : Requester) (i : Fin 33) (opp : Fin 4) (s : State) : Res :=
  .next (s.cmdWrite who (R.PMU_ISL i) 4 opp)

/-- STANDBY_GO (R445). -/
def execStandbyGo (who : Requester) (s : State) : Res :=
  .next (s.cmdField who R.AON_STANDBY_GO 1)

/-- SHUTDOWN (R450). -/
def execShutdown (who : Requester) (s : State) : Res :=
  .next (s.cmdField who R.PMU_CTRL_SHUTDOWN 1)

/-- SAVE_GO (R454). -/
def execSaveGo (who : Requester) (s : State) : Res :=
  .next (s.cmdField who R.PMU_SAVE_CTRL_GO 1)

/-- SOFTWARE_RESET (R456). -/
def execSoftwareReset (who : Requester) (s : State) : Res :=
  .next (s.cmdField who R.PMU_CTRL_SWRESET 1)

/-- FUSE_PROGRAM (R463). -/
def execFuseProgram (who : Requester) (s : State) : Res :=
  .next (s.cmdField who R.DOM_FUSEPROG_GO 1)

/-- MRAM_WRITE (R464). -/
def execMramWrite (who : Requester) (s : State) : Res :=
  .next (s.cmdField who R.DOM_MWR_CTL_GO 1)

/-- DEBUG_OPEN (R465). -/
def execDebugOpen (who : Requester) (s : State) : Res :=
  .next (s.cmdField who R.DOM_BOOT_CTRL_DBGOPEN 1)

/-- MSIX_SEND (R473). -/
def execMsixSend (who : Requester) (f : Fin 64) (vec : Fin 8) (s : State) : Res :=
  .next (s.cmdWrite who (R.PCIE_MSIX_SEND_W f) 4 vec)

/-- PCIE_OUTBOUND (R474): an access to the outbound window. -/
def execPcieOutbound (who : Requester) (write : Bool) (addr : BitVec 52) (size : Size) (data : BitVec 64) (s : State) : Res :=
  let n := sizeBytes size
  .next (if write then s.cmdWrite who addr.toNat n (data.toNat % 2 ^ (8 * n)) else s.cmdRead who addr.toNat n)

/-- A BAR2 access of function `f` at offset `o` (R473): refused when IN_EN = 0, when R29 is broken or outside the map. -/
def State.inbound (s : State) (f : Nat) (write : Bool) (o n v : Nat) : State :=
  let who : Requester := ⟨.pcie, f, s.f (R.PCIE_FN_CFG_FDOM f), none⟩
  let a := s.f (R.PCIE_FN_BASE_LO_BASE f) * 2 ^ 20 + s.f (R.PCIE_FN_BASE_HI_BASE f) * 2 ^ 32 + o
  let vd := s.check who a n v (if write then .write else .read)
  let broken := match s.range a with | some g => !widthOk g a n | none => true
  if !s.on (R.PCIE_FN_CFG_IN_EN f) || 2 ^ s.f (R.PCIE_FN_CFG_BAR2SZ f) ≤ o || vd = .outside || broken then
    ((s.violation who a write).hostReport 5 f clsWarn []).answer .accessError
  else if write then s.cmdWrite who a n v
  else s.cmdRead who a n

/-- PCIE_INBOUND_ACCESS (R473). -/
def execPcieInboundAccess (f : Fin 64) (write : Bool) (ofs : Nat) (size : Size) (data : BitVec 64) (s : State) : Res :=
  .next (s.inbound f write ofs (sizeBytes size) (data.toNat % 2 ^ (8 * sizeBytes size)))

/-- DMA_START (R476). -/
def execDmaStart (who : Requester) (k : Fin 8) (s : State) : Res :=
  .next (s.cmdField who (R.PCIE_CH_CTRL_GO k) 1)

/-- DMA_STOP (R476). -/
def execDmaStop (who : Requester) (k : Fin 8) (s : State) : Res :=
  .next (s.cmdField who (R.PCIE_CH_CTRL_STOP k) 1)

/-- PLANT_TX_TAIL (R478). -/
def execPlantTxTail (who : Requester) (q : Fin 2) (tail : BitVec 13) (s : State) : Res :=
  .next (s.cmdWrite who (R.PCIE_TXQ_TAIL_W q) 4 tail.toNat)

/-- MAILBOX_ACK (R483). -/
def execMailboxAck (who : Requester) (s : State) : Res :=
  .next (s.cmdField who R.SNP_MBX_ACK 1)

/-- SNAPSHOT_SWAPNOW (R481). -/
def execSnapshotSwapnow (who : Requester) (s : State) : Res :=
  .next (s.cmdField who R.SNP_CTRL_SWAPNOW 1)

/-- PIN_COMMIT_NOW (R494). -/
def execPinCommitNow (who : Requester) (s : State) : Res :=
  .next (s.cmdField who R.PIN_CMT_NOW 1)

/-- PIN_COMMIT_GO (R494). -/
def execPinCommitGo (who : Requester) (s : State) : Res :=
  .next (s.cmdField who R.PIN_CMT_GO 1)

end Sys2Proof.Machine
end

