-- ==== Sys2Proof/Machine/Dispatch.lean ====
section
/-! DEFINITION. The dispatch of commands: one arm per constructor of Instr, each ONE direct call of its meaning. -/

namespace Sys2Proof.Machine

def exec (i : Instr) (s : State) : Host.Outcome State Fault Refusal :=
  match i with
  | .registerWrite who addr size data => Sys2Proof.Machine.execRegisterWrite who addr size data s
  | .crossingTimerExpiry src dst => Sys2Proof.Machine.execCrossingTimerExpiry src dst s
  | .beacon seen => Sys2Proof.Machine.execBeacon seen s
  | .replicaLock isl => Sys2Proof.Machine.execReplicaLock isl s
  | .replicaUnlock isl => Sys2Proof.Machine.execReplicaUnlock isl s
  | .timedActionArrival isl out dom tAct value => Sys2Proof.Machine.execTimedActionArrival isl out dom tAct value s
  | .timedActionPerform isl out => Sys2Proof.Machine.execTimedActionPerform isl out s
  | .debugHalt c => Sys2Proof.Machine.execDebugHalt c s
  | .haltEnd c => Sys2Proof.Machine.execHaltEnd c s
  | .debugPortReset => Sys2Proof.Machine.execDebugPortReset s
  | .portLinkChange r tail up speed => Sys2Proof.Machine.execPortLinkChange r tail up speed s
  | .ringPortEnable who r => Sys2Proof.Machine.execRingPortEnable who r s
  | .ringPortDisable who r => Sys2Proof.Machine.execRingPortDisable who r s
  | .listenWindowExpiry r => Sys2Proof.Machine.execListenWindowExpiry r s
  | .ringRun who r => Sys2Proof.Machine.execRingRun who r s
  | .ringRediscover who r => Sys2Proof.Machine.execRingRediscover who r s
  | .ringHeal who r => Sys2Proof.Machine.execRingHeal who r s
  | .ringCntclr who r => Sys2Proof.Machine.execRingCntclr who r s
  | .healTimeout r => Sys2Proof.Machine.execHealTimeout r s
  | .frameSend r f => Sys2Proof.Machine.execFrameSend r f s
  | .ringFrameReceive r tail frame => Sys2Proof.Machine.execRingFrameReceive r tail frame s
  | .returnLimitExpiry r => Sys2Proof.Machine.execReturnLimitExpiry r s
  | .nodeMissing r a => Sys2Proof.Machine.execNodeMissing r a s
  | .nodeRetryExpiry r a => Sys2Proof.Machine.execNodeRetryExpiry r a s
  | .nodeAccept who r a => Sys2Proof.Machine.execNodeAccept who r a s
  | .nodeFrameProcess r nd frame => Sys2Proof.Machine.execNodeFrameProcess r nd frame s
  | .nodeReverseForward r nd frame => Sys2Proof.Machine.execNodeReverseForward r nd frame s
  | .nodeAddressTake r nd => Sys2Proof.Machine.execNodeAddressTake r nd s
  | .nodeClaimTimeout r nd => Sys2Proof.Machine.execNodeClaimTimeout r nd s
  | .nodeSample r nd samples => Sys2Proof.Machine.execNodeSample r nd samples s
  | .nodeApply r nd => Sys2Proof.Machine.execNodeApply r nd s
  | .nodeLostCycle r nd => Sys2Proof.Machine.execNodeLostCycle r nd s
  | .nodeLoopback r nd cause => Sys2Proof.Machine.execNodeLoopback r nd cause s
  | .nodeHealnow r nd => Sys2Proof.Machine.execNodeHealnow r nd s
  | .nodeReset r nd => Sys2Proof.Machine.execNodeReset r nd s
  | .nodeSafetyWatchdog r nd => Sys2Proof.Machine.execNodeSafetyWatchdog r nd s
  | .mailboxNop r nd seq => Sys2Proof.Machine.execMailboxNop r nd seq s
  | .mailboxRead r nd seq obj => Sys2Proof.Machine.execMailboxRead r nd seq obj s
  | .mailboxWrite r nd seq obj value => Sys2Proof.Machine.execMailboxWrite r nd seq obj value s
  | .knotPrep r nd seq knot obj value => Sys2Proof.Machine.execKnotPrep r nd seq knot obj value s
  | .knotSeal r nd seq knot count => Sys2Proof.Machine.execKnotSeal r nd seq knot count s
  | .knotCancel r nd seq knot => Sys2Proof.Machine.execKnotCancel r nd seq knot s
  | .mailboxUnknownOp r nd seq mop => Sys2Proof.Machine.execMailboxUnknownOp r nd seq mop s
  | .cycleBoundary => Sys2Proof.Machine.execCycleBoundary s
  | .releaseArrival => Sys2Proof.Machine.execReleaseArrival s
  | .seqGapExpiry f => Sys2Proof.Machine.execSeqGapExpiry f s
  | .releaseDeadline a => Sys2Proof.Machine.execReleaseDeadline a s
  | .lateEvent a => Sys2Proof.Machine.execLateEvent a s
  | .markFire r m => Sys2Proof.Machine.execMarkFire r m s
  | .standardLoopActivation a => Sys2Proof.Machine.execStandardLoopActivation a s
  | .profileDone a => Sys2Proof.Machine.execProfileDone a s
  | .rampedStopEnd a => Sys2Proof.Machine.execRampedStopEnd a s
  | .stepTimeout a => Sys2Proof.Machine.execStepTimeout a s
  | .feedbackLanding a => Sys2Proof.Machine.execFeedbackLanding a s
  | .feTimerExpiry a => Sys2Proof.Machine.execFeTimerExpiry a s
  | .fblossEvent a => Sys2Proof.Machine.execFblossEvent a s
  | .limitInputActive a neg => Sys2Proof.Machine.execLimitInputActive a neg s
  | .axisCommitRequest who a gmask => Sys2Proof.Machine.execAxisCommitRequest who a gmask s
  | .axisCntclr who a => Sys2Proof.Machine.execAxisCntclr who a s
  | .knotOpen who k size => Sys2Proof.Machine.execKnotOpen who k size s
  | .knotAdd who k => Sys2Proof.Machine.execKnotAdd who k s
  | .knotClose who k => Sys2Proof.Machine.execKnotClose who k s
  | .knotSlotCancel who k => Sys2Proof.Machine.execKnotSlotCancel who k s
  | .knotRelease who k => Sys2Proof.Machine.execKnotRelease who k s
  | .knotAnnounce k => Sys2Proof.Machine.execKnotAnnounce k s
  | .knotDecide k => Sys2Proof.Machine.execKnotDecide k s
  | .knotConfirmEnd k => Sys2Proof.Machine.execKnotConfirmEnd k s
  | .ofsInWrite who d v => Sys2Proof.Machine.execOfsInWrite who d v s
  | .rateWrite who d v => Sys2Proof.Machine.execRateWrite who d v s
  | .holdover d => Sys2Proof.Machine.execHoldover d s
  | .switchOverStart who target => Sys2Proof.Machine.execSwitchOverStart who target s
  | .timeSnap who => Sys2Proof.Machine.execTimeSnap who s
  | .epochWrite who d secHi => Sys2Proof.Machine.execEpochWrite who d secHi s
  | .ptpFifoRead who k tx => Sys2Proof.Machine.execPtpFifoRead who k tx s
  | .teoPush who k0 action => Sys2Proof.Machine.execTeoPush who k0 action s
  | .teoFlush who k0 => Sys2Proof.Machine.execTeoFlush who k0 s
  | .teoAction k0 => Sys2Proof.Machine.execTeoAction k0 s
  | .teoPulseClear k0 => Sys2Proof.Machine.execTeoPulseClear k0 s
  | .tciCapture k0 rising => Sys2Proof.Machine.execTciCapture k0 rising s
  | .tciHeadRead who k0 => Sys2Proof.Machine.execTciHeadRead who k0 s
  | .add c G rd rs1 rs2 => Sys2Proof.Machine.execAdd c G rd rs1 rs2 s
  | .sub c G rd rs1 rs2 => Sys2Proof.Machine.execSub c G rd rs1 rs2 s
  | .and c G rd rs1 rs2 => Sys2Proof.Machine.execAnd c G rd rs1 rs2 s
  | .or c G rd rs1 rs2 => Sys2Proof.Machine.execOr c G rd rs1 rs2 s
  | .xor c G rd rs1 rs2 => Sys2Proof.Machine.execXor c G rd rs1 rs2 s
  | .shl c G rd rs1 rs2 => Sys2Proof.Machine.execShl c G rd rs1 rs2 s
  | .shr c G rd rs1 rs2 => Sys2Proof.Machine.execShr c G rd rs1 rs2 s
  | .sar c G rd rs1 rs2 => Sys2Proof.Machine.execSar c G rd rs1 rs2 s
  | .mul c G rd rs1 rs2 => Sys2Proof.Machine.execMul c G rd rs1 rs2 s
  | .mulh c G rd rs1 rs2 => Sys2Proof.Machine.execMulh c G rd rs1 rs2 s
  | .mulhu c G rd rs1 rs2 => Sys2Proof.Machine.execMulhu c G rd rs1 rs2 s
  | .div c G rd rs1 rs2 => Sys2Proof.Machine.execDiv c G rd rs1 rs2 s
  | .divu c G rd rs1 rs2 => Sys2Proof.Machine.execDivu c G rd rs1 rs2 s
  | .rem c G rd rs1 rs2 => Sys2Proof.Machine.execRem c G rd rs1 rs2 s
  | .remu c G rd rs1 rs2 => Sys2Proof.Machine.execRemu c G rd rs1 rs2 s
  | .min c G rd rs1 rs2 => Sys2Proof.Machine.execMin c G rd rs1 rs2 s
  | .max c G rd rs1 rs2 => Sys2Proof.Machine.execMax c G rd rs1 rs2 s
  | .minu c G rd rs1 rs2 => Sys2Proof.Machine.execMinu c G rd rs1 rs2 s
  | .maxu c G rd rs1 rs2 => Sys2Proof.Machine.execMaxu c G rd rs1 rs2 s
  | .clz c G rd rs1 rs2 => Sys2Proof.Machine.execClz c G rd rs1 rs2 s
  | .mov c G rd rs1 rs2 => Sys2Proof.Machine.execMov c G rd rs1 rs2 s
  | .addi c G rd rs1 imm => Sys2Proof.Machine.execAddi c G rd rs1 imm s
  | .andi c G rd rs1 imm => Sys2Proof.Machine.execAndi c G rd rs1 imm s
  | .ori c G rd rs1 imm => Sys2Proof.Machine.execOri c G rd rs1 imm s
  | .xori c G rd rs1 imm => Sys2Proof.Machine.execXori c G rd rs1 imm s
  | .shi c G rd rs1 imm => Sys2Proof.Machine.execShi c G rd rs1 imm s
  | .movi c G rd imm => Sys2Proof.Machine.execMovi c G rd imm s
  | .cmp c G pt pf rs1 rs2 cc => Sys2Proof.Machine.execCmp c G pt pf rs1 rs2 cc s
  | .fadd c G rd rs1 rs2 => Sys2Proof.Machine.execFadd c G rd rs1 rs2 s
  | .fsub c G rd rs1 rs2 => Sys2Proof.Machine.execFsub c G rd rs1 rs2 s
  | .fmul c G rd rs1 rs2 => Sys2Proof.Machine.execFmul c G rd rs1 rs2 s
  | .ffma c G rd rs1 rs2 => Sys2Proof.Machine.execFfma c G rd rs1 rs2 s
  | .ffms c G rd rs1 rs2 => Sys2Proof.Machine.execFfms c G rd rs1 rs2 s
  | .fdiv c G rd rs1 rs2 => Sys2Proof.Machine.execFdiv c G rd rs1 rs2 s
  | .fsqrt c G rd rs1 rs2 => Sys2Proof.Machine.execFsqrt c G rd rs1 rs2 s
  | .fmin c G rd rs1 rs2 => Sys2Proof.Machine.execFmin c G rd rs1 rs2 s
  | .fmax c G rd rs1 rs2 => Sys2Proof.Machine.execFmax c G rd rs1 rs2 s
  | .fabs c G rd rs1 rs2 => Sys2Proof.Machine.execFabs c G rd rs1 rs2 s
  | .fneg c G rd rs1 rs2 => Sys2Proof.Machine.execFneg c G rd rs1 rs2 s
  | .fclamp c G rd rs1 rs2 => Sys2Proof.Machine.execFclamp c G rd rs1 rs2 s
  | .cvtif c G rd rs1 rs2 => Sys2Proof.Machine.execCvtif c G rd rs1 rs2 s
  | .cvtuf c G rd rs1 rs2 => Sys2Proof.Machine.execCvtuf c G rd rs1 rs2 s
  | .cvtfi c G rd rs1 rs2 => Sys2Proof.Machine.execCvtfi c G rd rs1 rs2 s
  | .cvtfu c G rd rs1 rs2 => Sys2Proof.Machine.execCvtfu c G rd rs1 rs2 s
  | .ftrunc c G rd rs1 rs2 => Sys2Proof.Machine.execFtrunc c G rd rs1 rs2 s
  | .ffloor c G rd rs1 rs2 => Sys2Proof.Machine.execFfloor c G rd rs1 rs2 s
  | .fsin c G rd rs1 rs2 => Sys2Proof.Machine.execFsin c G rd rs1 rs2 s
  | .fcos c G rd rs1 rs2 => Sys2Proof.Machine.execFcos c G rd rs1 rs2 s
  | .smvf c G rd rs1 rs2 => Sys2Proof.Machine.execSmvf c G rd rs1 rs2 s
  | .smvi c G rd rs1 rs2 => Sys2Proof.Machine.execSmvi c G rd rs1 rs2 s
  | .ldb c G rd rb ofs => Sys2Proof.Machine.execLdb c G rd rb ofs s
  | .ldbu c G rd rb ofs => Sys2Proof.Machine.execLdbu c G rd rb ofs s
  | .ldh c G rd rb ofs => Sys2Proof.Machine.execLdh c G rd rb ofs s
  | .ldhu c G rd rb ofs => Sys2Proof.Machine.execLdhu c G rd rb ofs s
  | .ldw c G rd rb ofs => Sys2Proof.Machine.execLdw c G rd rb ofs s
  | .ldd c G rd rb ofs => Sys2Proof.Machine.execLdd c G rd rb ofs s
  | .stb c G rd rb ofs => Sys2Proof.Machine.execStb c G rd rb ofs s
  | .sth c G rd rb ofs => Sys2Proof.Machine.execSth c G rd rb ofs s
  | .stw c G rd rb ofs => Sys2Proof.Machine.execStw c G rd rb ofs s
  | .std c G rd rb ofs => Sys2Proof.Machine.execStd c G rd rb ofs s
  | .b c G disp => Sys2Proof.Machine.execB c G disp s
  | .bl c G disp => Sys2Proof.Machine.execBl c G disp s
  | .br c G rd rs1 rs2 => Sys2Proof.Machine.execBr c G rd rs1 rs2 s
  | .blr c G rd rs1 rs2 => Sys2Proof.Machine.execBlr c G rd rs1 rs2 s
  | .rep c G body ci rot cnt => Sys2Proof.Machine.execRep c G body ci rot cnt s
  | .nop c G rd rs1 rs2 => Sys2Proof.Machine.execNop c G rd rs1 rs2 s
  | .fence c G rd rs1 rs2 => Sys2Proof.Machine.execFence c G rd rs1 rs2 s
  | .syscall c G rd rs1 rs2 => Sys2Proof.Machine.execSyscall c G rd rs1 rs2 s
  | .eret c G rd rs1 rs2 => Sys2Proof.Machine.execEret c G rd rs1 rs2 s
  | .brk c G rd rs1 rs2 => Sys2Proof.Machine.execBrk c G rd rs1 rs2 s
  | .waitop c G rd rs1 rs2 => Sys2Proof.Machine.execWaitop c G rd rs1 rs2 s
  | .release c G rd rs1 rs2 => Sys2Proof.Machine.execRelease c G rd rs1 rs2 s
  | .tagrd c G rd rs1 rs2 => Sys2Proof.Machine.execTagrd c G rd rs1 rs2 s
  | .tagwr c G rd rs1 rs2 => Sys2Proof.Machine.execTagwr c G rd rs1 rs2 s
  | .kopen c G rd rs1 rs2 => Sys2Proof.Machine.execKopen c G rd rs1 rs2 s
  | .kadd c G rd rs1 rs2 => Sys2Proof.Machine.execKadd c G rd rs1 rs2 s
  | .kclose c G rd rs1 rs2 => Sys2Proof.Machine.execKclose c G rd rs1 rs2 s
  | .biq c G rd rs1 rs2 cnt => Sys2Proof.Machine.execBiq c G rd rs1 rs2 cnt s
  | .pi c G rd rs1 rs2 cnt => Sys2Proof.Machine.execPi c G rd rs1 rs2 cnt s
  | .piu c G rd rs1 rs2 cnt => Sys2Proof.Machine.execPiu c G rd rs1 rs2 cnt s
  | .tint c G rd rs1 rs2 cnt => Sys2Proof.Machine.execTint c G rd rs1 rs2 cnt s
  | .rlu c G rd rs1 rs2 cnt => Sys2Proof.Machine.execRlu c G rd rs1 rs2 cnt s
  | .bcopy c G rd rs1 rs2 rn => Sys2Proof.Machine.execBcopy c G rd rs1 rs2 rn s
  | .bfill c G rd rs1 rs2 rn => Sys2Proof.Machine.execBfill c G rd rs1 rs2 rn s
  | .badd c G rd rs1 rs2 rn => Sys2Proof.Machine.execBadd c G rd rs1 rs2 rn s
  | .bsub c G rd rs1 rs2 rn => Sys2Proof.Machine.execBsub c G rd rs1 rs2 rn s
  | .bmul c G rd rs1 rs2 rn => Sys2Proof.Machine.execBmul c G rd rs1 rs2 rn s
  | .bfma c G rd rs1 rs2 rn => Sys2Proof.Machine.execBfma c G rd rs1 rs2 rn s
  | .btint c G rd rs1 rs2 rn => Sys2Proof.Machine.execBtint c G rd rs1 rs2 rn s
  | .bbiq c G rd rs1 rs2 rn => Sys2Proof.Machine.execBbiq c G rd rs1 rs2 rn s
  | .vadd c G vd vs1 vs2 => Sys2Proof.Machine.execVadd c G vd vs1 vs2 s
  | .vsub c G vd vs1 vs2 => Sys2Proof.Machine.execVsub c G vd vs1 vs2 s
  | .vmul c G vd vs1 vs2 => Sys2Proof.Machine.execVmul c G vd vs1 vs2 s
  | .vfma c G vd vs1 vs2 => Sys2Proof.Machine.execVfma c G vd vs1 vs2 s
  | .vfms c G vd vs1 vs2 => Sys2Proof.Machine.execVfms c G vd vs1 vs2 s
  | .vmin c G vd vs1 vs2 => Sys2Proof.Machine.execVmin c G vd vs1 vs2 s
  | .vmax c G vd vs1 vs2 => Sys2Proof.Machine.execVmax c G vd vs1 vs2 s
  | .vclamp c G vd vs1 vs2 => Sys2Proof.Machine.execVclamp c G vd vs1 vs2 s
  | .vabs c G vd vs1 vs2 => Sys2Proof.Machine.execVabs c G vd vs1 vs2 s
  | .vneg c G vd vs1 vs2 => Sys2Proof.Machine.execVneg c G vd vs1 vs2 s
  | .vdiv c G vd vs1 vs2 => Sys2Proof.Machine.execVdiv c G vd vs1 vs2 s
  | .vld c G vd rb ofs => Sys2Proof.Machine.execVld c G vd rb ofs s
  | .vst c G vd rb ofs => Sys2Proof.Machine.execVst c G vd rb ofs s
  | .vsplat c G vd rg lane => Sys2Proof.Machine.execVsplat c G vd rg lane s
  | .vins c G vd rg lane => Sys2Proof.Machine.execVins c G vd rg lane s
  | .vext c G vd rg lane => Sys2Proof.Machine.execVext c G vd rg lane s
  | .clpk c G vd vs1 vs2 => Sys2Proof.Machine.execClpk c G vd vs1 vs2 s
  | .ipkc c G vd vs1 vs2 => Sys2Proof.Machine.execIpkc c G vd vs1 vs2 s
  | .vsmvf c G vd vs1 vs2 => Sys2Proof.Machine.execVsmvf c G vd vs1 vs2 s
  | .vsmvi c G vd vs1 vs2 => Sys2Proof.Machine.execVsmvi c G vd vs1 vs2 s
  | .vmov c G vd vs1 vs2 => Sys2Proof.Machine.execVmov c G vd vs1 vs2 s
  | .li c G rd rs1 imm => Sys2Proof.Machine.execLi c G rd rs1 imm s
  | .addi32 c G rd rs1 imm => Sys2Proof.Machine.execAddi32 c G rd rs1 imm s
  | .andi32 c G rd rs1 imm => Sys2Proof.Machine.execAndi32 c G rd rs1 imm s
  | .ori32 c G rd rs1 imm => Sys2Proof.Machine.execOri32 c G rd rs1 imm s
  | .xori32 c G rd rs1 imm => Sys2Proof.Machine.execXori32 c G rd rs1 imm s
  | .ldw32 c G rd rs1 imm => Sys2Proof.Machine.execLdw32 c G rd rs1 imm s
  | .stw32 c G rd rs1 imm => Sys2Proof.Machine.execStw32 c G rd rs1 imm s
  | .mfs c G rd sr => Sys2Proof.Machine.execMfs c G rd sr s
  | .mts c G rd sr => Sys2Proof.Machine.execMts c G rd sr s
  | .tlbinv c G rd rs1 rs2 => Sys2Proof.Machine.execTlbinv c G rd rs1 rs2 s
  | .tlbinvd c G rd rs1 rs2 => Sys2Proof.Machine.execTlbinvd c G rd rs1 rs2 s
  | .tlbinva c G rd rs1 rs2 => Sys2Proof.Machine.execTlbinva c G rd rs1 rs2 s
  | .icinv c G rd rs1 rs2 => Sys2Proof.Machine.execIcinv c G rd rs1 rs2 s
  | .dcfl c G rd rs1 rs2 => Sys2Proof.Machine.execDcfl c G rd rs1 rs2 s
  | .dcfla c G rd rs1 rs2 => Sys2Proof.Machine.execDcfla c G rd rs1 rs2 s
  | .remoteAccessComplete c => Sys2Proof.Machine.execRemoteAccessComplete c s
  | .qWriteLand c k => Sys2Proof.Machine.execQWriteLand c k s
  | .accessAsync c => Sys2Proof.Machine.execAccessAsync c s
  | .interruptEntry c => Sys2Proof.Machine.execInterruptEntry c s
  | .strandStart who t => Sys2Proof.Machine.execStrandStart who t s
  | .strandStop who t => Sys2Proof.Machine.execStrandStop who t s
  | .strandResume who t => Sys2Proof.Machine.execStrandResume who t s
  | .strandEnd who t => Sys2Proof.Machine.execStrandEnd who t s
  | .strandMigrate who t => Sys2Proof.Machine.execStrandMigrate who t s
  | .tagValueWrite who t v => Sys2Proof.Machine.execTagValueWrite who t v s
  | .strandPlace c => Sys2Proof.Machine.execStrandPlace c s
  | .prefetch c => Sys2Proof.Machine.execPrefetch c s
  | .prefetchDone c => Sys2Proof.Machine.execPrefetchDone c s
  | .preempt c => Sys2Proof.Machine.execPreempt c s
  | .affwinExpiry t => Sys2Proof.Machine.execAffwinExpiry t s
  | .drainComplete t => Sys2Proof.Machine.execDrainComplete t s
  | .drainlate t => Sys2Proof.Machine.execDrainlate t s
  | .coreOffreq who c => Sys2Proof.Machine.execCoreOffreq who c s
  | .coreOnreq who c => Sys2Proof.Machine.execCoreOnreq who c s
  | .softInterrupt who t => Sys2Proof.Machine.execSoftInterrupt who t s
  | .parkedViewSelect who t => Sys2Proof.Machine.execParkedViewSelect who t s
  | .channelCommitRequest who ch => Sys2Proof.Machine.execChannelCommitRequest who ch s
  | .groupCommitRequest who g => Sys2Proof.Machine.execGroupCommitRequest who g s
  | .carrierPeriodStart ch => Sys2Proof.Machine.execCarrierPeriodStart ch s
  | .syncinEdge bank => Sys2Proof.Machine.execSyncinEdge bank s
  | .syncLoss ch => Sys2Proof.Machine.execSyncLoss ch s
  | .syncoutPulseEnd bank => Sys2Proof.Machine.execSyncoutPulseEnd bank s
  | .compareEdge ch => Sys2Proof.Machine.execCompareEdge ch s
  | .ovrWrite who ch v => Sys2Proof.Machine.execOvrWrite who ch v s
  | .pulseSet ch => Sys2Proof.Machine.execPulseSet ch s
  | .enRise ch => Sys2Proof.Machine.execEnRise ch s
  | .gateSenseChange ch low level => Sys2Proof.Machine.execGateSenseChange ch low level s
  | .goffTimeout ch => Sys2Proof.Machine.execGoffTimeout ch s
  | .gonTimeout ch => Sys2Proof.Machine.execGonTimeout ch s
  | .overcurrentDetect ch => Sys2Proof.Machine.execOvercurrentDetect ch s
  | .adcConversion k ain code => Sys2Proof.Machine.execAdcConversion k ain code s
  | .channelEnable who ch => Sys2Proof.Machine.execChannelEnable who ch s
  | .channelCntclr who ch => Sys2Proof.Machine.execChannelCntclr who ch s
  | .groupCntclr who g => Sys2Proof.Machine.execGroupCntclr who g s
  | .shotPush who ch d => Sys2Proof.Machine.execShotPush who ch d s
  | .shotFlush who ch => Sys2Proof.Machine.execShotFlush who ch s
  | .shotAbort who ch => Sys2Proof.Machine.execShotAbort who ch s
  | .shotStart ch => Sys2Proof.Machine.execShotStart ch s
  | .deferredShotStart g => Sys2Proof.Machine.execDeferredShotStart g s
  | .shotPeakEnd ch => Sys2Proof.Machine.execShotPeakEnd ch s
  | .holdPeriodStart ch => Sys2Proof.Machine.execHoldPeriodStart ch s
  | .shotEnd ch => Sys2Proof.Machine.execShotEnd ch s
  | .chargePumpFault g => Sys2Proof.Machine.execChargePumpFault g s
  | .haltDwellExpiry ch => Sys2Proof.Machine.execHaltDwellExpiry ch s
  | .microstep gang => Sys2Proof.Machine.execMicrostep gang s
  | .holdCurrentTimeout gang => Sys2Proof.Machine.execHoldCurrentTimeout gang s
  | .chopperSample ch code => Sys2Proof.Machine.execChopperSample ch code s
  | .fastDecayEnd ch => Sys2Proof.Machine.execFastDecayEnd ch s
  | .encoderEdge gang a b => Sys2Proof.Machine.execEncoderEdge gang a b s
  | .gangLanding gang => Sys2Proof.Machine.execGangLanding gang s
  | .belayPowerUp => Sys2Proof.Machine.execBelayPowerUp s
  | .configVote => Sys2Proof.Machine.execConfigVote s
  | .belayTestDone pass => Sys2Proof.Machine.execBelayTestDone pass s
  | .gttimeExpiry => Sys2Proof.Machine.execGttimeExpiry s
  | .belayRestart who => Sys2Proof.Machine.execBelayRestart who s
  | .sealOpen opened => Sys2Proof.Machine.execSealOpen opened s
  | .configWrite who => Sys2Proof.Machine.execConfigWrite who s
  | .configWriteDone good => Sys2Proof.Machine.execConfigWriteDone good s
  | .guardTestPulse g during after => Sys2Proof.Machine.execGuardTestPulse g during after s
  | .guardDemand g => Sys2Proof.Machine.execGuardDemand g s
  | .resetAction g => Sys2Proof.Machine.execResetAction g s
  | .zoneRequest who mask => Sys2Proof.Machine.execZoneRequest who mask s
  | .zoneReset who mask => Sys2Proof.Machine.execZoneReset who mask s
  | .ss1TimerExpiry z => Sys2Proof.Machine.execSs1TimerExpiry z s
  | .slsReading z axis => Sys2Proof.Machine.execSlsReading z axis s
  | .connectionWatchdog n => Sys2Proof.Machine.execConnectionWatchdog n s
  | .stoConfirmTimeout n => Sys2Proof.Machine.execStoConfirmTimeout n s
  | .connfClear who w mask => Sys2Proof.Machine.execConnfClear who w mask s
  | .gbothRequest bank => Sys2Proof.Machine.execGbothRequest bank s
  | .sorst who mask => Sys2Proof.Machine.execSorst who mask s
  | .safeOffTestPulse b good => Sys2Proof.Machine.execSafeOffTestPulse b good s
  | .safeOffFeedbackFault b => Sys2Proof.Machine.execSafeOffFeedbackFault b s
  | .oscCheckWindow backup good => Sys2Proof.Machine.execOscCheckWindow backup good s
  | .configCrcCheck => Sys2Proof.Machine.execConfigCrcCheck s
  | .duplexEnable who => Sys2Proof.Machine.execDuplexEnable who s
  | .duplexDisable who => Sys2Proof.Machine.execDuplexDisable who s
  | .heartbeatSend => Sys2Proof.Machine.execHeartbeatSend s
  | .peerMessageReceive lane msg => Sys2Proof.Machine.execPeerMessageReceive lane msg s
  | .partnerLost => Sys2Proof.Machine.execPartnerLost s
  | .peerLinkLost => Sys2Proof.Machine.execPeerLinkLost s
  | .peerLinkReturn => Sys2Proof.Machine.execPeerLinkReturn s
  | .takeover => Sys2Proof.Machine.execTakeover s
  | .liveWatchdogExpiry => Sys2Proof.Machine.execLiveWatchdogExpiry s
  | .liveKick who => Sys2Proof.Machine.execLiveKick who s
  | .duplexRejoin who => Sys2Proof.Machine.execDuplexRejoin who s
  | .takebackClear who => Sys2Proof.Machine.execTakebackClear who s
  | .switch who => Sys2Proof.Machine.execSwitch who s
  | .spliceAbort => Sys2Proof.Machine.execSpliceAbort s
  | .takebackHoldoffExpiry => Sys2Proof.Machine.execTakebackHoldoffExpiry s
  | .mirrorRecordReceive m => Sys2Proof.Machine.execMirrorRecordReceive m s
  | .mirrorLate => Sys2Proof.Machine.execMirrorLate s
  | .reducedRecordResend => Sys2Proof.Machine.execReducedRecordResend s
  | .logReport src cls dom data => Sys2Proof.Machine.execLogReport src cls dom data s
  | .latchAdmit => Sys2Proof.Machine.execLatchAdmit s
  | .logCommitDone ok0 ok1 => Sys2Proof.Machine.execLogCommitDone ok0 ok1 s
  | .logScanDone => Sys2Proof.Machine.execLogScanDone s
  | .logRead who seqLo => Sys2Proof.Machine.execLogRead who seqLo s
  | .logReadDone => Sys2Proof.Machine.execLogReadDone s
  | .windowRead who d seqLo => Sys2Proof.Machine.execWindowRead who d seqLo s
  | .softwareReport who d cls => Sys2Proof.Machine.execSoftwareReport who d cls s
  | .logErase who code => Sys2Proof.Machine.execLogErase who code s
  | .logEraseDone wiped => Sys2Proof.Machine.execLogEraseDone wiped s
  | .fidUnlock who key => Sys2Proof.Machine.execFidUnlock who key s
  | .fidArmExpiry => Sys2Proof.Machine.execFidArmExpiry s
  | .fidDisarm who => Sys2Proof.Machine.execFidDisarm who s
  | .fidSlotGo who j n => Sys2Proof.Machine.execFidSlotGo who j n s
  | .fidSlotStop who j => Sys2Proof.Machine.execFidSlotStop who j s
  | .fidFire j => Sys2Proof.Machine.execFidFire j s
  | .railFault k => Sys2Proof.Machine.execRailFault k s
  | .domainLevelLoss d => Sys2Proof.Machine.execDomainLevelLoss d s
  | .vbatChangeover vin vbat => Sys2Proof.Machine.execVbatChangeover vin vbat s
  | .domainRequest who pd => Sys2Proof.Machine.execDomainRequest who pd s
  | .domainSwitchDone => Sys2Proof.Machine.execDomainSwitchDone s
  | .islandReset who isl => Sys2Proof.Machine.execIslandReset who isl s
  | .islandResetDone => Sys2Proof.Machine.execIslandResetDone s
  | .oppChange who k0 opp => Sys2Proof.Machine.execOppChange who k0 opp s
  | .oppChangeDone => Sys2Proof.Machine.execOppChangeDone s
  | .standbyGo who => Sys2Proof.Machine.execStandbyGo who s
  | .wake alarm => Sys2Proof.Machine.execWake alarm s
  | .nodeCollapse j a => Sys2Proof.Machine.execNodeCollapse j a s
  | .pfAssert => Sys2Proof.Machine.execPfAssert s
  | .shutdown who => Sys2Proof.Machine.execShutdown who s
  | .mlsStopEnd => Sys2Proof.Machine.execMlsStopEnd s
  | .mlsStoEnd => Sys2Proof.Machine.execMlsStoEnd s
  | .mlsSaveEnd => Sys2Proof.Machine.execMlsSaveEnd s
  | .pfRelease => Sys2Proof.Machine.execPfRelease s
  | .saveGo who => Sys2Proof.Machine.execSaveGo who s
  | .saveWriteDone good => Sys2Proof.Machine.execSaveWriteDone good s
  | .softwareReset who => Sys2Proof.Machine.execSoftwareReset who s
  | .powerUp => Sys2Proof.Machine.execPowerUp s
  | .fuseProgram who => Sys2Proof.Machine.execFuseProgram who s
  | .fuseProgramDone => Sys2Proof.Machine.execFuseProgramDone s
  | .mramWrite who => Sys2Proof.Machine.execMramWrite who s
  | .mramWriteDone good => Sys2Proof.Machine.execMramWriteDone good s
  | .debugOpen who => Sys2Proof.Machine.execDebugOpen who s
  | .dramTrainingDone good => Sys2Proof.Machine.execDramTrainingDone good s
  | .pcieDoorbell f v => Sys2Proof.Machine.execPcieDoorbell f v s
  | .pcieInboundAccess f write ofs size data => Sys2Proof.Machine.execPcieInboundAccess f write ofs size data s
  | .msixSend who f vec => Sys2Proof.Machine.execMsixSend who f vec s
  | .pcieOutbound who write addr size data => Sys2Proof.Machine.execPcieOutbound who write addr size data s
  | .pcieOutboundTimeout => Sys2Proof.Machine.execPcieOutboundTimeout s
  | .pcieLinkChange up gen width => Sys2Proof.Machine.execPcieLinkChange up gen width s
  | .dmaStart who k => Sys2Proof.Machine.execDmaStart who k s
  | .dmaStop who k => Sys2Proof.Machine.execDmaStop who k s
  | .dmaDescriptorDone k => Sys2Proof.Machine.execDmaDescriptorDone k s
  | .plantFrameReceive frame => Sys2Proof.Machine.execPlantFrameReceive frame s
  | .plantTxTail who q tail => Sys2Proof.Machine.execPlantTxTail who q tail s
  | .plantTxDone q => Sys2Proof.Machine.execPlantTxDone q s
  | .snapshotRead word => Sys2Proof.Machine.execSnapshotRead word s
  | .snapshotWrite word data => Sys2Proof.Machine.execSnapshotWrite word data s
  | .mailboxAck who => Sys2Proof.Machine.execMailboxAck who s
  | .snapshotSwapnow who => Sys2Proof.Machine.execSnapshotSwapnow who s
  | .snapshotSwap => Sys2Proof.Machine.execSnapshotSwap s
  | .pinCommitNow who => Sys2Proof.Machine.execPinCommitNow who s
  | .pinCommitGo who => Sys2Proof.Machine.execPinCommitGo who s
  | .pinSwitchRestEnd p => Sys2Proof.Machine.execPinSwitchRestEnd p s
  | .duplexFence who => Sys2Proof.Machine.execDuplexFence who s
  | .guardDemandEnd g => Sys2Proof.Machine.execGuardDemandEnd g s
  | .nodeLinkUp r nd out speed => Sys2Proof.Machine.execNodeLinkUp r nd out speed s
  | .domainSwitchTimeout => Sys2Proof.Machine.execDomainSwitchTimeout s
  | .mirrorEndSend => Sys2Proof.Machine.execMirrorEndSend s
  | .sysClockLoss => Sys2Proof.Machine.execSysClockLoss s
  | .sysClockReturn => Sys2Proof.Machine.execSysClockReturn s

end Sys2Proof.Machine
end

