-- ==== Sys2Proof/Safety.lean ====
section
/-! DEFINITION. What counts as a well-kept state and a completed command, in the terms claims use. -/

namespace Sys2Proof.Machine

/-- The families of units a part of the state holds are in canonical form. -/
def Tim.wf (t : Tim) : Bool := SMap.wf (fun _ => {}) t.reps
def Disp.wf (d : Disp) : Bool := SMap.wf (fun _ => {}) d.strands && SMap.wf (fun _ => {}) d.cores
def Net.wf (n : Net) : Bool := SMap.wf nodeDflt n.nodes && SMap.wf (fun _ => {}) n.rings
def Power.wf (p : Power) : Bool := SMap.wf (fun _ => {}) p.chans && SMap.wf (fun _ => {}) p.gangs
def Knots.wf (k : Knots) : Bool := SMap.wf (fun _ => {}) k.slots

/-- The sparse stores are in canonical form: memory, registers, active copies, and the families of units (replicas,
strands, cores, nodes, rings, axes, channels, gangs, knot slots). -/
def State.canonical (s : State) : Bool :=
  Memory.wf s.mem && SMap.wf regDflt s.regs && SMap.wf regDflt s.act && s.tim.wf && s.dsp.wf && s.net.wf &&
    SMap.wf (fun _ => {}) s.axes && s.pwr.wf && s.ke.wf

/-! ## Observers -/

/-- Registers that only observe: the logline's STAT and LOST_TOTAL (R420 to R423), the trace's LOST, WR and RD (R318), the count
of OFF responses (R19), which a trace buffer in memory that is off adds to. -/
def observer (a : Nat) : Bool :=
  a == R.LL_STAT || a == R.LL_LOST_TOTAL_W || a == R.DSP_TRC_LOST_W || a == R.DSP_TRC_WR_W || a == R.DSP_TRC_RD_W ||
    a == R.PMU_OFFRESP_CNT_W

/-- `t` is `v` but for what reports and trace events leave: the logline's queue and counters, the trace's position, and,
with tracing on, the trace buffer in memory. -/
structure Alike (v t : State) : Prop where
  rest : { t with log := v.log, mem := v.mem, regs := v.regs } = v
  regs : ∀ a, observer a = false → t.reg a = v.reg a
  mem : v.on R.DSP_TRC_CTRL_EN = false → t.mem = v.mem

/-! ## Instructions of a core -/

/-- An instruction of shape `i` runs its effect on core `c`: the core can issue it, its fetch succeeds, its encoding and place
are legal, its guard `G` holds, and no suspension of the core waits. `u` is the state that the fetch leaves, with the instruction
counted as issued. (The checks do not look at the word of `i`.) -/
structure Runs (s : State) (c : Nat) (G : BitVec 4) (i : Insn) (u : State) : Prop where
  issues : s.canIssue c i = true
  fetched : (s.fetchAll c i).1 = none
  legal : i.bad = false
  placed : (s.fetchAll c i).2.misplaced c i = false
  guarded : ((s.fetchAll c i).2.core c).ctx.guarded G = true
  counted : u = (s.fetchAll c i).2.setCore c { (s.fetchAll c i).2.core c with issued := ((s.fetchAll c i).2.core c).issued + 1 }
  still : (u.core c).suspReq = 0 ∧ u.on (R.DSP_CORE_OFFREQ c) = false
  canonical : u.canonical = true

/-- Core `c`'s register state becomes `x`; nothing else changes. -/
def State.ctxTo (u : State) (c : Nat) (x : Ctx) : State := u.setCore c { u.core c with ctx := x }

/-- Register rd takes `v` and the instruction of `len` words completes; nothing else changes. -/
def State.gives (u : State) (c rd len : Nat) (v : Word) : State := u.ctxTo c (((u.core c).ctx.setReg rd v).after len)

/-- The same with sticky flags `fl` raised in SSW. -/
def State.givesF (u : State) (c rd : Nat) (v : Word) (fl : FFlags) : State :=
  u.ctxTo c ((((u.core c).ctx.setReg rd v).orFlags fl).after 1)

/-- `n` bytes at effective address `ea` of core `c` are memory at physical address `a` that the core may access: aligned
(R252), placed in its own local memory or by its map or a translation it already holds (R245, R247), and permitted. `v` is
the value a write brings. -/
structure Reaches (u : State) (c ea n v a : Nat) (r : Right) : Prop where
  aligned : ea % n = 0
  placed : u.place c ea (u.core c).ctx.kern r = (.own a, u) ∨
    (u.place c ea (u.core c).ctx.kern r = (.phys a, u) ∧ u.memLike a = true ∧ u.range a ≠ some .outbound ∧
      u.check (u.coreWho c) a n v r = .ok)

/-- Core `c` stalls with what its access brings, `gw` naming registers and values, after the pc has moved on; `isl` and `ea` are
the island and the address waited for. -/
def State.stalls (u : State) (c len : Nat) (i : Insn) (gw : List (Nat × Word)) (isl ea : Nat) : State :=
  u.setCore c { u.core c with
    stall := some { gw := gw, pairAt := if !i.v && len == 1 && (u.core c).ctx.pc % 8 == 0 then some ((u.core c).ctx.pc + 4) else none,
                    far := some (isl, ea), back := (u.core c).ctx.back },
    ctx := (u.core c).ctx.after len }

/-- The core takes what a load at `ea` brings when its data does not stall it; otherwise it stalls. -/
def State.takes (u : State) (c len : Nat) (i : Insn) (gw : List (Nat × Word)) (ea : Nat) (fast : Bool) : State :=
  if fast then u.ctxTo c ((gw.foldl (fun x w => x.setReg w.1 w.2) (u.core c).ctx).after len)
  else u.stalls c len i gw (u.islAt c ea .read) ea

/-- A load at effective address `ea`, physical address `a`: whether it stalls the core was free where a cache decides it. -/
def State.loads (u : State) (c len : Nat) (i : Insn) (gw : List (Nat × Word)) (ea a : Nat) : State :=
  (u.l1 c a).takes c len i gw ea (u.quick c a)

/-- `t` is `u` after core `c` stored the `n` low bytes of `v` at physical address `a` (little-endian, R29) and completed an
instruction of `len` words: those bytes, the core's pc and loop state, and the note that its strand has a store posted;
every other byte and everything else is as it was, but for the free value that says whether a cache held the address. -/
structure Stored (u t : State) (c a n v len : Nat) : Prop where
  bytes : ∀ b, t.byte b = if a ≤ b ∧ b < a + n then BitVec.ofNat 8 (v / 256 ^ (b - a)) else u.byte b
  core : t.core c = { u.core c with ctx := (u.core c).ctx.after len }
  cores : ∀ d, d ≠ c → t.core d = u.core d
  strand : t.strand (u.core c).strand = { u.strand (u.core c).strand with posted := true }
  strands : ∀ k, k ≠ (u.core c).strand → t.strand k = u.strand k
  rest : { t with mem := u.mem, free := u.free, dsp := { t.dsp with cores := u.dsp.cores, strands := u.dsp.strands } } = u

/-- The 32 bytes of stack of core `c` from effective address `lo` are memory at physical address `a`: the stack check of
R288 passes for accesses with K = `kern`, and every word is the core's own local memory, or memory that its map or a
translation it already holds reaches and that it may access. -/
structure StackAt (u : State) (c lo a : Nat) (kern : Bool) (r : Right) : Prop where
  passes : u.stackFail c (lo : Int) kern r = 0
  placed : ∀ i < 8, u.place c (lo + 4 * i) kern r = (.own (a + 4 * i), u) ∨
    (u.place c (lo + 4 * i) kern r = (.phys (a + 4 * i), u) ∧ u.memLike (a + 4 * i) = true ∧
      u.range (a + 4 * i) ≠ some .outbound ∧ ∀ v, u.check (u.coreWho c) (a + 4 * i) 4 v r = .ok)
  cached : isCC c = false → bit (u.core c).mmuctl 0 = true →
    ∀ i < 8, ((u.core c).tlb.find? (fun t => t.hits (u.core c).ctx.dom (lo + 4 * i))).isSome = true

/-- Core `c` has entered vector `vec` from the boundary at which its register state was `x` (R277, R278): 32 bytes of stack,
IE clear, K set on a supervisor core and clear on a control core, LSUSP set, PROG 0, no delay slot, pc at the vector; every
other register is as it was. -/
structure Entered (t : State) (c vec : Nat) (x : Ctx) : Prop where
  pc : (t.core c).ctx.pc = x.vbase + 0x40 * vec
  sp : (t.core c).ctx.g = (x.setReg 31 (x.reg 31 - 32)).g
  ssw : (t.core c).ctx.ssw = (x.ssw &&& 0x3FFFFFFF) ||| (if c < 32 then 0 else 0x80000000)
  lsusp : (t.core c).ctx.lsusp = true
  slots : (t.core c).ctx.prog = 0 ∧ (t.core c).ctx.ds = 0 ∧ (t.core c).ctx.tk = false ∧ (t.core c).ctx.bta = 0
  rest : { (t.core c).ctx with
    pc := x.pc, g := x.g, ssw := x.ssw, lsusp := x.lsusp, prog := x.prog, ds := x.ds, tk := x.tk, bta := x.bta } = x

/-- The frame of "Exception frame" in memory at `a` (R277): EPC, EBTA, ECAUSE, ESSW, EINFO, EPROG and EHOLD as `ws` says;
ECLK's value is not the spec's to fix. Every byte outside the frame reads as in `u`. -/
structure Framed (u t : State) (a : Nat) (ws : List Nat) : Prop where
  words : ∀ i < 7, t.rd (a + 4 * i) 4 = ws.getD i 0 % 2 ^ 32
  bytes : ∀ b, b < a ∨ a + 32 ≤ b → t.byte b = u.byte b

/-- The `n` words from effective address `ea` of core `c` are memory at physical address `a` that it may read and write;
`fast`, of a control core: accesses to them do not stall it. -/
structure Words (u : State) (c ea a n : Nat) (fast : Bool) : Prop where
  read : ∀ i < n, Reaches u c ((ea + 4 * i) % 2 ^ 32) 4 0 (a + 4 * i) .read
  write : ∀ i < n, ∀ v, Reaches u c ((ea + 4 * i) % 2 ^ 32) 4 v (a + 4 * i) .write
  quick : isCC c = true → ∀ i < n, u.quick c (a + 4 * i) = fast

/-- `t` is `u` after core `c` completed an instruction of one word that left it the register state `x` and brought `gw`, at once or
stalled for its data. On a control core `fast` says which; on a supervisor core its caches do, and what they hold is free. -/
def State.brings (u t : State) (c : Nat) (x : Ctx) (gw : List (Nat × Word)) (fast : Bool) : Prop :=
  ∃ (f : Nat) (far : Option (Nat × Nat)), (isCC c = true → far.isNone = fast) ∧
    t = (match far with
      | none => ({ u with free := f }.ctxTo c x).takes c 1 { word := 0 } gw 0 true
      | some w => ({ u with free := f }.ctxTo c x).stalls c 1 { word := 0 } gw w.1 w.2)

/-- A word of memory, and the value of a binary32 computation. -/
def State.word (u : State) (a : Nat) : Word := BitVec.ofNat 32 (u.rd a 4)
def valueOf {α : Type} (m : FM α) : α := (m.run 0).1

/-- A table of `n` segments with its points from `a`, at abscissa `r` (R261). -/
def State.tableAt (m : State) (r : Word) (n a : Nat) : Word :=
  if n = 0 ∨ 4095 < n ∨ F32.isNaN r = true then F32.qnan
  else if F32.le r 0 then m.word a
  else
    let i := (valueOf (F32.toU32 r)).toNat
    if n ≤ i then m.word (a + 4 * n)
    else valueOf (F32.fma (valueOf (F32.sub r (valueOf (F32.ofInt i)))) (valueOf (F32.sub (m.word (a + 4 * i + 4)) (m.word (a + 4 * i))))
      (m.word (a + 4 * i)))

/-- One biquad stage (R111, R259) on the record at `a` with input `x`: the output, and the new states. -/
def State.stageY (m : State) (a : Nat) (x : Word) : Word := valueOf (F32.fma (m.word a) x (m.word (a + 20)))
def State.stageS1 (m : State) (a : Nat) (x : Word) : Word :=
  valueOf (F32.fma (F32.neg (m.word (a + 12))) (m.stageY a x) (valueOf (F32.fma (m.word (a + 4)) x (m.word (a + 24)))))
def State.stageS2 (m : State) (a : Nat) (x : Word) : Word :=
  valueOf (F32.fma (F32.neg (m.word (a + 16))) (m.stageY a x) (valueOf (F32.mul (m.word (a + 8)) x)))

/-! ## Accesses to registers -/

/-- A write of word `v` by `who` to the register at `a` is performed: the check passes (R29, R467 to R469, R19, R20), no
decided knot holds the register (R209), and no release that the core posted before waits on the way to island DSP (R265). -/
structure Permits (s : State) (who : Requester) (a v : Nat) : Prop where
  block : s.memLike a = false
  check : s.check who a 4 v .write = .ok
  free : (s.kLocked a && regMask Acc.isRWS a != 0) = false
  first : s.ordered who a = s

/-- The same for a command that gives field `x` the value `v` and leaves the register's other RW and RWS fields. -/
def PermitsF (s : State) (who : Requester) (x : Fld) (v : Nat) : Prop :=
  Permits s who x.addr (putBits (s.reg x.addr &&& regMask Acc.isStored x.addr) x.hi x.lo v)

/-- A read by `who` of the register at `a` is performed. -/
structure PermitsRead (s : State) (who : Requester) (a : Nat) : Prop where
  block : s.memLike a = false
  check : s.check who a 4 0 .read = .ok
  first : s.ordered who a = s

/-- Every field of a Finil header fits the bytes "Finil frame layout" gives it (R39). -/
structure Hdr.Fits (h : Hdr) : Prop where
  six : h.da < 2 ^ 48 ∧ h.sa < 2 ^ 48
  wide : h.cycle < 2 ^ 32 ∧ h.tstamp < 2 ^ 32 ∧ h.corr < 2 ^ 32 ∧ h.cstart < 2 ^ 32 ∧ h.tcyc < 2 ^ 32 ∧ h.sph < 2 ^ 32 ∧
    h.aph < 2 ^ 32 ∧ h.kaCyc < 2 ^ 32 ∧ h.kdCyc < 2 ^ 32 ∧ h.hbSerial < 2 ^ 64
  oui : h.oui < 2 ^ 24
  half : h.etype < 2 ^ 16 ∧ h.proto < 2 ^ 16 ∧ h.plen < 2 ^ 16 ∧ h.hbSeq < 2 ^ 16
  bytes : h.verFtype < 256 ∧ h.flags < 256 ∧ h.fidxFlast < 256 ∧ h.hops < 256 ∧ h.kctl < 256 ∧ h.kaId < 256 ∧ h.kdId < 256 ∧
    h.kdCode < 256 ∧ h.hbFlags < 256 ∧ h.hbUnit < 256

/-! ## Units of the dispatcher and of the knot engine -/

/-- `y` is `u` after a source filled tag `t` with `v` (R298, R299, R265). A FULL tag keeps FULL and raises OVR, which is
counted and reported; an empty one becomes FULL, and if it is in its owner's wait set the owner has one empty tag less; the
owner that waits for it as the last one is READY behind its WAITOP. -/
structure Filled (u y : State) (t v : Nat) : Prop where
  full : u.on (R.TAG_CTL_FULL t) = true →
    Alike (((u.set (R.TAG_VALUE t) v).set (R.TAG_CTL_OVR t) 1).count R.DSP_TAGOVR_CNT) y
  plain : u.on (R.TAG_CTL_FULL t) = false → (u.on (R.TAG_CTL_OWNED t) && u.on (R.TAG_CTL_WAIT t)) = false →
    y = (u.set (R.TAG_VALUE t) v).set (R.TAG_CTL_FULL t) 1
  wait : u.on (R.TAG_CTL_FULL t) = false → u.on (R.TAG_CTL_OWNED t) = true → u.on (R.TAG_CTL_WAIT t) = true →
    let o := u.f (R.TAG_CTL_OWNER t)
    u.f (R.ST_STAT_STATE o) ≠ 1 ∨ 1 < u.f (R.ST_WAIT_WEMPTY o) →
    y = ((u.set (R.TAG_VALUE t) v).set (R.TAG_CTL_FULL t) 1).set (R.ST_WAIT_WEMPTY o) (u.f (R.ST_WAIT_WEMPTY o) - 1)
  wake : u.on (R.TAG_CTL_FULL t) = false → u.on (R.TAG_CTL_OWNED t) = true → u.on (R.TAG_CTL_WAIT t) = true →
    let o := u.f (R.TAG_CTL_OWNER t)
    u.f (R.ST_STAT_STATE o) = 1 → u.f (R.ST_WAIT_WEMPTY o) ≤ 1 → u.dx.holdWake = none →
    Alike (((((u.set (R.TAG_VALUE t) v).set (R.TAG_CTL_FULL t) 1).set (R.ST_WAIT_WEMPTY o) 0).set (R.ST_STAT_STATE o) 2).setStrand o
      { u.strand o with
        saved := { (u.strand o).saved with pc := (u.strand o).saved.pc + 4 }, ready := u.gnow, affSeen := none }) y

/-- `y` is `s` after slot `k` was opened by domain `d` with `size` entries (R202, R203). -/
structure Opened (s y : State) (k d size : Nat) : Prop where
  pool : y.f R.KE_POOL_FREE = s.f R.KE_POOL_FREE - size
  stat : y.reg (R.K_STAT k) = 1
  owner : y.f (R.K_OWNER_DOM k) = d
  reserved : y.reg (R.K_SIZE k) = size
  cleared : y.reg (R.K_OUT k) = 0 ∧ y.reg (R.K_ERR k) = 0 ∧
    ∀ i < 8, y.reg (0x10302000 + 0x20 * k + 4 * i) = 0 ∧ y.reg (0x10302800 + 0x20 * k + 4 * i) = 0
  empty : y.knot k = {}
  slots : ∀ j, j ≠ k → y.knot j = s.knot j
  regs : ∀ a, a ≠ R.KE_POOL_FREE_W → a ≠ R.K_STAT k → a ≠ (R.K_OWNER_DOM k).addr → a ≠ R.K_SIZE k → a ≠ R.K_OUT k →
    a ≠ R.K_ERR k → a ≠ R.KE_USED_LO_W → a ≠ R.KE_USED_HI_W →
    (∀ i < 8, a ≠ 0x10302000 + 0x20 * k + 4 * i ∧ a ≠ 0x10302800 + 0x20 * k + 4 * i) → y.reg a = s.reg a
  rest : { y with regs := s.regs, ke := { y.ke with slots := s.ke.slots } } = s

/-- `y` is `u` after knot `k` ended in state `st`, 6 DONE or 7 VOID (R202, R203, R220): its pool entries return, it is counted
with its late and missed nodes, and its outcome tag takes STAT. -/
def KnotEnded (u y : State) (k st : Nat) : Prop :=
  let v := u.set (R.K_STAT_STATE k) st
  let v := v.set R.KE_POOL_FREE (v.f R.KE_POOL_FREE + v.f (R.K_SIZE_RSIZE k))
  let v := v.count (if st = 6 then R.KE_CNT_GO else R.KE_CNT_VOID)
  let v := v.countK R.KE_CNT_LATE (v.f (R.K_OUT_LATE k))
  let v := v.countK R.KE_CNT_MISSED (v.f (R.K_OUT_MISSED k))
  (u.f (R.K_CFG_TAGEN k) = 0 → Alike v y) ∧
  (u.f (R.K_CFG_TAGEN k) = 1 → ∃ w, Alike v w ∧ Filled w y (u.f (R.K_CFG_TAG k)) (v.reg (R.K_STAT k)))

/-! ## Axes -/

/-- `t` is `s` after supervisor event `ev` of axis `n` (R120 to R123): 0 FE, 1 FBLOSS, 2 NODEMISS, 3 OVC, 4 LATE. The STATUS
bit and the stamp; the action of its SUP field, HOLD and RAMP of FBLOSS, NODEMISS and LATE carried out as STO; of it and of the
action taken at this stamp before, the stronger, which is taken once. Of a virtual axis nothing happens (R158). -/
structure Supervised (s t : State) (n ev : Nat) : Prop where
  virtual : s.fa (R.AX_CTRL_KIND n) = 3 → t = s
  latched : s.fa (R.AX_CTRL_KIND n) ≠ 3 → t.f ⟨R.AX_STATUS n, ev, ev⟩ = 1 ∧ t.f (R.AX_T_D n) = s.axNow n
  others : ∀ j, j ≠ n → t.ax j = s.ax j
  network : t.net = s.net
  time : t.tim = s.tim
  act : s.fa (R.AX_CTRL_KIND n) ≠ 3 → s.f (R.AX_STATUS_IDRUN n) = 0 →
    let own := s.actReg (R.AX_SUP n) / 2 ^ (2 * ev) % 4
    let own := if (ev = 1 ∨ ev = 2 ∨ ev = 4) ∧ own < 2 then 2 else own
    let before := s.actTaken n (s.axNow n)
    let a := strongest (own :: before.toList)
    let x := { s.ax n with tdAct := some (s.axNow n, s.tim.clk, a) }
    (before = some a → t.ax n = x ∧ t.act = s.act) ∧
    (before ≠ some a → a = 2 → t.fa (R.AX_CTRL_MODE n) = 0 ∧ t.f (R.AX_CTRL_MODE n) = 0 ∧
      t.ax n = { x with armed := false, hold := false, ramp := false, hard := false, lim := none }) ∧
    (before ≠ some a → a = 0 → s.fa (R.AX_CTRL_MODE n) ≠ 0 → t.ax n = { x with hold := true } ∧ t.act = s.act) ∧
    (before ≠ some a → a = 1 → s.fa (R.AX_CTRL_MODE n) ≠ 0 → t.ax n = { x with ramp := true } ∧ t.act = s.act) ∧
    (before ≠ some a → a < 2 → s.fa (R.AX_CTRL_MODE n) = 0 → t.ax n = x ∧ t.act = s.act) ∧
    (before ≠ some a → a = 3 → t.ax n = x ∧ t.act = s.act ∧
      (let u := s.f (R.DSP_DSUP_STRAND (s.f (R.AX_OWNER_DOM n)))
       s.f (R.DSP_DSUP_V (s.f (R.AX_OWNER_DOM n))) = 1 → s.f (R.ST_STAT_STATE u) ≠ 0 → t.f (R.ST_IPEND u) = s.f (R.ST_IPEND u) ||| 2))

/-! ## Channels -/

/-- No other channel hangs on channel `c`: it is in no gang and no valve (R338, R349). -/
def State.alone (s : State) (c : Nat) : Prop := s.fa (R.PC_STP_CTRL_GANG (4 * (c / 4))) = 0 ∧ s.fa (R.PC_CTRL_MODE c) ≠ 4

/-- Channel `c` follows its commanded state: not frozen by a halt, nor holding its levels after one (R343, R345). -/
def State.follows (s : State) (c : Nat) : Prop := s.f (R.PC_STAT_FROZEN c) = 0 ∧ (s.chan c).held = false

/-- The sequencer of channel `c` turned to the commanded state `w`: 0 Z, 1 H, 2 L (R328). -/
def State.turned (s : State) (c w : Nat) : State :=
  if (s.chan c).target = w then s
  else ((s.set (R.PC_STAT_EN_PIN c) 0).set (R.PC_STAT_SEQ c) (if w = 0 then 0 else 1)).setChan c
    { s.chan c with target := w, pulseSet := false }

/-- `t` is `s` after the fault of bit `x` of channel `c`, with no shot active (R334): the bit, CTRL.EN cleared, the sequencer
to Z. -/
def Faulted (s t : State) (c : Nat) (x : Fld) : Prop :=
  let u := ((s.set x 1).set (R.PC_CTRL_EN c) 0).turned c 0
  Alike (u.setChan c { u.chan c with ocForce := false, held := false }) t

/-- SHOT_STAT as it shows the queue, the active and the deferred shot `x` of channel `c` (R336). -/
def State.shown (s : State) (c : Nat) (x : Chan) : State :=
  (((s.setChan c x).set (R.PC_SHOT_STAT_DEPTH c) x.queue.length).set (R.PC_SHOT_STAT_ACTIVE c) x.shot.isSome.toNat).set
    (R.PC_SHOT_STAT_WAITDEF c) x.deferred.isSome.toNat

/-! ## Belay -/

/-- Belay is in FAULT by detection `d` (R367, R368, R369, R383): its DIAG bit, every output asserted, every axis in STO. -/
structure State.BelFaulted (t : State) (d : Nat) : Prop where
  state : t.f R.BEL_STAT_STATE = 4
  diag : t.f ⟨R.BEL_DIAG, d, d⟩ = 1
  outputs : t.f R.BEL_SO_ASSERTED = 15
  axes : ∀ i < 8, t.f (R.BEL_AXSTO_STO i) = 2 ^ 32 - 1

/-- Belay runs, on a working configuration within the ranges of R371. -/
structure State.BelUp (s : State) : Prop where
  canonical : s.canonical = true
  on : s.islOn islBLY = true
  zones : cfgNzone s.bel.cfg ≤ 32
  conns : cfgNconn s.bel.cfg ≤ 256

end Sys2Proof.Machine
end

