-- ==== Sys2Proof/Certificates/Slice0/Obligations.lean ====
section
/-! DEFINITION. The statements for the provers: what the block's commands do, frames, and what every step keeps. Each
docstring names the rules of spec/ it formalises. -/

section

open Sys2Proof Sys2Proof.Machine

/-- ALU group of R252, without the divisions: results and frame. -/
def Obligations.ScalarIntegerResults : Prop :=
  ∀ (s u : State) (c : Fin 36) (G : BitVec 4) (rd rs1 rs2 : BitVec 5), Runs s c G { word := 0 } u →
    let a := (u.core c).ctx.reg rs1.toNat
    let b := (u.core c).ctx.reg rs2.toNat
    let out := fun v => Host.Outcome.next (u.gives c rd.toNat 1 v)
    exec (.add c G rd rs1 rs2) s = out (a + b) ∧
    exec (.sub c G rd rs1 rs2) s = out (a - b) ∧
    exec (.and c G rd rs1 rs2) s = out (a &&& b) ∧
    exec (.or c G rd rs1 rs2) s = out (a ||| b) ∧
    exec (.xor c G rd rs1 rs2) s = out (a ^^^ b) ∧
    exec (.shl c G rd rs1 rs2) s = out (BitVec.ofNat 32 (a.toNat * 2 ^ (b.toNat % 32))) ∧
    exec (.shr c G rd rs1 rs2) s = out (BitVec.ofNat 32 (a.toNat / 2 ^ (b.toNat % 32))) ∧
    exec (.sar c G rd rs1 rs2) s = out (BitVec.ofInt 32 (a.toInt / 2 ^ (b.toNat % 32))) ∧
    exec (.mul c G rd rs1 rs2) s = out (BitVec.ofNat 32 (a.toNat * b.toNat)) ∧
    exec (.mulh c G rd rs1 rs2) s = out (BitVec.ofInt 32 (a.toInt * b.toInt / 2 ^ 32)) ∧
    exec (.mulhu c G rd rs1 rs2) s = out (BitVec.ofNat 32 (a.toNat * b.toNat / 2 ^ 32)) ∧
    exec (.min c G rd rs1 rs2) s = out (BitVec.ofInt 32 (min a.toInt b.toInt)) ∧
    exec (.max c G rd rs1 rs2) s = out (BitVec.ofInt 32 (max a.toInt b.toInt)) ∧
    exec (.minu c G rd rs1 rs2) s = out (BitVec.ofNat 32 (min a.toNat b.toNat)) ∧
    exec (.maxu c G rd rs1 rs2) s = out (BitVec.ofNat 32 (max a.toNat b.toNat)) ∧
    (∃ n ≤ 32, exec (.clz c G rd rs1 rs2) s = out (BitVec.ofNat 32 n) ∧ a.toNat < 2 ^ (32 - n) ∧
      (n < 32 → 2 ^ (31 - n) ≤ a.toNat)) ∧
    exec (.mov c G rd rs1 rs2) s = out a

/-- Divisions of R252. -/
def Obligations.DivisionResults : Prop :=
  ∀ (s u : State) (c : Fin 36) (G : BitVec 4) (rd rs1 rs2 : BitVec 5), Runs s c G { word := 0 } u →
    let a := (u.core c).ctx.reg rs1.toNat
    let b := (u.core c).ctx.reg rs2.toNat
    let out := fun v fl => Host.Outcome.next (u.givesF c rd.toNat v fl)
    (b ≠ 0 →
      exec (.div c G rd rs1 rs2) s = out (BitVec.ofInt 32 (Int.tdiv a.toInt b.toInt)) 0 ∧
      exec (.divu c G rd rs1 rs2) s = out (BitVec.ofNat 32 (a.toNat / b.toNat)) 0 ∧
      exec (.rem c G rd rs1 rs2) s = out (BitVec.ofInt 32 (Int.tmod a.toInt b.toInt)) 0 ∧
      exec (.remu c G rd rs1 rs2) s = out (BitVec.ofNat 32 (a.toNat % b.toNat)) 0) ∧
    (b = 0 →
      exec (.div c G rd rs1 rs2) s = out 0 F32.flagDZ ∧ exec (.divu c G rd rs1 rs2) s = out 0 F32.flagDZ ∧
      exec (.rem c G rd rs1 rs2) s = out a F32.flagDZ ∧ exec (.remu c G rd rs1 rs2) s = out a F32.flagDZ) ∧
    (a = 0x80000000 → b = 0xFFFFFFFF → exec (.div c G rd rs1 rs2) s = out 0x80000000 0)

/-- Immediate forms and long group (R250, R251, R252). -/
def Obligations.ImmediateResults : Prop :=
  (∀ (s u : State) (c : Fin 36) (G : BitVec 4) (rd rs1 : BitVec 5) (imm : BitVec 12), Runs s c G { word := 0 } u →
    let a := (u.core c).ctx.reg rs1.toNat
    let i : Word := BitVec.ofInt 32 imm.toInt
    let out := fun v => Host.Outcome.next (u.gives c rd.toNat 1 v)
    exec (.addi c G rd rs1 imm) s = out (a + i) ∧
    exec (.andi c G rd rs1 imm) s = out (a &&& i) ∧
    exec (.ori c G rd rs1 imm) s = out (a ||| i) ∧
    exec (.xori c G rd rs1 imm) s = out (a ^^^ i) ∧
    (imm.toNat / 2 ^ 5 % 2 ^ 5 = 0 →
      let n := imm.toNat % 2 ^ 5
      (imm.toNat / 2 ^ 10 = 0 → exec (.shi c G rd rs1 imm) s = out (BitVec.ofNat 32 (a.toNat * 2 ^ n))) ∧
      (imm.toNat / 2 ^ 10 = 1 → exec (.shi c G rd rs1 imm) s = out (BitVec.ofNat 32 (a.toNat / 2 ^ n))) ∧
      (imm.toNat / 2 ^ 10 = 2 → exec (.shi c G rd rs1 imm) s = out (BitVec.ofInt 32 (a.toInt / 2 ^ n))) ∧
      (imm.toNat / 2 ^ 10 = 3 →
        exec (.shi c G rd rs1 imm) s = out (BitVec.ofNat 32 (a.toNat / 2 ^ n + a.toNat * 2 ^ (32 - n)))))) ∧
  (∀ (s u : State) (c : Fin 36) (G : BitVec 4) (rd : BitVec 5) (imm : BitVec 17), Runs s c G { word := 0 } u →
    exec (.movi c G rd imm) s = .next (u.gives c rd.toNat 1 (BitVec.ofInt 32 imm.toInt))) ∧
  (∀ (s u : State) (c : Fin 36) (G : BitVec 4) (rd rs1 : BitVec 5) (imm : Word), Runs s c G { word := 0, len := 2 } u →
    let a := (u.core c).ctx.reg rs1.toNat
    let out := fun v => Host.Outcome.next (u.gives c rd.toNat 2 v)
    exec (.li c G rd rs1 imm) s = out imm ∧
    exec (.addi32 c G rd rs1 imm) s = out (a + imm) ∧
    exec (.andi32 c G rd rs1 imm) s = out (a &&& imm) ∧
    exec (.ori32 c G rd rs1 imm) s = out (a ||| imm) ∧
    exec (.xori32 c G rd rs1 imm) s = out (a ^^^ imm))

/-- CMP (R252): predicates, and its reserved encodings. -/
def Obligations.CompareWritesPredicates : Prop :=
  (∀ (s u : State) (c : Fin 36) (G : BitVec 4) (pt pf : BitVec 3) (rs1 rs2 : BitVec 5) (cc : BitVec 6),
    Runs s c G { word := 0 } u → cc.toNat % 16 < 6 → ¬(cc.getLsbD 5 = true ∧ cc.getLsbD 4 = true) →
    let a := (u.core c).ctx.reg rs1.toNat
    let b := (u.core c).ctx.reg rs2.toNat
    let e : Bool := if cc.getLsbD 5 then F32.eq a b else decide (a = b)
    let l : Bool := if cc.getLsbD 5 then F32.lt a b else if cc.getLsbD 4 then decide (a.toNat < b.toNat) else decide (a.toInt < b.toInt)
    let g : Bool := if cc.getLsbD 5 then F32.lt b a else if cc.getLsbD 4 then decide (b.toNat < a.toNat) else decide (b.toInt < a.toInt)
    let r : Bool := [e, !e, l, l || e, g, g || e].getD (cc.toNat % 8) false
    ∃ x : Ctx, exec (.cmp c G pt pf rs1 rs2 cc) s = .next (u.ctxTo c (x.after 1)) ∧
      (∀ i < 8, x.pred i = if i = 0 then true else if i = pf.toNat then !r else if i = pt.toNat then r else (u.core c).ctx.pred i) ∧
      { x with p := (u.core c).ctx.p } = (u.core c).ctx) ∧
  (∀ (s u : State) (c : Fin 36) (G : BitVec 4) (pt pf : BitVec 3) (rs1 rs2 : BitVec 5) (cc : BitVec 6),
    s.canIssue c { word := 0 } = true → s.fetchAll c { word := 0 } = (none, u) →
    (6 ≤ cc.toNat % 16 ∨ (cc.getLsbD 5 = true ∧ cc.getLsbD 4 = true)) →
    exec (.cmp c G pt pf rs1 rs2 cc) s = .next ((u.exc c vIllegal (encP G pt pf rs1 rs2 cc)).settle c))

/-- FPU group of R252: operands, result and flags. -/
def Obligations.FloatResults : Prop :=
  ∀ (s u : State) (c : Fin 36) (G : BitVec 4) (rd rs1 rs2 : BitVec 5), Runs s c G { word := 0 } u →
    let a := (u.core c).ctx.reg rs1.toNat
    let b := (u.core c).ctx.reg rs2.toNat
    let d := (u.core c).ctx.reg rd.toNat
    let out := fun m : FM Word => Host.Outcome.next (u.givesF c rd.toNat (m.run 0).1 (m.run 0).2)
    exec (.fadd c G rd rs1 rs2) s = out (F32.add a b) ∧
    exec (.fsub c G rd rs1 rs2) s = out (F32.sub a b) ∧
    exec (.fmul c G rd rs1 rs2) s = out (F32.mul a b) ∧
    exec (.ffma c G rd rs1 rs2) s = out (F32.fma a b d) ∧
    exec (.ffms c G rd rs1 rs2) s = out (F32.fms a b d) ∧
    exec (.fdiv c G rd rs1 rs2) s = out (F32.div a b) ∧
    exec (.fsqrt c G rd rs1 rs2) s = out (F32.sqrt a) ∧
    exec (.fmin c G rd rs1 rs2) s = out (pure (F32.min a b)) ∧
    exec (.fmax c G rd rs1 rs2) s = out (pure (F32.max a b)) ∧
    exec (.fabs c G rd rs1 rs2) s = out (pure (F32.canon (F32.abs a))) ∧
    exec (.fneg c G rd rs1 rs2) s = out (pure (F32.canon (F32.neg a))) ∧
    exec (.fclamp c G rd rs1 rs2) s = out (pure (F32.min (F32.max d a) b)) ∧
    exec (.cvtif c G rd rs1 rs2) s = out (F32.ofInt a.toInt) ∧
    exec (.cvtuf c G rd rs1 rs2) s = out (F32.ofInt a.toNat) ∧
    exec (.cvtfi c G rd rs1 rs2) s = out (BitVec.ofInt 32 <$> F32.toRange (-(2 ^ 31)) (2 ^ 31 - 1) a) ∧
    exec (.cvtfu c G rd rs1 rs2) s = out (BitVec.ofInt 32 <$> F32.toRange 0 (2 ^ 32 - 1) a) ∧
    exec (.ftrunc c G rd rs1 rs2) s = out (pure (F32.trunc a)) ∧
    exec (.ffloor c G rd rs1 rs2) s = out (pure (F32.floor a)) ∧
    exec (.fsin c G rd rs1 rs2) s = out (F32.sin a) ∧
    exec (.fcos c G rd rs1 rs2) s = out (F32.cos a)

/-- R255. -/
def Obligations.FloatNaNRules : Prop :=
  let q : Word := 0x7FC00000
  (∀ (a b d : Word) (fl : FFlags), F32.isNaN a = true ∨ F32.isNaN b = true →
    (F32.add a b).run fl = (q, fl) ∧ (F32.sub a b).run fl = (q, fl) ∧ (F32.mul a b).run fl = (q, fl) ∧
    (F32.div a b).run fl = (q, fl) ∧ (F32.fma a b d).run fl = (q, fl) ∧ (F32.fms a b d).run fl = (q, fl) ∧
    (F32.fma d a b).run fl = (q, fl) ∧ (F32.fms d a b).run fl = (q, fl)) ∧
  (∀ (a : Word) (fl : FFlags), F32.isNaN a = true →
    (F32.sqrt a).run fl = (q, fl) ∧ (F32.sin a).run fl = (q, fl) ∧ (F32.cos a).run fl = (q, fl)) ∧
  (∀ (a b d : Word) (fl : FFlags) (i j : Bool), F32.ofWord a = .inf i → F32.ofWord b = .inf j →
    (i ≠ j → (F32.add a b).run fl = (q, fl ||| F32.flagNV)) ∧ (i = j → (F32.sub a b).run fl = (q, fl ||| F32.flagNV)) ∧
    (F32.div a b).run fl = (q, fl ||| F32.flagNV) ∧
    (F32.sin a).run fl = (q, fl ||| F32.flagNV) ∧ (F32.cos a).run fl = (q, fl ||| F32.flagNV) ∧
    (F32.ofWord d = .inf (i == j) → (F32.fma a b d).run fl = (q, fl ||| F32.flagNV)) ∧
    (F32.ofWord d = .inf (i != j) → (F32.fms a b d).run fl = (q, fl ||| F32.flagNV))) ∧
  (∀ (a b d : Word) (fl : FFlags) (i j : Bool), F32.ofWord a = .zero i → F32.ofWord b = .inf j → F32.isNaN d = false →
    (F32.mul a b).run fl = (q, fl ||| F32.flagNV) ∧ (F32.mul b a).run fl = (q, fl ||| F32.flagNV) ∧
    (F32.fma a b d).run fl = (q, fl ||| F32.flagNV) ∧ (F32.fma b a d).run fl = (q, fl ||| F32.flagNV) ∧
    (F32.fms a b d).run fl = (q, fl ||| F32.flagNV) ∧ (F32.fms b a d).run fl = (q, fl ||| F32.flagNV)) ∧
  (∀ (a b : Word) (fl : FFlags) (i j : Bool), F32.ofWord a = .zero i → F32.ofWord b = .zero j →
    (F32.div a b).run fl = (q, fl ||| F32.flagNV)) ∧
  (∀ (a : Word) (fl : FFlags) (m : Nat) (e : Int), F32.ofWord a = .fin true m e ∨ F32.ofWord a = .inf true →
    (F32.sqrt a).run fl = (q, fl ||| F32.flagNV)) ∧
  (∀ fl : FFlags, (F32.sqrt 0x80000000).run fl = (0x80000000, fl)) ∧
  (∀ (a b d : Word), ∀ w ∈ [F32.add a b, F32.sub a b, F32.mul a b, F32.div a b, F32.fma a b d, F32.fms a b d, F32.sqrt a, F32.sin a, F32.cos a],
    F32.isNaN (w.run 0).1 = true → (w.run 0).1 = q)

/-- Scaled moves (R258). -/
def Obligations.ScaledMoveResults : Prop :=
  ∀ (s u : State) (c : Fin 36) (G : BitVec 4) (rd rs1 rs2 : BitVec 5), Runs s c G { word := 0 } u → rs2.toNat < 4 →
    let x := (u.core c).ctx
    let a := x.reg rs1.toNat
    let cw := x.sclC rs2.toNat
    let w : Nat := cw / 2 ^ 16 % 4
    let n := 8 * 2 ^ w
    let sgn := cw.testBit 18
    let z : Int := if sgn then BitVec.toInt (BitVec.ofNat 16 cw) else (cw % 2 ^ 16 : Nat)
    let v : Int := if sgn then (BitVec.ofNat n a.toNat).toInt else (a.toNat % 2 ^ n : Nat)
    let lo : Int := if sgn then -(2 ^ (n - 1)) else 0
    let hi : Int := if sgn then 2 ^ (n - 1) - 1 else 2 ^ n - 1
    (w ≠ 3 →
      (let p := (F32.ofInt (v - z)).run 0
       let r := (F32.mul p.1 (x.sclF rs2.toNat)).run p.2
       exec (.smvf c G rd rs1 rs2) s = .next (u.givesF c rd.toNat r.1 r.2)) ∧
      (let y := (F32.mul a (x.sclF rs2.toNat)).run 0
       (F32.isNaN y.1 = true → exec (.smvi c G rd rs1 rs2) s =
         .next (u.givesF c rd.toNat (BitVec.ofInt 32 (max lo (min z hi))) (y.2 ||| F32.flagSAT))) ∧
       (F32.isFinite y.1 = true →
         let t := F32.truncV (F32.ofWord y.1) + z
         exec (.smvi c G rd rs1 rs2) s = .next (u.givesF c rd.toNat (BitVec.ofInt 32 (max lo (min t hi)))
           (if lo ≤ t ∧ t ≤ hi then y.2 else y.2 ||| F32.flagSAT))) ∧
       (∀ neg, F32.ofWord y.1 = .inf neg → exec (.smvi c G rd rs1 rs2) s =
         .next (u.givesF c rd.toNat (BitVec.ofInt 32 (if neg then lo else hi)) (y.2 ||| F32.flagSAT))))) ∧
    (w = 3 →
      exec (.smvf c G rd rs1 rs2) s = .next ((u.exc c vIllegal (encR 0x08 0x14 G rd rs1 rs2)).settle c) ∧
      exec (.smvi c G rd rs1 rs2) s = .next ((u.exc c vIllegal (encR 0x08 0x15 G rd rs1 rs2)).settle c))

/-- Loads (R252, R250, R269). -/
def Obligations.LoadResults : Prop :=
  ∀ (s u : State) (c : Fin 36) (G : BitVec 4) (rd rb : BitVec 5) (a : Nat),
    (∀ (ofs : BitVec 12), Runs s c G { word := 0 } u →
      let ea := ((u.core c).ctx.reg rb.toNat + BitVec.ofInt 32 ofs.toInt).toNat
      let bad := Host.Outcome.next ((u.exc c vAlign ea).settle c)
      (Reaches u c ea 1 0 a .read →
        exec (.ldb c G rd rb ofs) s = .next (u.loads c 1 { word := 0 } [(rd.toNat, BitVec.ofInt 32 (u.byte a).toInt)] ea a) ∧
        exec (.ldbu c G rd rb ofs) s = .next (u.loads c 1 { word := 0 } [(rd.toNat, BitVec.ofNat 32 (u.byte a).toNat)] ea a)) ∧
      (Reaches u c ea 2 0 a .read →
        let v := (u.byte a).toNat + 256 * (u.byte (a + 1)).toNat
        exec (.ldh c G rd rb ofs) s =
          .next (u.loads c 1 { word := 0 } [(rd.toNat, BitVec.ofInt 32 (BitVec.ofNat 16 v).toInt)] ea a) ∧
        exec (.ldhu c G rd rb ofs) s = .next (u.loads c 1 { word := 0 } [(rd.toNat, BitVec.ofNat 32 v)] ea a)) ∧
      (Reaches u c ea 4 0 a .read →
        exec (.ldw c G rd rb ofs) s = .next (u.loads c 1 { word := 0 } [(rd.toNat, BitVec.ofNat 32 (u.rd a 4))] ea a)) ∧
      (rd.toNat % 2 = 0 → Reaches u c ea 8 0 a .read →
        exec (.ldd c G rd rb ofs) s = .next (u.loads c 1 { word := 0 }
          [(rd.toNat, BitVec.ofNat 32 (u.rd a 4)), (rd.toNat + 1, BitVec.ofNat 32 (u.rd (a + 4) 4))] ea a)) ∧
      (ea % 2 ≠ 0 → exec (.ldh c G rd rb ofs) s = bad ∧ exec (.ldhu c G rd rb ofs) s = bad) ∧
      (ea % 4 ≠ 0 → exec (.ldw c G rd rb ofs) s = bad) ∧
      (rd.toNat % 2 = 0 → ea % 8 ≠ 0 → exec (.ldd c G rd rb ofs) s = bad)) ∧
    (∀ (imm : Word), Runs s c G { word := 0, len := 2 } u →
      let ea := ((u.core c).ctx.reg rb.toNat + imm).toNat
      (Reaches u c ea 4 0 a .read → exec (.ldw32 c G rd rb imm) s =
        .next (u.loads c 2 { word := 0, len := 2 } [(rd.toNat, BitVec.ofNat 32 (u.rd a 4))] ea a)) ∧
      (ea % 4 ≠ 0 → exec (.ldw32 c G rd rb imm) s = .next ((u.exc c vAlign ea).settle c)))

/-- Stores (R252, R250, R276). -/
def Obligations.StoreEffects : Prop :=
  ∀ (s u : State) (c : Fin 36) (G : BitVec 4) (rd rb : BitVec 5) (a : Nat),
    (∀ (ofs : BitVec 12), Runs s c G { word := 0 } u →
      let ea := ((u.core c).ctx.reg rb.toNat + BitVec.ofInt 32 ofs.toInt).toNat
      let v := ((u.core c).ctx.reg rd.toNat).toNat
      let w := ((u.core c).ctx.reg (rd.toNat + 1)).toNat
      let bad := Host.Outcome.next ((u.exc c vAlign ea).settle c)
      (Reaches u c ea 1 (v % 256) a .write → ∃ t, exec (.stb c G rd rb ofs) s = .next t ∧ Stored u t c a 1 v 1) ∧
      (Reaches u c ea 2 (v % 65536) a .write → ∃ t, exec (.sth c G rd rb ofs) s = .next t ∧ Stored u t c a 2 v 1) ∧
      (Reaches u c ea 4 v a .write → ∃ t, exec (.stw c G rd rb ofs) s = .next t ∧ Stored u t c a 4 v 1) ∧
      (rd.toNat % 2 = 0 → Reaches u c ea 8 (v + 2 ^ 32 * w) a .write →
        ∃ t, exec (.std c G rd rb ofs) s = .next t ∧ Stored u t c a 8 (v + 2 ^ 32 * w) 1) ∧
      (ea % 2 ≠ 0 → exec (.sth c G rd rb ofs) s = bad) ∧ (ea % 4 ≠ 0 → exec (.stw c G rd rb ofs) s = bad) ∧
      (rd.toNat % 2 = 0 → ea % 8 ≠ 0 → exec (.std c G rd rb ofs) s = bad)) ∧
    (∀ (imm : Word), Runs s c G { word := 0, len := 2 } u →
      let ea := ((u.core c).ctx.reg rb.toNat + imm).toNat
      let v := ((u.core c).ctx.reg rd.toNat).toNat
      (Reaches u c ea 4 v a .write → ∃ t, exec (.stw32 c G rd rb imm) s = .next t ∧ Stored u t c a 4 v 2) ∧
      (ea % 4 ≠ 0 → exec (.stw32 c G rd rb imm) s = .next ((u.exc c vAlign ea).settle c)))

/-- Branches and REP (R250, R252, R264). -/
def Obligations.BranchesAndRepeats : Prop :=
  (∀ (s u : State) (c : Fin 36) (G : BitVec 4), Runs s c G { word := 0, noSlot := true, branch := true } u →
    let x := (u.core c).ctx
    let go := fun (y : Ctx) (t : Nat) => Host.Outcome.next (u.ctxTo c { y with pc := x.pc + 4, ds := 2, tk := true, bta := t })
    let lk := x.setReg 30 (BitVec.ofNat 32 (u.afterSlots c x.pc))
    (∀ disp : BitVec 22,
      exec (.b c G disp) s = go x (((x.pc : Int) + 4 * disp.toInt) % 2 ^ 32).toNat ∧
      exec (.bl c G disp) s = go lk (((x.pc : Int) + 4 * disp.toInt) % 2 ^ 32).toNat) ∧
    (∀ rd rs1 rs2 : BitVec 5,
      let t := (x.reg rs1.toNat).toNat
      (t % 4 = 0 → exec (.br c G rd rs1 rs2) s = go x t ∧ exec (.blr c G rd rs1 rs2) s = go lk t) ∧
      (t % 4 ≠ 0 → exec (.br c G rd rs1 rs2) s = .next ((u.exc c vIllegal (encR 0x15 0x00 G rd rs1 rs2)).settle c) ∧
        exec (.blr c G rd rs1 rs2) s = .next ((u.exc c vIllegal (encR 0x15 0x01 G rd rs1 rs2)).settle c)))) ∧
  (∀ (s u : State) (c : Fin 36) (G : BitVec 4) (body : BitVec 8) (ci rot : Bool) (cnt : BitVec 12),
    Runs s c G { word := 0, noSlot := true } u → (ci = false → cnt.toNat % 2 ^ 7 = 0) →
    let x := (u.core c).ctx
    let n := if ci then cnt.toNat else (x.reg (cnt.toNat / 2 ^ 7)).toNat
    let lea := x.pc + 4 * (body.toNat + 1)
    let fits := x.lsusp = false ∧ (x.lc0 = 0 ∨ (x.lc1 = 0 ∧ lea ≤ x.lea0))
    let out := exec (.rep c G body ci rot cnt) s
    (fits → n = 0 → out = .next (u.ctxTo c { x with pc := lea + 4 })) ∧
    (fits → 0 < n → n < 65536 → x.lc0 = 0 →
      out = .next (u.ctxTo c { x with pc := x.pc + 4, lc0 := n, lsa0 := x.pc + 4, lea0 := lea, rot0 := rot })) ∧
    (fits → 0 < n → n < 65536 → x.lc0 ≠ 0 →
      out = .next (u.ctxTo c { x with pc := x.pc + 4, lc1 := n, lsa1 := x.pc + 4, lea1 := lea, rot1 := rot })) ∧
    (fits → 65536 ≤ n → out = .next ((u.exc c vLength n).settle c)) ∧
    (¬fits → out = .next ((u.exc c vIllegal (encQ G body ci rot cnt)).settle c)))

/-- SYS and MMU groups (R252, R247). -/
def Obligations.NopFenceAndMaintenance : Prop :=
  ∀ (s u : State) (c : Fin 36) (G : BitVec 4) (rd rs1 rs2 : BitVec 5), Runs s c G { word := 0 } u →
    let k := u.core c
    let v := (k.ctx.reg rs1.toNat).toNat
    let done := fun (l : List Tlb) => Host.Outcome.next (u.setCore c { k with ctx := k.ctx.after 1, tlb := l })
    exec (.nop c G rd rs1 rs2) s = .next (u.ctxTo c (k.ctx.after 1)) ∧
    (u.fenced c = true → exec (.fence c G rd rs1 rs2) s =
      .next ((if k.detached then u else u.setStrand k.strand { u.strand k.strand with posted := false }).ctxTo c (k.ctx.after 1))) ∧
    (u.fenced c = false → exec (.fence c G rd rs1 rs2) s = .next u) ∧
    (32 ≤ c.val → k.ctx.ssw.getLsbD 31 = true →
      exec (.tlbinv c G rd rs1 rs2) s = done (k.tlb.filter (fun t => !(decide (t.vpn = v / 2 ^ t.shift) && (t.glob || decide (t.dom = k.ctx.dom))))) ∧
      exec (.tlbinvd c G rd rs1 rs2) s = done (k.tlb.filter (fun t => t.glob || decide (t.dom ≠ v % 256))) ∧
      exec (.tlbinva c G rd rs1 rs2) s = done [] ∧
      exec (.icinv c G rd rs1 rs2) s = done k.tlb ∧ exec (.dcfl c G rd rs1 rs2) s = done k.tlb ∧
      exec (.dcfla c G rd rs1 rs2) s = done k.tlb) ∧
    (c.val < 32 ∨ k.ctx.ssw.getLsbD 31 = false →
      let bad := fun fn => Host.Outcome.next ((u.exc c (if c.val < 32 then vIllegal else vPriv) (encR 0x30 fn G rd rs1 rs2)).settle c)
      exec (.tlbinv c G rd rs1 rs2) s = bad 0 ∧ exec (.tlbinvd c G rd rs1 rs2) s = bad 1 ∧
      exec (.tlbinva c G rd rs1 rs2) s = bad 2 ∧ exec (.icinv c G rd rs1 rs2) s = bad 3 ∧
      exec (.dcfl c G rd rs1 rs2) s = bad 4 ∧ exec (.dcfla c G rd rs1 rs2) s = bad 5)

/-- MFS and MTS (R244, R271). -/
def Obligations.SpecialRegisterMoves : Prop :=
  ∀ (s u : State) (c : Fin 36) (G : BitVec 4) (rd : BitVec 5) (sr : BitVec 12), Runs s c G { word := 0 } u →
    let k := u.core c
    let x := k.ctx
    let n := sr.toNat
    let cc := decide (c.val < 32)
    let v := (x.reg rd.toNat).toNat
    let legal : Bool := if cc then decide (n < 0x0A) || (decide (0x10 ≤ n) && decide (n < 0x18)) || (decide (0x20 ≤ n) && decide (n < 0x2E)) ||
        (decide (0x40 ≤ n) && decide (n < 0x43)) || (decide (0x50 ≤ n) && decide (n < 0x56))
      else decide (n < 0x0A) || (decide (0x10 ≤ n) && decide (n < 0x18)) || (decide (0x40 ≤ n) && decide (n < 0x43)) ||
        (decide (0x50 ≤ n) && decide (n < 0x56) && (decide (n ≠ 0x51) || x.ssw.getLsbD 31)) ||
        (decide (0x60 ≤ n) && decide (n < 0x63) && x.ssw.getLsbD 31)
    let gets := fun w => exec (.mfs c G rd sr) s = .next (u.gives c rd.toNat 1 (BitVec.ofNat 32 w))
    let puts := fun k' : Core => exec (.mts c G rd sr) s = .next (u.setCore c { k' with ctx := k'.ctx.after 1 })
    (legal = true →
      (∃ w : Word, exec (.mfs c G rd sr) s = .next ((if n = 0x42 then u.burn else u).gives c rd.toNat 1 w)) ∧
      (∃ k' : Core, puts k' ∧ { k' with ctx := x, ttbrLo := k.ttbrLo, ttbrHi := k.ttbrHi, mmuctl := k.mmuctl } = k ∧
        k'.ctx.g = x.g ∧ k'.ctx.q = x.q ∧ k'.ctx.pc = x.pc ∧ (n ≠ 0 → k'.ctx.dom = x.dom)) ∧
      (n = 0x000 → gets x.ssw.toNat ∧ ∃ w : Word, puts { k with ctx := { x with ssw := w } } ∧ ∀ i < 32,
        w.getLsbD i =
          if i = 30 ∨ i < 5 ∨ (cc = false ∧ x.ssw.getLsbD 31 = true ∧ (i = 31 ∨ (16 ≤ i ∧ i < 24))) then v.testBit i
          else if i = 29 ∨ i = 31 ∨ (16 ≤ i ∧ i < 24) then x.ssw.getLsbD i else false) ∧
      (n = 0x001 → gets x.prog ∧ puts { k with ctx := { x with prog := v % 2 ^ 13 } }) ∧
      (n = 0x002 → gets x.sld ∧ puts { k with ctx := { x with sld := v % 32 } }) ∧
      (n = 0x003 → gets (x.p.toNat / 2 * 2 + 1) ∧ puts { k with ctx := { x with p := BitVec.ofNat 8 (v / 2 * 2 + 1) } }) ∧
      (n = 0x004 → gets x.lc0 ∧ puts { k with ctx := { x with lc0 := v % 65536 } }) ∧
      (n = 0x005 → gets x.lc1 ∧ puts { k with ctx := { x with lc1 := v % 65536 } }) ∧
      (n = 0x006 → gets x.lsa0 ∧ puts { k with ctx := { x with lsa0 := v } }) ∧
      (n = 0x007 → gets x.lsa1 ∧ puts { k with ctx := { x with lsa1 := v } }) ∧
      (n = 0x008 → gets x.lea0 ∧ puts { k with ctx := { x with lea0 := v } }) ∧
      (n = 0x009 → gets x.lea1 ∧ puts { k with ctx := { x with lea1 := v } }) ∧
      (n = 0x040 → gets (if cc then c.val else 64 + c.val) ∧ puts k) ∧
      (n = 0x041 → gets k.strand ∧ puts k) ∧
      (n = 0x042 → exec (.mfs c G rd sr) s = .next (u.burn.gives c rd.toNat 1 (Config.freeWord u.free)) ∧ puts k) ∧
      (n = 0x050 → gets (x.lsusp.toNat * 256 + x.rot1.toNat * 2 + x.rot0.toNat) ∧
        puts { k with ctx := { x with lsusp := v.testBit 8, rot1 := v.testBit 1, rot0 := v.testBit 0 } }) ∧
      (n = 0x051 → gets x.vbase ∧ (cc = true → puts k) ∧ (cc = false → puts { k with ctx := { x with vbase := v / 2048 * 2048 } })) ∧
      (n = 0x055 → gets (u.f (R.ST_IPEND k.strand)) ∧ puts k) ∧
      (n = 0x060 → gets k.ttbrLo ∧ puts { k with ttbrLo := v / 8192 * 8192 }) ∧
      (n = 0x061 → gets k.ttbrHi ∧ puts { k with ttbrHi := v % 2 ^ 20 }) ∧
      (n = 0x062 → gets k.mmuctl ∧ puts { k with mmuctl := v % 2 }) ∧
      (0x10 ≤ n → n < 0x14 → gets (x.sclF (n - 0x10)).toNat ∧
        ∃ y : Ctx, puts { k with ctx := { x with scl := y.scl } } ∧ (SMap.wf sclDflt x.scl = true → y.sclF (n - 0x10) = BitVec.ofNat 32 v)) ∧
      (0x14 ≤ n → n < 0x18 → gets (x.sclC (n - 0x14)) ∧
        ∃ y : Ctx, puts { k with ctx := { x with scl := y.scl } } ∧ (SMap.wf sclDflt x.scl = true → y.sclC (n - 0x14) = v % 2 ^ 19)) ∧
      (0x20 ≤ n → n < 0x2E → gets (x.segOf (n - 0x20)) ∧
        ∃ y : Ctx, puts { k with ctx := { x with seg := y.seg } } ∧
          (SMap.wf (fun _ => 0) x.seg = true → y.segOf (n - 0x20) = v % 2 ^ 24)) ∧
      (n = 0x052 ∨ n = 0x053 ∨ n = 0x054 → puts k) ∧
      (n = 0x052 → gets x.swlo) ∧ (n = 0x053 → gets x.swhi) ∧ (n = 0x054 → gets x.holdoff)) ∧
    (legal = false → exec (.mfs c G rd sr) s = .next ((u.exc c vIllegal (encS 0x25 G rd sr)).settle c) ∧
      exec (.mts c G rd sr) s = .next ((u.exc c vIllegal (encS 0x26 G rd sr)).settle c))

/-- SYSCALL and BRK (R252, R277 to R279). -/
def Obligations.SyscallAndBreakEnter : Prop :=
  ∀ (s u : State) (c : Fin 36) (G : BitVec 4) (rd rs1 rs2 : BitVec 5) (a : Nat), Runs s c G { word := 0 } u →
    (u.core c).detached = false → (u.core c).stall = none → (u.core c).pendq = [] →
    let x := { (u.core c).ctx.after 1 with ds := 0, tk := false, bta := 0 }
    32 ≤ (x.reg 31).toNat →
    let frame := fun vec einfo => [x.pc, 0, vec + (if x.lsusp then 2048 else 0), x.ssw.toNat, einfo, x.prog, 0]
    (StackAt u c ((x.reg 31).toNat - 32) a (decide (32 ≤ c.val)) .write →
      (∃ t, exec (.syscall c G rd rs1 rs2) s = .next t ∧ Entered t c 9 x ∧ Framed u t a (frame 9 rs1.toNat) ∧ t.regs = u.regs) ∧
      (u.dsp.debugger = false → ∃ t, exec (.brk c G rd rs1 rs2) s = .next t ∧ Entered t c 10 x ∧
        Framed u t a (frame 10 (u.core c).ctx.pc) ∧ t.regs = u.regs)) ∧
    (u.dsp.debugger = true → (u.core c).dbgHalt = false → u.on (R.DSP_CORE_PF_V c) = false →
      (∀ ch < 64, u.governs c ch = false) →
      exec (.brk c G rd rs1 rs2) s =
        .next ((u.setCore c { u.core c with ctx := (u.core c).ctx.after 1, dbgHalt := true }).raise (R.DSP_CORE_HALTED c)))

/-- Interrupt and asynchronous error entry (R276, R278, R281, R283). -/
def Obligations.EventsEnterTheirVectors : Prop :=
  ∀ (s : State) (c : Fin 36) (a : Nat), s.canonical = true → s.executes c = true →
    let k := s.core c
    let x := k.ctx
    k.detached = false → k.stall = none → k.pendq = [] → x.ds = 0 → k.suspReq = 0 → s.on (R.DSP_CORE_OFFREQ c) = false → 32 ≤ (x.reg 31).toNat →
    StackAt s c ((x.reg 31).toNat - 32) a (decide (32 ≤ c.val)) .write →
    (∀ i < 5, x.async = none → x.ssw.getLsbD 30 = true → (x.ssw.getLsbD 29 = true ∨ x.lc0 = 0 ∨ x.lsusp = true) →
      (s.f (R.ST_IPEND k.strand)).testBit i = true → (∀ j < i, (s.f (R.ST_IPEND k.strand)).testBit j = false) →
      ∃ t, exec (.interruptEntry c) s = .next t ∧ Entered t c (16 + i) { x with tk := false, bta := 0 }) ∧
    (∀ e m, x.async = some (e, m) → (s.strand k.strand).errs = [] →
      s.coreBusy c = true →
      ∃ t, exec (.accessAsync c) s = .next t ∧ Entered t c 8 { x with async := none, tk := false, bta := 0 } ∧
        Framed s t a [x.pc, 0, 8 + (if x.lsusp then 2048 else 0) + (if m then 8192 else 0), x.ssw.toNat, e, x.prog, 0] ∧
        t.regs = s.regs)

/-- ERET (R280). -/
def Obligations.EretRestoresTheFrame : Prop :=
  ∀ (s u : State) (c : Fin 36) (G : BitVec 4) (rd rs1 rs2 : BitVec 5) (a : Nat),
    Runs s c G { word := 0, noSlot := true, noBody := true } u →
    (u.core c).stall = none → (u.core c).pendq = [] →
    let x := (u.core c).ctx
    let w := fun i => u.rd (a + 4 * i) 4
    let sup := decide (32 ≤ c.val)
    (StackAt u c (x.reg 31).toNat a (x.ssw.getLsbD 31) .read → (sup = true → x.ssw.getLsbD 31 = true) →
      let ds := w 2 / 2 ^ 8 % 4
      let now := ds = 0 ∧ (w 2).testBit 10 = true
      ∃ (y : Ctx) (f : Nat), exec (.eret c G rd rs1 rs2) s = .next ({ u with free := f }.ctxTo c y) ∧
        (now → y.pc = w 1 ∧ y.bta = 0 ∧ y.tk = false) ∧ (¬now → y.pc = w 0 ∧ y.bta = w 1 ∧ y.tk = (w 2).testBit 10) ∧
        y.ds = ds ∧ y.lsusp = (w 2).testBit 11 ∧
        y.prog = w 5 % 2 ^ 13 ∧ y.g = (x.setReg 31 (x.reg 31 + 32)).g ∧
        y.ssw.getLsbD 30 = (w 3).testBit 30 ∧
        (∀ i < 5, y.ssw.getLsbD i = ((w 3).testBit i || x.ssw.getLsbD i)) ∧
        (∀ i, i = 31 ∨ (16 ≤ i ∧ i < 24) → y.ssw.getLsbD i = if sup then (w 3).testBit i else x.ssw.getLsbD i) ∧
        { y with pc := x.pc, bta := x.bta, ds := x.ds, tk := x.tk, lsusp := x.lsusp, prog := x.prog, g := x.g, ssw := x.ssw } = x) ∧
    (sup = true → x.ssw.getLsbD 31 = false →
      exec (.eret c G rd rs1 rs2) s = .next ((u.exc c vPriv (encR 0x17 0x03 G rd rs1 rs2)).settle c))

/-- Debug halts (R12, R343, R345). -/
def Obligations.DebugHaltAndResume : Prop :=
  ∀ (s : State) (c : Fin 36), s.canonical = true →
    ((s.core c).dbgHalt = false → s.on (R.DSP_CORE_PF_V c) = false →
      (∀ ch < 64, s.governs c ch = true → s.f (R.PC_HALT_DWELL ch) ≠ 0) →
      ∃ t, exec (.debugHalt c) s = .next t ∧ t.core c = { s.core c with dbgHalt := true } ∧
        (∀ d, d ≠ c.val → t.core d = s.core d) ∧ t.on (R.DSP_CORE_HALTED c) = true ∧ t.mem = s.mem ∧ t.bel = s.bel ∧
        (∀ b, 0x10340000 ≤ b → b < 0x10350000 → t.reg b = s.reg b) ∧
        ∀ ch < 64, if s.governs c ch then t.on (R.PC_STAT_FROZEN ch) = true ∧ t.on (R.PC_STAT_DWELLRUN ch) = true
          else t.reg (R.PC_STAT ch) = s.reg (R.PC_STAT ch)) ∧
    ((s.core c).dbgHalt = true → (s.core c).suspReq = 0 → s.on (R.DSP_CORE_OFFREQ c) = false → (∀ ch < 64, s.governs c ch = false) →
      exec (.haltEnd c) s =
        .next ((s.setCore c { s.core c with dbgHalt := false }).set (R.DSP_CORE_HALTED c) (s.core c).sfHalt.toNat))

/-- Tags (R265, R298, R299, R315). -/
def Obligations.TagFillReadAndWrite : Prop :=
  (∀ (s : State) (who : Requester) (t : Fin 16384) (v : Word), s.canonical = true → Permits s who (R.TAG_VALUE_W t) v.toNat →
    ∃ y, Filled s y t v.toNat ∧ exec (.tagValueWrite who t v) s = .next (y.answer .ok)) ∧
  (∀ (s u : State) (c : Fin 36) (G : BitVec 4) (rd rs1 rs2 : BitVec 5), Runs s c G { word := 0 } u →
    let k := u.core c
    let t := (k.ctx.reg rs1.toNat).toNat % 2 ^ 14
    let v := (k.ctx.reg rs2.toNat).toNat
    (k.detached = false → Permits u (u.coreWho c) (R.TAG_VALUE_W t) v →
      ∃ y, Filled u y t v ∧ exec (.tagwr c G rd rs1 rs2) s =
        .next ((y.setStrand k.strand { y.strand k.strand with posted := true }).ctxTo c (k.ctx.after 1))) ∧
    (k.detached = true → exec (.tagwr c G rd rs1 rs2) s = .next ((u.exc c vAccess (R.TAG_VALUE_W t)).settle c)) ∧
    (u.dspReach c = .ok → u.dspOrder c = u →
      let owned := !k.detached && u.on (R.TAG_CTL_OWNED t) && decide (u.f (R.TAG_CTL_OWNER t) = k.strand)
      let x := u.f (R.TAG_VALUE t)
      let e := (u.setStrand k.strand { u.strand k.strand with tagrd := (u.strand k.strand).tagrd ++ [(t, x)] }).set (R.TAG_CTL_FULL t) 0
      let w := u.f (R.ST_WAIT_WEMPTY k.strand)
      let out := fun y : State => Host.Outcome.next (y.stalls c 1 { word := 0 } [(rd.toNat, BitVec.ofNat 32 x)] islDSP (R.TAG_VALUE_W t))
      (owned = true → u.on (R.TAG_CTL_FULL t) = false → exec (.tagrd c G rd rs1 rs2) s = out u) ∧
      (owned = true → u.on (R.TAG_CTL_FULL t) = true → u.on (R.TAG_CTL_WAIT t) = false → exec (.tagrd c G rd rs1 rs2) s = out e) ∧
      (owned = true → u.on (R.TAG_CTL_FULL t) = true → u.on (R.TAG_CTL_WAIT t) = true →
        exec (.tagrd c G rd rs1 rs2) s = out (e.set (R.ST_WAIT_WEMPTY k.strand) (w + 1))) ∧
      (owned = false → exec (.tagrd c G rd rs1 rs2) s = .next ((u.exc c vAccess (R.TAG_VALUE_W t)).settle c))))

/-- WAITOP and RELEASE (R265, R293, R306, R307, R311). -/
def Obligations.WaitopEndsTheActivation : Prop :=
  (∀ (s u : State) (c : Fin 36) (G : BitVec 4) (rd rs1 rs2 : BitVec 5), Runs s c G { word := 0, noSlot := true, noBody := true } u →
    let k := u.core c
    let o := k.strand
    let x := k.land.ctx
    let idle : Core := { k with pendq := [], stall := none, detached := false, suspReq := 0, ctx := {}, bank := some o }
    let free := (((u.set (R.ST_STAT_DRAINING o) (u.strand o).posted.toNat).set (R.DSP_CORE_RUN_V c) 0).set (R.DSP_CORE_RUN c) 0).setCore c idle
    (k.detached = false → u.f (R.ST_WAIT_WTAGS o) ≠ 0 → u.f (R.ST_WAIT_WEMPTY o) = 0 →
      ∃ t, exec (.waitop c G rd rs1 rs2) s = .next t ∧
        Alike ((free.set (R.ST_STAT_STATE o) 2).setStrand o { u.strand o with
          saved := { x with pc := x.pc + 4 }, tagrd := [], ready := u.gnow, affSeen := none }) t) ∧
    (k.detached = false → u.f (R.ST_WAIT_WTAGS o) = 0 ∨ u.f (R.ST_WAIT_WEMPTY o) ≠ 0 →
      ∃ t, exec (.waitop c G rd rs1 rs2) s = .next t ∧
        Alike ((free.set (R.ST_STAT_STATE o) 1).setStrand o { u.strand o with saved := x, tagrd := [] }) t) ∧
    (k.detached = true → exec (.waitop c G rd rs1 rs2) s =
      .next ((((u.set (R.DSP_CORE_RUN_V c) 0).set (R.DSP_CORE_RUN c) 0).setCore c { idle with bank := none }).set (R.ST_STAT_DETACHED o)
        ((List.range 36).any (fun d => d != c.val && (u.core d).detached && decide ((u.core d).strand = o))).toNat))) ∧
  (∀ (s u : State) (c : Fin 36) (G : BitVec 4) (rd rs1 rs2 : BitVec 5) (n a : Nat), Runs s c G { word := 0 } u →
    let k := u.core c
    let ea := (k.ctx.reg rs1.toNat).toNat
    let posts := fun bs : List Byte => ∃ f : Nat,
      let y := { u with free := f, dsp := { u.dsp with posted := u.dsp.posted ++ [(⟨k.strand, k.epoch, k.ctx.dom, ea, bs, c⟩ : RelMsg)] } }
      exec (.release c G rd rs1 rs2) s = .next
        ((if k.detached then y else y.setStrand k.strand { u.strand k.strand with posted := true }).ctxTo c (k.ctx.after 1))
    (ea % 16 = 0 → 2 ≤ n → n ≤ 16 → ea + 16 * n ≤ 2 ^ 32 → (∀ i < 4 * n, Reaches u c (ea + 4 * i) 4 0 (a + 4 * i) .read) →
      u.rd a 4 / 2 ^ 16 % 2 ^ 12 = 16 * n → posts (u.bytes a (16 * n))) ∧
    (ea % 4 = 0 → Reaches u c ea 4 0 a .read →
      (let len := u.rd a 4 / 2 ^ 16 % 2 ^ 12
       ea % 16 ≠ 0 ∨ len % 16 ≠ 0 ∨ len < 32 ∨ 256 < len) → posts (u.bytes a 4)) ∧
    (ea % 4 ≠ 0 → posts []))

/-- Vector arithmetic (R252, R258, R268). -/
def Obligations.VectorArithmeticResults : Prop :=
  ∀ (s u : State) (c : Fin 36) (G : BitVec 4) (vd vs1 vs2 : BitVec 6), Runs s c G { word := 0, v := true } u →
    let k := u.core c
    let x := k.ctx
    let q := fun n : Nat => SMap.get (fun _ => (0 : BitVec 128)) x.q (if n < 32 then n else 32 + (n - 32 + x.sld) % 32)
    let l := fun (n i : Nat) => BitVec.extractLsb' (32 * i) 32 (q n)
    let at' := if vd.toNat < 32 then vd.toNat else 32 + (vd.toNat - 32 + x.sld) % 32
    let gives := fun (r : Res) (f : Nat → FM Word) (lat : Nat) => ∃ w : BitVec 128,
      (∀ i < 4, BitVec.extractLsb' (32 * i) 32 w = valueOf (f i)) ∧
      r = .next (u.setCore c { k with
        pendq := k.pendq ++ [⟨at', w, k.issued + lat⟩],
        ctx := (x.orFlags (((f 0).run 0).2 ||| ((f 1).run 0).2 ||| ((f 2).run 0).2 ||| ((f 3).run 0).2)).after 1 })
    let a := l vs1.toNat
    let b := l vs2.toNat
    let d := l vd.toNat
    gives (exec (.vadd c G vd vs1 vs2) s) (fun i => F32.add (a i) (b i)) 4 ∧
    gives (exec (.vsub c G vd vs1 vs2) s) (fun i => F32.sub (a i) (b i)) 4 ∧
    gives (exec (.vmul c G vd vs1 vs2) s) (fun i => F32.mul (a i) (b i)) 4 ∧
    gives (exec (.vfma c G vd vs1 vs2) s) (fun i => F32.fma (a i) (b i) (d i)) 4 ∧
    gives (exec (.vfms c G vd vs1 vs2) s) (fun i => F32.fms (a i) (b i) (d i)) 4 ∧
    gives (exec (.vmin c G vd vs1 vs2) s) (fun i => pure (F32.min (a i) (b i))) 4 ∧
    gives (exec (.vmax c G vd vs1 vs2) s) (fun i => pure (F32.max (a i) (b i))) 4 ∧
    gives (exec (.vclamp c G vd vs1 vs2) s) (fun i => pure (F32.min (F32.max (d i) (a i)) (b i))) 4 ∧
    gives (exec (.vabs c G vd vs1 vs2) s) (fun i => pure (F32.canon (F32.abs (a i)))) 4 ∧
    gives (exec (.vneg c G vd vs1 vs2) s) (fun i => pure (F32.canon (F32.neg (a i)))) 4 ∧
    gives (exec (.vdiv c G vd vs1 vs2) s) (fun i => F32.div (a i) (b i)) 14 ∧
    (vs2.toNat < 4 → x.sclC vs2.toNat / 2 ^ 16 % 4 ≠ 3 →
      gives (exec (.vsmvf c G vd vs1 vs2) s) (fun i => smvf (x.sclF vs2.toNat) (x.sclC vs2.toNat) (a i)) 4 ∧
      gives (exec (.vsmvi c G vd vs1 vs2) s) (fun i => smvi (x.sclF vs2.toNat) (x.sclC vs2.toNat) (a i)) 4) ∧
    (vs2.toNat < 4 → x.sclC vs2.toNat / 2 ^ 16 % 4 = 3 →
      exec (.vsmvf c G vd vs1 vs2) s = .next ((u.exc c vIllegal (encV 0x24 2 G vd vs1 vs2)).settle c) ∧
      exec (.vsmvi c G vd vs1 vs2) s = .next ((u.exc c vIllegal (encV 0x24 3 G vd vs1 vs2)).settle c))

/-- Vector moves, loads and stores (R251, R252, R268, R269). -/
def Obligations.VectorMovesLoadsAndStores : Prop :=
  ∀ (s u : State) (c : Fin 36) (G : BitVec 4) (vd vs1 vs2 : BitVec 6) (rg : BitVec 5),
    (∀ i : BitVec 2, Runs s c G { word := 0, v := true, guse := [rg.toNat] } u →
      let x := (u.core c).ctx
      let q := fun n : Nat => x.phys (if n < 32 then n else 32 + (n - 32 + x.sld) % 32)
      let at' := if vd.toNat < 32 then vd.toNat else 32 + (vd.toNat - 32 + x.sld) % 32
      let lane' := fun (w : BitVec 128) (j : Nat) => BitVec.extractLsb' (32 * j) 32 w
      (∃ w, (∀ j < 4, lane' w j = x.reg rg.toNat) ∧
        exec (.vsplat c G vd rg i) s = .next (u.ctxTo c ((x.setPhys at' w).after 1))) ∧
      (∃ w, (∀ j < 4, lane' w j = if j = i.toNat then x.reg rg.toNat else lane' (q vd.toNat) j) ∧
        exec (.vins c G vd rg i) s = .next (u.ctxTo c ((x.setPhys at' w).after 1))) ∧
      exec (.vext c G vd rg i) s = .next (u.gives c rg.toNat 1 (lane' (q vd.toNat) i.toNat))) ∧
    (Runs s c G { word := 0, v := true } u →
      let x := (u.core c).ctx
      let phys := fun n : Nat => if n < 32 then n else 32 + (n - 32 + x.sld) % 32
      exec (.vmov c G vd vs1 vs2) s =
        .next (u.ctxTo c ((x.setPhys (phys vd.toNat) (x.phys (phys vs1.toNat))).after 1))) ∧
    (∀ (ofs : BitVec 11) (a : Nat), Runs s c G { word := 0, v := true, guse := [rg.toNat] } u →
      let k := u.core c
      let x := k.ctx
      let at' := if vd.toNat < 32 then vd.toNat else 32 + (vd.toNat - 32 + x.sld) % 32
      let ea := (x.reg rg.toNat + BitVec.ofInt 32 (16 * ofs.toInt)).toNat
      let old := (k.stall.getD {})
      (Reaches u c ea 16 0 a .read → u.quick c a = true → exec (.vld c G vd rg ofs) s =
        .next ((u.l1 c a).setCore c { k with pendq := k.pendq ++ [⟨at', BitVec.ofNat 128 (u.rd a 16), k.issued + 3⟩], ctx := x.after 1 })) ∧
      (Reaches u c ea 16 0 a .read → u.quick c a = false → exec (.vld c G vd rg ofs) s =
        .next ((u.l1 c a).setCore c { k with
          stall := some { old with
            qw := old.qw ++ [(at', BitVec.ofNat 128 (u.rd a 16))], pairAt := none, far := some (u.islAt c ea .read, ea),
            back := if k.stall.isSome then old.back else x.back },
          ctx := x.after 1 })) ∧
      (Reaches u c ea 16 (x.phys at').toNat a .write →
        ∃ t, exec (.vst c G vd rg ofs) s = .next t ∧ Stored u t c a 16 (x.phys at').toNat 1) ∧
      (ea % 16 ≠ 0 → exec (.vld c G vd rg ofs) s = .next ((u.exc c vAlign ea).settle c) ∧
        exec (.vst c G vd rg ofs) s = .next ((u.exc c vAlign ea).settle c)))

/-- Transforms (R263). -/
def Obligations.TransformResults : Prop :=
  ∀ (s u : State) (c : Fin 36) (G : BitVec 4) (vd vs1 vs2 : BitVec 6), Runs s c G { word := 0, v := true } u →
    let k := u.core c
    let x := k.ctx
    let phys := fun n : Nat => if n < 32 then n else 32 + (n - 32 + x.sld) % 32
    let l := fun i : Nat => BitVec.extractLsb' (32 * i) 32 (x.phys (phys vs1.toNat))
    let pack := fun v : Word × Word × Word × Word =>
      BitVec.ofNat 128 (v.1.toNat + v.2.1.toNat * 2 ^ 32 + v.2.2.1.toNat * 2 ^ 64 + v.2.2.2.toNat * 2 ^ 96)
    let leaves := fun (lat : Nat) (m : FM (Word × Word × Word × Word)) => Host.Outcome.next (u.setCore c { k with
      pendq := k.pendq ++ [⟨phys vd.toNat, pack (m.run 0).1, k.issued + lat⟩], ctx := (x.orFlags (m.run 0).2).after 1 })
    exec (.clpk c G vd vs1 vs2) s = leaves 24 (do
      let t ← F32.mul 0x40000000 (l 0)
      let t ← F32.sub t (l 1)
      let t ← F32.sub t (l 2)
      let ial ← F32.div t 0x40400000
      let t ← F32.sub (l 1) (l 2)
      let ibe ← F32.mul t 0x3F13CD3A
      let co ← F32.cos (l 3)
      let si ← F32.sin (l 3)
      let p ← F32.mul ial co
      let id ← F32.fma ibe si p
      let p ← F32.mul ibe co
      let iq ← F32.fma (F32.neg ial) si p
      pure (id, iq, ial, ibe)) ∧
    exec (.ipkc c G vd vs1 vs2) s = leaves 20 (do
      let co ← F32.cos (l 2)
      let si ← F32.sin (l 2)
      let p ← F32.mul (l 0) co
      let va ← F32.fma (F32.neg (l 1)) si p
      let p ← F32.mul (l 0) si
      let vbe ← F32.fma (l 1) co p
      let h ← F32.mul 0xBF000000 va
      let vb ← F32.fma 0x3F5DB3D7 vbe h
      let h ← F32.mul 0xBF000000 va
      let vc ← F32.fma (F32.neg 0x3F5DB3D7) vbe h
      let m ← F32.add (F32.max (F32.max va vb) vc) (F32.min (F32.min va vb) vc)
      let z ← F32.mul m 0x3F000000
      pure (va, vb, vc, F32.neg z))

/-- The DSP group without RLU (R111, R259 to R261). -/
def Obligations.DspGroupResults : Prop :=
  ∀ (s u : State) (c : Fin 36) (G : BitVec 4) (rd rs1 rs2 : BitVec 5) (fast : Bool), Runs s c G { word := 0 } u →
    let x := (u.core c).ctx
    let r1 := x.reg rs1.toNat
    let ea := (x.reg rs2.toNat).toNat
    let ends := fun (t : State) (gw : List (Nat × Word)) => ∃ fl : FFlags,
      u.brings { t with mem := u.mem } c (x.orFlags fl) gw fast
    (∀ (cnt : BitVec 3) (a : Nat), Words u c ea a (8 * (cnt.toNat + 1)) fast →
      ∃ (t : State) (y : Nat → Word), exec (.biq c G rd rs1 rs2 cnt) s = .next t ∧ y 0 = r1 ∧
        (∀ j ≤ cnt.toNat, y (j + 1) = u.stageY (a + 32 * j) (y j) ∧
          t.word (a + 32 * j + 20) = u.stageS1 (a + 32 * j) (y j) ∧ t.word (a + 32 * j + 24) = u.stageS2 (a + 32 * j) (y j)) ∧
        (∀ b, (∀ j ≤ cnt.toNat, b < a + 32 * j + 20 ∨ a + 32 * j + 28 ≤ b) → t.byte b = u.byte b) ∧
        ends t [(rd.toNat, y (cnt.toNat + 1))]) ∧
    (∀ a, Words u c ea a 5 fast →
      (let m := F32.fma (u.word a) r1 (u.word (a + 16))
       ∃ t, exec (.pi c G rd rs1 rs2 0) s = .next t ∧ u.brings t c (x.orFlags (m.run 0).2) [(rd.toNat, valueOf m)] fast) ∧
      (∃ t, exec (.piu c G rd rs1 rs2 0) s = .next t ∧
        (let i := valueOf (F32.fma (u.word (a + 8)) (x.reg rd.toNat) (valueOf (F32.fma (u.word (a + 4)) r1 (u.word (a + 16)))))
         let lim := u.word (a + 12)
         t.word (a + 16) = F32.min (F32.max i (F32.neg lim)) lim) ∧
        (∀ b, b < a + 16 ∨ a + 20 ≤ b → t.byte b = u.byte b) ∧ ends t [])) ∧
    (∀ a, let n := (x.reg rd.toNat).toNat
      Words u c ea a (min n 4095 + 1) fast → 1 ≤ n → n ≤ 4095 → F32.isNaN r1 = false →
        ∃ (t : State) (fl : FFlags), exec (.tint c G rd rs1 rs2 0) s = .next t ∧
          u.brings t c (x.orFlags fl) [(rd.toNat, u.tableAt r1 n a)] fast) ∧
    (let n := (x.reg rd.toNat).toNat
     n = 0 ∨ 4095 < n ∨ F32.isNaN r1 = true →
       exec (.tint c G rd rs1 rs2 0) s = .next (u.gives c rd.toNat 1 0x7FC00000)) ∧
    (∀ cnt : BitVec 3, cnt ≠ 0 →
      exec (.pi c G rd rs1 rs2 cnt) s = .next ((u.exc c vIllegal (encD 1 G rd rs1 rs2 cnt)).settle c) ∧
      exec (.piu c G rd rs1 rs2 cnt) s = .next ((u.exc c vIllegal (encD 2 G rd rs1 rs2 cnt)).settle c) ∧
      exec (.tint c G rd rs1 rs2 cnt) s = .next ((u.exc c vIllegal (encD 3 G rd rs1 rs2 cnt)).settle c) ∧
      exec (.rlu c G rd rs1 rs2 cnt) s = .next ((u.exc c vIllegal (encD 4 G rd rs1 rs2 cnt)).settle c))

/-- RLU (R262). -/
def Obligations.LearnBinCommit : Prop :=
  ∀ (s u : State) (c : Fin 36) (G : BitVec 4) (rd rs1 rs2 : BitVec 5) (a d : Nat) (f1 f2 f3 : Bool), Runs s c G { word := 0 } u →
    let x := (u.core c).ctx
    let tab := (x.reg rs1.toNat).toNat
    let desc := (x.reg rs2.toNat).toNat
    let index := u.rd d 4
    Words u c desc d 5 f1 → Words u c tab a 4 f2 → Words u c (tab + 32 + 4 * index) (a + 32 + 4 * index) 1 f3 →
    Reaches u c ((tab + 4) % 2 ^ 32) 2 0 (a + 4) .read → Reaches u c ((tab + 6) % 2 ^ 32) 1 0 (a + 6) .read →
    u.range a ≠ some .mramLog → u.range a ≠ some .mramData →
    let nb := (u.byte (a + 4)).toNat + 256 * (u.byte (a + 5)).toNat
    let frozen := (u.byte (a + 6)).getLsbD 0
    let waits := fun (y : State) (v : Nat) => y.stalls c 1 { word := 0 } [(rd.toNat, BitVec.ofNat 32 v)] (u.islAt c tab .write) tab
    let quiet := fun v : Nat => ∃ f : Nat, exec (.rlu c G rd rs1 rs2 0) s = .next (waits { u with free := f } v)
    let w := u.word (a + 32 + 4 * index)
    let m := valueOf (F32.fma (u.word (d + 12)) (u.word (d + 4)) (valueOf (F32.mul (u.word (d + 8)) w)))
    let v := F32.min (F32.max m (F32.neg (u.word (d + 16)))) (u.word (d + 16))
    (frozen = true → quiet 0) ∧
    (frozen = false → nb ≤ index → quiet 3) ∧
    (frozen = false → index < nb →
      ∃ (t : State) (fl : FFlags), exec (.rlu c G rd rs1 rs2 0) s = .next t ∧
        t.word (a + 32 + 4 * index) = (if F32.isFinite v then v else 0) ∧
        t.word (a + 12) = u.word (a + 12) + 1 ∧
        (∀ b, (b < a + 12 ∨ a + 16 ≤ b) → (b < a + 32 + 4 * index ∨ a + 36 + 4 * index ≤ b) → t.byte b = u.byte b) ∧
        { t with mem := u.mem } = waits ({ u with free := t.free }.ctxTo c (x.orFlags fl)) (if F32.isFinite v then 1 else 2))

/-- Block instructions (R266, R274, R287). -/
def Obligations.BlockInstructionResults : Prop :=
  ∀ (s u : State) (c : Fin 36) (G : BitVec 4) (rd rs1 rs2 rn : BitVec 5), Runs s c G { word := 0, noSlot := true } u →
    let x := (u.core c).ctx
    let n := (x.reg rn.toNat).toNat
    let ops : List Instr := [.bcopy c G rd rs1 rs2 rn, .bfill c G rd rs1 rs2 rn, .badd c G rd rs1 rs2 rn, .bsub c G rd rs1 rs2 rn,
      .bmul c G rd rs1 rs2 rn, .bfma c G rd rs1 rs2 rn, .btint c G rd rs1 rs2 rn, .bbiq c G rd rs1 rs2 rn]
    let ends := fun (r : Res) (fast : Bool) (next : State → Nat → State) => ∃ (t : State) (stop : Nat) (m : Nat → State) (fl : FFlags),
      r = .next t ∧ x.prog < stop ∧ stop ≤ n ∧ ((∀ i ∈ u.pending, i ≠ .interruptEntry c) → stop = n) ∧
      m x.prog = u ∧ (∀ i, x.prog ≤ i → i < stop → m (i + 1) = next (m i) i) ∧ t.mem = (m stop).mem ∧
      (stop = n → u.brings { t with mem := u.mem } c ({ x with prog := 0 }.orFlags fl) [] fast) ∧
      (stop < n → { t with mem := u.mem } = { u with free := t.free }.ctxTo c ({ x with prog := stop }.orFlags fl))
    (n = 0 → ∀ i ∈ ops, exec i s = .next (u.ctxTo c (x.after 1))) ∧
    (4096 < n → ∀ i ∈ ops, exec i s = .next ((u.exc c vLength n).settle c)) ∧
    (∀ (p q d : Nat) (fast : Bool), x.prog < n → n ≤ 4096 → Words u c (x.reg rd.toNat).toNat d n fast →
      ends (exec (.bfill c G rd rs1 rs2 rn) s) fast (fun m i => m.wr (d + 4 * i) 4 (x.reg rs1.toNat).toNat) ∧
      (Words u c (x.reg rs1.toNat).toNat p n fast →
        ends (exec (.bcopy c G rd rs1 rs2 rn) s) fast (fun m i => m.wr (d + 4 * i) 4 (m.word (p + 4 * i)).toNat) ∧
        (Words u c (x.reg rs2.toNat).toNat q n fast →
          ends (exec (.badd c G rd rs1 rs2 rn) s) fast
            (fun m i => m.wr (d + 4 * i) 4 (valueOf (F32.add (m.word (p + 4 * i)) (m.word (q + 4 * i)))).toNat) ∧
          ends (exec (.bsub c G rd rs1 rs2 rn) s) fast
            (fun m i => m.wr (d + 4 * i) 4 (valueOf (F32.sub (m.word (p + 4 * i)) (m.word (q + 4 * i)))).toNat) ∧
          ends (exec (.bmul c G rd rs1 rs2 rn) s) fast
            (fun m i => m.wr (d + 4 * i) 4 (valueOf (F32.mul (m.word (p + 4 * i)) (m.word (q + 4 * i)))).toNat) ∧
          ends (exec (.bfma c G rd rs1 rs2 rn) s) fast
            (fun m i => m.wr (d + 4 * i) 4 (valueOf (F32.fma (m.word (p + 4 * i)) (m.word (q + 4 * i)) (m.word (d + 4 * i)))).toNat)) ∧
        (Words u c (x.reg rs2.toNat).toNat q 4097 fast →
          ends (exec (.btint c G rd rs1 rs2 rn) s) fast
            (fun m i => m.wr (d + 4 * i) 4 (m.tableAt (m.word (p + 4 * i)) (m.rd q 4) (q + 4)).toNat)) ∧
        (Words u c (x.reg rs2.toNat).toNat q 8 fast →
          ends (exec (.bbiq c G rd rs1 rs2 rn) s) fast (fun m i =>
            let w := m.word (p + 4 * i)
            ((m.wr (d + 4 * i) 4 (m.stageY q w).toNat).wr (q + 20) 4 (m.stageS1 q w).toNat).wr (q + 24) 4 (m.stageS2 q w).toNat))))

/-- START and RESUME, and commands that do not apply (R293 to R296, R291). -/
def Obligations.StrandStartAndResume : Prop :=
  ∀ (s : State) (who : Requester) (t : Fin 1024), s.canonical = true →
    let st := s.f (R.ST_STAT_STATE t)
    let u := s.strand t
    let err := Host.Outcome.next ((s.set (R.ST_STAT_CMDERR t) 1).answer .ok)
    (Permits s who (R.ST_CMD_W t) 1 →
      let cm := s.f (R.ST_CMASK t)
      let sm := s.f (R.ST_SMASK t)
      let d := s.f (R.ST_DOM t)
      let e := 4 * s.f (R.ST_ENTRY t)
      let good := (cm ≠ 0 ↔ sm = 0) ∧ s.memRight d (2048 * s.f (R.ST_SAVE t)) 2048 .read = true ∧
        s.memRight d (2048 * s.f (R.ST_SAVE t)) 2048 .write = true ∧
        (cm = 0 ∨ (0xE0000000 ≤ e ∧ e < 0xE0040000) ∨ (0xF0000000 ≤ e ∧ e < 0xF0040000)) ∧ s.f (R.ST_SWLO t) < s.f (R.ST_SWHI t)
      (st = 0 → good → ∃ y : State, exec (.strandStart who t) s = .next (y.answer .ok) ∧
        Alike ((s.set (R.ST_STAT_STATE t) 2).setStrand t { u with
          tagrd := [], ready := s.gnow, affSeen := none,
          saved := { pc := e, g := if s.f (R.ST_SWHI t) = 0 then [] else [(31, BitVec.ofNat 32 (16 * s.f (R.ST_SWHI t)))], seg := [(1, 1)],
                     ssw := BitVec.ofNat 32 (2 ^ 30 + 2 ^ 29 * s.f (R.ST_ATTR_LOOPSAVE t) + 2 ^ 16 * d),
                     vbase := 2048 * s.f (R.ST_VBASE t), swlo := 16 * s.f (R.ST_SWLO t), swhi := 16 * s.f (R.ST_SWHI t),
                     holdoff := s.f (R.ST_HOLDOFF_MAX t) } }) y) ∧
      (st = 0 → ¬good → exec (.strandStart who t) s = .next ((s.set (R.ST_STAT_CFGERR t) 1).answer .ok)) ∧
      (st ≠ 0 → exec (.strandStart who t) s = err)) ∧
    (Permits s who (R.ST_CMD_W t) 3 →
      (st = 4 → ∃ y : State, exec (.strandResume who t) s = .next (y.answer .ok) ∧ y.f (R.ST_STAT_STATE t) = 2 ∧
        y.strand t = { u with kept := none, noShadow := false, ready := s.gnow, affSeen := none } ∧
        (∀ k, k ≠ t.val → y.strand k = s.strand k) ∧
        (∀ c < 36, y.core c = if (s.core c).shadow.any (fun r => decide (r.strand = t.val)) then { s.core c with shadow := none } else s.core c)) ∧
      (st ≠ 4 → exec (.strandResume who t) s = err)) ∧
    (Permits s who (R.ST_CMD_W t) 2 → st = 0 → exec (.strandStop who t) s = err) ∧
    (Permits s who (R.ST_CMD_W t) 4 → st ≠ 4 → exec (.strandEnd who t) s = err) ∧
    (Permits s who (R.ST_CMD_W t) 5 → (∀ c, s.coreOf t = some c → st ≠ 3 ∨ s.f (R.DSP_CORE_HALTED c) = 0) →
      exec (.strandMigrate who t) s = err)

/-- STOP, END and MIGRATE (R293, R311, R283). -/
def Obligations.StrandStopEndAndMigrate : Prop :=
  ∀ (s : State) (who : Requester) (t : Fin 1024), s.canonical = true →
    let st := s.f (R.ST_STAT_STATE t)
    let idle := fun y : State => y.f (R.ST_STAT_STATE t) = 0 ∧ y.f (R.ST_IPEND t) = 0 ∧ (y.strand t).einfo = [] ∧
      (y.strand t).kept = none ∧ (y.strand t).noShadow = false ∧ (y.strand t).errs = [] ∧ (y.strand t).saved.attempt = none ∧
      (∀ c < 36, (y.core c).shadow.any (fun r => decide (r.strand = t.val)) = false) ∧ (∀ k, k ≠ t.val → y.strand k = s.strand k) ∧
      { y with regs := s.regs, dsp := s.dsp, mem := s.mem, log := s.log } = s
    (Permits s who (R.ST_CMD_W t) 2 → st ≠ 0 → (s.coreOf t = none ∨ st ≠ 3) →
      ∃ y : State, exec (.strandStop who t) s = .next (y.answer .ok) ∧ idle y ∧ (y.strand t).saved.pc = (s.strand t).saved.pc) ∧
    (∀ c, Permits s who (R.ST_CMD_W t) 2 → st = 3 → s.coreOf t = some c →
      (let r := { s.core c with suspReq := 2 }
       r.heldOff = true ∨ s.f (R.DSP_CORE_HALTED c) = 1 → exec (.strandStop who t) s = .next ((s.setCore c r).answer .ok)) ∧
      ((s.core c).heldOff = false → s.f (R.DSP_CORE_HALTED c) = 0 → (s.core c).strand = t.val →
        ∃ y : State, exec (.strandStop who t) s = .next (y.answer .ok) ∧ idle y ∧ y.f (R.DSP_CORE_RUN_V c) = 0 ∧
          (y.core c).ctx = {} ∧ (y.core c).bank = some t.val)) ∧
    (Permits s who (R.ST_CMD_W t) 4 → st = 4 → ∃ y : State, exec (.strandEnd who t) s = .next (y.answer .ok) ∧ idle y) ∧
    (∀ c, Permits s who (R.ST_CMD_W t) 5 → st = 3 → s.coreOf t = some c → (s.core c).strand = t.val → s.f (R.DSP_CORE_HALTED c) = 1 →
      ∃ y : State, exec (.strandMigrate who t) s = .next (y.answer .ok) ∧
        y.f (R.ST_STAT_EPOCH t) = (s.f (R.ST_STAT_EPOCH t) + 1) % 2 ^ 8 ∧
        y.f (R.ST_STAT_STATE t) = (if (s.core c).suspReq = 2 then 0 else 2) ∧
        y.f (R.ST_STAT_DETACHED t) = 1 ∧ y.f (R.DSP_CORE_RUN_V c) = 0 ∧
        y.f (R.DSP_CORE_ONLINE c) = (if s.f (R.DSP_CORE_OFFREQ c) = 1 then 0 else s.f (R.DSP_CORE_ONLINE c)) ∧
        ((s.core c).suspReq ≠ 2 → s.f (R.DSP_CORE_OFFREQ c) = 0 → y.core c = { s.core c with detached := true, suspReq := 0, bank := none }) ∧
        ((s.core c).suspReq ≠ 2 → y.strand t = { s.strand t with tagrd := [] }) ∧ (∀ k, k ≠ t.val → y.strand k = s.strand k) ∧
        (∀ a < 16384,
          y.on (R.TAG_CTL_FULL a) = (s.on (R.TAG_CTL_FULL a) || (s.strand t).tagrd.any (fun e => decide (e.1 = a))) ∧
          (s.on (R.TAG_CTL_FULL a) = true → y.f (R.TAG_VALUE a) = s.f (R.TAG_VALUE a)) ∧
          (∀ v l, s.on (R.TAG_CTL_FULL a) = false → v < 2 ^ 32 → (s.strand t).tagrd.filter (fun e => decide (e.1 = a)) = l ++ [(a, v)] →
            y.f (R.TAG_VALUE a) = v)) ∧
        y.f R.DSP_MIGRATE_CNT = min (s.f R.DSP_MIGRATE_CNT + 1) (2 ^ 32 - 1))

/-- Placement and prefetch (R300 to R304). -/
def Obligations.PlacementAndPrefetch : Prop :=
  (∀ (s : State) (c : Fin 36), s.canonical = true →
    let open' := s.on (R.DSP_CORE_ONLINE c) && !s.on (R.DSP_CORE_HALTED c) && !s.on (R.DSP_CORE_OFFREQ c) && !(c.val == 32 && s.boot.rom)
    let can := fun t => s.stOf t = 2 ∧ s.f (R.ST_STAT_DRAINING t) = 0 ∧ s.mayGo t c = true
    let earlier := fun t u : Nat => s.f (R.ST_ATTR_PRIO t) < s.f (R.ST_ATTR_PRIO u) ∨ (s.f (R.ST_ATTR_PRIO t) = s.f (R.ST_ATTR_PRIO u) ∧
      (dt (s.strand t).ready (s.strand u).ready < 0 ∨ (dt (s.strand t).ready (s.strand u).ready = 0 ∧ t < u)))
    let first := fun u => can u ∧ ∀ t < 1024, t ≠ u → can t → earlier u t ∧ ¬earlier t u
    let p := s.f (R.DSP_CORE_PF c)
    let slot := s.f (R.DSP_CORE_PF_V c)
    let within := fun u => slot = 1 ∧ can p ∧ s.f (R.ST_ATTR_PRIO p) ≤ s.f (R.ST_ATTR_PRIO u)
    let runs := fun (u : Nat) (busy : Bool) => ∃ y : State, exec (.strandPlace c) s = .next y ∧ y.f (R.ST_STAT_STATE u) = 3 ∧
      y.f (R.ST_STAT_LASTCORE u) = c.val ∧ y.f (R.DSP_CORE_RUN_V c) = 1 ∧ y.f (R.DSP_CORE_RUN c) = u ∧
      y.f R.DSP_PLACE_CNT = min (s.f R.DSP_PLACE_CNT + 1) (2 ^ 32 - 1) ∧ y.f (R.ST_STAT_PREFETCHED u) = 0 ∧
      y.core c = { s.core c with
        ctx := { (s.strand u).saved with vbase := 2048 * s.f (R.ST_VBASE u), swlo := 16 * s.f (R.ST_SWLO u),
                                         swhi := 16 * s.f (R.ST_SWHI u), holdoff := s.f (R.ST_HOLDOFF_MAX u) },
        strand := u, epoch := s.f (R.ST_STAT_EPOCH u), detached := false, pendq := [], stall := none, bank := none, suspReq := 0,
        pfBusy := busy } ∧
      (∀ d, d ≠ c.val → y.core d = s.core d) ∧ (∀ k, k ≠ u → y.strand k = s.strand k)
    (open' = true → s.coreBusy c = false → ∀ u < 1024, first u → ¬within u → s.on (R.ST_STAT_PREFETCHED u) = false →
      (s.strand u).saved.attempt = none → (s.strand u).errs = [] → runs u (s.core c).pfBusy) ∧
    (open' = true → s.coreBusy c = false → ∀ u < 1024, first u → within u →
      ((s.core c).pfBusy = true → exec (.strandPlace c) s = .next s) ∧
      ((s.core c).pfBusy = false → s.on (R.ST_STAT_PREFETCHED p) = true →
        (∀ d < 36, d ≠ c.val → s.f (R.DSP_CORE_PF_V d) = 0 ∨ s.f (R.DSP_CORE_PF d) ≠ p) →
        (s.strand p).saved.attempt = none → (s.strand p).errs = [] → runs p false)) ∧
    ((open' = false ∨ s.coreBusy c = true ∨ ∀ t < 1024, ¬can t) → exec (.strandPlace c) s = .next s) ∧
    exec (.prefetchDone c) s = .next (s.setCore c { s.core c with pfBusy := false }) ∧
    (open' = true → ∀ u, s.prefetchPick c = some u →
      let fills := fun v : State => ∃ y : State, exec (.prefetch c) s = .next y ∧
        Alike ((((v.set (R.DSP_CORE_PF_V c) 1).set (R.DSP_CORE_PF c) u).set (R.ST_STAT_PREFETCHED u) 1).setCore c
          { s.core c with pfBusy := decide ((s.core c).bank ≠ some u) }) y
      let urgent := s.stOf u = 2 ∧ s.f (R.ST_ATTR_PRIO u) < s.f (R.ST_ATTR_PRIO p)
      (slot = 0 → fills s) ∧
      (slot = 1 → urgent → fills (((s.set (R.DSP_CORE_PF_V c) 0).set (R.DSP_CORE_PF c) 0).set (R.ST_STAT_PREFETCHED p) 0)) ∧
      (slot = 1 → ¬urgent → exec (.prefetch c) s = .next s)) ∧
    (open' = false ∨ s.prefetchPick c = none → exec (.prefetch c) s = .next s)) ∧
  (∀ (s : State) (t : Fin 1024),
    (s.stOf t = 2 ∨ s.stOf t = 3 →
      exec (.affwinExpiry t) s = .next (s.setStrand t { s.strand t with affSeen := some (s.f (R.ST_ATTR_AFFWIN t)) })) ∧
    (s.stOf t ≠ 2 → s.stOf t ≠ 3 → exec (.affwinExpiry t) s = .next s))

/-- Preemption, draining, data that arrives (R305, R306, R268, R269). -/
def Obligations.PreemptionAndDraining : Prop :=
  (∀ (s : State) (c : Fin 36), s.canonical = true →
    let k := s.core c
    let x := k.land.ctx
    (k.suspReq ≠ 0 ∨ s.preemptFor c = none → exec (.preempt c) s = .next s) ∧
    (k.suspReq = 0 → s.preemptFor c ≠ none → k.heldOff = true → exec (.preempt c) s = .next (s.setCore c { k with suspReq := 1 })) ∧
    (k.suspReq = 0 → s.preemptFor c ≠ none → k.heldOff = false →
      ∃ y : State, exec (.preempt c) s = .next y ∧
        Alike ((((((s.set (R.ST_STAT_DRAINING k.strand) (s.strand k.strand).posted.toNat).set (R.DSP_CORE_RUN_V c) 0).set
          (R.DSP_CORE_RUN c) 0).set (R.ST_STAT_STATE k.strand) 2).setStrand k.strand { s.strand k.strand with saved := x, tagrd := [] }).setCore c
            { k with pendq := [], stall := none, detached := false, suspReq := 0, ctx := {}, bank := some k.strand } |>.count R.DSP_PREEMPT_CNT) y) ∧
    (∀ y, k.stall = some y → k.suspReq = 0 → s.on (R.DSP_CORE_OFFREQ c) = false → ∃ z : Ctx, exec (.remoteAccessComplete c) s = .next (s.setCore c { k with stall := none, ctx := z }) ∧
      (∀ r, SMap.wf (fun _ => (0 : Word)) k.ctx.g = true → (∀ w ∈ y.gw, w.1 ≠ r) → z.reg r = k.ctx.reg r) ∧
      (∀ r v, SMap.wf (fun _ => (0 : Word)) k.ctx.g = true → y.gw = [(r, v)] → z.reg r = v) ∧
      (∀ r v, SMap.wf (fun _ => (0 : BitVec 128)) k.ctx.q = true → y.qw = [(r, v)] → z.phys r = v) ∧
      { z with g := k.ctx.g, q := k.ctx.q } = k.ctx) ∧
    (k.stall = none → exec (.remoteAccessComplete c) s = .next s) ∧
    (∀ (i : Nat) (w : QWrite), k.pendq[i]? = some w → k.suspReq = 0 → s.on (R.DSP_CORE_OFFREQ c) = false →
      exec (.qWriteLand c i) s = .next (s.setCore c { k with pendq := k.pendq.eraseIdx i, ctx := k.ctx.setPhys w.reg w.val })) ∧
    (∀ i, k.pendq.length ≤ i → exec (.qWriteLand c i) s = .next s)) ∧
  (∀ (s : State) (t : Fin 1024), s.canonical = true →
    let d := s.f (R.ST_STAT_DRAINING t)
    (d = 1 → exec (.drainComplete t) s =
      .next ((s.set (R.ST_STAT_DRAINING t) 0).setStrand t { s.strand t with posted := false }) ∧
      ∃ y : State, exec (.drainlate t) s = .next y ∧ Alike ((s.set (R.ST_STAT_DRAINING t) 0).count R.DSP_DRAINLATE_CNT) y) ∧
    (d = 0 → exec (.drainComplete t) s = .next s ∧ exec (.drainlate t) s = .next s))

/-- Core requests, SOFT, the parked-strand view (R313, R316, R281, R317). -/
def Obligations.CoreRequestsAndInterrupts : Prop :=
  (∀ (s : State) (who : Requester) (c : Fin 36), s.canonical = true →
    let on := s.f (R.DSP_CORE_ONLINE c)
    (Permits s who (R.DSP_CORE c) (2 ^ 29) →
      (on = 0 → exec (.coreOffreq who c) s = .next (s.answer .ok)) ∧
      (on = 1 → s.f (R.DSP_CORE_RUN_V c) = 0 → s.f (R.DSP_CORE_PF_V c) = 0 →
        ∃ y : State, exec (.coreOffreq who c) s = .next (y.answer .ok) ∧
          Alike (((s.set (R.DSP_CORE_ONLINE c) 0).set (R.DSP_CORE_OFFREQ c) 0).setCore c { s.core c with resetDone := false, suspReq := 0 }) y) ∧
      (on = 1 → s.f (R.DSP_CORE_RUN_V c) = 1 → s.f (R.DSP_CORE_PF_V c) = 0 →
        (s.core c).heldOff = true ∨ s.f (R.DSP_CORE_HALTED c) = 1 →
        exec (.coreOffreq who c) s = .next ((s.set (R.DSP_CORE_OFFREQ c) 1).answer .ok))) ∧
    (Permits s who (R.DSP_CORE c) (2 ^ 28) →
      let ready := (s.core c).resetDone && s.islOn (min c.val 32)
      (on = 0 → ready = true → exec (.coreOnreq who c) s =
        .next (((s.setCore c { s.core c with sfHalt := false, bank := none }).set (R.DSP_CORE_ONLINE c) 1).set
          (R.DSP_CORE_HALTED c) (s.core c).dbgHalt.toNat |>.answer .ok)) ∧
      (on = 1 ∨ ready = false → exec (.coreOnreq who c) s = .next ((s.set (R.DSP_CORE_ONERR c) 1).answer .ok)))) ∧
  (∀ (s : State) (who : Requester) (t : Fin 1024), s.canonical = true →
    (Permits s who R.DSP_SOFT_W (t.val * 2 ^ 16) →
      let sender := who.strand.getD 0
      let u := s.strand t
      (s.f (R.ST_STAT_STATE t) = 0 →
        exec (.softInterrupt who t) s = .next ((s.set R.DSP_IRQDROP_CNT (min (s.f R.DSP_IRQDROP_CNT + 1) (2 ^ 32 - 1))).answer .ok)) ∧
      (s.f (R.ST_STAT_STATE t) ≠ 0 → ∃ y : State, exec (.softInterrupt who t) s = .next (y.answer .ok) ∧
        y.f (R.ST_IPEND t) = s.f (R.ST_IPEND t) ||| 8 ∧
        (SMap.wf (fun _ => 0) u.einfo = true → SMap.get (fun _ => 0) (y.strand t).einfo 3 = sender) ∧
        y.f (R.ST_STAT_STATE t) = (if s.f (R.ST_STAT_STATE t) = 1 ∧ u.saved.ssw.getLsbD 30 = true then 2 else s.f (R.ST_STAT_STATE t)) ∧
        (∀ k, k ≠ t.val → y.strand k = s.strand k) ∧ y.dsp.cores = s.dsp.cores)) ∧
    (Permits s who R.DSP_PV_SEL t.val →
      exec (.parkedViewSelect who t) s = .next ((s.set R.DSP_PV_SEL_STRAND t.val).answer .ok)))

/-- AXIS releases (R84, R85, R118, R307 to R309). -/
def Obligations.AxisReleaseArrival : Prop :=
  ∀ s : State, s.canonical = true → s.fid.pend = [] →
    (s.dsp.posted = [] → exec .releaseArrival s = .next s) ∧
    (∀ (m : RelMsg) (l : List RelMsg) (n : Fin 256), s.dsp.posted = m :: l → leAt m.bytes 0 4 = 0x10300000 + n.val →
      let u := { s with dsp := { s.dsp with posted := l } }
      let f := s.f (R.AX_STRAND_FLOW n)
      let tgt := leAt m.bytes 4 4
      let x := s.ax n
      let far := (min m.core 32, 33) ∈ s.tim.failed
      let fresh := ¬far ∧ m.epoch = s.f (R.ST_STAT_EPOCH m.strand)
      let form := m.addr % 16 = 0 ∧ m.bytes.length = 48
      let mine := s.f (R.FLOW_CTRL_EN f) = 1 ∧ s.f (R.FLOW_CTRL_KIND f) = 1 ∧ m.dom = s.f (R.AX_OWNER_DOM n) ∧
        m.dom = s.f (R.FLOW_CTRL_DOM f) ∧ s.f (R.AX_STRAND_STRAND n) = m.strand
      let woken := tgt = (s.f (R.TAG_VALUE (s.f (R.AX_FB_TAG_TAG n))) + 2 ^ s.fa (R.AX_CTRL_RATE n)) % 2 ^ 32
      let gives := fun v : State => ∃ t : State, exec .releaseArrival s = .next t ∧ Alike v t
      let refused := (u.count (R.FLOW_REFUSED f)).setStrand m.strand { s.strand m.strand with errs := (s.strand m.strand).errs ++ [m.addr] }
      let xref := (BitVec.ofNat 64 (leAt m.bytes 8 8)).toInt
      let h : Held := ⟨f, n, tgt, s.axNow n, xref, leAt m.bytes 16 4, (List.range 4).map (fun i => leAt m.bytes (20 + 2 * i) 2),
        (List.range 3).map (fun i => leAt m.bytes (28 + 2 * i) 2), m.bytes⟩
      let ok := { u.count (R.FLOW_ACCEPT f) with dsp := { u.dsp with held := u.dsp.held ++ [h] } }
      (far → exec .releaseArrival s =
        .next (u.setStrand m.strand { s.strand m.strand with errs := (s.strand m.strand).errs ++ [m.addr] })) ∧
      (¬far → ¬fresh → gives (u.count (R.FLOW_STALE f))) ∧
      (fresh → ¬(form ∧ mine) → gives refused) ∧
      (fresh → form → mine → s.inTime n tgt (s.axNow n) = false → gives ((u.count (R.FLOW_LATE f)).count (R.AX_LATE_CNT n))) ∧
      (fresh → form → mine → s.inTime n tgt (s.axNow n) = true → ¬woken → gives refused) ∧
      (fresh → form → mine → s.inTime n tgt (s.axNow n) = true → woken → (s.heldOf f).length < 256 → s.dx.splice = none →
        (let y := ok.set (R.AX_STATUS_FB_RUN n) 0
         let y := if s.fa (R.AX_CTRL_KIND n) = 3 then y else (y.set64 (R.AX_X_REF_LO n) (R.AX_X_REF_HI n) xref).set (R.AX_V_REF n) h.vref
         gives (y.setAx n { x with
           armed := x.armed || (decide (leAt m.bytes 20 2 % 2 = 1) && decide (s.fa (R.AX_CTRL_MODE n) ≠ 0)), lateDone := false }))))

/-- SEQ releases (R307, R308, R310). -/
def Obligations.SequenceReleaseAndGap : Prop :=
  ∀ (s : State) (f : Fin 64), s.canonical = true →
    let elen := s.f (R.FLOW_ELEN_ELEN f)
    let nent := s.f (R.FLOW_ELEN_NENT f)
    let idx := s.f (R.FLOW_WRIDX f)
    let nx := s.f (R.FLOW_NEXT f)
    let a := s.f (R.FLOW_DEST_LO f) + 2 ^ 32 * s.f (R.FLOW_DEST_HI f) + elen * idx
    let enters := fun (u : State) (b : List Byte) =>
      let b := b.take elen
      let d := s.f (R.FLOW_CTRL_DOM f)
      let u := if nent = 0 then u else if s.engOk islDSP d a b.length .write = true then u.store a b else u.engRefused d a b.length .write
      (u.set (R.FLOW_WRIDX f) (if nent = 0 then 0 else (idx + 1) % nent)).set (R.FLOW_NEXT f) (nx + 1)
    (∀ (m : RelMsg) (l : List RelMsg), s.fid.pend = [] → s.dsp.posted = m :: l → (min m.core 32, 33) ∉ s.tim.failed → m.epoch = s.f (R.ST_STAT_EPOCH m.strand) →
      m.addr % 16 = 0 → 32 ≤ m.bytes.length → m.bytes.length ≤ 256 → leAt m.bytes 2 2 = 0x2000 + m.bytes.length → leAt m.bytes 4 4 = f.val →
      s.f (R.FLOW_CTRL_EN f) = 1 → s.f (R.FLOW_CTRL_KIND f) = 2 → m.dom = s.f (R.FLOW_CTRL_DOM f) →
      let u := { s with dsp := { s.dsp with posted := l } }
      (leAt m.bytes 0 2 = nx → s.heldOf f = [] →
        ∃ t : State, exec .releaseArrival s = .next t ∧ Alike (enters (u.count (R.FLOW_ACCEPT f)) m.bytes) t) ∧
      ((BitVec.ofNat 16 (leAt m.bytes 0 2) - BitVec.ofNat 16 nx).toInt < 0 →
        ∃ t : State, exec .releaseArrival s = .next t ∧ Alike ((u.count (R.FLOW_REFUSED f)).setStrand m.strand
          { s.strand m.strand with errs := (s.strand m.strand).errs ++ [m.addr] }) t)) ∧
    (s.f (R.FLOW_CTRL_KIND f) = 2 → s.heldOf f ≠ [] → (∀ h ∈ s.heldOf f, h.tgt ≠ nx ∧ h.tgt ≠ (nx + 1) % 2 ^ 16) → Instr.releaseArrival ∉ s.pending →
      exec (.seqGapExpiry f) s = .next ((enters s (leBytes 4 (0xFFFF0000 + nx))).count (R.FLOW_SKIPS f))) ∧
    (s.f (R.FLOW_CTRL_KIND f) ≠ 2 ∨ s.heldOf f = [] ∨ (∃ h ∈ s.heldOf f, h.tgt = nx) → exec (.seqGapExpiry f) s = .next s)

/-- Release deadlines (R86, R122, R125, R126, R356). -/
def Obligations.ReleaseDeadlinePayload : Prop :=
  ∀ (s : State) (a : Fin 256), s.canonical = true → s.fid.pend = [] →
    let m := s.deadlineCyc a
    let k := 2 ^ s.fa (R.AX_CTRL_RATE a)
    let past : Bool := match (s.ax a).woken with | some c => decide ((k : Int) ≤ dt m c) | none => false
    let x := if past then { s.ax a with woken := none, old := none } else s.ax a
    let target := m % k = s.fa (R.AX_CTRL_RPHASE a) % k
    let u := { (if past then s.setAx a x else s) with dsp := { s.dsp with
      held := s.dsp.held.filter (fun h => !(decide (h.axis = a.val) && decide (dt h.tgt m ≤ 0))) } }
    let held := if s.locked 33 then s.heldFor a m else none
    let z : Nat := if s.fa (R.AX_CTRL_SPLIT a) ≠ 0 then 0 else 0x8000
    let off := s.fa (R.AX_CTRL_MODE a) = 0 ∨ s.nodeBars a = true ∨ s.axSto a = true
    let forced := fun p : AxCmd => if off then { p with on := false, actl := p.actl / 2 * 2 } else p
    let w := fun (h : Held) (i : Nat) => h.payload.getD i 0
    (s.axisGang a = none → s.boundNode a = none → exec (.releaseDeadline a) s = .next u) ∧
    (s.axisGang a = none → s.boundNode a ≠ none → s.fa (R.AX_CTRL_MODE a) ≠ 7 →
      (∀ h, target → held = some h →
        (let p := forced { on := decide (w h 0 % 2 = 1), actl := w h 0 % 4, w0 := w h 1, w1 := w h 2, w2 := w h 3 }
         exec (.releaseDeadline a) s = .next (u.setAx a { x with
           succ := (match h.succ with | [d0, d1, d2] => some (d0, d1, d2) | _ => none), pay := some p, fixed := some (m, p) }))) ∧
      (target → held = none →
        let run := min (s.f (R.AX_STATUS_FB_RUN a) + 1) 15
        let pol := s.fa (R.AX_SUP_FBPOL a)
        let last := match x.pay with | some p => (p.w0, p.w1, p.w2) | none => (z, z, z)
        let word := if s.fa (R.AX_SUP_FB_LIMIT a) ≤ run ∨ 2 ≤ pol then (z, z, z)
          else if pol = 1 ∧ s.fa (R.AX_CTRL_SPLIT a) = 0 then x.succ.getD (z, z, z) else last
        let spent := s.fa (R.AX_SUP_FB_LIMIT a) ≤ run
        let on := decide (pol ≠ 3) && x.armed && !(decide spent && decide (s.actReg (R.AX_SUP a) / 2 ^ 8 % 4 ≠ 3))
        let p := forced { on := on, actl := on.toNat + 2 * s.fa (R.AX_CTRL_SPLIT a), w0 := word.1, w1 := word.2.1, w2 := word.2.2 }
        ∃ t : State, exec (.releaseDeadline a) s = .next t ∧
          Alike (((u.set (R.AX_STATUS_FB_RUN a) run).count (R.AX_FB_CNT a)).setAx a
            { x with fbAt := (m :: x.fbAt).take 17, succ := none, pay := some p, fixed := some (m, p) }) t) ∧
      (¬target →
        let p := forced (x.pay.getD { on := false, actl := 2 * s.fa (R.AX_CTRL_SPLIT a), w0 := z, w1 := z, w2 := z })
        exec (.releaseDeadline a) s = .next (u.setAx a { x with pay := some p, fixed := some (m, p) }))) ∧
    (∀ q, s.axisGang a = some (q, 1) → s.fa (R.AX_CTRL_MODE a) ≠ 7 →
      (∀ h, target → held = some h → exec (.releaseDeadline a) s = .next (u.setGang q { s.gang q with plan := some (m, some h.xref) })) ∧
      (target → held = none → ∃ t : State, exec (.releaseDeadline a) s = .next t ∧
        Alike (((u.count (R.AX_STATUS_FB_RUN a)).count (R.AX_FB_CNT a)).setAx a { x with fbAt := (m :: x.fbAt).take 17 } |>.setGang q
          { s.gang q with plan := some (m, none) }) t) ∧
      (¬target → exec (.releaseDeadline a) s = .next u))

/-- Supervisor events and limit inputs (R120 to R123, R126, R159, R160). -/
def Obligations.AxisSupervisorEvents : Prop :=
  ∀ (s : State) (a : Fin 256), s.canonical = true →
    let x := s.ax a
    let idle := s.f (R.AX_STATUS_IDRUN a) = 0
    (let lands := ∃ i ∈ s.pending, i = .feedbackLanding a ∨ ∃ q, i = .gangLanding q
     x.feAt ≠ none → ¬lands → ∃ t : State, exec (.feTimerExpiry a) s = .next t ∧ Supervised (s.setAx a { x with feAt := none, feDone := true }) t a 0) ∧
    (x.feAt = none ∨ (Instr.feedbackLanding a ∈ s.pending ∧ x.pending ≠ none ∧ (s.feedbackLanding a).feExceeds a = false) →
      exec (.feTimerExpiry a) s = .next s) ∧
    (let run := s.fa (R.AX_SUP_FBLOSS_CYC a) ≤ x.lossRun ∧ x.lossDone = false
     (run → idle → ∃ t : State, exec (.fblossEvent a) s = .next t ∧ Supervised (s.setAx a { x with lossDone := true }) t a 1) ∧
     (¬run → exec (.fblossEvent a) s = .next s)) ∧
    (let run := s.fa (R.AX_SUP_FB_LIMIT a) ≤ s.f (R.AX_STATUS_FB_RUN a) ∧ x.lateDone = false
     (run → ∃ t : State, exec (.lateEvent a) s = .next t ∧ Supervised (s.setAx a { x with lateDone := true }) t a 4) ∧
     (¬run → exec (.lateEvent a) s = .next s)) ∧
    (∀ neg : Bool,
      let pin := s.fa (if neg then R.AX_LIM_NPIN a else R.AX_LIM_PPIN a)
      let y := s.set (if neg then R.AX_STATUS_LIMN a else R.AX_STATUS_LIMP a) 1
      (pin = 0xFF → exec (.limitInputActive a neg) s = .next s) ∧
      (pin ≠ 0xFF → idle → ∃ t : State, exec (.limitInputActive a neg) s = .next t ∧
        Alike (if s.fa (R.AX_CTRL_MODE a) = 0 then y
               else
                 let now := s.axNow a
                 let ramped := decide (s.fa (R.AX_LIM_ACT a) = 1)
                 y.setAx a { x with lim := match x.lim with
                   | some (t0, r0) => some (if 2 ^ 31 ≤ (now + 2 ^ 32 - t0) % 2 ^ 32 then now else t0, r0 && ramped)
                   | none => some (now, ramped) }) t))

/-- Landings (R88, R102, R194). -/
def Obligations.FeedbackLandingSnapshot : Prop :=
  ∀ (s : State) (a : Fin 256), s.canonical = true → s.fid.pend = [] →
    ((s.ax a).pending = none → exec (.feedbackLanding a) s = .next s) ∧
    (∀ f, (s.ax a).pending = some f → s.fa (R.AX_CTRL_KIND a) = 3 →
      exec (.feedbackLanding a) s = .next (s.setAx a { s.ax a with pending := none })) ∧
    (∀ f, (s.ax a).pending = some f → s.fa (R.AX_CTRL_KIND a) ≠ 3 → ∃ t : State, exec (.feedbackLanding a) s = .next t ∧
      (let ok := f.s.astat.getLsbD 2 && !f.s.astat.getLsbD 1
       let w := s.f (R.AX_AXCAP_POS_BITS a)
       let d := (BitVec.ofNat w f.s.pos.toNat - BitVec.ofNat w (s.f (R.AX_POS_PREV a))).toInt
       t.f (R.AX_FB0_IA a) = f.s.ia.toNat ∧ t.f (R.AX_FB0_ASTAT a) = f.s.astat.toNat ∧ t.f (R.AX_FB1_IB a) = f.s.ib.toNat ∧
       t.f (R.AX_FB1_IC a) = f.s.ic.toNat ∧ t.f (R.AX_POS a) = f.s.pos.toNat ∧ t.f (R.AX_FB3_AUX a) = f.s.aux.toNat ∧
       t.f (R.AX_FB3_VBUS a) = f.s.vbus.toNat ∧ t.f (R.AX_FB_CYC a) = f.cyc % 2 ^ 32 ∧ t.f (R.AX_FB_STAMP a) = s.axNow a ∧
       t.f (R.AX_VALID_VALID a) = ok.toNat ∧ t.f (R.AX_STATUS_FBINVALID a) = (!ok).toNat ∧
       (if ok = true ∧ w ≠ 0 then t.xAct a = (BitVec.ofInt 64 (s.xAct a + d)).toInt ∧ t.f (R.AX_POS_PREV a) = f.s.pos.toNat
        else t.xAct a = s.xAct a ∧ t.f (R.AX_POS_PREV a) = s.f (R.AX_POS_PREV a)) ∧
       (t.ax a).pending = none ∧ (∀ b, b ≠ a.val → t.ax b = s.ax b) ∧ t.net = s.net ∧ t.tim = s.tim ∧
       (let k := 2 ^ s.fa (R.AX_CTRL_RATE a)
        s.fa (R.AX_CTRL_KIND a) ≠ 0 → f.cyc % k = s.fa (R.AX_CTRL_RPHASE a) % k → s.f (R.AX_FB_TAG_TAG a) < 16384 →
          t.f (R.TAG_CTL_FULL (s.f (R.AX_FB_TAG_TAG a))) = 1 ∧ t.f (R.TAG_VALUE (s.f (R.AX_FB_TAG_TAG a))) = f.cyc % 2 ^ 32)))

/-- Axis commands and ends of plans (R180, R185, R141, R143, R131, R132). -/
def Obligations.AxisCommandsAndPlanEnds : Prop :=
  ∀ (s : State) (a : Fin 256), s.canonical = true →
    let x := s.ax a
    let g := x.gen
    (∀ (who : Requester) (gmask : BitVec 11),
      (Permits s who (R.AX_CMT a) (gmask.toNat * 2 ^ 16 + 1) → exec (.axisCommitRequest who a gmask) s =
        .next (((s.set (R.AX_CMT_GMASK a) gmask.toNat).set (R.AX_CMT_GO a) 1).answer .ok)) ∧
      (Permits s who (R.AX_CNTCLR_W a) 1 → exec (.axisCntclr who a) s =
        .next ((((s.set (R.AX_FB_CNT a) 0).set (R.AX_LATE_CNT a) 0).set (R.AX_NUM_CNT a) 0).answer .ok))) ∧
    (g.tgt = none → exec (.profileDone a) s = .next s) ∧
    (∀ p, g.tgt = some p →
      let y := s.setAx a { x with gen := { g with segs := [], x := p, v := 0, a := 0, tgt := none } }
      exec (.profileDone a) s = .next (if s.fa (R.AX_CTRL_MODE a) = 2 then y.set (R.AX_STATUS_PDONE a) 1 else y)) ∧
    (s.f (R.AX_STATUS_STOPPING a) = 0 → exec (.rampedStopEnd a) s = .next s) ∧
    (s.f (R.AX_STATUS_STOPPING a) = 1 → ∃ t : State, exec (.rampedStopEnd a) s = .next t ∧
      t.ax a = { x with gen := { g with segs := [], v := 0, a := 0 }, stop := 0, ran := 1 } ∧ t.f (R.AX_STATUS_STOPPING a) = 0 ∧
      (let stays := s.fa (R.AX_CTRL_MODE a) = 0 ∨ (x.stop ≠ 3 ∧ s.fa (R.AX_CTRL_MODE a) ≠ x.ran)
       (stays → t.fa (R.AX_CTRL_MODE a) = s.fa (R.AX_CTRL_MODE a) ∧ t.f (R.AX_CTRL_MODE a) = s.f (R.AX_CTRL_MODE a)) ∧
       (¬stays → t.fa (R.AX_CTRL_MODE a) = 1 ∧ (s.fa (R.AX_CTRL_MODE a) ≠ 1 → t.f (R.AX_CTRL_MODE a) = 1))) ∧
      (∀ b, b ≠ a.val → t.ax b = s.ax b)) ∧
    (let out := s.f (R.AX_STATUS_IDRUN a) = 1 ∧ 16 * s.fa (R.AX_ID_N_NMEAS a) ≤ x.ident.nv + x.ident.nl
     (¬out → exec (.stepTimeout a) s = .next s) ∧
     (out → ∃ t : State, exec (.stepTimeout a) s = .next t ∧ t.f (R.AX_STATUS_IDRUN a) = 0 ∧
       t.fa (R.AX_CTRL_MODE a) = s.fa (R.AX_CTRL_MODE a) ∧ (∀ b, t.ax b = s.ax b)))

/-- The boundary of a cycle (R79, R80, R180, R181, R206). -/
def Obligations.CycleBoundaryAdvances : Prop :=
  ∀ s : State, s.canonical = true → s.fid.pend = [] → s.dxSt = 0 → s.dx.splice = none → s.tim.swTarget = none → s.ke.held = [] →
    s.kDue ((s.cyc + 1) % 2 ^ 32) = [] → (∀ j < 32, s.f (R.BUS_CFG_EN j) = 0) → s.grid ≤ 1 →
    ∃ t : State, exec .cycleBoundary s = .next t ∧ t.cyc = (s.cyc + 1) % 2 ^ 32 ∧
      (let follows := s.anySending = false ∧ ∃ r < 4, s.rpSt r = rpFollow
       (¬follows → t.cstart s.grid = (s.cstart s.grid + s.tcyc) % 2 ^ 32) ∧
       (follows → t.cstart s.grid = (s.cstart s.grid + s.tim.folTcyc.getD s.tcyc) % 2 ^ 32)) ∧ t.tcyc = s.f R.TB_TCYC ∧
      ∀ n < 256,
        (s.f (R.AX_CMT_GO n) = 1 → t.f (R.AX_CMT_GO n) = 0 ∧ t.f (R.AX_CMT_CYC n) = (s.cyc + 1) % 2 ^ 32) ∧
        (s.f (R.AX_CMT_GO n) = 0 → t.f (R.AX_CMT_CYC n) = s.f (R.AX_CMT_CYC n)) ∧
        (let gt := (List.range 33).map (fun i => R.AX_CTRL n + 0x280 + 4 * i)
         let good := ∀ a ∈ gt, F32.isFinite (toW (s.reg a)) = true ∧ F32.ge (toW (s.reg a)) 0 = true
         s.f (R.AX_CMT_GO n) = 1 → s.f (R.AX_CMT_GMASK n) = 16 →
           (good → ∀ a ∈ gt, t.actReg a = s.reg a) ∧
           (¬good → (∀ a ∈ gt, t.actReg a = s.actReg a) ∧ t.f (R.AX_STATUS_PARERR n) = 1 ∧ bit (t.f (R.AX_CMT_ERR_ERRGRP n)) 4 = true))

/-- Marks (R91, R92). -/
def Obligations.MarkFiring : Prop :=
  ∀ (s : State) (r : Fin 4) (m : Fin 16), s.canonical = true → s.fid.pend = [] →
    let k := 2 ^ s.fa (R.RING_MARK_C_DIVEXP r m)
    let y := s.markCyc r
    let fires := s.fa (R.RING_MARK_C_EN r m) = 1 ∧ y.1 % k = s.fa (R.RING_MARK_C_PHASE r m) % k ∧
      s.fa (R.RING_MARK_T_OFFSET r m) < y.2.2 ∧ s.islOn (ringIsl r) = true ∧ s.locked (ringIsl r) = true ∧ (s.ring r).live = true ∧
      SMap.get (fun _ => 0) (s.ring r).firedIn m ≠ y.1 + 1
    let v := s.modRing r (fun x => { x with firedIn := SMap.put (fun _ => 0) x.firedIn m (y.1 + 1) })
    let tag := s.fa (R.RING_MARK_C_TAG r m)
    let u := s.f (R.DSP_IRT_STRAND (16 * r + m))
    (s.f (R.RING_STAT_STATE r) ≠ 7 ∨ s.anySending = false → y = (s.cyc, s.ringCstart r s.cyc, s.lenCyc)) ∧
    (¬fires → exec (.markFire r m) s = .next s) ∧
    (fires → ∃ t : State, exec (.markFire r m) s = .next t ∧
      bit (t.f (R.RING_MARK_FIRED_FIRED r)) m = true ∧
      (s.fa (R.RING_MARK_C_TAGEN r m) = 1 → t.f (R.TAG_CTL_FULL tag) = 1 ∧ t.f (R.TAG_VALUE tag) = y.1 % 2 ^ 32 ∧
        (s.f (R.TAG_CTL_FULL tag) = 1 → bit (t.f (R.RING_MARK_OVR_OVR r)) m = true)) ∧
      (s.fa (R.RING_MARK_C_TAGEN r m) = 0 → s.fa (R.RING_MARK_C_IRQ r m) = 0 → s.fa (R.RING_MARK_C_SNAP r m) = 0 →
        t = v.set (R.RING_MARK_FIRED_FIRED r) (s.f (R.RING_MARK_FIRED_FIRED r) ||| 2 ^ m.val)) ∧
      (s.fa (R.RING_MARK_C_TAGEN r m) = 0 → s.fa (R.RING_MARK_C_IRQ r m) = 1 →
        (s.f (R.DSP_IRT_EN (16 * r + m)) = 1 → s.f (R.ST_STAT_STATE u) ≠ 0 → bit (t.f (R.ST_IPEND u)) 2 = true) ∧
        (s.f (R.DSP_IRT_EN (16 * r + m)) = 0 → t.f R.DSP_IRQDROP_CNT = min (s.f R.DSP_IRQDROP_CNT + 1) (2 ^ 32 - 1))) ∧
      (s.fa (R.RING_MARK_C_SNAP r m) = 1 → s.pdOn 22 = true → s.host.fill = none →
        t.f R.SNP_STAT_COPY = 1 ∧ t.host.fill.isSome = true))

/-- Activations (R88, R95, R98, R103, R106, R118, R119). -/
def Obligations.StandardLoopActivation : Prop :=
  ∀ (s : State) (n : Fin 256), s.canonical = true → s.fid.pend = [] → s.f R.DX_CTRL_EN = 0 → s.dxSt = 0 →
    let kind := s.fa (R.AX_CTRL_KIND n)
    let k := 2 ^ s.fa (R.AX_CTRL_RATE n)
    let c := s.f (R.TAG_VALUE (s.f (R.AX_FB_TAG_TAG n)))
    let woken := c % k = s.fa (R.AX_CTRL_RPHASE n) % k
    let x := s.ax n
    let real := (kind = 1 ∨ kind = 2) ∧ s.fa (R.AX_CTRL_LOOP n) = 0 ∧ woken ∧ x.old = none
    let wake := if kind = 3 then x.sStamp else s.f (R.AX_FB_STAMP n)
    let stops := x.hard = true ∨ x.hold = true ∨ x.ramp = true ∨ ∃ l, x.lim = some l ∧ (wake + 2 ^ 32 - l.1) % 2 ^ 32 < 2 ^ 31
    let u := s.f (R.AX_STRAND_STRAND n)
    let mine := fun (m : RelMsg) => m.strand = u ∧ m.epoch = s.f (R.ST_STAT_EPOCH u) ∧ m.dom = s.f (R.AX_OWNER_DOM n) ∧
      m.bytes.length = 48 ∧ leAt m.bytes 0 4 = 0x10300000 + n.val ∧ leAt m.bytes 4 4 = (c + k) % 2 ^ 32
    (kind = 0 ∨ (kind ≠ 3 ∧ s.fa (R.AX_CTRL_LOOP n) = 0 ∧ ¬woken) → exec (.standardLoopActivation n) s = .next s) ∧
    (kind ≠ 0 → s.fa (R.AX_CTRL_LOOP n) = 1 → ∃ t : State, exec (.standardLoopActivation n) s = .next t ∧ t.dsp.posted = s.dsp.posted ∧
      (¬stops → t = s.setAx n { x with ran := s.fa (R.AX_CTRL_MODE n) }) ∧
      (stops → (t.ax n).hard = false ∧ (t.ax n).hold = false ∧ (t.ax n).ramp = false ∧
        t.fa (R.AX_CTRL_MODE n) = if s.fa (R.AX_CTRL_MODE n) = 0 then 0 else 1)) ∧
    (real → s.f (R.AX_VALID_VALID n) = 1 → ∃ t : State, exec (.standardLoopActivation n) s = .next t ∧
      (t.ax n).lastN = some c ∧ (t.ax n).woken = none ∧
      ((∃ m, mine m ∧ t.dsp.posted = s.dsp.posted ++ [m]) ∨
       (t.dsp.posted = s.dsp.posted ∧ t.f (R.AX_STATUS_NUMERR n) = 1 ∧
        t.f (R.AX_NUM_CNT n) = min (s.f (R.AX_NUM_CNT n) + 1) (2 ^ 32 - 1))) ∧
      (s.fa (R.AX_CTRL_MODE n) = 0 → ∃ m, mine m ∧ t.dsp.posted = s.dsp.posted ++ [m] ∧ leAt m.bytes 20 2 % 2 = 0 ∧
        leAt m.bytes 8 8 = (BitVec.ofInt 64 (s.xAct n * 65536)).toNat ∧ leAt m.bytes 16 4 = 0)) ∧
    (real → s.f (R.AX_VALID_VALID n) = 0 → ∃ t : State, exec (.standardLoopActivation n) s = .next t ∧
      t.f (R.AX_STATUS_FBINVALID n) = 1 ∧ t.dsp.posted = s.dsp.posted)

/-- Opening a knot (R202, R203, R221, R222). -/
def Obligations.KnotOpening : Prop :=
  (∀ (s : State) (who : Requester) (k : Fin 64) (size : BitVec 10), s.canonical = true → s.dxSt = 0 →
    Permits s who (R.K_CMD k) (2 ^ 28 + size.toNat) →
    let n := size.toNat
    let sized := 1 ≤ n ∧ n ≤ 512
    let st := s.f (R.K_STAT_STATE k)
    (st = 0 → sized → n ≤ s.f R.KE_POOL_FREE →
      ∃ y : State, exec (.knotOpen who k size) s = .next (y.answer .ok) ∧ Opened s y k (who.dom % 2 ^ 8) n) ∧
    (st = 0 → ¬sized → exec (.knotOpen who k size) s = .next ((s.set (R.K_STAT_REASON k) 8).answer .ok)) ∧
    (st = 0 → sized → s.f R.KE_POOL_FREE < n → exec (.knotOpen who k size) s = .next ((s.set (R.K_STAT_REASON k) 9).answer .ok)) ∧
    (st ≠ 0 → exec (.knotOpen who k size) s = .next (s.answer .accessError))) ∧
  (∀ (s u : State) (c : Fin 36) (G : BitVec 4) (rd rs1 rs2 : BitVec 5), Runs s c G { word := 0 } u →
    (u.core c).detached = false → u.dspReach c = .ok →
    let x := (u.core c).ctx
    let g := (x.reg rs1.toNat).toNat
    let n := g % 2 ^ 10
    let gives := fun (y : State) (v : Nat) =>
      exec (.kopen c G rd rs1 rs2) s = .next (y.stalls c 1 { word := 0 } [(rd.toNat, BitVec.ofNat 32 v)] islDSP (R.K_CMD 0))
    let u := u.dspOrder c
    ((∀ k < 64, u.f (R.K_STAT_STATE k) ≠ 0) → gives u 0x8000000A) ∧
    (∀ k < 64, u.f (R.K_STAT_STATE k) = 0 → (∀ j < k, u.f (R.K_STAT_STATE j) ≠ 0) →
      let formed := bit g 15 = false ∧ g / 2 ^ 30 = 0 ∧ g / 2 ^ 12 % 4 ≠ 3
      let why := fun r => gives (u.set (R.K_STAT_REASON k) r) (0x80000000 + r)
      (¬formed → why 11) ∧
      (formed → (n = 0 ∨ 512 < n) → why 8) ∧
      (formed → 1 ≤ n → n ≤ 512 → u.f R.KE_POOL_FREE < n → why 9) ∧
      (formed → 1 ≤ n → n ≤ 512 → n ≤ u.f R.KE_POOL_FREE → ∃ y : State, Opened u y k (x.dom % 2 ^ 8) n ∧
        gives (((((y.set (R.K_CFG_WHEN k) (g / 2 ^ 10 % 2)).set (R.K_CFG_LATEPOL k) (g / 2 ^ 11 % 2)).set (R.K_CFG_FAULT_ACT k)
          (g / 2 ^ 12 % 4)).set (R.K_CFG_TAGEN k) (g / 2 ^ 14 % 2)).set (R.K_CFG_TAG k) (g / 2 ^ 16)) k)))

/-- Adding and closing (R200 to R205, R222). -/
def Obligations.KnotAddAndClose : Prop :=
  let added := fun (u y : State) (k : Nat) (e : List Nat) =>
    let i := u.f (R.K_SIZE_ADDED k)
    let takes := i < u.f (R.K_SIZE_RSIZE k) ∧ u.kAddOk k e = true
    (u.f (R.K_STAT_STATE k) ≠ 1 → y = u) ∧
    (u.f (R.K_STAT_STATE k) = 1 → takes →
      y = (u.setKnot k { u.knot k with ents := (u.knot k).ents ++ [e] }).set (R.K_SIZE_ADDED k) (i + 1)) ∧
    (u.f (R.K_STAT_STATE k) = 1 → ¬takes →
      let v := u.set (R.K_STAT_ADDERR k) 1
      y = if u.f (R.K_ERR_EVALID k) = 1 then v else (v.set (R.K_ERR_EIDX k) i).set (R.K_ERR_EVALID k) 1)
  let closed := fun (u y : State) (k : Nat) =>
    let c := if u.f (R.K_CFG_WHEN k) = 0 then u.f (R.K_CYC k) else (u.cyc + 1) % 2 ^ 32
    let ahead := (BitVec.ofNat 32 c - BitVec.ofNat 32 u.cyc).toInt
    let parts := { u.knot k with parts := [], order := u.ke.closes, fixed := false }
    let v := ((u.set (R.K_STAT_NETWORK k) 0).set (R.K_OUT_NODES k) 0).setKnot k parts
    let v := { v with ke := { v.ke with closes := u.ke.closes + 1 } }
    (u.f (R.K_STAT_STATE k) ≠ 1 → y = u) ∧
    (u.f (R.K_STAT_STATE k) = 1 → (∀ e ∈ (u.knot k).ents, kKind e ≠ 5) →
      (u.f (R.K_STAT_ADDERR k) = 1 → KnotEnded (v.set (R.K_STAT_REASON k) 2) y k 7) ∧
      (u.f (R.K_STAT_ADDERR k) = 0 → u.f (R.K_CFG_WHEN k) = 0 → (ahead < 1 ∨ 1048576 < ahead) →
        KnotEnded (v.set (R.K_STAT_REASON k) 6) y k 7) ∧
      (u.f (R.K_STAT_ADDERR k) = 0 → u.f (R.K_CFG_FAULT_ACT k) ≠ 3 → (u.f (R.K_CFG_WHEN k) = 0 → 1 ≤ ahead ∧ ahead ≤ 1048576) →
        y = ((v.set (R.K_CCYC k) c).setKnot k { parts with fixed := true }).set (R.K_STAT_STATE k) 2))
  (∀ (s : State) (who : Requester) (k : Fin 64), s.canonical = true → s.dxSt = 0 →
    (Permits s who (R.K_CMD k) (2 * 2 ^ 28) → ∃ y : State, exec (.knotAdd who k) s = .next (y.answer .ok) ∧
      added s y k ((List.range 4).map (fun i => s.f (R.K_ENT k i)))) ∧
    (Permits s who (R.K_CMD k) (3 * 2 ^ 28) → ∃ y : State, exec (.knotClose who k) s = .next (y.answer .ok) ∧ closed s y k)) ∧
  (∀ (s u : State) (c : Fin 36) (G : BitVec 4) (rd rs1 rs2 : BitVec 5), Runs s c G { word := 0 } u →
    (u.core c).detached = false → u.dxSt = 0 →
    let x := (u.core c).ctx
    let k := (x.reg rs1.toNat).toNat
    let gp := (x.reg rs2.toNat).toNat
    k < 64 →
    (∀ a, gp % 16 = 0 → (∀ i < 4, Reaches u c ((gp + 4 * i) % 2 ^ 32) 4 0 (a + 4 * i) .read) →
      u.check (u.coreWho c) (R.K_CMD k) 4 (2 * 2 ^ 28) .write = .ok → u.dspOrder c = u →
      ∃ (f : Nat) (y : State), exec (.kadd c G rd rs1 rs2) s = .next (y.stalls c 1 { word := 0 } [] islDSP (R.K_CMD k)) ∧
        added { u with free := f } y k ((List.range 4).map (fun i => u.rd (a + 4 * i) 4))) ∧
    (Permits u (u.coreWho c) (R.K_CMD k) (3 * 2 ^ 28) → ∃ y : State, exec (.kclose c G rd rs1 rs2) s =
      .next ((y.setStrand (y.core c).strand { y.strand (y.core c).strand with posted := true }).ctxTo c ((y.core c).ctx.after 1)) ∧
      closed u y k))

/-- Announcement, decision, confirmation, cancel, release (R203, R210, R211, R214, R216, R218). -/
def Obligations.KnotDecisionAndEnds : Prop :=
  ∀ (s : State) (who : Requester) (k : Fin 64), s.canonical = true → s.dxSt = 0 →
    let st := s.f (R.K_STAT_STATE k)
    let x := s.knot k
    let c := s.f (R.K_CCYC k)
    let prev := (c + 2 ^ 32 - 1) % 2 ^ 32
    let named := fun r => x.parts.any (fun p => p.ring == r)
    (Permits s who (R.K_CMD k) (4 * 2 ^ 28) →
      (st = 1 ∨ st = 2 → ∃ y : State, exec (.knotSlotCancel who k) s = .next (y.answer .ok) ∧
        KnotEnded (s.set (R.K_STAT_REASON k) 1) y k 7) ∧
      (st = 0 ∨ st = 5 ∨ st = 6 ∨ st = 7 → exec (.knotSlotCancel who k) s = .next (s.answer .ok))) ∧
    (Permits s who (R.K_CMD k) (5 * 2 ^ 28) →
      let used : Fld := if k.val < 32 then ⟨R.KE_USED_LO_W, k, k⟩ else ⟨R.KE_USED_HI_W, k - 32, k - 32⟩
      (st = 6 ∨ st = 7 → exec (.knotRelease who k) s =
        .next ((((s.set (R.K_STAT_STATE k) 0).set used 0).setKnot k {}).answer .ok)) ∧
      (st < 6 → exec (.knotRelease who k) s = .next (s.answer .ok))) ∧
    (st = 3 → x.fixed = true → (∀ p ∈ x.parts, p.sealed = true ∧ p.ring < 4) → ∃ y : State, exec (.knotAnnounce k) s = .next y ∧
      y.f (R.K_STAT_STATE k) = 4 ∧ y.axes = s.axes ∧ y.ke = s.ke ∧
      ∀ r < 4, (y.ring r).kann = (s.ring r).kann ++ (if named r = true then [{ knot := k, ccyc := c }] else [])) ∧
    (st ≠ 3 ∨ x.fixed = false → exec (.knotAnnounce k) s = .next s) ∧
    (let armed := ∀ p ∈ x.parts, p.gone = false ∧ ∃ m, SMap.get (fun _ => ((0 : Nat), (0 : Nat), (0 : Nat))) (s.ring p.ring).nstat p.addr = (m, k.val, prev)
     let told := fun (y : State) (go : Bool) =>
       ∀ r < 4, (y.ring r).kdec = (s.ring r).kdec ++ (if named r = true then [{ knot := k, ccyc := c, go := some go }] else [])
     st = 4 → (∀ p ∈ x.parts, p.ring < 4) →
     (armed → (∀ e ∈ x.ents, kKind e = 5) → ∃ y : State, exec (.knotDecide k) s = .next y ∧
       y.f (R.K_STAT_STATE k) = 5 ∧ y.ke = s.ke ∧ y.axes = s.axes ∧ told y true) ∧
     (¬armed → ∃ y : State, exec (.knotDecide k) s = .next y ∧ y.f (R.K_STAT_STATE k) = 7 ∧ y.f (R.K_STAT_REASON k) = 5 ∧ told y false)) ∧
    (st ≠ 4 → exec (.knotDecide k) s = .next s) ∧
    (st = 5 → (∀ p ∈ x.parts, p.gone = false ∧ p.rep1 = some (0, false)) → ∃ y : State, exec (.knotConfirmEnd k) s = .next y ∧
      KnotEnded ((s.set (R.K_OUT_LATE k) 0).set (R.K_OUT_MISSED k) 0) y k 6) ∧
    (st = 5 → x.parts ≠ [] → (∀ p ∈ x.parts, p.gone = true ∧ p.ring < 4 ∧ 1 ≤ p.addr ∧ p.addr ≤ 64) →
      ∃ y : State, exec (.knotConfirmEnd k) s = .next y ∧ y.f (R.K_STAT_STATE k) = 6 ∧ y.f (R.K_STAT_FAULTED k) = 1 ∧
        y.f (R.K_OUT_MISSED k) = x.parts.length % 2 ^ 9 ∧
        ∀ p ∈ x.parts, bit (y.reg (0x10302800 + 0x20 * k + 4 * (2 * p.ring + (p.addr - 1) / 32))) ((p.addr - 1) % 32) = true) ∧
    (st ≠ 5 → exec (.knotConfirmEnd k) s = .next s)

/-- Writes of the time base (R226 to R228, R231, R232, R240). -/
def Obligations.TimeBaseWrites : Prop :=
  ∀ (s : State) (who : Requester) (d : Fin 2), s.canonical = true →
    let c := s.dom d
    let modulus : Int := 2 ^ 32 * 256000000000000
    (∀ v : Word, Permits s who (R.TD_OFS_IN_W d) v.toNat →
      let i := v.toInt
      let own := s.f (R.TD_CFG_SRC d) = 1 ∧ (s.tim.swTarget = none ∨ s.grid ≠ d)
      let u := s.set (R.TD_STAT_HOLDOVER d) 0
      let big := 16 * s.f (R.TD_STEP_LIM d) < i.natAbs ∧ s.f (R.TD_CFG_STEP_EN d) = 1
      let slews := u.setDom d { c with resid := i * 16000000000000 }
      (¬own → exec (.ofsInWrite who d v) s = .next (u.answer .ok)) ∧
      (own → ¬big → exec (.ofsInWrite who d v) s = .next (slews.answer .ok)) ∧
      (own → big → (∀ r < 4, s.sending r = false) → exec (.ofsInWrite who d v) s = .next ((u.setDom d { c with
        phase := (((c.phase : Int) + i * 16000000000000) % modulus).toNat,
        laps := ((c.laps : Int) + ((c.phase : Int) + i * 16000000000000) / modulus).toNat, resid := 0, pend := c.pend + i * 16000000000000 }).answer .ok)) ∧
      (own → big → (∃ r < 4, s.sending r = true ∧ s.fa (R.RING_CTRL_TDOM r) = d) →
        exec (.ofsInWrite who d v) s = .next ((slews.set (R.TD_STAT_STEPDENY d) 1).answer .ok))) ∧
    (∀ v : Word, Permits s who (R.TD_RATE_W d) v.toNat → exec (.rateWrite who d v) s =
      .next ((s.set (R.TD_RATE d) (BitVec.ofInt 32 (max (-51200000) (min 51200000 v.toInt))).toNat).answer .ok)) ∧
    (s.f (R.TD_CFG_SRC d) = 1 → s.f (R.TD_STAT_HOLDOVER d) = 0 →
      ∃ t : State, exec (.holdover d) s = .next t ∧ Alike (s.set (R.TD_STAT_HOLDOVER d) 1) t) ∧
    (s.f (R.TD_CFG_SRC d) ≠ 1 ∨ s.f (R.TD_STAT_HOLDOVER d) = 1 → exec (.holdover d) s = .next s) ∧
    (Permits s who R.TB_SW (2 ^ 31 + d.val) →
      let u := s.set R.TB_SW_TARGET d
      let away := (BitVec.ofNat 32 (s.now d) - BitVec.ofNat 32 (s.now s.grid)).toInt.natAbs
      let go := d.val ≠ s.grid ∧ s.tim.swTarget = none
      (¬go → exec (.switchOverStart who d) s = .next (u.answer .ok)) ∧
      (go → s.f R.TB_SW_MAXOFS < away → exec (.switchOverStart who d) s = .next ((u.set R.TB_STAT_SWERR 1).answer .ok)) ∧
      (go → away ≤ s.f R.TB_SW_MAXOFS → ∃ δ : Int, -modulus ≤ 2 * δ ∧ 2 * δ < modulus ∧
        (∃ q : Int, δ = (c.phase : Int) - (s.dom s.grid).phase + q * modulus) ∧
        (let v := (u.set R.TB_STAT_SWBUSY 1).setDom s.grid { s.dom s.grid with resid := δ }
         exec (.switchOverStart who d) s = .next ({ v with tim := { v.tim with swTarget := some d.val } }.answer .ok)))) ∧
    (Permits s who R.TB_SNAP_W 1 → exec (.timeSnap who) s = .next (((s.set (R.TD_SNAP 0) (s.now 0)).set (R.TD_SNAP 1) (s.now 1)).answer .ok)) ∧
    (∀ hi : BitVec 16, Permits s who (R.TD_EPOCH_SEC_HI_W d) hi.toNat → exec (.epochWrite who d hi) s =
      let e := s.f (R.TD_EPOCH_SEC_LO d) + 2 ^ 32 * hi.toNat
      .next (((s.set (R.TD_EPOCH_SEC_HI d) hi.toNat).setDom d
        { c with epochRef := s.f (R.TD_EPOCH_REF d), epochNs := s.f (R.TD_EPOCH_NS d), epochSec := e }).answer .ok)) ∧
    (∀ tx : Bool, PermitsRead s who (if tx then R.PTP_TX_INFO d else R.PTP_RX_INFO d) →
      (∀ p l, s.ptpFifo tx d = p :: l → p.seqId < 2 ^ 16 → p.msgType < 16 → p.frac < 16 →
        exec (.ptpFifoRead who d tx) s = .next ((s.setPtpFifo tx d l).answer (.data (p.seqId * 2 ^ 16 + p.msgType * 256 + p.frac * 16 + 1)))) ∧
      (s.ptpFifo tx d = [] → exec (.ptpFifoRead who d tx) s = .next ((s.setPtpFifo tx d []).answer (.data 0))))

/-- TEO, TCI and timed actions (R24, R25, R238 to R240). -/
def Obligations.TimedOutputsAndCaptures : Prop :=
  (∀ (s : State) (who : Requester) (i : Fin 32), s.canonical = true → SMap.wf (fun _ => ({} : TeoQ)) s.tim.teo = true →
    let q := s.teo i
    let behind := fun t u : Nat => (BitVec.ofNat 32 t - BitVec.ofNat 32 u).toInt < 0
    let g := s.f (R.TEO_CFG_TDOM i)
    let misses := fun (t now : Nat) (e : Option (Nat × Nat)) => behind t now ∨ ∃ p, e = some p ∧
      behind t (if p.1 = g then p.2 else (BitVec.ofInt 32 ((s.now g : Int) + (BitVec.ofNat 32 p.2 - BitVec.ofNat 32 (s.now p.1)).toInt)).toNat)
    (∀ act : Fin 4, Permits s who (R.TEO_Q_ACT i) act.val →
      let t := s.f (R.TEO_Q_STAMP i)
      let now := s.now g
      (16 ≤ q.queue.length → ∃ y : State, exec (.teoPush who i act) s = .next (y.answer .ok) ∧ Alike (s.set (R.TEO_STAT_OVF i) 1) y) ∧
      (q.queue ≠ [] → q.queue.length < 16 → exec (.teoPush who i act) s =
        .next ((s.setTeo i { q with queue := q.queue ++ [(t, act.val)] }).answer .ok)) ∧
      (q.queue = [] → ¬misses t now q.pulseEnd → exec (.teoPush who i act) s =
        .next ((s.setTeo i { q with queue := [(t, act.val)] }).answer .ok)) ∧
      (q.queue = [] → misses t now q.pulseEnd → ∃ y : State, exec (.teoPush who i act) s = .next (y.answer .ok) ∧
        Alike ((s.count (R.TEO_STAT_LATE i)).setTeo i q) y)) ∧
    (Permits s who (R.TEO_Q_ACT i) (2 ^ 31) → exec (.teoFlush who i) s = .next ((s.setTeo i { q with queue := [] }).answer .ok)) ∧
    (q.queue = [] → exec (.teoAction i) s = .next s) ∧
    (∀ t a rest, q.queue = (t, a) :: rest → a < 4 →
      let pulse := if a = 3 then some (g, (t + s.f (R.TEO_CFG_WIDTH i)) % 2 ^ 32) else none
      (∀ h, rest.head? = some h → ¬misses h.1 t pulse) →
      let pin := if a = 2 then !q.pin else decide (a ≠ 1)
      exec (.teoAction i) s = .next (s.setTeo i { queue := rest, pin := pin, pulseEnd := pulse })) ∧
    (q.pulseEnd = none → exec (.teoPulseClear i) s = .next s) ∧
    (q.pulseEnd ≠ none → exec (.teoPulseClear i) s = .next (s.setTeo i { q with pin := false, pulseEnd := none }))) ∧
  (∀ (s : State) (i : Fin 32) (rising : Bool), s.canonical = true → SMap.wf (fun _ => ({} : TciF)) s.tim.tci = true →
    let q := s.tci i
    let stamp := (BitVec.ofNat 32 (s.now (s.f (R.TCI_CFG_TDOM i))) - BitVec.ofNat 32 (s.f (R.TCI_CFG_FILT i))).toNat
    let taken := s.f (R.TCI_CFG_EN i) = 1 ∧ bit (s.f (R.TCI_CFG_EDGE i)) (if rising then 0 else 1) = true
    let tag := s.f (R.TCI_CFG_TAG i)
    (∀ g < 16, s.fa (R.PC_STP_CTRL_GANG (4 * g)) ≠ 1) →
    ∃ t : State, exec (.tciCapture i rising) s = .next t ∧
      (¬taken → t.tim = s.tim) ∧
      (taken → q.fifo.length < 16 → t.tci i = { fifo := q.fifo ++ [⟨stamp, rising, q.seq⟩], seq := (q.seq + 1) % 65536 } ∧
        t.f (R.TCI_STAT_DEPTH i) = q.fifo.length + 1) ∧
      (taken → 16 ≤ q.fifo.length → t.tci i = { q with seq := (q.seq + 1) % 65536 } ∧ t.f (R.TCI_STAT_OVF i) = 1) ∧
      (taken → s.f (R.TCI_CFG_TAGEN i) = 1 → t.f (R.TAG_CTL_FULL tag) = 1 ∧ t.f (R.TAG_VALUE tag) = stamp ∧
        (s.f (R.TAG_CTL_FULL tag) = 1 → t.f (R.TCI_STAT_TAGOVR i) = 1))) ∧
  (∀ (s : State) (who : Requester) (i : Fin 32), s.canonical = true → PermitsRead s who (R.TCI_HEAD_INFO i) →
    (∀ h l, (s.tci i).fifo = h :: l → h.seq < 2 ^ 16 → exec (.tciHeadRead who i) s =
      .next ((s.setTci i { s.tci i with fifo := l }).answer (.data (2 ^ 31 + h.level.toNat * 2 ^ 30 + h.seq)))) ∧
    ((s.tci i).fifo = [] → exec (.tciHeadRead who i) s = .next ((s.setTci i (s.tci i)).answer (.data 0)))) ∧
  (∀ (s : State) (isl : Fin 44) (out : Nat) (dom : Fin 2) (tAct : Word) (value : Nat),
    let left := (tAct - BitVec.ofNat 32 (s.rnow dom)).toInt
    (0 ≤ left → exec (.timedActionArrival isl out dom tAct value) s =
      .next { s with tim := { s.tim with actions := s.tim.actions ++ [⟨isl, out, dom, tAct.toNat, value⟩] } }) ∧
    (left < 0 → ∃ t : State, exec (.timedActionArrival isl out dom tAct value) s = .next t ∧
      (let m := SMap.put (fun _ => 0) s.tim.lateCnt isl (min (SMap.get (fun _ => 0) s.tim.lateCnt isl + 1) (2 ^ 32 - 1))
       Alike { s with tim := { s.tim with lateCnt := m } } t))) ∧
  (∀ (s : State) (isl : Fin 44) (out : Nat),
    ((∀ x ∈ s.tim.actions, x.isl = isl.val → x.out ≠ out) → exec (.timedActionPerform isl out) s = .next s) ∧
    (∀ l m x, s.tim.actions = l ++ x :: m → x.isl = isl.val → x.out = out → (∀ y ∈ l ++ m, y.isl = isl.val → y.out ≠ out) →
      let left := (BitVec.ofNat 32 x.tAct - BitVec.ofNat 32 (s.rnow x.dom)).toInt
      let u := { s with tim := { s.tim with actions := l ++ m, outs := SMap.put (fun _ => 0) s.tim.outs (isl.val * 2 ^ 32 + out) x.value } }
      let gate := 36 ≤ isl.val ∧ isl.val < 40 ∧ out < 16
      (0 ≤ left → ¬gate → exec (.timedActionPerform isl out) s = .next u) ∧
      (0 ≤ left → gate → ∃ t : State, exec (.timedActionPerform isl out) s = .next t ∧ t.tim = u.tim ∧
        (let c := 16 * (isl.val - 36) + out
         s.canonical = true → s.alone c → s.follows c → (t.chan c).reqH = bit x.value 0 ∧ (t.chan c).reqL = bit x.value 1)) ∧
      (left < 0 → ∃ t : State, exec (.timedActionPerform isl out) s = .next t ∧ t.tim.actions = l ++ m ∧ t.tim.outs = s.tim.outs)) ∧
    (∀ l m n x y, s.tim.actions = l ++ x :: m ++ y :: n → x.isl = isl.val → x.out = out → y = { x with value := y.value } →
      (∀ z ∈ l ++ m ++ n, z.isl = isl.val → z.out ≠ out) →
      0 ≤ (BitVec.ofNat 32 x.tAct - BitVec.ofNat 32 (s.rnow x.dom)).toInt →
      ∃ t : State, exec (.timedActionPerform isl out) s = .next t ∧ t.tim.actions = l ++ m ++ n ∧
        SMap.get (fun _ => 0) t.tim.outs (isl.val * 2 ^ 32 + out) = y.value))

/-- Replicas and crossings (R20 to R22, R226). -/
def Obligations.BeaconsReplicasAndCrossings : Prop :=
  (∀ (s : State) (seen : BitVec 44), s.canonical = true → s.tim.swTarget = none → ∃ t : State, exec (.beacon seen) s = .next t ∧
    (∀ i < 44, t.rep i =
      if i ∈ ([33, 34, 35, 36, 37, 38, 39, 41, 42] : List Nat) then
        (if seen.getLsbD i = true ∧ s.islOn i = true then { s.rep i with good := min ((s.rep i).good + 1) 64, miss := 0 }
         else { s.rep i with good := 0, miss := min ((s.rep i).miss + 1) 4 })
      else s.rep i) ∧
    (∀ d : Fin 2, t.dom d = { s.dom d with pend := 0 }) ∧ { t with tim := s.tim } = s) ∧
  (∀ (s : State) (i : Fin 44), s.canonical = true →
    let r := s.rep i
    (64 ≤ r.good → exec (.replicaLock i) s = .next (s.setRep i { r with locked := true })) ∧
    (r.good < 64 → exec (.replicaLock i) s = .next s) ∧
    (r.miss < 4 ∨ r.locked = false → exec (.replicaUnlock i) s = .next s) ∧
    (4 ≤ r.miss → r.locked = true → ∃ t : State, exec (.replicaUnlock i) s = .next t ∧ t.rep i = { r with locked := false } ∧
      (∀ b < 4, i.val = 36 + b → ∀ j < 16, t.f (R.PC_STAT_LOCK (16 * b + j)) = 1))) ∧
  (∀ (s : State) (a b : Fin 44), ∃ y : State, exec (.crossingTimerExpiry a b) s = .next (y.answer .accessError) ∧
    (let waits := fun c : Nat => ∃ st w, (s.core c).stall = some st ∧ st.far = some w ∧ min c 32 = a.val ∧ w.1 = b.val
     let u := { s with tim := { s.tim with failed := if (a.val, b.val) ∈ s.tim.failed then s.tim.failed else s.tim.failed ++ [(a.val, b.val)] } }
     ((∀ c < 36, ¬waits c) → Alike u y) ∧
     (∀ (c : Fin 36) (st : Stall) (w : Nat × Nat), (∀ d < 36, d ≠ c.val → ¬waits d) → (s.core c).stall = some st → st.far = some w →
       min c.val 32 = a.val → w.1 = b.val → ∃ v, Alike u v ∧
         y = (v.setCore c { v.core c with stall := none, ctx := { (v.core c).ctx with
           pc := st.back.pc, ds := st.back.ds, tk := st.back.tk, bta := st.back.bta, lc0 := st.back.lc0, lc1 := st.back.lc1,
           sld := st.back.sld } }).exc c vAccess w.2)))

/-- Commands of a ring port (R60, R62, R74, R77). -/
def Obligations.RingPortCommands : Prop :=
  ∀ (s : State) (who : Requester) (r : Fin 4), s.canonical = true → s.dxSt = 0 →
    let st := s.f (R.RING_STAT_STATE r)
    let x := s.ring r
    let fresh : Ring := { nstat := x.nstat, live := x.live, caps := x.caps, fol := x.fol, firedIn := x.firedIn,
                          mseqs := x.mseqs.map (fun m => (m.1, { m.2 with busy := none })) }
    let sending := 2 ≤ st ∧ st ≤ 6
    let on := s.f (R.RING_CTRL_EN r) = 1
    (PermitsF s who (R.RING_CTRL_EN r) 1 →
      let u := s.set (R.RING_CTRL_EN r) 1
      (st = 0 → s.f (R.RING_OUI r) = 0 → s.f (R.RING_CTRL_RUN r) = 0 →
        exec (.ringPortEnable who r) s = .next ((u.set (R.RING_STAT_CFGERR r) 1).answer .ok)) ∧
      (st = 0 → s.f (R.RING_OUI r) ≠ 0 → s.f (R.RING_CTRL_RUN r) = 0 → exec (.ringPortEnable who r) s =
        .next ((((u.set (R.RING_STAT_CFGERR r) 0).setRing r fresh).set (R.RING_STAT_STATE r) 1).answer .ok)) ∧
      (st ≠ 0 → st ≠ 4 → exec (.ringPortEnable who r) s = .next (u.answer .ok))) ∧
    (PermitsF s who (R.RING_CTRL_EN r) 0 →
      let u := s.set (R.RING_CTRL_EN r) 0
      (sending → exec (.ringPortDisable who r) s = .next ((u.setRing r { x with stopping := true }).answer .ok)) ∧
      (¬sending → exec (.ringPortDisable who r) s = .next (((u.setRing r fresh).set (R.RING_STAT_STATE r) 0).answer .ok))) ∧
    (PermitsF s who (R.RING_CTRL_RUN r) 1 → on →
      let u := s.set (R.RING_CTRL_RUN r) 1
      (st = 4 → exec (.ringRun who r) s = .next ((u.setRing r { x with runAt := some ((s.cyc + 1) % 2 ^ 32) }).answer .ok)) ∧
      (st ≠ 0 → st ≠ 4 → exec (.ringRun who r) s = .next (u.answer .ok))) ∧
    (PermitsF s who (R.RING_CTRL_REDISCOVER r) 1 → on → (sending ∨ st = 8) →
      let v := s.f (R.RING_PORT_CFG_SPEED r)
      let link := fun (up : Fld) (speed : Fld) => if s.f up = 1 then min 2 (s.f speed) else 0
      let slow := max (link (R.RING_PORT_STAT_HEAD_LINK r) (R.RING_PORT_STAT_HEAD_SPEED r))
        (link (R.RING_PORT_STAT_TAIL_LINK r) (R.RING_PORT_STAT_TAIL_SPEED r))
      (v < 3 ∨ slow = 0 → exec (.ringRediscover who r) s = .next ((((((s.set (R.RING_STAT_SPEED r) (v % 3)).setRing r fresh).set
        (R.RING_STAT_BREAK r) 0).setReg (R.RING_TOPO r) 0).set (R.RING_STAT_STATE r) 2).answer .ok)) ∧
      (v = 3 → slow ≠ 0 → ∃ y : State, exec (.ringRediscover who r) s = .next (y.answer .ok) ∧ y.ring r = fresh ∧
        y.f (R.RING_STAT_STATE r) = 2 ∧ y.f (R.RING_STAT_SPEED r) = slow ∧ y.f (R.RING_STAT_SPEED_DOWN r) = 1)) ∧
    (PermitsF s who (R.RING_CTRL_HEAL r) 1 → on →
      let u := s.f (R.RING_TOPO_BREAK_U r)
      let v := s.f (R.RING_TOPO_BREAK_V r)
      let up := fun t : Option Nat => ∃ t0, t = some t0 ∧ s.f (R.RING_HEAL_WAIT r) * 1000000 + t0 ≤ s.long (s.fa (R.RING_CTRL_TDOM r))
      (st ≠ 0 → st ≠ 4 → st ≠ 6 → exec (.ringHeal who r) s = .next (s.answer .ok)) ∧
      (st = 6 → x.heal = 0 → u ≠ 0 → v ≠ 0 → up x.upU → up x.upV →
        exec (.ringHeal who r) s = .next ((s.setRing r { x with heal := 1, healVals := [], loopOutTo := 0, sentDelay := [] }).answer .ok)) ∧
      (st = 6 → x.heal = 0 → u ≠ 0 → v ≠ 0 → x.upU = none ∨ x.upV = none →
        exec (.ringHeal who r) s = .next ((s.set (R.RING_STAT_HEALERR r) 1).answer .ok))) ∧
    (PermitsF s who (R.RING_CTRL_CNTCLR r) 1 → on → st ≠ 0 → st ≠ 4 →
      ∃ y : State, exec (.ringCntclr who r) s = .next (y.answer .ok) ∧ { y with regs := s.regs } = s ∧
        ∀ a, y.reg a = if a ∈ (List.range 7).map (fun i => R.RING_FCS_ERR_W r + 4 * i) then 0 else s.reg a) ∧
    (∀ a : Fin 64, PermitsF s who (R.RING_NT_STATE_ACCEPT r a) 1 → exec (.nodeAccept who r a) s =
      .next ((s.setRing r { x with mbox := x.mbox ++ [{ addr := a.val + 1, mop := 1, obj := 4, data := [], use := 6 }] }).answer .ok))

/-- Events of a ring port (R40, R43, R54, R61, R62, R65, R73, R74, R76, R77). -/
def Obligations.RingPortEvents : Prop :=
  ∀ (s : State) (r : Fin 4), s.canonical = true → s.dxSt = 0 → s.fid.pend = [] →
    let st := s.f (R.RING_STAT_STATE r)
    let x := s.ring r
    let fresh : Ring := { nstat := x.nstat, live := x.live, caps := x.caps, fol := x.fol, firedIn := x.firedIn,
                          mseqs := x.mseqs.map (fun m => (m.1, { m.2 with busy := none })) }
    let live := s.islOn (ringIsl r) = true
    let quiet := ∀ tail f, Instr.ringFrameReceive r tail f ∉ s.pending
    (∀ (tail up : Bool) (speed : Fin 3),
      let u := if tail then (s.set (R.RING_PORT_STAT_TAIL_LINK r) up.toNat).set (R.RING_PORT_STAT_TAIL_SPEED r) speed
        else (s.set (R.RING_PORT_STAT_HEAD_LINK r) up.toNat).set (R.RING_PORT_STAT_HEAD_SPEED r) speed
      (st ≠ 3 → st ≠ 2 ∨ s.f (R.RING_PORT_CFG_SPEED r) < 3 → exec (.portLinkChange r tail up speed) s = .next u) ∧
      (st = 3 → s.f (R.RING_PORT_CFG_SPEED r) < 3 → exec (.portLinkChange r tail up speed) s =
        .next ((((u.setRing r fresh).set (R.RING_STAT_BREAK r) 0).setReg (R.RING_TOPO r) 0).set (R.RING_STAT_STATE r) 2))) ∧
    (st ≠ 1 → exec (.listenWindowExpiry r) s = .next s) ∧
    (st = 1 → s.f (R.RING_PORT_CFG_SPEED r) < 3 → exec (.listenWindowExpiry r) s =
      .next (((((s.set (R.RING_STAT_SPEED r) (s.f (R.RING_PORT_CFG_SPEED r))).setRing r fresh).set
        (R.RING_STAT_BREAK r) 0).setReg (R.RING_TOPO r) 0).set (R.RING_STAT_STATE r) 2)) ∧
    (x.heal ≠ 3 → exec (.healTimeout r) s = .next s) ∧
    (x.heal = 3 → quiet → ∃ t : State, exec (.healTimeout r) s = .next t ∧ Alike ((s.set (R.RING_STAT_HEALERR r) 1).setRing r
      { x with heal := 0, healVals := [], healAt := none, sentDelay := [], loopOutTo := s.f (R.RING_TOPO_BREAK_U r) }) t) ∧
    (st ≠ 5 ∨ ¬live → exec (.returnLimitExpiry r) s = .next s) ∧
    (st = 5 → live → x.retCyc ≠ s.cyc → quiet → ∃ t : State, exec (.returnLimitExpiry r) s = .next t ∧
      Alike ((s.set (R.RING_STAT_BREAK r) 1).set (R.RING_STAT_STATE r) 6) t) ∧
    (∀ a : Fin 64,
      let nt := s.f (R.RING_NT_STATE_STATE r a)
      let gone := (nt = 1 ∨ nt = 4) ∧ s.f (R.RING_MISS_LIMIT r) ≤ SMap.get (fun _ => 0) x.missRun (a.val + 1)
      (¬gone → exec (.nodeMissing r a) s = .next s) ∧
      (gone → ∃ t : State, exec (.nodeMissing r a) s = .next t ∧ t.f (R.RING_NT_STATE_STATE r a) = 3 ∧
        (t.ring r).drop = (a.val + 1) :: x.drop.filter (· != a.val + 1) ∧ (t.ring r).mbox = x.mbox.filter (fun q => x.reqAddr q.addr != a.val + 1) ∧
        (x.heal ≠ 0 → s.f (R.RING_TOPO_BREAK_U r) = a.val + 1 ∨ s.f (R.RING_TOPO_BREAK_V r) = a.val + 1 →
          (t.ring r).heal = 0 ∧ t.f (R.RING_STAT_HEALERR r) = 1) ∧
        ∀ n ∈ s.nodeAxes r (a.val + 1), s.fa (R.AX_CTRL_KIND n) ≠ 3 → t.f (R.AX_STATUS_NODEMISS n) = 1) ∧
      (let freed := nt = 3 ∧ ∀ g ∈ x.grants, g.addr ≠ a.val + 1
       (¬freed → exec (.nodeRetryExpiry r a) s = .next s) ∧
       (freed → quiet → exec (.nodeRetryExpiry r a) s = .next ((((s.set (R.RING_NT_STATE_STATE r a) 0).set (R.RING_NT_STATE_HASH_MISMATCH r a) 0).set
         (R.RING_NT_RETRY_RETRY_LEFT r a) 0).setRing r
           { x with drop := x.drop.filter (· != a.val + 1), retryAt := x.retryAt.filter (fun y => y.1 != a.val + 1) })))) ∧
    (∀ f : Fin 16,
      let bank := s.activeBank r
      let flast := bank.foldl (fun m e => max m e.fidx) (0 : Nat)
      let may := live ∧ s.locked (ringIsl r) = true
      (¬may ∨ st = 0 ∨ st = 1 ∨ st = 7 ∨ st = 8 ∨ (st = 5 ∧ flast < f.val) → exec (.frameSend r f) s = .next s) ∧
      (may → st = 5 → f.val ≤ flast → flast < 16 → ∃ t : State, exec (.frameSend r f) s = .next t ∧
        (let o := (t.ring r).sentHead
         let h := Hdr.parse o
         fcsGood o = true ∧ h.ftype = 0 ∧ h.cycle = s.cyc % 2 ^ 32 ∧ h.fidx = f.val ∧ h.flast = flast ∧
         h.cstart = s.ringCstart r s.cyc % 2 ^ 32 ∧ h.tcyc = s.tcyc % 2 ^ 32))) ∧
    (∀ (tail : Bool) (fr : List Byte),
      let h := Hdr.parse fr
      let good := 84 ≤ fr.length ∧ BitVec.ofNat 32 (crc32 (fr.take (fr.length - 4))) = BitVec.ofNat 32 (leAt fr (fr.length - 4) 4)
      let finil := h.etype = 0x88B7 ∧ h.verFtype / 16 % 16 = 1 ∧ h.oui = s.f (R.RING_OUI r) ∧ h.proto = s.f (R.RING_PROTO r)
      let takes := live ∧ st ≠ 0
      (¬takes → exec (.ringFrameReceive r tail fr) s = .next s) ∧
      (takes → ¬good → exec (.ringFrameReceive r tail fr) s = .next (s.count (R.RING_FCS_ERR r))) ∧
      (takes → good → ¬finil → exec (.ringFrameReceive r tail fr) s = .next (s.count (R.RING_NONFINIL r))) ∧
      (takes → good → finil → h.hbSerial ≠ s.serial → 2 ≤ st → st ≤ 6 → (datagrams fr).2 = false →
        let rank := fun role unit serial : Nat => role * 2 ^ 72 + unit * 2 ^ 64 + serial
        let lower := rank (h.hbFlags % 2) h.hbUnit h.hbSerial < rank s.unitRole s.unitId s.serial
        let u := s.count (R.RING_FOREIGN_CNT r)
        (¬lower → exec (.ringFrameReceive r tail fr) s = .next u) ∧
        (lower → ∃ t : State, exec (.ringFrameReceive r tail fr) s = .next t ∧
          Alike (((u.set (R.RING_STAT_FOREIGN r) 1).setRing r fresh).set (R.RING_STAT_STATE r) 1) t)) ∧
      (∀ (d : Dg) (e : SEnt), takes → good → finil → h.hbSerial = s.serial → st = 5 → h.ftype = 0 → h.src = false →
        datagrams fr = ([d], false) → d.dtype = 1 → d.hits = 1 → (BitVec.ofNat 32 h.cycle - BitVec.ofNat 32 x.retCyc).toInt > 0 →
        (s.activeBank r).find? (fun e => e.dtype == 1 && e.node == d.node) = some e →
        ∃ t : State, exec (.ringFrameReceive r tail fr) s = .next t ∧ (t.ring r).retCyc = h.cycle ∧
          let b := (fr.drop (d.off + 8 + d.dlen)).take d.ulen
          ∀ i < e.nax, e.axbase + i < 256 → s.boundNode (e.axbase + i) = some (r.val, d.node) →
            (t.ax (e.axbase + i)).pending = some { cyc := h.cycle, nstat := leAt b 0 2, nknot := leAt b 2 1, nerr := leAt b 3 1, s := axisSample b i }))

/-- Mailbox requests at a node (R45, R46, R213, R511). -/
def Obligations.NodeMailboxResults : Prop :=
  ∀ (s : State) (r : Fin 4) (nd : Fin 64) (seq : Byte), s.canonical = true →
    let k := 64 * r.val + nd.val
    let n := s.node k
    let old := n.lastMseq = some seq.toNat
    let up := fun (res obj : Nat) (d : List Byte) => leBytes 1 seq.toNat ++ leBytes 1 res ++ leBytes 2 obj ++ leBytes 1 d.length ++ leBytes 3 0 ++
      (d ++ List.replicate 24 0).take 24
    let becomes := fun (m : NodeSt) (res obj : Nat) (d : List Byte) =>
      Host.Outcome.next (s.setNode k { m with lastMseq := some seq.toNat, response := up res obj d })
    let gone := fun kn : Nat => { n with shadows := n.shadows.filter (fun x => x.knot != kn), sealed := n.sealed.filter (· != kn) }
    (old → (∀ o v, exec (.mailboxRead r nd seq o) s = .next s ∧ exec (.mailboxWrite r nd seq o v) s = .next s) ∧
      exec (.mailboxNop r nd seq) s = .next s) ∧
    (¬old →
      exec (.mailboxNop r nd seq) s = becomes n 0 0 [] ∧
      exec (.mailboxRead r nd seq 4) s = becomes n 0 4 (leBytes 4 n.phash) ∧
      exec (.mailboxRead r nd seq 5) s = becomes n 0 5 (leBytes 1 n.addr) ∧
      exec (.mailboxRead r nd seq 6) s = becomes n 0 6 (leBytes 4 n.dIn ++ leBytes 4 n.dOut) ∧
      exec (.mailboxRead r nd seq 8) s = becomes n 0 8 (leBytes 1 n.pwmDiv) ∧
      (∀ o : BitVec 16, n.object o.toNat = none → exec (.mailboxRead r nd seq o) s = becomes n 1 o.toNat []) ∧
      (∀ v : List Byte,
        let x := (v.headD 0).toNat
        (v.length = 1 → 1 ≤ x → x ≤ 16 → exec (.mailboxWrite r nd seq 8 v) s = becomes { n with pwmDiv := x } 0 8 []) ∧
        (v.length = 1 → x = 0 ∨ 16 < x → exec (.mailboxWrite r nd seq 8 v) s = becomes n 6 8 []) ∧
        (v.length ≠ 1 → exec (.mailboxWrite r nd seq 8 v) s = becomes n 3 8 []) ∧
        exec (.mailboxWrite r nd seq 4 v) s = becomes n 2 4 [] ∧
        (∀ kn : BitVec 8,
          (v.length = 1 → 1 ≤ x → x ≤ 16 → n.shadows.length < n.room →
            exec (.knotPrep r nd seq kn 8 v) s = becomes { n with shadows := n.shadows ++ [⟨kn.toNat, 8, v⟩] } 0 8 []) ∧
          (v.length = 1 → 1 ≤ x → x ≤ 16 → n.room ≤ n.shadows.length → exec (.knotPrep r nd seq kn 8 v) s = becomes n 4 8 []) ∧
          (v.length = 8 → exec (.knotPrep r nd seq kn 6 v) s = becomes n 5 6 []))) ∧
      (∀ kn count : BitVec 8,
        let held := (n.shadows.filter (fun x => x.knot == kn.toNat)).length
        (held = count.toNat → exec (.knotSeal r nd seq kn count) s =
          becomes { n with sealed := kn.toNat :: n.sealed.filter (· != kn.toNat) } 0 0 []) ∧
        (held ≠ count.toNat → exec (.knotSeal r nd seq kn count) s = becomes (gone kn.toNat) 7 0 []) ∧
        exec (.knotCancel r nd seq kn) s = becomes (gone kn.toNat) 0 0 []) ∧
      (∀ mop : Byte, 6 ≤ mop.toNat → exec (.mailboxUnknownOp r nd seq mop) s = becomes n 8 0 []))

/-- Frames, cycles and own events of a node (R35, R50 to R52, R56, R68, R71, R72, R75, R77, R380, R510). -/
def Obligations.NodeFramesAndCycles : Prop :=
  ∀ (s : State) (r : Fin 4) (nd : Fin 64), s.canonical = true →
    let k := 64 * r.val + nd.val
    let n := s.node k
    let left := { n with
      addr := 0, applied := [{}, {}, {}, {}], last := [{}, {}, {}, {}], inFb := false, everApplied := false, started := false, lostRun := 0, held := [], heldCyc := none, shadows := [],
      sealed := [], announced := none, dec := none, sto := 15, claim := none, grant := none }
    let quiet := n.dec = none ∧ n.announced = none
    let becomes := fun m : NodeSt => Host.Outcome.next (s.setNode k m)
    let inst := fun phase : Nat =>
      (BitVec.ofInt 32 ((n.cstart : Int) + (BitVec.ofNat 32 s.cyc - BitVec.ofNat 32 (n.lastGood.getD s.cyc)).toInt * n.tcyc + phase)).toNat
    (∀ fr : List Byte, 84 ≤ fr.length →
      let h := Hdr.parse fr
      let mine := h.etype = 0x88B7 ∧ h.verFtype / 16 % 16 = 1 ∧ ∀ o p, n.ouiProto = some (o, p) → h.oui = o ∧ h.proto = p
      let good := fcsGood fr = true
      let counted := becomes { n with discarded := min (n.discarded + 1) (2 ^ 32 - 1) }
      let thru := n.takesThru fr = true
      (¬mine → exec (.nodeFrameProcess r nd fr) s = counted ∧ exec (.nodeReverseForward r nd fr) s = counted) ∧
      let forwards := fun (res : Res) (dPort : Nat) (turned : Bool) => ∃ (t : State) (via : Bool) (o : List Byte), res = .next t ∧
        (turned = true → (Hdr.parse o).looped = true) ∧
        t.net.nodeOut = SMap.put (fun _ => []) s.net.nodeOut (2 * k + via.toNat) o ∧ (fcsGood o = true ↔ good) ∧
        o.length = fr.length ∧ (Hdr.parse o).hops = min (h.hops + 1) 255 ∧ (Hdr.parse o).cycle = h.cycle ∧
        (∀ j, j ≠ k → t.node j = s.node j) ∧
        (¬good → (datagrams fr).2 = false → t.node k = { n with fcsErr := min (n.fcsErr + 1) (2 ^ 32 - 1), pos := h.hops + 1 }) ∧
        (good → (t.node k).tring = some ((16 * h.tstamp + h.corr + dPort) % 2 ^ 36, s.tim.clk) ∧ (t.node k).cstart = h.cstart ∧ (t.node k).tcyc = h.tcyc ∧ (t.node k).sph = h.sph ∧ (t.node k).aph = h.aph ∧
          ∀ d : Dg, datagrams fr = ([d], false) → d.dtype = 1 → d.node = n.addr → 1 ≤ n.addr → n.addr ≤ 64 → d.hits < 2 ^ 16 - 1 →
            (t.node k).held = (fr.drop (d.off + 8)).take d.dlen ∧ (t.node k).heldCyc = some h.cycle ∧ leAt o (d.off + 6) 2 = d.hits + 1)
      (mine → n.loopIn = false ∨ thru → forwards (exec (.nodeFrameProcess r nd fr) s) n.dIn false) ∧
      (mine → n.loopIn = true → ¬thru → exec (.nodeFrameProcess r nd fr) s = .next s ∧
        (n.loopOut = true → exec (.nodeReverseForward r nd fr) s = .next s) ∧
        (n.loopOut = false → forwards (exec (.nodeReverseForward r nd fr) s) n.dOut true)) ∧
      (mine → n.loopIn = false ∨ thru → ∃ (t : State) (o : List Byte), exec (.nodeReverseForward r nd fr) s = .next t ∧
        t.net.nodeOut = SMap.put (fun _ => []) s.net.nodeOut (2 * k + 1) o ∧ (fcsGood o = true ↔ good) ∧ o.length = fr.length ∧
        (Hdr.parse o).hops = h.hops ∧ (∀ j, j ≠ k → t.node j = s.node j) ∧
        t.node k = (if fcsGood fr = true then
            { n with revCycs := cycSeen (n.cycNow s.tim.clk s.cyc) n.revCycs, ouiProto := some (n.ouiProto.getD (h.oui, h.proto)) }
          else { n with fcsErr := min (n.fcsErr + 1) (2 ^ 32 - 1) }))) ∧
    (∀ a g, n.grant = some (a, g) → exec (.nodeAddressTake r nd) s = becomes { n with
      addr := a, grant := none, claim := none, lastMseq := none, response := [], started := false, everApplied := false, last := [{}, {}, {}, {}],
      lostRun := 0 }) ∧
    (n.grant = none → exec (.nodeAddressTake r nd) s = .next s) ∧
    (n.grant = none → (∀ fr, Instr.nodeFrameProcess r nd fr ∉ s.pending) → exec (.nodeClaimTimeout r nd) s = becomes { n with claim := none }) ∧
    (n.grant ≠ none → exec (.nodeClaimTimeout r nd) s = .next s) ∧
    (∀ l, exec (.nodeSample r nd l) s = becomes (if n.locked = true then { n with sample := l, sampleAt := inst n.sph } else n)) ∧
    (let due := n.locked = true ∧ n.heldCyc = some s.cyc
     let word := fun a i : Nat => leAt n.held (4 + 8 * a + 2 * i) 2
     let cmd := fun a : Nat => if a < n.nax then (⟨decide (word a 0 % 2 = 1) && !(n.safety && bit n.sto a), word a 0, word a 1, word a 2, word a 3⟩ : AxCmd) else ({} : AxCmd)
     let drop := n.heldCyc = some s.cyc ∧ leAt n.held 0 2 % 2 = 1
     (drop → exec (.nodeApply r nd) s = becomes left) ∧
     (¬due → ¬drop → quiet → exec (.nodeApply r nd) s = .next s) ∧
     (due → ¬drop → quiet → exec (.nodeApply r nd) s = becomes { n with
       started := n.started || n.addr != 0, lostRun := 0, apply := 0, inFb := false, actAt := inst n.aph,
       car := some (inst n.aph, n.tcyc, n.pwmDiv), applied := (List.range 4).map cmd, last := (List.range 4).map cmd, everApplied := true }) ∧
     (∀ d, ¬drop → n.locked = true → n.announced = none → n.dec = some d → d.code = 1 → d.rpt = false → d.cyc = s.cyc → d.knot ∈ n.sealed →
       ∃ m : NodeSt, exec (.nodeApply r nd) s = becomes m ∧ m.appliedKnot = some (d.knot, d.cyc) ∧ m.apply = 0 ∧ m.dec = none ∧
         (∀ x ∈ m.shadows, x.knot ≠ d.knot) ∧ d.knot ∉ m.sealed)) ∧
    (let lost := n.started = true ∧ n.heldCyc ≠ some s.cyc
     let cnt := min (n.lostCnt + 1) (2 ^ 32 - 1)
     (¬lost → exec (.nodeLostCycle r nd) s = .next s) ∧
     (lost → 8 ≤ n.lostRun → exec (.nodeLostCycle r nd) s = becomes { left with lostCnt := cnt }) ∧
     (lost → n.lostRun < 8 → quiet → ∃ m : NodeSt, exec (.nodeLostCycle r nd) s = becomes m ∧
       { m with applied := n.applied } = { n with lostRun := n.lostRun + 1, lostCnt := cnt, apply := 1, inFb := true } ∧ m.applied.length = 4 ∧
       ∀ a < 4, ∀ c, n.last[a]? = some c →
         (∀ sp, n.axcfg[a]? = some (sp, 2) → m.applied[a]? = some ({} : AxCmd)) ∧
         (∀ sp, n.axcfg[a]? = some (sp, 0) → n.everApplied = true → m.applied[a]? = some c) ∧
         (n.axcfg[a]? = some (0, 1) → m.applied[a]? = some { c with w0 := 0x8000, w1 := 0x8000, w2 := 0x8000 }))) ∧
    exec (.nodeLoopback r nd .linkIn) s = becomes { n with linkIn := false, loopIn := true } ∧
    exec (.nodeLoopback r nd .linkOut) s = becomes { n with linkOut := false, loopOut := true } ∧
    (let prev := fun j : Nat => (n.cycNow s.tim.clk s.cyc + 2 ^ 32 - j) % 2 ^ 32
     let only := ∀ j, j = 1 ∨ j = 2 → prev j ∈ n.revCycs ∧ prev j ∉ n.fwdCycs
     (only → exec (.nodeLoopback r nd .reverseOnly) s = becomes { n with loopIn := true }) ∧
     (¬only → exec (.nodeLoopback r nd .reverseOnly) s = .next s)) ∧
    exec (.nodeLoopback r nd .loopOut) s = becomes { n with loopOut := true } ∧
    (n.healSeen = true → exec (.nodeHealnow r nd) s = becomes { n with loopIn := false, loopOut := false, healSeen := false }) ∧
    (n.healSeen = false → exec (.nodeHealnow r nd) s = .next s) ∧
    (∃ m : NodeSt, exec (.nodeReset r nd) s = becomes m ∧ m.serial = n.serial ∧ m.vendor = n.vendor ∧ m.nax = n.nax ∧ m.phash = n.phash ∧
      m.loopIn = (n.loopIn && !n.linkIn) ∧ m.loopOut = (n.loopOut && (!n.linkOut || n.slowOut)) ∧ m.addr = 0 ∧ m.locked = false ∧ m.ouiProto = none ∧ m.lastMseq = none ∧ m.shadows = [] ∧
      m.sto = 15 ∧ m.pwmDiv = 1 ∧ m.fcsErr = 0 ∧ m.lostCnt = 0) ∧
    (n.safety = true → exec (.nodeSafetyWatchdog r nd) s = becomes { n with sto := 15 }) ∧
    (n.safety = false → exec (.nodeSafetyWatchdog r nd) s = .next s) ∧
    (∀ v : Fin 3,
      exec (.nodeLinkUp r nd false v) s = becomes { n with linkIn := true, speedIn := v } ∧
      (n.speedIn < v.val → exec (.nodeLinkUp r nd true v) s = becomes { n with linkOut := true, speedOut := v, slowOut := true, loopOut := true }) ∧
      (v.val ≤ n.speedIn → exec (.nodeLinkUp r nd true v) s =
        becomes { n with linkOut := true, speedOut := v, slowOut := false, loopOut := n.loopOut && !n.slowOut }))

/-- Channels and their sequencer (R322 to R335, R346, R347). -/
def Obligations.ChannelsAndSequencer : Prop :=
  (∀ (s : State) (who : Requester) (c : Fin 64), s.canonical = true → s.f (R.PC_STAT_DWELLRUN c) = 0 →
    let x := s.chan c
    (Permits s who (R.PC_CMT_W c) 1 → exec (.channelCommitRequest who c) s = .next ((s.set (R.PC_CMT_GO c) 1).answer .ok)) ∧
    (Permits s who (R.PC_CNTCLR_W c) 1 → exec (.channelCntclr who c) s =
      .next ((((s.set (R.PC_LATE_CNT c) 0).set (R.PC_MPF_CNT c) 0).set (R.PC_OC_CNT c) 0).answer .ok)) ∧
    (s.alone c → s.follows c → x.shot = none →
      (∀ v : BitVec 3, Permits s who (R.PC_OVR c) v.toNat →
        let u := s.set ⟨R.PC_OVR c, 2, 0⟩ v.toNat
        let drives := s.f (R.PC_CTRL_EN c) = 1 ∧ s.f (R.PC_STAT_XON c) = 0 ∧ x.ocForce = false ∧ x.zHold = false
        (¬drives → v ≠ 7 → v.toNat % 2 = 1 ∨ x.follow = false → exec (.ovrWrite who c v) s = .next ((u.turned c 0).answer .ok)) ∧
        (drives → v = 1 → exec (.ovrWrite who c v) s = .next ((u.turned c 0).answer .ok)) ∧
        (drives → v = 3 → exec (.ovrWrite who c v) s = .next ((u.turned c 1).answer .ok)) ∧
        (drives → v = 5 → exec (.ovrWrite who c v) s = .next ((u.turned c 2).answer .ok)) ∧
        (s.f (R.PC_STAT_XON c) = 0 → x.zHold = false → v = 7 → ∃ y : State, exec (.ovrWrite who c v) s = .next (y.answer .ok) ∧ Faulted u y c (R.PC_STAT_XON c))) ∧
      (PermitsF s who (R.PC_CTRL_EN c) 1 → s.f (R.PC_OVR_OVEN c) = 0 →
        let may := s.reg (R.PC_STAT c) % 128 = 0 ∧ bit (s.f (R.BEL_SO_ASSERTED)) (c / 16) = false ∧ s.locked (36 + c / 16) = true ∧ s.pcMuxed c = true
        (¬may → exec (.channelEnable who c) s = .next ((s.set (R.PC_STAT_ENERR c) 1).answer .ok)) ∧
        (may → s.f (R.PC_CTRL_EN c) = 1 → exec (.channelEnable who c) s = .next (s.answer .ok)) ∧
        (may → s.f (R.PC_CTRL_EN c) = 0 → exec (.channelEnable who c) s =
          .next ((((s.set (R.PC_CTRL_EN c) 1).setChan c { x with follow := false, k := 0, edges := [] }).turned c 0).answer .ok))))) ∧
  (∀ (s : State) (who : Requester) (g : Fin 16), s.canonical = true →
    (Permits s who (R.HG_CMT_W g) 1 → exec (.groupCommitRequest who g) s = .next ((s.set (R.HG_CMT_GO g) 1).answer .ok)) ∧
    (Permits s who (R.HG_CNTCLR_W g) 1 → ∃ y : State, exec (.groupCntclr who g) s = .next (y.answer .ok) ∧ { y with regs := s.regs } = s ∧
      ∀ a, y.reg a = if a ∈ (List.range 5).map (fun i => R.HG_DEFER_CNT_W g + 4 * i) then 0 else s.reg a)) ∧
  (∀ (s : State) (c : Fin 64), s.canonical = true → s.alone c → (s.chan c).shot = none →
    let x := s.chan c
    let drives := s.f (R.PC_CTRL_EN c) = 1 ∧ s.f (R.PC_STAT_XON c) = 0 ∧ x.ocForce = false ∧ s.f (R.PC_OVR_OVEN c) = 0
    let calm := s.f (R.PC_STAT_XON c) = 1 ∨ (s.setChan c { x with held := false }).bothOn c = false
    let high := s.f (R.PC_STAT_GSH_IN c) ≠ s.fa (R.PC_GATE_GSHPOL c)
    let low := s.f (R.PC_STAT_GSL_IN c) ≠ s.fa (R.PC_GATE_GSLPOL c)
    let seq := s.f (R.PC_STAT_SEQ c)
    let faults := fun (i : Instr) (b : Fld) => ∃ t : State, exec i s = .next t ∧ Faulted s t c b
    (let p := s.fa (R.PC_PER c)
     let a := s.fa (R.PC_CMP c 0)
     drives → s.f (R.PC_STAT_FROZEN c) = 0 → x.next = none → x.follow = false → s.fa (R.PC_CTRL_MODE c) = 1 →
     s.fa (R.PC_CTRL_SYNC c) = 0 → 0 < a → a < p → s.fa (R.PC_MINP c) ≤ a → s.fa (R.PC_MINP c) + a ≤ p →
       ∃ t : State, exec (.carrierPeriodStart c) s = .next t ∧ (t.chan c).follow = true ∧ (t.chan c).reqH = true ∧ (t.chan c).reqL = false ∧
         (t.chan c).edges = [(a, false, s.onA (R.PC_CTRL_COMPL c))] ∧ (t.chan c).target = 1 ∧ (t.chan c).held = false ∧ (t.chan c).zHold = false) ∧
    (x.edges = [] → exec (.compareEdge c) s = .next s) ∧
    (∀ o h l rest, x.edges = (o, h, l) :: rest →
      let u := s.setChan c { x with edges := rest, reqH := h, reqL := l, edgeAt := o }
      (¬s.follows c → exec (.compareEdge c) s = .next u) ∧
      (s.follows c → drives → x.follow = true → x.zHold = false → 1 ≤ s.fa (R.PC_CTRL_MODE c) → s.fa (R.PC_CTRL_MODE c) ≤ 3 → (h && l) = false →
        exec (.compareEdge c) s = .next (u.turned c (if h then 1 else if l then 2 else 0)))) ∧
    (seq = 1 → s.follows c → exec (.pulseSet c) s =
      .next ((s.set (R.PC_STAT_PULSE_PIN c) (decide (x.target = 1)).toNat).setChan c { x with pulseSet := true })) ∧
    (seq ≠ 1 → exec (.pulseSet c) s = .next s ∧ exec (.enRise c) s = .next s ∧ exec (.goffTimeout c) s = .next s) ∧
    (let off := if x.target = 1 then ¬low else ¬high
     (seq = 1 → x.pulseSet = true → s.follows c → s.f (R.PC_CTRL_EN c) = 1 → off →
       exec (.enRise c) s = .next ((s.set (R.PC_STAT_EN_PIN c) 1).set (R.PC_STAT_SEQ c) (x.target + 1))) ∧
     (seq = 1 → x.pulseSet = false ∨ ¬off → exec (.enRise c) s = .next s) ∧
     let side := decide (x.target = 1)
     let senses := fun (l on : Bool) => ∃ v : Bool, Instr.gateSenseChange c l v ∈ s.pending ∧
       (on = true ↔ v.toNat ≠ (if l then s.fa (R.PC_GATE_GSLPOL c) else s.fa (R.PC_GATE_GSHPOL c)))
     (seq = 1 → off ∨ senses side false → exec (.goffTimeout c) s = .next s) ∧
     (seq = 1 → calm → ¬off → ¬senses side false → faults (.goffTimeout c) (R.PC_STAT_GOFF c))) ∧
    (let driven := if seq = 3 then low else high
     let waits := ∃ (d : Fin 64) (l v : Bool), Instr.gateSenseChange d l v ∈ s.pending
     (seq < 2 ∨ s.fa (R.PC_GATE_TGON c) = 0 ∨ driven → exec (.gonTimeout c) s = .next s) ∧
     (2 ≤ seq → calm → s.fa (R.PC_GATE_TGON c) ≠ 0 → ¬driven → ¬waits → faults (.gonTimeout c) (R.PC_STAT_GON c))) ∧
    (∀ level : Bool,
      (level.toNat = s.fa (R.PC_GATE_GSLPOL c) ∨ ¬high → s.f (R.PC_STAT_GBOTH c) = 0 →
        exec (.gateSenseChange c true level) s = .next (s.set (R.PC_STAT_GSL_IN c) level.toNat)) ∧
      (level.toNat ≠ s.fa (R.PC_GATE_GSLPOL c) → high → ∃ t : State, exec (.gateSenseChange c true level) s = .next t ∧
        t.f (R.PC_STAT_GBOTH c) = 1 ∧ t.f (R.PC_CTRL_EN c) = 0)) ∧
    (let mode := s.fa (R.PC_OCCFG_OCMODE c)
     (mode = 0 → exec (.overcurrentDetect c) s = .next s) ∧
     (calm → mode = 2 ∨ (mode ≠ 0 ∧ s.f (R.PC_STAT_FROZEN c) = 1) → faults (.overcurrentDetect c) (R.PC_STAT_OC c)) ∧
     (calm → mode = 1 → s.follows c → exec (.overcurrentDetect c) s =
       .next (((s.count (R.PC_OC_CNT c)).setChan c { x with ocForce := true }).turned c 0))) ∧
    (s.f (R.PC_STAT_DWELLRUN c) = 0 → exec (.haltDwellExpiry c) s = .next s) ∧
    (let ends := ∃ i ∈ s.pending, (∃ k, i = .haltEnd k) ∨ ∃ w a z v, i = .registerWrite w a z v
     calm → s.f (R.PC_STAT_DWELLRUN c) = 1 → ¬ends → ∃ t : State, exec (.haltDwellExpiry c) s = .next t ∧
      Faulted (s.set (R.PC_STAT_DWELLRUN c) 0) t c (R.PC_STAT_HDWELL c)) ∧
    (∀ k : Fin 36, Instr.haltEnd k ∈ s.pending → (s.f (R.PC_HALT_CORE c) = k.val ∨ s.f (R.PC_HALT_CORE c) = 63) →
      (∀ j < 36, j ≠ k.val → (s.core j).dbgHalt = false ∧ (s.core j).sfHalt = false) → exec (.haltDwellExpiry c) s = .next s) ∧
    exec (.syncLoss c) s = .next (if s.fa (R.PC_CTRL_SYNC c) = 2 ∧ ∀ b : Fin 4, b.val = c.val / 16 → Instr.syncinEdge b ∉ s.pending then s.set (R.PC_STAT_SYNCLOSS c) 1 else s)) ∧
  (∀ (s : State) (b : Fin 4), s.canonical = true →
    (∃ t : State, exec (.syncinEdge b) s = .next t ∧ t.regs = s.regs ∧ ∀ c < 64,
      let x := s.chan c
      let stamp := (s.gnow + 2 ^ 32 - 5 + s.fa (R.PC_PHASE c)) % 2 ^ 32
      let u := ((BitVec.ofNat 32 stamp - BitVec.ofNat 32 x.startAt).toInt * 32 / 5).toNat
      { t.chan c with rawH := x.rawH, rawL := x.rawL, ivAt := x.ivAt } = if c / 16 = b.val ∧ s.fa (R.PC_CTRL_SYNC c) = 2 then
        { x with extAt := some stamp, edges := if s.fa (R.PC_CTRL_MODE c) = 4 then x.edges else x.edges.filter (fun w => decide (w.1 < u)) }
      else x) ∧
    (let n := SMap.get (fun _ => 0) s.pwr.syncOut b
     exec (.syncoutPulseEnd b) s = .next { s with pwr := { s.pwr with syncOut := SMap.put (fun _ => 0) s.pwr.syncOut b (n - 1) } })) ∧
  (∀ (s : State) (k : Fin 16) (ain : Fin 80) (code : BitVec 16),
    let a := SMap.put (fun _ => 0) (SMap.put (fun _ => 0) s.pwr.adc ain code.toNat) (128 + k.val) code.toNat
    let n := SMap.put (fun _ => 0) s.pwr.adcCyc (128 * k.val + ain.val) (s.cyc + 1)
    exec (.adcConversion k ain code) s = .next { s with pwr := { s.pwr with adc := a, adcCyc := n, trig := s.pwr.trig.filter (fun t =>
      decide (0 < (BitVec.ofNat 32 t.2 - BitVec.ofNat 32 s.gnow).toInt)) } })

/-- Shots and gangs (R336 to R342, R351, R353, R354, R359, R362, R364). -/
def Obligations.ShotsAndGangs : Prop :=
  let behind := fun a b : Nat => decide ((BitVec.ofNat 32 a - BitVec.ofNat 32 b).toInt < 0)
  (∀ (s : State) (who : Requester) (c : Fin 64), s.canonical = true →
    let x := s.chan c
    (s.f (R.PC_STAT_DWELLRUN c) = 0 →
      (∀ d : BitVec 30, Permits s who (R.PC_SHOT_D_W c) d.toNat →
        let full := 8 ≤ x.queue.length ∨ s.fa (R.PC_VCFG_ROLE c) = 2
        (full → ∃ y : State, exec (.shotPush who c d) s = .next (y.answer .ok) ∧ Alike (s.set (R.PC_SHOT_STAT_OVF c) 1) y) ∧
        (¬full → d.toNat = 0 → exec (.shotPush who c d) s = .next (s.answer .ok)) ∧
        let q := x.queue ++ [(s.f (R.PC_SHOT_T_T_ON c), d.toNat)]
        let past := fun e : Nat × Nat => behind e.1 (s.rnow (s.fa (R.PC_VCFG_TDOM c)))
        let waits := s.f (R.PC_STAT_FROZEN c) = 1 ∨ ∀ e, q.head? = some e → past e = false
        (¬full → d.toNat ≠ 0 → waits → exec (.shotPush who c d) s = .next ((s.shown c { x with queue := q }).answer .ok)) ∧
        (¬full → d.toNat ≠ 0 → ¬waits → ∃ y : State, exec (.shotPush who c d) s = .next (y.answer .ok) ∧
          y.chan c = { x with queue := q.dropWhile past } ∧
          y.f (R.PC_LATE_CNT c) = min (s.f (R.PC_LATE_CNT c) + (q.takeWhile past).length) (2 ^ 32 - 1))) ∧
      (Permits s who (R.PC_SHOT_CTL c) 1 → exec (.shotFlush who c) s = .next ((s.shown c { x with queue := [], deferred := none }).answer .ok))) ∧
    (s.f (R.PC_STAT_FROZEN c) = 0 → s.fa (R.PC_CTRL_MODE c) = 4 → ∀ h, x.shot = some h →
      let ended := fun t : State => (t.chan c).shot = none ∧
        (t.chan c).queue = x.queue.dropWhile (fun e => behind e.1 (s.rnow (s.fa (R.PC_VCFG_TDOM c)))) ∧ t.f (R.PC_SHOT_CNT c) = (s.f (R.PC_SHOT_CNT c) + 1) % 2 ^ 32
      (∃ t : State, exec (.shotEnd c) s = .next t ∧ ended t) ∧
      (Permits s who (R.PC_SHOT_CTL c) 2 → s.f (R.PC_STAT_DWELLRUN c) = 0 →
        ∃ t : State, exec (.shotAbort who c) s = .next (t.answer .ok) ∧ ended t))) ∧
  (∀ (s : State) (c : Fin 64), s.canonical = true → s.f (R.PC_STAT_FROZEN c) = 0 →
    let x := s.chan c
    let runs := s.fa (R.PC_CTRL_MODE c) = 4 ∧ s.fa (R.PC_CTRL_AXEN c) = 0
    let iPeak := s.fa (R.PC_VIMAX_IPEAK c)
    let iHold := s.fa (R.PC_VIMAX_IHOLD c)
    let held : Shot := { ton := 0, dur := 0, fw := false, ipeak := 0, ihold := 0, vpeak := s.fa (R.PC_VPEAK c), per := s.fa (R.PC_PER c), vhold := s.fa (R.PC_VHOLD c), minp := s.fa (R.PC_MINP c),
                          role := s.fa (R.PC_VCFG_ROLE c), hg := s.fa (R.PC_VCFG_HG c), hs := s.hsChan (s.fa (R.PC_VCFG_HG c)) }
    let taken := fun (t d : Nat) => { held with ton := t, dur := d, fw := s.onA (R.PC_VCFG_FW c), ipeak := iPeak, ihold := iHold }
    let now := s.rnow (s.fa (R.PC_VCFG_TDOM c))
    (x.queue = [] ∨ s.fa (R.PC_CTRL_MODE c) ≠ 4 → exec (.shotStart c) s = .next s) ∧
    (∀ t d rest, runs → x.queue = (t, d) :: rest →
      let late := x.shot ≠ none ∨ x.deferred ≠ none ∨ behind t now = true
      (¬late → s.fa (R.PC_VCFG_ROLE c) = 0 → s.f (R.PC_OVR_OVEN c) = 0 → ∃ y : State, exec (.shotStart c) s = .next y ∧
        (y.chan c).shot = some (taken t d) ∧ (y.chan c).queue = rest) ∧
      (let g := s.fa (R.PC_VCFG_HG c)
       ¬late → s.fa (R.PC_VCFG_ROLE c) = 1 →
       (s.groupReady g = false → ∃ y : State, exec (.shotStart c) s = .next y ∧ (y.chan c).shot = none ∧ (y.chan c).queue = rest ∧
         y.f (R.PC_SHOT_STAT_GNRDY c) = 1 ∧ y.f (R.HG_STAT_GNRDY g) = 1) ∧
       (s.groupReady g = true → s.activeMembers g = [] → s.fa (R.HG_CTRL_POLICY g) ≠ 0 → (∀ j < 64, s.f (R.PC_OVR_OVEN j) = 0) →
         ∃ y : State, exec (.shotStart c) s = .next y ∧ (y.chan c).shot = some (taken t d) ∧ (y.chan c).queue = rest)) ∧
      (late → ∃ y : State, exec (.shotStart c) s = .next y ∧ y.chan c = { x with queue := rest } ∧
        y.f (R.PC_LATE_CNT c) = min (s.f (R.PC_LATE_CNT c) + 1) (2 ^ 32 - 1))) ∧
    (∀ (g : Fin 16) (t d : Nat), s.members g = [c.val] → s.activeMembers g = [] → runs → (∀ j < 64, s.f (R.PC_OVR_OVEN j) = 0) →
      (x.deferred = some (t, d) → ∃ y : State, exec (.deferredShotStart g) s = .next y ∧
        (y.chan c).shot = some (taken now d) ∧ (y.chan c).deferred = none) ∧
      (x.deferred = none → exec (.deferredShotStart g) s = .next s)) ∧
    exec (.shotPeakEnd c) s = .next (s.shown c { x with shot := x.shot.map (fun h => { h with hold := true }) }) ∧
    (x.shot = none → exec (.holdPeriodStart c) s = .next s) ∧
    (∀ h, x.shot = some h →
      let a := h.vhold * h.per / 2 ^ 16
      let ends := h.holds * h.per
      let all := (h.dur - h.vpeak) * 32 / 5
      0 < a → a < h.per → h.minp ≤ a → s.f (R.PC_OVR_OVEN c) = 0 → s.fa (R.PC_VCFG_ROLE c) = 0 → s.fa (R.PC_CTRL_MODE c) = 4 →
      (h.minp + a ≤ h.per → ends + h.per ≤ all → ∃ y : State, exec (.holdPeriodStart c) s = .next y ∧
        (y.chan c).shot = some { h with hold := true, on := true, holds := h.holds + 1 } ∧ (y.chan c).edges = [(a, false, false)]) ∧
      (ends + h.minp ≤ all → ends < all → all ≤ ends + a → ∃ y : State, exec (.holdPeriodStart c) s = .next y ∧
        (y.chan c).shot = some { h with hold := true, on := true, holds := h.holds + 1 } ∧ (y.chan c).edges = []))) ∧
  (∀ (s : State) (g : Fin 16), s.canonical = true →
    let runs := s.f (R.PC_STAT_SEQ (s.hsChan g)) = 2 ∧ s.f (R.HG_CTRL_EN g) = 1 ∧ s.f (R.HG_CTRL_CPEN g) = 1
    (¬runs → exec (.chargePumpFault g) s = .next s) ∧
    (runs → ∃ t : State, exec (.chargePumpFault g) s = .next t ∧ t.f (R.HG_STAT_CPF g) = 1 ∧ t.f (R.HG_STAT_CPOK g) = 0 ∧
      t.f (R.HG_CPF_CNT g) = min (s.f (R.HG_CPF_CNT g) + 1) (2 ^ 32 - 1) ∧ ∀ c ∈ s.activeMembers g, (t.chan c).shot = none)) ∧
  (∀ (s : State) (q : Fin 16), s.canonical = true →
    let c := 4 * q.val
    let g := s.gang q
    let n := s.fa (R.PC_CTRL_AXIS c)
    let kind := s.fa (R.PC_STP_CTRL_GANG c)
    let mode := s.fa (R.AX_CTRL_MODE n)
    let m := s.f (R.PC_STP_M c)
    let moves := kind = 1 ∧ ((1 ≤ mode ∧ mode ≤ 4) ∨ mode = 7)
    let steps := moves ∧ ∀ i < 4, s.f (R.PC_STAT_FROZEN (c + i)) = 0
    let free := s.f (R.PC_STAT_FROZEN c) = 0 ∧ s.f (R.PC_STAT_FROZEN (c + 1)) = 0
    let held := s.fa (R.PC_STP_CTRL_LIMHW c) = 1 ∧ s.f (if g.neg then R.AX_STATUS_LIMN n else R.AX_STATUS_LIMP n) = 1
    (g.left = 0 ∨ ¬moves → exec (.microstep q) s = .next s) ∧
    (g.left ≠ 0 → steps → held → exec (.microstep q) s = .next (s.setGang q { g with left := 0, tgt := m })) ∧
    (g.left ≠ 0 → steps → ¬held → ∃ t : State, exec (.microstep q) s = .next t ∧
      t.f (R.PC_STP_M c) = (if g.neg then m + 2 ^ 32 - 1 else m + 1) % 2 ^ 32 ∧ t.f (R.PC_STP_STAT_HOLDACT c) = 0 ∧
      t.gang q = { g with acc := (t.gang q).acc, left := g.left - 1, lastMove := s.tim.clk, accAt := s.tim.clk }) ∧
    exec (.holdCurrentTimeout q) s = .next (if kind = 1 ∧ s.fa (R.PC_STP_THOLD c) ≠ 0 then s.set (R.PC_STP_STAT_HOLDACT c) 1 else s) ∧
    (kind ≠ 1 → ∀ code, exec (.chopperSample ⟨c, by omega⟩ code) s = .next s) ∧
    (∀ code : BitVec 16, kind = 1 → s.fa (R.PC_CHP_CTRL_EN c) = 1 → m = 0 → s.f (R.PC_STP_STAT_HOLDACT c) = 0 → 2 ≤ s.fa (R.PC_STP_I_IRUN c) →
      ∃ t : State, exec (.chopperSample ⟨c, by omega⟩ code) s = .next t ∧
        (¬free → t.f (R.PC_CHP_STATE c) = s.f (R.PC_CHP_STATE c)) ∧
        (free → s.f (R.PC_CHP_STATE c) = 0 → t.f (R.PC_CHP_STATE c) = 1 ∧ (t.chan c).neg = false) ∧
        (free → s.f (R.PC_CHP_STATE c) = 1 → (s.chan c).neg = false → s.fa (R.PC_CHP_CTRL_ADAPT c) = 0 → s.fa (R.PC_CHP_HYS_HYS c) = 0 →
          s.fa (R.PC_CHP_T_TBLANK c) = 0 → s.fa (R.PC_CHP_HYS_AZERO c) = 0 → s.fa (R.PC_STP_I_IRUN c) ≤ code.toNat → code.toNat < 2 ^ 15 →
          t.f (R.PC_CHP_STATE c) = 2)) ∧
    (s.f (R.PC_CHP_STATE c) ≠ 2 → exec (.fastDecayEnd ⟨c, by omega⟩) s = .next s) ∧
    (s.f (R.PC_CHP_STATE c) = 2 → ∃ t : State, exec (.fastDecayEnd ⟨c, by omega⟩) s = .next t ∧ (t.chan c).fast = false ∧
      t.f (R.PC_CHP_STATE c) = 2) ∧
    (∀ a b : Bool,
      let counts := kind = 2 ∧ s.fa (R.PC_STP_CTRL_ENC c) ≠ 31
      (¬counts ∨ (a = g.encA ∧ b = g.encB) → exec (.encoderEdge q a b) s = .next s) ∧
      (counts → a ≠ g.encA → b ≠ g.encB → ∃ t : State, exec (.encoderEdge q a b) s = .next t ∧
        Alike ((s.setGang q { g with encA := a, encB := b }).set (R.PC_STP_STAT_ENCERR c) 1) t) ∧
      (counts → (a ≠ g.encA) ≠ (b ≠ g.encB) → ∃ t : State, exec (.encoderEdge q a b) s = .next t ∧ t.regs = s.regs ∧
        (t.gang q).encA = a ∧ (t.gang q).encB = b ∧
        (t.gang q).enc = (if a ≠ g.encA then (if a ≠ b then g.enc + 1 else g.enc + 2 ^ 32 - 1)
                          else (if a = b then g.enc + 1 else g.enc + 2 ^ 32 - 1)) % 2 ^ 32)) ∧
    (kind ≠ 1 → kind ≠ 2 → exec (.gangLanding q) s = .next s) ∧
    (kind = 1 → ∃ t : State, exec (.gangLanding q) s = .next t ∧ t.f (R.AX_POS n) = m ∧ t.f (R.AX_FB_CYC n) = s.cyc % 2 ^ 32 ∧
      t.f (R.AX_AXCAP_POS_BITS n) = 32 ∧
      t.f (R.AX_VALID_VALID n) = ((List.range 4).all (fun i => s.f (R.PC_STAT_OC (c + i)) == 0)).toNat))

/-- Belay (R366 to R386). Which of several conditions of a refused configuration write RESULT names is the model's choice
(notes/assumptions, R373). -/
def Obligations.BelayReactsAsItsRulesSay : Prop :=
  (∀ s : State, s.canonical = true → ∃ t : State, exec .belayPowerUp s = .next t ∧
    t.f R.BEL_STAT_STATE = (if s.f R.BEL_STAT_SEAL = 1 then 5 else 1) ∧ t.reg R.BEL_DIAG = 0 ∧ t.f R.BEL_SO_ASSERTED = 15 ∧
    t.f R.BEL_STAT_SEAL_CNT = s.f R.BEL_STAT_SEAL_CNT ∧ ∀ i < 8, t.f (R.BEL_AXSTO_STO i) = 2 ^ 32 - 1) ∧
  (∀ s : State, s.islOn islBLY = false → ∀ c ∈ [Instr.configVote, .belayTestDone true, .belayTestDone false, .gttimeExpiry, .configCrcCheck],
    exec c s = .next s) ∧
  (∀ s : State, s.BelUp →
    let st := s.f R.BEL_STAT_STATE
    let copy := fun k : Fin 3 => s.cfgCopy k.val
    let good := fun f : List Byte => cfgValid f = true ∧ cfgAccepted f = true
    let manual := ∀ i < 8, cfgRole s.bel.cfg i = 1 → cfgManual s.bel.cfg i = true → bit s.bel.tested i = true
    (st ≠ 1 → exec .configVote s = .next s) ∧
    (st = 1 → ∀ i j k : Fin 3, i ≠ j → k ≠ i → k ≠ j → copy i = copy j → good (copy i) → ∃ t : State, exec .configVote s = .next t ∧
      t.f R.BEL_STAT_STATE = 2 ∧ t.f R.BEL_STAT_CFGVALID = 1 ∧ (t.f R.BEL_STAT_CFGDEG = 0 ↔ copy k = copy i) ∧ t.bel.cfg = copy i ∧
      t.f R.BEL_SO_ASSERTED = 15 ∧ cfgNzone t.bel.cfg ≤ 32 ∧ cfgNconn t.bel.cfg ≤ 256) ∧
    (st = 1 → (∀ i j : Fin 3, i ≠ j → good (copy i) → copy i ≠ copy j) → ∃ t : State, exec .configVote s = .next t ∧ t.BelFaulted 9) ∧
    (st ≠ 2 → ∀ pass, exec (.belayTestDone pass) s = .next s) ∧
    (st = 2 → ∃ t : State, exec (.belayTestDone false) s = .next t ∧ t.BelFaulted 8) ∧
    (st = 2 → manual → ∃ t : State, exec (.belayTestDone true) s = .next t ∧ t.f R.BEL_STAT_STATE = 3 ∧
      ∀ z < cfgNzone s.bel.cfg, s.zone z = 3 →
        t.zone z = if s.zoneDemand z = true then 3 else if bit (cfgZone s.bel.cfg z).flags 2 = true then 4 else 0) ∧
    (st = 2 → ¬manual → exec (.belayTestDone true) s = .next { s with bel := { s.bel with bist := true } }) ∧
    (st ≠ 2 ∨ manual → exec .gttimeExpiry s = .next s) ∧
    (st = 2 → ¬manual → (∀ g : Fin 8, Instr.guardDemandEnd g ∉ s.pending) → ∃ t : State, exec .gttimeExpiry s = .next t ∧ t.BelFaulted 0) ∧
    (∀ g : Fin 8, bit s.bel.opened g = true → Instr.guardDemandEnd g ∈ s.pending →
      (∀ i < 8, i ≠ g.val → cfgRole s.bel.cfg i = 1 → cfgManual s.bel.cfg i = true → bit s.bel.tested i = true) →
      exec .gttimeExpiry s = .next s) ∧
    (∀ opened : Bool, ∃ t : State, exec (.sealOpen opened) s = .next t ∧ t.f R.BEL_STAT_SEAL = opened.toNat ∧
      (opened = true → t.f R.BEL_STAT_STATE = 5 ∧ t.f R.BEL_STAT_SEAL_CNT = min (s.f R.BEL_STAT_SEAL_CNT + 1) 65535) ∧
      (opened = false → t.f R.BEL_STAT_STATE = st ∧ t.log = { s.log with eraseAborted := s.log.erase.isSome })) ∧
    (s.f R.BEL_CFGW_CTL_RESULT ≠ 1 → ∀ ok, exec (.configWriteDone ok) s = .next s) ∧
    (s.f R.BEL_CFGW_CTL_RESULT = 1 → ∃ t : State, exec (.configWriteDone false) s = .next t ∧ t.f R.BEL_CFGW_CTL_RESULT = 6) ∧
    (s.f R.BEL_CFGW_CTL_RESULT = 1 → s.bel.img.length ≤ 16384 → (Config.freeWord s.free).toNat % 16 = leAt s.bel.img 10 1 →
      ∃ t : State, exec (.configWriteDone true) s = .next t ∧ t.f R.BEL_CFGW_CTL_RESULT = 2 ∧
        ∀ k < 3, t.bytes (0x04FC0000 + 0x4000 * k) s.bel.img.length = s.bel.img) ∧
    (∀ b : Fin 4, (∃ t : State, exec (.gbothRequest b) s = .next t ∧ t.f ⟨R.BEL_SO, 8 + b.val, 8 + b.val⟩ = 1 ∧ t.f ⟨R.BEL_SO, b.val, b.val⟩ = 1) ∧
      (∀ ok, ok = true ∨ st ≠ 3 ∨ cfgSotest s.bel.cfg = false ∨ s.f ⟨R.BEL_SO, b.val, b.val⟩ = 1 → exec (.safeOffTestPulse b ok) s = .next s) ∧
      (st = 3 → cfgSotest s.bel.cfg = true → s.f ⟨R.BEL_SO, b.val, b.val⟩ = 0 →
        ∃ t : State, exec (.safeOffTestPulse b false) s = .next t ∧ t.BelFaulted 3) ∧
      (1 ≤ st → st ≤ 3 → ∃ t : State, exec (.safeOffFeedbackFault b) s = .next t ∧ t.BelFaulted 2)) ∧
    (∀ backup, exec (.oscCheckWindow backup true) s = .next s ∧
      (1 ≤ st → st ≤ 3 → ∃ t : State, exec (.oscCheckWindow backup false) s = .next t ∧ t.BelFaulted (if backup then 5 else 4))) ∧
    (cfgValid s.bel.cfg = true ∨ (st ≠ 2 ∧ st ≠ 3) → exec .configCrcCheck s = .next s) ∧
    (cfgValid s.bel.cfg = false → st = 2 ∨ st = 3 → ∃ t : State, exec .configCrcCheck s = .next t ∧ t.BelFaulted 7)) ∧
  (∀ (s : State) (g : Fin 8), s.BelUp →
    let f := s.bel.cfg
    let st := s.f R.BEL_STAT_STATE
    let demand := fun i : Nat => s.f ⟨R.BEL_GIN, 8 + i, 8 + i⟩ = 1
    let tests := cfgRole f g = 1 ∧ (st = 2 ∨ st = 3)
    (∀ during after : BitVec 8,
      let others := fun j : Nat => j ≠ g.val ∧ j < 8 ∧ cfgRole f j = 1 ∧ ¬demand j ∧ bit during.toNat j = false
      let passes := bit during.toNat g = false ∧ bit after.toNat g = true
      (¬tests → exec (.guardTestPulse g during after) s = .next s) ∧
      (tests → demand g ∨ (passes ∧ ∀ j, ¬others j) → exec (.guardTestPulse g during after) s = .next (s.set R.BEL_GIN_LEVEL after.toNat)) ∧
      (tests → ¬demand g → ¬passes → ∃ t : State, exec (.guardTestPulse g during after) s = .next t ∧ t.f R.BEL_DIAG_GTPF = 1 ∧
        t.f ⟨R.BEL_GIN, 16 + g.val, 16 + g.val⟩ = 1 ∧ t.f ⟨R.BEL_GIN, 8 + g.val, 8 + g.val⟩ = 1 ∧ (st = 2 → t.BelFaulted 0)) ∧
      (tests → ¬demand g → ∀ j, others j → ∃ t : State, exec (.guardTestPulse g during after) s = .next t ∧ t.f R.BEL_DIAG_XSHORT = 1 ∧
        (∀ i, i = j ∨ i = g.val → t.f ⟨R.BEL_GIN, 16 + i, 16 + i⟩ = 1 ∧ t.f ⟨R.BEL_GIN, 8 + i, 8 + i⟩ = 1) ∧ (st = 2 → t.BelFaulted 1))) ∧
    (cfgRole f g ≠ 1 → exec (.guardDemand g) s = .next s ∧ exec (.guardDemandEnd g) s = .next s) ∧
    (cfgRole f g = 1 →
      (∃ t : State, exec (.guardDemand g) s = .next t ∧ t.f ⟨R.BEL_GIN, g.val, g.val⟩ = 0 ∧ t.f ⟨R.BEL_GIN, 8 + g.val, 8 + g.val⟩ = 1 ∧
        (st = 2 → bit t.bel.opened g = true) ∧
        (st = 3 → ∀ z < cfgNzone f, bit (cfgZone f z).trig g = true → s.zone z = 0 →
          t.zone z = match (cfgZone f z).func with | 0 => 3 | 1 => 2 | _ => 1)) ∧
      (∃ t : State, exec (.guardDemandEnd g) s = .next t ∧ t.f ⟨R.BEL_GIN, g.val, g.val⟩ = 1 ∧
        (bit s.bel.latched g = true → demand g → t.f ⟨R.BEL_GIN, 8 + g.val, 8 + g.val⟩ = 1) ∧
        (bit s.bel.latched g = false → t.f ⟨R.BEL_GIN, 8 + g.val, 8 + g.val⟩ = 0) ∧
        (st = 2 → bit s.bel.opened g = true → bit t.bel.tested g = true))) ∧
    (cfgRole f g ≠ 2 ∨ st ≠ 3 → exec (.resetAction g) s = .next s) ∧
    (cfgRole f g = 2 → st = 3 → ∃ t : State, exec (.resetAction g) s = .next t ∧ ∀ z < cfgNzone f,
      t.zone z = if s.zone z = 4 ∧ (cfgZone f z).rstin = g.val ∧ s.zoneDemand z = false then 0 else s.zone z)) ∧
  (∀ (s : State) (who : Requester), s.BelUp →
    let f := s.bel.cfg
    let st := s.f R.BEL_STAT_STATE
    (Permits s who R.BEL_CTRL_W 1 →
      (st ≠ 4 → st ≠ 5 → exec (.belayRestart who) s = .next (s.answer .ok)) ∧
      (st = 4 ∨ st = 5 → s.f R.BEL_STAT_SEAL = 1 → exec (.belayRestart who) s = .next ((s.set R.BEL_STAT_RSTERR 1).answer .ok)) ∧
      (st = 4 ∨ st = 5 → s.f R.BEL_STAT_SEAL = 0 → ∃ t : State, exec (.belayRestart who) s = .next (t.answer .ok) ∧
        t.f R.BEL_STAT_STATE = 1 ∧ t.reg R.BEL_DIAG = 0 ∧ t.f R.BEL_STAT_CFGVALID = 0 ∧ t.f R.BEL_CNT_CRC = 0 ∧ t.f R.BEL_SO_ASSERTED = 15)) ∧
    (Permits s who R.BEL_CFGW_CTL 1 →
      let a := 4 * s.f R.BEL_CFGW_LO_ADDR + 2 ^ 32 * s.f R.BEL_CFGW_HI_ADDR
      let img := s.bytes a (min (s.rd (a + 4) 4) 16384)
      let u := { s with free := s.free + 1 }
      let code := (Config.freeWord s.free).toNat % 16 = leAt img 10 1
      (st ≠ 5 → exec (.configWrite who) s = .next ((s.set R.BEL_CFGW_CTL_RESULT 3).answer .ok)) ∧
      (st = 5 → s.range a = some .sram → s.range (a + (img.length - 1)) = some .sram →
        (¬code → exec (.configWrite who) s = .next ((u.set R.BEL_CFGW_CTL_RESULT 4).answer .ok)) ∧
        (code → cfgValid img = false ∨ cfgAccepted img = false → exec (.configWrite who) s = .next ((u.set R.BEL_CFGW_CTL_RESULT 5).answer .ok)) ∧
        (code → cfgValid img = true → cfgAccepted img = true →
          exec (.configWrite who) s = .next ((({ u with bel := { s.bel with img := img } } : State).set R.BEL_CFGW_CTL_RESULT 1).answer .ok)))) ∧
    (∀ mask : Word, Permits s who R.BEL_ZREQ_W mask.toNat → ∃ t : State, exec (.zoneRequest who mask) s = .next (t.answer .ok) ∧
      t.f R.BEL_ZREQ_REQ = mask.toNat ∧ (st ≠ 3 → ∀ z < 32, t.zone z = s.zone z) ∧
      (st = 3 → ∀ z < cfgNzone f, bit (cfgZone f z).flags 0 = true → bit mask.toNat z = true → s.zone z = 0 →
        t.zone z = match (cfgZone f z).func with | 0 => 3 | 1 => 2 | _ => 1)) ∧
    (∀ mask : Word, Permits s who R.BEL_ZRST_W mask.toNat → ∃ t : State, exec (.zoneReset who mask) s = .next (t.answer .ok) ∧
      ∀ z < cfgNzone f, t.zone z = if st = 3 ∧ s.zone z = 4 ∧ bit mask.toNat z = true ∧ s.zoneDemand z = false then 0 else s.zone z) ∧
    (∀ (w : Fin 8) (mask : Word), Permits s who (R.BEL_CONNF_W w) mask.toNat → ∃ t : State,
      exec (.connfClear who w mask) s = .next (t.answer .ok) ∧ ∀ i < 32,
        t.f (connfFld (32 * w.val + i)) = if bit mask.toNat i = true ∧ 1 ≤ cfgBwd f ∧ cfgBwd f ≤ (s.bconn (32 * w.val + i)).ok then 0
          else s.f (connfFld (32 * w.val + i))) ∧
    (∀ mask : BitVec 4, Permits s who R.BEL_SORST_W mask.toNat → ∃ t : State, exec (.sorst who mask) s = .next (t.answer .ok) ∧ ∀ b < 4,
      t.f ⟨R.BEL_SO, 8 + b, 8 + b⟩ = if bit mask.toNat b = true ∧ ∀ j < 16, s.f (R.PC_STAT_GBOTH (16 * b + j)) = 0 then 0
        else s.f ⟨R.BEL_SO, 8 + b, 8 + b⟩)) ∧
  (∀ s : State, s.BelUp →
    let f := s.bel.cfg
    let st := s.f R.BEL_STAT_STATE
    (∀ z : Fin 32, (s.zone z ≠ 2 → exec (.ss1TimerExpiry z) s = .next s) ∧
      (s.zone z = 2 → z.val < cfgNzone f → ∃ t : State, exec (.ss1TimerExpiry z) s = .next t ∧ t.zone z = 3 ∧
        ∀ b < 4, bit (cfgZone f z).somask b = true → t.f ⟨R.BEL_SO, b, b⟩ = 1)) ∧
    (∀ (z : Fin 32) (n : Fin 256),
      let watched := st = 3 ∧ z.val < cfgNzone f ∧ s.zone z = 1 ∧ bit (cfgZone f z).axmask n = true
      (¬watched → exec (.slsReading z n) s = .next s) ∧
      (watched → 1 ≤ cfgSlsN f → ∀ k, s.axConn n = some k →
        let x := s.bconn k
        let key := 256 * z.val + n.val
        let isRead := x.spd = [] ∨ key ∈ x.readBy ∨ 65536 + z.val ∈ x.readBy
        let u := s.setBconn k { x with readBy := key :: x.readBy }
        let raw := i16 (x.spd.getD (n.val - (cfgConn f k).axbase) 0)
        let v := F32.abs (valueOf (F32.mul (valueOf (F32.ofInt raw)) (cfgConn f k).spdunit))
        let fast := F32.gt v (cfgZone f z).slslim = true
        let run := if fast then SMap.get (fun _ => 0) s.bel.sls key + 1 else 0
        (isRead → exec (.slsReading z n) s = .next s) ∧
        (¬isRead → run < cfgSlsN f → exec (.slsReading z n) s =
          .next { u with bel := { u.bel with sls := SMap.put (fun _ => 0) s.bel.sls key run } }) ∧
        (¬isRead → cfgSlsN f ≤ run → ∃ t : State, exec (.slsReading z n) s = .next t ∧
          t.zone z = if bit (cfgZone f z).flags 3 = true then 2 else 3))) ∧
    (∀ k : Fin 256,
      let silent := k.val < cfgNconn f ∧ cfgBwd f ≤ (s.bconn k).miss
      let late := k.val < cfgNconn f ∧ ∃ m, some m ∈ (s.bconn k).req ∧ 4 ≤ dt s.cyc m
      (¬silent → exec (.connectionWatchdog k) s = .next s) ∧
      (silent → ∃ t : State, exec (.connectionWatchdog k) s = .next t ∧ t.f (connfFld k) = 1 ∧
        t.f R.BEL_CNT_WD = min (s.f R.BEL_CNT_WD + 1) (2 ^ 32 - 1)) ∧
      (¬late → exec (.stoConfirmTimeout k) s = .next s) ∧
      (late → ∃ t : State, exec (.stoConfirmTimeout k) s = .next t ∧ t.f (connfFld k) = 1 ∧ t.f R.BEL_DIAG_STOCONF = 1 ∧
        t.f R.BEL_STAT_STATE = st ∧ ∀ b < 4, bit (cfgNsomask f) b = true → t.f ⟨R.BEL_SO, b, b⟩ = 1)))

/-- The duplex block (R397 to R410). -/
def Obligations.DuplexFollowsItsStates : Prop :=
  (∀ (s : State) (who : Requester), s.canonical = true →
    let st := s.dxSt
    let serves := fun r : Nat => bit (s.f R.DX_CTRL_RINGMASK) r = true ∧ s.f (R.RING_CTRL_DUPLEX r) = 1
    let seeks := fun t : State => t.dxSt = 1 ∧ t.f R.DX_STAT_ACTIVE = 0 ∧ t.f R.DX_STAT_PARTNER = 0 ∧ t.f R.DX_CTRL_EN = 1 ∧ t.dx.kickAt = s.long s.grid ∧
      ∀ r < 4, serves r → t.f (R.RING_CTRL_EN r) = 1 ∧ (s.f (R.RING_OUI r) ≠ 0 → t.f (R.RING_STAT_STATE r) = 1)
    let fenced := fun t : State => t.dxSt = 5 ∧ t.f R.DX_STAT_ACTIVE = 0 ∧ t.f R.DX_STAT_PARTNER = 0 ∧ t.f R.DX_STAT_LANE0_UP = 0 ∧
      t.f R.DX_STAT_LANE1_UP = 0 ∧ t.dx.splice = none ∧ t.dx.queued = [] ∧
      ∀ r < 4, serves r → t.f (R.RING_STAT_STATE r) = 0 ∧ t.f (R.RING_PORT_STAT_HEAD_LINK r) = 0 ∧ t.f (R.RING_PORT_STAT_TAIL_LINK r) = 0
    let runs := st ≠ 0 ∧ st ≠ 5
    let ready := st = 2 ∧ s.dx.pState = 4 ∧ s.dx.pHot = true ∧ s.f R.DX_STAT_PARTNER = 1 ∧ s.peerUp = true ∧
      (∀ r < 4, s.duplexRing r = true → s.f (R.RING_STAT_STATE r) = 5) ∧ ∀ k < 64, s.f (R.K_STAT_STATE k) < 3 ∨ 5 < s.f (R.K_STAT_STATE k)
    let planned := { s.dx with splice := some ⟨(s.cyc + 8) % 2 ^ 32, false, true⟩, wantSwitch := false, wantBack := false, fwd := [] }
    (PermitsF s who R.DX_CTRL_EN 1 →
      (st ≠ 0 → exec (.duplexEnable who) s = .next ((s.set R.DX_CTRL_EN 1).answer .ok)) ∧
      (st = 0 → ∃ t : State, exec (.duplexEnable who) s = .next (t.answer .ok) ∧ seeks t)) ∧
    (PermitsF s who R.DX_CTRL_EN 0 →
      (st = 0 → exec (.duplexDisable who) s = .next ((s.set R.DX_CTRL_EN 0).answer .ok)) ∧
      (st ≠ 0 → ∃ t : State, exec (.duplexDisable who) s = .next (t.answer .ok) ∧ t.dxSt = 0 ∧ t.f R.DX_STAT_ACTIVE = 0 ∧ t.f R.DX_STAT_HOT = 0 ∧
        t.f R.DX_STAT_PARTNER = 0 ∧ t.f R.DX_STAT_PEER_LINK_DOWN = 0 ∧ t.f R.DX_CTRL_EN = 0)) ∧
    (s.f R.DX_CTRL_EN = 1 →
      (PermitsF s who R.DX_CTRL_FENCE 1 →
        (st = 5 → exec (.duplexFence who) s = .next (s.answer .ok)) ∧
        (runs → ∃ t : State, exec (.duplexFence who) s = .next (t.answer .ok) ∧ fenced t)) ∧
      (PermitsF s who R.DX_CTRL_REJOIN 1 →
        (runs → exec (.duplexRejoin who) s = .next (s.answer .ok)) ∧
        (st = 5 → ∃ t : State, exec (.duplexRejoin who) s = .next (t.answer .ok) ∧ seeks t)) ∧
      (PermitsF s who R.DX_CTRL_TBCLR 1 → runs → exec (.takebackClear who) s = .next ((s.set R.DX_STAT_LOCKOUT 0).answer .ok)) ∧
      (PermitsF s who R.DX_CTRL_SWITCH 1 →
        (runs → st ≠ 2 → exec (.switch who) s = .next (s.answer .ok)) ∧
        (ready → s.dx.splice = none → exec (.switch who) s = .next (({ s with dx := planned } : State).answer .ok)) ∧
        (st = 2 → ¬ready ∨ s.dx.splice ≠ none → exec (.switch who) s = .next (({ s with dx := { s.dx with wantSwitch := true } } : State).answer .ok)))) ∧
    (PermitsF s who R.DX_LIVE_KICK 1 → exec (.liveKick who) s = .next (({ s with dx := { s.dx with kickAt := s.long s.grid } } : State).answer .ok)) ∧
    (¬runs → exec .liveWatchdogExpiry s = .next s ∧ exec .heartbeatSend s = .next s) ∧
    (PermitsF s who R.DX_LIVE_KICK 1 → Instr.liveKick who ∈ s.pending → exec .liveWatchdogExpiry s = .next s) ∧
    (let kicks := ∃ i ∈ s.pending, (∃ w, i = .liveKick w) ∨ ∃ w a z v, i = .registerWrite w a z v
     runs → (¬kicks → ∃ t : State, exec .liveWatchdogExpiry s = .next t ∧ fenced t) ∧
      exec .heartbeatSend s = .next { s with dx := { s.dx with hbSent := some s.cyc } }) ∧
    (let mayBack := s.dx.wantBack = true ∧ s.f R.DX_CTRL_TBAUTO = 1 ∧ s.unitRole = 1 ∧ s.f R.DX_STAT_LOCKOUT = 0
     let asked := s.dx.splice = none ∧ (s.dx.wantSwitch = true ∨ mayBack) ∧ ready
     let waits := s.f R.DX_STAT_PARTNER = 0 ∧ ∃ lane p c w hot, Instr.peerMessageReceive lane (.heartbeat p c w hot) ∈ s.pending
     (waits → exec .takebackHoldoffExpiry s = .next s) ∧
     (¬waits → asked → exec .takebackHoldoffExpiry s = .next { s with dx := { planned with holdFrom := none } }) ∧
     (¬waits → ¬asked → exec .takebackHoldoffExpiry s = .next { s with dx := { s.dx with holdFrom := none } })) ∧
    (∀ p, s.dx.splice = some p →
      let late := p.giving = true ∧ p.sack = false ∧ dt p.k s.cyc ≤ 2
      (¬late → exec .spliceAbort s = .next s) ∧
      (late → ∃ t : State, exec .spliceAbort s = .next t ∧ t.dx.splice = none ∧ t.dx.abort = true ∧ t.f R.DX_STAT_SPLICERR = 1)) ∧
    (s.dx.splice = none → exec .spliceAbort s = .next s)) ∧
  (∀ s : State, s.canonical = true →
    let st := s.dxSt
    let silent := s.dx.beat = none ∨ ∃ m, s.dx.beat = some m ∧ 3 ≤ dt s.cyc m
    let lost := st ≠ 0 ∧ st ≠ 5 ∧ s.f R.DX_STAT_PARTNER = 1 ∧ silent
    let takes := (st = 3 ∨ st = 4) ∧ silent
    let down := s.f R.DX_STAT_PEER_LINK_DOWN = 1
    (¬lost → exec .partnerLost s = .next s) ∧
    (lost → st ≠ 2 → exec .partnerLost s = .next (s.set R.DX_STAT_PARTNER 0)) ∧
    (lost → st = 2 → ∃ t : State, exec .partnerLost s = .next t ∧ t.dxSt = 2 ∧ t.f R.DX_STAT_PARTNER = 0 ∧ t.dx.queued = [] ∧ t.dx.pHot = false) ∧
    (¬takes → exec .takeover s = .next s) ∧
    (takes → ∃ t : State, exec .takeover s = .next t ∧ t.dxSt = 2 ∧ t.f R.DX_STAT_ACTIVE = 1 ∧ t.f R.DX_STAT_PARTNER = 0 ∧
      t.f R.DX_SPLICE_CNT = min (s.f R.DX_SPLICE_CNT + 1) (2 ^ 32 - 1) ∧ t.f R.DX_SPLICE_CYC = s.cyc % 2 ^ 32 ∧
      (∀ r < 4, s.duplexRing r = true → t.f (R.RING_STAT_STATE r) = 5) ∧
      (∀ k < 64, s.f (R.K_STAT_STATE k) = 3 ∨ s.f (R.K_STAT_STATE k) = 4 →
        ((∀ x ∈ s.dx.kdec, x.1 ≠ k) → t.f (R.K_STAT_STATE k) = 7) ∧
        (∀ src < 3, s.dx.kdec = [(k, src, true)] → t.f (R.K_STAT_STATE k) = 5)) ∧
      ∀ d < 2, t.f (R.TD_CFG_SRC d) = if s.f (R.TD_CFG_SRC d) = 2 then s.f R.DX_CTRL_ACTSRC else s.f (R.TD_CFG_SRC d)) ∧
    (st = 0 ∨ down → exec .peerLinkLost s = .next s) ∧
    (st ≠ 0 → ¬down → ∃ t : State, exec .peerLinkLost s = .next t ∧ t.dxSt = st ∧ t.f R.DX_STAT_PEER_LINK_DOWN = 1 ∧ t.f R.DX_STAT_LANE0_UP = 0 ∧
      t.f R.DX_STAT_LANE1_UP = 0 ∧ t.f R.DX_STAT_HOT = (if st = 4 then 0 else s.f R.DX_STAT_HOT) ∧ t.dx.queued = [] ∧ t.dx.full = false) ∧
    (st = 0 ∨ ¬down → exec .peerLinkReturn s = .next s) ∧
    (down → st = 4 → ∃ t : State, exec .peerLinkReturn s = .next t ∧ t.dxSt = 3 ∧ t.f R.DX_STAT_HOT = 0 ∧ t.f R.DX_STAT_PEER_LINK_DOWN = 0 ∧
      t.dx.full = false ∧ t.dx.ins = s.dx.ins) ∧
    (down → st = 2 → s.f R.DX_STAT_PARTNER = 1 →
      let u := s.set R.DX_STAT_PEER_LINK_DOWN 0
      exec .peerLinkReturn s = .next { u with dx := { s.dx with unacked := [], queued := u.fullCopy } }) ∧
    (st ≠ 3 → st ≠ 4 → exec .mirrorLate s = .next s) ∧
    (st = 3 ∨ st = 4 → ∃ t : State, exec .mirrorLate s = .next t ∧ t.f R.DX_MIRLATE_CNT = min (s.f R.DX_MIRLATE_CNT + 1) (2 ^ 32 - 1) ∧
      t.dx.inRow = 0 ∧ (st = 3 ∨ s.dx.lateRow < 7 → t.dxSt = st) ∧
      (st = 4 → 7 ≤ s.dx.lateRow → t.dxSt = 3 ∧ t.f R.DX_STAT_HOT = 0 ∧ t.f R.DX_STAT_HOTLOST = 1)) ∧
    exec .reducedRecordResend s = .next { s with dx := { s.dx with
      unacked := s.dx.unacked.map (fun x => (x.1, x.2.1.filter (fun c => dt s.cyc c < 8), x.2.2)) } } ∧
    (let closes := st = 2 ∧ s.f R.DX_STAT_PARTNER = 1 ∧ s.peerUp = true
     (¬closes → exec .mirrorEndSend s = .next s) ∧
     (closes → ∃ (t : State) (recs : List MirrorRec), exec .mirrorEndSend s = .next t ∧
       (let n := (s.cyc + 2 ^ 32 - 1) % 2 ^ 32
        t.f R.DX_MIRCYC = n ∧ t.dx.sent = recs ++ [.endOf n recs.length true] ++ s.dx.queued) ∧ t.dx.queued = [] ∧ t.dx.posted = [] ∧
       ∀ a < 256, s.mirrored a = true → (∀ x ∈ s.dx.posted, x.1 ≠ a) → MirrorRec.classA (s.axMirror a) ∈ recs))) ∧
  (∀ (s : State) (lane : Fin 2) (m : PeerMsg), s.canonical = true →
    let st := s.dxSt
    let runs := st ≠ 0 ∧ st ≠ 5
    let u := s.set (if lane = 0 then R.DX_STAT_LANE0_UP else R.DX_STAT_LANE1_UP) 1
    let receives := exec (.peerMessageReceive lane m) s
    (¬runs → receives = .next s) ∧
    (runs → ∀ p c w hot, m = .heartbeat p c w hot →
      let partner := p ≠ s.serial ∧ (p = s.partnerSerial ∨ s.f R.DX_STAT_PARTNER = 0)
      let late := 0 < dt s.gnow (s.cstartOf s.grid ((c + 1) % 2 ^ 32))
      (¬partner → receives = .next u) ∧
      (partner → ∃ t : State, receives = .next t ∧ t.partnerSerial = p % 2 ^ 64 ∧ t.dx.pState = w ∧ t.dx.pHot = hot ∧
        (late → t.dx.beatPeer = s.dx.beatPeer) ∧ (¬late → t.dx.beatPeer = some c) ∧
        (¬late → s.f R.DX_STAT_PARTNER = 0 → 2 ≤ st → t.f R.DX_STAT_PARTNER = 1 ∧ t.dx.holdFrom = some (s.long s.grid) ∧ t.dx.splice = none ∧
          t.f R.DX_INS_COUNT = min (s.f R.DX_INS_COUNT + 1) 65535 ∧
          (2 ≤ (s.dx.ins.filter (fun x => s.long s.grid - x ≤ 60000000000)).length → t.f R.DX_STAT_LOCKOUT = 1)))) ∧
    (runs → ∀ k, m = .sreq k →
      (st = 4 → s.f R.DX_STAT_HOT = 1 → receives = .next { u with dx := { s.dx with splice := some ⟨k, true, false⟩ } }) ∧
      (st ≠ 4 ∨ s.f R.DX_STAT_HOT = 0 → receives = .next u)) ∧
    (runs → ∀ k, m = .sack k → s.dx.splice = some ⟨k, false, true⟩ → receives = .next { u with dx := { s.dx with splice := some ⟨k, true, true⟩ } }) ∧
    (runs → ∀ p, m = .sabort → s.dx.splice = some p →
      receives = .next (if p.giving then u else { u with dx := { s.dx with splice := none } })) ∧
    (runs → st ≠ 2 → m = .takeback → receives = .next u)) ∧
  (∀ s : State, s.canonical = true →
    let st := s.dxSt
    let takes := (st = 3 ∨ st = 4 ∨ (st = 2 ∧ s.dx.holdWake ≠ none)) ∧ s.peerUp = true
    let becomes := fun d : Dx => Host.Outcome.next { s with dx := d }
    (¬takes → ∀ m, exec (.mirrorRecordReceive m) s = .next s) ∧
    (takes →
      (∀ c ws, exec (.mirrorRecordReceive (.classC c ws)) s = becomes { s.dx with recv := s.dx.recv ++ [.classC c ws] }) ∧
      (∀ a, exec (.mirrorRecordReceive (.classA a)) s = becomes { s.dx with recv := s.dx.recv ++ [.classA a] }) ∧
      exec (.mirrorRecordReceive .copyDone) s = becomes { s.dx with full := true } ∧
      (∀ c n g mc, 0 < dt c s.cyc → s.dx.wait = [] → exec (.mirrorRecordReceive (.classP c n g mc)) s =
        becomes { s.dx with wait := [(c, .classP c n g mc)] }) ∧
      (∀ c n g mc, dt c s.cyc ≤ 0 → s.dx.wait = [] → ∃ t : State, exec (.mirrorRecordReceive (.classP c n g mc)) s = .next t ∧
        (t.ax n).gen = g ∧ (t.ax n).modeCyc = mc) ∧
      (∀ r < 32, ∀ c b,
        let sofar := SMap.get (fun _ => []) s.dx.parts r ++ b
        ∃ t : State, exec (.mirrorRecordReceive (.region r c b true)) s = .next t ∧ t.f (R.DX_MIR_CYC r) = c % 2 ^ 32 ∧
          t.bytes (s.mirAddr r) sofar.length = sofar) ∧
      (∀ n count good, good = false ∨ count ≠ s.dx.recv.length → exec (.mirrorRecordReceive (.endOf n count good)) s =
        becomes { s.dx with recv := [], inRow := 0 }) ∧
      (∀ n, ∀ a : AxMirror, s.dx.recv = [.classA a] → a.axis < 256 → s.dx.holdWake = none →
        ∃ t : State, exec (.mirrorRecordReceive (.endOf n 1 true)) s = .next t ∧ t.f R.DX_MIRCYC = n % 2 ^ 32 ∧ t.dx.lateRow = 0 ∧
          t.dx.inRow = min (s.dx.inRow + 1) 255 ∧ t.fa (R.AX_CTRL_MODE a.axis) = a.mode % 16 ∧ t.f (R.AX_POS_PREV a.axis) = a.posPrev % 2 ^ 32 ∧
          t.f (R.AX_STATUS_FB_RUN a.axis) = a.fbRun % 16 ∧ (t.ax a.axis).iv = a.iv ∧ (t.ax a.axis).nb = a.nb ∧
          t.dxSt = if st = 3 ∧ s.dx.full = true ∧ 7 ≤ s.dx.inRow then 4 else st)))

/-- Logline and fids (R417 to R433). -/
def Obligations.LoglineAndFids : Prop :=
  (∀ (s : State) (src : BitVec 16) (cls : Fin 4) (dom : BitVec 8) (data : List Word), s.canonical = true → s.fid.firing = none →
    let reports := exec (.logReport src cls dom data) s
    let l := s.log
    let mine := fun e : LEntry => e.src = src.toNat ∧ e.inj = false
    let fresh := (∀ e ∈ l.fifo, ¬mine e) ∧ (∀ e ∈ l.latches, ¬mine e) ∧ l.tAdm (2 * src.toNat) = none
    let room := l.held < (if cls.val = 3 then 128 else 112)
    let isNew := fun e : LEntry => mine e ∧ e.cls = cls.val ∧ e.dom = dom.toNat ∧ e.count = 1 ∧ e.tFirst = s.gnow ∧ e.tLast = s.gnow ∧
      e.cyc = s.cyc ∧ e.data = (data.map BitVec.toNat ++ [0, 0, 0, 0, 0, 0]).take 6
    (l.lastGasp = none → ∀ a e b, l.fifo = a ++ e :: b → mine e → (∀ x ∈ a, ¬mine x) →
      reports = .next { s with log := { l with fifo := a ++ { e with count := min (e.count + 1) (2 ^ 32 - 1), tLast := s.gnow } :: b } }) ∧
    (l.lastGasp = none → fresh → room → l.committing ≠ none → ∃ (t : State) (e : LEntry), reports = .next t ∧ isNew e ∧
      e.latched = false ∧ t.log.fifo = l.fifo ++ [e] ∧ t.log.latches = l.latches) ∧
    (fresh → ¬room → cls.val = 3 → ∃ (t : State) (e : LEntry), reports = .next t ∧ isNew e ∧ e.latched = true ∧
      t.log.latches = l.latches ++ [e] ∧ t.log.fifo = l.fifo ∧ t.regs = s.regs) ∧
    (l.lastGasp ≠ none ∨ (fresh ∧ ¬room) → cls.val ≠ 3 → ∃ t : State, reports = .next t ∧
      t.f R.LL_LOST_TOTAL = min (s.f R.LL_LOST_TOTAL + 1) (2 ^ 32 - 1) ∧ ({ t with log := l, regs := s.regs } : State) = s)) ∧
  (∀ s : State, s.canonical = true →
    let l := s.log
    (l.latches = [] → exec .latchAdmit s = .next s) ∧
    (∀ e, l.latches = [e] → l.committing ≠ none → l.lastGasp = none → l.held < 112 → e.cls = 3 ∨ e.src = 1 ∨ l.tAdm (srcKey e.src e.inj) = none →
      ∃ t : State, exec .latchAdmit s = .next t ∧ t.log.latches = [] ∧ t.log.fifo = l.fifo ++ [{ e with latched := true, rtc := s.f R.AON_RTC_S_S }]) ∧
    (∀ e, l.committing = some e → e.data.length = 6 → s.fid.pend = [] → s.fid.wfail = false → s.pmu.saveWait = false → s.pmu.off4 = false →
      s.f R.PMU_STAT_STEP ≠ 5 → ∃ t : State, exec (.logCommitDone true true) s = .next t ∧
      t.head = (s.head + 1) % 2 ^ 64 ∧ t.oldest = max s.oldest (s.head + 1 - 65536) ∧
      t.f R.LL_COMMIT_CNT = (s.f R.LL_COMMIT_CNT + 1) % 2 ^ 32 ∧
      (∀ k < 2, let a := 0x04000000 + 0x400000 * k + 0x40 * (s.head % 65536)
        t.rd a 8 = s.head ∧ t.rd (a + 8) 2 = e.src % 2 ^ 16 ∧ t.rd (a + 11) 1 = e.dom % 2 ^ 8 ∧ t.rd (a + 12) 4 = e.count % 2 ^ 32 ∧
        t.rd (a + 16) 4 = e.tFirst % 2 ^ 32 ∧ t.rd (a + 20) 4 = e.tLast % 2 ^ 32 ∧ t.rd (a + 28) 2 = s.f R.LL_BOOTN_BOOTN ∧
        (∀ i < 6, t.rd (a + 36 + 4 * i) 4 = e.data.getD i 0 % 2 ^ 32) ∧ t.rd (a + 60) 4 = crc32 (t.bytes a 60))) ∧
    (s.f R.LL_STAT_STATE ≠ 0 → exec .logScanDone s = .next s) ∧
    (s.f R.LL_STAT_STATE = 0 → s.f R.LL_SCAN_MIS = 0 → (∀ a, 0x04000000 ≤ a → a < 0x04800000 → s.byte a = 0) →
      ∃ (t : State) (e : LEntry), exec .logScanDone s = .next t ∧ t.head = 1 ∧ t.oldest = 1 ∧ t.f R.LL_BOOTN_BOOTN = 0 ∧
        t.f R.LL_STAT_STATE = 1 ∧ t.mem = s.mem ∧ t.log.committing = some e ∧ e.src = 0 ∧ e.data.getD 3 0 = 65536) ∧
    (l.reads = [] → exec .logReadDone s = .next s) ∧
    (∀ q w rest, l.reads = ⟨q, w⟩ :: rest → w = none ∨ w = some 0 →
      let reg := fun (t : State) (i : Nat) => match w with | none => t.f (R.LL_RD i) | some d => t.f (R.LW_REC d i)
      let stat := fun t : State => match w with | none => t.reg R.LL_RD_STAT | some d => t.reg (R.LW_STAT d)
      let c0 := s.bytes (0x04000000 + 0x40 * (q % 65536)) 64
      let c1 := s.bytes (0x04400000 + 0x40 * (q % 65536)) 64
      let valid := fun c : List Byte => leAt c 60 4 = crc32 (c.take 60) ∧ leAt c 0 8 = q
      ∃ t : State, exec .logReadDone s = .next t ∧ t.log.reads = rest ∧ t.mem = s.mem ∧
        (s.head ≤ q → stat t = 32 ∧ ∀ i < 16, reg t i = 0) ∧
        (q < s.head → 0 < q → valid c0 → c1 = c0 → stat t = 1 ∧ ∀ i < 16, reg t i = leAt c0 (4 * i) 4) ∧
        (q < s.head → 0 < q → valid c0 → valid c1 → c1 ≠ c0 → stat t = 17 ∧ (∀ i < 16, reg t i = leAt c0 (4 * i) 4) ∧
          (w = none → ∀ i < 16, t.f (R.LL_ALT i) = leAt c1 (4 * i) 4))) ∧
    (∀ q d rest, l.reads = ⟨q, some d⟩ :: rest → 0 < d → d < 256 → q < s.head → 0 < q →
      let c0 := s.bytes (0x04000000 + 0x40 * (q % 65536)) 64
      leAt c0 60 4 = crc32 (c0.take 60) → leAt c0 0 8 = q → s.bytes (0x04400000 + 0x40 * (q % 65536)) 64 = c0 → leAt c0 11 1 ≠ d →
      ∃ t : State, exec .logReadDone s = .next t ∧ t.reg (R.LW_STAT d) = 64 ∧ ∀ i < 16, t.f (R.LW_REC d i) = 0) ∧
    (l.erase = none ∨ l.erase = some 0 → ∀ w, exec (.logEraseDone w) s = .next s) ∧
    (∀ q (w : BitVec 16), l.erase = some q → 0 < q → q < 2 ^ 64 →
      (l.eraseAborted = false → w.toNat = 65535 → ∃ t : State, exec (.logEraseDone w) s = .next t ∧ t.f R.LL_ERASE_RESULT = 2 ∧
        t.f R.LL_STAT_STATE = 1 ∧ t.oldest = q ∧ ∀ a, t.byte a =
          if 0x04000000 ≤ a ∧ a < 0x04800000 ∧ (a - 0x04000000) % 0x400000 / 64 ≠ q % 65536 then 0 else s.byte a) ∧
      (l.eraseAborted = true ∨ w.toNat < 65535 → ∃ t : State, exec (.logEraseDone w) s = .next t ∧ t.f R.LL_ERASE_RESULT = 3 ∧
        t.f R.LL_STAT_STATE = 1 ∧ t.oldest = s.oldest)) ∧
    (s.f R.LL_STAT_STATE = 4 → exec .sysClockLoss s = .next s ∧ ∃ t : State, exec .sysClockReturn s = .next t ∧
      t.f R.LL_STAT_STATE = l.tckFrom % 16) ∧
    (s.f R.LL_STAT_STATE ≠ 4 → exec .sysClockReturn s = .next s ∧
      exec .sysClockLoss s = .next (({ s with log := { l with tckFrom := s.f R.LL_STAT_STATE } } : State).set R.LL_STAT_STATE 4))) ∧
  (∀ (s : State) (who : Requester), s.canonical = true →
    let others := fun w : Option Nat => s.log.reads.filter (fun r => r.win ≠ w)
    (∀ q : Word, Permits s who R.LL_RD_SEQ_LO_W q.toNat → exec (.logRead who q) s =
      .next (((({ s with log := { s.log with reads := others none ++ [⟨q.toNat + 2 ^ 32 * s.f R.LL_RD_SEQ_HI_SEQ, none⟩] } } : State).set
        R.LL_RD_SEQ_LO_SEQ q.toNat).set R.LL_RD_STAT_BUSY 1).answer .ok)) ∧
    (∀ (d : Fin 256) (q : Word), Permits s who (R.LW_SEQ_LO_W d) q.toNat → exec (.windowRead who d q) s =
      .next (((({ s with log := { s.log with reads := others (some d.val) ++ [⟨q.toNat + 2 ^ 32 * s.f (R.LW_SEQ_HI_SEQ d), some d.val⟩] } } : State).set
        (R.LW_SEQ_LO_SEQ d) q.toNat).set (R.LW_STAT_BUSY d) 1).answer .ok)) ∧
    (∀ (d : Fin 256) (cls : Fin 4), Permits s who (R.LW_GO d) (2 ^ 31 + cls.val) → ∃ t : State,
      exec (.softwareReport who d cls) s = .next (t.answer .ok) ∧
      exec (.logReport (BitVec.ofNat 16 (13 * 2048 + d.val)) (if cls = 3 then 2 else cls) (BitVec.ofNat 8 d.val)
        ((List.range 6).map (fun i => s.w (R.LW_DATA d i)))) (s.set (R.LW_GO_CLASS d) cls.val) = .next t) ∧
    (∀ code : BitVec 4, Permits s who R.LL_ERASE (2 ^ 31 + code.toNat) →
      let u := s.set R.LL_ERASE_CODE code.toNat
      let looked := { u with free := s.free + 1 }
      let pins := (Config.freeWord s.free).toNat % 16
      let sealOpen := s.f R.BEL_STAT_STATE = 5
      let free := s.f R.LL_STAT_STATE = 1 ∧ s.log.erase = none
      (¬sealOpen → exec (.logErase who code) s = .next ((u.set R.LL_ERASE_RESULT 4).answer .ok)) ∧
      (sealOpen → pins ≠ code.toNat → exec (.logErase who code) s = .next ((looked.set R.LL_ERASE_RESULT 5).answer .ok)) ∧
      (sealOpen → pins = code.toNat → ¬free → exec (.logErase who code) s = .next ((looked.set R.LL_ERASE_RESULT 6).answer .ok)) ∧
      (sealOpen → pins = code.toNat → free → ∃ t : State, exec (.logErase who code) s = .next (t.answer .ok) ∧ t.f R.LL_ERASE_RESULT = 1 ∧
        t.f R.LL_STAT_STATE = 2 ∧ t.log.erase = some 0 ∧ (s.log.committing = none → ∃ e, t.log.committing = some e ∧ e.src = 2 ∧ e.cls = 3))) ∧
    (∀ key : Word, Permits s who R.FID_UNLOCK_W key.toNat →
      let within := ∃ t, s.fid.unlockAt = some t ∧ s.tim.clk - t ≤ 1000000
      (key = 0x0000F1D0 → exec (.fidUnlock who key) s = .next (({ s with fid := { s.fid with unlockAt := some s.tim.clk } } : State).answer .ok)) ∧
      (key = 0x00000F1D → within → exec (.fidUnlock who key) s = .next ((({ s with fid := { s.fid with
        unlockAt := none, armedUntil := some (s.tim.clk + s.f R.FID_ARMTIME_MS * 1000000) } } : State).set R.FID_CTRL_ARMED 1).answer .ok)) ∧
      (key ≠ 0x0000F1D0 → key ≠ 0x00000F1D ∨ ¬within →
        exec (.fidUnlock who key) s = .next (({ s with fid := { s.fid with unlockAt := none } } : State).answer .ok))) ∧
    (let stopped := fun t : State => t.f R.FID_CTRL_ARMED = 0 ∧ t.fid.armedUntil = none ∧ t.log = s.log ∧
       ∀ j < 8, (s.fid.slot j).running = true → t.f (R.FS_STAT_RESULT j) = 6 ∧ t.f (R.FS_CTRL_GO j) = 0
     (Permits s who R.FID_CTRL 1 → ∃ t : State, exec (.fidDisarm who) s = .next (t.answer .ok) ∧ stopped t) ∧
     (s.f R.FID_CTRL_ARMED = 0 → exec .fidArmExpiry s = .next s) ∧
     (s.f R.FID_CTRL_ARMED = 1 → ∃ t : State, exec .fidArmExpiry s = .next t ∧ stopped t))) ∧
  (∀ (s : State) (who : Requester) (j : Fin 8), s.canonical = true → SMap.wf (fun _ => {}) s.fid.slots = true →
    let runs := (s.fid.slot j).running = true
    let src := s.f (R.FS_SRC_SRC j)
    let armed := s.f R.FID_CTRL_ARMED = 1
    (PermitsF s who (R.FS_CTRL_STOP j) 1 →
      (¬runs → exec (.fidSlotStop who j) s = .next (s.answer .ok)) ∧
      (runs → exec (.fidSlotStop who j) s = .next ((((s.setFidSlot j {}).set (R.FS_CTRL_GO j) 0).set (R.FS_STAT_RESULT j) 6).answer .ok))) ∧
    (∀ n : BitVec 16, Permits s who (R.FS_CTRL j) (2 ^ 31 + n.toNat) →
      let u := s.set (R.FS_CTRL_N j) n.toNat
      let none' := 65 ≤ src ∧ src ≤ 318
      let has := src = 64 ∨ src / 2048 = 3
      (runs → exec (.fidSlotGo who j n) s = .next (u.answer .ok)) ∧
      (¬runs → ¬armed → exec (.fidSlotGo who j n) s = .next ((u.set (R.FS_STAT_RESULT j) 3).answer .ok)) ∧
      (¬runs → armed → 14 * 2048 ≤ src → exec (.fidSlotGo who j n) s = .next ((u.set (R.FS_STAT_RESULT j) 4).answer .ok)) ∧
      (¬runs → armed → none' → exec (.fidSlotGo who j n) s = .next ((u.set (R.FS_STAT_RESULT j) 5).answer .ok)) ∧
      (¬runs → armed → has → 0 < n.toNat → 0 ≤ dt (s.f (R.FS_T0 j)) s.gnow → ∃ t : State, exec (.fidSlotGo who j n) s = .next (t.answer .ok) ∧
        t.fid.slot j = ⟨true, 0, n.toNat⟩ ∧ t.f (R.FS_CTRL_N j) = n.toNat ∧ t.f (R.FS_CTRL_GO j) = 1 ∧ t.f (R.FS_STAT_RESULT j) = 1 ∧
        t.f (R.FS_STAT_DONE j) = 0 ∧ t.f (R.FS_STAT_MISSED j) = 0)) ∧
    (¬runs → exec (.fidFire j) s = .next s) ∧
    (runs → ∃ t : State, exec (.fidFire j) s = .next t ∧
      (src = 64 → s.islOn islSYS = true → t.f R.FID_FIRED_CNT = min (s.f R.FID_FIRED_CNT + 1) (2 ^ 32 - 1) ∧ t.fid.lastFire = some s.gnow ∧
        t.f (R.FS_STAT_DONE j) = min (s.f (R.FS_STAT_DONE j) + 1) 65535 ∧
        ((s.fid.slot j).n ≤ (s.fid.slot j).m + 1 → t.f (R.FS_STAT_RESULT j) = 2 ∧ t.f (R.FS_CTRL_GO j) = 0) ∧
        ((s.fid.slot j).m + 1 < (s.fid.slot j).n → t.fid.slot j = ⟨true, (s.fid.slot j).m + 1, (s.fid.slot j).n⟩)) ∧
      (src = 64 → s.islOn islSYS = false → t.f (R.FS_STAT_MISSED j) = min (s.f (R.FS_STAT_MISSED j) + 1) 255 ∧ t.log = s.log) ∧
      (src / 2048 = 3 → src % 8 ≠ 6 → s.islOn islDSP = true → t.fid.pend = s.fid.pend ++ [(src, j.val, s.gnow)] ∧ t.log = s.log)))

/-- Power management (R439 to R454, R458). The order in which several refusals of one request fall is the model's. -/
def Obligations.PowerManagement : Prop :=
  (∀ s : State, s.canonical = true →
    let step := s.f R.PMU_STAT_STEP
    let pd := s.f R.PMU_PD_STAT_PD
    let final := fun t : State => t.f R.PMU_STAT_STEP = 5 ∧ t.f R.PMU_STAT_JUMP = 1 ∧ t.f R.BEL_SO_ASSERTED = 15 ∧ t.log.lastGasp ≠ none ∧
      t.pmu.save = none ∧ t.pmu.off4 = false
    (∀ k : Fin 7, ∃ t : State, exec (.railFault k) s = .next t ∧ t.f ⟨R.PMU_RAIL_STAT, 16 + k.val, 16 + k.val⟩ = 1 ∧
      t.f ⟨R.PMU_RAIL_STAT, k.val, k.val⟩ = 0 ∧ t.f R.PMU_STAT_STEP = 5 ∧ (step ≠ 5 → final t ∧ t.f R.PMU_PD_STAT_PD = pd &&& 11)) ∧
    (∀ d : Fin 24, (d.val = 0 ∨ 3 < d.val → exec (.domainLevelLoss d) s = .next s) ∧
      (1 ≤ d.val → d.val ≤ 3 → ∃ t : State, exec (.domainLevelLoss d) s = .next t ∧ t.f R.PMU_STAT_STEP = 5 ∧
        t.f ⟨R.PMU_PD_STAT_W, d.val, d.val⟩ = 0 ∧ (step ≠ 5 → final t))) ∧
    (∀ vin vbat, vin = true ∨ vbat = true → exec (.vbatChangeover vin vbat) s = .next s) ∧
    (∃ t : State, exec (.vbatChangeover false false) s = .next t ∧ t.f R.PMU_PD_STAT_PD = 1 ∧ t.f R.AON_RTC_S_S = 0 ∧ t.pmu.why = 0 ∧
      t.f R.BEL_STAT_SEAL_CNT = 0 ∧ ∀ w, 1 ≤ w → w < 64 → t.reg (R.AON_RET_W w) = 0) ∧
    (s.pmu.cur = none → exec .domainSwitchDone s = .next s ∧ exec .domainSwitchTimeout s = .next s) ∧
    (∀ d on, s.pmu.cur = some (d, on) → d < 24 →
      let waits := on = false ∧ s.pdOffline d = false
      (waits → exec .domainSwitchDone s = .next s) ∧
      (¬waits → ∃ t : State, exec .domainSwitchDone s = .next t ∧
        t.f R.PMU_PD_STAT_PD = if on then pd ||| 2 ^ d else pd &&& (0xFFFFFF ^^^ 2 ^ d)) ∧
      (¬waits → exec .domainSwitchTimeout s = .next s) ∧
      (waits → ∃ t : State, exec .domainSwitchTimeout s = .next t ∧ t.f R.PMU_STAT_PDERR = 1 ∧ t.f R.PMU_PD_STAT_PD = pd ∧
        t.pmu.cur ≠ some (d, false))) ∧
    (s.pmu.rst = none → exec .islandResetDone s = .next s) ∧
    (∀ i < 41, s.pmu.rst = some i → ∃ t : State, exec .islandResetDone s = .next t ∧ t.f R.PMU_ISLRST_GO = 0 ∧ t.pmu.rst = none ∧ t.rep i = {} ∧
      (∀ x ∈ t.tim.failed, x.1 ≠ i ∧ x.2 ≠ i) ∧ ∀ r < 4, ringIsl r = i → t.f (R.RING_CTRL_EN r) = 0 ∧ t.f (R.RING_STAT_STATE r) = 0) ∧
    (s.pmu.oppQ = [] → exec .oppChangeDone s = .next s) ∧
    (∀ i more, s.pmu.oppQ = i :: more → i < 33 → ∃ t : State, exec .oppChangeDone s = .next t ∧ t.f (R.PMU_ISL_BUSY i) = 0 ∧ t.pmu.oppQ = more ∧
      (more = [] → 720 ≤ t.pmu.vcore ∧ ∀ j < 33, oppLevel (s.f (R.PMU_ISL_OPP j)) ≤ t.pmu.vcore)) ∧
    (∀ (j : Fin 32) (a : Fin 256),
      let seen := s.f (R.BUS_CFG_EN j) = 1 ∧ s.f (R.BUS_CFG_KIND j) = 0 ∧ bit (s.f (R.BUS_AXMASK j (a.val / 32))) (a.val % 32) = true ∧
        s.f (R.AX_BIND_NET_VALID a) = 1
      (¬seen → exec (.nodeCollapse j a) s = .next s) ∧
      (seen → ∃ t : State, exec (.nodeCollapse j a) s = .next t ∧ t.f (R.BUS_STAT_COLL j) = 1 ∧
        ∀ n ∈ s.nodeAxes (s.f (R.AX_BIND_RING a)) (s.f (R.AX_BIND_NODE a)), t.fa (R.AX_CTRL_MODE n) = 0)) ∧
    (∃ t : State, exec .pfAssert s = .next t ∧ t.f R.PMU_STAT_PF = 1 ∧
      t.f R.PMU_STAT_STEP = (if s.f R.PMU_MLS_CTRL_EN = 1 ∧ step = 0 then 1 else step) ∧
      (s.f R.PMU_MLS_CTRL_EN = 1 → step = 0 → t.f (R.PMU_MLS_T_STAMP 0) = s.gnow)) ∧
    (step ≠ 1 → exec .mlsStopEnd s = .next s) ∧ (step ≠ 2 → exec .mlsStoEnd s = .next s) ∧ (step ≠ 3 → exec .mlsSaveEnd s = .next s) ∧
    (step = 1 → ∃ t : State, exec .mlsStopEnd s = .next t ∧ t.f R.PMU_STAT_STEP = 2 ∧ t.f (R.PMU_MLS_T_STAMP 1) = s.gnow) ∧
    (step = 2 → ∃ t : State, exec .mlsStoEnd s = .next t ∧ t.f R.PMU_STAT_STEP = 3 ∧ t.f (R.PMU_MLS_T_STAMP 2) = s.gnow ∧
      (s.f R.PMU_SAVE_CTRL_EN = 1 → s.log.held ≠ 0 → t.pmu.saveWait = true)) ∧
    (step = 3 → ∃ t : State, exec .mlsSaveEnd s = .next t ∧ t.f R.PMU_STAT_STEP = 4 ∧ t.f (R.PMU_MLS_T_STAMP 3) = s.gnow ∧ t.pmu.off4 = true ∧
      t.pmu.save = none ∧ t.f R.BEL_SO_ASSERTED = 15 ∧ (s.pmu.save ≠ none ∨ s.pmu.saveWait = true → t.f R.PMU_STAT_SAVEERR = 1)) ∧
    (let ends := s.f R.PMU_CTRL_PFRECOVER = 1 ∧ (step = 1 ∨ (step = 2 ∧ dt s.gnow (s.f (R.PMU_MLS_T_STAMP 1)) ≤ 0))
     (¬ends → exec .pfRelease s = .next (s.set R.PMU_STAT_PF 0)) ∧
     (ends → ∃ t : State, exec .pfRelease s = .next t ∧ t.f R.PMU_STAT_PF = 0 ∧ t.f R.PMU_STAT_STEP = 0)) ∧
    (s.pmu.save = none → ∀ good, exec (.saveWriteDone good) s = .next s) ∧
    (∀ h b, s.pmu.save = some (h, b) →
      (∃ t : State, exec (.saveWriteDone true) s = .next t ∧ t.bytes (0x04800000 + 0x200000 * h) b.length = b ∧ t.pmu.save = none ∧
        t.f R.PMU_SAVE_SSEQ_SSEQ = leAt b 8 4) ∧
      (∃ t : State, exec (.saveWriteDone false) s = .next t ∧ t.f R.PMU_STAT_SAVEERR = 1 ∧ t.pmu.save = none)) ∧
    (let starts := fun (t : State) (cause : Nat) => t.f R.PMU_RESET_CAUSE_CAUSE = cause ∧
       ∀ a, 0x04000000 ≤ a → a < 0x05000000 → t.byte a = s.byte a
     (∃ t : State, exec .powerUp s = .next t ∧ starts t 0) ∧ (∃ t : State, exec .debugPortReset s = .next t ∧ starts t 6) ∧
     (∀ alarm, pd ≠ 1 ∨ s.f (if alarm then R.AON_STANDBY_ALARMEN else R.AON_STANDBY_AUTOWAKE) = 0 → exec (.wake alarm) s = .next s) ∧
     (∀ alarm, pd = 1 → s.f (if alarm then R.AON_STANDBY_ALARMEN else R.AON_STANDBY_AUTOWAKE) = 1 →
       ∃ t : State, exec (.wake alarm) s = .next t ∧ starts t (if alarm then 2 else s.pmu.why % 16)) ∧
     (∀ who, PermitsF s who R.PMU_CTRL_SWRESET 1 → ∃ t : State, exec (.softwareReset who) s = .next (t.answer .ok) ∧ starts t 5))) ∧
  (∀ (s : State) (who : Requester), s.canonical = true →
    let step := s.f R.PMU_STAT_STEP
    (∀ req : BitVec 24, Permits s who R.PMU_PD_REQ_W req.toNat →
      (s.pmu.cur ≠ none → exec (.domainRequest who req) s =
        .next (({ s with pmu := { s.pmu with refused := 0, via := reqVia who } } : State).set R.PMU_PD_REQ_PD req.toNat |>.answer .ok)) ∧
      (s.pmu.cur = none → ∃ t : State, exec (.domainRequest who req) s = .next (t.answer .ok) ∧ t.f R.PMU_PD_REQ_PD = req.toNat ∧
        t.f R.PMU_PD_STAT_PD = s.f R.PMU_PD_STAT_PD ∧ (req.toNat = s.f R.PMU_PD_STAT_PD → t.pmu.cur = none) ∧
        ∀ d on, t.pmu.cur = some (d, on) → bit req.toNat d = on ∧ bit (s.f R.PMU_PD_STAT_PD) d = !on ∧ (on = false → 4 ≤ d))) ∧
    (∀ isl : BitVec 6, Permits s who R.PMU_ISLRST (2 ^ 31 + isl.toNat) →
      let may := isl.toNat < 41 ∧ s.islOn isl.toNat = true ∧ ∀ c ∈ islCores isl.toNat, s.f (R.DSP_CORE_ONLINE c) = 0
      (s.pmu.rst ≠ none → exec (.islandReset who isl) s = .next ((s.set R.PMU_ISLRST_ISLAND isl.toNat).answer .ok)) ∧
      (s.pmu.rst = none → may → exec (.islandReset who isl) s = .next (((({ s with pmu := { s.pmu with rst := some isl.toNat } } : State).set
        R.PMU_ISLRST_ISLAND isl.toNat).set R.PMU_ISLRST_GO 1).answer .ok)) ∧
      (s.pmu.rst = none → ¬may → ∃ t : State, exec (.islandReset who isl) s = .next (t.answer .ok) ∧
        Alike (((s.set R.PMU_ISLRST_ISLAND isl.toNat).set R.PMU_ISLRST_GO 0).set R.PMU_ISLRST_REFUSED 1) t)) ∧
    (∀ (i : Fin 33) (o : Fin 4), Permits s who (R.PMU_ISL i) o.val →
      (s.f (R.PMU_ISL_OPP i) = o.val → exec (.oppChange who i o) s = .next (s.answer .ok)) ∧
      (s.f (R.PMU_ISL_OPP i) ≠ o.val → ∃ t : State, exec (.oppChange who i o) s = .next (t.answer .ok) ∧ t.f (R.PMU_ISL_OPP i) = o.val ∧
        t.f (R.PMU_ISL_BUSY i) = 1 ∧ i.val ∈ t.pmu.oppQ ∧ s.pmu.vcore ≤ t.pmu.vcore ∧ oppLevel o.val ≤ t.pmu.vcore)) ∧
    (PermitsF s who R.AON_STANDBY_GO 1 →
      (4 ≤ step → exec (.standbyGo who) s = .next (s.answer .ok)) ∧
      (step < 4 → ∃ t : State, exec (.standbyGo who) s = .next (t.answer .ok) ∧ t.f R.PMU_STAT_STEP = 4 ∧ t.pmu.off4 = true ∧ t.pmu.save = none ∧
        t.f R.BEL_SO_ASSERTED = 15 ∧ t.f ⟨R.PMU_PD_STAT_W, 2, 2⟩ = 0)) ∧
    (PermitsF s who R.PMU_CTRL_SHUTDOWN 1 →
      (step ≠ 0 → exec (.shutdown who) s = .next (s.answer .ok)) ∧
      (step = 0 → ∃ t : State, exec (.shutdown who) s = .next (t.answer .ok) ∧ t.f R.PMU_STAT_STEP = 1 ∧ t.f (R.PMU_MLS_T_STAMP 0) = s.gnow)) ∧
    (PermitsF s who R.PMU_SAVE_CTRL_GO 1 →
      (s.pmu.save ≠ none → exec (.saveGo who) s = .next (s.answer .ok)) ∧
      (s.pmu.save = none → 0x200000 < s.saveLen → ∃ t : State, exec (.saveGo who) s = .next (t.answer .ok) ∧
        Alike (s.set R.PMU_STAT_SAVEERR 1) t) ∧
      (s.pmu.save = none → s.saveLen ≤ 0x200000 → ∃ (h : Nat) (b : List Byte),
        exec (.saveGo who) s = .next (({ s with pmu := { s.pmu with save := some (h, b ++ leBytes 4 (crc32 b)) } } : State).answer .ok) ∧
        b.take 4 = leBytes 4 0x31564153 ∧ (s.halfValid 0 = false → h = 0) ∧ (s.halfValid 0 = true → s.halfValid 1 = false → h = 1))))

/-- Boot area, hosts and pins (R463 to R494). What a PCIe address returns is a free value. -/
def Obligations.BootHostsAndPins : Prop :=
  (∀ (s : State) (who : Requester), s.canonical = true →
    let boots := fun b : Boot => ({ s with boot := b } : State)
    let hosts := fun h : Hosts => ({ s with host := h } : State)
    (PermitsF s who R.DOM_FUSEPROG_GO 1 →
      let ver := s.f R.DOM_FUSEPROG_VER = 1
      let key := s.f R.DOM_FUSEPROG_KEY
      let live := fun i : Nat => bit s.boot.keyrev i = false ∧ s.boot.hash i ≠ 0
      let last := ¬ver ∧ live key ∧ ∀ i < 4, i ≠ key → ¬live i
      (s.boot.prog ≠ none → exec (.fuseProgram who) s = .next (s.answer .ok)) ∧
      (s.boot.prog = none → last → ∃ t : State, exec (.fuseProgram who) s = .next (t.answer .ok) ∧ Alike (s.set R.DOM_FUSEPROG_RESULT 3) t) ∧
      (s.boot.prog = none → ver → exec (.fuseProgram who) s = .next (((boots { s.boot with prog := some (true, s.f R.DOM_FUSEPROG_BIT) }).set
        R.DOM_FUSEPROG_RESULT 1).answer .ok)) ∧
      (s.boot.prog = none → ¬ver → ¬last → exec (.fuseProgram who) s = .next (((boots { s.boot with prog := some (false, key) }).set
        R.DOM_FUSEPROG_RESULT 1).answer .ok))) ∧
    (s.boot.prog = none → exec .fuseProgramDone s = .next s) ∧
    (∀ v i, s.boot.prog = some (v, i) → ∃ t : State, exec .fuseProgramDone s = .next t ∧ t.f R.DOM_FUSEPROG_RESULT = 2 ∧ t.boot =
      if v then { s.boot with prog := none, minver := s.boot.minver ||| 2 ^ i } else { s.boot with prog := none, keyrev := s.boot.keyrev ||| 2 ^ i }) ∧
    (PermitsF s who R.DOM_MWR_CTL_GO 1 →
      let src := 4 * s.f R.DOM_MWR_SRC
      let dst := 4 * s.f R.DOM_MWR_DST
      let len := s.f R.DOM_MWR_LEN
      let inPart := fun lo size : Nat => lo ≤ dst ∧ dst + len ≤ lo + size
      let may := 4 ≤ len ∧ len ≤ 1966080 ∧ len % 4 = 0 ∧ src + len ≤ 0x1000000 ∧
        (inPart 0 0x1E0000 ∨ inPart 0x1E0000 0x1E0000 ∨ inPart 0x3CC000 0x34000)
      (s.boot.mwr ≠ none → exec (.mramWrite who) s = .next (s.answer .ok)) ∧
      (s.boot.mwr = none → ¬may → ∃ t : State, exec (.mramWrite who) s = .next (t.answer .ok) ∧ Alike (s.set R.DOM_MWR_CTL_RESULT 3) t) ∧
      (s.boot.mwr = none → may → exec (.mramWrite who) s =
        .next (((boots { s.boot with mwr := some (src, dst, len) }).set R.DOM_MWR_CTL_RESULT 1).answer .ok))) ∧
    (s.boot.mwr = none → ∀ good, exec (.mramWriteDone good) s = .next s) ∧
    (∀ src dst len, s.boot.mwr = some (src, dst, len) →
      (∃ t : State, exec (.mramWriteDone true) s = .next t ∧ t.bytes (0x04C00000 + dst) len = s.bytes src len ∧ t.f R.DOM_MWR_CTL_RESULT = 2 ∧
        t.boot.mwr = none) ∧
      (∃ t : State, exec (.mramWriteDone false) s = .next t ∧ t.f R.DOM_MWR_CTL_RESULT = 4 ∧ t.boot.mwr = none)) ∧
    (PermitsF s who R.DOM_BOOT_CTRL_DBGOPEN 1 → exec (.debugOpen who) s = .next ((s.set R.DOM_BOOT_CTRL_DBGOPEN 1).answer .ok)) ∧
    (∀ good : Bool, exec (.dramTrainingDone good) s =
      .next (if s.pdOn 15 = true then (s.set R.DOM_DRAM_READY good.toNat).set R.DOM_DRAM_TRAINERR (!good).toNat else s)) ∧
    (∀ (f : Fin 64) (vec : Fin 8), Permits s who (R.PCIE_MSIX_SEND_W f) vec.val →
      exec (.msixSend who f vec) s = .next ((hosts { s.host with msix := some (f.val, vec.val) }).answer .ok)) ∧
    (∀ (write : Bool) (a : BitVec 52) (z : Size) (d : BitVec 64), s.range a.toNat = some .outbound →
      let n := sizeBytes z
      let v := d.toNat % 2 ^ (8 * n)
      let links := s.f R.PCIE_STAT_BME = 1 ∧ s.f R.PCIE_STAT_LINKUP = 1
      s.check who a.toNat n (if write then v else 0) (if write then .write else .read) = .ok →
      (¬links → exec (.pcieOutbound who write a z d) s = .next (s.answer .accessError)) ∧
      (links → write = true → exec (.pcieOutbound who write a z d) s =
        .next ((hosts { s.host with outSent := some (true, a.toNat - 0x800000000, n, v) }).answer .ok)) ∧
      (links → write = false → ∃ (t : State) (x : Nat), exec (.pcieOutbound who write a z d) s = .next (t.answer (.data x)) ∧
        t.host = { s.host with outSent := some (false, a.toNat - 0x800000000, n, 0), outRead := some who } ∧ t.mem = s.mem ∧ t.regs = s.regs)) ∧
    (s.host.outRead = none → exec .pcieOutboundTimeout s = .next s) ∧
    (s.host.outRead ≠ none → ∃ t : State, exec .pcieOutboundTimeout s = .next (t.answer .accessError) ∧
      Alike (hosts { s.host with outRead := none }) t) ∧
    (∀ (f : Fin 64) (v : Word), ¬(f = 0 ∧ s.boot.waitHost = true) →
      let tagged := s.f (R.PCIE_FN_CFG_DBTAGEN f) = 1
      (s.pdOn 14 = false → exec (.pcieDoorbell f v) s = .next s) ∧
      (s.pdOn 14 = true → tagged → ∃ t : State, exec (.pcieDoorbell f v) s = .next t ∧ Filled s t (s.f (R.PCIE_FN_DB_TAG_TAG f)) v.toNat) ∧
      (s.pdOn 14 = true → ¬tagged → exec (.pcieDoorbell f v) s = .next (s.ext (67 + f.val)))) ∧
    (∀ v : Word, s.boot.waitHost = true → s.pdOn 14 = true → ∃ t : State, exec (.pcieDoorbell 0 v) s = .next t ∧
      ∀ f < 64, t.f (R.PCIE_FN_CFG_IN_EN f) = 0) ∧
    (∀ (up : Bool) (gen width : BitVec 3),
      (s.pdOn 14 = false → exec (.pcieLinkChange up gen width) s = .next s) ∧
      (s.pdOn 14 = true → ∃ t : State, exec (.pcieLinkChange up gen width) s = .next t ∧ t.f R.PCIE_STAT_LINKUP = up.toNat ∧
        t.f R.PCIE_STAT_GEN = gen.toNat ∧ t.f R.PCIE_STAT_WIDTH = width.toNat ∧ (up = false → t.f R.PCIE_STAT_BME = 0))) ∧
    (∀ (f : Fin 64) (write : Bool) (o : Nat) (z : Size) (d : BitVec 64),
      let n := sizeBytes z
      let v := d.toNat % 2 ^ (8 * n)
      let a := s.f (R.PCIE_FN_BASE_LO_BASE f) * 2 ^ 20 + s.f (R.PCIE_FN_BASE_HI_BASE f) * 2 ^ 32 + o
      let fn : Requester := ⟨.pcie, f, s.f (R.PCIE_FN_CFG_FDOM f), none⟩
      let opens := s.f (R.PCIE_FN_CFG_IN_EN f) = 1 ∧ o < 2 ^ s.f (R.PCIE_FN_CFG_BAR2SZ f)
      (¬opens → ∃ t : State, exec (.pcieInboundAccess f write o z d) s = .next (t.answer .accessError) ∧ t.mem = s.mem ∧
        t.f R.DOM_VIOL_CNT = min (s.f R.DOM_VIOL_CNT + 1) (2 ^ 32 - 1)) ∧
      (opens → s.range a = some .sram → s.check fn a n v (if write then .write else .read) = .ok →
        (write = true → exec (.pcieInboundAccess f write o z d) s = .next ((s.store a (leBytes n v)).answer .ok)) ∧
        (write = false → exec (.pcieInboundAccess f write o z d) s = .next (s.answer (.data (s.rd a n)))))) ∧
    (PermitsF s who R.PIN_CMT_GO 1 → exec (.pinCommitGo who) s = .next ((s.set R.PIN_STAT_BUSY 1).answer .ok)) ∧
    (PermitsF s who R.PIN_CMT_NOW 1 → ∃ t : State, exec (.pinCommitNow who) s = .next (t.answer .ok) ∧ ∀ p < 488,
      let w := s.reg (R.PIN_PIN p) &&& pinMask
      (pinReserved w = false → s.pinRefused p w = false → t.actReg (R.PIN_PIN p) &&& pinMask = w) ∧
      (pinReserved w = true ∨ s.pinRefused p w = true → t.actReg (R.PIN_PIN p) = s.actReg (R.PIN_PIN p))) ∧
    (∀ p : Fin 488, exec (.pinSwitchRestEnd p) s = .next { s with pwr := { s.pwr with resting := s.pwr.resting.filter (fun x => x.1 ≠ p.val) } })) ∧
  (∀ (s : State) (who : Requester) (k : Fin 8), s.canonical = true →
    let idle := s.dma k = none
    let agent := s.dmaWho k
    let a := 32 * s.f (R.PCIE_CH_HEAD_LO_HEAD k) + 2 ^ 32 * s.f (R.PCIE_CH_HEAD_HI_HEAD k)
    let b := s.bytes a 32
    let c : DmaCh := ⟨a, leAt b 0 8, leAt b 8 8, leAt b 16 4, leAt b 20 4, leAt b 24 8, false⟩
    let faults := fun (t : State) (why : Nat) => t.f (R.PCIE_CH_STAT_FAULT k) = 1 ∧ t.f (R.PCIE_CH_STAT_REASON k) = why ∧
      t.f (R.PCIE_CH_STAT_BUSY k) = 0 ∧ t.dma k = none ∧ t.mem = s.mem
    (PermitsF s who (R.PCIE_CH_CTRL_GO k) 1 →
      (¬idle → exec (.dmaStart who k) s = .next (s.answer .ok)) ∧
      (idle → s.memVerdict agent a 32 .read ≠ .ok → ∃ t : State, exec (.dmaStart who k) s = .next (t.answer .ok) ∧ faults t 4) ∧
      (idle → s.memVerdict agent a 32 .read = .ok → s.range a = some .sram →
        (c.len = 0 ∨ 16777216 < c.len → ∃ t : State, exec (.dmaStart who k) s = .next (t.answer .ok) ∧ faults t 1) ∧
        (0 < c.len → c.len ≤ 16777216 → s.dmaSpan agent.dom c.src c.len .read = true → s.dmaSpan agent.dom c.dst c.len .write = true →
          exec (.dmaStart who k) s = .next (((s.setDma k (some c)).set (R.PCIE_CH_STAT_BUSY k) 1).answer .ok)))) ∧
    (PermitsF s who (R.PCIE_CH_CTRL_STOP k) 1 →
      (idle → exec (.dmaStop who k) s = .next (s.answer .ok)) ∧
      (∀ x, s.dma k = some x → exec (.dmaStop who k) s = .next ((s.setDma k (some { x with stop := true })).answer .ok))) ∧
    (idle → exec (.dmaDescriptorDone k) s = .next s) ∧
    (∀ x, s.dma k = some x → x.src + x.len ≤ x.dst ∨ x.dst + x.len ≤ x.src → x.ctrl / 2 ^ 30 % 4 = 0 → x.next = 0 ∨ x.stop = true →
      (∀ i < x.len, s.memVerdict agent (x.src + i) 1 .read = .ok ∧ s.memVerdict agent (x.dst + i) 1 .write = .ok ∧
        s.range (x.src + i) = some .sram ∧ s.range (x.dst + i) = some .sram) →
      ∃ t : State, exec (.dmaDescriptorDone k) s = .next t ∧ t.bytes x.dst x.len = s.bytes x.src x.len ∧
        (∀ e, e < x.dst ∨ x.dst + x.len ≤ e → t.byte e = s.byte e) ∧ t.dma k = none ∧ t.f (R.PCIE_CH_STAT_DONE k) = 1 ∧
        t.f (R.PCIE_CH_STAT_BUSY k) = 0)) ∧
  (∀ (s : State) (who : Requester), s.canonical = true → s.f R.DSP_TRC_CTRL_EN = 0 →
    let agent := s.ethWho
    let free := fun a n : Nat => s.memVerdict agent a n .read = .ok ∧ s.memVerdict agent a n .write = .ok ∧ s.range a = some .sram
    (∀ f : List Byte,
      let n := f.length
      let good := 64 ≤ n ∧ n ≤ 1522
      let fcs := crc32 (f.take (n - 4)) = leAt f (n - 4) 4
      let pause := beAt f 12 2 = 0x8808 ∧ beAt f 14 2 = 1
      (s.ethOn = false → exec (.plantFrameReceive f) s = .next s) ∧
      (s.ethOn = true → ¬good → exec (.plantFrameReceive f) s = .next (s.count R.PCIE_RX_DROP)) ∧
      (s.ethOn = true → good → ¬fcs → exec (.plantFrameReceive f) s = .next (s.count R.PCIE_RX_FCS)) ∧
      (s.ethOn = true → good → fcs → pause → exec (.plantFrameReceive f) s = .next (s.count R.PCIE_PAUSE_DROP)) ∧
      (s.ethOn = true → good → fcs → ¬pause → s.daMatch (f.take 6) = false → exec (.plantFrameReceive f) s = .next s) ∧
      (s.ethOn = true → good → fcs → ¬pause → s.daMatch (f.take 6) = true → ptpFind f = none →
        let a := s.rxDesc 1
        let buf := s.rd a 4 + 2 ^ 32 * (s.rd (a + 4) 4 % 2 ^ 20)
        s.queueStopped true 1 = false → 2 ≤ s.f (R.PCIE_RXQ_SIZE 1) → free a 16 → free buf 1536 → 2 ^ 31 ≤ s.rd (a + 4) 4 →
        a + 16 ≤ buf ∨ buf + n ≤ a → ∃ t : State, exec (.plantFrameReceive f) s = .next t ∧ t.bytes buf (n - 4) = f.take (n - 4) ∧
          t.f R.PCIE_RX_OK = min (s.f R.PCIE_RX_OK + 1) (2 ^ 32 - 1) ∧ t.rd (a + 4) 4 = s.rd (a + 4) 4 % 2 ^ 31 ∧ t.rd (a + 8) 4 = n - 4)) ∧
    (∀ (q : Fin 2) (tail : BitVec 13), Permits s who (R.PCIE_TXQ_TAIL_W q) tail.toNat →
      let u := s.set (R.PCIE_TXQ_TAIL q) tail.toNat
      exec (.plantTxTail who q tail) s = .next ((if s.f (qfault false q) = 1 then u else
        { u with host := { s.host with qstop := s.host.qstop &&& (15 ^^^ 2 ^ q.val) } }).answer .ok)) ∧
    (∀ q : Fin 2,
      let a := s.txDesc q
      let w1 := s.rd (a + 4) 4
      let len := s.rd (a + 8) 4 % 2 ^ 11
      let buf := s.rd a 4 + 2 ^ 32 * (w1 % 2 ^ 20)
      let f := s.bytes buf len
      let runs := s.ethOn = true ∧ s.queueStopped false q = false ∧ 2 ≤ s.f (R.PCIE_TXQ_SIZE q)
      let owned := 2 ^ 31 ≤ w1
      (¬runs → exec (.plantTxDone q) s = .next s) ∧
      (runs → free a 16 → ¬owned → exec (.plantTxDone q) s = .next s) ∧
      (runs → free a 16 → owned → len < 60 ∨ 1518 < len → ∃ t : State, exec (.plantTxDone q) s = .next t ∧ t.f (qfault false q) = 1 ∧ t.mem = s.mem) ∧
      (runs → free a 16 → owned → 60 ≤ len → len ≤ 1518 → free buf len → ptpFind f = none → ∃ t : State, exec (.plantTxDone q) s = .next t ∧
        t.host.txSent = f ++ leBytes 4 (crc32 f) ∧ t.f R.PCIE_TX_OK = min (s.f R.PCIE_TX_OK + 1) (2 ^ 32 - 1) ∧ t.rd (a + 4) 4 = w1 % 2 ^ 31)) ∧
    (∀ w : BitVec 20,
      let o := 4 * w.toNat
      let on := s.f R.SNP_CTRL_EN = 1
      let reads := fun r : Resp => exec (.snapshotRead w) s = .next (s.answer r)
      (s.pdOn 22 = false → reads .none) ∧
      (s.pdOn 22 = true → ¬on → reads (.data 0)) ∧
      (s.pdOn 22 = true → on → o < 0x10000 → reads (.data (getWord s.host.front o))) ∧
      (∀ d : Word,
        let takes := s.pdOn 22 = true ∧ on ∧ 0x10000 ≤ o ∧ o < 0x11000
        let full := s.f R.SNP_STAT_MBFULL = 1
        (¬takes → exec (.snapshotWrite w d) s = .next s) ∧
        (takes → full → exec (.snapshotWrite w d) s = .next (s.count R.SNP_MB_DROP)) ∧
        (takes → ¬full → o ≠ 0x10FFC → exec (.snapshotWrite w d) s = .next (s.setReg (0x103B1000 + (o - 0x10000)) d.toNat)) ∧
        (takes → ¬full → o = 0x10FFC → ∃ t : State, exec (.snapshotWrite w d) s = .next t ∧ t.reg 0x103B1FFC = d.toNat ∧
          t.f R.SNP_STAT_MBFULL = 1 ∧ t.f R.SNP_MBX_DBSEQ = (s.f R.SNP_MBX_DBSEQ + 1) % 2 ^ 16))) ∧
    (PermitsF s who R.SNP_MBX_ACK 1 → exec (.mailboxAck who) s = .next ((s.set R.SNP_STAT_MBFULL 0).answer .ok)) ∧
    (PermitsF s who R.SNP_CTRL_SWAPNOW 1 → s.pdOn 22 = true →
      (s.host.fill = none → ∃ xs, exec (.snapshotSwapnow who) s =
        .next ((({ s with host := { s.host with fill := some (s.cyc, s.gnow, xs) } } : State).set R.SNP_STAT_COPY 1).answer .ok) ∧
        (s.f R.SNP_CTRL_AXFILL = 0 → xs = [])) ∧
      (∀ c t xs, s.host.fill = some (c, t, xs) → ¬(c = s.cyc ∧ t = s.gnow) → ∃ u : State, exec (.snapshotSwapnow who) s = .next (u.answer .ok) ∧
        Alike (s.set R.SNP_STAT_OVR 1) u)) ∧
    (s.host.fill = none → exec .snapshotSwap s = .next s) ∧
    (∀ c t xs, s.host.fill = some (c, t, xs) → SMap.wf memDflt s.host.back = true →
      let src := 4 * s.f R.SNP_SRC_OFS
      let len := min (s.f R.SNP_LEN_LEN) 63228
      let may := len = 0 ∨ s.memVerdict ⟨.port, 2, s.f R.SNP_CTRL_DOM, none⟩ src len .read = .ok
      ∃ u : State, exec .snapshotSwap s = .next u ∧ u.host.fill = none ∧ u.f R.SNP_STAT_COPY = 0 ∧
        (¬may → u.host.front = s.host.front) ∧
        (may → u.host.back = s.host.front ∧ u.f R.SNP_LASTCYC = c % 2 ^ 32 ∧ u.f R.SNP_LASTSTAMP = t % 2 ^ 32 ∧
          getWord u.host.front 0 = c % 2 ^ 32 ∧ getWord u.host.front 4 = t % 2 ^ 32 ∧ getWord u.host.front 0xFFFC = c % 2 ^ 32 ∧
          ∀ i < len, 0x900 + i < 0xFFFC → SMap.get memDflt u.host.front (0x900 + i) = s.byte (src + i))))

/-- Accesses of any requester (R29, R31; and R5, R7, R19, R26, R28, R209, R469) through REGISTER_WRITE and the read path. -/
def Obligations.RegisterAccess : Prop :=
  ∀ (s : State) (who : Requester) (a : BitVec 52) (n : Size) (d : BitVec 64), s.canonical = true →
    let len := sizeBytes n
    let v := d.toNat % 2 ^ (8 * len)
    let write := exec (.registerWrite who a n d) s
    let failed := fun t : State => Host.Outcome.next (t.answer .accessError)
    let u := s.ordered who a.toNat
    (who.kind ≠ .core ∨ s.dsp.posted = [] ∨ s.memLike a.toNat = true → u = s) ∧
    -- R29: register blocks
    (s.memLike a.toNat = false → (n = .b1 ∨ n = .b2 ∨ a.toNat % len ≠ 0) →
      write = failed u ∧ s.busRead who a.toNat len = (none, u)) ∧
    (s.memLike a.toNat = false → n = .b4 → a.toNat % 4 = 0 →
      let one := u.regWrite who a.toNat v
      write = .next (one.2.answer (if one.1 then .ok else .accessError))) ∧
    (s.memLike a.toNat = false → n = .b8 → a.toNat % 8 = 0 →
      let one := u.regWrite who a.toNat (d.toNat % 2 ^ 32)
      let two := one.2.regWrite who (a.toNat + 4) (d.toNat / 2 ^ 32)
      write = .next (two.2.answer (if one.1 && two.1 then .ok else .accessError))) ∧
    -- R29: memory
    (s.memLike a.toNat = true → s.range a.toNat ≠ none → a.toNat % len ≠ 0 →
      write = failed s ∧ s.busRead who a.toNat len = (none, s)) ∧
    (s.memLike a.toNat = true → s.range a.toNat ≠ some .outbound → s.check who a.toNat len v .write = .ok →
      ∃ t : State, write = .next (t.answer .ok) ∧ { t with mem := s.mem } = s ∧
        ∀ b, t.byte b = if a.toNat ≤ b ∧ b < a.toNat + len then BitVec.ofNat 8 (v / 256 ^ (b - a.toNat)) else s.byte b) ∧
    (s.memLike a.toNat = true → s.range a.toNat ≠ some .outbound → s.check who a.toNat len 0 .read = .ok →
      ∃ w < 256 ^ len, s.busRead who a.toNat len = (some w, s) ∧
        ∀ i < len, w / 256 ^ i % 256 = (s.byte (a.toNat + i)).toNat) ∧
    -- R31: the ID block
    (s.range a.toNat = some .id → n = .b4 → a.toNat % 4 = 0 → s.islOn islSYS = true → s.tim.failed = [] →
      (reqIsDebug who = false ∨ s.pdOn 23 = true) →
      write = .next (s.answer .ok) ∧ ∃ w, (s.busRead who a.toNat 4).1 = some w) ∧
    -- R5, R7: the access types, on the registers of an axis that a write does nothing else to
    (s.range a.toNat = some .ax → n = .b4 → Permits s who a.toNat v →
      a.toNat % 0x1000 ∉ [0x040, 0x050, 0x400, 0x704, 0x708] →
      let x := s.reg a.toNat
      let stored := regMask Acc.isStored a.toNat
      let y := (x &&& (0xFFFFFFFF ^^^ stored)) ||| (v &&& stored)
      let z := (y &&& (0xFFFFFFFF ^^^ (v &&& regMask (· == .w1c) a.toNat))) ||| (v &&& regMask (· == .w1s) a.toNat)
      (specOf a.toNat = none → write = .next (s.answer .ok)) ∧
      (specOf a.toNat ≠ none → ∃ t : State, write = .next (t.answer .ok) ∧ { t with regs := s.regs } = s ∧
        t.reg a.toNat = z % 2 ^ 32 ∧ ∀ b, b ≠ a.toNat → t.reg b = s.reg b)) ∧
    -- R209: held by a decided knot
    (s.memLike a.toNat = false → n = .b4 → u.check who a.toNat 4 v .write = .ok → u.kLocked a.toNat = true →
      regMask Acc.isRWS a.toNat ≠ 0 → ∃ t : State, write = .next (t.answer .ok) ∧
        t = { u with ke := { u.ke with held := u.ke.held ++ [(who, a.toNat, v)] } }) ∧
    -- R28, R26, R469, R19: accesses that are not performed
    (s.range a.toNat = some .mramLog ∨ s.range a.toNat = some .mramData →
      ∃ t : State, write = failed t ∧ (s.on R.DSP_TRC_CTRL_EN = false → t.mem = s.mem)) ∧
    (s.range a.toNat = none → ∃ t : State, write = failed t ∧ Alike s t) ∧
    (n = .b4 → u.check who a.toNat 4 v .write = .noRights → ∃ t : State, write = failed t ∧
      let w := u.count R.DOM_VIOL_CNT
      let src := 2 ^ 31 + 2 ^ 16 + who.dom % 256 * 256 + kindCode who.kind * 64 + who.index % 64
      Alike (if u.f R.DOM_VIOL_SRC_VALID = 1 then w
        else ((w.set R.DOM_VIOL_ADDR_LO_ADDR (a.toNat % 2 ^ 32)).set R.DOM_VIOL_ADDR_HI_ADDR (a.toNat / 2 ^ 32)).setReg R.DOM_VIOL_SRC src) t) ∧
    (n = .b4 → ∀ i, u.check who a.toNat 4 v .write = .off i →
      ∃ t : State, write = failed t ∧ Alike (u.count R.PMU_OFFRESP_CNT) t)

/-- How commands reach exec. That an empty queue ticks is the model's choice (notes/assumptions/6.md). -/
def Obligations.StepRunsFrontCommand : Prop :=
  (∀ (c : Instr) (rest : List Instr) (s : State), step { s with pending := c :: rest } = exec c { s with pending := rest }) ∧
  (∀ s : State, s.pending = [] → step s = .next s.tick)

/-- The state after reset (R8, R293). Values the spec leaves open are the model's (notes/assumptions/1.md, 2.md). -/
def Obligations.ResetState : Prop :=
  let s := State.reset
  s.canonical = true ∧ s.pending = [] ∧ (∀ a, s.reg a = resetWord a % 2 ^ 32 ∧ s.byte a = 0) ∧
  (∀ k < 1024, s.f (R.ST_STAT_STATE k) = 0) ∧ (∀ n < 256, s.f (R.AX_CTRL_MODE n) = 0 ∧ s.fa (R.AX_CTRL_MODE n) = 0) ∧
  (∀ c < 64, s.f (R.PC_CTRL_EN c) = 0 ∧ s.f (R.PC_STAT_SEQ c) = 0) ∧
  (∀ k < 64, s.f (R.K_STAT_STATE k) = 0) ∧ s.f R.KE_POOL_FREE = 8192 ∧ s.f R.TB_TCYC = 31250

/-- The invariant of the stores, and what no command undoes (R457, R463). -/
def Obligations.StepKeepsCanonicalStores : Prop :=
  ∀ (s t : State), s.canonical = true → step s = .next t →
    t.canonical = true ∧ s.free ≤ t.free ∧ t.pending = s.pending.tail ∧
    t.boot.secure = s.boot.secure ∧ t.boot.keyHash = s.boot.keyHash ∧
    s.boot.keyrev &&& t.boot.keyrev = s.boot.keyrev ∧ s.boot.minver &&& t.boot.minver = s.boot.minver

/-- The Finil frame: header, FCS and datagram area (R36 to R41, R52, R53). -/
def Obligations.FrameHeaderRoundTrip : Prop :=
  (∀ (h : Hdr) (more : List Byte), h.Fits → h.encode.length = 80 ∧ Hdr.parse (h.encode ++ more) = h) ∧
  (∀ body : List Byte, 80 ≤ body.length → frameBody (sealFrame body true) = body ∧ fcsGood (sealFrame body true) = true ∧
    frameBody (sealFrame body false) = body ∧ fcsGood (sealFrame body false) = false) ∧
  (∀ (h : Hdr) (l : List (Dg × List Byte)) (tail : List Byte), h.Fits → l.length ≤ 180 → tail.length = 4 →
    (∀ x ∈ l, x.1.dtype < 256 ∧ x.1.node < 256 ∧ x.1.dlen < 65536 ∧ x.1.ulen < 65536 ∧ x.1.hits < 65536 ∧
      x.2.length = x.1.dlen + x.1.ulen) →
    (∀ i < l.length, ((l.map Prod.fst)[i]?.map Dg.off) = some (80 + ((l.take i).map (fun x => 8 + x.2.length)).sum)) →
    h.plen = (l.map (fun x => 8 + x.2.length)).sum →
    datagrams (h.encode ++ l.flatMap (fun x => dgHeader x.1.dtype x.1.node x.1.dlen x.1.ulen x.1.hits ++ x.2) ++ tail) =
      (l.map Prod.fst, false))

end
end

