-- ==== Sys2Proof/Laws/SMap.lean ====
section
/-! SUPPORT. The laws of sparse maps: a read after a write, and that every operation keeps the canonical form. -/

namespace Sys2Proof.Machine.SMap

variable {α : Type}

/-- The canonical form, entry by entry. -/
theorem wf_cons [DecidableEq α] (d : Nat → α) (m : List (Nat × α)) (j : Nat) (v : α) :
    wf d ((j, v) :: m) = true ↔ (above j m = true ∧ v ≠ d j) ∧ wf d m = true := by
  simp [wf, Bool.and_eq_true]

/-- The value just put is the value read. -/
theorem get_put_self [DecidableEq α] (d : Nat → α) (m : List (Nat × α)) (k : Nat) (v : α) (h : wf d m = true) :
    get d (put d m k v) k = v := by
  induction m with
  | nil => by_cases e : v = d k <;> simp [put, get, e]
  | cons c m ih =>
    obtain ⟨j, w⟩ := c
    simp only [wf, Bool.and_eq_true, bne_iff_ne, ne_eq] at h
    have low : ∀ (l : List (Nat × α)) (j : Nat), above j l = true → wf d l = true → ∀ k, k ≤ j → get d l k = d k := by
      intro l
      induction l with
      | nil => intros; rfl
      | cons c l ih =>
        obtain ⟨i, x⟩ := c
        intro j ha hw k hk
        simp only [above, decide_eq_true_eq] at ha
        simp only [wf, Bool.and_eq_true] at hw
        have hne : k ≠ i := by omega
        simp only [get, hne, if_false]
        exact ih i hw.1.1 hw.2 k (by omega)
    by_cases hlt : k < j
    · have hne : k ≠ j := by omega
      by_cases e : v = d k
      · simp only [put, hlt, e, if_true, get, hne, if_false]
        exact low m j h.1.1 h.2 k (by omega)
      · simp [put, hlt, e, get]
    · by_cases heq : k = j
      · subst heq
        by_cases e : v = d k
        · simp only [put, e, Nat.lt_irrefl, if_false, if_true]
          exact low m k h.1.1 h.2 k (Nat.le_refl k)
        · simp [put, e, get]
      · simp only [put, hlt, heq, if_false, get]
        exact ih h.2

/-- A put at one key leaves every other key's value. -/
theorem get_put_ne [DecidableEq α] (d : Nat → α) (m : List (Nat × α)) (k i : Nat) (v : α) (h : i ≠ k) :
    get d (put d m k v) i = get d m i := by
  induction m with
  | nil => by_cases e : v = d k <;> simp [put, get, e, h]
  | cons c m ih =>
    obtain ⟨j, w⟩ := c
    simp only [put]
    by_cases hlt : k < j
    · simp only [hlt, if_true]
      by_cases e : v = d k <;> simp [e, get, h]
    · by_cases heq : k = j
      · subst heq
        by_cases e : v = d k <;> simp [e, get, h]
      · by_cases hij : i = j <;> simp [hlt, heq, get, hij, ih]

/-- A put keeps the keys above a bound below them. -/
theorem above_put [DecidableEq α] (d : Nat → α) (m : List (Nat × α)) (k lo : Nat) (v : α) (h : above lo m = true)
    (hw : wf d m = true) (hk : lo < k) : above lo (put d m k v) = true := by
  cases m with
  | nil => by_cases e : v = d k <;> simp [put, above, e, hk]
  | cons c m =>
    obtain ⟨j, w⟩ := c
    simp only [above, decide_eq_true_eq] at h
    simp only [put]
    by_cases hlt : k < j
    · by_cases e : v = d k <;> simp [hlt, e, above, h, hk]
    · by_cases heq : k = j
      · by_cases e : v = d k
        · simp only [heq, e, if_true]
          rw [wf_cons] at hw
          cases m with
          | nil => simp [above]
          | cons c m =>
            obtain ⟨i, x⟩ := c
            have := hw.1.1
            simp only [above, decide_eq_true_eq] at this
            simp [above]
            omega
        · simp only [heq]
          split <;> simp_all [above]
      · rw [if_neg hlt, if_neg heq]
        simpa [above] using h

/-- A put keeps the canonical form. -/
theorem wf_put [DecidableEq α] (d : Nat → α) (m : List (Nat × α)) (k : Nat) (v : α) (h : wf d m = true) :
    wf d (put d m k v) = true := by
  induction m with
  | nil => by_cases e : v = d k <;> simp [put, wf, above, e]
  | cons c m ih =>
    obtain ⟨j, w⟩ := c
    have h0 := h
    simp only [wf, Bool.and_eq_true, bne_iff_ne, ne_eq] at h
    simp only [put]
    by_cases hlt : k < j
    · rw [if_pos hlt]
      by_cases e : v = d k
      · rw [if_pos e]; exact h0
      · rw [if_neg e, wf_cons]
        exact ⟨⟨decide_eq_true hlt, e⟩, h0⟩
    · by_cases heq : k = j
      · subst heq
        by_cases e : v = d k
        · simpa [e] using h.2
        · rw [if_neg hlt, if_pos rfl, if_neg e, wf_cons]
          exact ⟨⟨h.1.1, e⟩, h.2⟩
      · simp only [hlt, heq, if_false, wf, Bool.and_eq_true, bne_iff_ne, ne_eq]
        exact ⟨⟨above_put d m k j v h.1.1 h.2 (by omega), h.1.2⟩, ih h.2⟩

/-- Entries above a bound stay above it when some are dropped. -/
theorem above_filter [DecidableEq α] (d : Nat → α) (m : List (Nat × α)) (p : Nat × α → Bool) (lo : Nat)
    (h : above lo m = true) (hw : wf d m = true) : above lo (m.filter p) = true := by
  induction m generalizing lo with
  | nil => rfl
  | cons c m ih =>
    obtain ⟨j, w⟩ := c
    simp only [above, decide_eq_true_eq] at h
    simp only [wf, Bool.and_eq_true] at hw
    by_cases e : p (j, w) = true
    · simp [e, above, h]
    · simp only [List.filter_cons, e, Bool.false_eq_true, if_false]
      apply ih _ _ hw.2
      cases m with
      | nil => rfl
      | cons c m =>
        obtain ⟨i, x⟩ := c
        have := hw.1.1
        simp only [above, decide_eq_true_eq] at this ⊢
        omega

/-- Dropping entries keeps the canonical form. -/
theorem wf_filter [DecidableEq α] (d : Nat → α) (m : List (Nat × α)) (p : Nat × α → Bool) (h : wf d m = true) :
    wf d (m.filter p) = true := by
  induction m with
  | nil => rfl
  | cons c m ih =>
    obtain ⟨j, w⟩ := c
    have h0 := h
    simp only [wf, Bool.and_eq_true, bne_iff_ne, ne_eq] at h
    by_cases e : p (j, w) = true
    · simp only [List.filter_cons, e, if_true, wf, Bool.and_eq_true, bne_iff_ne, ne_eq]
      exact ⟨⟨above_filter d m p j h.1.1 h.2, h.1.2⟩, ih h.2⟩
    · simp only [List.filter_cons, e, Bool.false_eq_true, if_false]
      exact ih h.2

/-- Keys at or below a bound of a canonical map are unlisted. -/
theorem get_above [DecidableEq α] (d : Nat → α) (m : List (Nat × α)) (k lo : Nat) (ha : above lo m = true)
    (h : wf d m = true) (hk : k ≤ lo) : get d m k = d k := by
  induction m generalizing lo with
  | nil => rfl
  | cons c m ih =>
    obtain ⟨i, x⟩ := c
    rw [wf_cons] at h
    simp only [above, decide_eq_true_eq] at ha
    rw [get, if_neg (by omega)]
    exact ih i h.1.1 h.2 (by omega)

/-- Setting a key twice is setting it once. -/
theorem put_put [DecidableEq α] (d : Nat → α) (m : List (Nat × α)) (k : Nat) (v w : α) (h : wf d m = true) :
    put d (put d m k v) k w = put d m k w := by
  induction m with
  | nil =>
    by_cases hv : v = d k <;> simp [put, hv]
  | cons e m ih =>
    obtain ⟨j, x⟩ := e
    rw [wf_cons] at h
    obtain ⟨⟨ha, hx⟩, hm⟩ := h
    by_cases h1 : k < j
    · by_cases hv : v = d k
      · simp only [put, h1, hv, ↓reduceIte]
      · simp only [put, h1, hv, ↓reduceIte, Nat.lt_irrefl]
    · by_cases h2 : k = j
      · subst h2
        by_cases hv : v = d k
        · simp only [put, Nat.lt_irrefl, hv, ↓reduceIte]
          cases m with
          | nil => rfl
          | cons e m =>
            obtain ⟨i, y⟩ := e
            have hki : k < i := by simpa [above] using ha
            simp only [put, hki, ↓reduceIte]
        · simp only [put, Nat.lt_irrefl, hv, ↓reduceIte]
      · simp only [put, h1, h2, ↓reduceIte, ih hm]

/-- Setting a key to what it reads as changes nothing. -/
theorem put_get [DecidableEq α] (d : Nat → α) (m : List (Nat × α)) (k : Nat) (h : wf d m = true) :
    put d m k (get d m k) = m := by
  induction m with
  | nil => simp [put, get]
  | cons e m ih =>
    obtain ⟨j, x⟩ := e
    have h' := h
    rw [wf_cons] at h
    obtain ⟨⟨ha, hx⟩, hm⟩ := h
    by_cases h2 : k = j
    · subst h2
      rw [get, if_pos rfl, put, if_neg (Nat.lt_irrefl _), if_pos rfl, if_neg hx]
    · by_cases h1 : k < j
      · have hg : get d m k = d k := get_above d m k j ha hm (by omega)
        rw [get, if_neg h2, hg, put, if_pos h1, if_pos rfl]
      · rw [get, if_neg h2, put, if_neg h1, if_neg h2, ih hm]

end Sys2Proof.Machine.SMap
end

