-- ==== Sys2Proof/Laws/Keeps.lean ====
section
/-! SUPPORT. What no operation of the block does, said once: `Keeps r s` says that `s` comes from `r` without touching the
queue, with the sparse stores still in canonical form, with no fuse unprogrammed and with the free counter not turned back.
The laws here say that the named operations over the state keep it, those of Laws/KeepsGen that every other one does. -/

namespace Sys2Proof.Machine

/-- The fuses of `b` hold in `c`: SECURE and the key hashes as they are, revocations and version bits only ever added
(R457, R463). -/
structure Boot.FusesHold (b c : Boot) : Prop where
  secure : c.secure = b.secure
  hash : c.keyHash = b.keyHash
  keyrev : b.keyrev &&& c.keyrev = b.keyrev
  minver : b.minver &&& c.minver = b.minver

/-- `s` comes from `r` with the queue as it is, canonical stores kept, and fuses and the free counter only going up. -/
structure Keeps (r s : State) : Prop where
  queue : s.pending = r.pending
  canon : r.canonical = true → s.canonical = true
  free : r.free ≤ s.free
  fuses : r.boot.FusesHold s.boot

theorem Boot.FusesHold.refl (b : Boot) : b.FusesHold b :=
  ⟨rfl, rfl, Nat.and_self _, Nat.and_self _⟩

theorem Boot.FusesHold.trans {a b c : Boot} (h : a.FusesHold b) (k : b.FusesHold c) : a.FusesHold c := by
  refine ⟨k.secure.trans h.secure, k.hash.trans h.hash, ?_, ?_⟩
  · rw [← h.keyrev, Nat.and_assoc, k.keyrev]
  · rw [← h.minver, Nat.and_assoc, k.minver]

theorem Keeps.refl (s : State) : Keeps s s := ⟨rfl, id, Nat.le_refl _, Boot.FusesHold.refl _⟩

theorem Keeps.trans {a b c : State} (h : Keeps a b) (k : Keeps b c) : Keeps a c :=
  ⟨k.queue.trans h.queue, fun x => k.canon (h.canon x), Nat.le_trans h.free k.free, h.fuses.trans k.fuses⟩

/-- The parts of the canonical form. -/
theorem State.canonical_iff (s : State) : s.canonical = true ↔
    Memory.wf s.mem = true ∧ SMap.wf regDflt s.regs = true ∧ SMap.wf regDflt s.act = true ∧ s.tim.wf = true ∧
      s.dsp.wf = true ∧ s.net.wf = true ∧ SMap.wf (fun _ => {}) s.axes = true ∧ s.pwr.wf = true ∧ s.ke.wf = true := by
  simp only [State.canonical, Bool.and_eq_true, and_assoc]

/-- A state with the same queue, counter and fuses, and canonical where the old one is. -/
theorem Keeps.of_same {r s t : State} (h : Keeps r s) (hc : s.canonical = true → t.canonical = true)
    (hp : t.pending = s.pending) (hf : t.free = s.free) (hb : t.boot = s.boot) : Keeps r t :=
  ⟨hp.trans h.queue, fun x => hc (h.canon x), by rw [hf]; exact h.free, by rw [hb]; exact h.fuses⟩

section Fields
variable {r s : State} (h : Keeps r s)
include h

theorem keeps_resp (x : Resp) : Keeps r { s with resp := x } := h.of_same id rfl rfl rfl
theorem keeps_log (x : Logline) : Keeps r { s with log := x } := h.of_same id rfl rfl rfl
theorem keeps_fid (x : Fids) : Keeps r { s with fid := x } := h.of_same id rfl rfl rfl
theorem keeps_bel (x : Bel) : Keeps r { s with bel := x } := h.of_same id rfl rfl rfl
theorem keeps_dx (x : Dx) : Keeps r { s with dx := x } := h.of_same id rfl rfl rfl
theorem keeps_pmu (x : Pmu) : Keeps r { s with pmu := x } := h.of_same id rfl rfl rfl
theorem keeps_host (x : Hosts) : Keeps r { s with host := x } := h.of_same id rfl rfl rfl

theorem keeps_tim (x : Tim) (hx : s.tim.wf = true → x.wf = true) : Keeps r { s with tim := x } :=
  h.of_same (fun y => by rw [State.canonical_iff] at y ⊢; obtain ⟨a, b, c, d, e, f, g, i, j⟩ := y; exact ⟨a, b, c, hx d, e, f, g, i, j⟩)
    rfl rfl rfl
theorem keeps_dsp (x : Disp) (hx : s.dsp.wf = true → x.wf = true) : Keeps r { s with dsp := x } :=
  h.of_same (fun y => by rw [State.canonical_iff] at y ⊢; obtain ⟨a, b, c, d, e, f, g, i, j⟩ := y; exact ⟨a, b, c, d, hx e, f, g, i, j⟩)
    rfl rfl rfl
theorem keeps_net (x : Net) (hx : s.net.wf = true → x.wf = true) : Keeps r { s with net := x } :=
  h.of_same (fun y => by rw [State.canonical_iff] at y ⊢; obtain ⟨a, b, c, d, e, f, g, i, j⟩ := y; exact ⟨a, b, c, d, e, hx f, g, i, j⟩)
    rfl rfl rfl
theorem keeps_axes (x : List (Nat × Ax)) (hx : SMap.wf (fun _ => {}) s.axes = true → SMap.wf (fun _ => {}) x = true) :
    Keeps r { s with axes := x } :=
  h.of_same (fun y => by rw [State.canonical_iff] at y ⊢; obtain ⟨a, b, c, d, e, f, g, i, j⟩ := y; exact ⟨a, b, c, d, e, f, hx g, i, j⟩)
    rfl rfl rfl
theorem keeps_pwr (x : Power) (hx : s.pwr.wf = true → x.wf = true) : Keeps r { s with pwr := x } :=
  h.of_same (fun y => by rw [State.canonical_iff] at y ⊢; obtain ⟨a, b, c, d, e, f, g, i, j⟩ := y; exact ⟨a, b, c, d, e, f, g, hx i, j⟩)
    rfl rfl rfl
theorem keeps_ke (x : Knots) (hx : s.ke.wf = true → x.wf = true) : Keeps r { s with ke := x } :=
  h.of_same (fun y => by rw [State.canonical_iff] at y ⊢; obtain ⟨a, b, c, d, e, f, g, i, j⟩ := y; exact ⟨a, b, c, d, e, f, g, i, hx j⟩)
    rfl rfl rfl

/-- New boot state whose fuses hold those of the old. -/
theorem keeps_boot (x : Boot) (hx : s.boot.FusesHold x) : Keeps r { s with boot := x } :=
  ⟨h.queue, h.canon, h.free, h.fuses.trans hx⟩

theorem keeps_mem (m : List Host.Cell) (hm : Memory.wf s.mem = true → Memory.wf m = true) : Keeps r { s with mem := m } :=
  h.of_same (fun y => by rw [State.canonical_iff] at y ⊢; exact ⟨hm y.1, y.2⟩) rfl rfl rfl

theorem keeps_regs (m : List (Nat × Word)) (hm : SMap.wf regDflt s.regs = true → SMap.wf regDflt m = true) :
    Keeps r { s with regs := m } :=
  h.of_same (fun y => by rw [State.canonical_iff] at y ⊢; exact ⟨y.1, hm y.2.1, y.2.2⟩) rfl rfl rfl

theorem keeps_act (m : List (Nat × Word)) (hm : SMap.wf regDflt s.act = true → SMap.wf regDflt m = true) :
    Keeps r { s with act := m } :=
  h.of_same (fun y => by rw [State.canonical_iff] at y ⊢; exact ⟨y.1, y.2.1, hm y.2.2.1, y.2.2.2⟩) rfl rfl rfl

theorem keeps_free (x : Nat) (hx : s.free ≤ x) : Keeps r { s with free := x } :=
  ⟨h.queue, h.canon, Nat.le_trans h.free hx, h.fuses⟩

/-! ## The named operations -/

/-- A loop over a list keeps what its body keeps. -/
theorem keeps_forEach {α : Type} (xs : List α) (f : α → State → State)
    (hf : ∀ x s, Keeps r s → Keeps r (f x s)) : Keeps r (forEach xs f s) := by
  unfold forEach
  induction xs generalizing s with
  | nil => exact h
  | cons x xs ih => exact ih (hf x s h)

theorem keeps_forN (n : Nat) (f : Nat → State → State) (hf : ∀ x s, Keeps r s → Keeps r (f x s)) :
    Keeps r (forN n f s) := keeps_forEach h (List.range n) f hf

theorem keeps_when (c : Bool) (f : State → State) (hf : ∀ s, Keeps r s → Keeps r (f s)) : Keeps r (s.when c f) := by
  unfold State.when
  cases c
  · exact h
  · exact hf s h

end Fields

theorem State.setReg_keeps {r : State} (s : State) (a v : Nat) (h : Keeps r s) : Keeps r (s.setReg a v) :=
  keeps_regs h _ (SMap.wf_put regDflt s.regs a (toW v))

theorem State.setActReg_keeps {r : State} (s : State) (a v : Nat) (h : Keeps r s) : Keeps r (s.setActReg a v) :=
  keeps_act h _ (SMap.wf_put regDflt s.act a (toW v))

theorem State.set_keeps {r : State} (s : State) (x : Fld) (v : Nat) (h : Keeps r s) : Keeps r (s.set x v) :=
  State.setReg_keeps s _ _ h

theorem State.setA_keeps {r : State} (s : State) (x : Fld) (v : Nat) (h : Keeps r s) : Keeps r (s.setA x v) :=
  State.setActReg_keeps s _ _ h

theorem State.setByte_keeps {r : State} (s : State) (a : Nat) (v : Byte) (h : Keeps r s) : Keeps r (s.setByte a v) :=
  keeps_mem h _ (SMap.wf_put memDflt s.mem a v)

theorem State.store_keeps {r : State} (s : State) (a : Nat) (bs : List Byte) (h : Keeps r s) : Keeps r (s.store a bs) := by
  induction bs generalizing s a with
  | nil => exact h
  | cons b bs ih => exact ih (s.setByte a b) (a + 1) (State.setByte_keeps s a b h)

theorem State.setRep_keeps {r : State} (s : State) (i : Nat) (x : Replica) (h : Keeps r s) : Keeps r (s.setRep i x) :=
  keeps_tim h _ (fun y => SMap.wf_put _ _ _ _ y)

theorem State.setStrand_keeps {r : State} (s : State) (t : Nat) (x : Strand) (h : Keeps r s) : Keeps r (s.setStrand t x) :=
  keeps_dsp h _ (fun y => by
    simp only [Disp.wf, Bool.and_eq_true] at y ⊢; exact ⟨SMap.wf_put _ _ _ _ y.1, y.2⟩)

theorem State.setCore_keeps {r : State} (s : State) (c : Nat) (x : Core) (h : Keeps r s) : Keeps r (s.setCore c x) :=
  keeps_dsp h _ (fun y => by
    simp only [Disp.wf, Bool.and_eq_true] at y ⊢; exact ⟨y.1, SMap.wf_put _ _ _ _ y.2⟩)

theorem State.setNodeAt_keeps {r : State} (s : State) (k : Nat) (x : NodeSt) (h : Keeps r s) :
    Keeps r { s with net := { s.net with nodes := SMap.put nodeDflt s.net.nodes k x } } :=
  keeps_net h _ (fun y => by
    simp only [Net.wf, Bool.and_eq_true] at y ⊢; exact ⟨SMap.wf_put _ _ _ _ y.1, y.2⟩)

theorem State.setRing_keeps {r : State} (s : State) (k : Nat) (x : Ring) (h : Keeps r s) : Keeps r (s.setRing k x) :=
  keeps_net h _ (fun y => by
    simp only [Net.wf, Bool.and_eq_true] at y ⊢; exact ⟨y.1, SMap.wf_put _ _ _ _ y.2⟩)

theorem State.setAx_keeps {r : State} (s : State) (n : Nat) (x : Ax) (h : Keeps r s) : Keeps r (s.setAx n x) :=
  keeps_axes h _ (fun y => SMap.wf_put _ _ _ _ y)

theorem State.setChan_keeps {r : State} (s : State) (c : Nat) (x : Chan) (h : Keeps r s) : Keeps r (s.setChan c x) :=
  keeps_pwr h _ (fun y => by
    simp only [Power.wf, Bool.and_eq_true] at y ⊢; exact ⟨SMap.wf_put _ _ _ _ y.1, y.2⟩)

theorem State.setGang_keeps {r : State} (s : State) (q : Nat) (x : Gang) (h : Keeps r s) : Keeps r (s.setGang q x) :=
  keeps_pwr h _ (fun y => by
    simp only [Power.wf, Bool.and_eq_true] at y ⊢; exact ⟨y.1, SMap.wf_put _ _ _ _ y.2⟩)

theorem State.setKnot_keeps {r : State} (s : State) (k : Nat) (x : Knot) (h : Keeps r s) : Keeps r (s.setKnot k x) :=
  keeps_ke h _ (fun y => SMap.wf_put _ _ _ _ y)

theorem State.burn_keeps {r : State} (s : State) (h : Keeps r s) : Keeps r s.burn :=
  ⟨h.queue, h.canon, Nat.le_succ_of_le h.free, h.fuses⟩

theorem State.dropRegs_keeps {r : State} (s : State) (p : Nat → Bool) (h : Keeps r s) : Keeps r (s.dropRegs p) :=
  keeps_act (keeps_regs h _ (SMap.wf_filter regDflt s.regs _)) _ (SMap.wf_filter regDflt s.act _)

theorem State.dropMem_keeps {r : State} (s : State) (p : Nat → Bool) (h : Keeps r s) : Keeps r (s.dropMem p) :=
  keeps_mem h _ (SMap.wf_filter memDflt s.mem _)

/-! ## Choices, and computations that set float flags -/

theorem keeps_ite {r s t : State} (c : Prop) [Decidable c] (h : Keeps r s) (k : Keeps r t) :
    Keeps r (if c then s else t) := by
  split
  · exact h
  · exact k

theorem keeps_ite1 {α : Type} {r : State} {s t : State × α} (c : Prop) [Decidable c] (h : Keeps r s.1) (k : Keeps r t.1) :
    Keeps r (if c then s else t).1 := by
  split
  · exact h
  · exact k

theorem keeps_ite2 {α : Type} {r : State} {s t : α × State} (c : Prop) [Decidable c] (h : Keeps r s.2) (k : Keeps r t.2) :
    Keeps r (if c then s else t).2 := by
  split
  · exact h
  · exact k

theorem keeps_fst {α : Type} {r s : State} {a : α} (h : Keeps r s) : Keeps r (s, a).1 := h
theorem keeps_snd2 {α β : Type} {r s : State} {a : α} {b : β} (h : Keeps r s) : Keeps r (a, b, s).2.2 := h
theorem keeps_snd {α : Type} {r s : State} {a : α} (h : Keeps r s) : Keeps r (a, s).2 := h

/-- A float computation answers, at `p` of its value, a state that keeps `r`. -/
def FMK {α : Type} (r : State) (p : α → State) (m : FM α) : Prop := ∀ fl, Keeps r (p (m fl).1)

theorem fm_pure {α : Type} {r : State} {p : α → State} {x : α} (h : Keeps r (p x)) : FMK r p (pure x) := fun _ => h

theorem fm_bind {α β : Type} {r : State} {p : β → State} {m : FM α} {k : α → FM β} (h : ∀ x, FMK r p (k x)) :
    FMK r p (m >>= k) := fun fl => h (m fl).1 (m fl).2

theorem fm_bindS {α β : Type} {r : State} {p : β → State} (q : α → State) {m : FM α} {k : α → FM β} (hm : FMK r q m)
    (h : ∀ x, Keeps r (q x) → FMK r p (k x)) : FMK r p (m >>= k) := fun fl => h (m fl).1 (hm fl) (m fl).2

theorem fm_ite {α : Type} {r : State} {p : α → State} {m n : FM α} (c : Prop) [Decidable c] (h : FMK r p m)
    (k : FMK r p n) : FMK r p (if c then m else n) := by
  split
  · exact h
  · exact k

theorem fm_val {α : Type} {r : State} (p : α → State) {m : FM α} (h : FMK r p m) : Keeps r (p (F32.val m)) := h 0

theorem fm_run {α : Type} {r : State} (p : α → State) {m : FM α} (fl : FFlags) (h : FMK r p m) :
    Keeps r (p (StateT.run m fl).1) := h fl

/-- A fold keeps what its step keeps. -/
theorem keeps_foldl {α : Type} {r : State} (f : State → α → State) (b : State) (xs : List α) (hb : Keeps r b)
    (hf : ∀ b x, Keeps r b → Keeps r (f b x)) : Keeps r (xs.foldl f b) := by
  induction xs generalizing b with
  | nil => exact hb
  | cons x xs ih => exact ih (f b x) (hf b x hb)

theorem keeps_foldl2 {α β : Type} {r : State} (f : β × State → α → β × State) (b : β × State) (xs : List α)
    (hb : Keeps r b.2) (hf : ∀ b x, Keeps r b.2 → Keeps r (f b x).2) : Keeps r (xs.foldl f b).2 := by
  induction xs generalizing b with
  | nil => exact hb
  | cons x xs ih => exact ih (f b x) (hf b x hb)

theorem keeps_foldl22 {α β γ : Type} {r : State} (f : γ × β × State → α → γ × β × State) (b : γ × β × State)
    (xs : List α) (hb : Keeps r b.2.2) (hf : ∀ b x, Keeps r b.2.2 → Keeps r (f b x).2.2) : Keeps r (xs.foldl f b).2.2 := by
  induction xs generalizing b with
  | nil => exact hb
  | cons x xs ih => exact ih (f b x) (hf b x hb)

/-- Every named memory operation keeps the canonical form of memory. -/
theorem Memory.wf_setByte (s : State) (a : Nat) (v : Byte) (h : Memory.wf s.mem = true) :
    Memory.wf (s.setByte a v).mem = true := SMap.wf_put memDflt s.mem a v h

theorem Memory.wf_store (s : State) (a : Nat) (bs : List Byte) (h : Memory.wf s.mem = true) :
    Memory.wf (s.store a bs).mem = true := by
  induction bs generalizing s a with
  | nil => exact h
  | cons b bs ih => exact ih (s.setByte a b) (a + 1) (Memory.wf_setByte s a b h)

theorem Memory.wf_wr (s : State) (a n v : Nat) (h : Memory.wf s.mem = true) : Memory.wf (s.wr a n v).mem = true :=
  Memory.wf_store s a (leBytes n v) h

theorem Memory.wf_dropMem (s : State) (p : Nat → Bool) (h : Memory.wf s.mem = true) :
    Memory.wf (s.dropMem p).mem = true := SMap.wf_filter memDflt s.mem _ h

/-- The wipe of an erase drops entries. -/
theorem Memory.wf_wipe (keep n : Nat) (m : List Host.Cell) (h : Memory.wf m = true) : Memory.wf (wipe keep n m) = true :=
  SMap.wf_filter memDflt m _ h

end Sys2Proof.Machine
end

