-- ==== Sys2Proof/Laws/State.lean ====
section
/-! SUPPORT. What the named updates of the state leave as they are, one lemma a field, and what reads after writes give:
register fields, bytes of memory, and the indexed families of units. No later proof unfolds a record update. -/

namespace Sys2Proof.Machine

/-! ## Bit fields -/

theorem bits_lt (x hi lo : Nat) : bits x hi lo < 2 ^ (hi + 1 - lo) := Nat.mod_lt _ (Nat.two_pow_pos _)

/-- Bits of a number, by the low and high parts around a field. -/
theorem split_bits (x hi lo : Nat) (h : lo ≤ hi + 1) :
    x = x % 2 ^ lo + bits x hi lo * 2 ^ lo + x / 2 ^ (hi + 1) * 2 ^ (hi + 1) := by
  have e : 2 ^ (hi + 1) = 2 ^ (hi + 1 - lo) * 2 ^ lo := by rw [← Nat.pow_add]; congr 1; omega
  have h1 := Nat.div_add_mod x (2 ^ lo)
  have h2 := Nat.div_add_mod (x / 2 ^ lo) (2 ^ (hi + 1 - lo))
  have h3 : x / 2 ^ (hi + 1) = x / 2 ^ lo / 2 ^ (hi + 1 - lo) := by
    rw [Nat.div_div_eq_div_mul, e, Nat.mul_comm]
  rw [h3, e]
  unfold bits
  have h4 : x / 2 ^ lo / 2 ^ (hi + 1 - lo) * (2 ^ (hi + 1 - lo) * 2 ^ lo) =
      2 ^ lo * (2 ^ (hi + 1 - lo) * (x / 2 ^ lo / 2 ^ (hi + 1 - lo))) := by ac_rfl
  rw [h4]
  have h5 : 2 ^ lo * (x / 2 ^ lo) = 2 ^ lo * (2 ^ (hi + 1 - lo) * (x / 2 ^ lo / 2 ^ (hi + 1 - lo))) +
      x / 2 ^ lo % 2 ^ (hi + 1 - lo) * 2 ^ lo := by
    conv => lhs; rw [← h2]
    rw [Nat.mul_add, Nat.mul_comm (2 ^ lo) (x / 2 ^ lo % 2 ^ (hi + 1 - lo))]
  omega

theorem putBits_eq (x hi lo v : Nat) (h : lo ≤ hi + 1) :
    putBits x hi lo v = x % 2 ^ lo + v % 2 ^ (hi + 1 - lo) * 2 ^ lo + x / 2 ^ (hi + 1) * 2 ^ (hi + 1) := by
  have e := split_bits x hi lo h
  unfold putBits
  omega

theorem putBits_testBit (x hi lo v i : Nat) (h : lo ≤ hi + 1) :
    (putBits x hi lo v).testBit i = if lo ≤ i ∧ i ≤ hi then v.testBit (i - lo) else x.testBit i := by
  have e1 : 2 ^ (hi + 1) = 2 ^ lo * 2 ^ (hi + 1 - lo) := by rw [← Nat.pow_add]; congr 1; omega
  have e : putBits x hi lo v = (x / 2 ^ (hi + 1) * 2 ^ (hi + 1 - lo) + v % 2 ^ (hi + 1 - lo)) * 2 ^ lo + x % 2 ^ lo := by
    rw [putBits_eq x hi lo v h, e1, Nat.add_mul]; ac_rfl
  rw [e, Nat.mul_comm, Nat.testBit_two_pow_mul_add _ (Nat.mod_lt _ (Nat.two_pow_pos lo))]
  by_cases c : i < lo
  · rw [if_pos c, if_neg (by omega), Nat.testBit_mod_two_pow]; simp [c]
  · rw [if_neg c, Nat.mul_comm, Nat.testBit_two_pow_mul_add _ (Nat.mod_lt _ (Nat.two_pow_pos _))]
    by_cases d : i ≤ hi
    · rw [if_pos (by omega), if_pos (by omega), Nat.testBit_mod_two_pow]
      simp only [show i - lo < hi + 1 - lo by omega, decide_true, Bool.true_and]
    · rw [if_neg (by omega), if_neg (by omega), ← Nat.shiftRight_eq_div_pow, Nat.testBit_shiftRight]
      congr 1; omega

theorem bits_testBit (x hi lo i : Nat) : (bits x hi lo).testBit i = (decide (i < hi + 1 - lo) && x.testBit (lo + i)) := by
  unfold bits
  rw [Nat.testBit_mod_two_pow, ← Nat.shiftRight_eq_div_pow, Nat.testBit_shiftRight]

/-- A field reads what was put into it. -/
theorem bits_putBits_self (x hi lo v : Nat) (h : lo ≤ hi + 1) : bits (putBits x hi lo v) hi lo = v % 2 ^ (hi + 1 - lo) := by
  refine Nat.eq_of_testBit_eq (fun i => ?_)
  rw [bits_testBit, putBits_testBit _ _ _ _ _ h, Nat.testBit_mod_two_pow]
  by_cases c : i < hi + 1 - lo
  · rw [if_pos (by omega), show lo + i - lo = i by omega]
  · simp [c]

/-- A field apart from the one written keeps its value. -/
theorem bits_putBits_ne (x hi lo v hi' lo' : Nat) (h : lo ≤ hi + 1) (d : hi < lo' ∨ hi' < lo) :
    bits (putBits x hi lo v) hi' lo' = bits x hi' lo' := by
  refine Nat.eq_of_testBit_eq (fun i => ?_)
  rw [bits_testBit, putBits_testBit _ _ _ _ _ h, bits_testBit]
  by_cases c : i < hi' + 1 - lo'
  · rw [if_neg (by omega)]
  · simp [c]

theorem putBits_lt (x hi lo v n : Nat) (h : lo ≤ hi + 1) (hx : x < 2 ^ n) (hn : hi < n) : putBits x hi lo v < 2 ^ n := by
  refine Nat.lt_pow_two_of_testBit _ (fun i hi' => ?_)
  rw [putBits_testBit _ _ _ _ _ h, if_neg (by omega)]
  exact Nat.testBit_lt_two_pow (Nat.lt_of_lt_of_le hx (Nat.pow_le_pow_right (by decide) hi'))

/-! ## One lemma per field per update -/

@[simp] theorem State.setReg_pending (s : State) (a v : Nat) : (s.setReg a v).pending = s.pending := rfl
@[simp] theorem State.setReg_act (s : State) (a v : Nat) : (s.setReg a v).act = s.act := rfl
@[simp] theorem State.setReg_mem (s : State) (a v : Nat) : (s.setReg a v).mem = s.mem := rfl
@[simp] theorem State.setReg_free (s : State) (a v : Nat) : (s.setReg a v).free = s.free := rfl
@[simp] theorem State.setReg_resp (s : State) (a v : Nat) : (s.setReg a v).resp = s.resp := rfl
@[simp] theorem State.setReg_tim (s : State) (a v : Nat) : (s.setReg a v).tim = s.tim := rfl
@[simp] theorem State.setReg_log (s : State) (a v : Nat) : (s.setReg a v).log = s.log := rfl
@[simp] theorem State.setReg_fid (s : State) (a v : Nat) : (s.setReg a v).fid = s.fid := rfl
@[simp] theorem State.setReg_dsp (s : State) (a v : Nat) : (s.setReg a v).dsp = s.dsp := rfl
@[simp] theorem State.setReg_net (s : State) (a v : Nat) : (s.setReg a v).net = s.net := rfl
@[simp] theorem State.setReg_axes (s : State) (a v : Nat) : (s.setReg a v).axes = s.axes := rfl
@[simp] theorem State.setReg_pwr (s : State) (a v : Nat) : (s.setReg a v).pwr = s.pwr := rfl
@[simp] theorem State.setReg_ke (s : State) (a v : Nat) : (s.setReg a v).ke = s.ke := rfl
@[simp] theorem State.setReg_bel (s : State) (a v : Nat) : (s.setReg a v).bel = s.bel := rfl
@[simp] theorem State.setReg_dx (s : State) (a v : Nat) : (s.setReg a v).dx = s.dx := rfl
@[simp] theorem State.setReg_pmu (s : State) (a v : Nat) : (s.setReg a v).pmu = s.pmu := rfl
@[simp] theorem State.setReg_boot (s : State) (a v : Nat) : (s.setReg a v).boot = s.boot := rfl
@[simp] theorem State.setReg_host (s : State) (a v : Nat) : (s.setReg a v).host = s.host := rfl
@[simp] theorem State.setActReg_pending (s : State) (a v : Nat) : (s.setActReg a v).pending = s.pending := rfl
@[simp] theorem State.setActReg_regs (s : State) (a v : Nat) : (s.setActReg a v).regs = s.regs := rfl
@[simp] theorem State.setActReg_mem (s : State) (a v : Nat) : (s.setActReg a v).mem = s.mem := rfl
@[simp] theorem State.setActReg_free (s : State) (a v : Nat) : (s.setActReg a v).free = s.free := rfl
@[simp] theorem State.setActReg_resp (s : State) (a v : Nat) : (s.setActReg a v).resp = s.resp := rfl
@[simp] theorem State.setActReg_tim (s : State) (a v : Nat) : (s.setActReg a v).tim = s.tim := rfl
@[simp] theorem State.setActReg_log (s : State) (a v : Nat) : (s.setActReg a v).log = s.log := rfl
@[simp] theorem State.setActReg_fid (s : State) (a v : Nat) : (s.setActReg a v).fid = s.fid := rfl
@[simp] theorem State.setActReg_dsp (s : State) (a v : Nat) : (s.setActReg a v).dsp = s.dsp := rfl
@[simp] theorem State.setActReg_net (s : State) (a v : Nat) : (s.setActReg a v).net = s.net := rfl
@[simp] theorem State.setActReg_axes (s : State) (a v : Nat) : (s.setActReg a v).axes = s.axes := rfl
@[simp] theorem State.setActReg_pwr (s : State) (a v : Nat) : (s.setActReg a v).pwr = s.pwr := rfl
@[simp] theorem State.setActReg_ke (s : State) (a v : Nat) : (s.setActReg a v).ke = s.ke := rfl
@[simp] theorem State.setActReg_bel (s : State) (a v : Nat) : (s.setActReg a v).bel = s.bel := rfl
@[simp] theorem State.setActReg_dx (s : State) (a v : Nat) : (s.setActReg a v).dx = s.dx := rfl
@[simp] theorem State.setActReg_pmu (s : State) (a v : Nat) : (s.setActReg a v).pmu = s.pmu := rfl
@[simp] theorem State.setActReg_boot (s : State) (a v : Nat) : (s.setActReg a v).boot = s.boot := rfl
@[simp] theorem State.setActReg_host (s : State) (a v : Nat) : (s.setActReg a v).host = s.host := rfl
@[simp] theorem State.setByte_pending (s : State) (a : Nat) (v : Byte) : (s.setByte a v).pending = s.pending := rfl
@[simp] theorem State.setByte_regs (s : State) (a : Nat) (v : Byte) : (s.setByte a v).regs = s.regs := rfl
@[simp] theorem State.setByte_act (s : State) (a : Nat) (v : Byte) : (s.setByte a v).act = s.act := rfl
@[simp] theorem State.setByte_free (s : State) (a : Nat) (v : Byte) : (s.setByte a v).free = s.free := rfl
@[simp] theorem State.setByte_resp (s : State) (a : Nat) (v : Byte) : (s.setByte a v).resp = s.resp := rfl
@[simp] theorem State.setByte_tim (s : State) (a : Nat) (v : Byte) : (s.setByte a v).tim = s.tim := rfl
@[simp] theorem State.setByte_log (s : State) (a : Nat) (v : Byte) : (s.setByte a v).log = s.log := rfl
@[simp] theorem State.setByte_fid (s : State) (a : Nat) (v : Byte) : (s.setByte a v).fid = s.fid := rfl
@[simp] theorem State.setByte_dsp (s : State) (a : Nat) (v : Byte) : (s.setByte a v).dsp = s.dsp := rfl
@[simp] theorem State.setByte_net (s : State) (a : Nat) (v : Byte) : (s.setByte a v).net = s.net := rfl
@[simp] theorem State.setByte_axes (s : State) (a : Nat) (v : Byte) : (s.setByte a v).axes = s.axes := rfl
@[simp] theorem State.setByte_pwr (s : State) (a : Nat) (v : Byte) : (s.setByte a v).pwr = s.pwr := rfl
@[simp] theorem State.setByte_ke (s : State) (a : Nat) (v : Byte) : (s.setByte a v).ke = s.ke := rfl
@[simp] theorem State.setByte_bel (s : State) (a : Nat) (v : Byte) : (s.setByte a v).bel = s.bel := rfl
@[simp] theorem State.setByte_dx (s : State) (a : Nat) (v : Byte) : (s.setByte a v).dx = s.dx := rfl
@[simp] theorem State.setByte_pmu (s : State) (a : Nat) (v : Byte) : (s.setByte a v).pmu = s.pmu := rfl
@[simp] theorem State.setByte_boot (s : State) (a : Nat) (v : Byte) : (s.setByte a v).boot = s.boot := rfl
@[simp] theorem State.setByte_host (s : State) (a : Nat) (v : Byte) : (s.setByte a v).host = s.host := rfl
@[simp] theorem State.set_pending (s : State) (x : Fld) (v : Nat) : (s.set x v).pending = s.pending := rfl
@[simp] theorem State.set_act (s : State) (x : Fld) (v : Nat) : (s.set x v).act = s.act := rfl
@[simp] theorem State.set_mem (s : State) (x : Fld) (v : Nat) : (s.set x v).mem = s.mem := rfl
@[simp] theorem State.set_free (s : State) (x : Fld) (v : Nat) : (s.set x v).free = s.free := rfl
@[simp] theorem State.set_resp (s : State) (x : Fld) (v : Nat) : (s.set x v).resp = s.resp := rfl
@[simp] theorem State.set_tim (s : State) (x : Fld) (v : Nat) : (s.set x v).tim = s.tim := rfl
@[simp] theorem State.set_log (s : State) (x : Fld) (v : Nat) : (s.set x v).log = s.log := rfl
@[simp] theorem State.set_fid (s : State) (x : Fld) (v : Nat) : (s.set x v).fid = s.fid := rfl
@[simp] theorem State.set_dsp (s : State) (x : Fld) (v : Nat) : (s.set x v).dsp = s.dsp := rfl
@[simp] theorem State.set_net (s : State) (x : Fld) (v : Nat) : (s.set x v).net = s.net := rfl
@[simp] theorem State.set_axes (s : State) (x : Fld) (v : Nat) : (s.set x v).axes = s.axes := rfl
@[simp] theorem State.set_pwr (s : State) (x : Fld) (v : Nat) : (s.set x v).pwr = s.pwr := rfl
@[simp] theorem State.set_ke (s : State) (x : Fld) (v : Nat) : (s.set x v).ke = s.ke := rfl
@[simp] theorem State.set_bel (s : State) (x : Fld) (v : Nat) : (s.set x v).bel = s.bel := rfl
@[simp] theorem State.set_dx (s : State) (x : Fld) (v : Nat) : (s.set x v).dx = s.dx := rfl
@[simp] theorem State.set_pmu (s : State) (x : Fld) (v : Nat) : (s.set x v).pmu = s.pmu := rfl
@[simp] theorem State.set_boot (s : State) (x : Fld) (v : Nat) : (s.set x v).boot = s.boot := rfl
@[simp] theorem State.set_host (s : State) (x : Fld) (v : Nat) : (s.set x v).host = s.host := rfl
@[simp] theorem State.setA_pending (s : State) (x : Fld) (v : Nat) : (s.setA x v).pending = s.pending := rfl
@[simp] theorem State.setA_regs (s : State) (x : Fld) (v : Nat) : (s.setA x v).regs = s.regs := rfl
@[simp] theorem State.setA_mem (s : State) (x : Fld) (v : Nat) : (s.setA x v).mem = s.mem := rfl
@[simp] theorem State.setA_free (s : State) (x : Fld) (v : Nat) : (s.setA x v).free = s.free := rfl
@[simp] theorem State.setA_resp (s : State) (x : Fld) (v : Nat) : (s.setA x v).resp = s.resp := rfl
@[simp] theorem State.setA_tim (s : State) (x : Fld) (v : Nat) : (s.setA x v).tim = s.tim := rfl
@[simp] theorem State.setA_log (s : State) (x : Fld) (v : Nat) : (s.setA x v).log = s.log := rfl
@[simp] theorem State.setA_fid (s : State) (x : Fld) (v : Nat) : (s.setA x v).fid = s.fid := rfl
@[simp] theorem State.setA_dsp (s : State) (x : Fld) (v : Nat) : (s.setA x v).dsp = s.dsp := rfl
@[simp] theorem State.setA_net (s : State) (x : Fld) (v : Nat) : (s.setA x v).net = s.net := rfl
@[simp] theorem State.setA_axes (s : State) (x : Fld) (v : Nat) : (s.setA x v).axes = s.axes := rfl
@[simp] theorem State.setA_pwr (s : State) (x : Fld) (v : Nat) : (s.setA x v).pwr = s.pwr := rfl
@[simp] theorem State.setA_ke (s : State) (x : Fld) (v : Nat) : (s.setA x v).ke = s.ke := rfl
@[simp] theorem State.setA_bel (s : State) (x : Fld) (v : Nat) : (s.setA x v).bel = s.bel := rfl
@[simp] theorem State.setA_dx (s : State) (x : Fld) (v : Nat) : (s.setA x v).dx = s.dx := rfl
@[simp] theorem State.setA_pmu (s : State) (x : Fld) (v : Nat) : (s.setA x v).pmu = s.pmu := rfl
@[simp] theorem State.setA_boot (s : State) (x : Fld) (v : Nat) : (s.setA x v).boot = s.boot := rfl
@[simp] theorem State.setA_host (s : State) (x : Fld) (v : Nat) : (s.setA x v).host = s.host := rfl
@[simp] theorem State.burn_pending (s : State) : (s.burn ).pending = s.pending := rfl
@[simp] theorem State.burn_regs (s : State) : (s.burn ).regs = s.regs := rfl
@[simp] theorem State.burn_act (s : State) : (s.burn ).act = s.act := rfl
@[simp] theorem State.burn_mem (s : State) : (s.burn ).mem = s.mem := rfl
@[simp] theorem State.burn_resp (s : State) : (s.burn ).resp = s.resp := rfl
@[simp] theorem State.burn_tim (s : State) : (s.burn ).tim = s.tim := rfl
@[simp] theorem State.burn_log (s : State) : (s.burn ).log = s.log := rfl
@[simp] theorem State.burn_fid (s : State) : (s.burn ).fid = s.fid := rfl
@[simp] theorem State.burn_dsp (s : State) : (s.burn ).dsp = s.dsp := rfl
@[simp] theorem State.burn_net (s : State) : (s.burn ).net = s.net := rfl
@[simp] theorem State.burn_axes (s : State) : (s.burn ).axes = s.axes := rfl
@[simp] theorem State.burn_pwr (s : State) : (s.burn ).pwr = s.pwr := rfl
@[simp] theorem State.burn_ke (s : State) : (s.burn ).ke = s.ke := rfl
@[simp] theorem State.burn_bel (s : State) : (s.burn ).bel = s.bel := rfl
@[simp] theorem State.burn_dx (s : State) : (s.burn ).dx = s.dx := rfl
@[simp] theorem State.burn_pmu (s : State) : (s.burn ).pmu = s.pmu := rfl
@[simp] theorem State.burn_boot (s : State) : (s.burn ).boot = s.boot := rfl
@[simp] theorem State.burn_host (s : State) : (s.burn ).host = s.host := rfl
@[simp] theorem State.setRep_pending (s : State) (i : Nat) (x : Replica) : (s.setRep i x).pending = s.pending := rfl
@[simp] theorem State.setRep_regs (s : State) (i : Nat) (x : Replica) : (s.setRep i x).regs = s.regs := rfl
@[simp] theorem State.setRep_act (s : State) (i : Nat) (x : Replica) : (s.setRep i x).act = s.act := rfl
@[simp] theorem State.setRep_mem (s : State) (i : Nat) (x : Replica) : (s.setRep i x).mem = s.mem := rfl
@[simp] theorem State.setRep_free (s : State) (i : Nat) (x : Replica) : (s.setRep i x).free = s.free := rfl
@[simp] theorem State.setRep_resp (s : State) (i : Nat) (x : Replica) : (s.setRep i x).resp = s.resp := rfl
@[simp] theorem State.setRep_log (s : State) (i : Nat) (x : Replica) : (s.setRep i x).log = s.log := rfl
@[simp] theorem State.setRep_fid (s : State) (i : Nat) (x : Replica) : (s.setRep i x).fid = s.fid := rfl
@[simp] theorem State.setRep_dsp (s : State) (i : Nat) (x : Replica) : (s.setRep i x).dsp = s.dsp := rfl
@[simp] theorem State.setRep_net (s : State) (i : Nat) (x : Replica) : (s.setRep i x).net = s.net := rfl
@[simp] theorem State.setRep_axes (s : State) (i : Nat) (x : Replica) : (s.setRep i x).axes = s.axes := rfl
@[simp] theorem State.setRep_pwr (s : State) (i : Nat) (x : Replica) : (s.setRep i x).pwr = s.pwr := rfl
@[simp] theorem State.setRep_ke (s : State) (i : Nat) (x : Replica) : (s.setRep i x).ke = s.ke := rfl
@[simp] theorem State.setRep_bel (s : State) (i : Nat) (x : Replica) : (s.setRep i x).bel = s.bel := rfl
@[simp] theorem State.setRep_dx (s : State) (i : Nat) (x : Replica) : (s.setRep i x).dx = s.dx := rfl
@[simp] theorem State.setRep_pmu (s : State) (i : Nat) (x : Replica) : (s.setRep i x).pmu = s.pmu := rfl
@[simp] theorem State.setRep_boot (s : State) (i : Nat) (x : Replica) : (s.setRep i x).boot = s.boot := rfl
@[simp] theorem State.setRep_host (s : State) (i : Nat) (x : Replica) : (s.setRep i x).host = s.host := rfl
@[simp] theorem State.setStrand_pending (s : State) (t : Nat) (x : Strand) : (s.setStrand t x).pending = s.pending := rfl
@[simp] theorem State.setStrand_regs (s : State) (t : Nat) (x : Strand) : (s.setStrand t x).regs = s.regs := rfl
@[simp] theorem State.setStrand_act (s : State) (t : Nat) (x : Strand) : (s.setStrand t x).act = s.act := rfl
@[simp] theorem State.setStrand_mem (s : State) (t : Nat) (x : Strand) : (s.setStrand t x).mem = s.mem := rfl
@[simp] theorem State.setStrand_free (s : State) (t : Nat) (x : Strand) : (s.setStrand t x).free = s.free := rfl
@[simp] theorem State.setStrand_resp (s : State) (t : Nat) (x : Strand) : (s.setStrand t x).resp = s.resp := rfl
@[simp] theorem State.setStrand_tim (s : State) (t : Nat) (x : Strand) : (s.setStrand t x).tim = s.tim := rfl
@[simp] theorem State.setStrand_log (s : State) (t : Nat) (x : Strand) : (s.setStrand t x).log = s.log := rfl
@[simp] theorem State.setStrand_fid (s : State) (t : Nat) (x : Strand) : (s.setStrand t x).fid = s.fid := rfl
@[simp] theorem State.setStrand_net (s : State) (t : Nat) (x : Strand) : (s.setStrand t x).net = s.net := rfl
@[simp] theorem State.setStrand_axes (s : State) (t : Nat) (x : Strand) : (s.setStrand t x).axes = s.axes := rfl
@[simp] theorem State.setStrand_pwr (s : State) (t : Nat) (x : Strand) : (s.setStrand t x).pwr = s.pwr := rfl
@[simp] theorem State.setStrand_ke (s : State) (t : Nat) (x : Strand) : (s.setStrand t x).ke = s.ke := rfl
@[simp] theorem State.setStrand_bel (s : State) (t : Nat) (x : Strand) : (s.setStrand t x).bel = s.bel := rfl
@[simp] theorem State.setStrand_dx (s : State) (t : Nat) (x : Strand) : (s.setStrand t x).dx = s.dx := rfl
@[simp] theorem State.setStrand_pmu (s : State) (t : Nat) (x : Strand) : (s.setStrand t x).pmu = s.pmu := rfl
@[simp] theorem State.setStrand_boot (s : State) (t : Nat) (x : Strand) : (s.setStrand t x).boot = s.boot := rfl
@[simp] theorem State.setStrand_host (s : State) (t : Nat) (x : Strand) : (s.setStrand t x).host = s.host := rfl
@[simp] theorem State.setCore_pending (s : State) (c : Nat) (x : Core) : (s.setCore c x).pending = s.pending := rfl
@[simp] theorem State.setCore_regs (s : State) (c : Nat) (x : Core) : (s.setCore c x).regs = s.regs := rfl
@[simp] theorem State.setCore_act (s : State) (c : Nat) (x : Core) : (s.setCore c x).act = s.act := rfl
@[simp] theorem State.setCore_mem (s : State) (c : Nat) (x : Core) : (s.setCore c x).mem = s.mem := rfl
@[simp] theorem State.setCore_free (s : State) (c : Nat) (x : Core) : (s.setCore c x).free = s.free := rfl
@[simp] theorem State.setCore_resp (s : State) (c : Nat) (x : Core) : (s.setCore c x).resp = s.resp := rfl
@[simp] theorem State.setCore_tim (s : State) (c : Nat) (x : Core) : (s.setCore c x).tim = s.tim := rfl
@[simp] theorem State.setCore_log (s : State) (c : Nat) (x : Core) : (s.setCore c x).log = s.log := rfl
@[simp] theorem State.setCore_fid (s : State) (c : Nat) (x : Core) : (s.setCore c x).fid = s.fid := rfl
@[simp] theorem State.setCore_net (s : State) (c : Nat) (x : Core) : (s.setCore c x).net = s.net := rfl
@[simp] theorem State.setCore_axes (s : State) (c : Nat) (x : Core) : (s.setCore c x).axes = s.axes := rfl
@[simp] theorem State.setCore_pwr (s : State) (c : Nat) (x : Core) : (s.setCore c x).pwr = s.pwr := rfl
@[simp] theorem State.setCore_ke (s : State) (c : Nat) (x : Core) : (s.setCore c x).ke = s.ke := rfl
@[simp] theorem State.setCore_bel (s : State) (c : Nat) (x : Core) : (s.setCore c x).bel = s.bel := rfl
@[simp] theorem State.setCore_dx (s : State) (c : Nat) (x : Core) : (s.setCore c x).dx = s.dx := rfl
@[simp] theorem State.setCore_pmu (s : State) (c : Nat) (x : Core) : (s.setCore c x).pmu = s.pmu := rfl
@[simp] theorem State.setCore_boot (s : State) (c : Nat) (x : Core) : (s.setCore c x).boot = s.boot := rfl
@[simp] theorem State.setCore_host (s : State) (c : Nat) (x : Core) : (s.setCore c x).host = s.host := rfl
@[simp] theorem State.answer_pending (s : State) (x : Resp) : (s.answer x).pending = s.pending := rfl
@[simp] theorem State.answer_regs (s : State) (x : Resp) : (s.answer x).regs = s.regs := rfl
@[simp] theorem State.answer_act (s : State) (x : Resp) : (s.answer x).act = s.act := rfl
@[simp] theorem State.answer_mem (s : State) (x : Resp) : (s.answer x).mem = s.mem := rfl
@[simp] theorem State.answer_free (s : State) (x : Resp) : (s.answer x).free = s.free := rfl
@[simp] theorem State.answer_tim (s : State) (x : Resp) : (s.answer x).tim = s.tim := rfl
@[simp] theorem State.answer_log (s : State) (x : Resp) : (s.answer x).log = s.log := rfl
@[simp] theorem State.answer_fid (s : State) (x : Resp) : (s.answer x).fid = s.fid := rfl
@[simp] theorem State.answer_dsp (s : State) (x : Resp) : (s.answer x).dsp = s.dsp := rfl
@[simp] theorem State.answer_net (s : State) (x : Resp) : (s.answer x).net = s.net := rfl
@[simp] theorem State.answer_axes (s : State) (x : Resp) : (s.answer x).axes = s.axes := rfl
@[simp] theorem State.answer_pwr (s : State) (x : Resp) : (s.answer x).pwr = s.pwr := rfl
@[simp] theorem State.answer_ke (s : State) (x : Resp) : (s.answer x).ke = s.ke := rfl
@[simp] theorem State.answer_bel (s : State) (x : Resp) : (s.answer x).bel = s.bel := rfl
@[simp] theorem State.answer_dx (s : State) (x : Resp) : (s.answer x).dx = s.dx := rfl
@[simp] theorem State.answer_pmu (s : State) (x : Resp) : (s.answer x).pmu = s.pmu := rfl
@[simp] theorem State.answer_boot (s : State) (x : Resp) : (s.answer x).boot = s.boot := rfl
@[simp] theorem State.answer_host (s : State) (x : Resp) : (s.answer x).host = s.host := rfl
@[simp] theorem State.setNode_pending (s : State) (k : Nat) (x : NodeSt) : (s.setNode k x).pending = s.pending := rfl
@[simp] theorem State.setNode_regs (s : State) (k : Nat) (x : NodeSt) : (s.setNode k x).regs = s.regs := rfl
@[simp] theorem State.setNode_act (s : State) (k : Nat) (x : NodeSt) : (s.setNode k x).act = s.act := rfl
@[simp] theorem State.setNode_mem (s : State) (k : Nat) (x : NodeSt) : (s.setNode k x).mem = s.mem := rfl
@[simp] theorem State.setNode_free (s : State) (k : Nat) (x : NodeSt) : (s.setNode k x).free = s.free := rfl
@[simp] theorem State.setNode_resp (s : State) (k : Nat) (x : NodeSt) : (s.setNode k x).resp = s.resp := rfl
@[simp] theorem State.setNode_tim (s : State) (k : Nat) (x : NodeSt) : (s.setNode k x).tim = s.tim := rfl
@[simp] theorem State.setNode_log (s : State) (k : Nat) (x : NodeSt) : (s.setNode k x).log = s.log := rfl
@[simp] theorem State.setNode_fid (s : State) (k : Nat) (x : NodeSt) : (s.setNode k x).fid = s.fid := rfl
@[simp] theorem State.setNode_dsp (s : State) (k : Nat) (x : NodeSt) : (s.setNode k x).dsp = s.dsp := rfl
@[simp] theorem State.setNode_axes (s : State) (k : Nat) (x : NodeSt) : (s.setNode k x).axes = s.axes := rfl
@[simp] theorem State.setNode_pwr (s : State) (k : Nat) (x : NodeSt) : (s.setNode k x).pwr = s.pwr := rfl
@[simp] theorem State.setNode_ke (s : State) (k : Nat) (x : NodeSt) : (s.setNode k x).ke = s.ke := rfl
@[simp] theorem State.setNode_bel (s : State) (k : Nat) (x : NodeSt) : (s.setNode k x).bel = s.bel := rfl
@[simp] theorem State.setNode_dx (s : State) (k : Nat) (x : NodeSt) : (s.setNode k x).dx = s.dx := rfl
@[simp] theorem State.setNode_pmu (s : State) (k : Nat) (x : NodeSt) : (s.setNode k x).pmu = s.pmu := rfl
@[simp] theorem State.setNode_boot (s : State) (k : Nat) (x : NodeSt) : (s.setNode k x).boot = s.boot := rfl
@[simp] theorem State.setNode_host (s : State) (k : Nat) (x : NodeSt) : (s.setNode k x).host = s.host := rfl
@[simp] theorem State.setRing_pending (s : State) (k : Nat) (x : Ring) : (s.setRing k x).pending = s.pending := rfl
@[simp] theorem State.setRing_regs (s : State) (k : Nat) (x : Ring) : (s.setRing k x).regs = s.regs := rfl
@[simp] theorem State.setRing_act (s : State) (k : Nat) (x : Ring) : (s.setRing k x).act = s.act := rfl
@[simp] theorem State.setRing_mem (s : State) (k : Nat) (x : Ring) : (s.setRing k x).mem = s.mem := rfl
@[simp] theorem State.setRing_free (s : State) (k : Nat) (x : Ring) : (s.setRing k x).free = s.free := rfl
@[simp] theorem State.setRing_resp (s : State) (k : Nat) (x : Ring) : (s.setRing k x).resp = s.resp := rfl
@[simp] theorem State.setRing_tim (s : State) (k : Nat) (x : Ring) : (s.setRing k x).tim = s.tim := rfl
@[simp] theorem State.setRing_log (s : State) (k : Nat) (x : Ring) : (s.setRing k x).log = s.log := rfl
@[simp] theorem State.setRing_fid (s : State) (k : Nat) (x : Ring) : (s.setRing k x).fid = s.fid := rfl
@[simp] theorem State.setRing_dsp (s : State) (k : Nat) (x : Ring) : (s.setRing k x).dsp = s.dsp := rfl
@[simp] theorem State.setRing_axes (s : State) (k : Nat) (x : Ring) : (s.setRing k x).axes = s.axes := rfl
@[simp] theorem State.setRing_pwr (s : State) (k : Nat) (x : Ring) : (s.setRing k x).pwr = s.pwr := rfl
@[simp] theorem State.setRing_ke (s : State) (k : Nat) (x : Ring) : (s.setRing k x).ke = s.ke := rfl
@[simp] theorem State.setRing_bel (s : State) (k : Nat) (x : Ring) : (s.setRing k x).bel = s.bel := rfl
@[simp] theorem State.setRing_dx (s : State) (k : Nat) (x : Ring) : (s.setRing k x).dx = s.dx := rfl
@[simp] theorem State.setRing_pmu (s : State) (k : Nat) (x : Ring) : (s.setRing k x).pmu = s.pmu := rfl
@[simp] theorem State.setRing_boot (s : State) (k : Nat) (x : Ring) : (s.setRing k x).boot = s.boot := rfl
@[simp] theorem State.setRing_host (s : State) (k : Nat) (x : Ring) : (s.setRing k x).host = s.host := rfl
@[simp] theorem State.setAx_pending (s : State) (n : Nat) (x : Ax) : (s.setAx n x).pending = s.pending := rfl
@[simp] theorem State.setAx_regs (s : State) (n : Nat) (x : Ax) : (s.setAx n x).regs = s.regs := rfl
@[simp] theorem State.setAx_act (s : State) (n : Nat) (x : Ax) : (s.setAx n x).act = s.act := rfl
@[simp] theorem State.setAx_mem (s : State) (n : Nat) (x : Ax) : (s.setAx n x).mem = s.mem := rfl
@[simp] theorem State.setAx_free (s : State) (n : Nat) (x : Ax) : (s.setAx n x).free = s.free := rfl
@[simp] theorem State.setAx_resp (s : State) (n : Nat) (x : Ax) : (s.setAx n x).resp = s.resp := rfl
@[simp] theorem State.setAx_tim (s : State) (n : Nat) (x : Ax) : (s.setAx n x).tim = s.tim := rfl
@[simp] theorem State.setAx_log (s : State) (n : Nat) (x : Ax) : (s.setAx n x).log = s.log := rfl
@[simp] theorem State.setAx_fid (s : State) (n : Nat) (x : Ax) : (s.setAx n x).fid = s.fid := rfl
@[simp] theorem State.setAx_dsp (s : State) (n : Nat) (x : Ax) : (s.setAx n x).dsp = s.dsp := rfl
@[simp] theorem State.setAx_net (s : State) (n : Nat) (x : Ax) : (s.setAx n x).net = s.net := rfl
@[simp] theorem State.setAx_pwr (s : State) (n : Nat) (x : Ax) : (s.setAx n x).pwr = s.pwr := rfl
@[simp] theorem State.setAx_ke (s : State) (n : Nat) (x : Ax) : (s.setAx n x).ke = s.ke := rfl
@[simp] theorem State.setAx_bel (s : State) (n : Nat) (x : Ax) : (s.setAx n x).bel = s.bel := rfl
@[simp] theorem State.setAx_dx (s : State) (n : Nat) (x : Ax) : (s.setAx n x).dx = s.dx := rfl
@[simp] theorem State.setAx_pmu (s : State) (n : Nat) (x : Ax) : (s.setAx n x).pmu = s.pmu := rfl
@[simp] theorem State.setAx_boot (s : State) (n : Nat) (x : Ax) : (s.setAx n x).boot = s.boot := rfl
@[simp] theorem State.setAx_host (s : State) (n : Nat) (x : Ax) : (s.setAx n x).host = s.host := rfl
@[simp] theorem State.setChan_pending (s : State) (c : Nat) (x : Chan) : (s.setChan c x).pending = s.pending := rfl
@[simp] theorem State.setChan_regs (s : State) (c : Nat) (x : Chan) : (s.setChan c x).regs = s.regs := rfl
@[simp] theorem State.setChan_act (s : State) (c : Nat) (x : Chan) : (s.setChan c x).act = s.act := rfl
@[simp] theorem State.setChan_mem (s : State) (c : Nat) (x : Chan) : (s.setChan c x).mem = s.mem := rfl
@[simp] theorem State.setChan_free (s : State) (c : Nat) (x : Chan) : (s.setChan c x).free = s.free := rfl
@[simp] theorem State.setChan_resp (s : State) (c : Nat) (x : Chan) : (s.setChan c x).resp = s.resp := rfl
@[simp] theorem State.setChan_tim (s : State) (c : Nat) (x : Chan) : (s.setChan c x).tim = s.tim := rfl
@[simp] theorem State.setChan_log (s : State) (c : Nat) (x : Chan) : (s.setChan c x).log = s.log := rfl
@[simp] theorem State.setChan_fid (s : State) (c : Nat) (x : Chan) : (s.setChan c x).fid = s.fid := rfl
@[simp] theorem State.setChan_dsp (s : State) (c : Nat) (x : Chan) : (s.setChan c x).dsp = s.dsp := rfl
@[simp] theorem State.setChan_net (s : State) (c : Nat) (x : Chan) : (s.setChan c x).net = s.net := rfl
@[simp] theorem State.setChan_axes (s : State) (c : Nat) (x : Chan) : (s.setChan c x).axes = s.axes := rfl
@[simp] theorem State.setChan_ke (s : State) (c : Nat) (x : Chan) : (s.setChan c x).ke = s.ke := rfl
@[simp] theorem State.setChan_bel (s : State) (c : Nat) (x : Chan) : (s.setChan c x).bel = s.bel := rfl
@[simp] theorem State.setChan_dx (s : State) (c : Nat) (x : Chan) : (s.setChan c x).dx = s.dx := rfl
@[simp] theorem State.setChan_pmu (s : State) (c : Nat) (x : Chan) : (s.setChan c x).pmu = s.pmu := rfl
@[simp] theorem State.setChan_boot (s : State) (c : Nat) (x : Chan) : (s.setChan c x).boot = s.boot := rfl
@[simp] theorem State.setChan_host (s : State) (c : Nat) (x : Chan) : (s.setChan c x).host = s.host := rfl
@[simp] theorem State.setGang_pending (s : State) (q : Nat) (x : Gang) : (s.setGang q x).pending = s.pending := rfl
@[simp] theorem State.setGang_regs (s : State) (q : Nat) (x : Gang) : (s.setGang q x).regs = s.regs := rfl
@[simp] theorem State.setGang_act (s : State) (q : Nat) (x : Gang) : (s.setGang q x).act = s.act := rfl
@[simp] theorem State.setGang_mem (s : State) (q : Nat) (x : Gang) : (s.setGang q x).mem = s.mem := rfl
@[simp] theorem State.setGang_free (s : State) (q : Nat) (x : Gang) : (s.setGang q x).free = s.free := rfl
@[simp] theorem State.setGang_resp (s : State) (q : Nat) (x : Gang) : (s.setGang q x).resp = s.resp := rfl
@[simp] theorem State.setGang_tim (s : State) (q : Nat) (x : Gang) : (s.setGang q x).tim = s.tim := rfl
@[simp] theorem State.setGang_log (s : State) (q : Nat) (x : Gang) : (s.setGang q x).log = s.log := rfl
@[simp] theorem State.setGang_fid (s : State) (q : Nat) (x : Gang) : (s.setGang q x).fid = s.fid := rfl
@[simp] theorem State.setGang_dsp (s : State) (q : Nat) (x : Gang) : (s.setGang q x).dsp = s.dsp := rfl
@[simp] theorem State.setGang_net (s : State) (q : Nat) (x : Gang) : (s.setGang q x).net = s.net := rfl
@[simp] theorem State.setGang_axes (s : State) (q : Nat) (x : Gang) : (s.setGang q x).axes = s.axes := rfl
@[simp] theorem State.setGang_ke (s : State) (q : Nat) (x : Gang) : (s.setGang q x).ke = s.ke := rfl
@[simp] theorem State.setGang_bel (s : State) (q : Nat) (x : Gang) : (s.setGang q x).bel = s.bel := rfl
@[simp] theorem State.setGang_dx (s : State) (q : Nat) (x : Gang) : (s.setGang q x).dx = s.dx := rfl
@[simp] theorem State.setGang_pmu (s : State) (q : Nat) (x : Gang) : (s.setGang q x).pmu = s.pmu := rfl
@[simp] theorem State.setGang_boot (s : State) (q : Nat) (x : Gang) : (s.setGang q x).boot = s.boot := rfl
@[simp] theorem State.setGang_host (s : State) (q : Nat) (x : Gang) : (s.setGang q x).host = s.host := rfl
@[simp] theorem State.setKnot_pending (s : State) (k : Nat) (x : Knot) : (s.setKnot k x).pending = s.pending := rfl
@[simp] theorem State.setKnot_regs (s : State) (k : Nat) (x : Knot) : (s.setKnot k x).regs = s.regs := rfl
@[simp] theorem State.setKnot_act (s : State) (k : Nat) (x : Knot) : (s.setKnot k x).act = s.act := rfl
@[simp] theorem State.setKnot_mem (s : State) (k : Nat) (x : Knot) : (s.setKnot k x).mem = s.mem := rfl
@[simp] theorem State.setKnot_free (s : State) (k : Nat) (x : Knot) : (s.setKnot k x).free = s.free := rfl
@[simp] theorem State.setKnot_resp (s : State) (k : Nat) (x : Knot) : (s.setKnot k x).resp = s.resp := rfl
@[simp] theorem State.setKnot_tim (s : State) (k : Nat) (x : Knot) : (s.setKnot k x).tim = s.tim := rfl
@[simp] theorem State.setKnot_log (s : State) (k : Nat) (x : Knot) : (s.setKnot k x).log = s.log := rfl
@[simp] theorem State.setKnot_fid (s : State) (k : Nat) (x : Knot) : (s.setKnot k x).fid = s.fid := rfl
@[simp] theorem State.setKnot_dsp (s : State) (k : Nat) (x : Knot) : (s.setKnot k x).dsp = s.dsp := rfl
@[simp] theorem State.setKnot_net (s : State) (k : Nat) (x : Knot) : (s.setKnot k x).net = s.net := rfl
@[simp] theorem State.setKnot_axes (s : State) (k : Nat) (x : Knot) : (s.setKnot k x).axes = s.axes := rfl
@[simp] theorem State.setKnot_pwr (s : State) (k : Nat) (x : Knot) : (s.setKnot k x).pwr = s.pwr := rfl
@[simp] theorem State.setKnot_bel (s : State) (k : Nat) (x : Knot) : (s.setKnot k x).bel = s.bel := rfl
@[simp] theorem State.setKnot_dx (s : State) (k : Nat) (x : Knot) : (s.setKnot k x).dx = s.dx := rfl
@[simp] theorem State.setKnot_pmu (s : State) (k : Nat) (x : Knot) : (s.setKnot k x).pmu = s.pmu := rfl
@[simp] theorem State.setKnot_boot (s : State) (k : Nat) (x : Knot) : (s.setKnot k x).boot = s.boot := rfl
@[simp] theorem State.setKnot_host (s : State) (k : Nat) (x : Knot) : (s.setKnot k x).host = s.host := rfl

/-! ## Accessors that an update does not touch -/

@[simp] theorem State.setReg_actReg' (s : State) (a v : Nat) (k : Nat) : (s.setReg a v).actReg k = s.actReg k := rfl
@[simp] theorem State.setReg_fa' (s : State) (a v : Nat) (y : Fld) : (s.setReg a v).fa y = s.fa y := rfl
@[simp] theorem State.setReg_byte' (s : State) (a v : Nat) (k : Nat) : (s.setReg a v).byte k = s.byte k := rfl
@[simp] theorem State.setReg_core' (s : State) (a v : Nat) (k : Nat) : (s.setReg a v).core k = s.core k := rfl
@[simp] theorem State.setReg_strand' (s : State) (a v : Nat) (k : Nat) : (s.setReg a v).strand k = s.strand k := rfl
@[simp] theorem State.setReg_ring' (s : State) (a v : Nat) (k : Nat) : (s.setReg a v).ring k = s.ring k := rfl
@[simp] theorem State.setReg_node' (s : State) (a v : Nat) (k : Nat) : (s.setReg a v).node k = s.node k := rfl
@[simp] theorem State.setReg_ax' (s : State) (a v : Nat) (k : Nat) : (s.setReg a v).ax k = s.ax k := rfl
@[simp] theorem State.setReg_chan' (s : State) (a v : Nat) (k : Nat) : (s.setReg a v).chan k = s.chan k := rfl
@[simp] theorem State.setReg_gang' (s : State) (a v : Nat) (k : Nat) : (s.setReg a v).gang k = s.gang k := rfl
@[simp] theorem State.setReg_knot' (s : State) (a v : Nat) (k : Nat) : (s.setReg a v).knot k = s.knot k := rfl
@[simp] theorem State.setReg_rep' (s : State) (a v : Nat) (k : Nat) : (s.setReg a v).rep k = s.rep k := rfl
@[simp] theorem State.setActReg_reg' (s : State) (a v : Nat) (k : Nat) : (s.setActReg a v).reg k = s.reg k := rfl
@[simp] theorem State.setActReg_f' (s : State) (a v : Nat) (y : Fld) : (s.setActReg a v).f y = s.f y := rfl
@[simp] theorem State.setActReg_on' (s : State) (a v : Nat) (y : Fld) : (s.setActReg a v).on y = s.on y := rfl
@[simp] theorem State.setActReg_byte' (s : State) (a v : Nat) (k : Nat) : (s.setActReg a v).byte k = s.byte k := rfl
@[simp] theorem State.setActReg_core' (s : State) (a v : Nat) (k : Nat) : (s.setActReg a v).core k = s.core k := rfl
@[simp] theorem State.setActReg_strand' (s : State) (a v : Nat) (k : Nat) : (s.setActReg a v).strand k = s.strand k := rfl
@[simp] theorem State.setActReg_ring' (s : State) (a v : Nat) (k : Nat) : (s.setActReg a v).ring k = s.ring k := rfl
@[simp] theorem State.setActReg_node' (s : State) (a v : Nat) (k : Nat) : (s.setActReg a v).node k = s.node k := rfl
@[simp] theorem State.setActReg_ax' (s : State) (a v : Nat) (k : Nat) : (s.setActReg a v).ax k = s.ax k := rfl
@[simp] theorem State.setActReg_chan' (s : State) (a v : Nat) (k : Nat) : (s.setActReg a v).chan k = s.chan k := rfl
@[simp] theorem State.setActReg_gang' (s : State) (a v : Nat) (k : Nat) : (s.setActReg a v).gang k = s.gang k := rfl
@[simp] theorem State.setActReg_knot' (s : State) (a v : Nat) (k : Nat) : (s.setActReg a v).knot k = s.knot k := rfl
@[simp] theorem State.setActReg_rep' (s : State) (a v : Nat) (k : Nat) : (s.setActReg a v).rep k = s.rep k := rfl
@[simp] theorem State.setByte_reg' (s : State) (a : Nat) (v : Byte) (k : Nat) : (s.setByte a v).reg k = s.reg k := rfl
@[simp] theorem State.setByte_f' (s : State) (a : Nat) (v : Byte) (y : Fld) : (s.setByte a v).f y = s.f y := rfl
@[simp] theorem State.setByte_on' (s : State) (a : Nat) (v : Byte) (y : Fld) : (s.setByte a v).on y = s.on y := rfl
@[simp] theorem State.setByte_actReg' (s : State) (a : Nat) (v : Byte) (k : Nat) : (s.setByte a v).actReg k = s.actReg k := rfl
@[simp] theorem State.setByte_fa' (s : State) (a : Nat) (v : Byte) (y : Fld) : (s.setByte a v).fa y = s.fa y := rfl
@[simp] theorem State.setByte_core' (s : State) (a : Nat) (v : Byte) (k : Nat) : (s.setByte a v).core k = s.core k := rfl
@[simp] theorem State.setByte_strand' (s : State) (a : Nat) (v : Byte) (k : Nat) : (s.setByte a v).strand k = s.strand k := rfl
@[simp] theorem State.setByte_ring' (s : State) (a : Nat) (v : Byte) (k : Nat) : (s.setByte a v).ring k = s.ring k := rfl
@[simp] theorem State.setByte_node' (s : State) (a : Nat) (v : Byte) (k : Nat) : (s.setByte a v).node k = s.node k := rfl
@[simp] theorem State.setByte_ax' (s : State) (a : Nat) (v : Byte) (k : Nat) : (s.setByte a v).ax k = s.ax k := rfl
@[simp] theorem State.setByte_chan' (s : State) (a : Nat) (v : Byte) (k : Nat) : (s.setByte a v).chan k = s.chan k := rfl
@[simp] theorem State.setByte_gang' (s : State) (a : Nat) (v : Byte) (k : Nat) : (s.setByte a v).gang k = s.gang k := rfl
@[simp] theorem State.setByte_knot' (s : State) (a : Nat) (v : Byte) (k : Nat) : (s.setByte a v).knot k = s.knot k := rfl
@[simp] theorem State.setByte_rep' (s : State) (a : Nat) (v : Byte) (k : Nat) : (s.setByte a v).rep k = s.rep k := rfl
@[simp] theorem State.set_actReg' (s : State) (x : Fld) (v : Nat) (k : Nat) : (s.set x v).actReg k = s.actReg k := rfl
@[simp] theorem State.set_fa' (s : State) (x : Fld) (v : Nat) (y : Fld) : (s.set x v).fa y = s.fa y := rfl
@[simp] theorem State.set_byte' (s : State) (x : Fld) (v : Nat) (k : Nat) : (s.set x v).byte k = s.byte k := rfl
@[simp] theorem State.set_core' (s : State) (x : Fld) (v : Nat) (k : Nat) : (s.set x v).core k = s.core k := rfl
@[simp] theorem State.set_strand' (s : State) (x : Fld) (v : Nat) (k : Nat) : (s.set x v).strand k = s.strand k := rfl
@[simp] theorem State.set_ring' (s : State) (x : Fld) (v : Nat) (k : Nat) : (s.set x v).ring k = s.ring k := rfl
@[simp] theorem State.set_node' (s : State) (x : Fld) (v : Nat) (k : Nat) : (s.set x v).node k = s.node k := rfl
@[simp] theorem State.set_ax' (s : State) (x : Fld) (v : Nat) (k : Nat) : (s.set x v).ax k = s.ax k := rfl
@[simp] theorem State.set_chan' (s : State) (x : Fld) (v : Nat) (k : Nat) : (s.set x v).chan k = s.chan k := rfl
@[simp] theorem State.set_gang' (s : State) (x : Fld) (v : Nat) (k : Nat) : (s.set x v).gang k = s.gang k := rfl
@[simp] theorem State.set_knot' (s : State) (x : Fld) (v : Nat) (k : Nat) : (s.set x v).knot k = s.knot k := rfl
@[simp] theorem State.set_rep' (s : State) (x : Fld) (v : Nat) (k : Nat) : (s.set x v).rep k = s.rep k := rfl
@[simp] theorem State.setA_reg' (s : State) (x : Fld) (v : Nat) (k : Nat) : (s.setA x v).reg k = s.reg k := rfl
@[simp] theorem State.setA_f' (s : State) (x : Fld) (v : Nat) (y : Fld) : (s.setA x v).f y = s.f y := rfl
@[simp] theorem State.setA_on' (s : State) (x : Fld) (v : Nat) (y : Fld) : (s.setA x v).on y = s.on y := rfl
@[simp] theorem State.setA_byte' (s : State) (x : Fld) (v : Nat) (k : Nat) : (s.setA x v).byte k = s.byte k := rfl
@[simp] theorem State.setA_core' (s : State) (x : Fld) (v : Nat) (k : Nat) : (s.setA x v).core k = s.core k := rfl
@[simp] theorem State.setA_strand' (s : State) (x : Fld) (v : Nat) (k : Nat) : (s.setA x v).strand k = s.strand k := rfl
@[simp] theorem State.setA_ring' (s : State) (x : Fld) (v : Nat) (k : Nat) : (s.setA x v).ring k = s.ring k := rfl
@[simp] theorem State.setA_node' (s : State) (x : Fld) (v : Nat) (k : Nat) : (s.setA x v).node k = s.node k := rfl
@[simp] theorem State.setA_ax' (s : State) (x : Fld) (v : Nat) (k : Nat) : (s.setA x v).ax k = s.ax k := rfl
@[simp] theorem State.setA_chan' (s : State) (x : Fld) (v : Nat) (k : Nat) : (s.setA x v).chan k = s.chan k := rfl
@[simp] theorem State.setA_gang' (s : State) (x : Fld) (v : Nat) (k : Nat) : (s.setA x v).gang k = s.gang k := rfl
@[simp] theorem State.setA_knot' (s : State) (x : Fld) (v : Nat) (k : Nat) : (s.setA x v).knot k = s.knot k := rfl
@[simp] theorem State.setA_rep' (s : State) (x : Fld) (v : Nat) (k : Nat) : (s.setA x v).rep k = s.rep k := rfl
@[simp] theorem State.burn_reg' (s : State) (k : Nat) : (s.burn ).reg k = s.reg k := rfl
@[simp] theorem State.burn_f' (s : State) (y : Fld) : (s.burn ).f y = s.f y := rfl
@[simp] theorem State.burn_on' (s : State) (y : Fld) : (s.burn ).on y = s.on y := rfl
@[simp] theorem State.burn_actReg' (s : State) (k : Nat) : (s.burn ).actReg k = s.actReg k := rfl
@[simp] theorem State.burn_fa' (s : State) (y : Fld) : (s.burn ).fa y = s.fa y := rfl
@[simp] theorem State.burn_byte' (s : State) (k : Nat) : (s.burn ).byte k = s.byte k := rfl
@[simp] theorem State.burn_core' (s : State) (k : Nat) : (s.burn ).core k = s.core k := rfl
@[simp] theorem State.burn_strand' (s : State) (k : Nat) : (s.burn ).strand k = s.strand k := rfl
@[simp] theorem State.burn_ring' (s : State) (k : Nat) : (s.burn ).ring k = s.ring k := rfl
@[simp] theorem State.burn_node' (s : State) (k : Nat) : (s.burn ).node k = s.node k := rfl
@[simp] theorem State.burn_ax' (s : State) (k : Nat) : (s.burn ).ax k = s.ax k := rfl
@[simp] theorem State.burn_chan' (s : State) (k : Nat) : (s.burn ).chan k = s.chan k := rfl
@[simp] theorem State.burn_gang' (s : State) (k : Nat) : (s.burn ).gang k = s.gang k := rfl
@[simp] theorem State.burn_knot' (s : State) (k : Nat) : (s.burn ).knot k = s.knot k := rfl
@[simp] theorem State.burn_rep' (s : State) (k : Nat) : (s.burn ).rep k = s.rep k := rfl
@[simp] theorem State.setRep_reg' (s : State) (i : Nat) (x : Replica) (k : Nat) : (s.setRep i x).reg k = s.reg k := rfl
@[simp] theorem State.setRep_f' (s : State) (i : Nat) (x : Replica) (y : Fld) : (s.setRep i x).f y = s.f y := rfl
@[simp] theorem State.setRep_on' (s : State) (i : Nat) (x : Replica) (y : Fld) : (s.setRep i x).on y = s.on y := rfl
@[simp] theorem State.setRep_actReg' (s : State) (i : Nat) (x : Replica) (k : Nat) : (s.setRep i x).actReg k = s.actReg k := rfl
@[simp] theorem State.setRep_fa' (s : State) (i : Nat) (x : Replica) (y : Fld) : (s.setRep i x).fa y = s.fa y := rfl
@[simp] theorem State.setRep_byte' (s : State) (i : Nat) (x : Replica) (k : Nat) : (s.setRep i x).byte k = s.byte k := rfl
@[simp] theorem State.setRep_core' (s : State) (i : Nat) (x : Replica) (k : Nat) : (s.setRep i x).core k = s.core k := rfl
@[simp] theorem State.setRep_strand' (s : State) (i : Nat) (x : Replica) (k : Nat) : (s.setRep i x).strand k = s.strand k := rfl
@[simp] theorem State.setRep_ring' (s : State) (i : Nat) (x : Replica) (k : Nat) : (s.setRep i x).ring k = s.ring k := rfl
@[simp] theorem State.setRep_node' (s : State) (i : Nat) (x : Replica) (k : Nat) : (s.setRep i x).node k = s.node k := rfl
@[simp] theorem State.setRep_ax' (s : State) (i : Nat) (x : Replica) (k : Nat) : (s.setRep i x).ax k = s.ax k := rfl
@[simp] theorem State.setRep_chan' (s : State) (i : Nat) (x : Replica) (k : Nat) : (s.setRep i x).chan k = s.chan k := rfl
@[simp] theorem State.setRep_gang' (s : State) (i : Nat) (x : Replica) (k : Nat) : (s.setRep i x).gang k = s.gang k := rfl
@[simp] theorem State.setRep_knot' (s : State) (i : Nat) (x : Replica) (k : Nat) : (s.setRep i x).knot k = s.knot k := rfl
@[simp] theorem State.setStrand_reg' (s : State) (t : Nat) (x : Strand) (k : Nat) : (s.setStrand t x).reg k = s.reg k := rfl
@[simp] theorem State.setStrand_f' (s : State) (t : Nat) (x : Strand) (y : Fld) : (s.setStrand t x).f y = s.f y := rfl
@[simp] theorem State.setStrand_on' (s : State) (t : Nat) (x : Strand) (y : Fld) : (s.setStrand t x).on y = s.on y := rfl
@[simp] theorem State.setStrand_actReg' (s : State) (t : Nat) (x : Strand) (k : Nat) : (s.setStrand t x).actReg k = s.actReg k := rfl
@[simp] theorem State.setStrand_fa' (s : State) (t : Nat) (x : Strand) (y : Fld) : (s.setStrand t x).fa y = s.fa y := rfl
@[simp] theorem State.setStrand_byte' (s : State) (t : Nat) (x : Strand) (k : Nat) : (s.setStrand t x).byte k = s.byte k := rfl
@[simp] theorem State.setStrand_core' (s : State) (t : Nat) (x : Strand) (k : Nat) : (s.setStrand t x).core k = s.core k := rfl
@[simp] theorem State.setStrand_ring' (s : State) (t : Nat) (x : Strand) (k : Nat) : (s.setStrand t x).ring k = s.ring k := rfl
@[simp] theorem State.setStrand_node' (s : State) (t : Nat) (x : Strand) (k : Nat) : (s.setStrand t x).node k = s.node k := rfl
@[simp] theorem State.setStrand_ax' (s : State) (t : Nat) (x : Strand) (k : Nat) : (s.setStrand t x).ax k = s.ax k := rfl
@[simp] theorem State.setStrand_chan' (s : State) (t : Nat) (x : Strand) (k : Nat) : (s.setStrand t x).chan k = s.chan k := rfl
@[simp] theorem State.setStrand_gang' (s : State) (t : Nat) (x : Strand) (k : Nat) : (s.setStrand t x).gang k = s.gang k := rfl
@[simp] theorem State.setStrand_knot' (s : State) (t : Nat) (x : Strand) (k : Nat) : (s.setStrand t x).knot k = s.knot k := rfl
@[simp] theorem State.setStrand_rep' (s : State) (t : Nat) (x : Strand) (k : Nat) : (s.setStrand t x).rep k = s.rep k := rfl
@[simp] theorem State.setCore_reg' (s : State) (c : Nat) (x : Core) (k : Nat) : (s.setCore c x).reg k = s.reg k := rfl
@[simp] theorem State.setCore_f' (s : State) (c : Nat) (x : Core) (y : Fld) : (s.setCore c x).f y = s.f y := rfl
@[simp] theorem State.setCore_on' (s : State) (c : Nat) (x : Core) (y : Fld) : (s.setCore c x).on y = s.on y := rfl
@[simp] theorem State.setCore_actReg' (s : State) (c : Nat) (x : Core) (k : Nat) : (s.setCore c x).actReg k = s.actReg k := rfl
@[simp] theorem State.setCore_fa' (s : State) (c : Nat) (x : Core) (y : Fld) : (s.setCore c x).fa y = s.fa y := rfl
@[simp] theorem State.setCore_byte' (s : State) (c : Nat) (x : Core) (k : Nat) : (s.setCore c x).byte k = s.byte k := rfl
@[simp] theorem State.setCore_strand' (s : State) (c : Nat) (x : Core) (k : Nat) : (s.setCore c x).strand k = s.strand k := rfl
@[simp] theorem State.setCore_ring' (s : State) (c : Nat) (x : Core) (k : Nat) : (s.setCore c x).ring k = s.ring k := rfl
@[simp] theorem State.setCore_node' (s : State) (c : Nat) (x : Core) (k : Nat) : (s.setCore c x).node k = s.node k := rfl
@[simp] theorem State.setCore_ax' (s : State) (c : Nat) (x : Core) (k : Nat) : (s.setCore c x).ax k = s.ax k := rfl
@[simp] theorem State.setCore_chan' (s : State) (c : Nat) (x : Core) (k : Nat) : (s.setCore c x).chan k = s.chan k := rfl
@[simp] theorem State.setCore_gang' (s : State) (c : Nat) (x : Core) (k : Nat) : (s.setCore c x).gang k = s.gang k := rfl
@[simp] theorem State.setCore_knot' (s : State) (c : Nat) (x : Core) (k : Nat) : (s.setCore c x).knot k = s.knot k := rfl
@[simp] theorem State.setCore_rep' (s : State) (c : Nat) (x : Core) (k : Nat) : (s.setCore c x).rep k = s.rep k := rfl
@[simp] theorem State.answer_reg' (s : State) (x : Resp) (k : Nat) : (s.answer x).reg k = s.reg k := rfl
@[simp] theorem State.answer_f' (s : State) (x : Resp) (y : Fld) : (s.answer x).f y = s.f y := rfl
@[simp] theorem State.answer_on' (s : State) (x : Resp) (y : Fld) : (s.answer x).on y = s.on y := rfl
@[simp] theorem State.answer_actReg' (s : State) (x : Resp) (k : Nat) : (s.answer x).actReg k = s.actReg k := rfl
@[simp] theorem State.answer_fa' (s : State) (x : Resp) (y : Fld) : (s.answer x).fa y = s.fa y := rfl
@[simp] theorem State.answer_byte' (s : State) (x : Resp) (k : Nat) : (s.answer x).byte k = s.byte k := rfl
@[simp] theorem State.answer_core' (s : State) (x : Resp) (k : Nat) : (s.answer x).core k = s.core k := rfl
@[simp] theorem State.answer_strand' (s : State) (x : Resp) (k : Nat) : (s.answer x).strand k = s.strand k := rfl
@[simp] theorem State.answer_ring' (s : State) (x : Resp) (k : Nat) : (s.answer x).ring k = s.ring k := rfl
@[simp] theorem State.answer_node' (s : State) (x : Resp) (k : Nat) : (s.answer x).node k = s.node k := rfl
@[simp] theorem State.answer_ax' (s : State) (x : Resp) (k : Nat) : (s.answer x).ax k = s.ax k := rfl
@[simp] theorem State.answer_chan' (s : State) (x : Resp) (k : Nat) : (s.answer x).chan k = s.chan k := rfl
@[simp] theorem State.answer_gang' (s : State) (x : Resp) (k : Nat) : (s.answer x).gang k = s.gang k := rfl
@[simp] theorem State.answer_knot' (s : State) (x : Resp) (k : Nat) : (s.answer x).knot k = s.knot k := rfl
@[simp] theorem State.answer_rep' (s : State) (x : Resp) (k : Nat) : (s.answer x).rep k = s.rep k := rfl
@[simp] theorem State.setNode_reg' (s : State) (j : Nat) (x : NodeSt) (k : Nat) : (s.setNode j x).reg k = s.reg k := rfl
@[simp] theorem State.setNode_f' (s : State) (j : Nat) (x : NodeSt) (y : Fld) : (s.setNode j x).f y = s.f y := rfl
@[simp] theorem State.setNode_on' (s : State) (j : Nat) (x : NodeSt) (y : Fld) : (s.setNode j x).on y = s.on y := rfl
@[simp] theorem State.setNode_actReg' (s : State) (j : Nat) (x : NodeSt) (k : Nat) : (s.setNode j x).actReg k = s.actReg k := rfl
@[simp] theorem State.setNode_fa' (s : State) (j : Nat) (x : NodeSt) (y : Fld) : (s.setNode j x).fa y = s.fa y := rfl
@[simp] theorem State.setNode_byte' (s : State) (j : Nat) (x : NodeSt) (k : Nat) : (s.setNode j x).byte k = s.byte k := rfl
@[simp] theorem State.setNode_core' (s : State) (j : Nat) (x : NodeSt) (k : Nat) : (s.setNode j x).core k = s.core k := rfl
@[simp] theorem State.setNode_strand' (s : State) (j : Nat) (x : NodeSt) (k : Nat) : (s.setNode j x).strand k = s.strand k := rfl
@[simp] theorem State.setNode_ring' (s : State) (j : Nat) (x : NodeSt) (k : Nat) : (s.setNode j x).ring k = s.ring k := rfl
@[simp] theorem State.setNode_ax' (s : State) (j : Nat) (x : NodeSt) (k : Nat) : (s.setNode j x).ax k = s.ax k := rfl
@[simp] theorem State.setNode_chan' (s : State) (j : Nat) (x : NodeSt) (k : Nat) : (s.setNode j x).chan k = s.chan k := rfl
@[simp] theorem State.setNode_gang' (s : State) (j : Nat) (x : NodeSt) (k : Nat) : (s.setNode j x).gang k = s.gang k := rfl
@[simp] theorem State.setNode_knot' (s : State) (j : Nat) (x : NodeSt) (k : Nat) : (s.setNode j x).knot k = s.knot k := rfl
@[simp] theorem State.setNode_rep' (s : State) (j : Nat) (x : NodeSt) (k : Nat) : (s.setNode j x).rep k = s.rep k := rfl
@[simp] theorem State.setRing_reg' (s : State) (j : Nat) (x : Ring) (k : Nat) : (s.setRing j x).reg k = s.reg k := rfl
@[simp] theorem State.setRing_f' (s : State) (j : Nat) (x : Ring) (y : Fld) : (s.setRing j x).f y = s.f y := rfl
@[simp] theorem State.setRing_on' (s : State) (j : Nat) (x : Ring) (y : Fld) : (s.setRing j x).on y = s.on y := rfl
@[simp] theorem State.setRing_actReg' (s : State) (j : Nat) (x : Ring) (k : Nat) : (s.setRing j x).actReg k = s.actReg k := rfl
@[simp] theorem State.setRing_fa' (s : State) (j : Nat) (x : Ring) (y : Fld) : (s.setRing j x).fa y = s.fa y := rfl
@[simp] theorem State.setRing_byte' (s : State) (j : Nat) (x : Ring) (k : Nat) : (s.setRing j x).byte k = s.byte k := rfl
@[simp] theorem State.setRing_core' (s : State) (j : Nat) (x : Ring) (k : Nat) : (s.setRing j x).core k = s.core k := rfl
@[simp] theorem State.setRing_strand' (s : State) (j : Nat) (x : Ring) (k : Nat) : (s.setRing j x).strand k = s.strand k := rfl
@[simp] theorem State.setRing_node' (s : State) (j : Nat) (x : Ring) (k : Nat) : (s.setRing j x).node k = s.node k := rfl
@[simp] theorem State.setRing_ax' (s : State) (j : Nat) (x : Ring) (k : Nat) : (s.setRing j x).ax k = s.ax k := rfl
@[simp] theorem State.setRing_chan' (s : State) (j : Nat) (x : Ring) (k : Nat) : (s.setRing j x).chan k = s.chan k := rfl
@[simp] theorem State.setRing_gang' (s : State) (j : Nat) (x : Ring) (k : Nat) : (s.setRing j x).gang k = s.gang k := rfl
@[simp] theorem State.setRing_knot' (s : State) (j : Nat) (x : Ring) (k : Nat) : (s.setRing j x).knot k = s.knot k := rfl
@[simp] theorem State.setRing_rep' (s : State) (j : Nat) (x : Ring) (k : Nat) : (s.setRing j x).rep k = s.rep k := rfl
@[simp] theorem State.setAx_reg' (s : State) (n : Nat) (x : Ax) (k : Nat) : (s.setAx n x).reg k = s.reg k := rfl
@[simp] theorem State.setAx_f' (s : State) (n : Nat) (x : Ax) (y : Fld) : (s.setAx n x).f y = s.f y := rfl
@[simp] theorem State.setAx_on' (s : State) (n : Nat) (x : Ax) (y : Fld) : (s.setAx n x).on y = s.on y := rfl
@[simp] theorem State.setAx_actReg' (s : State) (n : Nat) (x : Ax) (k : Nat) : (s.setAx n x).actReg k = s.actReg k := rfl
@[simp] theorem State.setAx_fa' (s : State) (n : Nat) (x : Ax) (y : Fld) : (s.setAx n x).fa y = s.fa y := rfl
@[simp] theorem State.setAx_byte' (s : State) (n : Nat) (x : Ax) (k : Nat) : (s.setAx n x).byte k = s.byte k := rfl
@[simp] theorem State.setAx_core' (s : State) (n : Nat) (x : Ax) (k : Nat) : (s.setAx n x).core k = s.core k := rfl
@[simp] theorem State.setAx_strand' (s : State) (n : Nat) (x : Ax) (k : Nat) : (s.setAx n x).strand k = s.strand k := rfl
@[simp] theorem State.setAx_ring' (s : State) (n : Nat) (x : Ax) (k : Nat) : (s.setAx n x).ring k = s.ring k := rfl
@[simp] theorem State.setAx_node' (s : State) (n : Nat) (x : Ax) (k : Nat) : (s.setAx n x).node k = s.node k := rfl
@[simp] theorem State.setAx_chan' (s : State) (n : Nat) (x : Ax) (k : Nat) : (s.setAx n x).chan k = s.chan k := rfl
@[simp] theorem State.setAx_gang' (s : State) (n : Nat) (x : Ax) (k : Nat) : (s.setAx n x).gang k = s.gang k := rfl
@[simp] theorem State.setAx_knot' (s : State) (n : Nat) (x : Ax) (k : Nat) : (s.setAx n x).knot k = s.knot k := rfl
@[simp] theorem State.setAx_rep' (s : State) (n : Nat) (x : Ax) (k : Nat) : (s.setAx n x).rep k = s.rep k := rfl
@[simp] theorem State.setChan_reg' (s : State) (c : Nat) (x : Chan) (k : Nat) : (s.setChan c x).reg k = s.reg k := rfl
@[simp] theorem State.setChan_f' (s : State) (c : Nat) (x : Chan) (y : Fld) : (s.setChan c x).f y = s.f y := rfl
@[simp] theorem State.setChan_on' (s : State) (c : Nat) (x : Chan) (y : Fld) : (s.setChan c x).on y = s.on y := rfl
@[simp] theorem State.setChan_actReg' (s : State) (c : Nat) (x : Chan) (k : Nat) : (s.setChan c x).actReg k = s.actReg k := rfl
@[simp] theorem State.setChan_fa' (s : State) (c : Nat) (x : Chan) (y : Fld) : (s.setChan c x).fa y = s.fa y := rfl
@[simp] theorem State.setChan_byte' (s : State) (c : Nat) (x : Chan) (k : Nat) : (s.setChan c x).byte k = s.byte k := rfl
@[simp] theorem State.setChan_core' (s : State) (c : Nat) (x : Chan) (k : Nat) : (s.setChan c x).core k = s.core k := rfl
@[simp] theorem State.setChan_strand' (s : State) (c : Nat) (x : Chan) (k : Nat) : (s.setChan c x).strand k = s.strand k := rfl
@[simp] theorem State.setChan_ring' (s : State) (c : Nat) (x : Chan) (k : Nat) : (s.setChan c x).ring k = s.ring k := rfl
@[simp] theorem State.setChan_node' (s : State) (c : Nat) (x : Chan) (k : Nat) : (s.setChan c x).node k = s.node k := rfl
@[simp] theorem State.setChan_ax' (s : State) (c : Nat) (x : Chan) (k : Nat) : (s.setChan c x).ax k = s.ax k := rfl
@[simp] theorem State.setChan_gang' (s : State) (c : Nat) (x : Chan) (k : Nat) : (s.setChan c x).gang k = s.gang k := rfl
@[simp] theorem State.setChan_knot' (s : State) (c : Nat) (x : Chan) (k : Nat) : (s.setChan c x).knot k = s.knot k := rfl
@[simp] theorem State.setChan_rep' (s : State) (c : Nat) (x : Chan) (k : Nat) : (s.setChan c x).rep k = s.rep k := rfl
@[simp] theorem State.setGang_reg' (s : State) (q : Nat) (x : Gang) (k : Nat) : (s.setGang q x).reg k = s.reg k := rfl
@[simp] theorem State.setGang_f' (s : State) (q : Nat) (x : Gang) (y : Fld) : (s.setGang q x).f y = s.f y := rfl
@[simp] theorem State.setGang_on' (s : State) (q : Nat) (x : Gang) (y : Fld) : (s.setGang q x).on y = s.on y := rfl
@[simp] theorem State.setGang_actReg' (s : State) (q : Nat) (x : Gang) (k : Nat) : (s.setGang q x).actReg k = s.actReg k := rfl
@[simp] theorem State.setGang_fa' (s : State) (q : Nat) (x : Gang) (y : Fld) : (s.setGang q x).fa y = s.fa y := rfl
@[simp] theorem State.setGang_byte' (s : State) (q : Nat) (x : Gang) (k : Nat) : (s.setGang q x).byte k = s.byte k := rfl
@[simp] theorem State.setGang_core' (s : State) (q : Nat) (x : Gang) (k : Nat) : (s.setGang q x).core k = s.core k := rfl
@[simp] theorem State.setGang_strand' (s : State) (q : Nat) (x : Gang) (k : Nat) : (s.setGang q x).strand k = s.strand k := rfl
@[simp] theorem State.setGang_ring' (s : State) (q : Nat) (x : Gang) (k : Nat) : (s.setGang q x).ring k = s.ring k := rfl
@[simp] theorem State.setGang_node' (s : State) (q : Nat) (x : Gang) (k : Nat) : (s.setGang q x).node k = s.node k := rfl
@[simp] theorem State.setGang_ax' (s : State) (q : Nat) (x : Gang) (k : Nat) : (s.setGang q x).ax k = s.ax k := rfl
@[simp] theorem State.setGang_chan' (s : State) (q : Nat) (x : Gang) (k : Nat) : (s.setGang q x).chan k = s.chan k := rfl
@[simp] theorem State.setGang_knot' (s : State) (q : Nat) (x : Gang) (k : Nat) : (s.setGang q x).knot k = s.knot k := rfl
@[simp] theorem State.setGang_rep' (s : State) (q : Nat) (x : Gang) (k : Nat) : (s.setGang q x).rep k = s.rep k := rfl
@[simp] theorem State.setKnot_reg' (s : State) (j : Nat) (x : Knot) (k : Nat) : (s.setKnot j x).reg k = s.reg k := rfl
@[simp] theorem State.setKnot_f' (s : State) (j : Nat) (x : Knot) (y : Fld) : (s.setKnot j x).f y = s.f y := rfl
@[simp] theorem State.setKnot_on' (s : State) (j : Nat) (x : Knot) (y : Fld) : (s.setKnot j x).on y = s.on y := rfl
@[simp] theorem State.setKnot_actReg' (s : State) (j : Nat) (x : Knot) (k : Nat) : (s.setKnot j x).actReg k = s.actReg k := rfl
@[simp] theorem State.setKnot_fa' (s : State) (j : Nat) (x : Knot) (y : Fld) : (s.setKnot j x).fa y = s.fa y := rfl
@[simp] theorem State.setKnot_byte' (s : State) (j : Nat) (x : Knot) (k : Nat) : (s.setKnot j x).byte k = s.byte k := rfl
@[simp] theorem State.setKnot_core' (s : State) (j : Nat) (x : Knot) (k : Nat) : (s.setKnot j x).core k = s.core k := rfl
@[simp] theorem State.setKnot_strand' (s : State) (j : Nat) (x : Knot) (k : Nat) : (s.setKnot j x).strand k = s.strand k := rfl
@[simp] theorem State.setKnot_ring' (s : State) (j : Nat) (x : Knot) (k : Nat) : (s.setKnot j x).ring k = s.ring k := rfl
@[simp] theorem State.setKnot_node' (s : State) (j : Nat) (x : Knot) (k : Nat) : (s.setKnot j x).node k = s.node k := rfl
@[simp] theorem State.setKnot_ax' (s : State) (j : Nat) (x : Knot) (k : Nat) : (s.setKnot j x).ax k = s.ax k := rfl
@[simp] theorem State.setKnot_chan' (s : State) (j : Nat) (x : Knot) (k : Nat) : (s.setKnot j x).chan k = s.chan k := rfl
@[simp] theorem State.setKnot_gang' (s : State) (j : Nat) (x : Knot) (k : Nat) : (s.setKnot j x).gang k = s.gang k := rfl
@[simp] theorem State.setKnot_rep' (s : State) (j : Nat) (x : Knot) (k : Nat) : (s.setKnot j x).rep k = s.rep k := rfl

/-! ## Reads after writes -/

theorem State.canonical_parts {s : State} (h : s.canonical = true) :
    Memory.wf s.mem = true ∧ SMap.wf regDflt s.regs = true ∧ SMap.wf regDflt s.act = true ∧ s.tim.wf = true ∧
      s.dsp.wf = true ∧ s.net.wf = true ∧ SMap.wf (fun _ => {}) s.axes = true ∧ s.pwr.wf = true ∧ s.ke.wf = true :=
  s.canonical_iff.mp h

theorem State.reg_lt (s : State) (a : Nat) : s.reg a < 2 ^ 32 := (SMap.get regDflt s.regs a).isLt
theorem State.actReg_lt (s : State) (a : Nat) : s.actReg a < 2 ^ 32 := (SMap.get regDflt s.act a).isLt

theorem State.reg_setReg_self {s : State} (h : s.canonical = true) (a v : Nat) : (s.setReg a v).reg a = v % 2 ^ 32 := by
  unfold State.reg State.setReg
  rw [SMap.get_put_self _ _ _ _ (State.canonical_parts h).2.1]
  rfl

theorem State.reg_setReg_ne (s : State) (a b v : Nat) (h : b ≠ a) : (s.setReg a v).reg b = s.reg b := by
  unfold State.reg State.setReg
  rw [SMap.get_put_ne _ _ _ _ _ h]

theorem State.actReg_setActReg_self {s : State} (h : s.canonical = true) (a v : Nat) :
    (s.setActReg a v).actReg a = v % 2 ^ 32 := by
  unfold State.actReg State.setActReg
  rw [SMap.get_put_self _ _ _ _ (State.canonical_parts h).2.2.1]
  rfl

theorem State.actReg_setActReg_ne (s : State) (a b v : Nat) (h : b ≠ a) : (s.setActReg a v).actReg b = s.actReg b := by
  unfold State.actReg State.setActReg
  rw [SMap.get_put_ne _ _ _ _ _ h]

/-- A field reads what it was set to, cut to its width. -/
theorem State.f_set_self {s : State} (h : s.canonical = true) (x : Fld) (v : Nat) (hx : x.lo ≤ x.hi + 1) (h32 : x.hi < 32) :
    (s.set x v).f x = v % 2 ^ (x.hi + 1 - x.lo) := by
  unfold State.f State.set
  rw [State.reg_setReg_self h, Nat.mod_eq_of_lt (putBits_lt _ _ _ _ _ hx (s.reg_lt _) h32), bits_putBits_self _ _ _ _ hx]

/-- A field of another register, or apart from the one set, keeps its value. -/
theorem State.f_set_ne {s : State} (x y : Fld) (v : Nat) (h : y.addr ≠ x.addr) : (s.set x v).f y = s.f y := by
  unfold State.f State.set
  rw [State.reg_setReg_ne _ _ _ _ h]

theorem State.f_set_apart {s : State} (h : s.canonical = true) (x y : Fld) (v : Nat) (hx : x.lo ≤ x.hi + 1) (h32 : x.hi < 32)
    (d : x.hi < y.lo ∨ y.hi < x.lo) : (s.set x v).f y = s.f y := by
  by_cases e : y.addr = x.addr
  · unfold State.f State.set
    rw [e, State.reg_setReg_self h, Nat.mod_eq_of_lt (putBits_lt _ _ _ _ _ hx (s.reg_lt _) h32), bits_putBits_ne _ _ _ _ _ _ hx d]
  · exact State.f_set_ne x y v e

theorem State.reg_set_ne {s : State} (x : Fld) (v a : Nat) (h : a ≠ x.addr) : (s.set x v).reg a = s.reg a :=
  State.reg_setReg_ne _ _ _ _ h

theorem State.fa_setA_self {s : State} (h : s.canonical = true) (x : Fld) (v : Nat) (hx : x.lo ≤ x.hi + 1) (h32 : x.hi < 32) :
    (s.setA x v).fa x = v % 2 ^ (x.hi + 1 - x.lo) := by
  unfold State.fa State.setA
  rw [State.actReg_setActReg_self h, Nat.mod_eq_of_lt (putBits_lt _ _ _ _ _ hx (s.actReg_lt _) h32), bits_putBits_self _ _ _ _ hx]

theorem State.fa_setA_ne {s : State} (x y : Fld) (v : Nat) (h : y.addr ≠ x.addr) : (s.setA x v).fa y = s.fa y := by
  unfold State.fa State.setA
  rw [State.actReg_setActReg_ne _ _ _ _ h]

theorem State.f_lt (s : State) (x : Fld) : s.f x < 2 ^ (x.hi + 1 - x.lo) := bits_lt _ _ _

/-! ## Bytes of memory -/

theorem State.byte_setByte_self {s : State} (h : s.canonical = true) (a : Nat) (v : Byte) : (s.setByte a v).byte a = v :=
  SMap.get_put_self _ _ _ _ (State.canonical_parts h).1

theorem State.byte_setByte_ne (s : State) (a b : Nat) (v : Byte) (h : b ≠ a) : (s.setByte a v).byte b = s.byte b :=
  SMap.get_put_ne _ _ _ _ _ h

/-- Every byte outside those stored reads as before. -/
theorem State.byte_store_out (s : State) (a b : Nat) (bs : List Byte) (h : b < a ∨ a + bs.length ≤ b) :
    (s.store a bs).byte b = s.byte b := by
  induction bs generalizing s a with
  | nil => rfl
  | cons x xs ih =>
    simp only [List.length_cons] at h
    rw [State.store, ih (s.setByte a x) (a + 1) (by omega), State.byte_setByte_ne _ _ _ _ (by omega)]

/-! ## Units -/

theorem State.core_setCore_self {s : State} (h : s.canonical = true) (c : Nat) (x : Core) : (s.setCore c x).core c = x :=
  SMap.get_put_self _ _ _ _ (by have := (State.canonical_parts h).2.2.2.2.1; simp only [Disp.wf, Bool.and_eq_true] at this; exact this.2)
theorem State.core_setCore_ne (s : State) (c d : Nat) (x : Core) (h : d ≠ c) : (s.setCore c x).core d = s.core d :=
  SMap.get_put_ne _ _ _ _ _ h
theorem State.strand_setStrand_self {s : State} (h : s.canonical = true) (c : Nat) (x : Strand) :
    (s.setStrand c x).strand c = x :=
  SMap.get_put_self _ _ _ _ (by have := (State.canonical_parts h).2.2.2.2.1; simp only [Disp.wf, Bool.and_eq_true] at this; exact this.1)
theorem State.strand_setStrand_ne (s : State) (c d : Nat) (x : Strand) (h : d ≠ c) :
    (s.setStrand c x).strand d = s.strand d := SMap.get_put_ne _ _ _ _ _ h
theorem State.node_setNode_self {s : State} (h : s.canonical = true) (k : Nat) (x : NodeSt) : (s.setNode k x).node k = x :=
  SMap.get_put_self _ _ _ _ (by have := (State.canonical_parts h).2.2.2.2.2.1; simp only [Net.wf, Bool.and_eq_true] at this; exact this.1)
theorem State.node_setNode_ne (s : State) (k d : Nat) (x : NodeSt) (h : d ≠ k) : (s.setNode k x).node d = s.node d :=
  SMap.get_put_ne _ _ _ _ _ h
theorem State.ring_setRing_self {s : State} (h : s.canonical = true) (k : Nat) (x : Ring) : (s.setRing k x).ring k = x :=
  SMap.get_put_self _ _ _ _ (by have := (State.canonical_parts h).2.2.2.2.2.1; simp only [Net.wf, Bool.and_eq_true] at this; exact this.2)
theorem State.ring_setRing_ne (s : State) (k d : Nat) (x : Ring) (h : d ≠ k) : (s.setRing k x).ring d = s.ring d :=
  SMap.get_put_ne _ _ _ _ _ h
theorem State.ax_setAx_self {s : State} (h : s.canonical = true) (n : Nat) (x : Ax) : (s.setAx n x).ax n = x :=
  SMap.get_put_self _ _ _ _ (State.canonical_parts h).2.2.2.2.2.2.1
theorem State.ax_setAx_ne (s : State) (n d : Nat) (x : Ax) (h : d ≠ n) : (s.setAx n x).ax d = s.ax d :=
  SMap.get_put_ne _ _ _ _ _ h
theorem State.chan_setChan_self {s : State} (h : s.canonical = true) (c : Nat) (x : Chan) : (s.setChan c x).chan c = x :=
  SMap.get_put_self _ _ _ _ (by have := (State.canonical_parts h).2.2.2.2.2.2.2.1; simp only [Power.wf, Bool.and_eq_true] at this; exact this.1)
theorem State.chan_setChan_ne (s : State) (c d : Nat) (x : Chan) (h : d ≠ c) : (s.setChan c x).chan d = s.chan d :=
  SMap.get_put_ne _ _ _ _ _ h
theorem State.gang_setGang_self {s : State} (h : s.canonical = true) (q : Nat) (x : Gang) : (s.setGang q x).gang q = x :=
  SMap.get_put_self _ _ _ _ (by have := (State.canonical_parts h).2.2.2.2.2.2.2.1; simp only [Power.wf, Bool.and_eq_true] at this; exact this.2)
theorem State.gang_setGang_ne (s : State) (q d : Nat) (x : Gang) (h : d ≠ q) : (s.setGang q x).gang d = s.gang d :=
  SMap.get_put_ne _ _ _ _ _ h
theorem State.knot_setKnot_self {s : State} (h : s.canonical = true) (k : Nat) (x : Knot) : (s.setKnot k x).knot k = x :=
  SMap.get_put_self _ _ _ _ (by have := (State.canonical_parts h).2.2.2.2.2.2.2.2; exact this)
theorem State.knot_setKnot_ne (s : State) (k d : Nat) (x : Knot) (h : d ≠ k) : (s.setKnot k x).knot d = s.knot d :=
  SMap.get_put_ne _ _ _ _ _ h
theorem State.rep_setRep_self {s : State} (h : s.canonical = true) (i : Nat) (x : Replica) : (s.setRep i x).rep i = x :=
  SMap.get_put_self _ _ _ _ (by have := (State.canonical_parts h).2.2.2.1; exact this)
theorem State.rep_setRep_ne (s : State) (i d : Nat) (x : Replica) (h : d ≠ i) : (s.setRep i x).rep d = s.rep d :=
  SMap.get_put_ne _ _ _ _ _ h

theorem State.setCore_setCore {s : State} (h : s.canonical = true) (c : Nat) (x y : Core) :
    (s.setCore c x).setCore c y = s.setCore c y := by
  unfold State.setCore
  rw [SMap.put_put _ _ _ _ _ (by have := (State.canonical_parts h).2.2.2.2.1; simp only [Disp.wf, Bool.and_eq_true] at this; exact this.2)]

theorem State.setCore_core {s : State} (h : s.canonical = true) (c : Nat) : s.setCore c (s.core c) = s := by
  unfold State.setCore State.core
  rw [SMap.put_get _ _ _ (by have := (State.canonical_parts h).2.2.2.2.1; simp only [Disp.wf, Bool.and_eq_true] at this; exact this.2)]

/-! ## Canonical form through the updates -/

theorem State.canonical_set {s : State} (h : s.canonical = true) (x : Fld) (v : Nat) : (s.set x v).canonical = true :=
  (State.set_keeps s x v (Keeps.refl s)).canon h
theorem State.canonical_setReg {s : State} (h : s.canonical = true) (a v : Nat) : (s.setReg a v).canonical = true :=
  (State.setReg_keeps s a v (Keeps.refl s)).canon h
theorem State.canonical_setA {s : State} (h : s.canonical = true) (x : Fld) (v : Nat) : (s.setA x v).canonical = true :=
  (State.setA_keeps s x v (Keeps.refl s)).canon h
theorem State.canonical_setCore {s : State} (h : s.canonical = true) (c : Nat) (x : Core) : (s.setCore c x).canonical = true :=
  (State.setCore_keeps s c x (Keeps.refl s)).canon h
theorem State.canonical_answer {s : State} (h : s.canonical = true) (x : Resp) : (s.answer x).canonical = true := h

end Sys2Proof.Machine
end

