-- ==== Sys2Proof/Laws/Alike.lean ====
section
/-! SUPPORT. What a report (R420 to R424) and a trace event (R318) leave as it is: everything but the logline's queue and
counters, the trace's position and its buffer in memory. -/

namespace Sys2Proof.Machine

theorem Alike.refl (v : State) : Alike v v := ⟨rfl, fun _ _ => rfl, fun _ => rfl⟩

theorem Alike.f {v t : State} (h : Alike v t) (x : Fld) (hx : observer x.addr = false) : t.f x = v.f x := by
  unfold State.f; rw [h.regs _ hx]

theorem Alike.on {v t : State} (h : Alike v t) (x : Fld) (hx : observer x.addr = false) : t.on x = v.on x := by
  unfold State.on; rw [h.f x hx]

theorem Alike.trans {a b c : State} (h : Alike a b) (k : Alike b c) : Alike a c := by
  refine ⟨?_, fun x hx => (k.regs x hx).trans (h.regs x hx), fun e => ?_⟩
  · have e := congrArg (fun s : State => { s with log := a.log, mem := a.mem, regs := a.regs }) k.rest
    exact e.trans h.rest
  · exact (k.mem (by rw [h.on _ (by decide)]; exact e)).trans (h.mem e)

/-- Parts that no report and no trace event touches. -/
theorem Alike.part {α : Type} {v t : State} (h : Alike v t) (p : State → α)
    (hp : ∀ s l m r, p { s with log := l, mem := m, regs := r } = p s) : p t = p v := by
  have e := congrArg p h.rest
  rw [hp t v.log v.mem v.regs] at e
  exact e

theorem Alike.dsp {v t : State} (h : Alike v t) : t.dsp = v.dsp := h.part (·.dsp) (fun _ _ _ _ => rfl)
theorem Alike.tim {v t : State} (h : Alike v t) : t.tim = v.tim := h.part (·.tim) (fun _ _ _ _ => rfl)
theorem Alike.net {v t : State} (h : Alike v t) : t.net = v.net := h.part (·.net) (fun _ _ _ _ => rfl)
theorem Alike.axes {v t : State} (h : Alike v t) : t.axes = v.axes := h.part (·.axes) (fun _ _ _ _ => rfl)
theorem Alike.pwr {v t : State} (h : Alike v t) : t.pwr = v.pwr := h.part (·.pwr) (fun _ _ _ _ => rfl)
theorem Alike.ke {v t : State} (h : Alike v t) : t.ke = v.ke := h.part (·.ke) (fun _ _ _ _ => rfl)
theorem Alike.act {v t : State} (h : Alike v t) : t.act = v.act := h.part (·.act) (fun _ _ _ _ => rfl)
theorem Alike.boot {v t : State} (h : Alike v t) : t.boot = v.boot := h.part (·.boot) (fun _ _ _ _ => rfl)
theorem Alike.bel {v t : State} (h : Alike v t) : t.bel = v.bel := h.part (·.bel) (fun _ _ _ _ => rfl)
theorem Alike.pmu {v t : State} (h : Alike v t) : t.pmu = v.pmu := h.part (·.pmu) (fun _ _ _ _ => rfl)
theorem Alike.host {v t : State} (h : Alike v t) : t.host = v.host := h.part (·.host) (fun _ _ _ _ => rfl)
theorem Alike.dx {v t : State} (h : Alike v t) : t.dx = v.dx := h.part (·.dx) (fun _ _ _ _ => rfl)

/-- A change of registers that observe changes nothing else. -/
theorem alike_setReg_observer (s : State) (a v : Nat) (h : observer a = true) : Alike s (s.setReg a v) :=
  ⟨rfl, fun x hx => State.reg_setReg_ne _ _ _ _ (fun e => by rw [e, h] at hx; cases hx), fun _ => rfl⟩

theorem alike_set_observer (s : State) (x : Fld) (v : Nat) (h : observer x.addr = true) : Alike s (s.set x v) :=
  alike_setReg_observer s _ _ h

theorem alike_log (s : State) (l : Logline) : Alike s { s with log := l } := ⟨rfl, fun _ _ => rfl, fun _ => rfl⟩

theorem alike_logStart (s : State) : Alike s s.logStart := by
  unfold State.logStart
  repeat' (first | exact Alike.refl s | exact alike_log s _ | split | dsimp only)

theorem alike_logAdmit (s : State) (e : LEntry) (t : Nat) : Alike s (s.logAdmit e t) :=
  ((alike_log s _).trans (alike_logStart _)).trans (alike_setReg_observer _ _ _ (by decide))

theorem alike_logLatch (s : State) (e : LEntry) : Alike s (s.logLatch e) := alike_log s _

theorem alike_logDrop (s : State) (c t : Nat) : Alike s (s.logDrop c t) := by
  have h : Alike s (s.count R.LL_LOST_TOTAL) := alike_setReg_observer _ _ _ (by decide)
  unfold State.logDrop
  extract_lets u total upd
  have hu : Alike s u := h
  split
  · exact hu.trans (alike_log _ _)
  · split
    · exact hu.trans (alike_log _ _)
    · split
      · exact hu.trans (alike_logAdmit _ _ _)
      · exact hu.trans (alike_logLatch _ _)

/-- A report touches the logline alone. -/
theorem alike_report (s : State) (src cls dom : Nat) (data : List Nat) : Alike s (s.report src cls dom data) := by
  unfold State.report State.reportAt
  repeat' (first | exact Alike.refl s | exact alike_log s _ | exact alike_logDrop _ _ _ | exact alike_logAdmit _ _ _ | exact alike_logLatch _ _ | split | dsimp only)

theorem store_on (s : State) (a : Nat) (bs : List Byte) (x : Fld) : (s.store a bs).on x = s.on x := by
  induction bs generalizing s a with
  | nil => rfl
  | cons b bs ih => exact (ih (s.setByte a b) (a + 1)).trans rfl

theorem store_alike (s : State) (a : Nat) (bs : List Byte) (h : s.on R.DSP_TRC_CTRL_EN = true) : Alike s (s.store a bs) := by
  induction bs generalizing s a with
  | nil => exact Alike.refl s
  | cons b bs ih =>
    have h1 : Alike s (s.setByte a b) := ⟨rfl, fun _ _ => rfl, fun e => by rw [h] at e; cases e⟩
    exact h1.trans (ih (s.setByte a b) (a + 1) h)

/-- An engine's refused access touches the count of OFF responses and the logline. -/
theorem alike_engRefused (s : State) (d a n : Nat) (r : Right) : Alike s (s.engRefused d a n r) := by
  have h : ∀ i, Alike s (s.offResponse i) := fun i =>
    ((alike_set_observer s R.PMU_OFFRESP_CNT _ (by decide)).trans (alike_report _ _ _ _ _)).trans (alike_report _ _ _ _ _)
  unfold State.engRefused
  repeat' (first | exact Alike.refl s | exact h _ | split)

/-- A trace event touches the trace alone. -/
theorem alike_trace (s : State) (evt strand core flow arg epoch aux : Nat) :
    Alike s (s.trace evt strand core flow arg epoch aux) := by
  have lost : ∀ u : State, Alike u (u.count R.DSP_TRC_LOST) := fun u => alike_setReg_observer _ _ _ (by decide)
  unfold State.trace
  extract_lets size wr next full a w1 s1 s2
  split
  · exact Alike.refl s
  · rename_i hen
    have en : s.on R.DSP_TRC_CTRL_EN = true := by
      cases q : s.on R.DSP_TRC_CTRL_EN with
      | true => rfl
      | false => exact absurd (by rw [q]; rfl) hen
    split
    · exact lost s
    · split
      · exact (alike_engRefused s _ _ _ _).trans (lost _)
      have st : ∀ (u : State) b n v, u.on R.DSP_TRC_CTRL_EN = true → Alike u (u.wr b n v) ∧ (u.wr b n v).on R.DSP_TRC_CTRL_EN = true :=
        fun u b n v e => ⟨store_alike u _ _ e, (store_on u _ _ _).trans e⟩
      have h1 : Alike s s1 := by
        have k1 := st s a 4 s.gnow en
        have k2 := st _ (a + 4) 4 w1 k1.2
        have k3 := st _ (a + 8) 4 arg k2.2
        have k4 := st _ (a + 12) 4 (epoch % 256 * 2 ^ 24 + aux % 2 ^ 24) k3.2
        exact ((k1.1.trans k2.1).trans k3.1).trans k4.1
      clear_value s1
      have h2 : Alike s s2 := h1.trans (alike_set_observer s1 R.DSP_TRC_WR_INDEX next (by decide))
      clear_value s2
      split
      · exact (h2.trans (lost _)).trans (alike_set_observer _ R.DSP_TRC_RD_INDEX _ (by decide))
      · exact h2

theorem alike_traceS (s : State) (evt t core arg : Nat) : Alike s (s.traceS evt t core arg) := alike_trace _ _ _ _ _ _ _ _

/-- A write of a register that does not observe keeps states alike. -/
theorem Alike.setReg {v t : State} (h : Alike v t) (hv : v.canonical = true) (ht : t.canonical = true) (a w : Nat)
    (ha : observer a = false) (hc : a ≠ R.DSP_TRC_CTRL) : Alike (v.setReg a w) (t.setReg a w) := by
  refine ⟨congrArg (fun s : State => { s with regs := (v.setReg a w).regs }) h.rest, fun x hx => ?_, fun e => ?_⟩
  · by_cases q : x = a
    · subst q; rw [State.reg_setReg_self hv, State.reg_setReg_self ht]
    · rw [State.reg_setReg_ne _ _ _ _ q, State.reg_setReg_ne _ _ _ _ q, h.regs x hx]
  · refine h.mem ?_
    have k : (v.setReg a w).reg R.DSP_TRC_CTRL_EN.addr = v.reg R.DSP_TRC_CTRL_EN.addr :=
      State.reg_setReg_ne _ _ _ _ (fun q => hc (q.symm.trans (by decide)))
    unfold State.on State.f at e ⊢
    rw [k] at e; exact e

end Sys2Proof.Machine
end

