-- ==== Sys2Proof/Laws/KeepsOps1.lean ====
section
/-! SUPPORT. Every operation of the files Ops, Logline, Rights, Dsp, TimeBase, Node, Sched, Hitch, Channel keeps what `Keeps` says: the queue, canonical stores, the free
counter and the fuses. -/

namespace Sys2Proof.Machine

theorem State.setBoth_keeps {r : State} (a0 : State) (a1 : Fld) (a2 : Nat) (h : Keeps r a0) : Keeps r (State.setBoth a0 a1 a2) := by
  unfold State.setBoth
  refine State.setA_keeps _ _ _ ?_
  refine State.set_keeps _ _ _ ?_
  exact h

theorem State.raise_keeps {r : State} (a0 : State) (a1 : Fld) (h : Keeps r a0) : Keeps r (State.raise a0 a1) := by
  unfold State.raise
  refine State.set_keeps _ _ _ ?_
  exact h

theorem State.clr_keeps {r : State} (a0 : State) (a1 : Fld) (h : Keeps r a0) : Keeps r (State.clr a0 a1) := by
  unfold State.clr
  refine State.set_keeps _ _ _ ?_
  exact h

theorem State.setB_keeps {r : State} (a0 : State) (a1 : Fld) (a2 : Bool) (h : Keeps r a0) : Keeps r (State.setB a0 a1 a2) := by
  unfold State.setB
  refine State.set_keeps _ _ _ ?_
  exact h

theorem State.count_keeps {r : State} (a0 : State) (a1 : Fld) (h : Keeps r a0) : Keeps r (State.count a0 a1) := by
  unfold State.count
  refine State.set_keeps _ _ _ ?_
  exact h

theorem State.countK_keeps {r : State} (a0 : State) (a1 : Fld) (a2 : Nat) (h : Keeps r a0) : Keeps r (State.countK a0 a1 a2) := by
  unfold State.countK
  refine State.set_keeps _ _ _ ?_
  exact h

theorem State.bump_keeps {r : State} (a0 : State) (a1 : Fld) (h : Keeps r a0) : Keeps r (State.bump a0 a1) := by
  unfold State.bump
  refine State.set_keeps _ _ _ ?_
  exact h

theorem State.orF_keeps {r : State} (a0 : State) (a1 : Fld) (a2 : Nat) (h : Keeps r a0) : Keeps r (State.orF a0 a1 a2) := by
  unfold State.orF
  refine State.set_keeps _ _ _ ?_
  exact h

theorem State.set64_keeps {r : State} (a0 : State) (a1 : Fld) (a2 : Fld) (a3 : Int) (h : Keeps r a0) : Keeps r (State.set64 a0 a1 a2 a3) := by
  unfold State.set64
  refine State.set_keeps _ _ _ ?_
  refine State.set_keeps _ _ _ ?_
  exact h

theorem State.take_keeps {r : State} (a0 : State) (a1 : Nat) (h : Keeps r a0) : Keeps r (State.take a0 a1) := by
  unfold State.take
  refine State.setActReg_keeps _ _ _ ?_
  exact h

theorem State.wr_keeps {r : State} (a0 : State) (a1 : Nat) (a2 : Nat) (a3 : Nat) (h : Keeps r a0) : Keeps r (State.wr a0 a1 a2 a3) := by
  unfold State.wr
  refine State.store_keeps _ _ _ ?_
  exact h

theorem State.setDom_keeps {r : State} (a0 : State) (a1 : Nat) (a2 : DomClk) (h : Keeps r a0) : Keeps r (State.setDom a0 a1 a2) := by
  unfold State.setDom
  refine keeps_tim h _ (fun y => ?_)
  split
  · exact y
  · exact y

theorem State.modDom_keeps {r : State} (a0 : State) (a1 : Nat) (a2 : DomClk → DomClk) (h : Keeps r a0) : Keeps r (State.modDom a0 a1 a2) := by
  unfold State.modDom
  refine State.setDom_keeps _ _ _ ?_
  exact h

theorem State.modStrand_keeps {r : State} (a0 : State) (a1 : Nat) (a2 : Strand → Strand) (h : Keeps r a0) : Keeps r (State.modStrand a0 a1 a2) := by
  unfold State.modStrand
  refine State.setStrand_keeps _ _ _ ?_
  exact h

theorem State.modCore_keeps {r : State} (a0 : State) (a1 : Nat) (a2 : Core → Core) (h : Keeps r a0) : Keeps r (State.modCore a0 a1 a2) := by
  unfold State.modCore
  refine State.setCore_keeps _ _ _ ?_
  exact h

theorem State.setCtx_keeps {r : State} (a0 : State) (a1 : Nat) (a2 : Ctx) (h : Keeps r a0) : Keeps r (State.setCtx a0 a1 a2) := by
  unfold State.setCtx
  refine State.modCore_keeps _ _ _ ?_
  exact h

theorem State.answer_keeps {r : State} (a0 : State) (a1 : Resp) (h : Keeps r a0) : Keeps r (State.answer a0 a1) := by
  unfold State.answer
  refine keeps_resp ?_ _
  exact h

theorem State.setLog_keeps {r : State} (a0 : State) (a1 : Logline) (h : Keeps r a0) : Keeps r (State.setLog a0 a1) := by
  unfold State.setLog
  refine keeps_log ?_ _
  exact h

theorem State.modLog_keeps {r : State} (a0 : State) (a1 : Logline → Logline) (h : Keeps r a0) : Keeps r (State.modLog a0 a1) := by
  unfold State.modLog
  refine keeps_log ?_ _
  exact h

theorem State.syncOcc_keeps {r : State} (a0 : State) (h : Keeps r a0) : Keeps r (State.syncOcc a0) := by
  unfold State.syncOcc
  refine State.set_keeps _ _ _ ?_
  exact h

theorem State.logStart_keeps {r : State} (a0 : State) (h : Keeps r a0) : Keeps r (State.logStart a0) := by
  unfold State.logStart
  split
  · exact h
  · extract_lets -merge -useContext +onlyGivenNames z0
    clear_value z0
    refine keeps_ite _ ?_ ?_
    · extract_lets -merge -useContext +onlyGivenNames z1
      clear_value z1
      refine State.modLog_keeps _ _ ?_
      exact h
    · refine keeps_ite _ ?_ ?_
      · split
        · extract_lets -merge -useContext +onlyGivenNames z2
          clear_value z2
          refine State.modLog_keeps _ _ ?_
          exact h
        · exact h
      · refine keeps_ite _ ?_ ?_
        · split
          · refine State.modLog_keeps _ _ ?_
            exact h
          · refine keeps_ite _ ?_ ?_
            · split
              · refine State.modLog_keeps _ _ ?_
                exact h
              · exact h
            · exact h
        · exact h

theorem State.logAdmit_keeps {r : State} (a0 : State) (a1 : LEntry) (a2 : Nat) (h : Keeps r a0) : Keeps r (State.logAdmit a0 a1 a2) := by
  unfold State.logAdmit
  refine State.syncOcc_keeps _ ?_
  refine State.logStart_keeps _ ?_
  refine State.modLog_keeps _ _ ?_
  exact h

theorem State.logLatch_keeps {r : State} (a0 : State) (a1 : LEntry) (h : Keeps r a0) : Keeps r (State.logLatch a0 a1) := by
  unfold State.logLatch
  refine State.modLog_keeps _ _ ?_
  exact h

theorem State.logDrop_keeps {r : State} (a0 : State) (a1 : Nat) (a2 : Nat) (h : Keeps r a0) : Keeps r (State.logDrop a0 a1 a2) := by
  unfold State.logDrop
  extract_lets -merge -useContext +onlyGivenNames z0
  have hz0 : Keeps r z0 := by
    unfold z0
    refine State.count_keeps _ _ ?_
    exact h
  clear_value z0
  extract_lets -merge -useContext +onlyGivenNames z1
  clear_value z1
  extract_lets -merge -useContext +onlyGivenNames z2
  clear_value z2
  split
  · refine State.modLog_keeps _ _ ?_
    exact hz0
  · split
    · refine State.modLog_keeps _ _ ?_
      exact hz0
    · extract_lets -merge -useContext +onlyGivenNames z3
      clear_value z3
      refine keeps_ite _ ?_ ?_
      · refine State.logAdmit_keeps _ _ _ ?_
        exact hz0
      · refine State.logLatch_keeps _ _ ?_
        exact hz0

theorem State.reportAt_keeps {r : State} (a0 : State) (a1 : Nat) (a2 : Nat) (a3 : Nat) (a4 : Nat) (a5 : List Nat) (a6 : Bool) (h : Keeps r a0) : Keeps r (State.reportAt a0 a1 a2 a3 a4 a5 a6) := by
  unfold State.reportAt
  refine keeps_ite _ ?_ ?_
  · refine State.logDrop_keeps _ _ _ ?_
    exact h
  · split
    · refine State.modLog_keeps _ _ ?_
      exact h
    · split
      · refine State.modLog_keeps _ _ ?_
        exact h
      · extract_lets -merge -useContext +onlyGivenNames z0
        clear_value z0
        extract_lets -merge -useContext +onlyGivenNames z1
        clear_value z1
        refine keeps_ite _ ?_ ?_
        · refine State.logLatch_keeps _ _ ?_
          exact h
        · refine keeps_ite _ ?_ ?_
          · refine State.logAdmit_keeps _ _ _ ?_
            exact h
          · refine keeps_ite _ ?_ ?_
            · refine State.logLatch_keeps _ _ ?_
              exact h
            · refine State.logDrop_keeps _ _ _ ?_
              exact h

theorem State.report_keeps {r : State} (a0 : State) (a1 : Nat) (a2 : Nat) (a3 : Nat) (a4 : List Nat) (h : Keeps r a0) : Keeps r (State.report a0 a1 a2 a3 a4) := by
  unfold State.report
  refine State.reportAt_keeps _ _ _ _ _ _ _ ?_
  exact h

theorem State.writeCopy_keeps {r : State} (a0 : State) (a1 : Nat) (a2 : Nat) (a3 : List Byte) (a4 : Bool) (h : Keeps r a0) : Keeps r (State.writeCopy a0 a1 a2 a3 a4) := by
  unfold State.writeCopy
  refine keeps_ite _ ?_ ?_
  · refine State.store_keeps _ _ _ ?_
    exact h
  · refine State.burn_keeps _ ?_
    refine State.store_keeps _ _ _ ?_
    exact h

theorem State.setHead_keeps {r : State} (a0 : State) (a1 : Nat) (h : Keeps r a0) : Keeps r (State.setHead a0 a1) := by
  unfold State.setHead
  refine State.set64_keeps _ _ _ _ ?_
  exact h

theorem State.setOldest_keeps {r : State} (a0 : State) (a1 : Nat) (h : Keeps r a0) : Keeps r (State.setOldest a0 a1) := by
  unfold State.setOldest
  refine State.set64_keeps _ _ _ _ ?_
  exact h

theorem State.wfail_keeps {r : State} (a0 : State) (a1 : Nat) (a2 : Nat) (h : Keeps r a0) : Keeps r (State.wfail a0 a1 a2) := by
  unfold State.wfail
  refine State.report_keeps _ _ _ _ _ ?_
  refine State.raise_keeps _ _ ?_
  exact h

theorem State.commitDone_keeps {r : State} (a0 : State) (a1 : Bool) (a2 : Bool) (h : Keeps r a0) : Keeps r (State.commitDone a0 a1 a2) := by
  unfold State.commitDone
  split
  · exact h
  · extract_lets -merge -useContext +onlyGivenNames z0
    clear_value z0
    extract_lets -merge -useContext +onlyGivenNames z1
    clear_value z1
    extract_lets -merge -useContext +onlyGivenNames z2
    clear_value z2
    extract_lets -merge -useContext +onlyGivenNames z3
    clear_value z3
    extract_lets -merge -useContext +onlyGivenNames z4
    have hz4 : Keeps r z4 := by
      unfold z4
      refine State.writeCopy_keeps _ _ _ _ _ ?_
      exact h
    clear_value z4
    extract_lets -merge -useContext +onlyGivenNames z5
    have hz5 : Keeps r z5 := by
      unfold z5
      refine State.writeCopy_keeps _ _ _ _ _ ?_
      exact hz4
    clear_value z5
    extract_lets -merge -useContext +onlyGivenNames z6
    have hz6 : Keeps r z6 := by
      unfold z6
      refine State.setHead_keeps _ _ ?_
      exact hz5
    clear_value z6
    extract_lets -merge -useContext +onlyGivenNames z7
    have hz7 : Keeps r z7 := by
      unfold z7
      refine State.setOldest_keeps _ _ ?_
      exact hz6
    clear_value z7
    extract_lets -merge -useContext +onlyGivenNames z8
    have hz8 : Keeps r z8 := by
      unfold z8
      refine State.bump_keeps _ _ ?_
      exact hz7
    clear_value z8
    extract_lets -merge -useContext +onlyGivenNames z9
    have hz9 : Keeps r z9 := by
      unfold z9
      refine State.modLog_keeps _ _ ?_
      exact hz8
    clear_value z9
    extract_lets -merge -useContext +onlyGivenNames z10
    clear_value z10
    extract_lets -merge -useContext +onlyGivenNames z11
    have hz11 : Keeps r z11 := by
      unfold z11
      refine keeps_fid ?_ _
      exact hz9
    clear_value z11
    extract_lets -merge -useContext +onlyGivenNames z12
    have hz12 : Keeps r z12 := by
      unfold z12
      refine keeps_when ?_ _ _ ?_
      · exact hz11
      · intro w13_0 hw13
        refine State.wfail_keeps _ _ _ ?_
        exact hw13
    clear_value z12
    extract_lets -merge -useContext +onlyGivenNames z14
    have hz14 : Keeps r z14 := by
      unfold z14
      refine keeps_when ?_ _ _ ?_
      · exact hz12
      · intro w15_0 hw15
        refine State.wfail_keeps _ _ _ ?_
        exact hw15
    clear_value z14
    extract_lets -merge -useContext +onlyGivenNames z16
    have hz16 : Keeps r z16 := by
      unfold z16
      refine keeps_when ?_ _ _ ?_
      · exact hz14
      · intro w17_0 hw17
        refine State.reportAt_keeps _ _ _ _ _ _ _ ?_
        refine State.raise_keeps _ _ ?_
        exact hw17
    clear_value z16
    refine State.syncOcc_keeps _ ?_
    refine State.logStart_keeps _ ?_
    exact hz16

theorem State.setWords_keeps {r : State} (a0 : State) (a1 : Nat → Fld) (a2 : List Byte) (h : Keeps r a0) : Keeps r (State.setWords a0 a1 a2) := by
  unfold State.setWords
  refine keeps_forN ?_ _ _ ?_
  · exact h
  · intro w0_0 w0_1 hw0
    refine State.set_keeps _ _ _ ?_
    exact hw0

theorem State.readDone_keeps {r : State} (a0 : State) (h : Keeps r a0) : Keeps r (State.readDone a0) := by
  unfold State.readDone
  split
  · exact h
  · extract_lets -merge -useContext +onlyGivenNames z0
    have hz0 : Keeps r z0 := by
      unfold z0
      refine State.modLog_keeps _ _ ?_
      exact h
    clear_value z0
    extract_lets -merge -useContext +onlyGivenNames z1
    clear_value z1
    extract_lets -merge -useContext +onlyGivenNames z2
    clear_value z2
    extract_lets -merge -useContext +onlyGivenNames z3
    extract_lets -merge -useContext +onlyGivenNames z4
    clear_value z4
    extract_lets -merge -useContext +onlyGivenNames z5
    clear_value z5
    extract_lets -merge -useContext +onlyGivenNames z6
    clear_value z6
    split
    · refine State.setWords_keeps _ _ _ ?_
      refine State.setWords_keeps _ _ _ ?_
      refine State.setReg_keeps _ _ _ ?_
      exact hz0
    · extract_lets -merge -useContext +onlyGivenNames z7
      clear_value z7
      refine keeps_ite _ ?_ ?_
      · refine State.setWords_keeps _ _ _ ?_
        refine State.setReg_keeps _ _ _ ?_
        exact hz0
      · refine State.setWords_keeps _ _ _ ?_
        refine State.setReg_keeps _ _ _ ?_
        exact hz0

theorem State.readStart_keeps {r : State} (a0 : State) (a1 : Nat) (a2 : Option Nat) (h : Keeps r a0) : Keeps r (State.readStart a0 a1 a2) := by
  unfold State.readStart
  extract_lets -merge -useContext +onlyGivenNames z0
  have hz0 : Keeps r z0 := by
    unfold z0
    refine State.modLog_keeps _ _ ?_
    exact h
  clear_value z0
  split
  · refine State.raise_keeps _ _ ?_
    exact hz0
  · refine State.raise_keeps _ _ ?_
    exact hz0

theorem State.scanSlot_keeps {r : State} (a0 : Nat) (a1 : State) (h : Keeps r a1) : Keeps r (State.scanSlot a0 a1) := by
  unfold State.scanSlot
  extract_lets -merge -useContext +onlyGivenNames z0
  clear_value z0
  refine keeps_ite _ ?_ ?_
  · refine State.count_keeps _ _ ?_
    exact h
  · refine keeps_ite _ ?_ ?_
    · extract_lets -merge -useContext +onlyGivenNames z1
      clear_value z1
      refine State.count_keeps _ _ ?_
      refine State.store_keeps _ _ _ ?_
      exact h
    · exact h

theorem State.scanDone_keeps {r : State} (a0 : State) (h : Keeps r a0) : Keeps r (State.scanDone a0) := by
  unfold State.scanDone
  refine keeps_ite _ ?_ ?_
  · exact h
  · extract_lets -merge -useContext +onlyGivenNames z0
    clear_value z0
    extract_lets -merge -useContext +onlyGivenNames z1
    have hz1 : Keeps r z1 := by
      unfold z1
      refine keeps_forEach ?_ _ _ ?_
      · exact h
      · intro w2_0 w2_1 hw2
        refine State.scanSlot_keeps _ _ ?_
        exact hw2
    clear_value z1
    extract_lets -merge -useContext +onlyGivenNames z3
    have hz3 : Keeps r z3 := by
      unfold z3
      refine keeps_when ?_ _ _ ?_
      · exact hz1
      · intro w4_0 hw4
        refine State.raise_keeps _ _ ?_
        exact hw4
    clear_value z3
    extract_lets -merge -useContext +onlyGivenNames z5
    clear_value z5
    extract_lets -merge -useContext +onlyGivenNames z6
    clear_value z6
    extract_lets -merge -useContext +onlyGivenNames z7
    clear_value z7
    extract_lets -merge -useContext +onlyGivenNames z8
    have hz8 : Keeps r z8 := by
      unfold z8
      refine State.setHead_keeps _ _ ?_
      exact hz3
    clear_value z8
    extract_lets -merge -useContext +onlyGivenNames z9
    have hz9 : Keeps r z9 := by
      unfold z9
      refine State.setOldest_keeps _ _ ?_
      exact hz8
    clear_value z9
    extract_lets -merge -useContext +onlyGivenNames z10
    have hz10 : Keeps r z10 := by
      unfold z10
      refine State.set_keeps _ _ _ ?_
      exact hz9
    clear_value z10
    extract_lets -merge -useContext +onlyGivenNames z11
    have hz11 : Keeps r z11 := by
      unfold z11
      refine State.set_keeps _ _ _ ?_
      exact hz10
    clear_value z11
    extract_lets -merge -useContext +onlyGivenNames z12
    clear_value z12
    refine State.syncOcc_keeps _ ?_
    refine State.modLog_keeps _ _ ?_
    exact hz11

theorem State.latchAdmit_keeps {r : State} (a0 : State) (h : Keeps r a0) : Keeps r (State.latchAdmit a0) := by
  unfold State.latchAdmit
  split
  · exact h
  · refine State.logAdmit_keeps _ _ _ ?_
    refine State.modLog_keeps _ _ ?_
    exact h

theorem State.eraseGo_keeps {r : State} (a0 : State) (a1 : Nat) (h : Keeps r a0) : Keeps r (State.eraseGo a0 a1) := by
  unfold State.eraseGo
  extract_lets -merge -useContext +onlyGivenNames z0
  have hz0 : Keeps r z0 := by
    unfold z0
    refine State.set_keeps _ _ _ ?_
    exact h
  clear_value z0
  refine keeps_ite _ ?_ ?_
  · refine State.set_keeps _ _ _ ?_
    exact hz0
  · refine keeps_ite _ ?_ ?_
    · refine State.set_keeps _ _ _ ?_
      refine State.burn_keeps _ ?_
      exact hz0
    · refine keeps_ite _ ?_ ?_
      · refine State.set_keeps _ _ _ ?_
        refine State.burn_keeps _ ?_
        exact hz0
      · refine State.syncOcc_keeps _ ?_
        refine State.logStart_keeps _ ?_
        refine State.modLog_keeps _ _ ?_
        refine State.set_keeps _ _ _ ?_
        refine State.set_keeps _ _ _ ?_
        refine State.burn_keeps _ ?_
        exact hz0

theorem State.eraseDone_keeps {r : State} (a0 : State) (a1 : Nat) (h : Keeps r a0) : Keeps r (State.eraseDone a0 a1) := by
  unfold State.eraseDone
  split
  · exact h
  · exact h
  · extract_lets -merge -useContext +onlyGivenNames z0
    clear_value z0
    extract_lets -merge -useContext +onlyGivenNames z1
    clear_value z1
    extract_lets -merge -useContext +onlyGivenNames z2
    have hz2 : Keeps r z2 := by
      unfold z2
      refine keeps_mem ?_ _ (SMap.wf_filter _ _ _)
      exact h
    clear_value z2
    extract_lets -merge -useContext +onlyGivenNames z3
    clear_value z3
    extract_lets -merge -useContext +onlyGivenNames z4
    have hz4 : Keeps r z4 := by
      unfold z4
      refine State.set_keeps _ _ _ ?_
      exact hz2
    clear_value z4
    extract_lets -merge -useContext +onlyGivenNames z5
    have hz5 : Keeps r z5 := by
      unfold z5
      refine State.set_keeps _ _ _ ?_
      exact hz4
    clear_value z5
    extract_lets -merge -useContext +onlyGivenNames z6
    have hz6 : Keeps r z6 := by
      unfold z6
      refine keeps_when ?_ _ _ ?_
      · exact hz5
      · intro w7_0 hw7
        refine State.setOldest_keeps _ _ ?_
        exact hw7
    clear_value z6
    refine State.syncOcc_keeps _ ?_
    refine State.modLog_keeps _ _ ?_
    exact hz6

theorem State.requestLastGasp_keeps {r : State} (a0 : State) (a1 : Nat) (h : Keeps r a0) : Keeps r (State.requestLastGasp a0 a1) := by
  unfold State.requestLastGasp
  refine keeps_ite _ ?_ ?_
  · exact h
  · refine State.syncOcc_keeps _ ?_
    refine State.logStart_keeps _ ?_
    refine State.modLog_keeps _ _ ?_
    refine State.set_keeps _ _ _ ?_
    exact h

theorem State.violation_keeps {r : State} (a0 : State) (a1 : Requester) (a2 : Nat) (a3 : Bool) (h : Keeps r a0) : Keeps r (State.violation a0 a1 a2 a3) := by
  unfold State.violation
  extract_lets -merge -useContext +onlyGivenNames z0
  have hz0 : Keeps r z0 := by
    unfold z0
    refine State.count_keeps _ _ ?_
    exact h
  clear_value z0
  extract_lets -merge -useContext +onlyGivenNames z1
  clear_value z1
  extract_lets -merge -useContext +onlyGivenNames z2
  have hz2 : Keeps r z2 := by
    unfold z2
    refine keeps_ite _ ?_ ?_
    · exact hz0
    · refine State.setReg_keeps _ _ _ ?_
      refine State.set_keeps _ _ _ ?_
      refine State.set_keeps _ _ _ ?_
      exact hz0
  clear_value z2
  refine State.report_keeps _ _ _ _ _ ?_
  exact hz2

theorem State.offResponse_keeps {r : State} (a0 : State) (a1 : Nat) (h : Keeps r a0) : Keeps r (State.offResponse a0 a1) := by
  unfold State.offResponse
  refine State.report_keeps _ _ _ _ _ ?_
  refine State.report_keeps _ _ _ _ _ ?_
  refine State.count_keeps _ _ ?_
  exact h

theorem State.refuse_keeps {r : State} (a0 : State) (a1 : Verdict) (a2 : Requester) (a3 : Nat) (a4 : Bool) (h : Keeps r a0) : Keeps r (State.refuse a0 a1 a2 a3 a4) := by
  unfold State.refuse
  split
  · exact h
  · exact h
  · refine State.report_keeps _ _ _ _ _ ?_
    exact h
  · refine State.violation_keeps _ _ _ _ ?_
    exact h
  · refine State.offResponse_keeps _ _ ?_
    exact h

theorem State.setSt_keeps {r : State} (a0 : State) (a1 : Nat) (a2 : Nat) (h : Keeps r a0) : Keeps r (State.setSt a0 a1 a2) := by
  unfold State.setSt
  refine State.set_keeps _ _ _ ?_
  exact h

theorem State.engRefused_keeps {r : State} (a0 : State) (a1 : Nat) (a2 : Nat) (a3 : Nat) (a4 : Right) (h : Keeps r a0) : Keeps r (State.engRefused a0 a1 a2 a3 a4) := by
  unfold State.engRefused
  split
  · refine keeps_ite _ ?_ ?_
    · refine State.offResponse_keeps _ _ ?_
      exact h
    · exact h
  · exact h

theorem State.trace_keeps {r : State} (a0 : State) (a1 : Nat) (a2 : Nat) (a3 : Nat) (a4 : Nat) (a5 : Nat) (a6 : Nat) (a7 : Nat) (h : Keeps r a0) : Keeps r (State.trace a0 a1 a2 a3 a4 a5 a6 a7) := by
  unfold State.trace
  extract_lets -merge -useContext +onlyGivenNames z0
  clear_value z0
  refine keeps_ite _ ?_ ?_
  · exact h
  · extract_lets -merge -useContext +onlyGivenNames z1
    clear_value z1
    extract_lets -merge -useContext +onlyGivenNames z2
    clear_value z2
    extract_lets -merge -useContext +onlyGivenNames z3
    clear_value z3
    refine keeps_ite _ ?_ ?_
    · refine State.count_keeps _ _ ?_
      exact h
    · extract_lets -merge -useContext +onlyGivenNames z4
      clear_value z4
      refine keeps_ite _ ?_ ?_
      · refine State.count_keeps _ _ ?_
        refine State.engRefused_keeps _ _ _ _ _ ?_
        exact h
      · extract_lets -merge -useContext +onlyGivenNames z5
        clear_value z5
        extract_lets -merge -useContext +onlyGivenNames z6
        have hz6 : Keeps r z6 := by
          unfold z6
          refine State.wr_keeps _ _ _ _ ?_
          refine State.wr_keeps _ _ _ _ ?_
          refine State.wr_keeps _ _ _ _ ?_
          refine State.wr_keeps _ _ _ _ ?_
          exact h
        clear_value z6
        extract_lets -merge -useContext +onlyGivenNames z7
        have hz7 : Keeps r z7 := by
          unfold z7
          refine State.set_keeps _ _ _ ?_
          exact hz6
        clear_value z7
        refine keeps_ite _ ?_ ?_
        · refine State.set_keeps _ _ _ ?_
          refine State.count_keeps _ _ ?_
          exact hz7
        · exact hz7

theorem State.traceS_keeps {r : State} (a0 : State) (a1 : Nat) (a2 : Nat) (a3 : Nat) (a4 : Nat) (h : Keeps r a0) : Keeps r (State.traceS a0 a1 a2 a3 a4) := by
  unfold State.traceS
  refine State.trace_keeps _ _ _ _ _ _ _ _ ?_
  exact h

theorem State.makeReady_keeps {r : State} (a0 : State) (a1 : Nat) (a2 : Nat) (a3 : Nat) (h : Keeps r a0) : Keeps r (State.makeReady a0 a1 a2 a3) := by
  unfold State.makeReady
  extract_lets -merge -useContext +onlyGivenNames z0
  have hz0 : Keeps r z0 := by
    unfold z0
    refine State.setSt_keeps _ _ _ ?_
    exact h
  clear_value z0
  extract_lets -merge -useContext +onlyGivenNames z1
  have hz1 : Keeps r z1 := by
    unfold z1
    refine State.modStrand_keeps _ _ _ ?_
    exact hz0
  clear_value z1
  refine State.traceS_keeps _ _ _ _ _ ?_
  exact hz1

theorem State.wakeOwner_keeps {r : State} (a0 : State) (a1 : Nat) (h : Keeps r a0) : Keeps r (State.wakeOwner a0 a1) := by
  unfold State.wakeOwner
  extract_lets -merge -useContext +onlyGivenNames z0
  clear_value z0
  refine keeps_ite _ ?_ ?_
  · refine State.makeReady_keeps _ _ _ _ ?_
    refine State.modStrand_keeps _ _ _ ?_
    exact h
  · exact h

theorem State.fillTag_keeps {r : State} (a0 : State) (a1 : Nat) (a2 : Nat) (h : Keeps r a0) : Keeps r (State.fillTag a0 a1 a2) := by
  unfold State.fillTag
  extract_lets -merge -useContext +onlyGivenNames z0
  clear_value z0
  extract_lets -merge -useContext +onlyGivenNames z1
  clear_value z1
  extract_lets -merge -useContext +onlyGivenNames z2
  have hz2 : Keeps r z2 := by
    unfold z2
    refine State.set_keeps _ _ _ ?_
    exact h
  clear_value z2
  refine keeps_ite _ ?_ ?_
  · extract_lets -merge -useContext +onlyGivenNames z3
    have hz3 : Keeps r z3 := by
      unfold z3
      refine State.count_keeps _ _ ?_
      refine State.raise_keeps _ _ ?_
      exact hz2
    clear_value z3
    extract_lets -merge -useContext +onlyGivenNames z4
    have hz4 : Keeps r z4 := by
      unfold z4
      refine State.report_keeps _ _ _ _ _ ?_
      exact hz3
    clear_value z4
    refine State.trace_keeps _ _ _ _ _ _ _ _ ?_
    exact hz4
  · extract_lets -merge -useContext +onlyGivenNames z5
    have hz5 : Keeps r z5 := by
      unfold z5
      refine State.raise_keeps _ _ ?_
      exact hz2
    clear_value z5
    refine keeps_ite _ ?_ ?_
    · extract_lets -merge -useContext +onlyGivenNames z6
      have hz6 : Keeps r z6 := by
        unfold z6
        refine State.set_keeps _ _ _ ?_
        exact hz5
      clear_value z6
      refine keeps_ite _ ?_ ?_
      · exact hz6
      · refine State.wakeOwner_keeps _ _ ?_
        exact hz6
    · exact hz5

theorem State.emptyTag_keeps {r : State} (a0 : State) (a1 : Nat) (h : Keeps r a0) : Keeps r (State.emptyTag a0 a1) := by
  unfold State.emptyTag
  refine keeps_ite _ ?_ ?_
  · extract_lets -merge -useContext +onlyGivenNames z0
    have hz0 : Keeps r z0 := by
      unfold z0
      refine State.clr_keeps _ _ ?_
      exact h
    clear_value z0
    refine keeps_ite _ ?_ ?_
    · refine State.bump_keeps _ _ ?_
      exact hz0
    · exact hz0
  · exact h

theorem State.refillTag_keeps {r : State} (a0 : State) (a1 : Nat) (a2 : Nat) (h : Keeps r a0) : Keeps r (State.refillTag a0 a1 a2) := by
  unfold State.refillTag
  refine keeps_ite _ ?_ ?_
  · exact h
  · extract_lets -merge -useContext +onlyGivenNames z0
    have hz0 : Keeps r z0 := by
      unfold z0
      refine State.raise_keeps _ _ ?_
      refine State.set_keeps _ _ _ ?_
      exact h
    clear_value z0
    refine keeps_ite _ ?_ ?_
    · extract_lets -merge -useContext +onlyGivenNames z1
      clear_value z1
      refine State.set_keeps _ _ _ ?_
      exact hz0
    · exact hz0

theorem State.raiseInt_keeps {r : State} (a0 : State) (a1 : Nat) (a2 : Nat) (a3 : Nat) (h : Keeps r a0) : Keeps r (State.raiseInt a0 a1 a2 a3) := by
  unfold State.raiseInt
  refine keeps_ite _ ?_ ?_
  · refine State.count_keeps _ _ ?_
    exact h
  · extract_lets -merge -useContext +onlyGivenNames z0
    have hz0 : Keeps r z0 := by
      unfold z0
      refine State.orF_keeps _ _ _ ?_
      exact h
    clear_value z0
    extract_lets -merge -useContext +onlyGivenNames z1
    have hz1 : Keeps r z1 := by
      unfold z1
      refine State.modStrand_keeps _ _ _ ?_
      exact hz0
    clear_value z1
    refine keeps_ite _ ?_ ?_
    · refine State.makeReady_keeps _ _ _ _ ?_
      exact hz1
    · exact hz1

theorem State.irq_keeps {r : State} (a0 : State) (a1 : Nat) (a2 : Nat) (a3 : Nat) (h : Keeps r a0) : Keeps r (State.irq a0 a1 a2 a3) := by
  unfold State.irq
  refine keeps_ite _ ?_ ?_
  · refine State.raiseInt_keeps _ _ _ _ ?_
    exact h
  · refine State.count_keeps _ _ ?_
    exact h

theorem State.ext_keeps {r : State} (a0 : State) (a1 : Nat) (h : Keeps r a0) : Keeps r (State.ext a0 a1) := by
  unfold State.ext
  refine State.irq_keeps _ _ _ _ ?_
  exact h

theorem State.raiseSupervisor_keeps {r : State} (a0 : State) (a1 : Nat) (h : Keeps r a0) : Keeps r (State.raiseSupervisor a0 a1) := by
  unfold State.raiseSupervisor
  extract_lets -merge -useContext +onlyGivenNames z0
  clear_value z0
  refine keeps_ite _ ?_ ?_
  · refine State.raiseInt_keeps _ _ _ _ ?_
    exact h
  · refine State.report_keeps _ _ _ _ _ ?_
    refine State.count_keeps _ _ ?_
    exact h

theorem State.syncHalt_keeps {r : State} (a0 : State) (a1 : Nat) (h : Keeps r a0) : Keeps r (State.syncHalt a0 a1) := by
  unfold State.syncHalt
  refine State.setB_keeps _ _ _ ?_
  exact h

theorem State.freeSlot_keeps {r : State} (a0 : State) (a1 : Nat) (h : Keeps r a0) : Keeps r (State.freeSlot a0 a1) := by
  unfold State.freeSlot
  refine keeps_ite _ ?_ ?_
  · extract_lets -merge -useContext +onlyGivenNames z0
    clear_value z0
    refine State.modCore_keeps _ _ _ ?_
    refine State.clr_keeps _ _ ?_
    refine State.clr_keeps _ _ ?_
    refine State.clr_keeps _ _ ?_
    exact h
  · exact h

theorem State.freeSlotOf_keeps {r : State} (a0 : State) (a1 : Nat) (h : Keeps r a0) : Keeps r (State.freeSlotOf a0 a1) := by
  unfold State.freeSlotOf
  refine keeps_ite _ ?_ ?_
  · refine keeps_forN ?_ _ _ ?_
    · exact h
    · intro w0_0 w0_1 hw0
      refine keeps_ite _ ?_ ?_
      · refine State.freeSlot_keeps _ _ ?_
        exact hw0
      · exact hw0
  · exact h

theorem State.leaveCore_keeps {r : State} (a0 : State) (a1 : Nat) (h : Keeps r a0) : Keeps r (State.leaveCore a0 a1) := by
  unfold State.leaveCore
  refine State.modCore_keeps _ _ _ ?_
  refine State.clr_keeps _ _ ?_
  refine State.clr_keeps _ _ ?_
  exact h

theorem State.endDetached_keeps {r : State} (a0 : State) (a1 : Nat) (h : Keeps r a0) : Keeps r (State.endDetached a0 a1) := by
  unfold State.endDetached
  extract_lets -merge -useContext +onlyGivenNames z0
  clear_value z0
  extract_lets -merge -useContext +onlyGivenNames z1
  have hz1 : Keeps r z1 := by
    unfold z1
    refine State.modCore_keeps _ _ _ ?_
    refine State.leaveCore_keeps _ _ ?_
    exact h
  clear_value z1
  refine State.setB_keeps _ _ _ ?_
  exact hz1

theorem State.notePosted_keeps {r : State} (a0 : State) (a1 : Nat) (h : Keeps r a0) : Keeps r (State.notePosted a0 a1) := by
  unfold State.notePosted
  refine keeps_ite _ ?_ ?_
  · exact h
  · refine State.modStrand_keeps _ _ _ ?_
    exact h

theorem State.suspend_keeps {r : State} (a0 : State) (a1 : Nat) (h : Keeps r a0) : Keeps r (State.suspend a0 a1) := by
  unfold State.suspend
  extract_lets -merge -useContext +onlyGivenNames z0
  clear_value z0
  extract_lets -merge -useContext +onlyGivenNames z1
  clear_value z1
  extract_lets -merge -useContext +onlyGivenNames z2
  have hz2 : Keeps r z2 := by
    unfold z2
    refine State.setB_keeps _ _ _ ?_
    exact h
  clear_value z2
  extract_lets -merge -useContext +onlyGivenNames z3
  have hz3 : Keeps r z3 := by
    unfold z3
    refine State.modStrand_keeps _ _ _ ?_
    exact hz2
  clear_value z3
  refine State.modCore_keeps _ _ _ ?_
  refine State.leaveCore_keeps _ _ ?_
  exact hz3

theorem State.toIdle_keeps {r : State} (a0 : State) (a1 : Nat) (h : Keeps r a0) : Keeps r (State.toIdle a0 a1) := by
  unfold State.toIdle
  extract_lets -merge -useContext +onlyGivenNames z0
  have hz0 : Keeps r z0 := by
    unfold z0
    refine State.set_keeps _ _ _ ?_
    refine State.freeSlotOf_keeps _ _ ?_
    exact h
  clear_value z0
  extract_lets -merge -useContext +onlyGivenNames z1
  have hz1 : Keeps r z1 := by
    unfold z1
    refine keeps_forN ?_ _ _ ?_
    · exact hz0
    · intro w2_0 w2_1 hw2
      split
      · refine keeps_ite _ ?_ ?_
        · refine State.modCore_keeps _ _ _ ?_
          refine State.clr_keeps _ _ ?_
          exact hw2
        · exact hw2
      · exact hw2
  clear_value z1
  extract_lets -merge -useContext +onlyGivenNames z3
  have hz3 : Keeps r z3 := by
    unfold z3
    refine State.modStrand_keeps _ _ _ ?_
    exact hz1
  clear_value z3
  refine State.setSt_keeps _ _ _ ?_
  exact hz3

theorem State.coreOffline_keeps {r : State} (a0 : State) (a1 : Nat) (h : Keeps r a0) : Keeps r (State.coreOffline a0 a1) := by
  unfold State.coreOffline
  extract_lets -merge -useContext +onlyGivenNames z0
  have hz0 : Keeps r z0 := by
    unfold z0
    refine State.clr_keeps _ _ ?_
    refine State.clr_keeps _ _ ?_
    refine State.freeSlot_keeps _ _ ?_
    exact h
  clear_value z0
  extract_lets -merge -useContext +onlyGivenNames z1
  have hz1 : Keeps r z1 := by
    unfold z1
    refine State.modCore_keeps _ _ _ ?_
    exact hz0
  clear_value z1
  extract_lets -merge -useContext +onlyGivenNames z2
  have hz2 : Keeps r z2 := by
    unfold z2
    refine keeps_ite _ ?_ ?_
    · exact hz1
    · refine State.trace_keeps _ _ _ _ _ _ _ _ ?_
      exact hz1
  clear_value z2
  refine State.report_keeps _ _ _ _ _ ?_
  exact hz2

theorem State.coreOnline_keeps {r : State} (a0 : State) (a1 : Nat) (h : Keeps r a0) : Keeps r (State.coreOnline a0 a1) := by
  unfold State.coreOnline
  extract_lets -merge -useContext +onlyGivenNames z0
  have hz0 : Keeps r z0 := by
    unfold z0
    refine State.modCore_keeps _ _ _ ?_
    exact h
  clear_value z0
  refine State.syncHalt_keeps _ _ ?_
  refine State.raise_keeps _ _ ?_
  exact hz0

theorem State.preemptNow_keeps {r : State} (a0 : State) (a1 : Nat) (h : Keeps r a0) : Keeps r (State.preemptNow a0 a1) := by
  unfold State.preemptNow
  extract_lets -merge -useContext +onlyGivenNames z0
  clear_value z0
  extract_lets -merge -useContext +onlyGivenNames z1
  have hz1 : Keeps r z1 := by
    unfold z1
    refine State.count_keeps _ _ ?_
    refine State.setSt_keeps _ _ _ ?_
    refine State.suspend_keeps _ _ ?_
    exact h
  clear_value z1
  refine State.traceS_keeps _ _ _ _ _ ?_
  exact hz1

theorem State.preemptLate_keeps {r : State} (a0 : State) (a1 : Nat) (h : Keeps r a0) : Keeps r (State.preemptLate a0 a1) := by
  unfold State.preemptLate
  extract_lets -merge -useContext +onlyGivenNames z0
  clear_value z0
  extract_lets -merge -useContext +onlyGivenNames z1
  clear_value z1
  extract_lets -merge -useContext +onlyGivenNames z2
  have hz2 : Keeps r z2 := by
    unfold z2
    refine State.burn_keeps _ ?_
    exact h
  clear_value z2
  refine keeps_ite _ ?_ ?_
  · refine State.report_keeps _ _ _ _ _ ?_
    refine State.traceS_keeps _ _ _ _ _ ?_
    exact hz2
  · exact hz2

theorem State.vacated_keeps {r : State} (a0 : State) (a1 : Nat) (a2 : Nat) (a3 : Bool) (h : Keeps r a0) : Keeps r (State.vacated a0 a1 a2 a3) := by
  unfold State.vacated
  extract_lets -merge -useContext +onlyGivenNames z0
  have hz0 : Keeps r z0 := by
    unfold z0
    refine keeps_ite _ ?_ ?_
    · refine State.toIdle_keeps _ _ ?_
      exact h
    · exact h
  clear_value z0
  refine keeps_ite _ ?_ ?_
  · refine State.coreOffline_keeps _ _ ?_
    exact hz0
  · exact hz0

theorem State.settle_keeps {r : State} (a0 : State) (a1 : Nat) (h : Keeps r a0) : Keeps r (State.settle a0 a1) := by
  unfold State.settle
  extract_lets -merge -useContext +onlyGivenNames z0
  clear_value z0
  extract_lets -merge -useContext +onlyGivenNames z1
  clear_value z1
  refine keeps_ite _ ?_ ?_
  · exact h
  · refine keeps_ite _ ?_ ?_
    · refine State.vacated_keeps _ _ _ _ ?_
      refine State.suspend_keeps _ _ ?_
      exact h
    · refine keeps_ite _ ?_ ?_
      · refine State.coreOffline_keeps _ _ ?_
        refine State.setSt_keeps _ _ _ ?_
        refine State.suspend_keeps _ _ ?_
        exact h
      · refine State.preemptNow_keeps _ _ ?_
        refine State.preemptLate_keeps _ _ ?_
        exact h

theorem State.migrate_keeps {r : State} (a0 : State) (a1 : Nat) (h : Keeps r a0) : Keeps r (State.migrate a0 a1) := by
  unfold State.migrate
  extract_lets -merge -useContext +onlyGivenNames z0
  clear_value z0
  extract_lets -merge -useContext +onlyGivenNames z1
  clear_value z1
  extract_lets -merge -useContext +onlyGivenNames z2
  clear_value z2
  extract_lets -merge -useContext +onlyGivenNames z3
  have hz3 : Keeps r z3 := by
    unfold z3
    refine State.set_keeps _ _ _ ?_
    exact h
  clear_value z3
  extract_lets -merge -useContext +onlyGivenNames z4
  have hz4 : Keeps r z4 := by
    unfold z4
    refine keeps_forEach ?_ _ _ ?_
    · exact hz3
    · intro w5_0 w5_1 hw5
      refine State.refillTag_keeps _ _ _ ?_
      exact hw5
  clear_value z4
  extract_lets -merge -useContext +onlyGivenNames z6
  have hz6 : Keeps r z6 := by
    unfold z6
    refine State.modStrand_keeps _ _ _ ?_
    exact hz4
  clear_value z6
  extract_lets -merge -useContext +onlyGivenNames z7
  have hz7 : Keeps r z7 := by
    unfold z7
    refine State.setB_keeps _ _ _ ?_
    refine State.setSt_keeps _ _ _ ?_
    exact hz6
  clear_value z7
  extract_lets -merge -useContext +onlyGivenNames z8
  have hz8 : Keeps r z8 := by
    unfold z8
    refine State.clr_keeps _ _ ?_
    refine State.clr_keeps _ _ ?_
    refine State.raise_keeps _ _ ?_
    exact hz7
  clear_value z8
  extract_lets -merge -useContext +onlyGivenNames z9
  have hz9 : Keeps r z9 := by
    unfold z9
    refine State.count_keeps _ _ ?_
    refine State.modCore_keeps _ _ _ ?_
    exact hz8
  clear_value z9
  extract_lets -merge -useContext +onlyGivenNames z10
  have hz10 : Keeps r z10 := by
    unfold z10
    refine State.traceS_keeps _ _ _ _ _ ?_
    exact hz9
  clear_value z10
  extract_lets -merge -useContext +onlyGivenNames z11
  have hz11 : Keeps r z11 := by
    unfold z11
    refine keeps_ite _ ?_ ?_
    · refine State.toIdle_keeps _ _ ?_
      exact hz10
    · exact hz10
  clear_value z11
  refine keeps_ite _ ?_ ?_
  · refine State.coreOffline_keeps _ _ ?_
    exact hz11
  · exact hz11

theorem State.cmdErr_keeps {r : State} (a0 : State) (a1 : Nat) (h : Keeps r a0) : Keeps r (State.cmdErr a0 a1) := by
  unfold State.cmdErr
  refine State.raise_keeps _ _ ?_
  exact h

theorem State.strandStart_keeps {r : State} (a0 : State) (a1 : Nat) (h : Keeps r a0) : Keeps r (State.strandStart a0 a1) := by
  unfold State.strandStart
  refine keeps_ite _ ?_ ?_
  · refine State.cmdErr_keeps _ _ ?_
    exact h
  · refine keeps_ite _ ?_ ?_
    · refine State.raise_keeps _ _ ?_
      exact h
    · extract_lets -merge -useContext +onlyGivenNames z0
      clear_value z0
      refine State.makeReady_keeps _ _ _ _ ?_
      refine State.modStrand_keeps _ _ _ ?_
      exact h

theorem State.strandStop_keeps {r : State} (a0 : State) (a1 : Nat) (h : Keeps r a0) : Keeps r (State.strandStop a0 a1) := by
  unfold State.strandStop
  refine keeps_ite _ ?_ ?_
  · refine State.cmdErr_keeps _ _ ?_
    exact h
  · split
    · refine keeps_ite _ ?_ ?_
      · refine State.settle_keeps _ _ ?_
        refine State.modCore_keeps _ _ _ ?_
        exact h
      · refine State.toIdle_keeps _ _ ?_
        exact h
    · refine State.toIdle_keeps _ _ ?_
      exact h

theorem State.strandResume_keeps {r : State} (a0 : State) (a1 : Nat) (h : Keeps r a0) : Keeps r (State.strandResume a0 a1) := by
  unfold State.strandResume
  refine keeps_ite _ ?_ ?_
  · refine State.cmdErr_keeps _ _ ?_
    exact h
  · extract_lets -merge -useContext +onlyGivenNames z0
    have hz0 : Keeps r z0 := by
      unfold z0
      refine keeps_forN ?_ _ _ ?_
      · exact h
      · intro w1_0 w1_1 hw1
        split
        · refine keeps_ite _ ?_ ?_
          · refine State.modCore_keeps _ _ _ ?_
            refine State.clr_keeps _ _ ?_
            exact hw1
          · exact hw1
        · exact hw1
    clear_value z0
    extract_lets -merge -useContext +onlyGivenNames z2
    have hz2 : Keeps r z2 := by
      unfold z2
      refine State.modStrand_keeps _ _ _ ?_
      exact hz0
    clear_value z2
    refine State.makeReady_keeps _ _ _ _ ?_
    exact hz2

theorem State.strandEnd_keeps {r : State} (a0 : State) (a1 : Nat) (h : Keeps r a0) : Keeps r (State.strandEnd a0 a1) := by
  unfold State.strandEnd
  refine keeps_ite _ ?_ ?_
  · refine State.cmdErr_keeps _ _ ?_
    exact h
  · refine State.toIdle_keeps _ _ ?_
    exact h

theorem State.strandMigrate_keeps {r : State} (a0 : State) (a1 : Nat) (h : Keeps r a0) : Keeps r (State.strandMigrate a0 a1) := by
  unfold State.strandMigrate
  split
  · refine keeps_ite _ ?_ ?_
    · refine State.migrate_keeps _ _ ?_
      exact h
    · refine State.cmdErr_keeps _ _ ?_
      exact h
  · refine State.cmdErr_keeps _ _ ?_
    exact h

theorem State.strandCmd_keeps {r : State} (a0 : State) (a1 : Nat) (a2 : Nat) (h : Keeps r a0) : Keeps r (State.strandCmd a0 a1 a2) := by
  unfold State.strandCmd
  split
  · refine State.strandStart_keeps _ _ ?_
    exact h
  · refine State.strandStop_keeps _ _ ?_
    exact h
  · refine State.strandResume_keeps _ _ ?_
    exact h
  · refine State.strandEnd_keeps _ _ ?_
    exact h
  · refine State.strandMigrate_keeps _ _ ?_
    exact h
  · exact h

theorem State.coreOffreq_keeps {r : State} (a0 : State) (a1 : Nat) (h : Keeps r a0) : Keeps r (State.coreOffreq a0 a1) := by
  unfold State.coreOffreq
  refine keeps_ite _ ?_ ?_
  · exact h
  · extract_lets -merge -useContext +onlyGivenNames z0
    have hz0 : Keeps r z0 := by
      unfold z0
      refine State.freeSlot_keeps _ _ ?_
      refine State.raise_keeps _ _ ?_
      exact h
    clear_value z0
    refine keeps_ite _ ?_ ?_
    · refine State.settle_keeps _ _ ?_
      exact hz0
    · refine State.coreOffline_keeps _ _ ?_
      exact hz0

theorem State.coreOnreq_keeps {r : State} (a0 : State) (a1 : Nat) (h : Keeps r a0) : Keeps r (State.coreOnreq a0 a1) := by
  unfold State.coreOnreq
  refine keeps_ite _ ?_ ?_
  · refine State.coreOnline_keeps _ _ ?_
    exact h
  · refine State.raise_keeps _ _ ?_
    exact h

theorem State.tagMember_keeps {r : State} (a0 : State) (a1 : Nat) (a2 : Bool) (h : Keeps r a0) : Keeps r (State.tagMember a0 a1 a2) := by
  unfold State.tagMember
  refine keeps_ite _ ?_ ?_
  · extract_lets -merge -useContext +onlyGivenNames z0
    clear_value z0
    extract_lets -merge -useContext +onlyGivenNames z1
    clear_value z1
    extract_lets -merge -useContext +onlyGivenNames z2
    clear_value z2
    extract_lets -merge -useContext +onlyGivenNames z3
    clear_value z3
    refine keeps_ite _ ?_ ?_
    · refine State.set_keeps _ _ _ ?_
      refine State.set_keeps _ _ _ ?_
      exact h
    · refine State.set_keeps _ _ _ ?_
      refine State.set_keeps _ _ _ ?_
      exact h
  · exact h

theorem State.tagCtl_keeps {r : State} (a0 : State) (a1 : Nat) (a2 : Nat) (h : Keeps r a0) : Keeps r ((State.tagCtl a0 a1 a2).2) := by
  unfold State.tagCtl
  extract_lets -merge -useContext +onlyGivenNames z0
  clear_value z0
  extract_lets -merge -useContext +onlyGivenNames z1
  clear_value z1
  extract_lets -merge -useContext +onlyGivenNames z2
  clear_value z2
  refine keeps_ite2 _ ?_ ?_
  · refine keeps_snd ?_
    exact h
  · extract_lets -merge -useContext +onlyGivenNames z3
    have hz3 : Keeps r z3 := by
      unfold z3
      refine State.tagMember_keeps _ _ _ ?_
      exact h
    clear_value z3
    extract_lets -merge -useContext +onlyGivenNames z4
    have hz4 : Keeps r z4 := by
      unfold z4
      refine State.set_keeps _ _ _ ?_
      refine State.set_keeps _ _ _ ?_
      exact hz3
    clear_value z4
    extract_lets -merge -useContext +onlyGivenNames z5
    have hz5 : Keeps r z5 := by
      unfold z5
      refine State.set_keeps _ _ _ ?_
      refine State.set_keeps _ _ _ ?_
      refine State.set_keeps _ _ _ ?_
      exact hz4
    clear_value z5
    refine keeps_snd ?_
    refine State.tagMember_keeps _ _ _ ?_
    exact hz5

theorem State.strandReg_keeps {r : State} (a0 : State) (a1 : Nat) (a2 : Nat) (a3 : Nat) (h : Keeps r a0) : Keeps r ((State.strandReg a0 a1 a2 a3).2) := by
  unfold State.strandReg
  split
  · refine keeps_snd ?_
    refine State.strandCmd_keeps _ _ _ ?_
    exact h
  · extract_lets -merge -useContext +onlyGivenNames z0
    clear_value z0
    extract_lets -merge -useContext +onlyGivenNames z1
    clear_value z1
    refine keeps_ite2 _ ?_ ?_
    · refine keeps_snd ?_
      exact h
    · extract_lets -merge -useContext +onlyGivenNames z2
      have hz2 : Keeps r z2 := by
        unfold z2
        refine State.set_keeps _ _ _ ?_
        exact h
      clear_value z2
      refine keeps_snd ?_
      refine State.setReg_keeps _ _ _ ?_
      exact hz2
  · refine keeps_snd ?_
    refine State.set_keeps _ _ _ ?_
    exact h
  · refine keeps_snd ?_
    refine State.set_keeps _ _ _ ?_
    exact h
  · refine keeps_ite2 _ ?_ ?_
    · refine keeps_snd ?_
      exact h
    · refine keeps_snd ?_
      refine State.set_keeps _ _ _ ?_
      exact h
  · refine keeps_snd ?_
    refine State.set_keeps _ _ _ ?_
    exact h
  · refine keeps_snd ?_
    refine State.set_keeps _ _ _ ?_
    exact h
  · refine keeps_snd ?_
    refine State.set_keeps _ _ _ ?_
    exact h
  · refine keeps_snd ?_
    refine State.set_keeps _ _ _ ?_
    exact h
  · refine keeps_snd ?_
    refine State.set_keeps _ _ _ ?_
    exact h
  · refine keeps_ite2 _ ?_ ?_
    · refine keeps_snd ?_
      exact h
    · refine keeps_snd ?_
      refine State.set_keeps _ _ _ ?_
      exact h
  · refine keeps_ite2 _ ?_ ?_
    · refine keeps_snd ?_
      refine State.modStrand_keeps _ _ _ ?_
      exact h
    · refine keeps_snd ?_
      exact h
  · refine keeps_snd ?_
    exact h

theorem State.flowReg_keeps {r : State} (a0 : State) (a1 : Nat) (a2 : Nat) (a3 : Nat) (h : Keeps r a0) : Keeps r (State.flowReg a0 a1 a2 a3) := by
  unfold State.flowReg
  extract_lets -merge -useContext +onlyGivenNames z0
  clear_value z0
  split
  · extract_lets -merge -useContext +onlyGivenNames z1
    have hz1 : Keeps r z1 := by
      unfold z1
      refine keeps_ite _ ?_ ?_
      · exact h
      · refine State.set_keeps _ _ _ ?_
        refine State.set_keeps _ _ _ ?_
        exact h
    clear_value z1
    refine State.set_keeps _ _ _ ?_
    exact hz1
  · refine keeps_ite _ ?_ ?_
    · exact h
    · refine State.set_keeps _ _ _ ?_
      exact h
  · refine keeps_ite _ ?_ ?_
    · exact h
    · refine State.set_keeps _ _ _ ?_
      exact h
  · refine keeps_ite _ ?_ ?_
    · exact h
    · refine State.set_keeps _ _ _ ?_
      exact h
  · refine keeps_ite _ ?_ ?_
    · exact h
    · refine State.set_keeps _ _ _ ?_
      refine State.set_keeps _ _ _ ?_
      exact h
  · refine keeps_ite _ ?_ ?_
    · exact h
    · refine State.set_keeps _ _ _ ?_
      exact h
  · exact h

theorem State.soft_keeps {r : State} (a0 : State) (a1 : Nat) (a2 : Nat) (h : Keeps r a0) : Keeps r (State.soft a0 a1 a2) := by
  unfold State.soft
  refine State.raiseInt_keeps _ _ _ _ ?_
  exact h

theorem State.dspWrite_keeps {r : State} (a0 : State) (a1 : Nat) (a2 : Nat) (a3 : Nat) (h : Keeps r a0) : Keeps r ((State.dspWrite a0 a1 a2 a3).2) := by
  unfold State.dspWrite
  refine keeps_ite2 _ ?_ ?_
  · refine keeps_ite2 _ ?_ ?_
    · refine keeps_snd ?_
      refine State.soft_keeps _ _ _ ?_
      exact h
    · refine keeps_ite2 _ ?_ ?_
      · extract_lets -merge -useContext +onlyGivenNames z0
        clear_value z0
        extract_lets -merge -useContext +onlyGivenNames z1
        have hz1 : Keeps r z1 := by
          unfold z1
          refine keeps_ite _ ?_ ?_
          · refine State.coreOffreq_keeps _ _ ?_
            exact h
          · exact h
        clear_value z1
        refine keeps_snd ?_
        refine keeps_ite _ ?_ ?_
        · refine State.coreOnreq_keeps _ _ ?_
          exact hz1
        · exact hz1
      · refine keeps_ite2 _ ?_ ?_
        · extract_lets -merge -useContext +onlyGivenNames z2
          clear_value z2
          refine keeps_snd ?_
          refine State.set_keeps _ _ _ ?_
          refine State.set_keeps _ _ _ ?_
          exact h
        · refine keeps_ite2 _ ?_ ?_
          · refine keeps_snd ?_
            refine keeps_ite _ ?_ ?_
            · refine State.setReg_keeps _ _ _ ?_
              exact h
            · exact h
          · refine keeps_ite2 _ ?_ ?_
            · refine keeps_snd ?_
              refine State.setReg_keeps _ _ _ ?_
              exact h
            · refine keeps_ite2 _ ?_ ?_
              · refine keeps_snd ?_
                refine State.set_keeps _ _ _ ?_
                exact h
              · refine keeps_ite2 _ ?_ ?_
                · refine keeps_snd ?_
                  refine State.set_keeps _ _ _ ?_
                  exact h
                · refine keeps_ite2 _ ?_ ?_
                  · refine keeps_snd ?_
                    refine State.set_keeps _ _ _ ?_
                    exact h
                  · refine keeps_ite2 _ ?_ ?_
                    · refine keeps_snd ?_
                      refine State.set_keeps _ _ _ ?_
                      exact h
                    · refine keeps_ite2 _ ?_ ?_
                      · refine keeps_snd ?_
                        refine State.set_keeps _ _ _ ?_
                        exact h
                      · refine keeps_ite2 _ ?_ ?_
                        · refine keeps_snd ?_
                          refine State.set_keeps _ _ _ ?_
                          exact h
                        · refine keeps_ite2 _ ?_ ?_
                          · extract_lets -merge -useContext +onlyGivenNames z3
                            clear_value z3
                            refine keeps_snd ?_
                            refine State.set_keeps _ _ _ ?_
                            refine State.set_keeps _ _ _ ?_
                            exact h
                          · refine keeps_snd ?_
                            exact h
  · refine keeps_ite2 _ ?_ ?_
    · refine State.strandReg_keeps _ _ _ _ ?_
      exact h
    · refine keeps_ite2 _ ?_ ?_
      · extract_lets -merge -useContext +onlyGivenNames z4
        clear_value z4
        refine keeps_ite2 _ ?_ ?_
        · refine keeps_snd ?_
          refine State.fillTag_keeps _ _ _ ?_
          exact h
        · refine State.tagCtl_keeps _ _ _ ?_
          exact h
      · refine keeps_ite2 _ ?_ ?_
        · refine keeps_snd ?_
          refine State.flowReg_keeps _ _ _ _ ?_
          exact h
        · refine keeps_snd ?_
          exact h

theorem State.rtcTick_keeps {r : State} (a0 : State) (h : Keeps r a0) : Keeps r (State.rtcTick a0) := by
  unfold State.rtcTick
  extract_lets -merge -useContext +onlyGivenNames z0
  clear_value z0
  extract_lets -merge -useContext +onlyGivenNames z1
  have hz1 : Keeps r z1 := by
    unfold z1
    refine State.set_keeps _ _ _ ?_
    exact h
  clear_value z1
  refine keeps_ite _ ?_ ?_
  · refine State.bump_keeps _ _ ?_
    exact hz1
  · exact hz1

theorem State.tick_keeps {r : State} (a0 : State) (h : Keeps r a0) : Keeps r (State.tick a0) := by
  unfold State.tick
  extract_lets -merge -useContext +onlyGivenNames z0
  clear_value z0
  extract_lets -merge -useContext +onlyGivenNames z1
  extract_lets -merge -useContext +onlyGivenNames z2
  have hz2 : Keeps r z2 := by
    unfold z2
    refine keeps_tim ?_ _ (fun y => y)
    exact h
  clear_value z2
  extract_lets -merge -useContext +onlyGivenNames z3
  have hz3 : Keeps r z3 := by
    unfold z3
    refine keeps_ite _ ?_ ?_
    · exact hz2
    · refine State.rtcTick_keeps _ ?_
      exact hz2
  clear_value z3
  refine keeps_ite _ ?_ ?_
  · exact hz3
  · refine keeps_forN ?_ _ _ ?_
    · exact hz3
    · intro w4_0 w4_1 hw4
      refine State.modDom_keeps _ _ _ ?_
      exact hw4

theorem State.ofsIn_keeps {r : State} (a0 : State) (a1 : Nat) (a2 : Int) (h : Keeps r a0) : Keeps r (State.ofsIn a0 a1 a2) := by
  unfold State.ofsIn
  extract_lets -merge -useContext +onlyGivenNames z0
  clear_value z0
  extract_lets -merge -useContext +onlyGivenNames z1
  have hz1 : Keeps r z1 := by
    unfold z1
    refine State.clr_keeps _ _ ?_
    exact h
  clear_value z1
  refine keeps_ite _ ?_ ?_
  · exact hz1
  · extract_lets -merge -useContext +onlyGivenNames z2
    clear_value z2
    extract_lets -merge -useContext +onlyGivenNames z3
    clear_value z3
    refine keeps_ite _ ?_ ?_
    · refine State.modDom_keeps _ _ _ ?_
      exact hz1
    · extract_lets -merge -useContext +onlyGivenNames z4
      have hz4 : Keeps r z4 := by
        unfold z4
        refine State.modDom_keeps _ _ _ ?_
        exact hz1
      clear_value z4
      refine keeps_ite _ ?_ ?_
      · refine State.raise_keeps _ _ ?_
        exact hz4
      · exact hz4

theorem State.rateWrite_keeps {r : State} (a0 : State) (a1 : Nat) (a2 : Int) (h : Keeps r a0) : Keeps r (State.rateWrite a0 a1 a2) := by
  unfold State.rateWrite
  refine State.set_keeps _ _ _ ?_
  exact h

theorem State.holdover_keeps {r : State} (a0 : State) (a1 : Nat) (h : Keeps r a0) : Keeps r (State.holdover a0 a1) := by
  unfold State.holdover
  refine keeps_ite _ ?_ ?_
  · refine State.report_keeps _ _ _ _ _ ?_
    refine State.raise_keeps _ _ ?_
    exact h
  · exact h

theorem State.switchStart_keeps {r : State} (a0 : State) (a1 : Nat) (h : Keeps r a0) : Keeps r (State.switchStart a0 a1) := by
  unfold State.switchStart
  extract_lets -merge -useContext +onlyGivenNames z0
  have hz0 : Keeps r z0 := by
    unfold z0
    refine State.set_keeps _ _ _ ?_
    exact h
  clear_value z0
  refine keeps_ite _ ?_ ?_
  · exact hz0
  · refine keeps_ite _ ?_ ?_
    · refine State.raise_keeps _ _ ?_
      exact hz0
    · extract_lets -merge -useContext +onlyGivenNames z1
      have hz1 : Keeps r z1 := by
        unfold z1
        refine State.raise_keeps _ _ ?_
        exact hz0
      clear_value z1
      extract_lets -merge -useContext +onlyGivenNames z2
      have hz2 : Keeps r z2 := by
        unfold z2
        refine State.modDom_keeps _ _ _ ?_
        exact hz1
      clear_value z2
      refine keeps_tim ?_ _ (fun y => y)
      exact hz2

theorem State.switchRefresh_keeps {r : State} (a0 : State) (h : Keeps r a0) : Keeps r (State.switchRefresh a0) := by
  unfold State.switchRefresh
  split
  · exact h
  · refine State.modDom_keeps _ _ _ ?_
    exact h

theorem State.switchBoundary_keeps {r : State} (a0 : State) (h : Keeps r a0) : Keeps r (State.switchBoundary a0) := by
  unfold State.switchBoundary
  split
  · exact h
  · extract_lets -merge -useContext +onlyGivenNames z0
    clear_value z0
    refine keeps_ite _ ?_ ?_
    · extract_lets -merge -useContext +onlyGivenNames z1
      have hz1 : Keeps r z1 := by
        unfold z1
        refine State.set_keeps _ _ _ ?_
        refine State.set_keeps _ _ _ ?_
        exact h
      clear_value z1
      extract_lets -merge -useContext +onlyGivenNames z2
      have hz2 : Keeps r z2 := by
        unfold z2
        refine keeps_forN ?_ _ _ ?_
        · exact hz1
        · intro w3_0 w3_1 hw3
          refine keeps_ite _ ?_ ?_
          · refine State.setBoth_keeps _ _ _ ?_
            exact hw3
          · exact hw3
      clear_value z2
      extract_lets -merge -useContext +onlyGivenNames z4
      have hz4 : Keeps r z4 := by
        unfold z4
        refine State.clr_keeps _ _ ?_
        exact hz2
      clear_value z4
      extract_lets -merge -useContext +onlyGivenNames z5
      have hz5 : Keeps r z5 := by
        unfold z5
        refine State.modDom_keeps _ _ _ ?_
        exact hz4
      clear_value z5
      refine State.report_keeps _ _ _ _ _ ?_
      refine keeps_tim ?_ _ (fun y => y)
      exact hz5
    · exact h

theorem State.epochWrite_keeps {r : State} (a0 : State) (a1 : Nat) (a2 : Nat) (h : Keeps r a0) : Keeps r (State.epochWrite a0 a1 a2) := by
  unfold State.epochWrite
  extract_lets -merge -useContext +onlyGivenNames z0
  have hz0 : Keeps r z0 := by
    unfold z0
    refine State.set_keeps _ _ _ ?_
    exact h
  clear_value z0
  refine State.modDom_keeps _ _ _ ?_
  exact hz0

theorem State.lateAction_keeps {r : State} (a0 : State) (a1 : Nat) (h : Keeps r a0) : Keeps r (State.lateAction a0 a1) := by
  unfold State.lateAction
  extract_lets -merge -useContext +onlyGivenNames z0
  clear_value z0
  extract_lets -merge -useContext +onlyGivenNames z1
  extract_lets -merge -useContext +onlyGivenNames z2
  have hz2 : Keeps r z2 := by
    unfold z2
    refine keeps_tim ?_ _ (fun y => y)
    exact h
  clear_value z2
  refine State.report_keeps _ _ _ _ _ ?_
  exact hz2

theorem State.actionArrive_keeps {r : State} (a0 : State) (a1 : TAction) (h : Keeps r a0) : Keeps r (State.actionArrive a0 a1) := by
  unfold State.actionArrive
  refine keeps_ite _ ?_ ?_
  · refine State.lateAction_keeps _ _ ?_
    exact h
  · refine keeps_tim ?_ _ (fun y => y)
    exact h

theorem State.actionPerform_keeps {r : State} (a0 : State) (a1 : Nat) (a2 : Nat) (h : Keeps r a0) : Keeps r (State.actionPerform a0 a1 a2) := by
  unfold State.actionPerform
  split
  · exact h
  · extract_lets -merge -useContext +onlyGivenNames z0
    clear_value z0
    extract_lets -merge -useContext +onlyGivenNames z1
    clear_value z1
    extract_lets -merge -useContext +onlyGivenNames z2
    extract_lets -merge -useContext +onlyGivenNames z3
    have hz3 : Keeps r z3 := by
      unfold z3
      refine keeps_tim ?_ _ (fun y => y)
      exact h
    clear_value z3
    refine keeps_forEach ?_ _ _ ?_
    · exact hz3
    · intro w4_0 w4_1 hw4
      refine keeps_ite _ ?_ ?_
      · refine State.lateAction_keeps _ _ ?_
        exact hw4
      · refine keeps_tim ?_ _ (fun y => y)
        exact hw4

theorem State.beacon_keeps {r : State} (a0 : State) (a1 : Nat) (h : Keeps r a0) : Keeps r (State.beacon a0 a1) := by
  unfold State.beacon
  extract_lets -merge -useContext +onlyGivenNames z0
  have hz0 : Keeps r z0 := by
    unfold z0
    refine keeps_forEach ?_ _ _ ?_
    · exact h
    · intro w1_0 w1_1 hw1
      extract_lets -merge -useContext +onlyGivenNames z2
      clear_value z2
      refine keeps_ite _ ?_ ?_
      · refine State.setRep_keeps _ _ _ ?_
        exact hw1
      · refine State.setRep_keeps _ _ _ ?_
        exact hw1
  clear_value z0
  extract_lets -merge -useContext +onlyGivenNames z3
  have hz3 : Keeps r z3 := by
    unfold z3
    refine State.modDom_keeps _ _ _ ?_
    refine State.modDom_keeps _ _ _ ?_
    exact hz0
  clear_value z3
  refine State.switchRefresh_keeps _ ?_
  exact hz3

theorem State.setTeo_keeps {r : State} (a0 : State) (a1 : Nat) (a2 : TeoQ) (h : Keeps r a0) : Keeps r (State.setTeo a0 a1 a2) := by
  unfold State.setTeo
  refine State.set_keeps _ _ _ ?_
  refine keeps_tim ?_ _ (fun y => y)
  exact h

theorem State.teoHeads_keeps {r : State} (a0 : State) (a1 : Nat) (a2 : Nat) (a3 : List (Nat × Nat)) (h : Keeps r a0) : Keeps r (State.teoHeads a0 a1 a2 a3) := by
  induction a3 generalizing a0 with
  | nil => exact State.setTeo_keeps _ _ _ h
  | cons x xs ih =>
    obtain ⟨t, a⟩ := x
    unfold State.teoHeads
    dsimp only
    refine keeps_ite _ (ih _ ?_) (State.setTeo_keeps _ _ _ h)
    exact State.report_keeps _ _ _ _ _ (State.count_keeps _ _ h)

theorem State.teoPush_keeps {r : State} (a0 : State) (a1 : Nat) (a2 : Nat) (h : Keeps r a0) : Keeps r (State.teoPush a0 a1 a2) := by
  unfold State.teoPush
  extract_lets -merge -useContext +onlyGivenNames z0
  clear_value z0
  refine keeps_ite _ ?_ ?_
  · refine State.report_keeps _ _ _ _ _ ?_
    refine State.raise_keeps _ _ ?_
    exact h
  · extract_lets -merge -useContext +onlyGivenNames z1
    clear_value z1
    refine keeps_ite _ ?_ ?_
    · refine State.teoHeads_keeps _ _ _ _ ?_
      exact h
    · refine State.setTeo_keeps _ _ _ ?_
      exact h

theorem State.teoFlush_keeps {r : State} (a0 : State) (a1 : Nat) (h : Keeps r a0) : Keeps r (State.teoFlush a0 a1) := by
  unfold State.teoFlush
  refine State.setTeo_keeps _ _ _ ?_
  exact h

theorem State.teoAct_keeps {r : State} (a0 : State) (a1 : Nat) (h : Keeps r a0) : Keeps r (State.teoAct a0 a1) := by
  unfold State.teoAct
  extract_lets -merge -useContext +onlyGivenNames z0
  clear_value z0
  split
  · exact h
  · extract_lets -merge -useContext +onlyGivenNames z1
    clear_value z1
    extract_lets -merge -useContext +onlyGivenNames z2
    clear_value z2
    extract_lets -merge -useContext +onlyGivenNames z3
    have hz3 : Keeps r z3 := by
      unfold z3
      refine State.setTeo_keeps _ _ _ ?_
      exact h
    clear_value z3
    refine State.teoHeads_keeps _ _ _ _ ?_
    exact hz3

theorem State.teoClear_keeps {r : State} (a0 : State) (a1 : Nat) (h : Keeps r a0) : Keeps r (State.teoClear a0 a1) := by
  unfold State.teoClear
  extract_lets -merge -useContext +onlyGivenNames z0
  clear_value z0
  split
  · exact h
  · refine State.setTeo_keeps _ _ _ ?_
    exact h

theorem State.setTci_keeps {r : State} (a0 : State) (a1 : Nat) (a2 : TciF) (h : Keeps r a0) : Keeps r (State.setTci a0 a1 a2) := by
  unfold State.setTci
  refine State.set_keeps _ _ _ ?_
  refine keeps_tim ?_ _ (fun y => y)
  exact h

theorem State.tciEnter_keeps {r : State} (a0 : State) (a1 : Nat) (a2 : Nat) (a3 : Bool) (h : Keeps r a0) : Keeps r (State.tciEnter a0 a1 a2 a3) := by
  unfold State.tciEnter
  extract_lets -merge -useContext +onlyGivenNames z0
  clear_value z0
  refine keeps_ite _ ?_ ?_
  · refine State.report_keeps _ _ _ _ _ ?_
    refine State.raise_keeps _ _ ?_
    refine State.setTci_keeps _ _ _ ?_
    exact h
  · refine State.setTci_keeps _ _ _ ?_
    exact h

theorem State.tciTag_keeps {r : State} (a0 : State) (a1 : Nat) (a2 : Nat) (h : Keeps r a0) : Keeps r (State.tciTag a0 a1 a2) := by
  unfold State.tciTag
  extract_lets -merge -useContext +onlyGivenNames z0
  clear_value z0
  refine keeps_ite _ ?_ ?_
  · extract_lets -merge -useContext +onlyGivenNames z1
    clear_value z1
    extract_lets -merge -useContext +onlyGivenNames z2
    have hz2 : Keeps r z2 := by
      unfold z2
      refine keeps_ite _ ?_ ?_
      · refine State.report_keeps _ _ _ _ _ ?_
        refine State.raise_keeps _ _ ?_
        exact h
      · exact h
    clear_value z2
    refine State.fillTag_keeps _ _ _ ?_
    exact hz2
  · exact h

theorem State.tciPop_keeps {r : State} (a0 : State) (a1 : Nat) (h : Keeps r a0) : Keeps r (State.tciPop a0 a1) := by
  unfold State.tciPop
  refine State.setTci_keeps _ _ _ ?_
  exact h

theorem State.setPtpFifo_keeps {r : State} (a0 : State) (a1 : Bool) (a2 : Nat) (a3 : List PtpStamp) (h : Keeps r a0) : Keeps r (State.setPtpFifo a0 a1 a2 a3) := by
  unfold State.setPtpFifo
  refine keeps_ite _ ?_ ?_
  · refine keeps_tim ?_ _ (fun y => y)
    exact h
  · refine keeps_tim ?_ _ (fun y => y)
    exact h

theorem State.ptpEnter_keeps {r : State} (a0 : State) (a1 : Bool) (a2 : Nat) (a3 : PtpStamp) (h : Keeps r a0) : Keeps r (State.ptpEnter a0 a1 a2 a3) := by
  unfold State.ptpEnter
  refine keeps_ite _ ?_ ?_
  · refine State.count_keeps _ _ ?_
    exact h
  · refine State.setPtpFifo_keeps _ _ _ _ ?_
    exact h

theorem State.ptpPop_keeps {r : State} (a0 : State) (a1 : Bool) (a2 : Nat) (h : Keeps r a0) : Keeps r (State.ptpPop a0 a1 a2) := by
  unfold State.ptpPop
  refine State.setPtpFifo_keeps _ _ _ _ ?_
  exact h

theorem State.ringTime_keeps {r : State} (a0 : State) (a1 : Nat) (a2 : Nat) (h : Keeps r a0) : Keeps r (State.ringTime a0 a1 a2) := by
  unfold State.ringTime
  refine keeps_ite _ ?_ ?_
  · exact h
  · extract_lets -merge -useContext +onlyGivenNames z0
    clear_value z0
    extract_lets -merge -useContext +onlyGivenNames z1
    clear_value z1
    extract_lets -merge -useContext +onlyGivenNames z2
    have hz2 : Keeps r z2 := by
      unfold z2
      refine State.burn_keeps _ ?_
      refine State.modDom_keeps _ _ _ ?_
      exact h
    clear_value z2
    refine keeps_ite _ ?_ ?_
    · refine State.raise_keeps _ _ ?_
      exact hz2
    · exact hz2

theorem State.ringLeave_keeps {r : State} (a0 : State) (a1 : Nat) (h : Keeps r a0) : Keeps r (State.ringLeave a0 a1) := by
  unfold State.ringLeave
  refine State.modDom_keeps _ _ _ ?_
  refine State.clr_keeps _ _ ?_
  exact h

theorem State.ringTimeLost_keeps {r : State} (a0 : State) (a1 : Nat) (h : Keeps r a0) : Keeps r (State.ringTimeLost a0 a1) := by
  unfold State.ringTimeLost
  refine keeps_ite _ ?_ ?_
  · refine State.ringLeave_keeps _ _ ?_
    exact h
  · exact h

theorem State.tbWrite_keeps {r : State} (a0 : State) (a1 : Nat) (a2 : Nat) (h : Keeps r a0) : Keeps r (State.tbWrite a0 a1 a2) := by
  unfold State.tbWrite
  refine keeps_ite _ ?_ ?_
  · refine State.set_keeps _ _ _ ?_
    exact h
  · refine keeps_ite _ ?_ ?_
    · refine keeps_ite _ ?_ ?_
      · refine State.switchStart_keeps _ _ ?_
        exact h
      · refine State.set_keeps _ _ _ ?_
        exact h
    · refine keeps_ite _ ?_ ?_
      · refine State.set_keeps _ _ _ ?_
        exact h
      · refine keeps_ite _ ?_ ?_
        · refine keeps_ite _ ?_ ?_
          · refine State.set_keeps _ _ _ ?_
            refine State.set_keeps _ _ _ ?_
            exact h
          · exact h
        · refine keeps_ite _ ?_ ?_
          · extract_lets -merge -useContext +onlyGivenNames z0
            clear_value z0
            split
            · extract_lets -merge -useContext +onlyGivenNames z1
              have hz1 : Keeps r z1 := by
                unfold z1
                refine State.set_keeps _ _ _ ?_
                refine State.set_keeps _ _ _ ?_
                exact h
              clear_value z1
              extract_lets -merge -useContext +onlyGivenNames z2
              have hz2 : Keeps r z2 := by
                unfold z2
                refine State.set_keeps _ _ _ ?_
                refine State.set_keeps _ _ _ ?_
                exact hz1
              clear_value z2
              extract_lets -merge -useContext +onlyGivenNames z3
              clear_value z3
              extract_lets -merge -useContext +onlyGivenNames z4
              have hz4 : Keeps r z4 := by
                unfold z4
                refine keeps_ite _ ?_ ?_
                · exact hz2
                · refine State.modDom_keeps _ _ _ ?_
                  exact hz2
              clear_value z4
              refine keeps_ite _ ?_ ?_
              · exact hz4
              · refine State.ringLeave_keeps _ _ ?_
                exact hz4
            · refine State.rateWrite_keeps _ _ _ ?_
              exact h
            · refine State.ofsIn_keeps _ _ _ ?_
              exact h
            · refine State.set_keeps _ _ _ ?_
              exact h
            · refine State.set_keeps _ _ _ ?_
              exact h
            · refine State.set_keeps _ _ _ ?_
              exact h
            · refine State.set_keeps _ _ _ ?_
              exact h
            · refine State.set_keeps _ _ _ ?_
              exact h
            · refine State.epochWrite_keeps _ _ _ ?_
              exact h
            · exact h
          · refine keeps_ite _ ?_ ?_
            · extract_lets -merge -useContext +onlyGivenNames z5
              clear_value z5
              split
              · refine State.setReg_keeps _ _ _ ?_
                exact h
              · refine State.setReg_keeps _ _ _ ?_
                exact h
              · exact h
            · exact h

theorem State.tioWrite_keeps {r : State} (a0 : State) (a1 : Nat) (a2 : Nat) (h : Keeps r a0) : Keeps r (State.tioWrite a0 a1 a2) := by
  unfold State.tioWrite
  refine keeps_ite _ ?_ ?_
  · extract_lets -merge -useContext +onlyGivenNames z0
    clear_value z0
    split
    · extract_lets -merge -useContext +onlyGivenNames z1
      have hz1 : Keeps r z1 := by
        unfold z1
        refine State.setReg_keeps _ _ _ ?_
        exact h
      clear_value z1
      refine keeps_ite _ ?_ ?_
      · exact hz1
      · refine State.setTeo_keeps _ _ _ ?_
        exact hz1
    · refine State.set_keeps _ _ _ ?_
      exact h
    · refine keeps_ite _ ?_ ?_
      · refine State.teoFlush_keeps _ _ ?_
        exact h
      · refine State.teoPush_keeps _ _ _ ?_
        exact h
    · exact h
  · refine keeps_ite _ ?_ ?_
    · extract_lets -merge -useContext +onlyGivenNames z2
      clear_value z2
      refine keeps_ite _ ?_ ?_
      · refine State.setReg_keeps _ _ _ ?_
        exact h
      · exact h
    · exact h

theorem State.timReadEffect_keeps {r : State} (a0 : State) (a1 : Nat) (h : Keeps r a0) : Keeps r (State.timReadEffect a0 a1) := by
  unfold State.timReadEffect
  refine keeps_ite _ ?_ ?_
  · refine State.ptpPop_keeps _ _ _ ?_
    exact h
  · refine keeps_ite _ ?_ ?_
    · refine State.ptpPop_keeps _ _ _ ?_
      exact h
    · refine keeps_ite _ ?_ ?_
      · refine State.ptpPop_keeps _ _ _ ?_
        exact h
      · refine keeps_ite _ ?_ ?_
        · refine State.ptpPop_keeps _ _ _ ?_
          exact h
        · refine keeps_ite _ ?_ ?_
          · refine State.tciPop_keeps _ _ ?_
            exact h
          · exact h

theorem State.setNode_keeps {r : State} (a0 : State) (a1 : Nat) (a2 : NodeSt) (h : Keeps r a0) : Keeps r (State.setNode a0 a1 a2) := by
  exact State.setNodeAt_keeps _ _ _ h

theorem State.nodeSend_keeps {r : State} (a0 : State) (a1 : Nat) (a2 : Bool) (a3 : List Byte) (h : Keeps r a0) : Keeps r (State.nodeSend a0 a1 a2 a3) := by
  unfold State.nodeSend
  refine keeps_net ?_ _ (fun y => y)
  exact h

theorem State.nodeMailbox_keeps {r : State} (a0 : State) (a1 : Nat) (a2 : Nat) (a3 : NReq) (h : Keeps r a0) : Keeps r (State.nodeMailbox a0 a1 a2 a3) := by
  unfold State.nodeMailbox
  refine State.setNode_keeps _ _ _ ?_
  exact h

theorem State.nodeForward_keeps {r : State} (a0 : State) (a1 : Nat) (a2 : Bool) (a3 : List Byte) (h : Keeps r a0) : Keeps r (State.nodeForward a0 a1 a2 a3) := by
  unfold State.nodeForward
  extract_lets -merge -useContext +onlyGivenNames z0
  clear_value z0
  refine keeps_ite _ ?_ ?_
  · refine State.setNode_keeps _ _ _ ?_
    exact h
  · extract_lets -merge -useContext +onlyGivenNames z1
    clear_value z1
    extract_lets -merge -useContext +onlyGivenNames z2
    clear_value z2
    extract_lets -merge -useContext +onlyGivenNames z3
    clear_value z3
    extract_lets -merge -useContext +onlyGivenNames z4
    clear_value z4
    extract_lets -merge -useContext +onlyGivenNames z5
    clear_value z5
    extract_lets -merge -useContext +onlyGivenNames z6
    clear_value z6
    extract_lets -merge -useContext +onlyGivenNames z7
    clear_value z7
    extract_lets -merge -useContext +onlyGivenNames z8
    have hz8 : Keeps r z8 := by
      unfold z8
      refine State.burn_keeps _ ?_
      exact h
    clear_value z8
    extract_lets -merge -useContext +onlyGivenNames z9
    clear_value z9
    extract_lets -merge -useContext +onlyGivenNames z10
    clear_value z10
    extract_lets -merge -useContext +onlyGivenNames z11
    clear_value z11
    extract_lets -merge -useContext +onlyGivenNames z12
    clear_value z12
    extract_lets -merge -useContext +onlyGivenNames z13
    clear_value z13
    extract_lets -merge -useContext +onlyGivenNames z14
    have hz14 : Keeps r z14 := by
      unfold z14
      refine keeps_free (s := z8) ?_ _ (by omega)
      exact hz8
    clear_value z14
    extract_lets -merge -useContext +onlyGivenNames z15
    clear_value z15
    extract_lets -merge -useContext +onlyGivenNames z16
    clear_value z16
    extract_lets -merge -useContext +onlyGivenNames z17
    clear_value z17
    extract_lets -merge -useContext +onlyGivenNames z18
    clear_value z18
    extract_lets -merge -useContext +onlyGivenNames z19
    clear_value z19
    extract_lets -merge -useContext +onlyGivenNames z20
    clear_value z20
    extract_lets -merge -useContext +onlyGivenNames z21
    have hz21 : Keeps r z21 := by
      unfold z21
      refine State.setNode_keeps _ _ _ ?_
      exact hz14
    clear_value z21
    extract_lets -merge -useContext +onlyGivenNames z22
    clear_value z22
    extract_lets -merge -useContext +onlyGivenNames z23
    clear_value z23
    extract_lets -merge -useContext +onlyGivenNames z24
    clear_value z24
    extract_lets -merge -useContext +onlyGivenNames z25
    clear_value z25
    refine State.nodeSend_keeps _ _ _ _ ?_
    exact hz21

theorem State.nodeReverse_keeps {r : State} (a0 : State) (a1 : Nat) (a2 : List Byte) (h : Keeps r a0) : Keeps r (State.nodeReverse a0 a1 a2) := by
  unfold State.nodeReverse
  extract_lets -merge -useContext +onlyGivenNames z0
  clear_value z0
  refine keeps_ite _ ?_ ?_
  · refine State.setNode_keeps _ _ _ ?_
    exact h
  · extract_lets -merge -useContext +onlyGivenNames z1
    clear_value z1
    extract_lets -merge -useContext +onlyGivenNames z2
    clear_value z2
    extract_lets -merge -useContext +onlyGivenNames z3
    clear_value z3
    extract_lets -merge -useContext +onlyGivenNames z4
    clear_value z4
    extract_lets -merge -useContext +onlyGivenNames z5
    clear_value z5
    extract_lets -merge -useContext +onlyGivenNames z6
    clear_value z6
    extract_lets -merge -useContext +onlyGivenNames z7
    have hz7 : Keeps r z7 := by
      unfold z7
      refine keeps_free (s := a0) ?_ _ (by omega)
      exact h
    clear_value z7
    extract_lets -merge -useContext +onlyGivenNames z8
    have hz8 : Keeps r z8 := by
      unfold z8
      refine keeps_ite _ ?_ ?_
      · refine State.setNode_keeps _ _ _ ?_
        exact hz7
      · refine State.setNode_keeps _ _ _ ?_
        exact hz7
    clear_value z8
    refine State.nodeSend_keeps _ _ _ _ ?_
    exact hz8

theorem State.nodeAtIn_keeps {r : State} (a0 : State) (a1 : Nat) (a2 : List Byte) (h : Keeps r a0) : Keeps r (State.nodeAtIn a0 a1 a2) := by
  unfold State.nodeAtIn
  extract_lets -merge -useContext +onlyGivenNames z0
  clear_value z0
  refine keeps_ite _ ?_ ?_
  · exact h
  · refine State.nodeForward_keeps _ _ _ _ ?_
    exact h

theorem State.nodeAtOut_keeps {r : State} (a0 : State) (a1 : Nat) (a2 : List Byte) (h : Keeps r a0) : Keeps r (State.nodeAtOut a0 a1 a2) := by
  unfold State.nodeAtOut
  extract_lets -merge -useContext +onlyGivenNames z0
  clear_value z0
  refine keeps_ite _ ?_ ?_
  · refine State.nodeReverse_keeps _ _ _ ?_
    exact h
  · refine keeps_ite _ ?_ ?_
    · exact h
    · refine State.nodeForward_keeps _ _ _ _ ?_
      exact h

theorem execNodeFrameProcess_keeps {r : State} (a0 : Fin 4) (a1 : Fin 64) (a2 : List Byte) (a3 : State) (h : Keeps r a3) (t : State) (e : execNodeFrameProcess a0 a1 a2 a3 = .next t) : Keeps r t := by
  unfold execNodeFrameProcess at e
  injection e with e
  subst e
  repeat' (first | assumption | intro _ | with_reducible apply State.nodeAtIn_keeps | with_reducible apply keeps_ite | split | dsimp only)

theorem execNodeReverseForward_keeps {r : State} (a0 : Fin 4) (a1 : Fin 64) (a2 : List Byte) (a3 : State) (h : Keeps r a3) (t : State) (e : execNodeReverseForward a0 a1 a2 a3 = .next t) : Keeps r t := by
  unfold execNodeReverseForward at e
  injection e with e
  subst e
  repeat' (first | assumption | intro _ | with_reducible apply State.nodeAtOut_keeps | with_reducible apply keeps_ite | split | dsimp only)

theorem State.modNode_keeps {r : State} (a0 : State) (a1 : Nat) (a2 : Nat) (a3 : NodeSt → NodeSt) (h : Keeps r a0) : Keeps r (State.modNode a0 a1 a2 a3) := by
  unfold State.modNode
  refine State.setNode_keeps _ _ _ ?_
  exact h

theorem execNodeAddressTake_keeps {r : State} (a0 : Fin 4) (a1 : Fin 64) (a2 : State) (h : Keeps r a2) (t : State) (e : execNodeAddressTake a0 a1 a2 = .next t) : Keeps r t := by
  unfold execNodeAddressTake at e
  injection e with e
  subst e
  repeat' (first | assumption | intro _ | with_reducible apply State.modNode_keeps | with_reducible apply keeps_ite | split | dsimp only)

theorem execNodeClaimTimeout_keeps {r : State} (a0 : Fin 4) (a1 : Fin 64) (a2 : State) (h : Keeps r a2) (t : State) (e : execNodeClaimTimeout a0 a1 a2 = .next t) : Keeps r t := by
  unfold execNodeClaimTimeout at e
  injection e with e
  subst e
  repeat' (first | assumption | intro _ | with_reducible apply State.modNode_keeps | with_reducible apply keeps_ite | split | dsimp only)

theorem execNodeSample_keeps {r : State} (a0 : Fin 4) (a1 : Fin 64) (a2 : List AxisSample) (a3 : State) (h : Keeps r a3) (t : State) (e : execNodeSample a0 a1 a2 a3 = .next t) : Keeps r t := by
  unfold execNodeSample at e
  injection e with e
  subst e
  repeat' (first | assumption | intro _ | with_reducible apply State.modNode_keeps | with_reducible apply keeps_ite | split | dsimp only)

theorem execNodeApply_keeps {r : State} (a0 : Fin 4) (a1 : Fin 64) (a2 : State) (h : Keeps r a2) (t : State) (e : execNodeApply a0 a1 a2 = .next t) : Keeps r t := by
  unfold execNodeApply at e
  injection e with e
  subst e
  repeat' (first | assumption | intro _ | with_reducible apply State.modNode_keeps | with_reducible apply keeps_ite | split | dsimp only)

theorem execNodeLostCycle_keeps {r : State} (a0 : Fin 4) (a1 : Fin 64) (a2 : State) (h : Keeps r a2) (t : State) (e : execNodeLostCycle a0 a1 a2 = .next t) : Keeps r t := by
  unfold execNodeLostCycle at e
  injection e with e
  subst e
  repeat' (first | assumption | intro _ | with_reducible apply State.modNode_keeps | with_reducible apply keeps_ite | split | dsimp only)

theorem execNodeLoopback_keeps {r : State} (a0 : Fin 4) (a1 : Fin 64) (a2 : LoopCause) (a3 : State) (h : Keeps r a3) (t : State) (e : execNodeLoopback a0 a1 a2 a3 = .next t) : Keeps r t := by
  unfold execNodeLoopback at e
  injection e with e
  subst e
  repeat' (first | assumption | intro _ | with_reducible apply State.modNode_keeps | with_reducible apply keeps_ite | split | dsimp only)

theorem execNodeHealnow_keeps {r : State} (a0 : Fin 4) (a1 : Fin 64) (a2 : State) (h : Keeps r a2) (t : State) (e : execNodeHealnow a0 a1 a2 = .next t) : Keeps r t := by
  unfold execNodeHealnow at e
  injection e with e
  subst e
  repeat' (first | assumption | intro _ | with_reducible apply State.modNode_keeps | with_reducible apply keeps_ite | split | dsimp only)

theorem execNodeReset_keeps {r : State} (a0 : Fin 4) (a1 : Fin 64) (a2 : State) (h : Keeps r a2) (t : State) (e : execNodeReset a0 a1 a2 = .next t) : Keeps r t := by
  unfold execNodeReset at e
  injection e with e
  subst e
  repeat' (first | assumption | intro _ | with_reducible apply State.modNode_keeps | with_reducible apply keeps_ite | split | dsimp only)

theorem execNodeSafetyWatchdog_keeps {r : State} (a0 : Fin 4) (a1 : Fin 64) (a2 : State) (h : Keeps r a2) (t : State) (e : execNodeSafetyWatchdog a0 a1 a2 = .next t) : Keeps r t := by
  unfold execNodeSafetyWatchdog at e
  injection e with e
  subst e
  repeat' (first | assumption | intro _ | with_reducible apply State.modNode_keeps | with_reducible apply keeps_ite | split | dsimp only)

theorem execNodeLinkUp_keeps {r : State} (a0 : Fin 4) (a1 : Fin 64) (a2 : Bool) (a3 : Fin 3) (a4 : State) (h : Keeps r a4) (t : State) (e : execNodeLinkUp a0 a1 a2 a3 a4 = .next t) : Keeps r t := by
  unfold execNodeLinkUp at e
  injection e with e
  subst e
  repeat' (first | assumption | intro _ | with_reducible apply State.modNode_keeps | with_reducible apply keeps_ite | split | dsimp only)

theorem execMailboxNop_keeps {r : State} (a0 : Fin 4) (a1 : Fin 64) (a2 : Byte) (a3 : State) (h : Keeps r a3) (t : State) (e : execMailboxNop a0 a1 a2 a3 = .next t) : Keeps r t := by
  unfold execMailboxNop at e
  injection e with e
  subst e
  repeat' (first | assumption | intro _ | with_reducible apply State.nodeMailbox_keeps | with_reducible apply keeps_ite | split | dsimp only)

theorem execMailboxRead_keeps {r : State} (a0 : Fin 4) (a1 : Fin 64) (a2 : Byte) (a3 : BitVec 16) (a4 : State) (h : Keeps r a4) (t : State) (e : execMailboxRead a0 a1 a2 a3 a4 = .next t) : Keeps r t := by
  unfold execMailboxRead at e
  injection e with e
  subst e
  repeat' (first | assumption | intro _ | with_reducible apply State.nodeMailbox_keeps | with_reducible apply keeps_ite | split | dsimp only)

theorem execMailboxWrite_keeps {r : State} (a0 : Fin 4) (a1 : Fin 64) (a2 : Byte) (a3 : BitVec 16) (a4 : List Byte) (a5 : State) (h : Keeps r a5) (t : State) (e : execMailboxWrite a0 a1 a2 a3 a4 a5 = .next t) : Keeps r t := by
  unfold execMailboxWrite at e
  injection e with e
  subst e
  repeat' (first | assumption | intro _ | with_reducible apply State.nodeMailbox_keeps | with_reducible apply keeps_ite | split | dsimp only)

theorem execKnotPrep_keeps {r : State} (a0 : Fin 4) (a1 : Fin 64) (a2 : Byte) (a3 : BitVec 8) (a4 : BitVec 16) (a5 : List Byte) (a6 : State) (h : Keeps r a6) (t : State) (e : execKnotPrep a0 a1 a2 a3 a4 a5 a6 = .next t) : Keeps r t := by
  unfold execKnotPrep at e
  injection e with e
  subst e
  repeat' (first | assumption | intro _ | with_reducible apply State.nodeMailbox_keeps | with_reducible apply keeps_ite | split | dsimp only)

theorem execKnotSeal_keeps {r : State} (a0 : Fin 4) (a1 : Fin 64) (a2 : Byte) (a3 : BitVec 8) (a4 : BitVec 8) (a5 : State) (h : Keeps r a5) (t : State) (e : execKnotSeal a0 a1 a2 a3 a4 a5 = .next t) : Keeps r t := by
  unfold execKnotSeal at e
  injection e with e
  subst e
  repeat' (first | assumption | intro _ | with_reducible apply State.nodeMailbox_keeps | with_reducible apply keeps_ite | split | dsimp only)

theorem execKnotCancel_keeps {r : State} (a0 : Fin 4) (a1 : Fin 64) (a2 : Byte) (a3 : BitVec 8) (a4 : State) (h : Keeps r a4) (t : State) (e : execKnotCancel a0 a1 a2 a3 a4 = .next t) : Keeps r t := by
  unfold execKnotCancel at e
  injection e with e
  subst e
  repeat' (first | assumption | intro _ | with_reducible apply State.nodeMailbox_keeps | with_reducible apply keeps_ite | split | dsimp only)

theorem execMailboxUnknownOp_keeps {r : State} (a0 : Fin 4) (a1 : Fin 64) (a2 : Byte) (a3 : Byte) (a4 : State) (h : Keeps r a4) (t : State) (e : execMailboxUnknownOp a0 a1 a2 a3 a4 = .next t) : Keeps r t := by
  unfold execMailboxUnknownOp at e
  injection e with e
  subst e
  repeat' (first | assumption | intro _ | with_reducible apply State.nodeMailbox_keeps | with_reducible apply keeps_ite | split | dsimp only)

theorem State.modRing_keeps {r : State} (a0 : State) (a1 : Nat) (a2 : Ring → Ring) (h : Keeps r a0) : Keeps r (State.modRing a0 a1 a2) := by
  unfold State.modRing
  refine State.setRing_keeps _ _ _ ?_
  exact h

theorem State.deriveBinds_keeps {r : State} (a0 : State) (h : Keeps r a0) : Keeps r (State.deriveBinds a0) := by
  unfold State.deriveBinds
  extract_lets -merge -useContext +onlyGivenNames z0
  clear_value z0
  extract_lets -merge -useContext +onlyGivenNames z1
  clear_value z1
  extract_lets -merge -useContext +onlyGivenNames z2
  have hz2 : Keeps r z2 := by
    unfold z2
    refine keeps_forEach ?_ _ _ ?_
    · exact h
    · intro w3_0 w3_1 hw3
      refine State.setReg_keeps _ _ _ ?_
      exact hw3
  clear_value z2
  refine keeps_forEach ?_ _ _ ?_
  · exact hz2
  · intro w4_0 w4_1 hw4
    refine keeps_ite _ ?_ ?_
    · refine State.setReg_keeps _ _ _ ?_
      exact hw4
    · exact hw4

theorem State.setNt_keeps {r : State} (a0 : State) (a1 : Nat) (a2 : Nat) (a3 : Nat) (h : Keeps r a0) : Keeps r (State.setNt a0 a1 a2 a3) := by
  unfold State.setNt
  refine State.set_keeps _ _ _ ?_
  exact h

theorem State.mailSend_keeps {r : State} (a0 : State) (a1 : Nat) (a2 : MReq) (h : Keeps r a0) : Keeps r (State.mailSend a0 a1 a2) := by
  unfold State.mailSend
  refine State.modRing_keeps _ _ _ ?_
  exact h

theorem State.freshMseq_keeps {r : State} (a0 : State) (a1 : Nat) (a2 : Nat) (h : Keeps r a0) : Keeps r (State.freshMseq a0 a1 a2) := by
  unfold State.freshMseq
  refine State.modRing_keeps _ _ _ ?_
  exact h

theorem State.modAx_keeps {r : State} (a0 : State) (a1 : Nat) (a2 : Ax → Ax) (h : Keeps r a0) : Keeps r (State.modAx a0 a1 a2) := by
  unfold State.modAx
  refine State.setAx_keeps _ _ _ ?_
  exact h

theorem State.setMode_keeps {r : State} (a0 : State) (a1 : Nat) (a2 : Nat) (h : Keeps r a0) : Keeps r (State.setMode a0 a1 a2) := by
  unfold State.setMode
  refine State.setBoth_keeps _ _ _ ?_
  exact h

theorem State.publish_keeps {r : State} (a0 : State) (a1 : Nat) (a2 : Nat) (a3 : Nat) (a4 : Bool) (a5 : Bool) (a6 : Kin) (a7 : Int) (a8 : Word) (h : Keeps r a0) : Keeps r (State.publish a0 a1 a2 a3 a4 a5 a6 a7 a8) := by
  unfold State.publish
  extract_lets -merge -useContext +onlyGivenNames z0
  clear_value z0
  extract_lets -merge -useContext +onlyGivenNames z1
  have hz1 : Keeps r z1 := by
    unfold z1
    refine State.set_keeps _ _ _ ?_
    refine State.set_keeps _ _ _ ?_
    exact h
  clear_value z1
  extract_lets -merge -useContext +onlyGivenNames z2
  have hz2 : Keeps r z2 := by
    unfold z2
    refine State.set64_keeps _ _ _ _ ?_
    exact hz1
  clear_value z2
  extract_lets -merge -useContext +onlyGivenNames z3
  have hz3 : Keeps r z3 := by
    unfold z3
    refine State.set_keeps _ _ _ ?_
    refine State.set_keeps _ _ _ ?_
    exact hz2
  clear_value z3
  extract_lets -merge -useContext +onlyGivenNames z4
  have hz4 : Keeps r z4 := by
    unfold z4
    refine State.set64_keeps _ _ _ _ ?_
    exact hz3
  clear_value z4
  extract_lets -merge -useContext +onlyGivenNames z5
  have hz5 : Keeps r z5 := by
    unfold z5
    refine State.set_keeps _ _ _ ?_
    exact hz4
  clear_value z5
  extract_lets -merge -useContext +onlyGivenNames z6
  have hz6 : Keeps r z6 := by
    unfold z6
    refine State.setB_keeps _ _ _ ?_
    refine State.setB_keeps _ _ _ ?_
    exact hz5
  clear_value z6
  refine State.set_keeps _ _ _ ?_
  exact hz6

theorem State.modChan_keeps {r : State} (a0 : State) (a1 : Nat) (a2 : Chan → Chan) (h : Keeps r a0) : Keeps r (State.modChan a0 a1 a2) := by
  unfold State.modChan
  refine State.setChan_keeps _ _ _ ?_
  exact h

theorem State.modGang_keeps {r : State} (a0 : State) (a1 : Nat) (a2 : Gang → Gang) (h : Keeps r a0) : Keeps r (State.modGang a0 a1 a2) := by
  unfold State.modGang
  refine State.setGang_keeps _ _ _ ?_
  exact h

theorem State.pcReport_keeps {r : State} (a0 : State) (a1 : Nat) (a2 : Nat) (a3 : Nat) (h : Keeps r a0) : Keeps r (State.pcReport a0 a1 a2 a3) := by
  unfold State.pcReport
  refine State.report_keeps _ _ _ _ _ ?_
  exact h

theorem State.hgReport_keeps {r : State} (a0 : State) (a1 : Nat) (a2 : Nat) (a3 : Nat) (h : Keeps r a0) : Keeps r (State.hgReport a0 a1 a2 a3) := by
  unfold State.hgReport
  refine State.report_keeps _ _ _ _ _ ?_
  exact h

theorem State.seqTo_keeps {r : State} (a0 : State) (a1 : Nat) (a2 : Nat) (h : Keeps r a0) : Keeps r (State.seqTo a0 a1 a2) := by
  unfold State.seqTo
  refine keeps_ite _ ?_ ?_
  · exact h
  · extract_lets -merge -useContext +onlyGivenNames z0
    have hz0 : Keeps r z0 := by
      unfold z0
      refine State.set_keeps _ _ _ ?_
      refine State.clr_keeps _ _ ?_
      exact h
    clear_value z0
    refine State.modChan_keeps _ _ _ ?_
    exact hz0

theorem State.syncGroup_keeps {r : State} (a0 : State) (a1 : Nat) (h : Keeps r a0) : Keeps r (State.syncGroup a0 a1) := by
  unfold State.syncGroup
  refine State.setB_keeps _ _ _ ?_
  refine State.set_keeps _ _ _ ?_
  exact h

theorem State.syncGroupsOf_keeps {r : State} (a0 : State) (a1 : Nat) (h : Keeps r a0) : Keeps r (State.syncGroupsOf a0 a1) := by
  unfold State.syncGroupsOf
  refine keeps_ite _ ?_ ?_
  · refine keeps_forN ?_ _ _ ?_
    · exact h
    · intro w0_0 w0_1 hw0
      extract_lets -merge -useContext +onlyGivenNames z1
      clear_value z1
      refine keeps_ite _ ?_ ?_
      · refine State.syncGroup_keeps _ _ ?_
        exact hw0
      · exact hw0
  · exact h

theorem State.syncShots_keeps {r : State} (a0 : State) (a1 : Nat) (h : Keeps r a0) : Keeps r (State.syncShots a0 a1) := by
  unfold State.syncShots
  extract_lets -merge -useContext +onlyGivenNames z0
  clear_value z0
  refine State.setB_keeps _ _ _ ?_
  refine State.setB_keeps _ _ _ ?_
  refine State.set_keeps _ _ _ ?_
  exact h

theorem State.shotLate_keeps {r : State} (a0 : State) (a1 : Nat) (h : Keeps r a0) : Keeps r (State.shotLate a0 a1) := by
  unfold State.shotLate
  refine State.pcReport_keeps _ _ _ _ ?_
  refine State.lateAction_keeps _ _ ?_
  refine State.count_keeps _ _ ?_
  exact h

theorem State.shotHeads_keeps {r : State} (a0 : State) (a1 : Nat) (h : Keeps r a0) : Keeps r (State.shotHeads a0 a1) := by
  unfold State.shotHeads
  refine keeps_ite _ ?_ ?_
  · exact h
  · extract_lets -merge -useContext +onlyGivenNames z0
    clear_value z0
    extract_lets -merge -useContext +onlyGivenNames z1
    clear_value z1
    refine keeps_ite _ ?_ ?_
    · exact h
    · refine keeps_forEach ?_ _ _ ?_
      · refine State.syncShots_keeps _ _ ?_
        refine State.modChan_keeps _ _ _ ?_
        exact h
      · intro w2_0 w2_1 hw2
        refine State.shotLate_keeps _ _ ?_
        exact hw2

theorem State.dropShot_keeps {r : State} (a0 : State) (a1 : Nat) (h : Keeps r a0) : Keeps r (State.dropShot a0 a1) := by
  unfold State.dropShot
  split
  · exact h
  · extract_lets -merge -useContext +onlyGivenNames z0
    have hz0 : Keeps r z0 := by
      unfold z0
      refine State.modChan_keeps _ _ _ ?_
      exact h
    clear_value z0
    refine State.shotHeads_keeps _ _ ?_
    refine State.syncShots_keeps _ _ ?_
    refine State.bump_keeps _ _ ?_
    exact hz0

theorem State.chanFault_keeps {r : State} (a0 : State) (a1 : Nat) (a2 : Fld) (a3 : Nat) (a4 : Nat) (h : Keeps r a0) : Keeps r (State.chanFault a0 a1 a2 a3 a4) := by
  unfold State.chanFault
  extract_lets -merge -useContext +onlyGivenNames z0
  have hz0 : Keeps r z0 := by
    unfold z0
    refine State.dropShot_keeps _ _ ?_
    refine State.clr_keeps _ _ ?_
    refine State.raise_keeps _ _ ?_
    exact h
  clear_value z0
  extract_lets -merge -useContext +onlyGivenNames z1
  have hz1 : Keeps r z1 := by
    unfold z1
    refine State.modChan_keeps _ _ _ ?_
    refine State.seqTo_keeps _ _ _ ?_
    exact hz0
  clear_value z1
  extract_lets -merge -useContext +onlyGivenNames z2
  have hz2 : Keeps r z2 := by
    unfold z2
    refine keeps_ite _ ?_ ?_
    · refine keeps_forEach ?_ _ _ ?_
      · exact hz1
      · intro w3_0 w3_1 hw3
        refine State.syncGroup_keeps _ _ ?_
        refine State.seqTo_keeps _ _ _ ?_
        refine State.dropShot_keeps _ _ ?_
        exact hw3
    · exact hz1
  clear_value z2
  refine State.pcReport_keeps _ _ _ _ ?_
  refine State.syncGroupsOf_keeps _ _ ?_
  exact hz2

theorem State.evalChan_keeps {r : State} (a0 : State) (a1 : Nat) (h : Keeps r a0) : Keeps r (State.evalChan a0 a1) := by
  unfold State.evalChan
  refine keeps_ite _ ?_ ?_
  · refine State.chanFault_keeps _ _ _ _ _ ?_
    exact h
  · refine keeps_ite _ ?_ ?_
    · exact h
    · refine State.seqTo_keeps _ _ _ ?_
      exact h

theorem State.evalHigh_keeps {r : State} (a0 : State) (a1 : Option Shot) (h : Keeps r a0) : Keeps r (State.evalHigh a0 a1) := by
  unfold State.evalHigh
  split
  · refine keeps_ite _ ?_ ?_
    · refine State.syncGroup_keeps _ _ ?_
      refine State.evalChan_keeps _ _ ?_
      exact h
    · exact h
  · exact h

theorem State.evalAround_keeps {r : State} (a0 : State) (a1 : Nat) (h : Keeps r a0) : Keeps r (State.evalAround a0 a1) := by
  unfold State.evalAround
  extract_lets -merge -useContext +onlyGivenNames z0
  have hz0 : Keeps r z0 := by
    unfold z0
    refine State.evalChan_keeps _ _ ?_
    exact h
  clear_value z0
  extract_lets -merge -useContext +onlyGivenNames z1
  have hz1 : Keeps r z1 := by
    unfold z1
    refine keeps_forEach ?_ _ _ ?_
    · exact hz0
    · intro w2_0 w2_1 hw2
      refine State.evalChan_keeps _ _ ?_
      exact hw2
  clear_value z1
  refine keeps_ite _ ?_ ?_
  · refine State.syncGroupsOf_keeps _ _ ?_
    refine State.evalHigh_keeps _ _ ?_
    exact hz1
  · exact hz1

theorem State.fault_keeps {r : State} (a0 : State) (a1 : Nat) (a2 : Fld) (a3 : Nat) (a4 : Nat) (h : Keeps r a0) : Keeps r (State.fault a0 a1 a2 a3 a4) := by
  unfold State.fault
  refine State.evalHigh_keeps _ _ ?_
  refine State.evalAround_keeps _ _ ?_
  refine State.chanFault_keeps _ _ _ _ _ ?_
  exact h

theorem State.bankFault_keeps {r : State} (a0 : State) (a1 : Nat) (a2 : Nat → Fld) (a3 : Nat) (h : Keeps r a0) : Keeps r (State.bankFault a0 a1 a2 a3) := by
  unfold State.bankFault
  refine keeps_forN ?_ _ _ ?_
  · exact h
  · intro w0_0 w0_1 hw0
    refine State.fault_keeps _ _ _ _ _ ?_
    exact hw0

theorem State.bankSafeOff_keeps {r : State} (a0 : State) (a1 : Nat) (a2 : Bool) (h : Keeps r a0) : Keeps r (State.bankSafeOff a0 a1 a2) := by
  unfold State.bankSafeOff
  refine keeps_ite _ ?_ ?_
  · refine State.bankFault_keeps _ _ _ _ ?_
    exact h
  · refine keeps_forN ?_ _ _ ?_
    · exact h
    · intro w0_0 w0_1 hw0
      refine State.clr_keeps _ _ ?_
      exact hw0

theorem State.nextSet_keeps {r : State} (a0 : State) (a1 : Nat) (h : Keeps r a0) : Keeps r (State.nextSet a0 a1) := by
  unfold State.nextSet
  split
  · refine keeps_forEach ?_ _ _ ?_
    · exact h
    · intro w0_0 w0_1 hw0
      refine State.setActReg_keeps _ _ _ ?_
      exact hw0
  · exact h

theorem State.rejudge_keeps {r : State} (a0 : State) (a1 : Nat) (h : Keeps r a0) : Keeps r (State.rejudge a0 a1) := by
  unfold State.rejudge
  extract_lets -merge -useContext +onlyGivenNames z0
  clear_value z0
  extract_lets -merge -useContext +onlyGivenNames z1
  clear_value z1
  refine keeps_ite _ ?_ ?_
  · exact h
  · extract_lets -merge -useContext +onlyGivenNames z2
    clear_value z2
    refine State.setChan_keeps _ _ _ ?_
    exact h

theorem State.pcActivate_keeps {r : State} (a0 : State) (a1 : List (Nat × Word)) (h : Keeps r a0) : Keeps r (State.pcActivate a0 a1) := by
  unfold State.pcActivate
  refine keeps_forEach ?_ _ _ ?_
  · exact h
  · intro w0_0 w0_1 hw0
    refine State.setActReg_keeps _ _ _ ?_
    exact hw0

theorem State.pcAccept_keeps {r : State} (a0 : State) (a1 : Nat) (a2 : List (Nat × Word)) (h : Keeps r a0) : Keeps r (State.pcAccept a0 a1 a2) := by
  unfold State.pcAccept
  extract_lets -merge -useContext +onlyGivenNames z0
  clear_value z0
  extract_lets -merge -useContext +onlyGivenNames z1
  clear_value z1
  refine keeps_ite _ ?_ ?_
  · extract_lets -merge -useContext +onlyGivenNames z2
    have hz2 : Keeps r z2 := by
      unfold z2
      refine State.modChan_keeps _ _ _ ?_
      refine State.pcActivate_keeps _ _ ?_
      exact h
    clear_value z2
    refine State.evalAround_keeps _ _ ?_
    exact hz2
  · refine keeps_ite _ ?_ ?_
    · refine State.evalAround_keeps _ _ ?_
      refine State.pcActivate_keeps _ _ ?_
      exact h
    · refine State.rejudge_keeps _ _ ?_
      refine State.modChan_keeps _ _ _ ?_
      exact h

theorem State.chanBoundary_keeps {r : State} (a0 : State) (a1 : Nat) (h : Keeps r a0) : Keeps r (State.chanBoundary a0 a1) := by
  unfold State.chanBoundary
  extract_lets -merge -useContext +onlyGivenNames z0
  clear_value z0
  refine keeps_ite _ ?_ ?_
  · exact h
  · extract_lets -merge -useContext +onlyGivenNames z1
    clear_value z1
    refine keeps_forEach ?_ _ _ ?_
    · exact h
    · intro w2_0 w2_1 hw2
      extract_lets -merge -useContext +onlyGivenNames z3
      have hz3 : Keeps r z3 := by
        unfold z3
        refine State.clr_keeps _ _ ?_
        exact hw2
      clear_value z3
      refine keeps_ite _ ?_ ?_
      · refine State.pcAccept_keeps _ _ _ ?_
        refine State.set_keeps _ _ _ ?_
        exact hz3
      · refine State.raise_keeps _ _ ?_
        exact hz3

theorem State.pcTakeOne_keeps {r : State} (a0 : State) (a1 : Nat) (h : Keeps r a0) : Keeps r ((State.pcTakeOne a0 a1).2) := by
  unfold State.pcTakeOne
  extract_lets -merge -useContext +onlyGivenNames z0
  clear_value z0
  extract_lets -merge -useContext +onlyGivenNames z1
  clear_value z1
  refine keeps_ite2 _ ?_ ?_
  · extract_lets -merge -useContext +onlyGivenNames z2
    clear_value z2
    refine keeps_snd ?_
    refine State.pcAccept_keeps _ _ _ ?_
    exact h
  · refine keeps_snd ?_
    refine State.raise_keeps _ _ ?_
    exact h

theorem State.hgTake_keeps {r : State} (a0 : State) (a1 : Nat) (a2 : List Nat) (h : Keeps r a0) : Keeps r ((State.hgTake a0 a1 a2).2) := by
  unfold State.hgTake
  extract_lets -merge -useContext +onlyGivenNames z0
  clear_value z0
  refine keeps_ite2 _ ?_ ?_
  · refine keeps_snd ?_
    refine State.syncGroup_keeps _ _ ?_
    refine keeps_forEach ?_ _ _ ?_
    · exact h
    · intro w1_0 w1_1 hw1
      refine State.take_keeps _ _ ?_
      exact hw1
  · refine keeps_snd ?_
    refine State.raise_keeps _ _ ?_
    exact h

theorem State.groupBoundary_keeps {r : State} (a0 : State) (a1 : Nat) (h : Keeps r a0) : Keeps r (State.groupBoundary a0 a1) := by
  unfold State.groupBoundary
  refine keeps_forN ?_ _ _ ?_
  · exact h
  · intro w0_0 w0_1 hw0
    refine keeps_ite _ ?_ ?_
    · have hd1 : Keeps r ((w0_1.clr (Sys2Proof.Machine.R.HG_CMT_GO w0_0)).hgTake w0_0 (Sys2Proof.Machine.hgStaged w0_0)).2 := by
        refine State.hgTake_keeps _ _ _ ?_
        refine State.clr_keeps _ _ ?_
        exact hw0
      split
      · refine keeps_ite _ ?_ ?_
        · refine State.set_keeps _ _ _ ?_
          exact (by simp_all)
        · exact (by simp_all)
    · exact hw0

theorem State.shotPush_keeps {r : State} (a0 : State) (a1 : Nat) (a2 : Nat) (h : Keeps r a0) : Keeps r (State.shotPush a0 a1 a2) := by
  unfold State.shotPush
  extract_lets -merge -useContext +onlyGivenNames z0
  clear_value z0
  refine keeps_ite _ ?_ ?_
  · refine State.pcReport_keeps _ _ _ _ ?_
    refine State.raise_keeps _ _ ?_
    exact h
  · refine keeps_ite _ ?_ ?_
    · exact h
    · refine State.shotHeads_keeps _ _ ?_
      refine State.syncShots_keeps _ _ ?_
      refine State.setChan_keeps _ _ _ ?_
      exact h

theorem State.shotFlush_keeps {r : State} (a0 : State) (a1 : Nat) (h : Keeps r a0) : Keeps r (State.shotFlush a0 a1) := by
  unfold State.shotFlush
  refine State.syncShots_keeps _ _ ?_
  refine State.modChan_keeps _ _ _ ?_
  exact h

theorem State.shotStop_keeps {r : State} (a0 : State) (a1 : Nat) (h : Keeps r a0) : Keeps r (State.shotStop a0 a1) := by
  unfold State.shotStop
  refine keeps_ite _ ?_ ?_
  · refine State.modChan_keeps _ _ _ ?_
    exact h
  · refine State.evalHigh_keeps _ _ ?_
    refine State.evalAround_keeps _ _ ?_
    refine State.dropShot_keeps _ _ ?_
    exact h

theorem State.valveLeave_keeps {r : State} (a0 : State) (a1 : Nat) (h : Keeps r a0) : Keeps r (State.valveLeave a0 a1) := by
  unfold State.valveLeave
  split
  · exact h
  · refine keeps_ite _ ?_ ?_
    · refine State.shotFlush_keeps _ _ ?_
      refine State.shotStop_keeps _ _ ?_
      exact h
    · exact h

theorem State.shotBegin_keeps {r : State} (a0 : State) (a1 : Nat) (a2 : Nat) (a3 : Nat) (h : Keeps r a0) : Keeps r (State.shotBegin a0 a1 a2 a3) := by
  unfold State.shotBegin
  extract_lets -merge -useContext +onlyGivenNames z0
  clear_value z0
  refine State.evalAround_keeps _ _ ?_
  refine State.syncShots_keeps _ _ ?_
  refine State.modChan_keeps _ _ _ ?_
  exact h

theorem State.groupFlag_keeps {r : State} (a0 : State) (a1 : Nat) (a2 : Fld) (a3 : Fld) (a4 : Fld) (a5 : Nat) (h : Keeps r a0) : Keeps r (State.groupFlag a0 a1 a2 a3 a4 a5) := by
  unfold State.groupFlag
  refine State.hgReport_keeps _ _ _ _ ?_
  refine State.count_keeps _ _ ?_
  refine State.raise_keeps _ _ ?_
  refine State.raise_keeps _ _ ?_
  exact h

theorem State.admitShot_keeps {r : State} (a0 : State) (a1 : Nat) (a2 : Nat) (a3 : Nat) (a4 : Nat) (h : Keeps r a0) : Keeps r (State.admitShot a0 a1 a2 a3 a4) := by
  unfold State.admitShot
  refine keeps_ite _ ?_ ?_
  · refine State.burn_keeps _ ?_
    refine State.groupFlag_keeps _ _ _ _ _ _ ?_
    exact h
  · extract_lets -merge -useContext +onlyGivenNames z0
    have hz0 : Keeps r z0 := by
      unfold z0
      refine State.burn_keeps _ ?_
      exact h
    clear_value z0
    extract_lets -merge -useContext +onlyGivenNames z1
    clear_value z1
    extract_lets -merge -useContext +onlyGivenNames z2
    have hz2 : ∀ y0, Keeps r y0 → Keeps r (z2 y0) := by
      unfold z2
      intro w3_0 hw3
      refine keeps_ite _ ?_ ?_
      · refine State.syncShots_keeps _ _ ?_
        refine State.modChan_keeps _ _ _ ?_
        refine State.groupFlag_keeps _ _ _ _ _ _ ?_
        exact hw3
      · refine State.shotBegin_keeps _ _ _ _ ?_
        exact hw3
    clear_value z2
    extract_lets -merge -useContext +onlyGivenNames z4
    have hz4 : ∀ y0, Keeps r y0 → Keeps r (z4 y0) := by
      unfold z4
      intro w5_0 hw5
      refine keeps_ite _ ?_ ?_
      · refine State.groupFlag_keeps _ _ _ _ _ _ ?_
        exact hw5
      · refine State.shotBegin_keeps _ _ _ _ ?_
        exact hw5
    clear_value z4
    split
    · extract_lets -merge -useContext +onlyGivenNames z6
      clear_value z6
      refine keeps_ite _ ?_ ?_
      · refine State.shotBegin_keeps _ _ _ _ ?_
        exact hz0
      · extract_lets -merge -useContext +onlyGivenNames z7
        have hz7 : Keeps r z7 := by
          unfold z7
          refine State.groupFlag_keeps _ _ _ _ _ _ ?_
          exact hz0
        clear_value z7
        refine keeps_ite _ ?_ ?_
        · refine hz4 _ ?_
          exact hz7
        · refine hz2 _ ?_
          exact hz7
    · refine hz2 _ ?_
      exact hz0
    · refine hz4 _ ?_
      exact hz0

theorem State.shotStart_keeps {r : State} (a0 : State) (a1 : Nat) (h : Keeps r a0) : Keeps r (State.shotStart a0 a1) := by
  unfold State.shotStart
  extract_lets -merge -useContext +onlyGivenNames z0
  clear_value z0
  refine keeps_ite _ ?_ ?_
  · exact h
  · split
    · exact h
    · extract_lets -merge -useContext +onlyGivenNames z1
      have hz1 : Keeps r z1 := by
        unfold z1
        refine State.syncShots_keeps _ _ ?_
        refine State.setChan_keeps _ _ _ ?_
        exact h
      clear_value z1
      refine keeps_ite _ ?_ ?_
      · refine State.shotLate_keeps _ _ ?_
        exact hz1
      · refine keeps_ite _ ?_ ?_
        · refine State.admitShot_keeps _ _ _ _ _ ?_
          exact hz1
        · refine State.shotBegin_keeps _ _ _ _ ?_
          exact hz1

theorem State.deferredStart_keeps {r : State} (a0 : State) (a1 : Nat) (h : Keeps r a0) : Keeps r (State.deferredStart a0 a1) := by
  unfold State.deferredStart
  refine keeps_ite _ ?_ ?_
  · exact h
  · extract_lets -merge -useContext +onlyGivenNames z0
    clear_value z0
    extract_lets -merge -useContext +onlyGivenNames z1
    clear_value z1
    split
    · exact h
    · refine State.shotBegin_keeps _ _ _ _ ?_
      exact h

theorem State.shotPeakEnd_keeps {r : State} (a0 : State) (a1 : Nat) (h : Keeps r a0) : Keeps r (State.shotPeakEnd a0 a1) := by
  unfold State.shotPeakEnd
  refine keeps_ite _ ?_ ?_
  · exact h
  · refine State.syncShots_keeps _ _ ?_
    refine State.modChan_keeps _ _ _ ?_
    exact h

theorem State.holdPeriod_keeps {r : State} (a0 : State) (a1 : Nat) (h : Keeps r a0) : Keeps r (State.holdPeriod a0 a1) := by
  unfold State.holdPeriod
  split
  · exact h
  · refine keeps_ite _ ?_ ?_
    · refine State.modChan_keeps _ _ _ ?_
      exact h
    · extract_lets -merge -useContext +onlyGivenNames z0
      clear_value z0
      extract_lets -merge -useContext +onlyGivenNames z1
      have hz1 : Keeps r z1 := by
        unfold z1
        refine keeps_ite _ ?_ ?_
        · refine State.count_keeps _ _ ?_
          exact h
        · exact h
      clear_value z1
      extract_lets -merge -useContext +onlyGivenNames z2
      clear_value z2
      refine State.evalAround_keeps _ _ ?_
      refine State.modChan_keeps _ _ _ ?_
      exact hz1

theorem State.shotEnd_keeps {r : State} (a0 : State) (a1 : Nat) (h : Keeps r a0) : Keeps r (State.shotEnd a0 a1) := by
  unfold State.shotEnd
  refine State.shotStop_keeps _ _ ?_
  exact h

theorem State.pumpStop_keeps {r : State} (a0 : State) (a1 : Nat) (h : Keeps r a0) : Keeps r (State.pumpStop a0 a1) := by
  unfold State.pumpStop
  extract_lets -merge -useContext +onlyGivenNames z0
  have hz0 : Keeps r z0 := by
    unfold z0
    refine State.count_keeps _ _ ?_
    refine State.clr_keeps _ _ ?_
    refine State.raise_keeps _ _ ?_
    exact h
  clear_value z0
  extract_lets -merge -useContext +onlyGivenNames z1
  have hz1 : Keeps r z1 := by
    unfold z1
    refine keeps_forEach ?_ _ _ ?_
    · exact hz0
    · intro w2_0 w2_1 hw2
      refine State.evalHigh_keeps _ _ ?_
      refine State.evalChan_keeps _ _ ?_
      refine State.dropShot_keeps _ _ ?_
      exact hw2
  clear_value z1
  refine State.hgReport_keeps _ _ _ _ ?_
  refine State.syncGroup_keeps _ _ ?_
  refine State.evalChan_keeps _ _ ?_
  exact hz1

theorem State.pumpFault_keeps {r : State} (a0 : State) (a1 : Nat) (h : Keeps r a0) : Keeps r (State.pumpFault a0 a1) := by
  unfold State.pumpFault
  refine keeps_ite _ ?_ ?_
  · refine State.pumpStop_keeps _ _ ?_
    exact h
  · exact h

theorem State.chanEnable_keeps {r : State} (a0 : State) (a1 : Nat) (a2 : Bool) (h : Keeps r a0) : Keeps r (State.chanEnable a0 a1 a2) := by
  unfold State.chanEnable
  refine keeps_ite _ ?_ ?_
  · extract_lets -merge -useContext +onlyGivenNames z0
    clear_value z0
    extract_lets -merge -useContext +onlyGivenNames z1
    have hz1 : Keeps r z1 := by
      unfold z1
      refine State.dropShot_keeps _ _ ?_
      refine State.clr_keeps _ _ ?_
      exact h
    clear_value z1
    refine State.evalHigh_keeps _ _ ?_
    refine State.evalAround_keeps _ _ ?_
    refine State.modChan_keeps _ _ _ ?_
    exact hz1
  · refine keeps_ite _ ?_ ?_
    · refine State.raise_keeps _ _ ?_
      exact h
    · refine keeps_ite _ ?_ ?_
      · exact h
      · extract_lets -merge -useContext +onlyGivenNames z2
        have hz2 : Keeps r z2 := by
          unfold z2
          refine State.modChan_keeps _ _ _ ?_
          refine State.raise_keeps _ _ ?_
          exact h
        clear_value z2
        refine State.evalAround_keeps _ _ ?_
        exact hz2

theorem State.dwellStart_keeps {r : State} (a0 : State) (a1 : Nat) (h : Keeps r a0) : Keeps r (State.dwellStart a0 a1) := by
  unfold State.dwellStart
  refine keeps_ite _ ?_ ?_
  · refine State.fault_keeps _ _ _ _ _ ?_
    exact h
  · refine State.raise_keeps _ _ ?_
    exact h

theorem State.freezeCore_keeps {r : State} (a0 : State) (a1 : Nat) (h : Keeps r a0) : Keeps r (State.freezeCore a0 a1) := by
  unfold State.freezeCore
  refine keeps_forN ?_ _ _ ?_
  · exact h
  · intro w0_0 w0_1 hw0
    refine keeps_ite _ ?_ ?_
    · refine State.dwellStart_keeps _ _ ?_
      refine State.raise_keeps _ _ ?_
      exact hw0
    · exact hw0

theorem State.dwellCore_keeps {r : State} (a0 : State) (a1 : Nat) (h : Keeps r a0) : Keeps r (State.dwellCore a0 a1) := by
  unfold State.dwellCore
  refine keeps_forN ?_ _ _ ?_
  · exact h
  · intro w0_0 w0_1 hw0
    refine keeps_ite _ ?_ ?_
    · refine State.dwellStart_keeps _ _ ?_
      exact hw0
    · exact hw0

theorem State.unfreeze_keeps {r : State} (a0 : State) (a1 : Nat) (h : Keeps r a0) : Keeps r (State.unfreeze a0 a1) := by
  unfold State.unfreeze
  extract_lets -merge -useContext +onlyGivenNames z0
  clear_value z0
  extract_lets -merge -useContext +onlyGivenNames z1
  have hz1 : Keeps r z1 := by
    unfold z1
    refine State.modChan_keeps _ _ _ ?_
    refine State.clr_keeps _ _ ?_
    exact h
  clear_value z1
  extract_lets -merge -useContext +onlyGivenNames z2
  have hz2 : Keeps r z2 := by
    unfold z2
    refine keeps_ite _ ?_ ?_
    · refine State.shotStop_keeps _ _ ?_
      exact hz1
    · exact hz1
  clear_value z2
  extract_lets -merge -useContext +onlyGivenNames z3
  have hz3 : Keeps r z3 := by
    unfold z3
    refine keeps_ite _ ?_ ?_
    · refine State.shotHeads_keeps _ _ ?_
      exact hz2
    · exact hz2
  clear_value z3
  refine State.evalAround_keeps _ _ ?_
  exact hz3

theorem State.thaw_keeps {r : State} (a0 : State) (a1 : Nat) (h : Keeps r a0) : Keeps r (State.thaw a0 a1) := by
  unfold State.thaw
  extract_lets -merge -useContext +onlyGivenNames z0
  have hz0 : Keeps r z0 := by
    unfold z0
    refine keeps_ite _ ?_ ?_
    · refine State.unfreeze_keeps _ _ ?_
      exact h
    · exact h
  clear_value z0
  refine keeps_ite _ ?_ ?_
  · refine State.clr_keeps _ _ ?_
    exact hz0
  · exact hz0

theorem State.thawCore_keeps {r : State} (a0 : State) (a1 : Nat) (h : Keeps r a0) : Keeps r (State.thawCore a0 a1) := by
  unfold State.thawCore
  refine keeps_forN ?_ _ _ ?_
  · exact h
  · intro w0_0 w0_1 hw0
    refine keeps_ite _ ?_ ?_
    · refine State.thaw_keeps _ _ ?_
      exact hw0
    · exact hw0

theorem State.dwellTouch_keeps {r : State} (a0 : State) (a1 : Nat) (a2 : Requester) (h : Keeps r a0) : Keeps r (State.dwellTouch a0 a1 a2) := by
  unfold State.dwellTouch
  refine keeps_ite _ ?_ ?_
  · refine State.clr_keeps _ _ ?_
    exact h
  · refine keeps_ite _ ?_ ?_
    · refine State.clr_keeps _ _ ?_
      exact h
    · exact h

theorem State.dutyTake_keeps {r : State} (a0 : State) (a1 : Nat) (h : Keeps r a0) : Keeps r (State.dutyTake a0 a1) := by
  unfold State.dutyTake
  refine keeps_ite _ ?_ ?_
  · split
    · refine keeps_ite _ ?_ ?_
      · refine State.modGang_keeps _ _ _ ?_
        exact h
      · exact h
    · exact h
  · exact h

theorem State.sendTriggers_keeps {r : State} (a0 : State) (a1 : Nat) (a2 : Nat) (a3 : Nat) (h : Keeps r a0) : Keeps r (State.sendTriggers a0 a1 a2 a3) := by
  unfold State.sendTriggers
  refine keeps_forN ?_ _ _ ?_
  · exact h
  · intro w0_0 w0_1 hw0
    refine keeps_ite _ ?_ ?_
    · refine keeps_pwr ?_ _ (fun y => y)
      exact hw0
    · exact hw0

theorem State.syncoutPulse_keeps {r : State} (a0 : State) (a1 : Nat) (h : Keeps r a0) : Keeps r (State.syncoutPulse a0 a1) := by
  unfold State.syncoutPulse
  refine keeps_ite _ ?_ ?_
  · extract_lets -merge -useContext +onlyGivenNames z0
    clear_value z0
    refine keeps_pwr ?_ _ (fun y => y)
    exact h
  · exact h

theorem State.startWindows_keeps {r : State} (a0 : State) (a1 : Nat) (a2 : Nat) (a3 : Nat) (a4 : Nat) (h : Keeps r a0) : Keeps r (State.startWindows a0 a1 a2 a3 a4) := by
  unfold State.startWindows
  extract_lets -merge -useContext +onlyGivenNames z0
  clear_value z0
  extract_lets -merge -useContext +onlyGivenNames z1
  clear_value z1
  extract_lets -merge -useContext +onlyGivenNames z2
  clear_value z2
  extract_lets -merge -useContext +onlyGivenNames z3
  clear_value z3
  extract_lets -merge -useContext +onlyGivenNames z4
  clear_value z4
  extract_lets -merge -useContext +onlyGivenNames z5
  have hz5 : Keeps r z5 := by
    unfold z5
    refine State.countK_keeps _ _ _ ?_
    exact h
  clear_value z5
  extract_lets -merge -useContext +onlyGivenNames z6
  clear_value z6
  extract_lets -merge -useContext +onlyGivenNames z7
  clear_value z7
  extract_lets -merge -useContext +onlyGivenNames z8
  clear_value z8
  extract_lets -merge -useContext +onlyGivenNames z9
  clear_value z9
  extract_lets -merge -useContext +onlyGivenNames z10
  clear_value z10
  refine State.modChan_keeps _ _ _ ?_
  exact hz5

theorem State.carrierStart_keeps {r : State} (a0 : State) (a1 : Nat) (h : Keeps r a0) : Keeps r (State.carrierStart a0 a1) := by
  unfold State.carrierStart
  extract_lets -merge -useContext +onlyGivenNames z0
  clear_value z0
  extract_lets -merge -useContext +onlyGivenNames z1
  have hz1 : Keeps r z1 := by
    unfold z1
    refine State.modChan_keeps _ _ _ ?_
    refine State.nextSet_keeps _ _ ?_
    exact h
  clear_value z1
  extract_lets -merge -useContext +onlyGivenNames z2
  clear_value z2
  extract_lets -merge -useContext +onlyGivenNames z3
  have hz3 : Keeps r z3 := by
    unfold z3
    refine State.dutyTake_keeps _ _ ?_
    exact hz1
  clear_value z3
  extract_lets -merge -useContext +onlyGivenNames z4
  clear_value z4
  extract_lets -merge -useContext +onlyGivenNames z5
  have hz5 : Keeps r z5 := by
    unfold z5
    refine keeps_ite _ ?_ ?_
    · exact hz3
    · refine State.startWindows_keeps _ _ _ _ _ ?_
      exact hz3
  clear_value z5
  extract_lets -merge -useContext +onlyGivenNames z6
  clear_value z6
  extract_lets -merge -useContext +onlyGivenNames z7
  have hz7 : Keeps r z7 := by
    unfold z7
    refine State.modChan_keeps _ _ _ ?_
    exact hz5
  clear_value z7
  extract_lets -merge -useContext +onlyGivenNames z8
  have hz8 : Keeps r z8 := by
    unfold z8
    refine keeps_ite _ ?_ ?_
    · refine State.burn_keeps _ ?_
      exact hz7
    · exact hz7
  clear_value z8
  extract_lets -merge -useContext +onlyGivenNames z9
  clear_value z9
  extract_lets -merge -useContext +onlyGivenNames z10
  have hz10 : Keeps r z10 := by
    unfold z10
    refine State.sendTriggers_keeps _ _ _ _ ?_
    exact hz8
  clear_value z10
  refine State.evalAround_keeps _ _ ?_
  refine State.syncoutPulse_keeps _ _ ?_
  exact hz10

theorem State.compareEdge_keeps {r : State} (a0 : State) (a1 : Nat) (h : Keeps r a0) : Keeps r (State.compareEdge a0 a1) := by
  unfold State.compareEdge
  split
  · exact h
  · refine keeps_ite _ ?_ ?_
    · refine State.modChan_keeps _ _ _ ?_
      exact h
    · extract_lets -merge -useContext +onlyGivenNames z0
      have hz0 : Keeps r z0 := by
        unfold z0
        refine State.modChan_keeps _ _ _ ?_
        exact h
      clear_value z0
      refine State.evalAround_keeps _ _ ?_
      exact hz0

theorem State.chanAction_keeps {r : State} (a0 : State) (a1 : State) (a2 : Nat) (a3 : Nat) (h : Keeps r a0) : Keeps r (State.chanAction a0 a1 a2 a3) := by
  unfold State.chanAction
  refine keeps_ite _ ?_ ?_
  · extract_lets -merge -useContext +onlyGivenNames z0
    clear_value z0
    extract_lets -merge -useContext +onlyGivenNames z1
    clear_value z1
    refine State.evalAround_keeps _ _ ?_
    refine State.modChan_keeps _ _ _ ?_
    exact h
  · exact h

theorem State.pulseSet_keeps {r : State} (a0 : State) (a1 : Nat) (h : Keeps r a0) : Keeps r (State.pulseSet a0 a1) := by
  unfold State.pulseSet
  refine keeps_ite _ ?_ ?_
  · refine State.modChan_keeps _ _ _ ?_
    refine State.setB_keeps _ _ _ ?_
    exact h
  · exact h

theorem State.enRise_keeps {r : State} (a0 : State) (a1 : Nat) (h : Keeps r a0) : Keeps r (State.enRise a0 a1) := by
  unfold State.enRise
  extract_lets -merge -useContext +onlyGivenNames z0
  clear_value z0
  extract_lets -merge -useContext +onlyGivenNames z1
  clear_value z1
  refine keeps_ite _ ?_ ?_
  · refine State.syncGroupsOf_keeps _ _ ?_
    refine State.set_keeps _ _ _ ?_
    refine State.raise_keeps _ _ ?_
    exact h
  · exact h

theorem State.gateSense_keeps {r : State} (a0 : State) (a1 : Nat) (a2 : Bool) (a3 : Bool) (h : Keeps r a0) : Keeps r (State.gateSense a0 a1 a2 a3) := by
  unfold State.gateSense
  extract_lets -merge -useContext +onlyGivenNames z0
  have hz0 : Keeps r z0 := by
    unfold z0
    refine State.setB_keeps _ _ _ ?_
    exact h
  clear_value z0
  refine keeps_ite _ ?_ ?_
  · refine State.fault_keeps _ _ _ _ _ ?_
    exact hz0
  · exact hz0

theorem State.goffTimeout_keeps {r : State} (a0 : State) (a1 : Nat) (h : Keeps r a0) : Keeps r (State.goffTimeout a0 a1) := by
  unfold State.goffTimeout
  extract_lets -merge -useContext +onlyGivenNames z0
  clear_value z0
  refine keeps_ite _ ?_ ?_
  · refine State.fault_keeps _ _ _ _ _ ?_
    exact h
  · exact h

theorem State.gonTimeout_keeps {r : State} (a0 : State) (a1 : Nat) (h : Keeps r a0) : Keeps r (State.gonTimeout a0 a1) := by
  unfold State.gonTimeout
  extract_lets -merge -useContext +onlyGivenNames z0
  clear_value z0
  refine keeps_ite _ ?_ ?_
  · refine State.fault_keeps _ _ _ _ _ ?_
    exact h
  · exact h

end Sys2Proof.Machine
end

