-- ==== Sys2Proof/Laws/KeepsOps2.lean ====
section
/-! SUPPORT. Every operation of the files Stepper, Ident, AxisBlock, RegAcc, Belay keeps what `Keeps` says: the queue, canonical stores, the free
counter and the fuses. -/

namespace Sys2Proof.Machine

theorem State.microstep_keeps {r : State} (a0 : State) (a1 : Nat) (h : Keeps r a0) : Keeps r (State.microstep a0 a1) := by
  unfold State.microstep
  extract_lets -merge -useContext +onlyGivenNames z0
  clear_value z0
  extract_lets -merge -useContext +onlyGivenNames z1
  clear_value z1
  refine keeps_ite _ ?_ ?_
  · exact h
  · refine keeps_ite _ ?_ ?_
    · refine State.setGang_keeps _ _ _ ?_
      exact h
    · extract_lets -merge -useContext +onlyGivenNames z2
      clear_value z2
      extract_lets -merge -useContext +onlyGivenNames z3
      clear_value z3
      extract_lets -merge -useContext +onlyGivenNames z4
      have hz4 : Keeps r z4 := by
        unfold z4
        refine State.set_keeps _ _ _ ?_
        exact h
      clear_value z4
      extract_lets -merge -useContext +onlyGivenNames z5
      have hz5 : Keeps r z5 := by
        unfold z5
        refine State.clr_keeps _ _ ?_
        exact hz4
      clear_value z5
      refine State.setGang_keeps _ _ _ ?_
      exact hz5

theorem State.holdTimeout_keeps {r : State} (a0 : State) (a1 : Nat) (h : Keeps r a0) : Keeps r (State.holdTimeout a0 a1) := by
  unfold State.holdTimeout
  refine keeps_ite _ ?_ ?_
  · refine State.raise_keeps _ _ ?_
    exact h
  · exact h

theorem State.segStart_keeps {r : State} (a0 : State) (a1 : Nat) (a2 : Nat) (h : Keeps r a0) : Keeps r (State.segStart a0 a1 a2) := by
  unfold State.segStart
  extract_lets -merge -useContext +onlyGivenNames z0
  clear_value z0
  extract_lets -merge -useContext +onlyGivenNames z1
  clear_value z1
  split
  · exact h
  · refine keeps_ite _ ?_ ?_
    · exact h
    · extract_lets -merge -useContext +onlyGivenNames z2
      have hz2 : Keeps r z2 := by
        unfold z2
        refine State.setGang_keeps _ _ _ ?_
        exact h
      clear_value z2
      refine keeps_ite _ ?_ ?_
      · exact hz2
      · split
        · extract_lets -merge -useContext +onlyGivenNames z3
          clear_value z3
          extract_lets -merge -useContext +onlyGivenNames z4
          clear_value z4
          extract_lets -merge -useContext +onlyGivenNames z5
          clear_value z5
          extract_lets -merge -useContext +onlyGivenNames z6
          clear_value z6
          extract_lets -merge -useContext +onlyGivenNames z7
          have hz7 : Keeps r z7 := by
            unfold z7
            refine keeps_ite _ ?_ ?_
            · refine State.raise_keeps _ _ ?_
              exact hz2
            · exact hz2
          clear_value z7
          extract_lets -merge -useContext +onlyGivenNames z8
          clear_value z8
          extract_lets -merge -useContext +onlyGivenNames z9
          have hz9 : Keeps r z9 := by
            unfold z9
            refine State.set_keeps _ _ _ ?_
            exact hz7
          clear_value z9
          extract_lets -merge -useContext +onlyGivenNames z10
          have hz10 : Keeps r z10 := by
            unfold z10
            refine State.modGang_keeps _ _ _ ?_
            exact hz9
          clear_value z10
          refine keeps_forEach ?_ _ _ ?_
          · exact hz10
          · intro w11_0 w11_1 hw11
            refine State.evalChan_keeps _ _ ?_
            exact hw11
        · extract_lets -merge -useContext +onlyGivenNames z12
          clear_value z12
          extract_lets -merge -useContext +onlyGivenNames z13
          clear_value z13
          extract_lets -merge -useContext +onlyGivenNames z14
          have hz14 : Keeps r z14 := by
            unfold z14
            refine State.modGang_keeps _ _ _ ?_
            exact hz2
          clear_value z14
          refine keeps_forEach ?_ _ _ ?_
          · exact hz14
          · intro w15_0 w15_1 hw15
            refine State.evalChan_keeps _ _ ?_
            exact hw15

theorem State.dirCapture_keeps {r : State} (a0 : State) (a1 : Nat) (a2 : Nat) (a3 : Bool) (h : Keeps r a0) : Keeps r (State.dirCapture a0 a1 a2 a3) := by
  unfold State.dirCapture
  extract_lets -merge -useContext +onlyGivenNames z0
  clear_value z0
  extract_lets -merge -useContext +onlyGivenNames z1
  clear_value z1
  refine State.modGang_keeps _ _ _ ?_
  exact h

theorem State.stepCapture_keeps {r : State} (a0 : State) (a1 : Nat) (a2 : Nat) (h : Keeps r a0) : Keeps r (State.stepCapture a0 a1 a2) := by
  unfold State.stepCapture
  extract_lets -merge -useContext +onlyGivenNames z0
  clear_value z0
  extract_lets -merge -useContext +onlyGivenNames z1
  clear_value z1
  refine keeps_ite _ ?_ ?_
  · exact h
  · extract_lets -merge -useContext +onlyGivenNames z2
    clear_value z2
    extract_lets -merge -useContext +onlyGivenNames z3
    clear_value z3
    extract_lets -merge -useContext +onlyGivenNames z4
    clear_value z4
    extract_lets -merge -useContext +onlyGivenNames z5
    have hz5 : Keeps r z5 := by
      unfold z5
      refine keeps_ite _ ?_ ?_
      · refine State.burn_keeps _ ?_
        exact h
      · exact h
    clear_value z5
    extract_lets -merge -useContext +onlyGivenNames z6
    clear_value z6
    extract_lets -merge -useContext +onlyGivenNames z7
    clear_value z7
    extract_lets -merge -useContext +onlyGivenNames z8
    clear_value z8
    extract_lets -merge -useContext +onlyGivenNames z9
    clear_value z9
    extract_lets -merge -useContext +onlyGivenNames z10
    clear_value z10
    extract_lets -merge -useContext +onlyGivenNames z11
    clear_value z11
    extract_lets -merge -useContext +onlyGivenNames z12
    clear_value z12
    extract_lets -merge -useContext +onlyGivenNames z13
    clear_value z13
    extract_lets -merge -useContext +onlyGivenNames z14
    clear_value z14
    extract_lets -merge -useContext +onlyGivenNames z15
    extract_lets -merge -useContext +onlyGivenNames z16
    clear_value z16
    extract_lets -merge -useContext +onlyGivenNames z17
    have hz17 : Keeps r z17 := by
      unfold z17
      refine keeps_ite _ ?_ ?_
      · refine State.raise_keeps _ _ ?_
        exact hz5
      · exact hz5
    clear_value z17
    extract_lets -merge -useContext +onlyGivenNames z18
    have hz18 : Keeps r z18 := by
      unfold z18
      refine State.set_keeps _ _ _ ?_
      exact hz17
    clear_value z18
    extract_lets -merge -useContext +onlyGivenNames z19
    have hz19 : Keeps r z19 := by
      unfold z19
      refine State.setGang_keeps _ _ _ ?_
      exact hz18
    clear_value z19
    refine keeps_ite _ ?_ ?_
    · refine State.modGang_keeps _ _ _ ?_
      exact hz19
    · exact hz19

theorem State.evalPhase_keeps {r : State} (a0 : State) (a1 : Nat) (h : Keeps r a0) : Keeps r (State.evalPhase a0 a1) := by
  unfold State.evalPhase
  refine State.evalChan_keeps _ _ ?_
  refine State.evalChan_keeps _ _ ?_
  exact h

theorem State.chopGo_keeps {r : State} (a0 : State) (a1 : Nat) (a2 : Nat) (h : Keeps r a0) : Keeps r (State.chopGo a0 a1 a2) := by
  unfold State.chopGo
  refine State.modChan_keeps _ _ _ ?_
  refine State.set_keeps _ _ _ ?_
  exact h

theorem State.chopDecay_keeps {r : State} (a0 : State) (a1 : Nat) (h : Keeps r a0) : Keeps r (State.chopDecay a0 a1) := by
  unfold State.chopDecay
  refine State.bump_keeps _ _ ?_
  refine State.chopGo_keeps _ _ _ ?_
  exact h

theorem State.chopSample_keeps {r : State} (a0 : State) (a1 : Nat) (a2 : Nat) (h : Keeps r a0) : Keeps r (State.chopSample a0 a1 a2) := by
  unfold State.chopSample
  refine keeps_ite _ ?_ ?_
  · exact h
  · extract_lets -merge -useContext +onlyGivenNames z0
    clear_value z0
    extract_lets -merge -useContext +onlyGivenNames z1
    clear_value z1
    extract_lets -merge -useContext +onlyGivenNames z2
    clear_value z2
    extract_lets -merge -useContext +onlyGivenNames z3
    clear_value z3
    extract_lets -merge -useContext +onlyGivenNames z4
    clear_value z4
    extract_lets -merge -useContext +onlyGivenNames z5
    clear_value z5
    extract_lets -merge -useContext +onlyGivenNames z6
    clear_value z6
    extract_lets -merge -useContext +onlyGivenNames z7
    clear_value z7
    extract_lets -merge -useContext +onlyGivenNames z8
    clear_value z8
    extract_lets -merge -useContext +onlyGivenNames z9
    have hz9 : Keeps r z9 := by
      unfold z9
      refine keeps_ite _ ?_ ?_
      · refine State.modChan_keeps _ _ _ ?_
        exact h
      · exact h
    clear_value z9
    extract_lets -merge -useContext +onlyGivenNames z10
    clear_value z10
    extract_lets -merge -useContext +onlyGivenNames z11
    clear_value z11
    extract_lets -merge -useContext +onlyGivenNames z12
    have hz12 : Keeps r z12 := by
      unfold z12
      refine keeps_ite _ ?_ ?_
      · exact hz9
      · refine keeps_ite _ ?_ ?_
        · refine keeps_ite _ ?_ ?_
          · exact hz9
          · refine State.chopGo_keeps _ _ _ ?_
            exact hz9
        · split
          · refine State.modChan_keeps _ _ _ ?_
            refine State.chopGo_keeps _ _ _ ?_
            exact hz9
          · refine keeps_ite _ ?_ ?_
            · refine State.chopGo_keeps _ _ _ ?_
              exact hz9
            · refine keeps_ite _ ?_ ?_
              · refine State.chopDecay_keeps _ _ ?_
                exact hz9
              · exact hz9
          · refine keeps_ite _ ?_ ?_
            · refine State.chopGo_keeps _ _ _ ?_
              exact hz9
            · refine keeps_ite _ ?_ ?_
              · refine State.chopGo_keeps _ _ _ ?_
                exact hz9
              · exact hz9
          · refine keeps_ite _ ?_ ?_
            · refine State.modChan_keeps _ _ _ ?_
              refine State.chopGo_keeps _ _ _ ?_
              exact hz9
            · exact hz9
    clear_value z12
    refine State.evalPhase_keeps _ _ ?_
    refine State.burn_keeps _ ?_
    exact hz12

theorem State.fastEnd_keeps {r : State} (a0 : State) (a1 : Nat) (h : Keeps r a0) : Keeps r (State.fastEnd a0 a1) := by
  unfold State.fastEnd
  refine keeps_ite _ ?_ ?_
  · refine State.evalPhase_keeps _ _ ?_
    refine State.modChan_keeps _ _ _ ?_
    exact h
  · exact h

theorem State.chopCycle_keeps {r : State} (a0 : State) (a1 : Nat) (h : Keeps r a0) : Keeps r (State.chopCycle a0 a1) := by
  unfold State.chopCycle
  extract_lets -merge -useContext +onlyGivenNames z0
  clear_value z0
  extract_lets -merge -useContext +onlyGivenNames z1
  clear_value z1
  extract_lets -merge -useContext +onlyGivenNames z2
  clear_value z2
  extract_lets -merge -useContext +onlyGivenNames z3
  clear_value z3
  extract_lets -merge -useContext +onlyGivenNames z4
  have hz4 : Keeps r z4 := by
    unfold z4
    refine State.set_keeps _ _ _ ?_
    refine State.set_keeps _ _ _ ?_
    exact h
  clear_value z4
  refine State.modChan_keeps _ _ _ ?_
  exact hz4

theorem State.gangBoundary_keeps {r : State} (a0 : State) (a1 : Nat) (h : Keeps r a0) : Keeps r (State.gangBoundary a0 a1) := by
  unfold State.gangBoundary
  refine keeps_forN ?_ _ _ ?_
  · exact h
  · intro w0_0 w0_1 hw0
    refine keeps_ite _ ?_ ?_
    · refine State.segStart_keeps _ _ _ ?_
      refine State.chopCycle_keeps _ _ ?_
      refine State.chopCycle_keeps _ _ ?_
      exact hw0
    · exact hw0

theorem State.encErr_keeps {r : State} (a0 : State) (a1 : Nat) (a2 : Gang) (h : Keeps r a0) : Keeps r (State.encErr a0 a1 a2) := by
  unfold State.encErr
  refine State.pcReport_keeps _ _ _ _ ?_
  refine State.raise_keeps _ _ ?_
  refine State.setGang_keeps _ _ _ ?_
  exact h

theorem State.encoderEdge_keeps {r : State} (a0 : State) (a1 : Nat) (a2 : Bool) (a3 : Bool) (h : Keeps r a0) : Keeps r (State.encoderEdge a0 a1 a2 a3) := by
  unfold State.encoderEdge
  refine keeps_ite _ ?_ ?_
  · exact h
  · extract_lets -merge -useContext +onlyGivenNames z0
    clear_value z0
    extract_lets -merge -useContext +onlyGivenNames z1
    clear_value z1
    extract_lets -merge -useContext +onlyGivenNames z2
    clear_value z2
    extract_lets -merge -useContext +onlyGivenNames z3
    clear_value z3
    refine keeps_ite _ ?_ ?_
    · refine State.encErr_keeps _ _ _ ?_
      exact h
    · refine keeps_ite _ ?_ ?_
      · exact h
      · extract_lets -merge -useContext +onlyGivenNames z4
        clear_value z4
        extract_lets -merge -useContext +onlyGivenNames z5
        clear_value z5
        extract_lets -merge -useContext +onlyGivenNames z6
        clear_value z6
        refine State.setGang_keeps _ _ _ ?_
        exact h

theorem State.overcurrent_keeps {r : State} (a0 : State) (a1 : Nat) (h : Keeps r a0) : Keeps r (State.overcurrent a0 a1) := by
  unfold State.overcurrent
  extract_lets -merge -useContext +onlyGivenNames z0
  clear_value z0
  extract_lets -merge -useContext +onlyGivenNames z1
  have hz1 : ∀ y0, Keeps r y0 → Keeps r (z1 y0) := by
    unfold z1
    intro w2_0 hw2
    refine State.fault_keeps _ _ _ _ _ ?_
    exact hw2
  clear_value z1
  refine keeps_ite _ ?_ ?_
  · exact h
  · refine keeps_ite _ ?_ ?_
    · refine hz1 _ ?_
      exact h
    · refine keeps_ite _ ?_ ?_
      · extract_lets -merge -useContext +onlyGivenNames z3
        have hz3 : Keeps r z3 := by
          unfold z3
          refine State.count_keeps _ _ ?_
          exact h
        clear_value z3
        split
        · refine State.evalAround_keeps _ _ ?_
          refine State.modChan_keeps _ _ _ ?_
          exact hz3
        · refine keeps_ite _ ?_ ?_
          · refine State.evalAround_keeps _ _ ?_
            refine State.modChan_keeps _ _ _ ?_
            exact hz3
          · extract_lets -merge -useContext +onlyGivenNames z4
            clear_value z4
            refine State.holdPeriod_keeps _ _ ?_
            refine State.modChan_keeps _ _ _ ?_
            exact hz3
      · refine keeps_ite _ ?_ ?_
        · refine State.evalPhase_keeps _ _ ?_
          refine State.count_keeps _ _ ?_
          refine State.chopDecay_keeps _ _ ?_
          exact h
        · exact h

theorem State.cutPeriod_keeps {r : State} (a0 : State) (a1 : Nat) (a2 : Nat) (h : Keeps r a0) : Keeps r (State.cutPeriod a0 a1 a2) := by
  unfold State.cutPeriod
  refine keeps_ite _ ?_ ?_
  · exact h
  · extract_lets -merge -useContext +onlyGivenNames z0
    clear_value z0
    extract_lets -merge -useContext +onlyGivenNames z1
    clear_value z1
    extract_lets -merge -useContext +onlyGivenNames z2
    clear_value z2
    refine State.setChan_keeps _ _ _ ?_
    exact h

theorem State.syncinEdge_keeps {r : State} (a0 : State) (a1 : Nat) (h : Keeps r a0) : Keeps r (State.syncinEdge a0 a1) := by
  unfold State.syncinEdge
  refine keeps_forN ?_ _ _ ?_
  · exact h
  · intro w0_0 w0_1 hw0
    extract_lets -merge -useContext +onlyGivenNames z1
    clear_value z1
    refine keeps_ite _ ?_ ?_
    · extract_lets -merge -useContext +onlyGivenNames z2
      clear_value z2
      refine State.cutPeriod_keeps _ _ _ ?_
      refine State.modChan_keeps _ _ _ ?_
      exact hw0
    · exact hw0

theorem State.adcConvert_keeps {r : State} (a0 : State) (a1 : Nat) (a2 : Nat) (a3 : Nat) (h : Keeps r a0) : Keeps r (State.adcConvert a0 a1 a2 a3) := by
  unfold State.adcConvert
  extract_lets -merge -useContext +onlyGivenNames z0
  clear_value z0
  refine keeps_pwr ?_ _ (fun y => y)
  exact h

theorem execCarrierPeriodStart_keeps {r : State} (a0 : Fin 64) (a1 : State) (h : Keeps r a1) (t : State) (e : execCarrierPeriodStart a0 a1 = .next t) : Keeps r t := by
  unfold execCarrierPeriodStart at e
  injection e with e
  subst e
  repeat' (first | assumption | intro _ | with_reducible apply State.carrierStart_keeps | with_reducible apply keeps_ite | split | dsimp only)

theorem execSyncinEdge_keeps {r : State} (a0 : Fin 4) (a1 : State) (h : Keeps r a1) (t : State) (e : execSyncinEdge a0 a1 = .next t) : Keeps r t := by
  unfold execSyncinEdge at e
  injection e with e
  subst e
  repeat' (first | assumption | intro _ | with_reducible apply State.syncinEdge_keeps | with_reducible apply keeps_ite | split | dsimp only)

theorem execSyncLoss_keeps {r : State} (a0 : Fin 64) (a1 : State) (h : Keeps r a1) (t : State) (e : execSyncLoss a0 a1 = .next t) : Keeps r t := by
  unfold execSyncLoss at e
  injection e with e
  subst e
  repeat' (first | assumption | intro _ | with_reducible apply State.raise_keeps | with_reducible apply keeps_ite | split | dsimp only)

theorem execSyncoutPulseEnd_keeps {r : State} (a0 : Fin 4) (a1 : State) (h : Keeps r a1) (t : State) (e : execSyncoutPulseEnd a0 a1 = .next t) : Keeps r t := by
  unfold execSyncoutPulseEnd at e
  injection e with e
  subst e
  exact keeps_pwr h _ (fun y => y)

theorem execCompareEdge_keeps {r : State} (a0 : Fin 64) (a1 : State) (h : Keeps r a1) (t : State) (e : execCompareEdge a0 a1 = .next t) : Keeps r t := by
  unfold execCompareEdge at e
  injection e with e
  subst e
  repeat' (first | assumption | intro _ | with_reducible apply State.compareEdge_keeps | with_reducible apply keeps_ite | split | dsimp only)

theorem execPulseSet_keeps {r : State} (a0 : Fin 64) (a1 : State) (h : Keeps r a1) (t : State) (e : execPulseSet a0 a1 = .next t) : Keeps r t := by
  unfold execPulseSet at e
  injection e with e
  subst e
  repeat' (first | assumption | intro _ | with_reducible apply State.pulseSet_keeps | with_reducible apply keeps_ite | split | dsimp only)

theorem execEnRise_keeps {r : State} (a0 : Fin 64) (a1 : State) (h : Keeps r a1) (t : State) (e : execEnRise a0 a1 = .next t) : Keeps r t := by
  unfold execEnRise at e
  injection e with e
  subst e
  repeat' (first | assumption | intro _ | with_reducible apply State.enRise_keeps | with_reducible apply keeps_ite | split | dsimp only)

theorem execGoffTimeout_keeps {r : State} (a0 : Fin 64) (a1 : State) (h : Keeps r a1) (t : State) (e : execGoffTimeout a0 a1 = .next t) : Keeps r t := by
  unfold execGoffTimeout at e
  injection e with e
  subst e
  repeat' (first | assumption | intro _ | with_reducible apply State.goffTimeout_keeps | with_reducible apply keeps_ite | split | dsimp only)

theorem execGonTimeout_keeps {r : State} (a0 : Fin 64) (a1 : State) (h : Keeps r a1) (t : State) (e : execGonTimeout a0 a1 = .next t) : Keeps r t := by
  unfold execGonTimeout at e
  injection e with e
  subst e
  repeat' (first | assumption | intro _ | with_reducible apply State.gonTimeout_keeps | with_reducible apply keeps_ite | split | dsimp only)

theorem execOvercurrentDetect_keeps {r : State} (a0 : Fin 64) (a1 : State) (h : Keeps r a1) (t : State) (e : execOvercurrentDetect a0 a1 = .next t) : Keeps r t := by
  unfold execOvercurrentDetect at e
  injection e with e
  subst e
  repeat' (first | assumption | intro _ | with_reducible apply State.overcurrent_keeps | with_reducible apply keeps_ite | split | dsimp only)

theorem execAdcConversion_keeps {r : State} (a0 : Fin 16) (a1 : Fin 80) (a2 : BitVec 16) (a3 : State) (h : Keeps r a3) (t : State) (e : execAdcConversion a0 a1 a2 a3 = .next t) : Keeps r t := by
  unfold execAdcConversion at e
  injection e with e
  subst e
  repeat' (first | assumption | intro _ | with_reducible apply State.adcConvert_keeps | with_reducible apply keeps_ite | split | dsimp only)

theorem execShotStart_keeps {r : State} (a0 : Fin 64) (a1 : State) (h : Keeps r a1) (t : State) (e : execShotStart a0 a1 = .next t) : Keeps r t := by
  unfold execShotStart at e
  injection e with e
  subst e
  repeat' (first | assumption | intro _ | with_reducible apply State.shotStart_keeps | with_reducible apply keeps_ite | split | dsimp only)

theorem execDeferredShotStart_keeps {r : State} (a0 : Fin 16) (a1 : State) (h : Keeps r a1) (t : State) (e : execDeferredShotStart a0 a1 = .next t) : Keeps r t := by
  unfold execDeferredShotStart at e
  injection e with e
  subst e
  repeat' (first | assumption | intro _ | with_reducible apply State.deferredStart_keeps | with_reducible apply keeps_ite | split | dsimp only)

theorem execShotPeakEnd_keeps {r : State} (a0 : Fin 64) (a1 : State) (h : Keeps r a1) (t : State) (e : execShotPeakEnd a0 a1 = .next t) : Keeps r t := by
  unfold execShotPeakEnd at e
  injection e with e
  subst e
  repeat' (first | assumption | intro _ | with_reducible apply State.shotPeakEnd_keeps | with_reducible apply keeps_ite | split | dsimp only)

theorem execHoldPeriodStart_keeps {r : State} (a0 : Fin 64) (a1 : State) (h : Keeps r a1) (t : State) (e : execHoldPeriodStart a0 a1 = .next t) : Keeps r t := by
  unfold execHoldPeriodStart at e
  injection e with e
  subst e
  repeat' (first | assumption | intro _ | with_reducible apply State.holdPeriod_keeps | with_reducible apply keeps_ite | split | dsimp only)

theorem execShotEnd_keeps {r : State} (a0 : Fin 64) (a1 : State) (h : Keeps r a1) (t : State) (e : execShotEnd a0 a1 = .next t) : Keeps r t := by
  unfold execShotEnd at e
  injection e with e
  subst e
  repeat' (first | assumption | intro _ | with_reducible apply State.shotEnd_keeps | with_reducible apply keeps_ite | split | dsimp only)

theorem execChargePumpFault_keeps {r : State} (a0 : Fin 16) (a1 : State) (h : Keeps r a1) (t : State) (e : execChargePumpFault a0 a1 = .next t) : Keeps r t := by
  unfold execChargePumpFault at e
  injection e with e
  subst e
  repeat' (first | assumption | intro _ | with_reducible apply State.pumpFault_keeps | with_reducible apply keeps_ite | split | dsimp only)

theorem execHaltDwellExpiry_keeps {r : State} (a0 : Fin 64) (a1 : State) (h : Keeps r a1) (t : State) (e : execHaltDwellExpiry a0 a1 = .next t) : Keeps r t := by
  unfold execHaltDwellExpiry at e
  injection e with e
  subst e
  repeat' (first | assumption | intro _ | with_reducible apply State.fault_keeps | with_reducible apply State.clr_keeps | with_reducible apply keeps_ite | split | dsimp only)

theorem execMicrostep_keeps {r : State} (a0 : Fin 16) (a1 : State) (h : Keeps r a1) (t : State) (e : execMicrostep a0 a1 = .next t) : Keeps r t := by
  unfold execMicrostep at e
  injection e with e
  subst e
  repeat' (first | assumption | intro _ | with_reducible apply State.microstep_keeps | with_reducible apply keeps_ite | split | dsimp only)

theorem execHoldCurrentTimeout_keeps {r : State} (a0 : Fin 16) (a1 : State) (h : Keeps r a1) (t : State) (e : execHoldCurrentTimeout a0 a1 = .next t) : Keeps r t := by
  unfold execHoldCurrentTimeout at e
  injection e with e
  subst e
  repeat' (first | assumption | intro _ | with_reducible apply State.holdTimeout_keeps | with_reducible apply keeps_ite | split | dsimp only)

theorem execChopperSample_keeps {r : State} (a0 : Fin 64) (a1 : BitVec 16) (a2 : State) (h : Keeps r a2) (t : State) (e : execChopperSample a0 a1 a2 = .next t) : Keeps r t := by
  unfold execChopperSample at e
  injection e with e
  subst e
  repeat' (first | assumption | intro _ | with_reducible apply State.chopSample_keeps | with_reducible apply keeps_ite | split | dsimp only)

theorem execFastDecayEnd_keeps {r : State} (a0 : Fin 64) (a1 : State) (h : Keeps r a1) (t : State) (e : execFastDecayEnd a0 a1 = .next t) : Keeps r t := by
  unfold execFastDecayEnd at e
  injection e with e
  subst e
  repeat' (first | assumption | intro _ | with_reducible apply State.fastEnd_keeps | with_reducible apply keeps_ite | split | dsimp only)

theorem execEncoderEdge_keeps {r : State} (a0 : Fin 16) (a1 : Bool) (a2 : Bool) (a3 : State) (h : Keeps r a3) (t : State) (e : execEncoderEdge a0 a1 a2 a3 = .next t) : Keeps r t := by
  unfold execEncoderEdge at e
  injection e with e
  subst e
  repeat' (first | assumption | intro _ | with_reducible apply State.encoderEdge_keeps | with_reducible apply keeps_ite | split | dsimp only)

theorem State.identStore_keeps {r : State} (a0 : State) (a1 : Nat) (a2 : Nat) (a3 : List Byte) (h : Keeps r a0) : Keeps r (State.identStore a0 a1 a2 a3) := by
  unfold State.identStore
  extract_lets -merge -useContext +onlyGivenNames z0
  clear_value z0
  refine keeps_ite _ ?_ ?_
  · refine State.store_keeps _ _ _ ?_
    exact h
  · refine State.engRefused_keeps _ _ _ _ _ ?_
    exact h

theorem State.identHeader_keeps {r : State} (a0 : State) (a1 : Nat) (a2 : Nat) (a3 : Nat) (h : Keeps r a0) : Keeps r (State.identHeader a0 a1 a2 a3) := by
  unfold State.identHeader
  extract_lets -merge -useContext +onlyGivenNames z0
  clear_value z0
  refine State.identStore_keeps _ _ _ _ ?_
  exact h

theorem State.identRecord_keeps {r : State} (a0 : State) (a1 : Nat) (a2 : Bool) (h : Keeps r a0) : Keeps r (State.identRecord a0 a1 a2) := by
  unfold State.identRecord
  extract_lets -merge -useContext +onlyGivenNames z0
  clear_value z0
  extract_lets -merge -useContext +onlyGivenNames z1
  clear_value z1
  refine State.identStore_keeps _ _ _ _ ?_
  exact h

theorem State.identAbort_keeps {r : State} (a0 : State) (a1 : Nat) (a2 : Nat) (h : Keeps r a0) : Keeps r (State.identAbort a0 a1 a2) := by
  unfold State.identAbort
  refine keeps_ite _ ?_ ?_
  · refine State.clr_keeps _ _ ?_
    refine State.identHeader_keeps _ _ _ _ ?_
    refine State.identRecord_keeps _ _ _ ?_
    exact h
  · exact h

theorem State.identTaken_keeps {r : State} (a0 : State) (a1 : Nat) (h : Keeps r a0) : Keeps r (State.identTaken a0 a1) := by
  unfold State.identTaken
  refine State.clr_keeps _ _ ?_
  exact h

theorem State.identStart_keeps {r : State} (a0 : State) (a1 : Nat) (h : Keeps r a0) : Keeps r (State.identStart a0 a1) := by
  unfold State.identStart
  extract_lets -merge -useContext +onlyGivenNames z0
  clear_value z0
  extract_lets -merge -useContext +onlyGivenNames z1
  have hz1 : Keeps r z1 := by
    unfold z1
    refine State.modAx_keeps _ _ _ ?_
    exact h
  clear_value z1
  refine State.identHeader_keeps _ _ _ _ ?_
  refine State.raise_keeps _ _ ?_
  exact hz1

theorem State.identStepEnd_keeps {r : State} (a0 : State) (a1 : Nat) (h : Keeps r a0) : Keeps r (State.identStepEnd a0 a1) := by
  unfold State.identStepEnd
  extract_lets -merge -useContext +onlyGivenNames z0
  have hz0 : Keeps r z0 := by
    unfold z0
    refine State.identRecord_keeps _ _ _ ?_
    exact h
  clear_value z0
  extract_lets -merge -useContext +onlyGivenNames z1
  clear_value z1
  extract_lets -merge -useContext +onlyGivenNames z2
  clear_value z2
  refine keeps_ite _ ?_ ?_
  · extract_lets -merge -useContext +onlyGivenNames z3
    have hz3 : Keeps r z3 := by
      unfold z3
      refine State.modAx_keeps _ _ _ ?_
      exact hz0
    clear_value z3
    extract_lets -merge -useContext +onlyGivenNames z4
    have hz4 : Keeps r z4 := by
      unfold z4
      refine State.modAx_keeps _ _ _ ?_
      refine State.clr_keeps _ _ ?_
      refine State.identHeader_keeps _ _ _ _ ?_
      exact hz3
    clear_value z4
    refine keeps_ite _ ?_ ?_
    · refine State.setMode_keeps _ _ _ ?_
      exact hz4
    · exact hz4
  · extract_lets -merge -useContext +onlyGivenNames z5
    have hz5 : Keeps r z5 := by
      unfold z5
      refine State.modAx_keeps _ _ _ ?_
      exact hz0
    clear_value z5
    refine State.identHeader_keeps _ _ _ _ ?_
    exact hz5

theorem State.identLost_keeps {r : State} (a0 : State) (a1 : Nat) (a2 : Nat) (h : Keeps r a0) : Keeps r (State.identLost a0 a1 a2) := by
  unfold State.identLost
  extract_lets -merge -useContext +onlyGivenNames z0
  clear_value z0
  refine keeps_ite _ ?_ ?_
  · exact h
  · refine State.modAx_keeps _ _ _ ?_
    exact h

theorem State.identAdvance_keeps {r : State} (a0 : State) (a1 : Nat) (a2 : Nat) (h : Keeps r a0) : Keeps r (State.identAdvance a0 a1 a2) := by
  unfold State.identAdvance
  extract_lets -merge -useContext +onlyGivenNames z0
  clear_value z0
  refine State.modAx_keeps _ _ _ ?_
  exact h

theorem State.identSample_keeps {r : State} (a0 : State) (a1 : Nat) (a2 : Nat) (a3 : Word) (a4 : Word) (a5 : Bool) (a6 : Bool) (h : Keeps r a0) : Keeps r (State.identSample a0 a1 a2 a3 a4 a5 a6) := by
  unfold State.identSample
  extract_lets -merge -useContext +onlyGivenNames z0
  clear_value z0
  refine keeps_ite _ ?_ ?_
  · refine State.modAx_keeps _ _ _ ?_
    exact h
  · extract_lets -merge -useContext +onlyGivenNames z1
    clear_value z1
    extract_lets -merge -useContext +onlyGivenNames z2
    have hz2 : Keeps r z2 := by
      unfold z2
      refine keeps_ite _ ?_ ?_
      · refine State.modAx_keeps _ _ _ ?_
        exact h
      · refine State.identLost_keeps _ _ _ ?_
        exact h
    clear_value z2
    refine keeps_ite _ ?_ ?_
    · refine State.identStepEnd_keeps _ _ ?_
      exact hz2
    · exact hz2

theorem State.identActivation_keeps {r : State} (a0 : State) (a1 : Nat) (a2 : Nat) (a3 : Nat) (a4 : Word) (a5 : Word) (a6 : Bool) (a7 : Bool) (h : Keeps r a0) : Keeps r (State.identActivation a0 a1 a2 a3 a4 a5 a6 a7) := by
  unfold State.identActivation
  extract_lets -merge -useContext +onlyGivenNames z0
  clear_value z0
  refine State.identAdvance_keeps _ _ _ ?_
  refine State.identSample_keeps _ _ _ _ _ _ _ ?_
  refine State.identLost_keeps _ _ _ ?_
  exact h

theorem execStepTimeout_keeps {r : State} (a0 : Fin 256) (a1 : State) (h : Keeps r a1) (t : State) (e : execStepTimeout a0 a1 = .next t) : Keeps r t := by
  unfold execStepTimeout at e
  injection e with e
  subst e
  repeat' (first | assumption | intro _ | with_reducible apply State.identAbort_keeps | with_reducible apply keeps_ite | split | dsimp only)

theorem State.evalAxisChans_keeps {r : State} (a0 : State) (a1 : Nat) (h : Keeps r a0) : Keeps r (State.evalAxisChans a0 a1) := by
  unfold State.evalAxisChans
  split
  · exact h
  · refine State.evalAround_keeps _ _ ?_
    exact h

theorem State.gangDrop_keeps {r : State} (a0 : State) (a1 : Nat) (a2 : Option Bool) (h : Keeps r a0) : Keeps r (State.gangDrop a0 a1 a2) := by
  unfold State.gangDrop
  split
  · extract_lets -merge -useContext +onlyGivenNames z0
    clear_value z0
    refine keeps_ite _ ?_ ?_
    · refine State.setGang_keeps _ _ _ ?_
      exact h
    · exact h
  · exact h

theorem State.modeLeft_keeps {r : State} (a0 : State) (a1 : Nat) (a2 : Nat) (a3 : Nat) (h : Keeps r a0) : Keeps r (State.modeLeft a0 a1 a2 a3) := by
  unfold State.modeLeft
  extract_lets -merge -useContext +onlyGivenNames z0
  have hz0 : Keeps r z0 := by
    unfold z0
    refine keeps_ite _ ?_ ?_
    · refine State.valveLeave_keeps _ _ ?_
      exact h
    · exact h
  clear_value z0
  extract_lets -merge -useContext +onlyGivenNames z1
  have hz1 : Keeps r z1 := by
    unfold z1
    refine keeps_ite _ ?_ ?_
    · refine State.gangDrop_keeps _ _ _ ?_
      exact hz0
    · exact hz0
  clear_value z1
  extract_lets -merge -useContext +onlyGivenNames z2
  have hz2 : Keeps r z2 := by
    unfold z2
    refine keeps_ite _ ?_ ?_
    · refine State.modAx_keeps _ _ _ ?_
      exact hz1
    · exact hz1
  clear_value z2
  refine State.evalAxisChans_keeps _ _ ?_
  exact hz2

theorem State.hwMode_keeps {r : State} (a0 : State) (a1 : Nat) (a2 : Nat) (h : Keeps r a0) : Keeps r (State.hwMode a0 a1 a2) := by
  unfold State.hwMode
  extract_lets -merge -useContext +onlyGivenNames z0
  clear_value z0
  refine State.modeLeft_keeps _ _ _ _ ?_
  refine State.setMode_keeps _ _ _ ?_
  exact h

theorem State.dropHitch_keeps {r : State} (a0 : State) (a1 : Nat) (h : Keeps r a0) : Keeps r (State.dropHitch a0 a1) := by
  unfold State.dropHitch
  refine State.modAx_keeps _ _ _ ?_
  refine State.clr_keeps _ _ ?_
  refine State.clr_keeps _ _ ?_
  exact h

theorem State.superAct_keeps {r : State} (a0 : State) (a1 : Nat) (a2 : Nat) (h : Keeps r a0) : Keeps r (State.superAct a0 a1 a2) := by
  unfold State.superAct
  split
  · refine keeps_ite _ ?_ ?_
    · exact h
    · refine State.modAx_keeps _ _ _ ?_
      refine State.identAbort_keeps _ _ _ ?_
      exact h
  · refine keeps_ite _ ?_ ?_
    · exact h
    · refine State.modAx_keeps _ _ _ ?_
      refine State.identAbort_keeps _ _ _ ?_
      exact h
  · extract_lets -merge -useContext +onlyGivenNames z0
    have hz0 : Keeps r z0 := by
      unfold z0
      refine State.modAx_keeps _ _ _ ?_
      refine State.identAbort_keeps _ _ _ ?_
      exact h
    clear_value z0
    refine State.hwMode_keeps _ _ _ ?_
    exact hz0
  · refine State.raiseSupervisor_keeps _ _ ?_
    exact h

theorem State.supervise_keeps {r : State} (a0 : State) (a1 : Nat) (a2 : List Nat) (h : Keeps r a0) : Keeps r (State.supervise a0 a1 a2) := by
  unfold State.supervise
  refine keeps_ite _ ?_ ?_
  · exact h
  · extract_lets -merge -useContext +onlyGivenNames z0
    clear_value z0
    extract_lets -merge -useContext +onlyGivenNames z1
    clear_value z1
    extract_lets -merge -useContext +onlyGivenNames z2
    clear_value z2
    extract_lets -merge -useContext +onlyGivenNames z3
    have hz3 : Keeps r z3 := by
      unfold z3
      refine keeps_forEach ?_ _ _ ?_
      · exact h
      · intro w4_0 w4_1 hw4
        refine State.report_keeps _ _ _ _ _ ?_
        refine State.set_keeps _ _ _ ?_
        refine State.raise_keeps _ _ ?_
        exact hw4
    clear_value z3
    extract_lets -merge -useContext +onlyGivenNames z5
    have hz5 : Keeps r z5 := by
      unfold z5
      refine State.modAx_keeps _ _ _ ?_
      exact hz3
    clear_value z5
    refine keeps_ite _ ?_ ?_
    · exact hz5
    · refine State.superAct_keeps _ _ _ ?_
      exact hz5

theorem State.nodeMissEvent_keeps {r : State} (a0 : State) (a1 : Nat) (h : Keeps r a0) : Keeps r (State.nodeMissEvent a0 a1) := by
  unfold State.nodeMissEvent
  refine State.supervise_keeps _ _ _ ?_
  refine State.identAbort_keeps _ _ _ ?_
  exact h

theorem State.feTimer_keeps {r : State} (a0 : State) (a1 : Nat) (a2 : Nat) (h : Keeps r a0) : Keeps r (State.feTimer a0 a1 a2) := by
  unfold State.feTimer
  refine keeps_ite _ ?_ ?_
  · refine State.modAx_keeps _ _ _ ?_
    exact h
  · refine keeps_ite _ ?_ ?_
    · refine State.modAx_keeps _ _ _ ?_
      exact h
    · refine keeps_ite _ ?_ ?_
      · exact h
      · refine State.modAx_keeps _ _ _ ?_
        exact h

theorem State.limDue_keeps {r : State} (a0 : State) (a1 : Nat) (a2 : Nat) (h : Keeps r a0) : Keeps r (State.limDue a0 a1 a2) := by
  unfold State.limDue
  split
  · refine keeps_ite _ ?_ ?_
    · refine State.modAx_keeps _ _ _ ?_
      exact h
    · exact h
  · exact h

theorem State.userStops_keeps {r : State} (a0 : State) (a1 : Nat) (h : Keeps r a0) : Keeps r (State.userStops a0 a1) := by
  unfold State.userStops
  extract_lets -merge -useContext +onlyGivenNames z0
  have hz0 : Keeps r z0 := by
    unfold z0
    refine State.limDue_keeps _ _ _ ?_
    exact h
  clear_value z0
  extract_lets -merge -useContext +onlyGivenNames z1
  clear_value z1
  refine keeps_ite _ ?_ ?_
  · extract_lets -merge -useContext +onlyGivenNames z2
    have hz2 : Keeps r z2 := by
      unfold z2
      refine State.modAx_keeps _ _ _ ?_
      refine State.dropHitch_keeps _ _ ?_
      exact hz0
    clear_value z2
    refine keeps_ite _ ?_ ?_
    · exact hz2
    · refine State.hwMode_keeps _ _ _ ?_
      exact hz2
  · refine State.modAx_keeps _ _ _ ?_
    exact hz0

theorem State.wokenIn_keeps {r : State} (a0 : State) (a1 : Nat) (a2 : Nat) (h : Keeps r a0) : Keeps r (State.wokenIn a0 a1 a2) := by
  unfold State.wokenIn
  refine keeps_ite _ ?_ ?_
  · refine State.userStops_keeps _ _ ?_
    exact h
  · refine State.modAx_keeps _ _ _ ?_
    exact h

theorem State.landing_keeps {r : State} (a0 : State) (a1 : Nat) (a2 : Feedback) (h : Keeps r a0) : Keeps r (State.landing a0 a1 a2) := by
  unfold State.landing
  refine keeps_ite _ ?_ ?_
  · exact h
  · extract_lets -merge -useContext +onlyGivenNames z0
    clear_value z0
    extract_lets -merge -useContext +onlyGivenNames z1
    clear_value z1
    extract_lets -merge -useContext +onlyGivenNames z2
    clear_value z2
    extract_lets -merge -useContext +onlyGivenNames z3
    clear_value z3
    extract_lets -merge -useContext +onlyGivenNames z4
    have hz4 : Keeps r z4 := by
      unfold z4
      refine State.set_keeps _ _ _ ?_
      refine State.set_keeps _ _ _ ?_
      exact h
    clear_value z4
    extract_lets -merge -useContext +onlyGivenNames z5
    have hz5 : Keeps r z5 := by
      unfold z5
      refine State.set_keeps _ _ _ ?_
      refine State.set_keeps _ _ _ ?_
      exact hz4
    clear_value z5
    extract_lets -merge -useContext +onlyGivenNames z6
    have hz6 : Keeps r z6 := by
      unfold z6
      refine State.set_keeps _ _ _ ?_
      refine State.set_keeps _ _ _ ?_
      refine State.set_keeps _ _ _ ?_
      exact hz5
    clear_value z6
    extract_lets -merge -useContext +onlyGivenNames z7
    have hz7 : Keeps r z7 := by
      unfold z7
      refine State.set_keeps _ _ _ ?_
      refine State.set_keeps _ _ _ ?_
      refine State.set_keeps _ _ _ ?_
      exact hz6
    clear_value z7
    extract_lets -merge -useContext +onlyGivenNames z8
    have hz8 : Keeps r z8 := by
      unfold z8
      refine State.set_keeps _ _ _ ?_
      refine State.set_keeps _ _ _ ?_
      exact hz7
    clear_value z8
    extract_lets -merge -useContext +onlyGivenNames z9
    have hz9 : Keeps r z9 := by
      unfold z9
      refine State.setB_keeps _ _ _ ?_
      refine State.setB_keeps _ _ _ ?_
      exact hz8
    clear_value z9
    extract_lets -merge -useContext +onlyGivenNames z10
    clear_value z10
    extract_lets -merge -useContext +onlyGivenNames z11
    have hz11 : Keeps r z11 := by
      unfold z11
      refine keeps_ite _ ?_ ?_
      · refine State.set_keeps _ _ _ ?_
        refine State.set64_keeps _ _ _ _ ?_
        exact hz9
      · exact hz9
    clear_value z11
    extract_lets -merge -useContext +onlyGivenNames z12
    have hz12 : Keeps r z12 := by
      unfold z12
      refine State.set_keeps _ _ _ ?_
      exact hz11
    clear_value z12
    extract_lets -merge -useContext +onlyGivenNames z13
    have hz13 : Keeps r z13 := by
      unfold z13
      refine State.modAx_keeps _ _ _ ?_
      exact hz12
    clear_value z13
    extract_lets -merge -useContext +onlyGivenNames z14
    clear_value z14
    extract_lets -merge -useContext +onlyGivenNames z15
    have hz15 : Keeps r z15 := by
      unfold z15
      refine State.supervise_keeps _ _ _ ?_
      refine State.feTimer_keeps _ _ _ ?_
      exact hz13
    clear_value z15
    refine keeps_ite _ ?_ ?_
    · refine State.fillTag_keeps _ _ _ ?_
      refine State.wokenIn_keeps _ _ _ ?_
      exact hz15
    · exact hz15

theorem State.feedbackLanding_keeps {r : State} (a0 : State) (a1 : Nat) (h : Keeps r a0) : Keeps r (State.feedbackLanding a0 a1) := by
  unfold State.feedbackLanding
  split
  · exact h
  · refine State.landing_keeps _ _ _ ?_
    refine State.modAx_keeps _ _ _ ?_
    exact h

theorem State.lossBoundary_keeps {r : State} (a0 : State) (a1 : Nat) (h : Keeps r a0) : Keeps r (State.lossBoundary a0 a1) := by
  unfold State.lossBoundary
  refine keeps_forN ?_ _ _ ?_
  · exact h
  · intro w0_0 w0_1 hw0
    extract_lets -merge -useContext +onlyGivenNames z1
    clear_value z1
    refine keeps_ite _ ?_ ?_
    · exact hw0
    · refine keeps_ite _ ?_ ?_
      · refine State.modAx_keeps _ _ _ ?_
        exact hw0
      · refine State.modAx_keeps _ _ _ ?_
        refine State.raise_keeps _ _ ?_
        exact hw0

theorem State.gangLanding_keeps {r : State} (a0 : State) (a1 : Nat) (h : Keeps r a0) : Keeps r (State.gangLanding a0 a1) := by
  unfold State.gangLanding
  extract_lets -merge -useContext +onlyGivenNames z0
  clear_value z0
  extract_lets -merge -useContext +onlyGivenNames z1
  clear_value z1
  refine keeps_ite _ ?_ ?_
  · exact h
  · extract_lets -merge -useContext +onlyGivenNames z2
    clear_value z2
    extract_lets -merge -useContext +onlyGivenNames z3
    clear_value z3
    extract_lets -merge -useContext +onlyGivenNames z4
    clear_value z4
    extract_lets -merge -useContext +onlyGivenNames z5
    clear_value z5
    extract_lets -merge -useContext +onlyGivenNames z6
    clear_value z6
    extract_lets -merge -useContext +onlyGivenNames z7
    clear_value z7
    extract_lets -merge -useContext +onlyGivenNames z8
    clear_value z8
    extract_lets -merge -useContext +onlyGivenNames z9
    clear_value z9
    extract_lets -merge -useContext +onlyGivenNames z10
    have hz10 : Keeps r z10 := by
      unfold z10
      refine State.set_keeps _ _ _ ?_
      refine State.set_keeps _ _ _ ?_
      refine State.set_keeps _ _ _ ?_
      exact h
    clear_value z10
    refine State.landing_keeps _ _ _ ?_
    exact hz10

theorem State.valveLandings_keeps {r : State} (a0 : State) (a1 : Nat) (h : Keeps r a0) : Keeps r (State.valveLandings a0 a1) := by
  unfold State.valveLandings
  refine keeps_forN ?_ _ _ ?_
  · exact h
  · intro w0_0 w0_1 hw0
    refine keeps_ite _ ?_ ?_
    · extract_lets -merge -useContext +onlyGivenNames z1
      clear_value z1
      refine State.landing_keeps _ _ _ ?_
      exact hw0
    · exact hw0

theorem State.limitAt_keeps {r : State} (a0 : State) (a1 : Nat) (a2 : Bool) (a3 : Nat) (h : Keeps r a0) : Keeps r (State.limitAt a0 a1 a2 a3) := by
  unfold State.limitAt
  extract_lets -merge -useContext +onlyGivenNames z0
  have hz0 : Keeps r z0 := by
    unfold z0
    refine State.raise_keeps _ _ ?_
    exact h
  clear_value z0
  extract_lets -merge -useContext +onlyGivenNames z1
  have hz1 : Keeps r z1 := by
    unfold z1
    refine State.report_keeps _ _ _ _ _ ?_
    exact hz0
  clear_value z1
  extract_lets -merge -useContext +onlyGivenNames z2
  have hz2 : Keeps r z2 := by
    unfold z2
    refine keeps_ite _ ?_ ?_
    · refine State.gangDrop_keeps _ _ _ ?_
      exact hz1
    · exact hz1
  clear_value z2
  refine keeps_ite _ ?_ ?_
  · exact hz2
  · extract_lets -merge -useContext +onlyGivenNames z3
    clear_value z3
    refine State.modAx_keeps _ _ _ ?_
    refine State.identAbort_keeps _ _ _ ?_
    exact hz2

theorem State.limitHit_keeps {r : State} (a0 : State) (a1 : Nat) (a2 : Bool) (h : Keeps r a0) : Keeps r (State.limitHit a0 a1 a2) := by
  unfold State.limitHit
  refine State.limitAt_keeps _ _ _ _ ?_
  exact h

theorem State.takeRegs_keeps {r : State} (a0 : State) (a1 : List Nat) (h : Keeps r a0) : Keeps r (State.takeRegs a0 a1) := by
  unfold State.takeRegs
  refine keeps_forEach ?_ _ _ ?_
  · exact h
  · intro w0_0 w0_1 hw0
    refine State.take_keeps _ _ ?_
    exact hw0

theorem State.capTo_keeps {r : State} (a0 : State) (a1 : Nat) (a2 : Nat) (a3 : Nat) (a4 : Nat) (h : Keeps r a0) : Keeps r (State.capTo a0 a1 a2 a3 a4) := by
  unfold State.capTo
  split
  · refine State.set_keeps _ _ _ ?_
    refine State.set_keeps _ _ _ ?_
    refine State.set_keeps _ _ _ ?_
    exact h
  · exact h

theorem State.capFor_keeps {r : State} (a0 : State) (a1 : Nat) (h : Keeps r a0) : Keeps r (State.capFor a0 a1) := by
  unfold State.capFor
  refine keeps_forN ?_ _ _ ?_
  · exact h
  · intro w0_0 w0_1 hw0
    refine keeps_forEach ?_ _ _ ?_
    · exact hw0
    · intro w1_0 w1_1 hw1
      refine keeps_ite _ ?_ ?_
      · refine State.capTo_keeps _ _ _ _ _ ?_
        exact hw1
      · exact hw1

theorem State.kindChanged_keeps {r : State} (a0 : State) (a1 : Nat) (h : Keeps r a0) : Keeps r (State.kindChanged a0 a1) := by
  unfold State.kindChanged
  refine keeps_ite _ ?_ ?_
  · refine keeps_forEach ?_ _ _ ?_
    · exact h
    · intro w0_0 w0_1 hw0
      refine State.setReg_keeps _ _ _ ?_
      exact hw0
  · refine State.capFor_keeps _ _ ?_
    exact h

theorem State.takeCtrl_keeps {r : State} (a0 : State) (a1 : Nat) (a2 : Nat) (h : Keeps r a0) : Keeps r ((State.takeCtrl a0 a1 a2).2) := by
  unfold State.takeCtrl
  extract_lets -merge -useContext +onlyGivenNames z0
  clear_value z0
  extract_lets -merge -useContext +onlyGivenNames z1
  clear_value z1
  extract_lets -merge -useContext +onlyGivenNames z2
  clear_value z2
  extract_lets -merge -useContext +onlyGivenNames z3
  clear_value z3
  extract_lets -merge -useContext +onlyGivenNames z4
  clear_value z4
  extract_lets -merge -useContext +onlyGivenNames z5
  clear_value z5
  extract_lets -merge -useContext +onlyGivenNames z6
  clear_value z6
  extract_lets -merge -useContext +onlyGivenNames z7
  clear_value z7
  extract_lets -merge -useContext +onlyGivenNames z8
  clear_value z8
  extract_lets -merge -useContext +onlyGivenNames z9
  clear_value z9
  extract_lets -merge -useContext +onlyGivenNames z10
  clear_value z10
  extract_lets -merge -useContext +onlyGivenNames z11
  clear_value z11
  extract_lets -merge -useContext +onlyGivenNames z12
  clear_value z12
  extract_lets -merge -useContext +onlyGivenNames z13
  clear_value z13
  refine keeps_ite2 _ ?_ ?_
  · extract_lets -merge -useContext +onlyGivenNames z14
    have hz14 : Keeps r z14 := by
      unfold z14
      refine keeps_ite _ ?_ ?_
      · refine State.raise_keeps _ _ ?_
        exact h
      · exact h
    clear_value z14
    extract_lets -merge -useContext +onlyGivenNames z15
    have hz15 : Keeps r z15 := by
      unfold z15
      refine keeps_ite _ ?_ ?_
      · refine State.raise_keeps _ _ ?_
        exact hz14
      · exact hz14
    clear_value z15
    refine keeps_snd ?_
    exact hz15
  · extract_lets -merge -useContext +onlyGivenNames z16
    clear_value z16
    extract_lets -merge -useContext +onlyGivenNames z17
    have hz17 : Keeps r z17 := by
      unfold z17
      refine State.take_keeps _ _ ?_
      exact h
    clear_value z17
    extract_lets -merge -useContext +onlyGivenNames z18
    have hz18 : Keeps r z18 := by
      unfold z18
      refine keeps_ite _ ?_ ?_
      · exact hz17
      · refine State.kindChanged_keeps _ _ ?_
        exact hz17
    clear_value z18
    refine keeps_ite2 _ ?_ ?_
    · refine keeps_snd ?_
      exact hz18
    · extract_lets -merge -useContext +onlyGivenNames z19
      have hz19 : Keeps r z19 := by
        unfold z19
        refine State.modAx_keeps _ _ _ ?_
        exact hz18
      clear_value z19
      refine keeps_ite2 _ ?_ ?_
      · refine keeps_snd ?_
        refine State.hwMode_keeps _ _ _ ?_
        refine State.raise_keeps _ _ ?_
        refine State.raise_keeps _ _ ?_
        exact hz19
      · refine keeps_snd ?_
        refine State.modeLeft_keeps _ _ _ _ ?_
        refine keeps_ite _ ?_ ?_
        · refine State.identAbort_keeps _ _ _ ?_
          exact hz19
        · exact hz19

theorem State.takePrf_keeps {r : State} (a0 : State) (a1 : Nat) (a2 : Nat) (h : Keeps r a0) : Keeps r ((State.takePrf a0 a1 a2).2) := by
  unfold State.takePrf
  extract_lets -merge -useContext +onlyGivenNames z0
  clear_value z0
  extract_lets -merge -useContext +onlyGivenNames z1
  clear_value z1
  extract_lets -merge -useContext +onlyGivenNames z2
  clear_value z2
  extract_lets -merge -useContext +onlyGivenNames z3
  clear_value z3
  extract_lets -merge -useContext +onlyGivenNames z4
  clear_value z4
  refine keeps_ite2 _ ?_ ?_
  · refine keeps_snd ?_
    refine State.raise_keeps _ _ ?_
    exact h
  · refine keeps_ite2 _ ?_ ?_
    · refine keeps_snd ?_
      refine State.raise_keeps _ _ ?_
      refine State.setA_keeps _ _ _ ?_
      refine State.clr_keeps _ _ ?_
      refine State.takeRegs_keeps _ _ ?_
      exact h
    · extract_lets -merge -useContext +onlyGivenNames z5
      clear_value z5
      refine keeps_ite2 _ ?_ ?_
      · refine keeps_snd ?_
        refine State.raise_keeps _ _ ?_
        exact h
      · extract_lets -merge -useContext +onlyGivenNames z6
        have hz6 : Keeps r z6 := by
          unfold z6
          refine State.takeRegs_keeps _ _ ?_
          exact h
        clear_value z6
        extract_lets -merge -useContext +onlyGivenNames z7
        have hz7 : Keeps r z7 := by
          unfold z7
          refine keeps_ite _ ?_ ?_
          · refine State.setA_keeps _ _ _ ?_
            refine State.clr_keeps _ _ ?_
            exact hz6
          · exact hz6
        clear_value z7
        refine keeps_ite2 _ ?_ ?_
        · refine keeps_snd ?_
          refine State.modAx_keeps _ _ _ ?_
          exact hz7
        · refine keeps_ite2 _ ?_ ?_
          · refine keeps_ite2 _ ?_ ?_
            · refine keeps_snd ?_
              refine State.raise_keeps _ _ ?_
              exact hz7
            · refine keeps_snd ?_
              refine State.modAx_keeps _ _ _ ?_
              refine State.clr_keeps _ _ ?_
              exact hz7
          · refine keeps_snd ?_
            exact hz7

theorem State.takeRep_keeps {r : State} (a0 : State) (a1 : Nat) (h : Keeps r a0) : Keeps r ((State.takeRep a0 a1).2) := by
  unfold State.takeRep
  refine keeps_ite2 _ ?_ ?_
  · refine keeps_snd ?_
    refine State.raise_keeps _ _ ?_
    exact h
  · extract_lets -merge -useContext +onlyGivenNames z0
    clear_value z0
    extract_lets -merge -useContext +onlyGivenNames z1
    clear_value z1
    extract_lets -merge -useContext +onlyGivenNames z2
    clear_value z2
    extract_lets -merge -useContext +onlyGivenNames z3
    clear_value z3
    extract_lets -merge -useContext +onlyGivenNames z4
    clear_value z4
    extract_lets -merge -useContext +onlyGivenNames z5
    have hz5 : Keeps r z5 := by
      unfold z5
      refine State.takeRegs_keeps _ _ ?_
      exact h
    clear_value z5
    extract_lets -merge -useContext +onlyGivenNames z6
    have hz6 : Keeps r z6 := by
      unfold z6
      refine keeps_ite _ ?_ ?_
      · refine State.clr_keeps _ _ ?_
        exact hz5
      · exact hz5
    clear_value z6
    refine keeps_snd ?_
    refine State.modAx_keeps _ _ _ ?_
    exact hz6

theorem State.takePlain_keeps {r : State} (a0 : State) (a1 : Nat) (a2 : Nat) (a3 : Bool) (h : Keeps r a0) : Keeps r ((State.takePlain a0 a1 a2 a3).2) := by
  unfold State.takePlain
  refine keeps_ite2 _ ?_ ?_
  · refine keeps_snd ?_
    refine State.takeRegs_keeps _ _ ?_
    refine keeps_ite _ ?_ ?_
    · refine State.identAbort_keeps _ _ _ ?_
      exact h
    · exact h
  · refine keeps_snd ?_
    refine State.raise_keeps _ _ ?_
    exact h

theorem State.takeHitch_keeps {r : State} (a0 : State) (a1 : Nat) (h : Keeps r a0) : Keeps r ((State.takeHitch a0 a1).2) := by
  unfold State.takeHitch
  extract_lets -merge -useContext +onlyGivenNames z0
  clear_value z0
  refine keeps_ite2 _ ?_ ?_
  · refine keeps_snd ?_
    refine State.raise_keeps _ _ ?_
    exact h
  · refine State.takePlain_keeps _ _ _ _ ?_
    exact h

theorem State.takeSup_keeps {r : State} (a0 : State) (a1 : Nat) (h : Keeps r a0) : Keeps r ((State.takeSup a0 a1).2) := by
  unfold State.takeSup
  extract_lets -merge -useContext +onlyGivenNames z0
  clear_value z0
  extract_lets -merge -useContext +onlyGivenNames z1
  clear_value z1
  refine keeps_ite2 _ ?_ ?_
  · refine keeps_snd ?_
    refine State.raise_keeps _ _ ?_
    exact h
  · refine keeps_ite2 _ ?_ ?_
    · refine keeps_snd ?_
      refine State.raise_keeps _ _ ?_
      exact h
    · refine keeps_snd ?_
      refine State.takeRegs_keeps _ _ ?_
      exact h

theorem State.takeShift_keeps {r : State} (a0 : State) (a1 : Nat) (h : Keeps r a0) : Keeps r ((State.takeShift a0 a1).2) := by
  unfold State.takeShift
  extract_lets -merge -useContext +onlyGivenNames z0
  clear_value z0
  refine keeps_ite2 _ ?_ ?_
  · refine keeps_snd ?_
    exact h
  · refine keeps_ite2 _ ?_ ?_
    · refine keeps_snd ?_
      refine State.raise_keeps _ _ ?_
      exact h
    · extract_lets -merge -useContext +onlyGivenNames z1
      have hz1 : Keeps r z1 := by
        unfold z1
        refine State.set64_keeps _ _ _ _ ?_
        exact h
      clear_value z1
      extract_lets -merge -useContext +onlyGivenNames z2
      have hz2 : Keeps r z2 := by
        unfold z2
        refine keeps_ite _ ?_ ?_
        · exact hz1
        · refine State.set64_keeps _ _ _ _ ?_
          exact hz1
      clear_value z2
      extract_lets -merge -useContext +onlyGivenNames z3
      have hz3 : Keeps r z3 := by
        unfold z3
        refine State.modAx_keeps _ _ _ ?_
        exact hz2
      clear_value z3
      refine keeps_snd ?_
      refine State.set64_keeps _ _ _ _ ?_
      exact hz3

theorem State.groupTake_keeps {r : State} (a0 : State) (a1 : Nat) (a2 : Nat) (a3 : Nat) (h : Keeps r a0) : Keeps r ((State.groupTake a0 a1 a2 a3).2) := by
  unfold State.groupTake
  split
  · refine State.takeCtrl_keeps _ _ _ ?_
    exact h
  · refine State.takePrf_keeps _ _ _ ?_
    exact h
  · refine State.takePlain_keeps _ _ _ _ ?_
    exact h
  · refine State.takePlain_keeps _ _ _ _ ?_
    exact h
  · refine State.takePlain_keeps _ _ _ _ ?_
    exact h
  · refine State.takePlain_keeps _ _ _ _ ?_
    exact h
  · refine State.takeRep_keeps _ _ ?_
    exact h
  · refine State.takeHitch_keeps _ _ ?_
    exact h
  · refine State.takeSup_keeps _ _ ?_
    exact h
  · refine State.takePlain_keeps _ _ _ _ ?_
    exact h
  · refine State.takeShift_keeps _ _ ?_
    exact h

theorem State.keepOld_keeps {r : State} (a0 : State) (a1 : State) (a2 : Nat) (a3 : Nat) (h : Keeps r a0) : Keeps r (State.keepOld a0 a1 a2 a3) := by
  unfold State.keepOld
  split
  · exact h
  · extract_lets -merge -useContext +onlyGivenNames z0
    clear_value z0
    extract_lets -merge -useContext +onlyGivenNames z1
    clear_value z1
    extract_lets -merge -useContext +onlyGivenNames z2
    clear_value z2
    refine State.modAx_keeps _ _ _ ?_
    exact h

theorem State.axTake_keeps {r : State} (a0 : State) (a1 : Nat) (a2 : Nat) (a3 : Nat) (h : Keeps r a0) : Keeps r ((State.axTake a0 a1 a2 a3).2) := by
  unfold State.axTake
  extract_lets -merge -useContext +onlyGivenNames z0
  have hz0 : Keeps r z0.2 := by
    unfold z0
    refine State.groupTake_keeps _ _ _ _ ?_
    exact h
  clear_value z0
  refine keeps_snd ?_
  refine State.keepOld_keeps _ _ _ _ ?_
  exact hz0

theorem State.cmtErr_keeps {r : State} (a0 : State) (a1 : Nat) (a2 : Nat) (a3 : Take) (h : Keeps r a0) : Keeps r (State.cmtErr a0 a1 a2 a3) := by
  unfold State.cmtErr
  refine keeps_ite _ ?_ ?_
  · exact h
  · refine State.orF_keeps _ _ _ ?_
    exact h

theorem State.axisCommits_keeps {r : State} (a0 : State) (a1 : Nat) (h : Keeps r a0) : Keeps r (State.axisCommits a0 a1) := by
  unfold State.axisCommits
  refine keeps_forN ?_ _ _ ?_
  · exact h
  · intro w0_0 w0_1 hw0
    refine keeps_ite _ ?_ ?_
    · extract_lets -merge -useContext +onlyGivenNames z1
      have hz1 : Keeps r z1 := by
        unfold z1
        refine State.clr_keeps _ _ ?_
        exact hw0
      clear_value z1
      extract_lets -merge -useContext +onlyGivenNames z2
      have hz2 : Keeps r z2 := by
        unfold z2
        refine keeps_forEach ?_ _ _ ?_
        · exact hz1
        · intro w3_0 w3_1 hw3
          extract_lets -merge -useContext +onlyGivenNames z4
          have hz4 : Keeps r z4.2 := by
            unfold z4
            refine State.axTake_keeps _ _ _ _ ?_
            exact hw3
          clear_value z4
          refine State.cmtErr_keeps _ _ _ _ ?_
          exact hz4
      clear_value z2
      refine State.set_keeps _ _ _ ?_
      exact hz2
    · exact hw0

theorem State.capsBound_keeps {r : State} (a0 : State) (a1 : State) (h : Keeps r a0) : Keeps r (State.capsBound a0 a1) := by
  unfold State.capsBound
  refine keeps_forN ?_ _ _ ?_
  · exact h
  · intro w0_0 w0_1 hw0
    refine keeps_forEach ?_ _ _ ?_
    · exact hw0
    · intro w1_0 w1_1 hw1
      refine keeps_forN ?_ _ _ ?_
      · exact hw1
      · intro w2_0 w2_1 hw2
        extract_lets -merge -useContext +onlyGivenNames z3
        clear_value z3
        refine keeps_ite _ ?_ ?_
        · refine State.capTo_keeps _ _ _ _ _ ?_
          exact hw2
        · exact hw2

theorem State.dropHeld_keeps {r : State} (a0 : State) (a1 : Nat) (a2 : Nat) (h : Keeps r a0) : Keeps r (State.dropHeld a0 a1 a2) := by
  unfold State.dropHeld
  refine keeps_dsp ?_ _ (fun y => y)
  exact h

theorem State.countFallback_keeps {r : State} (a0 : State) (a1 : Nat) (a2 : Nat) (h : Keeps r a0) : Keeps r (State.countFallback a0 a1 a2) := by
  unfold State.countFallback
  extract_lets -merge -useContext +onlyGivenNames z0
  clear_value z0
  extract_lets -merge -useContext +onlyGivenNames z1
  have hz1 : Keeps r z1 := by
    unfold z1
    refine State.trace_keeps _ _ _ _ _ _ _ _ ?_
    exact h
  clear_value z1
  extract_lets -merge -useContext +onlyGivenNames z2
  have hz2 : Keeps r z2 := by
    unfold z2
    refine State.count_keeps _ _ ?_
    refine State.count_keeps _ _ ?_
    exact hz1
  clear_value z2
  refine State.modAx_keeps _ _ _ ?_
  exact hz2

theorem State.oldPassed_keeps {r : State} (a0 : State) (a1 : Nat) (a2 : Nat) (h : Keeps r a0) : Keeps r (State.oldPassed a0 a1 a2) := by
  unfold State.oldPassed
  split
  · refine keeps_ite _ ?_ ?_
    · refine State.modAx_keeps _ _ _ ?_
      exact h
    · exact h
  · exact h

theorem State.deadline_keeps {r : State} (a0 : State) (a1 : Nat) (a2 : Nat) (h : Keeps r a0) : Keeps r (State.deadline a0 a1 a2) := by
  unfold State.deadline
  extract_lets -merge -useContext +onlyGivenNames zo z0 z1 z2 z3
  have hzo : Keeps r zo := by
    unfold zo
    exact State.oldPassed_keeps _ _ _ h
  have hz3 : Keeps r z3 := State.dropHeld_keeps _ _ _ hzo
  clear_value zo z0 z1 z2 z3
  refine keeps_ite _ hz3 ?_
  refine keeps_ite _ hz3 ?_
  split
  · refine keeps_ite _ hz3 ?_
    split
    · exact State.modGang_keeps _ _ _ hz3
    · exact State.modGang_keeps _ _ _ (State.countFallback_keeps _ _ _ hz3)
  · split
    rename_i s p e
    have hs : Keeps r s := by
      rw [show s = (s, p).1 from rfl, ← e]
      refine keeps_ite1 _ hz3 ?_
      split
      · refine keeps_fst ?_
        exact State.modAx_keeps _ _ _ hz3
      · dsimp only
        refine State.modAx_keeps _ _ _ ?_
        exact State.countFallback_keeps _ _ _ hz3
    extract_lets -merge -useContext +onlyGivenNames z4 z5
    have hz5 : Keeps r z5 := State.modAx_keeps _ _ _ hs
    clear_value z5
    split
    · exact State.modGang_keeps _ _ _ hz5
    · exact hz5

theorem State.acceptRelease_keeps {r : State} (a0 : State) (a1 : Held) (h : Keeps r a0) : Keeps r (State.acceptRelease a0 a1) := by
  unfold State.acceptRelease
  extract_lets -merge -useContext +onlyGivenNames z0
  clear_value z0
  extract_lets -merge -useContext +onlyGivenNames z1
  extract_lets -merge -useContext +onlyGivenNames z2
  have hz2 : Keeps r z2 := by
    unfold z2
    refine keeps_dsp ?_ _ (fun y => y)
    exact h
  clear_value z2
  extract_lets -merge -useContext +onlyGivenNames z3
  have hz3 : Keeps r z3 := by
    unfold z3
    refine State.clr_keeps _ _ ?_
    exact hz2
  clear_value z3
  extract_lets -merge -useContext +onlyGivenNames z4
  have hz4 : Keeps r z4 := by
    unfold z4
    refine keeps_ite _ ?_ ?_
    · exact hz3
    · refine State.set_keeps _ _ _ ?_
      refine State.set64_keeps _ _ _ _ ?_
      exact hz3
  clear_value z4
  extract_lets -merge -useContext +onlyGivenNames z5
  have hz5 : Keeps r z5 := by
    unfold z5
    refine State.modAx_keeps _ _ _ ?_
    exact hz4
  clear_value z5
  split
  · refine keeps_ite _ ?_ ?_
    · refine keeps_dx ?_ _
      exact hz5
    · exact hz5
  · exact hz5

theorem State.lateRelease_keeps {r : State} (a0 : State) (a1 : Nat) (a2 : Nat) (h : Keeps r a0) : Keeps r (State.lateRelease a0 a1 a2) := by
  unfold State.lateRelease
  refine State.report_keeps _ _ _ _ _ ?_
  refine State.count_keeps _ _ ?_
  exact h

theorem State.recheckHeld_keeps {r : State} (a0 : State) (h : Keeps r a0) : Keeps r (State.recheckHeld a0) := by
  unfold State.recheckHeld
  split
  · extract_lets -merge -useContext +onlyGivenNames z0
    extract_lets -merge -useContext +onlyGivenNames z1
    have hz1 : Keeps r z1 := by
      unfold z1
      refine keeps_dsp ?_ _ (fun y => y)
      exact h
    clear_value z1
    refine keeps_forEach ?_ _ _ ?_
    · exact hz1
    · intro w2_0 w2_1 hw2
      refine State.lateRelease_keeps _ _ _ ?_
      refine State.count_keeps _ _ ?_
      exact hw2

theorem State.axStatusW_keeps {r : State} (a0 : State) (a1 : Nat) (a2 : Nat) (h : Keeps r a0) : Keeps r (State.axStatusW a0 a1 a2) := by
  unfold State.axStatusW
  extract_lets -merge -useContext +onlyGivenNames z0
  clear_value z0
  extract_lets -merge -useContext +onlyGivenNames z1
  clear_value z1
  extract_lets -merge -useContext +onlyGivenNames z2
  clear_value z2
  extract_lets -merge -useContext +onlyGivenNames z3
  have hz3 : Keeps r z3 := by
    unfold z3
    refine keeps_ite _ ?_ ?_
    · refine State.burn_keeps _ ?_
      exact h
    · exact h
  clear_value z3
  refine State.setReg_keeps _ _ _ ?_
  exact hz3

theorem State.axCntclr_keeps {r : State} (a0 : State) (a1 : Nat) (h : Keeps r a0) : Keeps r (State.axCntclr a0 a1) := by
  unfold State.axCntclr
  refine State.clr_keeps _ _ ?_
  refine State.clr_keeps _ _ ?_
  refine State.clr_keeps _ _ ?_
  exact h

theorem execFeTimerExpiry_keeps {r : State} (a0 : Fin 256) (a1 : State) (h : Keeps r a1) (t : State) (e : execFeTimerExpiry a0 a1 = .next t) : Keeps r t := by
  unfold execFeTimerExpiry at e
  injection e with e
  subst e
  repeat' (first | assumption | intro _ | with_reducible apply State.supervise_keeps | with_reducible apply State.modAx_keeps | with_reducible apply keeps_ite | split | dsimp only)

theorem execFblossEvent_keeps {r : State} (a0 : Fin 256) (a1 : State) (h : Keeps r a1) (t : State) (e : execFblossEvent a0 a1 = .next t) : Keeps r t := by
  unfold execFblossEvent at e
  injection e with e
  subst e
  repeat' (first | assumption | intro _ | with_reducible apply State.supervise_keeps | with_reducible apply State.identAbort_keeps | with_reducible apply State.modAx_keeps | with_reducible apply keeps_ite | split | dsimp only)

theorem execLateEvent_keeps {r : State} (a0 : Fin 256) (a1 : State) (h : Keeps r a1) (t : State) (e : execLateEvent a0 a1 = .next t) : Keeps r t := by
  unfold execLateEvent at e
  injection e with e
  subst e
  repeat' (first | assumption | intro _ | with_reducible apply State.supervise_keeps | with_reducible apply State.modAx_keeps | with_reducible apply keeps_ite | split | dsimp only)

theorem execLimitInputActive_keeps {r : State} (a0 : Fin 256) (a1 : Bool) (a2 : State) (h : Keeps r a2) (t : State) (e : execLimitInputActive a0 a1 a2 = .next t) : Keeps r t := by
  unfold execLimitInputActive at e
  injection e with e
  subst e
  repeat' (first | assumption | intro _ | with_reducible apply State.limitHit_keeps | with_reducible apply keeps_ite | split | dsimp only)

theorem execGangLanding_keeps {r : State} (a0 : Fin 16) (a1 : State) (h : Keeps r a1) (t : State) (e : execGangLanding a0 a1 = .next t) : Keeps r t := by
  unfold execGangLanding at e
  injection e with e
  subst e
  repeat' (first | assumption | intro _ | with_reducible apply State.gangLanding_keeps | with_reducible apply keeps_ite | split | dsimp only)

theorem State.plainWrite_keeps {r : State} (a0 : State) (a1 : Nat) (a2 : Nat) (h : Keeps r a0) : Keeps r (State.plainWrite a0 a1 a2) := by
  unfold State.plainWrite
  split
  · exact h
  · refine State.setReg_keeps _ _ _ ?_
    exact h

theorem State.storeWrite_keeps {r : State} (a0 : State) (a1 : Nat) (a2 : Nat) (h : Keeps r a0) : Keeps r (State.storeWrite a0 a1 a2) := by
  unfold State.storeWrite
  split
  · exact h
  · refine State.setReg_keeps _ _ _ ?_
    exact h

theorem State.readEffect_keeps {r : State} (a0 : State) (a1 : Nat) (h : Keeps r a0) : Keeps r (State.readEffect a0 a1) := by
  unfold State.readEffect
  extract_lets -merge -useContext +onlyGivenNames z0
  clear_value z0
  refine keeps_ite _ ?_ ?_
  · exact h
  · refine State.setReg_keeps _ _ _ ?_
    exact h

theorem State.modBel_keeps {r : State} (a0 : State) (a1 : Bel → Bel) (h : Keeps r a0) : Keeps r (State.modBel a0 a1) := by
  unfold State.modBel
  refine keeps_bel ?_ _
  exact h

theorem State.belExt_keeps {r : State} (a0 : State) (h : Keeps r a0) : Keeps r (State.belExt a0) := by
  unfold State.belExt
  refine State.ext_keeps _ _ ?_
  exact h

theorem State.belReport_keeps {r : State} (a0 : State) (a1 : Nat) (a2 : List Nat) (h : Keeps r a0) : Keeps r (State.belReport a0 a1 a2) := by
  unfold State.belReport
  refine State.report_keeps _ _ _ _ _ ?_
  exact h

theorem State.setZone_keeps {r : State} (a0 : State) (a1 : Nat) (a2 : Nat) (h : Keeps r a0) : Keeps r (State.setZone a0 a1 a2) := by
  unfold State.setZone
  refine keeps_ite _ ?_ ?_
  · exact h
  · extract_lets -merge -useContext +onlyGivenNames z0
    have hz0 : Keeps r z0 := by
      unfold z0
      refine keeps_ite _ ?_ ?_
      · refine State.modBel_keeps _ _ ?_
        exact h
      · exact h
    clear_value z0
    refine State.belExt_keeps _ ?_
    refine State.belReport_keeps _ _ _ ?_
    refine State.set_keeps _ _ _ ?_
    exact hz0

theorem State.belOutputs_keeps {r : State} (a0 : State) (h : Keeps r a0) : Keeps r (State.belOutputs a0) := by
  unfold State.belOutputs
  extract_lets -merge -useContext +onlyGivenNames z0
  clear_value z0
  extract_lets -merge -useContext +onlyGivenNames z1
  clear_value z1
  extract_lets -merge -useContext +onlyGivenNames z2
  have hz2 : Keeps r z2 := by
    unfold z2
    refine State.set_keeps _ _ _ ?_
    refine State.set_keeps _ _ _ ?_
    exact h
  clear_value z2
  extract_lets -merge -useContext +onlyGivenNames z3
  have hz3 : Keeps r z3 := by
    unfold z3
    refine keeps_forN ?_ _ _ ?_
    · exact hz2
    · intro w4_0 w4_1 hw4
      refine keeps_ite _ ?_ ?_
      · exact hw4
      · refine State.bankSafeOff_keeps _ _ _ ?_
        exact hw4
  clear_value z3
  extract_lets -merge -useContext +onlyGivenNames z5
  clear_value z5
  extract_lets -merge -useContext +onlyGivenNames z6
  clear_value z6
  extract_lets -merge -useContext +onlyGivenNames z7
  clear_value z7
  extract_lets -merge -useContext +onlyGivenNames z8
  have hz8 : Keeps r z8 := by
    unfold z8
    refine keeps_forN ?_ _ _ ?_
    · exact hz3
    · intro w9_0 w9_1 hw9
      refine State.set_keeps _ _ _ ?_
      exact hw9
  clear_value z8
  refine keeps_ite _ ?_ ?_
  · refine State.belExt_keeps _ ?_
    exact hz8
  · exact hz8

theorem State.zoneEval_keeps {r : State} (a0 : State) (a1 : Nat) (h : Keeps r a0) : Keeps r (State.zoneEval a0 a1) := by
  unfold State.zoneEval
  extract_lets -merge -useContext +onlyGivenNames z0
  clear_value z0
  extract_lets -merge -useContext +onlyGivenNames z1
  clear_value z1
  split
  · refine keeps_ite _ ?_ ?_
    · refine State.setZone_keeps _ _ _ ?_
      exact h
    · exact h
  · refine keeps_ite _ ?_ ?_
    · exact h
    · refine State.setZone_keeps _ _ _ ?_
      exact h
  · refine keeps_ite _ ?_ ?_
    · exact h
    · refine State.setZone_keeps _ _ _ ?_
      exact h
  · refine keeps_ite _ ?_ ?_
    · refine State.setZone_keeps _ _ _ ?_
      exact h
    · exact h
  · exact h

theorem State.belEval_keeps {r : State} (a0 : State) (h : Keeps r a0) : Keeps r (State.belEval a0) := by
  unfold State.belEval
  refine State.belOutputs_keeps _ ?_
  refine keeps_ite _ ?_ ?_
  · refine keeps_forN ?_ _ _ ?_
    · exact h
    · intro w0_0 w0_1 hw0
      refine State.zoneEval_keeps _ _ ?_
      exact hw0
  · exact h

theorem State.zoneResets_keeps {r : State} (a0 : State) (a1 : Nat → Bool) (h : Keeps r a0) : Keeps r (State.zoneResets a0 a1) := by
  unfold State.zoneResets
  refine keeps_ite _ ?_ ?_
  · exact h
  · refine State.belOutputs_keeps _ ?_
    refine keeps_forN ?_ _ _ ?_
    · exact h
    · intro w0_0 w0_1 hw0
      refine keeps_ite _ ?_ ?_
      · refine State.setZone_keeps _ _ _ ?_
        exact hw0
      · exact hw0

theorem State.belTo_keeps {r : State} (a0 : State) (a1 : Nat) (h : Keeps r a0) : Keeps r (State.belTo a0 a1) := by
  unfold State.belTo
  extract_lets -merge -useContext +onlyGivenNames z0
  clear_value z0
  extract_lets -merge -useContext +onlyGivenNames z1
  have hz1 : Keeps r z1 := by
    unfold z1
    refine State.belReport_keeps _ _ _ ?_
    refine State.set_keeps _ _ _ ?_
    exact h
  clear_value z1
  extract_lets -merge -useContext +onlyGivenNames z2
  have hz2 : Keeps r z2 := by
    unfold z2
    refine keeps_ite _ ?_ ?_
    · refine keeps_forN ?_ _ _ ?_
      · exact hz1
      · intro w3_0 w3_1 hw3
        refine State.setZone_keeps _ _ _ ?_
        exact hw3
    · exact hz1
  clear_value z2
  refine State.belEval_keeps _ ?_
  exact hz2

theorem State.belLoad_keeps {r : State} (a0 : State) (h : Keeps r a0) : Keeps r (State.belLoad a0) := by
  unfold State.belLoad
  extract_lets -merge -useContext +onlyGivenNames z0
  clear_value z0
  extract_lets -merge -useContext +onlyGivenNames z1
  have hz1 : Keeps r z1 := by
    unfold z1
    refine State.clr_keeps _ _ ?_
    refine State.clr_keeps _ _ ?_
    refine State.clr_keeps _ _ ?_
    refine State.setReg_keeps _ _ _ ?_
    exact h
  clear_value z1
  extract_lets -merge -useContext +onlyGivenNames z2
  have hz2 : Keeps r z2 := by
    unfold z2
    refine State.set_keeps _ _ _ ?_
    refine State.set_keeps _ _ _ ?_
    exact hz1
  clear_value z2
  extract_lets -merge -useContext +onlyGivenNames z3
  have hz3 : Keeps r z3 := by
    unfold z3
    refine State.modBel_keeps _ _ ?_
    exact hz2
  clear_value z3
  extract_lets -merge -useContext +onlyGivenNames z4
  have hz4 : Keeps r z4 := by
    unfold z4
    refine State.clr_keeps _ _ ?_
    refine State.clr_keeps _ _ ?_
    exact hz3
  clear_value z4
  extract_lets -merge -useContext +onlyGivenNames z5
  have hz5 : Keeps r z5 := by
    unfold z5
    refine State.belTo_keeps _ _ ?_
    exact hz4
  clear_value z5
  refine keeps_ite _ ?_ ?_
  · refine State.belExt_keeps _ ?_
    exact hz5
  · exact hz5

theorem State.belDiag_keeps {r : State} (a0 : State) (a1 : Nat) (a2 : Bool) (a3 : List Nat) (h : Keeps r a0) : Keeps r (State.belDiag a0 a1 a2 a3) := by
  unfold State.belDiag
  extract_lets -merge -useContext +onlyGivenNames z0
  have hz0 : Keeps r z0 := by
    unfold z0
    refine State.belExt_keeps _ ?_
    refine State.belReport_keeps _ _ _ ?_
    refine State.setReg_keeps _ _ _ ?_
    exact h
  clear_value z0
  refine keeps_ite _ ?_ ?_
  · refine State.belTo_keeps _ _ ?_
    exact hz0
  · refine State.belOutputs_keeps _ ?_
    exact hz0

theorem State.belPowerUp_keeps {r : State} (a0 : State) (h : Keeps r a0) : Keeps r (State.belPowerUp a0) := by
  unfold State.belPowerUp
  have h1 : Keeps r { a0 with regs := a0.regs.filter (fun c => !(0x10340000 ≤ c.1 && c.1 < 0x10350000)), bel := {} } :=
    keeps_bel (keeps_regs h _ (SMap.wf_filter _ _ _)) _
  dsimp only
  have h2 : ∀ s, Keeps r s → Keeps r (forN 4 (fun b s => s.bankSafeOff b true) s).belLoad := fun s k =>
    State.belLoad_keeps _ (keeps_forN k _ _ (fun b s k => State.bankSafeOff_keeps s b true k))
  exact keeps_ite _ (State.belTo_keeps _ _ (h2 _ (State.set_keeps _ _ _ (State.set_keeps _ _ _ (State.set_keeps _ _ _ h1)))))
    (h2 _ (State.set_keeps _ _ _ (State.set_keeps _ _ _ (State.set_keeps _ _ _ h1))))

theorem State.configVote_keeps {r : State} (a0 : State) (h : Keeps r a0) : Keeps r (State.configVote a0) := by
  unfold State.configVote
  refine keeps_ite _ ?_ ?_
  · exact h
  · split
    · refine State.belDiag_keeps _ _ _ _ ?_
      exact h
    · refine keeps_ite _ ?_ ?_
      · refine State.belDiag_keeps _ _ _ _ ?_
        exact h
      · extract_lets -merge -useContext +onlyGivenNames z0
        have hz0 : Keeps r z0 := by
          unfold z0
          refine State.modBel_keeps _ _ ?_
          exact h
        clear_value z0
        extract_lets -merge -useContext +onlyGivenNames z1
        have hz1 : Keeps r z1 := by
          unfold z1
          refine State.setB_keeps _ _ _ ?_
          refine State.raise_keeps _ _ ?_
          exact hz0
        clear_value z1
        refine State.belTo_keeps _ _ ?_
        refine State.set_keeps _ _ _ ?_
        exact hz1

theorem State.belStart_keeps {r : State} (a0 : State) (h : Keeps r a0) : Keeps r (State.belStart a0) := by
  unfold State.belStart
  refine keeps_ite _ ?_ ?_
  · refine State.belTo_keeps _ _ ?_
    exact h
  · exact h

theorem State.belTestDone_keeps {r : State} (a0 : State) (a1 : Bool) (h : Keeps r a0) : Keeps r (State.belTestDone a0 a1) := by
  unfold State.belTestDone
  refine keeps_ite _ ?_ ?_
  · exact h
  · refine keeps_ite _ ?_ ?_
    · refine State.belStart_keeps _ ?_
      refine State.modBel_keeps _ _ ?_
      exact h
    · refine State.belDiag_keeps _ _ _ _ ?_
      exact h

theorem State.guardDiag_keeps {r : State} (a0 : State) (a1 : Nat) (a2 : Nat) (h : Keeps r a0) : Keeps r (State.guardDiag a0 a1 a2) := by
  unfold State.guardDiag
  extract_lets -merge -useContext +onlyGivenNames z0
  have hz0 : Keeps r z0 := by
    unfold z0
    refine State.orF_keeps _ _ _ ?_
    exact h
  clear_value z0
  extract_lets -merge -useContext +onlyGivenNames z1
  have hz1 : Keeps r z1 := by
    unfold z1
    refine State.modBel_keeps _ _ ?_
    refine State.orF_keeps _ _ _ ?_
    exact hz0
  clear_value z1
  refine State.belEval_keeps _ ?_
  refine State.belDiag_keeps _ _ _ _ ?_
  exact hz1

theorem State.gttime_keeps {r : State} (a0 : State) (h : Keeps r a0) : Keeps r (State.gttime a0) := by
  unfold State.gttime
  refine keeps_ite _ ?_ ?_
  · exact h
  · split
    · refine State.guardDiag_keeps _ _ _ ?_
      exact h
    · exact h

theorem State.belRestart_keeps {r : State} (a0 : State) (h : Keeps r a0) : Keeps r (State.belRestart a0) := by
  unfold State.belRestart
  refine keeps_ite _ ?_ ?_
  · exact h
  · refine keeps_ite _ ?_ ?_
    · refine State.raise_keeps _ _ ?_
      exact h
    · refine State.belLoad_keeps _ ?_
      exact h

theorem State.sealChange_keeps {r : State} (a0 : State) (a1 : Bool) (h : Keeps r a0) : Keeps r (State.sealChange a0 a1) := by
  unfold State.sealChange
  extract_lets -merge -useContext +onlyGivenNames z0
  have hz0 : Keeps r z0 := by
    unfold z0
    refine State.setB_keeps _ _ _ ?_
    exact h
  clear_value z0
  refine keeps_ite _ ?_ ?_
  · refine State.modLog_keeps _ _ ?_
    exact hz0
  · extract_lets -merge -useContext +onlyGivenNames z1
    have hz1 : Keeps r z1 := by
      unfold z1
      refine State.count_keeps _ _ ?_
      exact hz0
    clear_value z1
    extract_lets -merge -useContext +onlyGivenNames z2
    have hz2 : Keeps r z2 := by
      unfold z2
      refine State.setReg_keeps _ _ _ ?_
      exact hz1
    clear_value z2
    refine keeps_ite _ ?_ ?_
    · refine State.belTo_keeps _ _ ?_
      exact hz2
    · exact hz2

theorem State.cfgResult_keeps {r : State} (a0 : State) (a1 : Nat) (h : Keeps r a0) : Keeps r (State.cfgResult a0 a1) := by
  unfold State.cfgResult
  refine State.set_keeps _ _ _ ?_
  exact h

theorem State.configWrite_keeps {r : State} (a0 : State) (h : Keeps r a0) : Keeps r (State.configWrite a0) := by
  unfold State.configWrite
  extract_lets -merge -useContext +onlyGivenNames z0
  clear_value z0
  extract_lets -merge -useContext +onlyGivenNames z1
  clear_value z1
  extract_lets -merge -useContext +onlyGivenNames z2
  clear_value z2
  extract_lets -merge -useContext +onlyGivenNames z3
  clear_value z3
  extract_lets -merge -useContext +onlyGivenNames z4
  clear_value z4
  refine keeps_ite _ ?_ ?_
  · refine State.cfgResult_keeps _ _ ?_
    exact h
  · extract_lets -merge -useContext +onlyGivenNames z5
    have hz5 : Keeps r z5 := by
      unfold z5
      refine State.burn_keeps _ ?_
      exact h
    clear_value z5
    refine keeps_ite _ ?_ ?_
    · refine State.cfgResult_keeps _ _ ?_
      exact hz5
    · refine keeps_ite _ ?_ ?_
      · refine State.cfgResult_keeps _ _ ?_
        exact hz5
      · refine keeps_ite _ ?_ ?_
        · refine State.cfgResult_keeps _ _ ?_
          exact hz5
        · refine State.cfgResult_keeps _ _ ?_
          refine State.modBel_keeps _ _ ?_
          exact hz5

theorem State.configWriteDone_keeps {r : State} (a0 : State) (a1 : Bool) (h : Keeps r a0) : Keeps r (State.configWriteDone a0 a1) := by
  unfold State.configWriteDone
  refine keeps_ite _ ?_ ?_
  · exact h
  · extract_lets -merge -useContext +onlyGivenNames z0
    clear_value z0
    extract_lets -merge -useContext +onlyGivenNames z1
    have hz1 : ∀ y0 y1 y2, Keeps r y2 → Keeps r (z1 y0 y1 y2) := by
      unfold z1
      intro w2_0 w2_1 w2_2 hw2
      refine State.store_keeps _ _ _ ?_
      exact hw2
    clear_value z1
    extract_lets -merge -useContext +onlyGivenNames z3
    have hz3 : Keeps r z3 := by
      unfold z3
      refine State.modBel_keeps _ _ ?_
      exact h
    clear_value z3
    refine keeps_ite _ ?_ ?_
    · extract_lets -merge -useContext +onlyGivenNames z4
      clear_value z4
      extract_lets -merge -useContext +onlyGivenNames z5
      have hz5 : Keeps r z5 := by
        unfold z5
        refine keeps_forN ?_ _ _ ?_
        · refine State.burn_keeps _ ?_
          exact hz3
        · intro w6_0 w6_1 hw6
          refine hz1 _ _ _ ?_
          exact hw6
      clear_value z5
      refine State.cfgResult_keeps _ _ ?_
      exact hz5
    · extract_lets -merge -useContext +onlyGivenNames z7
      clear_value z7
      extract_lets -merge -useContext +onlyGivenNames z8
      clear_value z8
      extract_lets -merge -useContext +onlyGivenNames z9
      have hz9 : Keeps r z9 := by
        unfold z9
        refine keeps_forN ?_ _ _ ?_
        · exact hz3
        · intro w10_0 w10_1 hw10
          refine hz1 _ _ _ ?_
          exact hw10
      clear_value z9
      refine State.cfgResult_keeps _ _ ?_
      refine hz1 _ _ _ ?_
      refine keeps_free (s := z9) ?_ _ (by omega)
      exact hz9

theorem State.guardPulse_keeps {r : State} (a0 : State) (a1 : Nat) (a2 : Nat) (a3 : Nat) (h : Keeps r a0) : Keeps r (State.guardPulse a0 a1 a2 a3) := by
  unfold State.guardPulse
  refine keeps_ite _ ?_ ?_
  · exact h
  · extract_lets -merge -useContext +onlyGivenNames z0
    clear_value z0
    extract_lets -merge -useContext +onlyGivenNames z1
    clear_value z1
    extract_lets -merge -useContext +onlyGivenNames z2
    have hz2 : Keeps r z2 := by
      unfold z2
      refine State.set_keeps _ _ _ ?_
      exact h
    clear_value z2
    extract_lets -merge -useContext +onlyGivenNames z3
    have hz3 : Keeps r z3 := by
      unfold z3
      refine keeps_ite _ ?_ ?_
      · refine State.guardDiag_keeps _ _ _ ?_
        exact hz2
      · exact hz2
    clear_value z3
    refine keeps_forN ?_ _ _ ?_
    · exact hz3
    · intro w4_0 w4_1 hw4
      refine keeps_ite _ ?_ ?_
      · refine State.guardDiag_keeps _ _ _ ?_
        refine State.guardDiag_keeps _ _ _ ?_
        exact hw4
      · exact hw4

theorem State.guardDemand_keeps {r : State} (a0 : State) (a1 : Nat) (h : Keeps r a0) : Keeps r (State.guardDemand a0 a1) := by
  unfold State.guardDemand
  refine keeps_ite _ ?_ ?_
  · exact h
  · extract_lets -merge -useContext +onlyGivenNames z0
    have hz0 : Keeps r z0 := by
      unfold z0
      refine State.orF_keeps _ _ _ ?_
      refine State.set_keeps _ _ _ ?_
      exact h
    clear_value z0
    extract_lets -merge -useContext +onlyGivenNames z1
    have hz1 : Keeps r z1 := by
      unfold z1
      refine keeps_ite _ ?_ ?_
      · refine State.modBel_keeps _ _ ?_
        exact hz0
      · exact hz0
    clear_value z1
    refine State.belEval_keeps _ ?_
    exact hz1

theorem State.guardDemandEnd_keeps {r : State} (a0 : State) (a1 : Nat) (h : Keeps r a0) : Keeps r (State.guardDemandEnd a0 a1) := by
  unfold State.guardDemandEnd
  refine keeps_ite _ ?_ ?_
  · exact h
  · extract_lets -merge -useContext +onlyGivenNames z0
    have hz0 : Keeps r z0 := by
      unfold z0
      refine State.set_keeps _ _ _ ?_
      exact h
    clear_value z0
    extract_lets -merge -useContext +onlyGivenNames z1
    have hz1 : Keeps r z1 := by
      unfold z1
      refine keeps_ite _ ?_ ?_
      · exact hz0
      · refine State.set_keeps _ _ _ ?_
        exact hz0
    clear_value z1
    refine keeps_ite _ ?_ ?_
    · refine keeps_ite _ ?_ ?_
      · refine State.belStart_keeps _ ?_
        refine State.modBel_keeps _ _ ?_
        exact hz1
      · exact hz1
    · refine State.belEval_keeps _ ?_
      exact hz1

theorem State.resetAction_keeps {r : State} (a0 : State) (a1 : Nat) (h : Keeps r a0) : Keeps r (State.resetAction a0 a1) := by
  unfold State.resetAction
  refine keeps_ite _ ?_ ?_
  · exact h
  · refine State.zoneResets_keeps _ _ ?_
    exact h

theorem State.ss1Expiry_keeps {r : State} (a0 : State) (a1 : Nat) (h : Keeps r a0) : Keeps r (State.ss1Expiry a0 a1) := by
  unfold State.ss1Expiry
  refine keeps_ite _ ?_ ?_
  · refine State.belOutputs_keeps _ ?_
    refine State.setZone_keeps _ _ _ ?_
    exact h
  · exact h

theorem State.setBconn_keeps {r : State} (a0 : State) (a1 : Nat) (a2 : BConn) (h : Keeps r a0) : Keeps r (State.setBconn a0 a1 a2) := by
  unfold State.setBconn
  refine State.modBel_keeps _ _ ?_
  exact h

theorem State.slsReading_keeps {r : State} (a0 : State) (a1 : Nat) (a2 : Nat) (h : Keeps r a0) : Keeps r (State.slsReading a0 a1 a2) := by
  unfold State.slsReading
  dsimp only
  refine keeps_ite _ h ?_
  split
  · exact h
  · rename_i v s e
    have h1 : Keeps r s := by
      unfold State.slsSpeed at e
      dsimp only at e
      split at e
      · split at e
        · cases e
        · injection e with e
          injection e with _ e
          subst e
          exact State.setBconn_keeps _ _ _ h
      · split at e
        · injection e with e
          injection e with _ e
          subst e
          exact State.modBel_keeps _ _ h
        · cases e
    exact keeps_ite _ (State.belOutputs_keeps _ (State.setZone_keeps _ _ _ (State.modBel_keeps _ _ h1))) (State.modBel_keeps _ _ h1)

theorem State.containerDown_keeps {r : State} (a0 : State) (a1 : Nat) (a2 : Nat) (a3 : Nat) (h : Keeps r a0) : Keeps r ((State.containerDown a0 a1 a2 a3).2) := by
  unfold State.containerDown
  split
  · refine keeps_snd ?_
    exact h
  · extract_lets -merge -useContext +onlyGivenNames z0
    clear_value z0
    extract_lets -merge -useContext +onlyGivenNames z1
    clear_value z1
    extract_lets -merge -useContext +onlyGivenNames z2
    clear_value z2
    extract_lets -merge -useContext +onlyGivenNames z3
    clear_value z3
    extract_lets -merge -useContext +onlyGivenNames z4
    clear_value z4
    extract_lets -merge -useContext +onlyGivenNames z5
    clear_value z5
    refine keeps_snd ?_
    refine State.setBconn_keeps _ _ _ ?_
    exact h

theorem State.containerUp_keeps {r : State} (a0 : State) (a1 : Nat) (a2 : Nat) (a3 : Nat) (a4 : List Byte) (h : Keeps r a0) : Keeps r (State.containerUp a0 a1 a2 a3 a4) := by
  unfold State.containerUp
  split
  · exact h
  · refine keeps_ite _ ?_ ?_
    · exact h
    · extract_lets -merge -useContext +onlyGivenNames z0
      clear_value z0
      extract_lets -merge -useContext +onlyGivenNames z1
      clear_value z1
      extract_lets -merge -useContext +onlyGivenNames z2
      clear_value z2
      refine keeps_ite _ ?_ ?_
      · refine State.count_keeps _ _ ?_
        exact h
      · refine keeps_ite _ ?_ ?_
        · refine State.count_keeps _ _ ?_
          exact h
        · extract_lets -merge -useContext +onlyGivenNames z3
          clear_value z3
          extract_lets -merge -useContext +onlyGivenNames z4
          clear_value z4
          refine State.setBconn_keeps _ _ _ ?_
          exact h

theorem State.connsLeave_keeps {r : State} (a0 : State) (a1 : List Nat) (h : Keeps r a0) : Keeps r (State.connsLeave a0 a1) := by
  unfold State.connsLeave
  refine keeps_forN ?_ _ _ ?_
  · exact h
  · intro w0_0 w0_1 hw0
    refine keeps_ite _ ?_ ?_
    · refine State.setBconn_keeps _ _ _ ?_
      exact hw0
    · exact hw0

theorem State.belBoundary_keeps {r : State} (a0 : State) (h : Keeps r a0) : Keeps r (State.belBoundary a0) := by
  unfold State.belBoundary
  refine keeps_forN ?_ _ _ ?_
  · exact h
  · intro w0_0 w0_1 hw0
    extract_lets -merge -useContext +onlyGivenNames z1
    clear_value z1
    refine keeps_ite _ ?_ ?_
    · exact hw0
    · refine State.setBconn_keeps _ _ _ ?_
      exact hw0

theorem State.connFail_keeps {r : State} (a0 : State) (a1 : Nat) (h : Keeps r a0) : Keeps r (State.connFail a0 a1) := by
  unfold State.connFail
  refine keeps_ite _ ?_ ?_
  · exact h
  · refine State.belExt_keeps _ ?_
    refine State.belReport_keeps _ _ _ ?_
    refine State.raise_keeps _ _ ?_
    exact h

theorem State.connWatchdog_keeps {r : State} (a0 : State) (a1 : Nat) (h : Keeps r a0) : Keeps r (State.connWatchdog a0 a1) := by
  unfold State.connWatchdog
  refine keeps_ite _ ?_ ?_
  · refine State.belEval_keeps _ ?_
    refine State.connFail_keeps _ _ ?_
    refine State.count_keeps _ _ ?_
    exact h
  · exact h

theorem State.stoConfirmTimeout_keeps {r : State} (a0 : State) (a1 : Nat) (h : Keeps r a0) : Keeps r (State.stoConfirmTimeout a0 a1) := by
  unfold State.stoConfirmTimeout
  extract_lets -merge -useContext +onlyGivenNames z0
  clear_value z0
  refine keeps_ite _ ?_ ?_
  · extract_lets -merge -useContext +onlyGivenNames z1
    have hz1 : Keeps r z1 := by
      unfold z1
      refine State.modBel_keeps _ _ ?_
      refine State.connFail_keeps _ _ ?_
      exact h
    clear_value z1
    refine State.belEval_keeps _ ?_
    refine State.belDiag_keeps _ _ _ _ ?_
    exact hz1
  · exact h

theorem State.connfClear_keeps {r : State} (a0 : State) (a1 : Nat) (a2 : Nat) (h : Keeps r a0) : Keeps r (State.connfClear a0 a1 a2) := by
  unfold State.connfClear
  extract_lets -merge -useContext +onlyGivenNames z0
  clear_value z0
  extract_lets -merge -useContext +onlyGivenNames z1
  clear_value z1
  extract_lets -merge -useContext +onlyGivenNames z2
  clear_value z2
  refine keeps_ite _ ?_ ?_
  · exact h
  · refine State.belEval_keeps _ ?_
    refine State.belExt_keeps _ ?_
    refine keeps_forEach ?_ _ _ ?_
    · exact h
    · intro w3_0 w3_1 hw3
      refine State.clr_keeps _ _ ?_
      exact hw3

theorem State.gbothRequest_keeps {r : State} (a0 : State) (a1 : Nat) (h : Keeps r a0) : Keeps r (State.gbothRequest a0 a1) := by
  unfold State.gbothRequest
  refine State.belOutputs_keeps _ ?_
  refine State.belReport_keeps _ _ _ ?_
  refine State.orF_keeps _ _ _ ?_
  exact h

theorem State.sorst_keeps {r : State} (a0 : State) (a1 : Nat) (h : Keeps r a0) : Keeps r (State.sorst a0 a1) := by
  unfold State.sorst
  extract_lets -merge -useContext +onlyGivenNames z0
  clear_value z0
  refine State.belOutputs_keeps _ ?_
  refine State.set_keeps _ _ _ ?_
  exact h

theorem State.soPulse_keeps {r : State} (a0 : State) (a1 : Nat) (a2 : Bool) (h : Keeps r a0) : Keeps r (State.soPulse a0 a1 a2) := by
  unfold State.soPulse
  refine keeps_ite _ ?_ ?_
  · exact h
  · refine State.belDiag_keeps _ _ _ _ ?_
    exact h

theorem State.cfgCrcCheck_keeps {r : State} (a0 : State) (h : Keeps r a0) : Keeps r (State.cfgCrcCheck a0) := by
  unfold State.cfgCrcCheck
  refine keeps_ite _ ?_ ?_
  · refine State.belDiag_keeps _ _ _ _ ?_
    exact h
  · exact h

theorem State.lencEdge_keeps {r : State} (a0 : State) (a1 : Nat) (h : Keeps r a0) : Keeps r (State.lencEdge a0 a1) := by
  unfold State.lencEdge
  refine keeps_forN ?_ _ _ ?_
  · exact h
  · intro w0_0 w0_1 hw0
    refine keeps_ite _ ?_ ?_
    · refine State.bump_keeps _ _ ?_
      exact hw0
    · exact hw0

theorem State.belWrite_keeps {r : State} (a0 : State) (a1 : Nat) (a2 : Nat) (h : Keeps r a0) : Keeps r (State.belWrite a0 a1 a2) := by
  unfold State.belWrite
  refine keeps_ite _ ?_ ?_
  · refine keeps_ite _ ?_ ?_
    · refine State.belRestart_keeps _ ?_
      exact h
    · exact h
  · refine keeps_ite _ ?_ ?_
    · refine State.sorst_keeps _ _ ?_
      exact h
    · refine keeps_ite _ ?_ ?_
      · refine State.belEval_keeps _ ?_
        refine State.set_keeps _ _ _ ?_
        exact h
      · refine keeps_ite _ ?_ ?_
        · refine State.zoneResets_keeps _ _ ?_
          exact h
        · refine keeps_ite _ ?_ ?_
          · refine keeps_ite _ ?_ ?_
            · refine State.configWrite_keeps _ ?_
              exact h
            · exact h
          · refine keeps_ite _ ?_ ?_
            · refine State.connfClear_keeps _ _ _ ?_
              exact h
            · refine State.storeWrite_keeps _ _ _ ?_
              exact h

theorem State.withBel_keeps {r : State} (a0 : State) (a1 : State → State) (h : Keeps r a0) (h2 : ∀ y0, Keeps r y0 → Keeps r (a1 y0)) : Keeps r (State.withBel a0 a1) := by
  unfold State.withBel
  refine keeps_ite _ ?_ ?_
  · refine h2 _ ?_
    exact h
  · exact h

theorem execBelayPowerUp_keeps {r : State} (a0 : State) (h : Keeps r a0) (t : State) (e : execBelayPowerUp a0 = .next t) : Keeps r t := by
  unfold execBelayPowerUp at e
  injection e with e
  subst e
  repeat' (first | assumption | intro _ | with_reducible apply State.belPowerUp_keeps | with_reducible apply keeps_ite | split | dsimp only)

theorem execConfigVote_keeps {r : State} (a0 : State) (h : Keeps r a0) (t : State) (e : execConfigVote a0 = .next t) : Keeps r t := by
  unfold execConfigVote at e
  injection e with e
  subst e
  repeat' (first | assumption | intro _ | with_reducible apply State.withBel_keeps | with_reducible apply State.configVote_keeps | with_reducible apply keeps_ite | split | dsimp only)

theorem execBelayTestDone_keeps {r : State} (a0 : Bool) (a1 : State) (h : Keeps r a1) (t : State) (e : execBelayTestDone a0 a1 = .next t) : Keeps r t := by
  unfold execBelayTestDone at e
  injection e with e
  subst e
  repeat' (first | assumption | intro _ | with_reducible apply State.withBel_keeps | with_reducible apply State.belTestDone_keeps | with_reducible apply keeps_ite | split | dsimp only)

theorem execGttimeExpiry_keeps {r : State} (a0 : State) (h : Keeps r a0) (t : State) (e : execGttimeExpiry a0 = .next t) : Keeps r t := by
  unfold execGttimeExpiry at e
  injection e with e
  subst e
  repeat' (first | assumption | intro _ | with_reducible apply State.withBel_keeps | with_reducible apply State.gttime_keeps | with_reducible apply keeps_ite | split | dsimp only)

theorem execSealOpen_keeps {r : State} (a0 : Bool) (a1 : State) (h : Keeps r a1) (t : State) (e : execSealOpen a0 a1 = .next t) : Keeps r t := by
  unfold execSealOpen at e
  injection e with e
  subst e
  repeat' (first | assumption | intro _ | with_reducible apply State.sealChange_keeps | with_reducible apply keeps_ite | split | dsimp only)

theorem execConfigWriteDone_keeps {r : State} (a0 : Bool) (a1 : State) (h : Keeps r a1) (t : State) (e : execConfigWriteDone a0 a1 = .next t) : Keeps r t := by
  unfold execConfigWriteDone at e
  injection e with e
  subst e
  repeat' (first | assumption | intro _ | with_reducible apply State.withBel_keeps | with_reducible apply State.configWriteDone_keeps | with_reducible apply keeps_ite | split | dsimp only)

theorem execGuardTestPulse_keeps {r : State} (a0 : Fin 8) (a1 : BitVec 8) (a2 : BitVec 8) (a3 : State) (h : Keeps r a3) (t : State) (e : execGuardTestPulse a0 a1 a2 a3 = .next t) : Keeps r t := by
  unfold execGuardTestPulse at e
  injection e with e
  subst e
  repeat' (first | assumption | intro _ | with_reducible apply State.withBel_keeps | with_reducible apply State.guardPulse_keeps | with_reducible apply keeps_ite | split | dsimp only)

theorem execGuardDemand_keeps {r : State} (a0 : Fin 8) (a1 : State) (h : Keeps r a1) (t : State) (e : execGuardDemand a0 a1 = .next t) : Keeps r t := by
  unfold execGuardDemand at e
  injection e with e
  subst e
  repeat' (first | assumption | intro _ | with_reducible apply State.withBel_keeps | with_reducible apply State.guardDemand_keeps | with_reducible apply keeps_ite | split | dsimp only)

theorem execGuardDemandEnd_keeps {r : State} (a0 : Fin 8) (a1 : State) (h : Keeps r a1) (t : State) (e : execGuardDemandEnd a0 a1 = .next t) : Keeps r t := by
  unfold execGuardDemandEnd at e
  injection e with e
  subst e
  repeat' (first | assumption | intro _ | with_reducible apply State.withBel_keeps | with_reducible apply State.guardDemandEnd_keeps | with_reducible apply keeps_ite | split | dsimp only)

theorem execResetAction_keeps {r : State} (a0 : Fin 8) (a1 : State) (h : Keeps r a1) (t : State) (e : execResetAction a0 a1 = .next t) : Keeps r t := by
  unfold execResetAction at e
  injection e with e
  subst e
  repeat' (first | assumption | intro _ | with_reducible apply State.withBel_keeps | with_reducible apply State.resetAction_keeps | with_reducible apply keeps_ite | split | dsimp only)

theorem execSs1TimerExpiry_keeps {r : State} (a0 : Fin 32) (a1 : State) (h : Keeps r a1) (t : State) (e : execSs1TimerExpiry a0 a1 = .next t) : Keeps r t := by
  unfold execSs1TimerExpiry at e
  injection e with e
  subst e
  repeat' (first | assumption | intro _ | with_reducible apply State.withBel_keeps | with_reducible apply State.ss1Expiry_keeps | with_reducible apply keeps_ite | split | dsimp only)

theorem execSlsReading_keeps {r : State} (a0 : Fin 32) (a1 : Fin 256) (a2 : State) (h : Keeps r a2) (t : State) (e : execSlsReading a0 a1 a2 = .next t) : Keeps r t := by
  unfold execSlsReading at e
  injection e with e
  subst e
  repeat' (first | assumption | intro _ | with_reducible apply State.withBel_keeps | with_reducible apply State.slsReading_keeps | with_reducible apply keeps_ite | split | dsimp only)

theorem execConnectionWatchdog_keeps {r : State} (a0 : Fin 256) (a1 : State) (h : Keeps r a1) (t : State) (e : execConnectionWatchdog a0 a1 = .next t) : Keeps r t := by
  unfold execConnectionWatchdog at e
  injection e with e
  subst e
  repeat' (first | assumption | intro _ | with_reducible apply State.withBel_keeps | with_reducible apply State.connWatchdog_keeps | with_reducible apply keeps_ite | split | dsimp only)

theorem execStoConfirmTimeout_keeps {r : State} (a0 : Fin 256) (a1 : State) (h : Keeps r a1) (t : State) (e : execStoConfirmTimeout a0 a1 = .next t) : Keeps r t := by
  unfold execStoConfirmTimeout at e
  injection e with e
  subst e
  repeat' (first | assumption | intro _ | with_reducible apply State.withBel_keeps | with_reducible apply State.stoConfirmTimeout_keeps | with_reducible apply keeps_ite | split | dsimp only)

theorem execGbothRequest_keeps {r : State} (a0 : Fin 4) (a1 : State) (h : Keeps r a1) (t : State) (e : execGbothRequest a0 a1 = .next t) : Keeps r t := by
  unfold execGbothRequest at e
  injection e with e
  subst e
  repeat' (first | assumption | intro _ | with_reducible apply State.withBel_keeps | with_reducible apply State.gbothRequest_keeps | with_reducible apply keeps_ite | split | dsimp only)

theorem execSafeOffTestPulse_keeps {r : State} (a0 : Fin 4) (a1 : Bool) (a2 : State) (h : Keeps r a2) (t : State) (e : execSafeOffTestPulse a0 a1 a2 = .next t) : Keeps r t := by
  unfold execSafeOffTestPulse at e
  injection e with e
  subst e
  repeat' (first | assumption | intro _ | with_reducible apply State.withBel_keeps | with_reducible apply State.soPulse_keeps | with_reducible apply keeps_ite | split | dsimp only)

theorem execSafeOffFeedbackFault_keeps {r : State} (a0 : Fin 4) (a1 : State) (h : Keeps r a1) (t : State) (e : execSafeOffFeedbackFault a0 a1 = .next t) : Keeps r t := by
  unfold execSafeOffFeedbackFault at e
  injection e with e
  subst e
  repeat' (first | assumption | intro _ | with_reducible apply State.withBel_keeps | with_reducible apply State.belDiag_keeps | with_reducible apply keeps_ite | split | dsimp only)

theorem execOscCheckWindow_keeps {r : State} (a0 : Bool) (a1 : Bool) (a2 : State) (h : Keeps r a2) (t : State) (e : execOscCheckWindow a0 a1 a2 = .next t) : Keeps r t := by
  unfold execOscCheckWindow at e
  injection e with e
  subst e
  repeat' (first | assumption | intro _ | with_reducible apply State.withBel_keeps | with_reducible apply State.belDiag_keeps | with_reducible apply keeps_ite | split | dsimp only)

theorem execConfigCrcCheck_keeps {r : State} (a0 : State) (h : Keeps r a0) (t : State) (e : execConfigCrcCheck a0 = .next t) : Keeps r t := by
  unfold execConfigCrcCheck at e
  injection e with e
  subst e
  repeat' (first | assumption | intro _ | with_reducible apply State.withBel_keeps | with_reducible apply State.cfgCrcCheck_keeps | with_reducible apply keeps_ite | split | dsimp only)

theorem execGateSenseChange_keeps {r : State} (a0 : Fin 64) (a1 : Bool) (a2 : Bool) (a3 : State) (h : Keeps r a3) (t : State) (e : execGateSenseChange a0 a1 a2 a3 = .next t) : Keeps r t := by
  unfold execGateSenseChange at e
  injection e with e
  subst e
  repeat' (first | assumption | intro _ | with_reducible apply State.gateSense_keeps | with_reducible apply State.withBel_keeps | with_reducible apply State.gbothRequest_keeps | with_reducible apply keeps_ite | split | dsimp only)

end Sys2Proof.Machine
end

