-- ==== Sys2Proof/Laws/KeepsOps3.lean ====
section
/-! SUPPORT. Every operation of the files Knot, DxBase, RingSend, RingRecv, Learn, Reference keeps what `Keeps` says: the queue, canonical stores, the free
counter and the fuses. -/

namespace Sys2Proof.Machine

theorem State.modKnot_keeps {r : State} (a0 : State) (a1 : Nat) (a2 : Knot → Knot) (h : Keeps r a0) : Keeps r (State.modKnot a0 a1 a2) := by
  unfold State.modKnot
  refine State.setKnot_keeps _ _ _ ?_
  exact h

theorem State.setKState_keeps {r : State} (a0 : State) (a1 : Nat) (a2 : Nat) (h : Keeps r a0) : Keeps r (State.setKState a0 a1 a2) := by
  unfold State.setKState
  refine State.set_keeps _ _ _ ?_
  exact h

theorem State.kUsed_keeps {r : State} (a0 : State) (a1 : Nat) (a2 : Bool) (h : Keeps r a0) : Keeps r (State.kUsed a0 a1 a2) := by
  unfold State.kUsed
  refine keeps_ite _ ?_ ?_
  · refine State.set_keeps _ _ _ ?_
    exact h
  · refine State.set_keeps _ _ _ ?_
    exact h

theorem State.knotEnd_keeps {r : State} (a0 : State) (a1 : Nat) (a2 : Nat) (h : Keeps r a0) : Keeps r (State.knotEnd a0 a1 a2) := by
  unfold State.knotEnd
  extract_lets -merge -useContext +onlyGivenNames z0
  have hz0 : Keeps r z0 := by
    unfold z0
    refine State.setKState_keeps _ _ _ ?_
    exact h
  clear_value z0
  extract_lets -merge -useContext +onlyGivenNames z1
  have hz1 : Keeps r z1 := by
    unfold z1
    refine State.set_keeps _ _ _ ?_
    exact hz0
  clear_value z1
  extract_lets -merge -useContext +onlyGivenNames z2
  have hz2 : Keeps r z2 := by
    unfold z2
    refine State.count_keeps _ _ ?_
    exact hz1
  clear_value z2
  extract_lets -merge -useContext +onlyGivenNames z3
  have hz3 : Keeps r z3 := by
    unfold z3
    refine State.countK_keeps _ _ _ ?_
    exact hz2
  clear_value z3
  extract_lets -merge -useContext +onlyGivenNames z4
  have hz4 : Keeps r z4 := by
    unfold z4
    refine State.countK_keeps _ _ _ ?_
    exact hz3
  clear_value z4
  extract_lets -merge -useContext +onlyGivenNames z5
  clear_value z5
  extract_lets -merge -useContext +onlyGivenNames z6
  have hz6 : Keeps r z6 := by
    unfold z6
    refine State.report_keeps _ _ _ _ _ ?_
    exact hz4
  clear_value z6
  refine keeps_ite _ ?_ ?_
  · refine State.fillTag_keeps _ _ _ ?_
    exact hz6
  · exact hz6

theorem State.knotVoid_keeps {r : State} (a0 : State) (a1 : Nat) (a2 : Nat) (h : Keeps r a0) : Keeps r (State.knotVoid a0 a1 a2) := by
  unfold State.knotVoid
  refine State.knotEnd_keeps _ _ _ ?_
  refine State.set_keeps _ _ _ ?_
  exact h

theorem State.knotOpen_keeps {r : State} (a0 : State) (a1 : Nat) (a2 : Nat) (a3 : Nat) (a4 : Bool) (h : Keeps r a0) : Keeps r (State.knotOpen a0 a1 a2 a3 a4) := by
  unfold State.knotOpen
  extract_lets -merge -useContext +onlyGivenNames z0
  have hz0 : ∀ y0, Keeps r (z0 y0) := by
    unfold z0
    intro w1_0
    refine State.set_keeps _ _ _ ?_
    exact h
  clear_value z0
  refine keeps_ite _ ?_ ?_
  · refine hz0 _
  · refine keeps_ite _ ?_ ?_
    · refine hz0 _
    · refine keeps_ite _ ?_ ?_
      · refine hz0 _
      · extract_lets -merge -useContext +onlyGivenNames z2
        have hz2 : Keeps r z2 := by
          unfold z2
          refine State.set_keeps _ _ _ ?_
          exact h
        clear_value z2
        extract_lets -merge -useContext +onlyGivenNames z3
        have hz3 : Keeps r z3 := by
          unfold z3
          refine State.setReg_keeps _ _ _ ?_
          refine State.set_keeps _ _ _ ?_
          refine State.setReg_keeps _ _ _ ?_
          exact hz2
        clear_value z3
        extract_lets -merge -useContext +onlyGivenNames z4
        have hz4 : Keeps r z4 := by
          unfold z4
          refine State.kUsed_keeps _ _ _ ?_
          refine State.setReg_keeps _ _ _ ?_
          refine State.setReg_keeps _ _ _ ?_
          exact hz3
        clear_value z4
        extract_lets -merge -useContext +onlyGivenNames z5
        have hz5 : Keeps r z5 := by
          unfold z5
          refine keeps_forN ?_ _ _ ?_
          · exact hz4
          · intro w6_0 w6_1 hw6
            refine State.setReg_keeps _ _ _ ?_
            refine State.setReg_keeps _ _ _ ?_
            exact hw6
        clear_value z5
        refine State.setKnot_keeps _ _ _ ?_
        exact hz5

theorem State.kErr_keeps {r : State} (a0 : State) (a1 : Nat) (a2 : Nat) (h : Keeps r a0) : Keeps r (State.kErr a0 a1 a2) := by
  unfold State.kErr
  refine keeps_ite _ ?_ ?_
  · exact h
  · refine State.raise_keeps _ _ ?_
    refine State.set_keeps _ _ _ ?_
    exact h

theorem State.knotAdd_keeps {r : State} (a0 : State) (a1 : Nat) (a2 : List Nat) (h : Keeps r a0) : Keeps r (State.knotAdd a0 a1 a2) := by
  unfold State.knotAdd
  refine keeps_ite _ ?_ ?_
  · exact h
  · extract_lets -merge -useContext +onlyGivenNames z0
    clear_value z0
    refine keeps_ite _ ?_ ?_
    · refine State.set_keeps _ _ _ ?_
      refine State.modKnot_keeps _ _ _ ?_
      exact h
    · refine State.kErr_keeps _ _ _ ?_
      refine State.raise_keeps _ _ ?_
      exact h

theorem State.fixCcyc_keeps {r : State} (a0 : State) (a1 : Nat) (a2 : Nat) (h : Keeps r a0) : Keeps r (State.fixCcyc a0 a1 a2) := by
  unfold State.fixCcyc
  refine State.modKnot_keeps _ _ _ ?_
  refine State.set_keeps _ _ _ ?_
  exact h

theorem State.kChoose_keeps {r : State} (a0 : State) (a1 : Nat) (h : Keeps r a0) : Keeps r (State.kChoose a0 a1) := by
  unfold State.kChoose
  extract_lets -merge -useContext +onlyGivenNames z0
  clear_value z0
  extract_lets -merge -useContext +onlyGivenNames z1
  clear_value z1
  split
  · refine State.fixCcyc_keeps _ _ _ ?_
    exact h
  · exact h

theorem State.kSendPrep_keeps {r : State} (a0 : State) (a1 : Nat) (a2 : Nat × Nat) (h : Keeps r a0) : Keeps r (State.kSendPrep a0 a1 a2) := by
  unfold State.kSendPrep
  extract_lets -merge -useContext +onlyGivenNames z0
  clear_value z0
  extract_lets -merge -useContext +onlyGivenNames z1
  have hz1 : Keeps r z1 := by
    unfold z1
    refine keeps_forEach ?_ _ _ ?_
    · exact h
    · intro w2_0 w2_1 hw2
      extract_lets -merge -useContext +onlyGivenNames z3
      clear_value z3
      extract_lets -merge -useContext +onlyGivenNames z4
      clear_value z4
      refine State.mailSend_keeps _ _ _ ?_
      exact hw2
  clear_value z1
  refine State.mailSend_keeps _ _ _ ?_
  exact hz1

theorem State.knotClose_keeps {r : State} (a0 : State) (a1 : Nat) (h : Keeps r a0) : Keeps r (State.knotClose a0 a1) := by
  unfold State.knotClose
  refine keeps_ite _ ?_ ?_
  · exact h
  · extract_lets -merge -useContext +onlyGivenNames z0
    clear_value z0
    extract_lets -merge -useContext +onlyGivenNames z1
    clear_value z1
    extract_lets -merge -useContext +onlyGivenNames z2
    clear_value z2
    extract_lets -merge -useContext +onlyGivenNames z3
    clear_value z3
    extract_lets -merge -useContext +onlyGivenNames z4
    have hz4 : Keeps r z4 := by
      unfold z4
      refine State.setB_keeps _ _ _ ?_
      exact h
    clear_value z4
    extract_lets -merge -useContext +onlyGivenNames z5
    have hz5 : Keeps r z5 := by
      unfold z5
      refine State.set_keeps _ _ _ ?_
      exact hz4
    clear_value z5
    extract_lets -merge -useContext +onlyGivenNames z6
    have hz6 : Keeps r z6 := by
      unfold z6
      refine State.setKnot_keeps _ _ _ ?_
      exact hz5
    clear_value z6
    extract_lets -merge -useContext +onlyGivenNames z7
    extract_lets -merge -useContext +onlyGivenNames z8
    have hz8 : Keeps r z8 := by
      unfold z8
      refine keeps_ke ?_ _ (fun y => y)
      exact hz6
    clear_value z8
    extract_lets -merge -useContext +onlyGivenNames z9
    clear_value z9
    extract_lets -merge -useContext +onlyGivenNames z10
    clear_value z10
    extract_lets -merge -useContext +onlyGivenNames z11
    clear_value z11
    refine keeps_ite _ ?_ ?_
    · refine State.knotVoid_keeps _ _ _ ?_
      exact hz8
    · refine keeps_ite _ ?_ ?_
      · refine State.knotVoid_keeps _ _ _ ?_
        exact hz8
      · refine keeps_ite _ ?_ ?_
        · refine State.knotVoid_keeps _ _ _ ?_
          exact hz8
        · refine keeps_ite _ ?_ ?_
          · extract_lets -merge -useContext +onlyGivenNames z12
            have hz12 : Keeps r z12 := by
              unfold z12
              refine keeps_ite _ ?_ ?_
              · refine State.fixCcyc_keeps _ _ _ ?_
                exact hz8
              · exact hz8
            clear_value z12
            refine keeps_forEach ?_ _ _ ?_
            · refine State.setKState_keeps _ _ _ ?_
              exact hz12
            · intro w13_0 w13_1 hw13
              refine State.kSendPrep_keeps _ _ _ ?_
              exact hw13
          · refine State.setKState_keeps _ _ _ ?_
            refine State.fixCcyc_keeps _ _ _ ?_
            exact hz8

theorem State.kStop_keeps {r : State} (a0 : State) (a1 : Nat) (h : Keeps r a0) : Keeps r (State.kStop a0 a1) := by
  unfold State.kStop
  extract_lets -merge -useContext +onlyGivenNames z0
  clear_value z0
  refine keeps_forEach ?_ _ _ ?_
  · exact h
  · intro w1_0 w1_1 hw1
    extract_lets -merge -useContext +onlyGivenNames z2
    clear_value z2
    extract_lets -merge -useContext +onlyGivenNames z3
    clear_value z3
    extract_lets -merge -useContext +onlyGivenNames z4
    clear_value z4
    extract_lets -merge -useContext +onlyGivenNames z5
    have hz5 : Keeps r z5 := by
      unfold z5
      refine State.modRing_keeps _ _ _ ?_
      exact hw1
    clear_value z5
    refine keeps_ite _ ?_ ?_
    · refine State.mailSend_keeps _ _ _ ?_
      exact hz5
    · exact hz5

theorem State.kDecision_keeps {r : State} (a0 : State) (a1 : Nat) (a2 : Bool) (h : Keeps r a0) : Keeps r (State.kDecision a0 a1 a2) := by
  unfold State.kDecision
  extract_lets -merge -useContext +onlyGivenNames z0
  clear_value z0
  refine keeps_forEach ?_ _ _ ?_
  · exact h
  · intro w1_0 w1_1 hw1
    refine State.modRing_keeps _ _ _ ?_
    exact hw1

theorem State.knotResponse_keeps {r : State} (a0 : State) (a1 : Nat) (a2 : Nat) (a3 : Nat) (a4 : Bool) (a5 : Nat) (h : Keeps r a0) : Keeps r (State.knotResponse a0 a1 a2 a3 a4 a5) := by
  unfold State.knotResponse
  refine keeps_ite _ ?_ ?_
  · exact h
  · refine keeps_ite _ ?_ ?_
    · refine State.knotVoid_keeps _ _ _ ?_
      refine State.kStop_keeps _ _ ?_
      exact h
    · refine keeps_ite _ ?_ ?_
      · exact h
      · extract_lets -merge -useContext +onlyGivenNames z0
        have hz0 : Keeps r z0 := by
          unfold z0
          refine State.modKnot_keeps _ _ _ ?_
          exact h
        clear_value z0
        refine keeps_ite _ ?_ ?_
        · refine State.kChoose_keeps _ _ ?_
          exact hz0
        · exact hz0

theorem State.knotAnnounce_keeps {r : State} (a0 : State) (a1 : Nat) (h : Keeps r a0) : Keeps r (State.knotAnnounce a0 a1) := by
  unfold State.knotAnnounce
  extract_lets -merge -useContext +onlyGivenNames z0
  clear_value z0
  refine keeps_ite _ ?_ ?_
  · exact h
  · refine keeps_ite _ ?_ ?_
    · extract_lets -merge -useContext +onlyGivenNames z1
      clear_value z1
      refine State.setKState_keeps _ _ _ ?_
      refine keeps_forEach ?_ _ _ ?_
      · exact h
      · intro w2_0 w2_1 hw2
        refine State.modRing_keeps _ _ _ ?_
        exact hw2
    · refine State.knotVoid_keeps _ _ _ ?_
      refine State.kStop_keeps _ _ ?_
      exact h

theorem State.knotCancel_keeps {r : State} (a0 : State) (a1 : Nat) (h : Keeps r a0) : Keeps r (State.knotCancel a0 a1) := by
  unfold State.knotCancel
  extract_lets -merge -useContext +onlyGivenNames z0
  clear_value z0
  refine keeps_ite _ ?_ ?_
  · refine State.knotVoid_keeps _ _ _ ?_
    exact h
  · refine keeps_ite _ ?_ ?_
    · refine State.knotVoid_keeps _ _ _ ?_
      refine State.kStop_keeps _ _ ?_
      exact h
    · refine keeps_ite _ ?_ ?_
      · refine State.knotVoid_keeps _ _ _ ?_
        refine State.kDecision_keeps _ _ _ ?_
        exact h
      · exact h

theorem State.knotRelease_keeps {r : State} (a0 : State) (a1 : Nat) (h : Keeps r a0) : Keeps r (State.knotRelease a0 a1) := by
  unfold State.knotRelease
  refine keeps_ite _ ?_ ?_
  · refine State.setKnot_keeps _ _ _ ?_
    refine State.kUsed_keeps _ _ _ ?_
    refine State.setKState_keeps _ _ _ ?_
    exact h
  · exact h

theorem State.knotUplink_keeps {r : State} (a0 : State) (a1 : Nat) (a2 : Nat) (a3 : Nat) (a4 : Nat) (h : Keeps r a0) : Keeps r (State.knotUplink a0 a1 a2 a3 a4) := by
  unfold State.knotUplink
  refine keeps_forN ?_ _ _ ?_
  · exact h
  · intro w0_0 w0_1 hw0
    refine keeps_ite _ ?_ ?_
    · exact hw0
    · extract_lets -merge -useContext +onlyGivenNames z1
      clear_value z1
      extract_lets -merge -useContext +onlyGivenNames z2
      clear_value z2
      extract_lets -merge -useContext +onlyGivenNames z3
      clear_value z3
      extract_lets -merge -useContext +onlyGivenNames z4
      clear_value z4
      extract_lets -merge -useContext +onlyGivenNames z5
      have hz5 : Keeps r z5 := by
        unfold z5
        refine keeps_ite _ ?_ ?_
        · refine State.count_keeps _ _ ?_
          exact hw0
        · exact hw0
      clear_value z5
      refine State.modKnot_keeps _ _ _ ?_
      exact hz5

theorem State.knotNodeMissing_keeps {r : State} (a0 : State) (a1 : Nat) (a2 : Nat) (h : Keeps r a0) : Keeps r (State.knotNodeMissing a0 a1 a2) := by
  unfold State.knotNodeMissing
  refine keeps_forN ?_ _ _ ?_
  · exact h
  · intro w0_0 w0_1 hw0
    refine keeps_ite _ ?_ ?_
    · refine State.modKnot_keeps _ _ _ ?_
      exact hw0
    · exact hw0

theorem State.kFaultAct_keeps {r : State} (a0 : State) (a1 : Nat) (a2 : Nat) (h : Keeps r a0) : Keeps r (State.kFaultAct a0 a1 a2) := by
  unfold State.kFaultAct
  extract_lets -merge -useContext +onlyGivenNames z0
  clear_value z0
  refine State.superAct_keeps _ _ _ ?_
  exact h

theorem State.knotConfirmEnd_keeps {r : State} (a0 : State) (a1 : Nat) (h : Keeps r a0) : Keeps r (State.knotConfirmEnd a0 a1) := by
  unfold State.knotConfirmEnd
  refine keeps_ite _ ?_ ?_
  · exact h
  · extract_lets -merge -useContext +onlyGivenNames z0
    clear_value z0
    extract_lets -merge -useContext +onlyGivenNames z1
    clear_value z1
    extract_lets -merge -useContext +onlyGivenNames z2
    clear_value z2
    extract_lets -merge -useContext +onlyGivenNames z3
    have hz3 : Keeps r z3 := by
      unfold z3
      refine State.set_keeps _ _ _ ?_
      refine State.set_keeps _ _ _ ?_
      exact h
    clear_value z3
    extract_lets -merge -useContext +onlyGivenNames z4
    have hz4 : Keeps r z4 := by
      unfold z4
      refine keeps_forEach ?_ _ _ ?_
      · exact hz3
      · intro w5_0 w5_1 hw5
        refine State.raise_keeps _ _ ?_
        exact hw5
    clear_value z4
    extract_lets -merge -useContext +onlyGivenNames z6
    have hz6 : Keeps r z6 := by
      unfold z6
      refine keeps_forEach ?_ _ _ ?_
      · exact hz4
      · intro w7_0 w7_1 hw7
        refine State.raise_keeps _ _ ?_
        exact hw7
    clear_value z6
    extract_lets -merge -useContext +onlyGivenNames z8
    clear_value z8
    extract_lets -merge -useContext +onlyGivenNames z9
    have hz9 : Keeps r z9 := by
      unfold z9
      refine keeps_ite _ ?_ ?_
      · refine keeps_forEach ?_ _ _ ?_
        · refine State.raise_keeps _ _ ?_
          exact hz6
        · intro w10_0 w10_1 hw10
          refine State.kFaultAct_keeps _ _ _ ?_
          exact hw10
      · exact hz6
    clear_value z9
    refine State.knotEnd_keeps _ _ _ ?_
    exact hz9

theorem State.keWrite_keeps {r : State} (a0 : State) (a1 : Nat) (a2 : Nat) (a3 : Nat) (h : Keeps r a0) : Keeps r ((State.keWrite a0 a1 a2 a3).2) := by
  unfold State.keWrite
  refine keeps_ite2 _ ?_ ?_
  · refine keeps_snd ?_
    exact h
  · extract_lets -merge -useContext +onlyGivenNames z0
    clear_value z0
    split
    · split
      · refine keeps_ite2 _ ?_ ?_
        · refine keeps_snd ?_
          refine State.knotOpen_keeps _ _ _ _ _ ?_
          exact h
        · refine keeps_snd ?_
          exact h
      · refine keeps_snd ?_
        refine State.knotAdd_keeps _ _ _ ?_
        exact h
      · refine keeps_snd ?_
        refine State.knotClose_keeps _ _ ?_
        exact h
      · refine keeps_snd ?_
        refine State.knotCancel_keeps _ _ ?_
        exact h
      · refine keeps_snd ?_
        refine State.knotRelease_keeps _ _ ?_
        exact h
      · refine keeps_snd ?_
        exact h
    · refine keeps_snd ?_
      refine keeps_ite _ ?_ ?_
      · refine State.plainWrite_keeps _ _ _ ?_
        exact h
      · exact h
    · refine keeps_snd ?_
      refine State.plainWrite_keeps _ _ _ ?_
      exact h

theorem State.kopen_keeps {r : State} (a0 : State) (a1 : Nat) (a2 : Nat) (h : Keeps r a0) : Keeps r ((State.kopen a0 a1 a2).2) := by
  unfold State.kopen
  split
  · refine keeps_snd ?_
    exact h
  · extract_lets -merge -useContext +onlyGivenNames z0
    have hz0 : Keeps r z0 := by
      unfold z0
      refine State.knotOpen_keeps _ _ _ _ _ ?_
      exact h
    clear_value z0
    refine keeps_ite2 _ ?_ ?_
    · refine keeps_snd ?_
      refine State.set_keeps _ _ _ ?_
      refine State.set_keeps _ _ _ ?_
      refine State.set_keeps _ _ _ ?_
      refine State.set_keeps _ _ _ ?_
      refine State.set_keeps _ _ _ ?_
      exact hz0
    · refine keeps_snd ?_
      exact hz0

theorem State.modDx_keeps {r : State} (a0 : State) (a1 : Dx → Dx) (h : Keeps r a0) : Keeps r (State.modDx a0 a1) := by
  unfold State.modDx
  refine keeps_dx ?_ _
  exact h

theorem State.dxReport_keeps {r : State} (a0 : State) (a1 : Nat) (a2 : List Nat) (h : Keeps r a0) : Keeps r (State.dxReport a0 a1 a2) := by
  unfold State.dxReport
  refine State.report_keeps _ _ _ _ _ ?_
  exact h

theorem State.dxTo_keeps {r : State} (a0 : State) (a1 : Nat) (h : Keeps r a0) : Keeps r (State.dxTo a0 a1) := by
  unfold State.dxTo
  extract_lets -merge -useContext +onlyGivenNames z0
  clear_value z0
  extract_lets -merge -useContext +onlyGivenNames z1
  have hz1 : Keeps r z1 := by
    unfold z1
    refine State.setB_keeps _ _ _ ?_
    refine State.set_keeps _ _ _ ?_
    exact h
  clear_value z1
  extract_lets -merge -useContext +onlyGivenNames z2
  have hz2 : Keeps r z2 := by
    unfold z2
    refine State.setB_keeps _ _ _ ?_
    exact hz1
  clear_value z2
  extract_lets -merge -useContext +onlyGivenNames z3
  have hz3 : Keeps r z3 := by
    unfold z3
    refine keeps_ite _ ?_ ?_
    · refine State.connsLeave_keeps _ _ ?_
      exact hz2
    · exact hz2
  clear_value z3
  refine State.ext_keeps _ _ ?_
  refine State.dxReport_keeps _ _ _ ?_
  exact hz3

theorem State.decided_keeps {r : State} (a0 : State) (a1 : Nat) (a2 : Nat) (a3 : Bool) (h : Keeps r a0) : Keeps r (State.decided a0 a1 a2 a3) := by
  unfold State.decided
  refine State.modDx_keeps _ _ ?_
  exact h

theorem State.mirrorQueue_keeps {r : State} (a0 : State) (a1 : MirrorRec) (h : Keeps r a0) : Keeps r (State.mirrorQueue a0 a1) := by
  unfold State.mirrorQueue
  refine keeps_ite _ ?_ ?_
  · refine State.modDx_keeps _ _ ?_
    exact h
  · exact h

theorem State.spliceAbort_keeps {r : State} (a0 : State) (h : Keeps r a0) : Keeps r (State.spliceAbort a0) := by
  unfold State.spliceAbort
  split
  · exact h
  · extract_lets -merge -useContext +onlyGivenNames z0
    have hz0 : Keeps r z0 := by
      unfold z0
      refine State.modDx_keeps _ _ ?_
      exact h
    clear_value z0
    refine State.dxReport_keeps _ _ _ ?_
    refine State.raise_keeps _ _ ?_
    exact hz0

theorem State.insertion_keeps {r : State} (a0 : State) (h : Keeps r a0) : Keeps r (State.insertion a0) := by
  unfold State.insertion
  extract_lets -merge -useContext +onlyGivenNames z0
  clear_value z0
  extract_lets -merge -useContext +onlyGivenNames z1
  clear_value z1
  extract_lets -merge -useContext +onlyGivenNames z2
  have hz2 : Keeps r z2 := by
    unfold z2
    refine State.modDx_keeps _ _ ?_
    exact h
  clear_value z2
  extract_lets -merge -useContext +onlyGivenNames z3
  have hz3 : Keeps r z3 := by
    unfold z3
    refine State.count_keeps _ _ ?_
    exact hz2
  clear_value z3
  extract_lets -merge -useContext +onlyGivenNames z4
  have hz4 : Keeps r z4 := by
    unfold z4
    refine State.spliceAbort_keeps _ ?_
    exact hz3
  clear_value z4
  refine keeps_ite _ ?_ ?_
  · refine State.dxReport_keeps _ _ _ ?_
    refine State.raise_keeps _ _ ?_
    exact hz4
  · exact hz4

theorem State.dxBeat_keeps {r : State} (a0 : State) (a1 : Bool) (a2 : Nat) (h : Keeps r a0) : Keeps r (State.dxBeat a0 a1 a2) := by
  unfold State.dxBeat
  extract_lets -merge -useContext +onlyGivenNames z0
  clear_value z0
  refine keeps_ite _ ?_ ?_
  · exact h
  · extract_lets -merge -useContext +onlyGivenNames z1
    have hz1 : Keeps r z1 := by
      unfold z1
      refine State.modDx_keeps _ _ ?_
      exact h
    clear_value z1
    refine keeps_ite _ ?_ ?_
    · exact hz1
    · extract_lets -merge -useContext +onlyGivenNames z2
      have hz2 : Keeps r z2 := by
        unfold z2
        refine State.insertion_keeps _ ?_
        refine State.raise_keeps _ _ ?_
        exact hz1
      clear_value z2
      refine keeps_ite _ ?_ ?_
      · refine State.dxTo_keeps _ _ ?_
        refine State.modDx_keeps _ _ ?_
        exact hz2
      · exact hz2

theorem State.learnPartner_keeps {r : State} (a0 : State) (a1 : Nat) (h : Keeps r a0) : Keeps r (State.learnPartner a0 a1) := by
  unfold State.learnPartner
  refine State.set64_keeps _ _ _ _ ?_
  exact h

theorem State.recPut_keeps {r : State} (a0 : State) (a1 : List Byte) (h : Keeps r a0) : Keeps r (State.recPut a0 a1) := by
  unfold State.recPut
  refine State.modDx_keeps _ _ ?_
  exact h

theorem State.recDue_keeps {r : State} (a0 : State) (h : Keeps r a0) : Keeps r (State.recDue a0) := by
  unfold State.recDue
  extract_lets -merge -useContext +onlyGivenNames z0
  have hz0 : Keeps r z0 := by
    unfold z0
    refine keeps_forN ?_ _ _ ?_
    · exact h
    · intro w1_0 w1_1 hw1
      refine keeps_ite _ ?_ ?_
      · exact hw1
      · refine State.modDx_keeps _ _ ?_
        refine State.recPut_keeps _ _ ?_
        exact hw1
  clear_value z0
  refine keeps_forEach ?_ _ _ ?_
  · exact hz0
  · intro w2_0 w2_1 hw2
    refine keeps_ite _ ?_ ?_
    · exact hw2
    · refine State.modDx_keeps _ _ ?_
      refine keeps_forEach ?_ _ _ ?_
      · exact hw2
      · intro w3_0 w3_1 hw3
        refine State.recPut_keeps _ _ ?_
        exact hw3

theorem State.recAxposes_keeps {r : State} (a0 : State) (a1 : Nat) (h : Keeps r a0) : Keeps r (State.recAxposes a0 a1) := by
  induction a1 generalizing a0 with
  | zero => exact h
  | succ k ih =>
    unfold State.recAxposes
    dsimp only
    split
    · exact h
    · exact ih _ (State.modDx_keeps _ _ (State.recPut_keeps _ _ h))

theorem State.recTake_keeps {r : State} (a0 : State) (a1 : Nat) (h : Keeps r a0) : Keeps r ((State.recTake a0 a1).2) := by
  unfold State.recTake
  refine keeps_ite2 _ ?_ ?_
  · refine keeps_snd ?_
    exact h
  · extract_lets -merge -useContext +onlyGivenNames z0
    have hz0 : Keeps r z0 := by
      unfold z0
      refine State.recDue_keeps _ ?_
      exact h
    clear_value z0
    extract_lets -merge -useContext +onlyGivenNames z1
    clear_value z1
    extract_lets -merge -useContext +onlyGivenNames z2
    have hz2 : Keeps r z2 := by
      unfold z2
      refine State.recAxposes_keeps _ _ ?_
      exact hz0
    clear_value z2
    extract_lets -merge -useContext +onlyGivenNames z3
    clear_value z3
    refine keeps_snd ?_
    refine State.modDx_keeps _ _ ?_
    exact hz2

theorem State.recResend_keeps {r : State} (a0 : State) (h : Keeps r a0) : Keeps r (State.recResend a0) := by
  unfold State.recResend
  refine State.modDx_keeps _ _ ?_
  exact h

theorem State.recAck_keeps {r : State} (a0 : State) (a1 : Nat) (h : Keeps r a0) : Keeps r (State.recAck a0 a1) := by
  unfold State.recAck
  refine State.modDx_keeps _ _ ?_
  exact h

theorem State.peerDown_keeps {r : State} (a0 : State) (a1 : Nat) (h : Keeps r a0) : Keeps r ((State.peerDown a0 a1).2) := by
  unfold State.peerDown
  have hd0 : Keeps r (a0.recTake a1).2 := by
    refine State.recTake_keeps _ _ ?_
    exact h
  split
  · extract_lets -merge -useContext +onlyGivenNames z1
    clear_value z1
    extract_lets -merge -useContext +onlyGivenNames z2
    clear_value z2
    extract_lets -merge -useContext +onlyGivenNames z3
    clear_value z3
    extract_lets -merge -useContext +onlyGivenNames z4
    clear_value z4
    refine keeps_snd ?_
    exact (by simp_all)

theorem State.spliceAsked_keeps {r : State} (a0 : State) (a1 : Nat) (h : Keeps r a0) : Keeps r (State.spliceAsked a0 a1) := by
  unfold State.spliceAsked
  refine keeps_ite _ ?_ ?_
  · refine State.modDx_keeps _ _ ?_
    exact h
  · exact h

theorem State.spliceAborted_keeps {r : State} (a0 : State) (h : Keeps r a0) : Keeps r (State.spliceAborted a0) := by
  unfold State.spliceAborted
  split
  · refine keeps_ite _ ?_ ?_
    · exact h
    · refine State.modDx_keeps _ _ ?_
      exact h
  · exact h

theorem State.spliceAcked_keeps {r : State} (a0 : State) (h : Keeps r a0) : Keeps r (State.spliceAcked a0) := by
  unfold State.spliceAcked
  refine State.modDx_keeps _ _ ?_
  exact h

theorem State.peerDownIn_keeps {r : State} (a0 : State) (a1 : List Byte) (h : Keeps r a0) : Keeps r (State.peerDownIn a0 a1) := by
  unfold State.peerDownIn
  extract_lets -merge -useContext +onlyGivenNames z0
  clear_value z0
  extract_lets -merge -useContext +onlyGivenNames z1
  have hz1 : Keeps r z1 := by
    unfold z1
    refine State.modDx_keeps _ _ ?_
    exact h
  clear_value z1
  extract_lets -merge -useContext +onlyGivenNames z2
  have hz2 : Keeps r z2 := by
    unfold z2
    refine keeps_ite _ ?_ ?_
    · refine State.spliceAsked_keeps _ _ ?_
      exact hz1
    · exact hz1
  clear_value z2
  extract_lets -merge -useContext +onlyGivenNames z3
  have hz3 : Keeps r z3 := by
    unfold z3
    refine keeps_ite _ ?_ ?_
    · refine State.spliceAborted_keeps _ ?_
      exact hz2
    · exact hz2
  clear_value z3
  refine State.modDx_keeps _ _ ?_
  exact hz3

theorem State.peerUpIn_keeps {r : State} (a0 : State) (a1 : Nat) (a2 : List Byte) (h : Keeps r a0) : Keeps r (State.peerUpIn a0 a1 a2) := by
  unfold State.peerUpIn
  extract_lets -merge -useContext +onlyGivenNames z0
  clear_value z0
  refine keeps_ite _ ?_ ?_
  · exact h
  · extract_lets -merge -useContext +onlyGivenNames z1
    clear_value z1
    extract_lets -merge -useContext +onlyGivenNames z2
    have hz2 : Keeps r z2 := by
      unfold z2
      refine State.modDx_keeps _ _ ?_
      refine State.learnPartner_keeps _ _ ?_
      exact h
    clear_value z2
    extract_lets -merge -useContext +onlyGivenNames z3
    have hz3 : Keeps r z3 := by
      unfold z3
      refine State.dxBeat_keeps _ _ _ ?_
      exact hz2
    clear_value z3
    extract_lets -merge -useContext +onlyGivenNames z4
    have hz4 : Keeps r z4 := by
      unfold z4
      refine keeps_ite _ ?_ ?_
      · refine State.spliceAcked_keeps _ ?_
        exact hz3
      · exact hz3
    clear_value z4
    refine State.recAck_keeps _ _ ?_
    exact hz4

theorem State.rpTo_keeps {r : State} (a0 : State) (a1 : Nat) (a2 : Nat) (h : Keeps r a0) : Keeps r (State.rpTo a0 a1 a2) := by
  unfold State.rpTo
  refine State.set_keeps _ _ _ ?_
  exact h

theorem State.stepDown_keeps {r : State} (a0 : State) (a1 : Nat) (h : Keeps r a0) : Keeps r (State.stepDown a0 a1) := by
  unfold State.stepDown
  extract_lets -merge -useContext +onlyGivenNames z0
  have hz0 : Keeps r z0 := by
    unfold z0
    refine State.set_keeps _ _ _ ?_
    exact h
  clear_value z0
  refine State.report_keeps _ _ _ _ _ ?_
  refine State.raise_keeps _ _ ?_
  exact hz0

theorem State.speedCheck_keeps {r : State} (a0 : State) (a1 : Nat) (h : Keeps r a0) : Keeps r (State.speedCheck a0 a1) := by
  unfold State.speedCheck
  refine keeps_ite _ ?_ ?_
  · refine State.stepDown_keeps _ _ ?_
    exact h
  · exact h

theorem State.rediscover_keeps {r : State} (a0 : State) (a1 : Nat) (h : Keeps r a0) : Keeps r (State.rediscover a0 a1) := by
  unfold State.rediscover
  extract_lets -merge -useContext +onlyGivenNames z0
  have hz0 : Keeps r z0 := by
    unfold z0
    refine State.modRing_keeps _ _ _ ?_
    exact h
  clear_value z0
  extract_lets -merge -useContext +onlyGivenNames z1
  have hz1 : Keeps r z1 := by
    unfold z1
    refine State.setReg_keeps _ _ _ ?_
    refine State.clr_keeps _ _ ?_
    exact hz0
  clear_value z1
  extract_lets -merge -useContext +onlyGivenNames z2
  have hz2 : Keeps r z2 := by
    unfold z2
    refine State.rpTo_keeps _ _ _ ?_
    exact hz1
  clear_value z2
  refine State.speedCheck_keeps _ _ ?_
  refine State.speedCheck_keeps _ _ ?_
  exact hz2

theorem State.discover_keeps {r : State} (a0 : State) (a1 : Nat) (h : Keeps r a0) : Keeps r (State.discover a0 a1) := by
  unfold State.discover
  extract_lets -merge -useContext +onlyGivenNames z0
  clear_value z0
  refine State.rediscover_keeps _ _ ?_
  refine State.set_keeps _ _ _ ?_
  exact h

theorem State.listen_keeps {r : State} (a0 : State) (a1 : Nat) (h : Keeps r a0) : Keeps r (State.listen a0 a1) := by
  unfold State.listen
  refine State.rpTo_keeps _ _ _ ?_
  refine State.modRing_keeps _ _ _ ?_
  exact h

theorem State.portEnable_keeps {r : State} (a0 : State) (a1 : Nat) (h : Keeps r a0) : Keeps r (State.portEnable a0 a1) := by
  unfold State.portEnable
  refine keeps_ite _ ?_ ?_
  · exact h
  · refine keeps_ite _ ?_ ?_
    · refine State.raise_keeps _ _ ?_
      exact h
    · refine State.listen_keeps _ _ ?_
      refine State.clr_keeps _ _ ?_
      exact h

theorem State.portIdle_keeps {r : State} (a0 : State) (a1 : Nat) (h : Keeps r a0) : Keeps r (State.portIdle a0 a1) := by
  unfold State.portIdle
  refine State.rpTo_keeps _ _ _ ?_
  refine State.modRing_keeps _ _ _ ?_
  exact h

theorem State.portDisable_keeps {r : State} (a0 : State) (a1 : Nat) (h : Keeps r a0) : Keeps r (State.portDisable a0 a1) := by
  unfold State.portDisable
  refine keeps_ite _ ?_ ?_
  · refine State.modRing_keeps _ _ _ ?_
    exact h
  · refine State.portIdle_keeps _ _ ?_
    exact h

theorem State.setSent_keeps {r : State} (a0 : State) (a1 : Nat) (a2 : Bool) (a3 : List Byte) (h : Keeps r a0) : Keeps r (State.setSent a0 a1 a2 a3) := by
  unfold State.setSent
  refine State.modRing_keeps _ _ _ ?_
  exact h

theorem State.configFrame_keeps {r : State} (a0 : State) (a1 : Nat) (a2 : Bool) (h : Keeps r a0) : Keeps r ((State.configFrame a0 a1 a2).2) := by
  unfold State.configFrame
  extract_lets -merge -useContext +onlyGivenNames z0
  clear_value z0
  extract_lets -merge -useContext +onlyGivenNames z1
  clear_value z1
  extract_lets -merge -useContext +onlyGivenNames z2
  clear_value z2
  extract_lets -merge -useContext +onlyGivenNames z3
  clear_value z3
  extract_lets -merge -useContext +onlyGivenNames z4
  clear_value z4
  extract_lets -merge -useContext +onlyGivenNames z5
  clear_value z5
  refine keeps_snd ?_
  refine State.setRing_keeps _ _ _ ?_
  exact h

theorem State.datagram_keeps {r : State} (a0 : State) (a1 : Nat) (a2 : Nat) (a3 : SEnt) (h : Keeps r a0) : Keeps r ((State.datagram a0 a1 a2 a3).2) := by
  unfold State.datagram
  extract_lets -merge -useContext +onlyGivenNames z0
  clear_value z0
  extract_lets -merge -useContext +onlyGivenNames z1
  clear_value z1
  split
  · refine keeps_snd ?_
    exact h
  · extract_lets -merge -useContext +onlyGivenNames z2
    clear_value z2
    split
    · refine keeps_snd ?_
      exact h
    · extract_lets -merge -useContext +onlyGivenNames z3
      clear_value z3
      refine keeps_snd ?_
      refine State.setRing_keeps _ _ _ ?_
      exact h
  · extract_lets -merge -useContext +onlyGivenNames z4
    have hz4 : Keeps r z4.2 := by
      unfold z4
      refine State.containerDown_keeps _ _ _ _ ?_
      exact h
    clear_value z4
    refine keeps_snd ?_
    exact hz4
  · refine keeps_snd ?_
    exact h
  · extract_lets -merge -useContext +onlyGivenNames z5
    have hz5 : Keeps r z5.2 := by
      unfold z5
      refine State.peerDown_keeps _ _ ?_
      exact h
    clear_value z5
    refine keeps_snd ?_
    exact hz5
  · refine keeps_snd ?_
    exact h

theorem State.areaBytes_keeps {r : State} (a0 : State) (a1 : Nat) (a2 : Nat) (a3 : List SEnt) (h : Keeps r a0) : Keeps r ((State.areaBytes a0 a1 a2 a3).2) := by
  induction a3 generalizing a0 with
  | nil => exact h
  | cons e es ih => exact ih _ (State.datagram_keeps _ _ _ _ h)

theorem State.healFail_keeps {r : State} (a0 : State) (a1 : Nat) (h : Keeps r a0) : Keeps r (State.healFail a0 a1) := by
  unfold State.healFail
  refine State.modRing_keeps _ _ _ ?_
  refine State.report_keeps _ _ _ _ _ ?_
  refine State.raise_keeps _ _ ?_
  exact h

theorem State.sendCyclic_keeps {r : State} (a0 : State) (a1 : Nat) (a2 : Nat) (h : Keeps r a0) : Keeps r (State.sendCyclic a0 a1 a2) := by
  unfold State.sendCyclic
  extract_lets -merge -useContext +onlyGivenNames z0
  clear_value z0
  extract_lets -merge -useContext +onlyGivenNames z1
  clear_value z1
  extract_lets -merge -useContext +onlyGivenNames z2
  clear_value z2
  refine keeps_ite _ ?_ ?_
  · exact h
  · extract_lets -merge -useContext +onlyGivenNames z3
    have hz3 : Keeps r z3.2 := by
      unfold z3
      refine State.areaBytes_keeps _ _ _ _ ?_
      exact h
    clear_value z3
    extract_lets -merge -useContext +onlyGivenNames z4
    have hz4 : Keeps r z4 := by
      unfold z4
      exact hz3
    clear_value z4
    extract_lets -merge -useContext +onlyGivenNames z5
    clear_value z5
    extract_lets -merge -useContext +onlyGivenNames z6
    clear_value z6
    extract_lets -merge -useContext +onlyGivenNames z7
    clear_value z7
    extract_lets -merge -useContext +onlyGivenNames z8
    have hz8 : Keeps r z8 := by
      unfold z8
      refine State.setSent_keeps _ _ _ _ ?_
      exact hz4
    clear_value z8
    extract_lets -merge -useContext +onlyGivenNames z9
    have hz9 : Keeps r z9 := by
      unfold z9
      refine keeps_ite _ ?_ ?_
      · exact hz8
      · refine keeps_ite _ ?_ ?_
        · refine keeps_ite _ ?_ ?_
          · refine State.modDx_keeps _ _ ?_
            exact hz8
          · exact hz8
        · refine State.setSent_keeps _ _ _ _ ?_
          exact hz8
    clear_value z9
    extract_lets -merge -useContext +onlyGivenNames z10
    clear_value z10
    refine keeps_ite _ ?_ ?_
    · exact hz9
    · refine keeps_ite _ ?_ ?_
      · refine State.healFail_keeps _ _ ?_
        exact hz9
      · extract_lets -merge -useContext +onlyGivenNames z11
        clear_value z11
        refine State.modRing_keeps _ _ _ ?_
        exact hz9

theorem State.frameSend_keeps {r : State} (a0 : State) (a1 : Nat) (a2 : Nat) (h : Keeps r a0) : Keeps r (State.frameSend a0 a1 a2) := by
  unfold State.frameSend
  refine keeps_ite _ ?_ ?_
  · exact h
  · extract_lets -merge -useContext +onlyGivenNames z0
    clear_value z0
    refine keeps_ite _ ?_ ?_
    · refine State.sendCyclic_keeps _ _ _ ?_
      exact h
    · refine keeps_ite _ ?_ ?_
      · exact h
      · refine keeps_ite _ ?_ ?_
        · refine State.setSent_keeps _ _ _ _ ?_
          refine State.setSent_keeps _ _ _ _ ?_
          exact h
        · refine keeps_ite _ ?_ ?_
          · split
            · exact h
            · refine State.modRing_keeps _ _ _ ?_
              refine State.setSent_keeps _ _ _ _ ?_
              exact h
          · refine keeps_ite _ ?_ ?_
            · extract_lets -merge -useContext +onlyGivenNames z1
              have hz1 : Keeps r z1.2 := by
                unfold z1
                refine State.configFrame_keeps _ _ _ ?_
                exact h
              clear_value z1
              extract_lets -merge -useContext +onlyGivenNames z2
              have hz2 : Keeps r z2 := by
                unfold z2
                refine State.setSent_keeps _ _ _ _ ?_
                exact hz1
              clear_value z2
              refine keeps_ite _ ?_ ?_
              · extract_lets -merge -useContext +onlyGivenNames z3
                have hz3 : Keeps r z3.2 := by
                  unfold z3
                  refine State.configFrame_keeps _ _ _ ?_
                  exact hz2
                clear_value z3
                refine State.setSent_keeps _ _ _ _ ?_
                exact hz3
              · exact hz2
            · exact h

theorem execFrameSend_keeps {r : State} (a0 : Fin 4) (a1 : Fin 16) (a2 : State) (h : Keeps r a2) (t : State) (e : execFrameSend a0 a1 a2 = .next t) : Keeps r t := by
  unfold execFrameSend at e
  injection e with e
  subst e
  repeat' (first | assumption | intro _ | with_reducible apply State.frameSend_keeps | with_reducible apply keeps_ite | split | dsimp only)

theorem State.dxFollow_keeps {r : State} (a0 : State) (a1 : Nat) (a2 : Nat) (h : Keeps r a0) : Keeps r (State.dxFollow a0 a1 a2) := by
  unfold State.dxFollow
  refine keeps_ite _ ?_ ?_
  · exact h
  · extract_lets -merge -useContext +onlyGivenNames z0
    have hz0 : Keeps r z0 := by
      unfold z0
      refine keeps_ite _ ?_ ?_
      · refine State.learnPartner_keeps _ _ ?_
        exact h
      · exact h
    clear_value z0
    refine keeps_ite _ ?_ ?_
    · extract_lets -merge -useContext +onlyGivenNames z1
      have hz1 : Keeps r z1 := by
        unfold z1
        refine keeps_forEach ?_ _ _ ?_
        · exact hz0
        · intro w2_0 w2_1 hw2
          refine State.set_keeps _ _ _ ?_
          exact hw2
      clear_value z1
      refine State.dxTo_keeps _ _ ?_
      exact hz1
    · exact hz0

theorem State.adoptCycle_keeps {r : State} (a0 : State) (a1 : Nat) (a2 : Hdr) (h : Keeps r a0) : Keeps r (State.adoptCycle a0 a1 a2) := by
  unfold State.adoptCycle
  extract_lets -merge -useContext +onlyGivenNames z0
  have hz0 : Keeps r z0 := by
    unfold z0
    refine State.modRing_keeps _ _ _ ?_
    exact h
  clear_value z0
  refine keeps_ite _ ?_ ?_
  · exact hz0
  · extract_lets -merge -useContext +onlyGivenNames z1
    clear_value z1
    extract_lets -merge -useContext +onlyGivenNames z2
    clear_value z2
    extract_lets -merge -useContext +onlyGivenNames z3
    clear_value z3
    refine keeps_tim ?_ _ (fun y => y)
    exact hz0

theorem State.followTime_keeps {r : State} (a0 : State) (a1 : Nat) (a2 : Bool) (a3 : Hdr) (h : Keeps r a0) : Keeps r (State.followTime a0 a1 a2 a3) := by
  unfold State.followTime
  extract_lets -merge -useContext +onlyGivenNames z0
  clear_value z0
  refine keeps_forN ?_ _ _ ?_
  · exact h
  · intro w1_0 w1_1 hw1
    refine keeps_ite _ ?_ ?_
    · refine State.ringTime_keeps _ _ _ ?_
      exact hw1
    · exact hw1

theorem State.listenFrame_keeps {r : State} (a0 : State) (a1 : Nat) (a2 : Bool) (a3 : Hdr) (h : Keeps r a0) : Keeps r (State.listenFrame a0 a1 a2 a3) := by
  unfold State.listenFrame
  extract_lets -merge -useContext +onlyGivenNames z0
  clear_value z0
  extract_lets -merge -useContext +onlyGivenNames z1
  clear_value z1
  extract_lets -merge -useContext +onlyGivenNames z2
  have hz2 : Keeps r z2 := by
    unfold z2
    refine State.modRing_keeps _ _ _ ?_
    exact h
  clear_value z2
  refine keeps_ite _ ?_ ?_
  · refine State.dxFollow_keeps _ _ _ ?_
    refine State.followTime_keeps _ _ _ _ ?_
    refine State.adoptCycle_keeps _ _ _ ?_
    refine State.rpTo_keeps _ _ _ ?_
    exact hz2
  · exact hz2

theorem State.turnFrame_keeps {r : State} (a0 : State) (a1 : Nat) (a2 : Bool) (a3 : List Byte) (a4 : Hdr) (a5 : List Dg) (h : Keeps r a0) : Keeps r (State.turnFrame a0 a1 a2 a3 a4 a5) := by
  unfold State.turnFrame
  extract_lets -merge -useContext +onlyGivenNames z0
  clear_value z0
  extract_lets -merge -useContext +onlyGivenNames z1
  clear_value z1
  extract_lets -merge -useContext +onlyGivenNames z2
  clear_value z2
  extract_lets -merge -useContext +onlyGivenNames z3
  clear_value z3
  extract_lets -merge -useContext +onlyGivenNames z4
  have hz4 : Keeps r z4 := by
    unfold z4
    refine keeps_foldl _ _ _ ?_ ?_
    · exact h
    · intro w5_0 w5_1 hw5
      refine keeps_ite _ ?_ ?_
      · refine State.peerDownIn_keeps _ _ ?_
        exact hw5
      · exact hw5
  clear_value z4
  refine keeps_ite _ ?_ ?_
  · refine State.setSent_keeps _ _ _ _ ?_
    refine keeps_free (s := z4) ?_ _ (by omega)
    exact hz4
  · exact hz4

theorem State.followMseq_keeps {r : State} (a0 : State) (a1 : Nat) (a2 : List Byte) (a3 : List Dg) (h : Keeps r a0) : Keeps r (State.followMseq a0 a1 a2 a3) := by
  unfold State.followMseq
  refine keeps_foldl _ _ _ ?_ ?_
  · exact h
  · intro w0_0 w0_1 hw0
    refine keeps_ite _ ?_ ?_
    · refine State.modRing_keeps _ _ _ ?_
      exact hw0
    · exact hw0

theorem State.followFrame_keeps {r : State} (a0 : State) (a1 : Nat) (a2 : Bool) (a3 : List Byte) (a4 : Hdr) (a5 : List Dg) (h : Keeps r a0) : Keeps r (State.followFrame a0 a1 a2 a3 a4 a5) := by
  unfold State.followFrame
  extract_lets -merge -useContext +onlyGivenNames z0
  have hz0 : Keeps r z0 := by
    unfold z0
    refine State.followTime_keeps _ _ _ _ ?_
    refine State.adoptCycle_keeps _ _ _ ?_
    exact h
  clear_value z0
  extract_lets -merge -useContext +onlyGivenNames z1
  have hz1 : Keeps r z1 := by
    unfold z1
    refine State.followMseq_keeps _ _ _ _ ?_
    refine State.modRing_keeps _ _ _ ?_
    exact hz0
  clear_value z1
  refine keeps_ite _ ?_ ?_
  · exact hz1
  · extract_lets -merge -useContext +onlyGivenNames z2
    have hz2 : Keeps r z2 := by
      unfold z2
      refine State.dxBeat_keeps _ _ _ ?_
      refine State.learnPartner_keeps _ _ ?_
      exact hz1
    clear_value z2
    extract_lets -merge -useContext +onlyGivenNames z3
    have hz3 : Keeps r z3 := by
      unfold z3
      refine keeps_ite _ ?_ ?_
      · refine State.decided_keeps _ _ _ _ ?_
        exact hz2
      · exact hz2
    clear_value z3
    refine keeps_ite _ ?_ ?_
    · refine State.turnFrame_keeps _ _ _ _ _ _ ?_
      exact hz3
    · refine State.modDx_keeps _ _ ?_
      exact hz3

theorem State.foreignLost_keeps {r : State} (a0 : State) (a1 : Nat) (a2 : List Nat) (h : Keeps r a0) : Keeps r (State.foreignLost a0 a1 a2) := by
  unfold State.foreignLost
  extract_lets -merge -useContext +onlyGivenNames z0
  have hz0 : Keeps r z0 := by
    unfold z0
    refine State.report_keeps _ _ _ _ _ ?_
    refine State.raise_keeps _ _ ?_
    exact h
  clear_value z0
  refine keeps_ite _ ?_ ?_
  · extract_lets -merge -useContext +onlyGivenNames z1
    have hz1 : Keeps r z1 := by
      unfold z1
      refine keeps_forEach ?_ _ _ ?_
      · exact hz0
      · intro w2_0 w2_1 hw2
        refine keeps_ite _ ?_ ?_
        · refine State.listen_keeps _ _ ?_
          exact hw2
        · exact hw2
    clear_value z1
    extract_lets -merge -useContext +onlyGivenNames z3
    have hz3 : Keeps r z3 := by
      unfold z3
      refine State.modDx_keeps _ _ ?_
      exact hz1
    clear_value z3
    refine keeps_forEach ?_ _ _ ?_
    · refine State.dxTo_keeps _ _ ?_
      exact hz3
    · intro w4_0 w4_1 hw4
      refine State.set_keeps _ _ _ ?_
      exact hw4
  · refine State.listen_keeps _ _ ?_
    exact hz0

theorem State.foreignHeader_keeps {r : State} (a0 : State) (a1 : Nat) (a2 : Hdr) (h : Keeps r a0) : Keeps r (State.foreignHeader a0 a1 a2) := by
  unfold State.foreignHeader
  extract_lets -merge -useContext +onlyGivenNames z0
  have hz0 : Keeps r z0 := by
    unfold z0
    refine State.count_keeps _ _ ?_
    exact h
  clear_value z0
  refine keeps_ite _ ?_ ?_
  · exact hz0
  · refine State.foreignLost_keeps _ _ _ ?_
    exact hz0

theorem State.discoverIn_keeps {r : State} (a0 : State) (a1 : Nat) (a2 : List Byte) (a3 : Hdr) (a4 : List Dg) (h : Keeps r a0) : Keeps r (State.discoverIn a0 a1 a2 a3 a4) := by
  unfold State.discoverIn
  split
  · exact h
  · extract_lets -merge -useContext +onlyGivenNames z0
    clear_value z0
    refine keeps_ite _ ?_ ?_
    · refine State.modRing_keeps _ _ _ ?_
      refine State.stepDown_keeps _ _ ?_
      exact h
    · extract_lets -merge -useContext +onlyGivenNames z1
      have hz1 : Keeps r z1 := by
        unfold z1
        refine State.modRing_keeps _ _ _ ?_
        exact h
      clear_value z1
      extract_lets -merge -useContext +onlyGivenNames z2
      clear_value z2
      extract_lets -merge -useContext +onlyGivenNames z3
      clear_value z3
      extract_lets -merge -useContext +onlyGivenNames z4
      clear_value z4
      refine keeps_ite _ ?_ ?_
      · refine State.rpTo_keeps _ _ _ ?_
        refine State.modRing_keeps _ _ _ ?_
        exact hz1
      · exact hz1

theorem State.configNodes_keeps {r : State} (a0 : State) (a1 : Nat) (h : Keeps r a0) : Keeps r (State.configNodes a0 a1) := by
  unfold State.configNodes
  extract_lets -merge -useContext +onlyGivenNames z0
  clear_value z0
  extract_lets -merge -useContext +onlyGivenNames z1
  clear_value z1
  extract_lets -merge -useContext +onlyGivenNames z2
  clear_value z2
  extract_lets -merge -useContext +onlyGivenNames z3
  clear_value z3
  extract_lets -merge -useContext +onlyGivenNames z4
  have hz4 : Keeps r z4 := by
    unfold z4
    refine State.modRing_keeps _ _ _ ?_
    exact h
  clear_value z4
  extract_lets -merge -useContext +onlyGivenNames z5
  have hz5 : Keeps r z5 := by
    unfold z5
    refine keeps_forN ?_ _ _ ?_
    · exact hz4
    · intro w6_0 w6_1 hw6
      refine keeps_forN ?_ _ _ ?_
      · exact hw6
      · intro w7_0 w7_1 hw7
        refine State.setReg_keeps _ _ _ ?_
        exact hw7
  clear_value z5
  extract_lets -merge -useContext +onlyGivenNames z8
  have hz8 : ∀ y0 y1 y2 y3, Keeps r y3 → Keeps r (z8 y0 y1 y2 y3) := by
    unfold z8
    intro w9_0 w9_1 w9_2 w9_3 hw9
    extract_lets -merge -useContext +onlyGivenNames z10
    clear_value z10
    refine keeps_ite _ ?_ ?_
    · exact hw9
    · extract_lets -merge -useContext +onlyGivenNames z11
      clear_value z11
      extract_lets -merge -useContext +onlyGivenNames z12
      clear_value z12
      extract_lets -merge -useContext +onlyGivenNames z13
      clear_value z13
      extract_lets -merge -useContext +onlyGivenNames z14
      have hz14 : Keeps r z14 := by
        unfold z14
        refine State.setReg_keeps _ _ _ ?_
        refine State.setReg_keeps _ _ _ ?_
        exact hw9
      clear_value z14
      extract_lets -merge -useContext +onlyGivenNames z15
      have hz15 : Keeps r z15 := by
        unfold z15
        refine State.set_keeps _ _ _ ?_
        refine State.set_keeps _ _ _ ?_
        exact hz14
      clear_value z15
      extract_lets -merge -useContext +onlyGivenNames z16
      have hz16 : Keeps r z16 := by
        unfold z16
        refine State.set_keeps _ _ _ ?_
        refine State.setB_keeps _ _ _ ?_
        refine State.set_keeps _ _ _ ?_
        exact hz15
      clear_value z16
      extract_lets -merge -useContext +onlyGivenNames z17
      have hz17 : Keeps r z17 := by
        unfold z17
        refine State.setReg_keeps _ _ _ ?_
        refine State.setReg_keeps _ _ _ ?_
        refine State.setNt_keeps _ _ _ _ ?_
        exact hz16
      clear_value z17
      extract_lets -merge -useContext +onlyGivenNames z18
      have hz18 : Keeps r z18 := by
        unfold z18
        refine State.mailSend_keeps _ _ _ ?_
        exact hz17
      clear_value z18
      extract_lets -merge -useContext +onlyGivenNames z19
      have hz19 : Keeps r z19 := by
        unfold z19
        refine State.mailSend_keeps _ _ _ ?_
        exact hz18
      clear_value z19
      extract_lets -merge -useContext +onlyGivenNames z20
      have hz20 : Keeps r z20 := by
        unfold z20
        refine State.mailSend_keeps _ _ _ ?_
        exact hz19
      clear_value z20
      refine keeps_forN ?_ _ _ ?_
      · exact hz20
      · intro w21_0 w21_1 hw21
        refine State.mailSend_keeps _ _ _ ?_
        exact hw21
  clear_value z8
  extract_lets -merge -useContext +onlyGivenNames z22
  have hz22 : Keeps r z22 := by
    unfold z22
    refine keeps_forN ?_ _ _ ?_
    · exact hz5
    · intro w23_0 w23_1 hw23
      refine hz8 _ _ _ _ ?_
      exact hw23
  clear_value z22
  extract_lets -merge -useContext +onlyGivenNames z24
  have hz24 : Keeps r z24 := by
    unfold z24
    refine keeps_forN ?_ _ _ ?_
    · exact hz22
    · intro w25_0 w25_1 hw25
      refine hz8 _ _ _ _ ?_
      exact hw25
  clear_value z24
  extract_lets -merge -useContext +onlyGivenNames z26
  have hz26 : Keeps r z26 := by
    unfold z26
    refine State.set_keeps _ _ _ ?_
    exact hz24
  clear_value z26
  extract_lets -merge -useContext +onlyGivenNames z27
  have hz27 : Keeps r z27 := by
    unfold z27
    refine keeps_ite _ ?_ ?_
    · refine State.set_keeps _ _ _ ?_
      refine State.set_keeps _ _ _ ?_
      refine State.raise_keeps _ _ ?_
      exact hz26
    · exact hz26
  clear_value z27
  refine State.rpTo_keeps _ _ _ ?_
  exact hz27

theorem State.stepRejected_keeps {r : State} (a0 : State) (a1 : Nat) (h : Keeps r a0) : Keeps r (State.stepRejected a0 a1) := by
  unfold State.stepRejected
  extract_lets -merge -useContext +onlyGivenNames z0
  clear_value z0
  refine keeps_ite _ ?_ ?_
  · refine State.report_keeps _ _ _ _ _ ?_
    refine State.rpTo_keeps _ _ _ ?_
    refine State.raise_keeps _ _ ?_
    exact h
  · refine State.modRing_keeps _ _ _ ?_
    exact h

theorem State.delayIn_keeps {r : State} (a0 : State) (a1 : Nat) (a2 : List Byte) (a3 : Hdr) (a4 : List Dg) (h : Keeps r a0) : Keeps r (State.delayIn a0 a1 a2 a3 a4) := by
  unfold State.delayIn
  split
  · extract_lets -merge -useContext +onlyGivenNames z0
    clear_value z0
    extract_lets -merge -useContext +onlyGivenNames z1
    clear_value z1
    refine keeps_ite _ ?_ ?_
    · exact h
    · refine keeps_ite _ ?_ ?_
      · refine State.rediscover_keeps _ _ ?_
        exact h
      · refine keeps_ite _ ?_ ?_
        · refine State.rediscover_keeps _ _ ?_
          refine State.count_keeps _ _ ?_
          exact h
        · extract_lets -merge -useContext +onlyGivenNames z2
          clear_value z2
          extract_lets -merge -useContext +onlyGivenNames z3
          clear_value z3
          extract_lets -merge -useContext +onlyGivenNames z4
          clear_value z4
          extract_lets -merge -useContext +onlyGivenNames z5
          clear_value z5
          extract_lets -merge -useContext +onlyGivenNames z6
          have hz6 : Keeps r z6 := by
            unfold z6
            refine State.burn_keeps _ ?_
            exact h
          clear_value z6
          refine keeps_ite _ ?_ ?_
          · refine State.modRing_keeps _ _ _ ?_
            exact hz6
          · split
            · refine State.stepRejected_keeps _ _ ?_
              exact hz6
            · extract_lets -merge -useContext +onlyGivenNames z7
              have hz7 : Keeps r z7 := by
                unfold z7
                refine State.modRing_keeps _ _ _ ?_
                exact hz6
              clear_value z7
              refine keeps_ite _ ?_ ?_
              · refine State.configNodes_keeps _ _ ?_
                exact hz7
              · exact hz7
  · exact h

theorem State.healLeave_keeps {r : State} (a0 : State) (a1 : Nat) (h : Keeps r a0) : Keeps r (State.healLeave a0 a1) := by
  unfold State.healLeave
  refine State.modRing_keeps _ _ _ ?_
  exact h

theorem State.healStart_keeps {r : State} (a0 : State) (a1 : Nat) (h : Keeps r a0) : Keeps r (State.healStart a0 a1) := by
  unfold State.healStart
  refine keeps_ite _ ?_ ?_
  · refine State.healLeave_keeps _ _ ?_
    exact h
  · refine State.modRing_keeps _ _ _ ?_
    exact h

theorem State.healWrite_keeps {r : State} (a0 : State) (a1 : Nat) (h : Keeps r a0) : Keeps r (State.healWrite a0 a1) := by
  unfold State.healWrite
  refine keeps_ite _ ?_ ?_
  · exact h
  · refine keeps_ite _ ?_ ?_
    · refine State.healStart_keeps _ _ ?_
      exact h
    · refine State.raise_keeps _ _ ?_
      exact h

theorem State.healDelay_keeps {r : State} (a0 : State) (a1 : Nat) (a2 : List Byte) (a3 : List Dg) (h : Keeps r a0) : Keeps r (State.healDelay a0 a1 a2 a3) := by
  unfold State.healDelay
  split
  · exact h
  · extract_lets -merge -useContext +onlyGivenNames z0
    clear_value z0
    extract_lets -merge -useContext +onlyGivenNames z1
    clear_value z1
    extract_lets -merge -useContext +onlyGivenNames z2
    clear_value z2
    refine keeps_ite _ ?_ ?_
    · refine State.healFail_keeps _ _ ?_
      exact h
    · refine keeps_ite _ ?_ ?_
      · refine State.healFail_keeps _ _ ?_
        refine State.count_keeps _ _ ?_
        exact h
      · extract_lets -merge -useContext +onlyGivenNames z3
        clear_value z3
        extract_lets -merge -useContext +onlyGivenNames z4
        have hz4 : Keeps r z4 := by
          unfold z4
          refine State.modRing_keeps _ _ _ ?_
          exact h
        clear_value z4
        refine keeps_ite _ ?_ ?_
        · refine State.modRing_keeps _ _ _ ?_
          exact hz4
        · split
          · refine State.healFail_keeps _ _ ?_
            exact hz4
          · extract_lets -merge -useContext +onlyGivenNames z5
            have hz5 : Keeps r z5 := by
              unfold z5
              refine State.modRing_keeps _ _ _ ?_
              exact hz4
            clear_value z5
            extract_lets -merge -useContext +onlyGivenNames z6
            have hz6 : Keeps r z6 := by
              unfold z6
              refine State.setReg_keeps _ _ _ ?_
              exact hz5
            clear_value z6
            extract_lets -merge -useContext +onlyGivenNames z7
            have hz7 : ∀ y0 y1, Keeps r y1 → Keeps r (z7 y0 y1) := by
              unfold z7
              intro w8_0 w8_1 hw8
              refine State.mailSend_keeps _ _ _ ?_
              exact hw8
            clear_value z7
            extract_lets -merge -useContext +onlyGivenNames z9
            have hz9 : Keeps r z9 := by
              unfold z9
              refine hz7 _ _ ?_
              exact hz6
            clear_value z9
            refine keeps_ite _ ?_ ?_
            · exact hz9
            · refine hz7 _ _ ?_
              refine State.setReg_keeps _ _ _ ?_
              exact hz9

theorem State.healWritten_keeps {r : State} (a0 : State) (a1 : Nat) (a2 : Nat) (h : Keeps r a0) : Keeps r (State.healWritten a0 a1 a2) := by
  unfold State.healWritten
  refine keeps_ite _ ?_ ?_
  · exact h
  · refine keeps_ite _ ?_ ?_
    · refine State.healFail_keeps _ _ ?_
      exact h
    · extract_lets -merge -useContext +onlyGivenNames z0
      clear_value z0
      refine keeps_ite _ ?_ ?_
      · exact h
      · refine State.healLeave_keeps _ _ ?_
        exact h

theorem State.healCheck_keeps {r : State} (a0 : State) (a1 : Nat) (h : Keeps r a0) : Keeps r (State.healCheck a0 a1) := by
  unfold State.healCheck
  extract_lets -merge -useContext +onlyGivenNames z0
  clear_value z0
  refine keeps_ite _ ?_ ?_
  · extract_lets -merge -useContext +onlyGivenNames z1
    have hz1 : Keeps r z1 := by
      unfold z1
      refine State.clr_keeps _ _ ?_
      refine State.clr_keeps _ _ ?_
      exact h
    clear_value z1
    extract_lets -merge -useContext +onlyGivenNames z2
    have hz2 : Keeps r z2 := by
      unfold z2
      refine State.rpTo_keeps _ _ _ ?_
      refine State.clr_keeps _ _ ?_
      exact hz1
    clear_value z2
    refine State.modRing_keeps _ _ _ ?_
    exact hz2
  · exact h

theorem State.healTimeout_keeps {r : State} (a0 : State) (a1 : Nat) (a2 : Bool) (h : Keeps r a0) : Keeps r (State.healTimeout a0 a1 a2) := by
  unfold State.healTimeout
  refine keeps_ite _ ?_ ?_
  · exact h
  · refine State.modRing_keeps _ _ _ ?_
    refine State.healFail_keeps _ _ ?_
    exact h

theorem State.nodeJoined_keeps {r : State} (a0 : State) (a1 : Nat) (a2 : Nat) (h : Keeps r a0) : Keeps r (State.nodeJoined a0 a1 a2) := by
  unfold State.nodeJoined
  extract_lets -merge -useContext +onlyGivenNames z0
  clear_value z0
  extract_lets -merge -useContext +onlyGivenNames z1
  have hz1 : Keeps r z1 := by
    unfold z1
    refine State.setNt_keeps _ _ _ _ ?_
    exact h
  clear_value z1
  extract_lets -merge -useContext +onlyGivenNames z2
  have hz2 : Keeps r z2 := by
    unfold z2
    refine keeps_forEach ?_ _ _ ?_
    · exact hz1
    · intro w3_0 w3_1 hw3
      refine State.modAx_keeps _ _ _ ?_
      exact hw3
  clear_value z2
  extract_lets -merge -useContext +onlyGivenNames z4
  have hz4 : Keeps r z4 := by
    unfold z4
    refine State.modRing_keeps _ _ _ ?_
    exact hz2
  clear_value z4
  extract_lets -merge -useContext +onlyGivenNames z5
  have hz5 : ∀ y0 y1 y2, Keeps r y2 → Keeps r (z5 y0 y1 y2) := by
    unfold z5
    intro w6_0 w6_1 w6_2 hw6
    refine State.mailSend_keeps _ _ _ ?_
    exact hw6
  clear_value z5
  extract_lets -merge -useContext +onlyGivenNames z7
  have hz7 : Keeps r z7 := by
    unfold z7
    refine hz5 _ _ _ ?_
    refine hz5 _ _ _ ?_
    refine hz5 _ _ _ ?_
    exact hz4
  clear_value z7
  refine keeps_forN ?_ _ _ ?_
  · exact hz7
  · intro w8_0 w8_1 hw8
    refine hz5 _ _ _ ?_
    exact hw8

theorem State.identRead_keeps {r : State} (a0 : State) (a1 : Nat) (a2 : Nat) (a3 : List Byte) (h : Keeps r a0) : Keeps r (State.identRead a0 a1 a2 a3) := by
  unfold State.identRead
  extract_lets -merge -useContext +onlyGivenNames z0
  clear_value z0
  refine keeps_ite _ ?_ ?_
  · extract_lets -merge -useContext +onlyGivenNames z1
    clear_value z1
    refine State.modRing_keeps _ _ _ ?_
    exact h
  · extract_lets -merge -useContext +onlyGivenNames z2
    have hz2 : Keeps r z2 := by
      unfold z2
      refine State.set_keeps _ _ _ ?_
      refine State.set_keeps _ _ _ ?_
      exact h
    clear_value z2
    refine State.setReg_keeps _ _ _ ?_
    refine State.setReg_keeps _ _ _ ?_
    exact hz2

theorem State.phashRead_keeps {r : State} (a0 : State) (a1 : Nat) (a2 : Nat) (a3 : Nat) (h : Keeps r a0) : Keeps r (State.phashRead a0 a1 a2 a3) := by
  unfold State.phashRead
  extract_lets -merge -useContext +onlyGivenNames z0
  clear_value z0
  refine keeps_ite _ ?_ ?_
  · refine keeps_ite _ ?_ ?_
    · refine State.clr_keeps _ _ ?_
      exact h
    · refine State.report_keeps _ _ _ _ _ ?_
      refine State.raise_keeps _ _ ?_
      exact h
  · refine State.setReg_keeps _ _ _ ?_
    exact h

theorem State.axcapRead_keeps {r : State} (a0 : State) (a1 : Nat) (a2 : Nat) (a3 : Nat) (a4 : List Byte) (h : Keeps r a0) : Keeps r (State.axcapRead a0 a1 a2 a3 a4) := by
  unfold State.axcapRead
  extract_lets -merge -useContext +onlyGivenNames z0
  have hz0 : Keeps r z0 := by
    unfold z0
    refine State.modRing_keeps _ _ _ ?_
    exact h
  clear_value z0
  split
  · exact hz0
  · refine keeps_ite _ ?_ ?_
    · refine State.capTo_keeps _ _ _ _ _ ?_
      exact hz0
    · exact hz0

theorem State.answered_keeps {r : State} (a0 : State) (a1 : Nat) (a2 : MReq) (a3 : Nat) (a4 : List Byte) (h : Keeps r a0) : Keeps r (State.answered a0 a1 a2 a3 a4) := by
  unfold State.answered
  extract_lets -merge -useContext +onlyGivenNames z0
  clear_value z0
  refine keeps_ite _ ?_ ?_
  · refine State.knotResponse_keeps _ _ _ _ _ _ ?_
    exact h
  · refine keeps_ite _ ?_ ?_
    · refine State.knotResponse_keeps _ _ _ _ _ _ ?_
      exact h
    · refine keeps_ite _ ?_ ?_
      · refine State.healWritten_keeps _ _ _ ?_
        exact h
      · refine keeps_ite _ ?_ ?_
        · refine State.nodeJoined_keeps _ _ _ ?_
          exact h
        · refine keeps_ite _ ?_ ?_
          · exact h
          · split
            · refine State.identRead_keeps _ _ _ _ ?_
              exact h
            · refine State.set_keeps _ _ _ ?_
              exact h
            · refine State.phashRead_keeps _ _ _ _ ?_
              exact h
            · refine State.clr_keeps _ _ ?_
              refine State.setReg_keeps _ _ _ ?_
              exact h
            · refine keeps_ite _ ?_ ?_
              · refine State.axcapRead_keeps _ _ _ _ _ ?_
                exact h
              · exact h

theorem State.paramIn_keeps {r : State} (a0 : State) (a1 : Nat) (a2 : Nat) (a3 : List Byte) (h : Keeps r a0) : Keeps r (State.paramIn a0 a1 a2 a3) := by
  unfold State.paramIn
  extract_lets -merge -useContext +onlyGivenNames z0
  clear_value z0
  extract_lets -merge -useContext +onlyGivenNames z1
  clear_value z1
  split
  · exact h
  · refine keeps_ite _ ?_ ?_
    · exact h
    · refine State.answered_keeps _ _ _ _ _ ?_
      refine State.setRing_keeps _ _ _ ?_
      exact h

theorem State.claimIn_keeps {r : State} (a0 : State) (a1 : Nat) (a2 : Nat) (a3 : List Byte) (h : Keeps r a0) : Keeps r (State.claimIn a0 a1 a2 a3) := by
  unfold State.claimIn
  extract_lets -merge -useContext +onlyGivenNames z0
  clear_value z0
  refine keeps_ite _ ?_ ?_
  · exact h
  · extract_lets -merge -useContext +onlyGivenNames z1
    have hz1 : Keeps r z1 := by
      unfold z1
      refine State.count_keeps _ _ ?_
      exact h
    clear_value z1
    extract_lets -merge -useContext +onlyGivenNames z2
    clear_value z2
    extract_lets -merge -useContext +onlyGivenNames z3
    clear_value z3
    split
    · exact hz1
    · refine State.modRing_keeps _ _ _ ?_
      exact hz1

theorem State.grantValid_keeps {r : State} (a0 : State) (a1 : Nat) (a2 : Grant) (h : Keeps r a0) : Keeps r (State.grantValid a0 a1 a2) := by
  unfold State.grantValid
  extract_lets -merge -useContext +onlyGivenNames z0
  clear_value z0
  extract_lets -merge -useContext +onlyGivenNames z1
  have hz1 : Keeps r z1 := by
    unfold z1
    refine State.setReg_keeps _ _ _ ?_
    refine State.setReg_keeps _ _ _ ?_
    exact h
  clear_value z1
  extract_lets -merge -useContext +onlyGivenNames z2
  have hz2 : Keeps r z2 := by
    unfold z2
    refine keeps_ite _ ?_ ?_
    · exact h
    · refine State.set_keeps _ _ _ ?_
      refine State.set_keeps _ _ _ ?_
      refine State.set_keeps _ _ _ ?_
      exact hz1
  clear_value z2
  extract_lets -merge -useContext +onlyGivenNames z3
  have hz3 : Keeps r z3 := by
    unfold z3
    refine State.freshMseq_keeps _ _ _ ?_
    exact hz2
  clear_value z3
  extract_lets -merge -useContext +onlyGivenNames z4
  have hz4 : Keeps r z4 := by
    unfold z4
    refine State.modRing_keeps _ _ _ ?_
    exact hz3
  clear_value z4
  refine State.mailSend_keeps _ _ _ ?_
  exact hz4

theorem State.freeEntry_keeps {r : State} (a0 : State) (a1 : Nat) (a2 : Nat) (h : Keeps r a0) : Keeps r (State.freeEntry a0 a1 a2) := by
  unfold State.freeEntry
  extract_lets -merge -useContext +onlyGivenNames z0
  have hz0 : Keeps r z0 := by
    unfold z0
    refine State.clr_keeps _ _ ?_
    refine State.clr_keeps _ _ ?_
    refine State.setNt_keeps _ _ _ _ ?_
    exact h
  clear_value z0
  refine State.modRing_keeps _ _ _ ?_
  exact hz0

theorem State.grantLapse_keeps {r : State} (a0 : State) (a1 : Nat) (a2 : Grant) (h : Keeps r a0) : Keeps r (State.grantLapse a0 a1 a2) := by
  unfold State.grantLapse
  extract_lets -merge -useContext +onlyGivenNames z0
  have hz0 : Keeps r z0 := by
    unfold z0
    refine State.modRing_keeps _ _ _ ?_
    exact h
  clear_value z0
  refine State.freeEntry_keeps _ _ _ ?_
  refine State.freshMseq_keeps _ _ _ ?_
  exact hz0

theorem State.breakIn_keeps {r : State} (a0 : State) (a1 : Nat) (a2 : Nat) (a3 : Nat) (a4 : Bool) (h : Keeps r a0) : Keeps r (State.breakIn a0 a1 a2 a3 a4) := by
  unfold State.breakIn
  refine keeps_ite _ ?_ ?_
  · exact h
  · extract_lets -merge -useContext +onlyGivenNames z0
    have hz0 : Keeps r z0 := by
      unfold z0
      refine keeps_ite _ ?_ ?_
      · refine State.set_keeps _ _ _ ?_
        exact h
      · exact h
    clear_value z0
    extract_lets -merge -useContext +onlyGivenNames z1
    have hz1 : Keeps r z1 := by
      unfold z1
      refine keeps_ite _ ?_ ?_
      · refine State.set_keeps _ _ _ ?_
        exact hz0
      · exact hz0
    clear_value z1
    extract_lets -merge -useContext +onlyGivenNames z2
    have hz2 : Keeps r z2 := by
      unfold z2
      refine keeps_ite _ ?_ ?_
      · refine State.modRing_keeps _ _ _ ?_
        exact hz1
      · exact hz1
    clear_value z2
    extract_lets -merge -useContext +onlyGivenNames z3
    have hz3 : Keeps r z3 := by
      unfold z3
      refine keeps_ite _ ?_ ?_
      · refine State.modRing_keeps _ _ _ ?_
        exact hz2
      · exact hz2
    clear_value z3
    refine State.healCheck_keeps _ _ ?_
    exact hz3

theorem State.axisIn_keeps {r : State} (a0 : State) (a1 : Nat) (a2 : Nat) (a3 : Nat) (a4 : Bool) (a5 : List Byte) (h : Keeps r a0) : Keeps r (State.axisIn a0 a1 a2 a3 a4 a5) := by
  unfold State.axisIn
  extract_lets -merge -useContext +onlyGivenNames z0
  clear_value z0
  extract_lets -merge -useContext +onlyGivenNames z1
  clear_value z1
  extract_lets -merge -useContext +onlyGivenNames z2
  have hz2 : Keeps r z2 := by
    unfold z2
    refine State.modRing_keeps _ _ _ ?_
    exact h
  clear_value z2
  extract_lets -merge -useContext +onlyGivenNames z3
  have hz3 : Keeps r z3 := by
    unfold z3
    refine keeps_ite _ ?_ ?_
    · refine State.setB_keeps _ _ _ ?_
      exact hz2
    · exact hz2
  clear_value z3
  extract_lets -merge -useContext +onlyGivenNames z4
  have hz4 : Keeps r z4 := by
    unfold z4
    refine State.knotUplink_keeps _ _ _ _ _ ?_
    exact hz3
  clear_value z4
  extract_lets -merge -useContext +onlyGivenNames z5
  have hz5 : Keeps r z5 := by
    unfold z5
    split
    · exact hz4
    · refine keeps_forN ?_ _ _ ?_
      · exact hz4
      · intro w6_0 w6_1 hw6
        extract_lets -merge -useContext +onlyGivenNames z7
        clear_value z7
        refine keeps_ite _ ?_ ?_
        · refine State.modAx_keeps _ _ _ ?_
          exact hw6
        · exact hw6
  clear_value z5
  refine State.breakIn_keeps _ _ _ _ _ ?_
  exact hz5

theorem State.axisFrom_keeps {r : State} (a0 : State) (a1 : Nat) (a2 : Nat) (a3 : Hdr) (h : Keeps r a0) : Keeps r (State.axisFrom a0 a1 a2 a3) := by
  unfold State.axisFrom
  refine State.modRing_keeps _ _ _ ?_
  exact h

theorem State.dgramIn_keeps {r : State} (a0 : State) (a1 : Nat) (a2 : List Byte) (a3 : Hdr) (a4 : Dg) (h : Keeps r a0) : Keeps r (State.dgramIn a0 a1 a2 a3 a4) := by
  unfold State.dgramIn
  refine keeps_ite _ ?_ ?_
  · refine State.count_keeps _ _ ?_
    exact h
  · extract_lets -merge -useContext +onlyGivenNames z0
    clear_value z0
    extract_lets -merge -useContext +onlyGivenNames z1
    clear_value z1
    refine keeps_ite _ ?_ ?_
    · exact h
    · extract_lets -merge -useContext +onlyGivenNames z2
      have hz2 : Keeps r z2 := by
        unfold z2
        refine State.setRing_keeps _ _ _ ?_
        exact h
      clear_value z2
      extract_lets -merge -useContext +onlyGivenNames z3
      clear_value z3
      split
      · refine State.axisIn_keeps _ _ _ _ _ _ ?_
        refine State.axisFrom_keeps _ _ _ _ ?_
        exact hz2
      · refine State.paramIn_keeps _ _ _ _ ?_
        exact hz2
      · refine State.containerUp_keeps _ _ _ _ _ ?_
        exact hz2
      · refine keeps_ite _ ?_ ?_
        · refine State.claimIn_keeps _ _ _ _ ?_
          exact hz2
        · exact hz2
      · refine State.peerUpIn_keeps _ _ _ ?_
        exact hz2
      · exact hz2

theorem State.cyclicIn_keeps {r : State} (a0 : State) (a1 : Nat) (a2 : List Byte) (a3 : Hdr) (a4 : List Dg) (h : Keeps r a0) : Keeps r (State.cyclicIn a0 a1 a2 a3 a4) := by
  unfold State.cyclicIn
  extract_lets -merge -useContext +onlyGivenNames z0
  clear_value z0
  extract_lets -merge -useContext +onlyGivenNames z1
  clear_value z1
  extract_lets -merge -useContext +onlyGivenNames z2
  have hz2 : Keeps r z2 := by
    unfold z2
    refine keeps_ite _ ?_ ?_
    · refine State.count_keeps _ _ ?_
      exact h
    · exact h
  clear_value z2
  refine keeps_ite _ ?_ ?_
  · exact hz2
  · extract_lets -merge -useContext +onlyGivenNames z3
    have hz3 : Keeps r z3 := by
      unfold z3
      refine keeps_ite _ ?_ ?_
      · exact hz2
      · refine State.modRing_keeps _ _ _ ?_
        exact hz2
    clear_value z3
    extract_lets -merge -useContext +onlyGivenNames z4
    clear_value z4
    extract_lets -merge -useContext +onlyGivenNames z5
    have hz5 : Keeps r z5 := by
      unfold z5
      refine State.modRing_keeps _ _ _ ?_
      exact hz3
    clear_value z5
    refine keeps_foldl _ _ _ ?_ ?_
    · exact hz5
    · intro w6_0 w6_1 hw6
      refine State.dgramIn_keeps _ _ _ _ _ ?_
      exact hw6

theorem State.ownFrame_keeps {r : State} (a0 : State) (a1 : Nat) (a2 : Bool) (a3 : List Byte) (a4 : Hdr) (a5 : List Dg) (h : Keeps r a0) : Keeps r (State.ownFrame a0 a1 a2 a3 a4 a5) := by
  unfold State.ownFrame
  extract_lets -merge -useContext +onlyGivenNames z0
  clear_value z0
  refine keeps_ite _ ?_ ?_
  · exact h
  · refine keeps_ite _ ?_ ?_
    · refine keeps_ite _ ?_ ?_
      · refine State.discoverIn_keeps _ _ _ _ _ ?_
        exact h
      · exact h
    · refine keeps_ite _ ?_ ?_
      · refine keeps_ite _ ?_ ?_
        · refine State.delayIn_keeps _ _ _ _ _ ?_
          exact h
        · refine keeps_ite _ ?_ ?_
          · refine State.healDelay_keeps _ _ _ _ ?_
            exact h
          · exact h
      · refine keeps_ite _ ?_ ?_
        · refine State.cyclicIn_keeps _ _ _ _ _ ?_
          exact h
        · exact h

theorem State.ringReceive_keeps {r : State} (a0 : State) (a1 : Nat) (a2 : Bool) (a3 : List Byte) (h : Keeps r a0) : Keeps r (State.ringReceive a0 a1 a2 a3) := by
  unfold State.ringReceive
  extract_lets -merge -useContext +onlyGivenNames z0
  clear_value z0
  refine keeps_ite _ ?_ ?_
  · exact h
  · refine keeps_ite _ ?_ ?_
    · refine State.count_keeps _ _ ?_
      exact h
    · refine keeps_ite _ ?_ ?_
      · refine State.count_keeps _ _ ?_
        exact h
      · extract_lets -merge -useContext +onlyGivenNames z1
        clear_value z1
        extract_lets -merge -useContext +onlyGivenNames z2
        clear_value z2
        extract_lets -merge -useContext +onlyGivenNames z3
        have hz3 : Keeps r z3 := by
          unfold z3
          refine keeps_ite _ ?_ ?_
          · refine State.count_keeps _ _ ?_
            exact h
          · exact h
        clear_value z3
        refine keeps_ite _ ?_ ?_
        · refine State.ownFrame_keeps _ _ _ _ _ _ ?_
          exact hz3
        · refine keeps_ite _ ?_ ?_
          · refine State.foreignHeader_keeps _ _ _ ?_
            exact hz3
          · refine keeps_ite _ ?_ ?_
            · refine State.listenFrame_keeps _ _ _ _ ?_
              exact hz3
            · refine keeps_ite _ ?_ ?_
              · refine State.followFrame_keeps _ _ _ _ _ _ ?_
                exact hz3
              · exact hz3

theorem State.ringBreak_keeps {r : State} (a0 : State) (a1 : Nat) (h : Keeps r a0) : Keeps r (State.ringBreak a0 a1) := by
  unfold State.ringBreak
  extract_lets -merge -useContext +onlyGivenNames z0
  clear_value z0
  extract_lets -merge -useContext +onlyGivenNames z1
  clear_value z1
  extract_lets -merge -useContext +onlyGivenNames z2
  have hz2 : Keeps r z2 := by
    unfold z2
    refine State.report_keeps _ _ _ _ _ ?_
    refine State.rpTo_keeps _ _ _ ?_
    refine State.raise_keeps _ _ ?_
    exact h
  clear_value z2
  extract_lets -merge -useContext +onlyGivenNames z3
  clear_value z3
  refine keeps_ite _ ?_ ?_
  · exact hz2
  · extract_lets -merge -useContext +onlyGivenNames z4
    clear_value z4
    extract_lets -merge -useContext +onlyGivenNames z5
    have hz5 : Keeps r z5 := by
      unfold z5
      refine State.set_keeps _ _ _ ?_
      refine State.set_keeps _ _ _ ?_
      exact hz2
    clear_value z5
    extract_lets -merge -useContext +onlyGivenNames z6
    clear_value z6
    refine keeps_ite _ ?_ ?_
    · exact hz5
    · refine State.modRing_keeps _ _ _ ?_
      exact hz5

theorem State.aimLoopOut_keeps {r : State} (a0 : State) (a1 : Nat) (a2 : Nat) (h : Keeps r a0) : Keeps r (State.aimLoopOut a0 a1 a2) := by
  unfold State.aimLoopOut
  extract_lets -merge -useContext +onlyGivenNames z0
  clear_value z0
  extract_lets -merge -useContext +onlyGivenNames z1
  clear_value z1
  refine keeps_ite _ ?_ ?_
  · exact h
  · extract_lets -merge -useContext +onlyGivenNames z2
    clear_value z2
    extract_lets -merge -useContext +onlyGivenNames z3
    clear_value z3
    extract_lets -merge -useContext +onlyGivenNames z4
    clear_value z4
    refine keeps_ite _ ?_ ?_
    · exact h
    · refine State.modRing_keeps _ _ _ ?_
      exact h

theorem State.returnLimitExpiry_keeps {r : State} (a0 : State) (a1 : Nat) (h : Keeps r a0) : Keeps r (State.returnLimitExpiry a0 a1) := by
  unfold State.returnLimitExpiry
  extract_lets -merge -useContext +onlyGivenNames z0
  clear_value z0
  extract_lets -merge -useContext +onlyGivenNames z1
  clear_value z1
  refine keeps_ite _ ?_ ?_
  · exact h
  · refine State.ringBreak_keeps _ _ ?_
    exact h

theorem State.nodeGone_keeps {r : State} (a0 : State) (a1 : Nat) (a2 : Nat) (h : Keeps r a0) : Keeps r (State.nodeGone a0 a1 a2) := by
  unfold State.nodeGone
  extract_lets -merge -useContext +onlyGivenNames z0
  have hz0 : Keeps r z0 := by
    unfold z0
    refine State.setNt_keeps _ _ _ _ ?_
    exact h
  clear_value z0
  extract_lets -merge -useContext +onlyGivenNames z1
  have hz1 : Keeps r z1 := by
    unfold z1
    refine State.modRing_keeps _ _ _ ?_
    exact hz0
  clear_value z1
  extract_lets -merge -useContext +onlyGivenNames z2
  have hz2 : Keeps r z2 := by
    unfold z2
    refine keeps_ite _ ?_ ?_
    · refine State.healFail_keeps _ _ ?_
      exact hz1
    · exact hz1
  clear_value z2
  extract_lets -merge -useContext +onlyGivenNames z3
  have hz3 : Keeps r z3 := by
    unfold z3
    refine State.report_keeps _ _ _ _ _ ?_
    refine State.freshMseq_keeps _ _ _ ?_
    exact hz2
  clear_value z3
  extract_lets -merge -useContext +onlyGivenNames z4
  have hz4 : Keeps r z4 := by
    unfold z4
    refine State.knotNodeMissing_keeps _ _ _ ?_
    exact hz3
  clear_value z4
  refine keeps_forEach ?_ _ _ ?_
  · exact hz4
  · intro w5_0 w5_1 hw5
    refine State.nodeMissEvent_keeps _ _ ?_
    exact hw5

theorem State.nodeMissing_keeps {r : State} (a0 : State) (a1 : Nat) (a2 : Nat) (h : Keeps r a0) : Keeps r (State.nodeMissing a0 a1 a2) := by
  unfold State.nodeMissing
  refine keeps_ite _ ?_ ?_
  · exact h
  · refine State.nodeGone_keeps _ _ _ ?_
    exact h

theorem State.nodeRetry_keeps {r : State} (a0 : State) (a1 : Nat) (a2 : Nat) (h : Keeps r a0) : Keeps r (State.nodeRetry a0 a1 a2) := by
  unfold State.nodeRetry
  extract_lets -merge -useContext +onlyGivenNames z0
  clear_value z0
  refine keeps_ite _ ?_ ?_
  · exact h
  · refine State.freeEntry_keeps _ _ _ ?_
    exact h

theorem State.takeSched_keeps {r : State} (a0 : State) (a1 : Nat) (h : Keeps r a0) : Keeps r ((State.takeSched a0 a1).2) := by
  unfold State.takeSched
  extract_lets -merge -useContext +onlyGivenNames z0
  clear_value z0
  refine keeps_ite2 _ ?_ ?_
  · refine keeps_snd ?_
    exact h
  · refine keeps_ite2 _ ?_ ?_
    · refine keeps_snd ?_
      refine State.set_keeps _ _ _ ?_
      refine State.take_keeps _ _ ?_
      exact h
    · refine keeps_snd ?_
      refine State.report_keeps _ _ _ _ _ ?_
      refine State.raise_keeps _ _ ?_
      exact h

theorem State.takeTdom_keeps {r : State} (a0 : State) (a1 : Nat) (h : Keeps r a0) : Keeps r ((State.takeTdom a0 a1).2) := by
  unfold State.takeTdom
  extract_lets -merge -useContext +onlyGivenNames z0
  clear_value z0
  refine keeps_ite2 _ ?_ ?_
  · refine keeps_snd ?_
    exact h
  · refine keeps_ite2 _ ?_ ?_
    · refine keeps_snd ?_
      refine State.setA_keeps _ _ _ ?_
      exact h
    · refine keeps_snd ?_
      refine State.report_keeps _ _ _ _ _ ?_
      refine State.raise_keeps _ _ ?_
      exact h

theorem State.ringBoundary_keeps {r : State} (a0 : State) (a1 : Nat) (a2 : Nat) (h : Keeps r a0) : Keeps r (State.ringBoundary a0 a1 a2) := by
  unfold State.ringBoundary
  extract_lets -merge -useContext +onlyGivenNames z0
  clear_value z0
  extract_lets -merge -useContext +onlyGivenNames z1
  clear_value z1
  extract_lets -merge -useContext +onlyGivenNames z2
  have hz2 : Keeps r z2 := by
    unfold z2
    refine keeps_ite _ ?_ ?_
    · refine keeps_forN ?_ _ _ ?_
      · exact h
      · intro w3_0 w3_1 hw3
        refine keeps_ite _ ?_ ?_
        · refine State.ringTimeLost_keeps _ _ ?_
          exact hw3
        · exact hw3
    · exact h
  clear_value z2
  refine keeps_ite _ ?_ ?_
  · refine State.portIdle_keeps _ _ ?_
    exact hz2
  · extract_lets -merge -useContext +onlyGivenNames z4
    have hz4 : Keeps r z4 := by
      unfold z4
      refine keeps_ite _ ?_ ?_
      · refine State.modRing_keeps _ _ _ ?_
        refine State.rpTo_keeps _ _ _ ?_
        exact hz2
      · exact hz2
    clear_value z4
    extract_lets -merge -useContext +onlyGivenNames z5
    clear_value z5
    extract_lets -merge -useContext +onlyGivenNames z6
    have hz6 : Keeps r z6 := by
      unfold z6
      refine keeps_ite _ ?_ ?_
      · exact hz4
      · refine keeps_forN ?_ _ _ ?_
        · exact hz4
        · intro w7_0 w7_1 hw7
          extract_lets -merge -useContext +onlyGivenNames z8
          clear_value z8
          refine keeps_ite _ ?_ ?_
          · extract_lets -merge -useContext +onlyGivenNames z9
            clear_value z9
            refine State.modRing_keeps _ _ _ ?_
            exact hw7
          · exact hw7
    clear_value z6
    extract_lets -merge -useContext +onlyGivenNames z10
    have hz10 : Keeps r z10 := by
      unfold z10
      refine keeps_ite _ ?_ ?_
      · refine State.healFail_keeps _ _ ?_
        exact hz6
      · exact hz6
    clear_value z10
    extract_lets -merge -useContext +onlyGivenNames z11
    have hz11 : Keeps r z11 := by
      unfold z11
      refine State.aimLoopOut_keeps _ _ _ ?_
      exact hz10
    clear_value z11
    extract_lets -merge -useContext +onlyGivenNames z12
    have hz12 : Keeps r z12 := by
      unfold z12
      refine keeps_forEach ?_ _ _ ?_
      · exact hz11
      · intro w13_0 w13_1 hw13
        refine keeps_ite _ ?_ ?_
        · refine State.grantValid_keeps _ _ _ ?_
          exact hw13
        · refine keeps_ite _ ?_ ?_
          · refine State.grantLapse_keeps _ _ _ ?_
            exact hw13
          · exact hw13
    clear_value z12
    refine State.modRing_keeps _ _ _ ?_
    exact hz12

theorem State.ringCntclr_keeps {r : State} (a0 : State) (a1 : Nat) (h : Keeps r a0) : Keeps r (State.ringCntclr a0 a1) := by
  unfold State.ringCntclr
  refine keeps_forN ?_ _ _ ?_
  · exact h
  · intro w0_0 w0_1 hw0
    refine State.setReg_keeps _ _ _ ?_
    exact hw0

theorem State.ringRun_keeps {r : State} (a0 : State) (a1 : Nat) (h : Keeps r a0) : Keeps r (State.ringRun a0 a1) := by
  unfold State.ringRun
  refine keeps_ite _ ?_ ?_
  · refine State.modRing_keeps _ _ _ ?_
    exact h
  · exact h

theorem State.ringRediscover_keeps {r : State} (a0 : State) (a1 : Nat) (h : Keeps r a0) : Keeps r (State.ringRediscover a0 a1) := by
  unfold State.ringRediscover
  refine keeps_ite _ ?_ ?_
  · refine State.discover_keeps _ _ ?_
    exact h
  · exact h

theorem State.ringCtrlW_keeps {r : State} (a0 : State) (a1 : Nat) (a2 : Nat) (h : Keeps r a0) : Keeps r (State.ringCtrlW a0 a1 a2) := by
  unfold State.ringCtrlW
  extract_lets -merge -useContext +onlyGivenNames z0
  have hz0 : Keeps r z0 := by
    unfold z0
    refine State.storeWrite_keeps _ _ _ ?_
    exact h
  clear_value z0
  extract_lets -merge -useContext +onlyGivenNames z1
  have hz1 : Keeps r z1 := by
    unfold z1
    refine keeps_ite _ ?_ ?_
    · refine State.ringCntclr_keeps _ _ ?_
      exact hz0
    · exact hz0
  clear_value z1
  refine keeps_ite _ ?_ ?_
  · extract_lets -merge -useContext +onlyGivenNames z2
    have hz2 : Keeps r z2 := by
      unfold z2
      refine State.portEnable_keeps _ _ ?_
      exact hz1
    clear_value z2
    extract_lets -merge -useContext +onlyGivenNames z3
    have hz3 : Keeps r z3 := by
      unfold z3
      refine keeps_ite _ ?_ ?_
      · refine State.ringRediscover_keeps _ _ ?_
        exact hz2
      · exact hz2
    clear_value z3
    extract_lets -merge -useContext +onlyGivenNames z4
    have hz4 : Keeps r z4 := by
      unfold z4
      refine keeps_ite _ ?_ ?_
      · refine State.healWrite_keeps _ _ ?_
        exact hz3
      · exact hz3
    clear_value z4
    refine keeps_ite _ ?_ ?_
    · refine State.ringRun_keeps _ _ ?_
      exact hz4
    · exact hz4
  · refine State.portDisable_keeps _ _ ?_
    exact hz1

theorem State.ringWrite_keeps {r : State} (a0 : State) (a1 : Nat) (a2 : Nat) (h : Keeps r a0) : Keeps r (State.ringWrite a0 a1 a2) := by
  unfold State.ringWrite
  extract_lets -merge -useContext +onlyGivenNames z0
  clear_value z0
  extract_lets -merge -useContext +onlyGivenNames z1
  clear_value z1
  refine keeps_ite _ ?_ ?_
  · refine State.ringCtrlW_keeps _ _ _ ?_
    exact h
  · refine keeps_ite _ ?_ ?_
    · refine State.set_keeps _ _ _ ?_
      exact h
    · refine keeps_ite _ ?_ ?_
      · extract_lets -merge -useContext +onlyGivenNames z2
        clear_value z2
        refine keeps_ite _ ?_ ?_
        · refine State.mailSend_keeps _ _ _ ?_
          exact h
        · exact h
      · refine State.plainWrite_keeps _ _ _ ?_
        exact h

theorem State.portLink_keeps {r : State} (a0 : State) (a1 : Nat) (a2 : Bool) (a3 : Bool) (a4 : Nat) (h : Keeps r a0) : Keeps r (State.portLink a0 a1 a2 a3 a4) := by
  unfold State.portLink
  extract_lets -merge -useContext +onlyGivenNames z0
  have hz0 : Keeps r z0 := by
    unfold z0
    refine keeps_ite _ ?_ ?_
    · refine State.set_keeps _ _ _ ?_
      refine State.setB_keeps _ _ _ ?_
      exact h
    · refine State.set_keeps _ _ _ ?_
      refine State.setB_keeps _ _ _ ?_
      exact h
  clear_value z0
  extract_lets -merge -useContext +onlyGivenNames z1
  clear_value z1
  refine keeps_ite _ ?_ ?_
  · refine State.rediscover_keeps _ _ ?_
    exact hz0
  · exact hz0

theorem execPortLinkChange_keeps {r : State} (a0 : Fin 4) (a1 : Bool) (a2 : Bool) (a3 : Fin 3) (a4 : State) (h : Keeps r a4) (t : State) (e : execPortLinkChange a0 a1 a2 a3 a4 = .next t) : Keeps r t := by
  unfold execPortLinkChange at e
  injection e with e
  subst e
  repeat' (first | assumption | intro _ | with_reducible apply State.portLink_keeps | with_reducible apply keeps_ite | split | dsimp only)

theorem State.listenExpiry_keeps {r : State} (a0 : State) (a1 : Nat) (h : Keeps r a0) : Keeps r (State.listenExpiry a0 a1) := by
  unfold State.listenExpiry
  refine keeps_ite _ ?_ ?_
  · exact h
  · extract_lets -merge -useContext +onlyGivenNames z0
    have hz0 : Keeps r z0 := by
      unfold z0
      refine State.discover_keeps _ _ ?_
      exact h
    clear_value z0
    refine keeps_ite _ ?_ ?_
    · refine State.dxTo_keeps _ _ ?_
      refine State.clr_keeps _ _ ?_
      exact hz0
    · exact hz0

theorem execListenWindowExpiry_keeps {r : State} (a0 : Fin 4) (a1 : State) (h : Keeps r a1) (t : State) (e : execListenWindowExpiry a0 a1 = .next t) : Keeps r t := by
  unfold execListenWindowExpiry at e
  injection e with e
  subst e
  repeat' (first | assumption | intro _ | with_reducible apply State.listenExpiry_keeps | with_reducible apply keeps_ite | split | dsimp only)

theorem execHealTimeout_keeps {r : State} (a0 : Fin 4) (a1 : State) (h : Keeps r a1) (t : State) (e : execHealTimeout a0 a1 = .next t) : Keeps r t := by
  unfold execHealTimeout at e
  injection e with e
  subst e
  repeat' (first | assumption | intro _ | with_reducible apply State.healTimeout_keeps | with_reducible apply keeps_ite | split | dsimp only)

theorem execReturnLimitExpiry_keeps {r : State} (a0 : Fin 4) (a1 : State) (h : Keeps r a1) (t : State) (e : execReturnLimitExpiry a0 a1 = .next t) : Keeps r t := by
  unfold execReturnLimitExpiry at e
  injection e with e
  subst e
  repeat' (first | assumption | intro _ | with_reducible apply State.returnLimitExpiry_keeps | with_reducible apply keeps_ite | split | dsimp only)

theorem execNodeMissing_keeps {r : State} (a0 : Fin 4) (a1 : Fin 64) (a2 : State) (h : Keeps r a2) (t : State) (e : execNodeMissing a0 a1 a2 = .next t) : Keeps r t := by
  unfold execNodeMissing at e
  injection e with e
  subst e
  repeat' (first | assumption | intro _ | with_reducible apply State.nodeMissing_keeps | with_reducible apply keeps_ite | split | dsimp only)

theorem execNodeRetryExpiry_keeps {r : State} (a0 : Fin 4) (a1 : Fin 64) (a2 : State) (h : Keeps r a2) (t : State) (e : execNodeRetryExpiry a0 a1 a2 = .next t) : Keeps r t := by
  unfold execNodeRetryExpiry at e
  injection e with e
  subst e
  repeat' (first | assumption | intro _ | with_reducible apply State.nodeRetry_keeps | with_reducible apply keeps_ite | split | dsimp only)

theorem State.repCheck_keeps {r : State} (a0 : State) (a1 : Nat) (h : Keeps r a0) : Keeps r (State.repCheck a0 a1) := by
  unfold State.repCheck
  extract_lets -merge -useContext +onlyGivenNames z0
  have hz0 : Keeps r z0 := by
    unfold z0
    refine keeps_ite _ ?_ ?_
    · refine State.modAx_keeps _ _ _ ?_
      exact h
    · exact h
  clear_value z0
  refine keeps_ite _ ?_ ?_
  · extract_lets -merge -useContext +onlyGivenNames z1
    have hz1 : Keeps r z1 := by
      unfold z1
      refine State.modAx_keeps _ _ _ ?_
      exact hz0
    clear_value z1
    refine keeps_ite _ ?_ ?_
    · refine State.raise_keeps _ _ ?_
      exact hz1
    · exact hz1
  · exact hz0

theorem State.repRead_keeps {r : State} (a0 : State) (a1 : Nat) (a2 : Kin) (h : Keeps r a0) : FMK r (fun x => x.2) (State.repRead a0 a1 a2) := by
  unfold State.repRead
  extract_lets -merge -useContext +onlyGivenNames z0
  clear_value z0
  extract_lets -merge -useContext +onlyGivenNames z1
  clear_value z1
  refine fm_bind ?_
  intro w2_0
  split
  · extract_lets -merge -useContext +onlyGivenNames z3
    clear_value z3
    extract_lets -merge -useContext +onlyGivenNames z4
    clear_value z4
    refine fm_bind ?_
    intro w5_0
    refine fm_bind ?_
    intro w6_0
    extract_lets -merge -useContext +onlyGivenNames z7
    clear_value z7
    refine fm_pure ?_
    refine keeps_snd ?_
    refine keeps_ite _ ?_ ?_
    · exact h
    · refine State.raise_keeps _ _ ?_
      exact h

theorem State.repCommit_keeps {r : State} (a0 : State) (a1 : Nat) (a2 : Nat) (a3 : Word) (a4 : Word) (h : Keeps r a0) : FMK r (fun x => x) (State.repCommit a0 a1 a2 a3 a4) := by
  unfold State.repCommit
  extract_lets -merge -useContext +onlyGivenNames z0
  clear_value z0
  refine fm_ite _ ?_ ?_
  · refine fm_pure ?_
    exact h
  · extract_lets -merge -useContext +onlyGivenNames z1
    clear_value z1
    refine fm_bind ?_
    intro w2_0
    refine fm_bind ?_
    intro w3_0
    refine fm_bind ?_
    intro w4_0
    refine fm_bind ?_
    intro w5_0
    refine fm_bind ?_
    intro w6_0
    refine fm_bind ?_
    intro w7_0
    refine fm_bind ?_
    intro w8_0
    refine fm_bind ?_
    intro w9_0
    extract_lets -merge -useContext +onlyGivenNames z10
    clear_value z10
    extract_lets -merge -useContext +onlyGivenNames z11
    clear_value z11
    extract_lets -merge -useContext +onlyGivenNames z12
    clear_value z12
    refine fm_bind ?_
    intro w13_0
    refine fm_bind ?_
    intro w14_0
    extract_lets -merge -useContext +onlyGivenNames z15
    clear_value z15
    extract_lets -merge -useContext +onlyGivenNames z16
    clear_value z16
    extract_lets -merge -useContext +onlyGivenNames z17
    clear_value z17
    extract_lets -merge -useContext +onlyGivenNames z18
    clear_value z18
    extract_lets -merge -useContext +onlyGivenNames z19
    have hz19 : Keeps r z19 := by
      unfold z19
      refine State.wr_keeps _ _ _ _ ?_
      exact h
    clear_value z19
    extract_lets -merge -useContext +onlyGivenNames z20
    have hz20 : Keeps r z20 := by
      unfold z20
      refine State.wr_keeps _ _ _ _ ?_
      exact hz19
    clear_value z20
    extract_lets -merge -useContext +onlyGivenNames z21
    have hz21 : Keeps r z21 := by
      unfold z21
      refine keeps_ite _ ?_ ?_
      · exact hz20
      · refine State.raise_keeps _ _ ?_
        exact hz20
    clear_value z21
    refine fm_pure ?_
    refine State.bump_keeps _ _ ?_
    exact hz21

theorem State.repDrop_keeps {r : State} (a0 : State) (a1 : Nat) (h : Keeps r a0) : Keeps r (State.repDrop a0 a1) := by
  unfold State.repDrop
  refine State.modAx_keeps _ _ _ ?_
  exact h

theorem State.repAccumulate_keeps {r : State} (a0 : State) (a1 : Nat) (a2 : Word) (a3 : Kin) (h : Keeps r a0) : FMK r (fun x => x) (State.repAccumulate a0 a1 a2 a3) := by
  unfold State.repAccumulate
  extract_lets -merge -useContext +onlyGivenNames z0
  clear_value z0
  extract_lets -merge -useContext +onlyGivenNames z1
  clear_value z1
  refine fm_bind ?_
  intro w2_0
  split
  · extract_lets -merge -useContext +onlyGivenNames z3
    clear_value z3
    refine fm_ite _ ?_ ?_
    · refine fm_bind ?_
      intro w4_0
      refine fm_pure ?_
      refine State.modAx_keeps _ _ _ ?_
      exact h
    · refine fm_bindS (fun x => x) ?_ ?_
      · refine fm_ite _ ?_ ?_
        · refine fm_bind ?_
          intro w5_0
          refine fm_bind ?_
          intro w6_0
          refine fm_bindS (fun x => x) ?_ ?_
          · refine State.repCommit_keeps _ _ _ _ _ ?_
            exact h
          · intro w7_0 hw7
            extract_lets -merge -useContext +onlyGivenNames z8
            clear_value z8
            extract_lets -merge -useContext +onlyGivenNames z9
            clear_value z9
            refine fm_pure ?_
            refine keeps_ite _ ?_ ?_
            · refine State.countK_keeps _ _ _ ?_
              exact hw7
            · exact hw7
        · refine fm_pure ?_
          exact h
      · intro w10_0 hw10
        refine fm_pure ?_
        refine State.modAx_keeps _ _ _ ?_
        exact hw10

theorem State.repLost_keeps {r : State} (a0 : State) (a1 : Nat) (h : Keeps r a0) : Keeps r (State.repLost a0 a1) := by
  unfold State.repLost
  extract_lets -merge -useContext +onlyGivenNames z0
  have hz0 : Keeps r z0 := by
    unfold z0
    refine State.repDrop_keeps _ _ ?_
    exact h
  clear_value z0
  refine keeps_ite _ ?_ ?_
  · exact hz0
  · refine State.report_keeps _ _ _ _ _ ?_
    refine State.raise_keeps _ _ ?_
    exact hz0

theorem State.repUpdate_keeps {r : State} (a0 : State) (a1 : Nat) (a2 : RepIn) (h : Keeps r a0) : FMK r (fun x => x) (State.repUpdate a0 a1 a2) := by
  unfold State.repUpdate
  split
  · refine fm_pure ?_
    refine State.repDrop_keeps _ _ ?_
    exact h
  · extract_lets -merge -useContext +onlyGivenNames z0
    clear_value z0
    extract_lets -merge -useContext +onlyGivenNames z1
    clear_value z1
    refine fm_ite _ ?_ ?_
    · refine State.repAccumulate_keeps _ _ _ _ ?_
      exact h
    · refine fm_pure ?_
      refine State.repDrop_keeps _ _ ?_
      exact h

theorem State.setGen_keeps {r : State} (a0 : State) (a1 : Nat) (a2 : Gen) (h : Keeps r a0) : Keeps r (State.setGen a0 a1 a2) := by
  unfold State.setGen
  refine State.modAx_keeps _ _ _ ?_
  exact h

theorem State.startRefused_keeps {r : State} (a0 : State) (a1 : Nat) (a2 : Inst) (a3 : Kin) (a4 : Bool) (h : Keeps r a0) : Keeps r (State.startRefused a0 a1 a2 a3 a4) := by
  unfold State.startRefused
  refine State.raise_keeps _ _ ?_
  refine keeps_ite _ ?_ ?_
  · refine State.setGen_keeps _ _ _ ?_
    exact h
  · exact h

theorem State.planTo_keeps {r : State} (a0 : State) (a1 : Nat) (a2 : Inst) (a3 : Kin) (a4 : optParam Bool false) (h : Keeps r a0) : FMK r (fun x => x) (State.planTo a0 a1 a2 a3 a4) := by
  unfold State.planTo
  extract_lets -merge -useContext +onlyGivenNames z0
  clear_value z0
  extract_lets -merge -useContext +onlyGivenNames z1
  clear_value z1
  extract_lets -merge -useContext +onlyGivenNames z2
  clear_value z2
  refine fm_ite _ ?_ ?_
  · refine fm_pure ?_
    refine State.startRefused_keeps _ _ _ _ _ ?_
    exact h
  · refine fm_bind ?_
    intro w3_0
    refine fm_pure ?_
    refine State.clr_keeps _ _ ?_
    refine State.setGen_keeps _ _ _ ?_
    exact h

theorem State.changeTo_keeps {r : State} (a0 : State) (a1 : Nat) (a2 : Inst) (a3 : Kin) (a4 : optParam Bool false) (h : Keeps r a0) : FMK r (fun x => x) (State.changeTo a0 a1 a2 a3 a4) := by
  unfold State.changeTo
  refine fm_ite _ ?_ ?_
  · refine fm_pure ?_
    refine State.startRefused_keeps _ _ _ _ _ ?_
    exact h
  · refine fm_bind ?_
    intro w0_0
    refine fm_pure ?_
    refine State.setGen_keeps _ _ _ ?_
    exact h

theorem State.hardStop_keeps {r : State} (a0 : State) (a1 : Nat) (a2 : Inst) (h : Keeps r a0) : Keeps r (State.hardStop a0 a1 a2) := by
  unfold State.hardStop
  extract_lets -merge -useContext +onlyGivenNames z0
  have hz0 : Keeps r z0 := by
    unfold z0
    refine State.dropHitch_keeps _ _ ?_
    refine State.setGen_keeps _ _ _ ?_
    exact h
  clear_value z0
  extract_lets -merge -useContext +onlyGivenNames z1
  have hz1 : Keeps r z1 := by
    unfold z1
    refine State.modAx_keeps _ _ _ ?_
    refine State.clr_keeps _ _ ?_
    exact hz0
  clear_value z1
  refine keeps_ite _ ?_ ?_
  · exact hz1
  · refine State.hwMode_keeps _ _ _ ?_
    exact hz1

theorem State.rampStop_keeps {r : State} (a0 : State) (a1 : Nat) (a2 : Nat) (a3 : Inst) (a4 : Kin) (h : Keeps r a0) : FMK r (fun x => x) (State.rampStop a0 a1 a2 a3 a4) := by
  unfold State.rampStop
  extract_lets -merge -useContext +onlyGivenNames z0
  clear_value z0
  extract_lets -merge -useContext +onlyGivenNames z1
  clear_value z1
  refine fm_ite _ ?_ ?_
  · refine fm_pure ?_
    refine State.report_keeps _ _ _ _ _ ?_
    refine State.hardStop_keeps _ _ _ ?_
    exact h
  · refine fm_bind ?_
    intro w2_0
    extract_lets -merge -useContext +onlyGivenNames z3
    have hz3 : Keeps r z3 := by
      unfold z3
      refine State.raise_keeps _ _ ?_
      refine State.dropHitch_keeps _ _ ?_
      refine State.setGen_keeps _ _ _ ?_
      exact h
    clear_value z3
    refine fm_pure ?_
    refine State.modAx_keeps _ _ _ ?_
    exact hz3

theorem State.refuseEngage_keeps {r : State} (a0 : State) (a1 : Nat) (a2 : Nat) (h : Keeps r a0) : Keeps r (State.refuseEngage a0 a1 a2) := by
  unfold State.refuseEngage
  refine State.modAx_keeps _ _ _ ?_
  refine State.hwMode_keeps _ _ _ ?_
  refine State.raise_keeps _ _ ?_
  refine State.dropHitch_keeps _ _ ?_
  exact h

theorem State.enterHitch_keeps {r : State} (a0 : State) (a1 : Nat) (a2 : Nat) (h : Keeps r a0) : Keeps r (State.enterHitch a0 a1 a2) := by
  unfold State.enterHitch
  refine keeps_ite _ ?_ ?_
  · refine State.refuseEngage_keeps _ _ _ ?_
    exact h
  · refine State.modAx_keeps _ _ _ ?_
    refine State.raise_keeps _ _ ?_
    exact h

theorem State.engage_keeps {r : State} (a0 : State) (a1 : Nat) (a2 : Kin) (a3 : Kin) (h : Keeps r a0) : FMK r (fun x => x) (State.engage a0 a1 a2 a3) := by
  unfold State.engage
  extract_lets -merge -useContext +onlyGivenNames z0
  clear_value z0
  extract_lets -merge -useContext +onlyGivenNames z1
  clear_value z1
  extract_lets -merge -useContext +onlyGivenNames z2
  clear_value z2
  refine fm_ite _ ?_ ?_
  · refine fm_pure ?_
    refine State.refuseEngage_keeps _ _ _ ?_
    exact h
  · extract_lets -merge -useContext +onlyGivenNames z3
    clear_value z3
    refine fm_bind ?_
    intro w4_0
    extract_lets -merge -useContext +onlyGivenNames z5
    clear_value z5
    refine fm_bind ?_
    intro w6_0
    extract_lets -merge -useContext +onlyGivenNames z7
    have hz7 : Keeps r z7 := by
      unfold z7
      refine State.set64_keeps _ _ _ _ ?_
      exact h
    clear_value z7
    extract_lets -merge -useContext +onlyGivenNames z8
    have hz8 : Keeps r z8 := by
      unfold z8
      refine State.modAx_keeps _ _ _ ?_
      exact hz7
    clear_value z8
    refine fm_pure ?_
    refine keeps_ite _ ?_ ?_
    · refine State.raise_keeps _ _ ?_
      exact hz8
    · refine State.raise_keeps _ _ ?_
      refine State.clr_keeps _ _ ?_
      exact hz8

theorem State.lockIf_keeps {r : State} (a0 : State) (a1 : Nat) (a2 : Kin) (h : Keeps r a0) : FMK r (fun x => x) (State.lockIf a0 a1 a2) := by
  unfold State.lockIf
  extract_lets -merge -useContext +onlyGivenNames z0
  clear_value z0
  refine fm_ite _ ?_ ?_
  · refine fm_bind ?_
    intro w1_0
    refine fm_pure ?_
    refine keeps_ite _ ?_ ?_
    · refine State.raise_keeps _ _ ?_
      refine State.clr_keeps _ _ ?_
      refine State.modAx_keeps _ _ _ ?_
      exact h
    · exact h
  · refine fm_pure ?_
    exact h

theorem State.masterLost_keeps {r : State} (a0 : State) (a1 : Nat) (a2 : When) (h : Keeps r a0) : FMK r (fun x => x) (State.masterLost a0 a1 a2) := by
  unfold State.masterLost
  refine fm_bind ?_
  intro w0_0
  extract_lets -merge -useContext +onlyGivenNames z1
  have hz1 : Keeps r z1 := by
    unfold z1
    refine State.report_keeps _ _ _ _ _ ?_
    refine State.raise_keeps _ _ ?_
    exact h
  clear_value z1
  refine State.rampStop_keeps _ _ _ _ _ ?_
  exact hz1

theorem State.disengage_keeps {r : State} (a0 : State) (a1 : Nat) (a2 : When) (a3 : Kin) (h : Keeps r a0) : FMK r (fun x => x) (State.disengage a0 a1 a2 a3) := by
  unfold State.disengage
  extract_lets -merge -useContext +onlyGivenNames z0
  have hz0 : Keeps r z0 := by
    unfold z0
    refine State.setBoth_keeps _ _ _ ?_
    refine State.dropHitch_keeps _ _ ?_
    exact h
  clear_value z0
  split
  · refine fm_bindS (fun x => x) ?_ ?_
    · refine State.planTo_keeps _ _ _ _ _ ?_
      exact hz0
    · intro w1_0 hw1
      refine fm_pure ?_
      refine State.modAx_keeps _ _ _ ?_
      refine State.hwMode_keeps _ _ _ ?_
      exact hw1
  · refine fm_bindS (fun x => x) ?_ ?_
    · refine State.changeTo_keeps _ _ _ _ _ ?_
      exact hz0
    · intro w2_0 hw2
      refine fm_pure ?_
      refine State.modAx_keeps _ _ _ ?_
      refine State.hwMode_keeps _ _ _ ?_
      exact hw2
  · refine State.rampStop_keeps _ _ _ _ _ ?_
    exact hz0

theorem State.hitchStep_keeps {r : State} (a0 : State) (a1 : Nat) (a2 : When) (h : Keeps r a0) : FMK r (fun x => x) (State.hitchStep a0 a1 a2) := by
  unfold State.hitchStep
  extract_lets -merge -useContext +onlyGivenNames z0
  clear_value z0
  refine fm_ite _ ?_ ?_
  · refine fm_pure ?_
    exact h
  · extract_lets -merge -useContext +onlyGivenNames z1
    have hz1 : Keeps r z1 := by
      unfold z1
      refine keeps_ite _ ?_ ?_
      · refine State.enterHitch_keeps _ _ _ ?_
        exact h
      · exact h
    clear_value z1
    extract_lets -merge -useContext +onlyGivenNames z2
    clear_value z2
    refine fm_ite _ ?_ ?_
    · refine fm_pure ?_
      exact hz1
    · split
      · refine State.masterLost_keeps _ _ _ ?_
        exact hz1
      · refine fm_bind ?_
        intro w3_0
        extract_lets -merge -useContext +onlyGivenNames z4
        clear_value z4
        extract_lets -merge -useContext +onlyGivenNames z5
        clear_value z5
        refine fm_ite _ ?_ ?_
        · refine fm_bind ?_
          intro w6_0
          extract_lets -merge -useContext +onlyGivenNames z7
          have hz7 : Keeps r z7 := by
            unfold z7
            refine State.enterHitch_keeps _ _ _ ?_
            refine State.dropHitch_keeps _ _ ?_
            refine State.setGen_keeps _ _ _ ?_
            exact hz1
          clear_value z7
          refine fm_ite _ ?_ ?_
          · refine State.rampStop_keeps _ _ _ _ _ ?_
            exact hz7
          · split
            · refine State.masterLost_keeps _ _ _ ?_
              exact hz7
            · refine fm_bind ?_
              intro w8_0
              extract_lets -merge -useContext +onlyGivenNames z9
              have hz9 : Keeps r z9 := by
                unfold z9
                refine State.modAx_keeps _ _ _ ?_
                exact hz7
              clear_value z9
              refine fm_ite _ ?_ ?_
              · refine fm_pure ?_
                exact hz9
              · refine fm_bindS (fun x => x) ?_ ?_
                · refine State.engage_keeps _ _ _ _ ?_
                  exact hz9
                · intro w10_0 hw10
                  refine fm_bindS (fun x => x) ?_ ?_
                  · refine State.lockIf_keeps _ _ _ ?_
                    exact hw10
                  · intro w11_0 hw11
                    refine fm_ite _ ?_ ?_
                    · refine State.rampStop_keeps _ _ _ _ _ ?_
                      exact hw11
                    · refine fm_bind ?_
                      intro w12_0
                      refine fm_pure ?_
                      refine State.setGen_keeps _ _ _ ?_
                      exact hw11
        · refine fm_ite _ ?_ ?_
          · refine fm_bind ?_
            intro w13_0
            refine fm_bindS (fun x => x) ?_ ?_
            · refine State.lockIf_keeps _ _ _ ?_
              exact hz1
            · intro w14_0 hw14
              extract_lets -merge -useContext +onlyGivenNames z15
              have hz15 : Keeps r z15 := by
                unfold z15
                refine State.modAx_keeps _ _ _ ?_
                refine State.setGen_keeps _ _ _ ?_
                exact hw14
              clear_value z15
              extract_lets -merge -useContext +onlyGivenNames z16
              clear_value z16
              extract_lets -merge -useContext +onlyGivenNames z17
              clear_value z17
              refine fm_ite _ ?_ ?_
              · refine State.disengage_keeps _ _ _ _ ?_
                exact hz15
              · refine fm_pure ?_
                exact hz15
          · refine fm_bind ?_
            intro w18_0
            extract_lets -merge -useContext +onlyGivenNames z19
            clear_value z19
            extract_lets -merge -useContext +onlyGivenNames z20
            have hz20 : Keeps r z20 := by
              unfold z20
              refine State.modAx_keeps _ _ _ ?_
              exact hz1
            clear_value z20
            refine fm_ite _ ?_ ?_
            · refine fm_bindS (fun x => x) ?_ ?_
              · refine State.engage_keeps _ _ _ _ ?_
                exact hz20
              · intro w21_0 hw21
                refine fm_bindS (fun x => x) ?_ ?_
                · refine State.lockIf_keeps _ _ _ ?_
                  exact hw21
                · intro w22_0 hw22
                  refine fm_ite _ ?_ ?_
                  · refine fm_bind ?_
                    intro w23_0
                    refine fm_pure ?_
                    refine State.setGen_keeps _ _ _ ?_
                    exact hw22
                  · refine fm_pure ?_
                    exact hw22
            · refine fm_pure ?_
              exact hz20

theorem State.hitchToGen_keeps {r : State} (a0 : State) (a1 : Nat) (a2 : When) (h : Keeps r a0) : FMK r (fun x => x) (State.hitchToGen a0 a1 a2) := by
  unfold State.hitchToGen
  extract_lets -merge -useContext +onlyGivenNames z0
  clear_value z0
  refine fm_ite _ ?_ ?_
  · split
    · refine fm_pure ?_
      refine State.dropHitch_keeps _ _ ?_
      exact h
    · refine fm_bind ?_
      intro w1_0
      refine fm_pure ?_
      refine State.dropHitch_keeps _ _ ?_
      refine State.setGen_keeps _ _ _ ?_
      exact h
  · refine fm_pure ?_
    refine State.dropHitch_keeps _ _ ?_
    exact h

theorem State.refuseMode_keeps {r : State} (a0 : State) (a1 : Nat) (a2 : Nat) (a3 : Fld) (h : Keeps r a0) : Keeps r (State.refuseMode a0 a1 a2 a3) := by
  unfold State.refuseMode
  refine State.hwMode_keeps _ _ _ ?_
  refine State.raise_keeps _ _ ?_
  exact h

theorem State.transition_keeps {r : State} (a0 : State) (a1 : Nat) (a2 : When) (a3 : Word) (h : Keeps r a0) : FMK r (fun x => x) (State.transition a0 a1 a2 a3) := by
  unfold State.transition
  extract_lets -merge -useContext +onlyGivenNames z0
  clear_value z0
  extract_lets -merge -useContext +onlyGivenNames z1
  clear_value z1
  extract_lets -merge -useContext +onlyGivenNames z2
  clear_value z2
  extract_lets -merge -useContext +onlyGivenNames z3
  clear_value z3
  extract_lets -merge -useContext +onlyGivenNames z4
  clear_value z4
  refine fm_ite _ ?_ ?_
  · refine fm_pure ?_
    exact h
  · extract_lets -merge -useContext +onlyGivenNames z5
    have hz5 : Keeps r z5 := by
      unfold z5
      refine State.modAx_keeps _ _ _ ?_
      refine State.clr_keeps _ _ ?_
      exact h
    clear_value z5
    extract_lets -merge -useContext +onlyGivenNames z6
    have hz6 : ∀ y0, Keeps r y0 → Keeps r (z6 y0) := by
      unfold z6
      intro w7_0 hw7
      refine State.modAx_keeps _ _ _ ?_
      exact hw7
    clear_value z6
    refine fm_ite _ ?_ ?_
    · split
      · refine fm_pure ?_
        refine hz6 _ ?_
        refine State.setGen_keeps _ _ _ ?_
        exact hz5
      · refine fm_bindS (fun x => x) ?_ ?_
        · refine State.planTo_keeps _ _ _ _ _ ?_
          exact hz5
        · intro w8_0 hw8
          refine fm_pure ?_
          refine hz6 _ ?_
          exact hw8
      · refine fm_bindS (fun x => x) ?_ ?_
        · refine State.changeTo_keeps _ _ _ _ _ ?_
          exact hz5
        · intro w9_0 hw9
          refine fm_pure ?_
          refine hz6 _ ?_
          exact hw9
      · refine fm_pure ?_
        refine hz6 _ ?_
        exact hz5
      · refine fm_pure ?_
        refine State.refuseMode_keeps _ _ _ _ ?_
        exact h
    · refine fm_ite _ ?_ ?_
      · extract_lets -merge -useContext +onlyGivenNames z10
        clear_value z10
        split
        · refine fm_bindS (fun x => x) ?_ ?_
          · refine State.rampStop_keeps _ _ _ _ _ ?_
            exact hz5
          · intro w11_0 hw11
            refine fm_pure ?_
            refine hz6 _ ?_
            exact hw11
        · refine fm_bindS (fun x => x) ?_ ?_
          · refine State.planTo_keeps _ _ _ _ _ ?_
            exact hz5
          · intro w12_0 hw12
            refine fm_pure ?_
            refine hz6 _ ?_
            exact hw12
        · refine fm_bindS (fun x => x) ?_ ?_
          · refine State.changeTo_keeps _ _ _ _ _ ?_
            exact hz5
          · intro w13_0 hw13
            refine fm_pure ?_
            refine hz6 _ ?_
            exact hw13
        · refine fm_pure ?_
          refine State.refuseMode_keeps _ _ _ _ ?_
          exact h
      · refine fm_bindS (fun x => x) ?_ ?_
        · refine State.hitchToGen_keeps _ _ _ ?_
          exact hz5
        · intro w14_0 hw14
          split
          · refine fm_ite _ ?_ ?_
            · refine fm_pure ?_
              refine hz6 _ ?_
              exact hw14
            · refine fm_bind ?_
              intro w15_0
              refine fm_bindS (fun x => x) ?_ ?_
              · refine State.rampStop_keeps _ _ _ _ _ ?_
                exact hw14
              · intro w16_0 hw16
                refine fm_pure ?_
                refine hz6 _ ?_
                exact hw16
          · extract_lets -merge -useContext +onlyGivenNames z17
            clear_value z17
            refine fm_bind ?_
            intro w18_0
            extract_lets -merge -useContext +onlyGivenNames z19
            clear_value z19
            refine fm_bindS (fun x => x) ?_ ?_
            · refine State.planTo_keeps _ _ _ _ _ ?_
              exact hw14
            · intro w20_0 hw20
              refine fm_pure ?_
              refine hz6 _ ?_
              exact hw20
          · extract_lets -merge -useContext +onlyGivenNames z21
            clear_value z21
            refine fm_bind ?_
            intro w22_0
            refine fm_bindS (fun x => x) ?_ ?_
            · refine State.changeTo_keeps _ _ _ _ _ ?_
              exact hw14
            · intro w23_0 hw23
              refine fm_pure ?_
              refine hz6 _ ?_
              exact hw23
          · refine fm_ite _ ?_ ?_
            · refine fm_pure ?_
              refine State.refuseMode_keeps _ _ _ _ ?_
              exact h
            · refine fm_ite _ ?_ ?_
              · refine fm_pure ?_
                refine State.refuseEngage_keeps _ _ _ ?_
                exact h
              · refine fm_pure ?_
                refine hz6 _ ?_
                refine State.enterHitch_keeps _ _ _ ?_
                exact hw14
          · refine fm_pure ?_
            refine hz6 _ ?_
            exact hw14
          · refine fm_ite _ ?_ ?_
            · refine fm_pure ?_
              refine hz6 _ ?_
              refine State.identStart_keeps _ _ ?_
              exact hw14
            · refine fm_pure ?_
              refine State.refuseMode_keeps _ _ _ _ ?_
              exact h
          · refine fm_pure ?_
            refine State.refuseMode_keeps _ _ _ _ ?_
            exact h

theorem State.refuseEntry_keeps {r : State} (a0 : State) (a1 : Nat) (h : Keeps r a0) : Keeps r (State.refuseEntry a0 a1) := by
  unfold State.refuseEntry
  extract_lets -merge -useContext +onlyGivenNames z0
  clear_value z0
  extract_lets -merge -useContext +onlyGivenNames z1
  clear_value z1
  refine keeps_ite _ ?_ ?_
  · exact h
  · refine keeps_ite _ ?_ ?_
    · refine State.refuseMode_keeps _ _ _ _ ?_
      refine keeps_ite _ ?_ ?_
      · refine State.raise_keeps _ _ ?_
        exact h
      · exact h
    · refine keeps_ite _ ?_ ?_
      · refine State.refuseMode_keeps _ _ _ _ ?_
        exact h
      · exact h

theorem State.identLeave_keeps {r : State} (a0 : State) (a1 : Nat) (h : Keeps r a0) : Keeps r (State.identLeave a0 a1) := by
  unfold State.identLeave
  refine keeps_ite _ ?_ ?_
  · refine State.modAx_keeps _ _ _ ?_
    refine keeps_ite _ ?_ ?_
    · exact h
    · refine State.hwMode_keeps _ _ _ ?_
      exact h
  · exact h

theorem State.refuseBehindStop_keeps {r : State} (a0 : State) (a1 : Nat) (h : Keeps r a0) : Keeps r (State.refuseBehindStop a0 a1) := by
  unfold State.refuseBehindStop
  extract_lets -merge -useContext +onlyGivenNames z0
  clear_value z0
  extract_lets -merge -useContext +onlyGivenNames z1
  clear_value z1
  refine keeps_ite _ ?_ ?_
  · exact h
  · extract_lets -merge -useContext +onlyGivenNames z2
    have hz2 : Keeps r z2 := by
      unfold z2
      refine keeps_ite _ ?_ ?_
      · refine State.modAx_keeps _ _ _ ?_
        refine State.raise_keeps _ _ ?_
        exact h
      · exact h
    clear_value z2
    refine keeps_ite _ ?_ ?_
    · exact hz2
    · extract_lets -merge -useContext +onlyGivenNames z3
      have hz3 : Keeps r z3 := by
        unfold z3
        refine State.hwMode_keeps _ _ _ ?_
        refine State.raise_keeps _ _ ?_
        exact hz2
      clear_value z3
      refine keeps_ite _ ?_ ?_
      · refine State.modAx_keeps _ _ _ ?_
        exact hz3
      · exact hz3

theorem State.takeStops_keeps {r : State} (a0 : State) (a1 : Nat) (a2 : When) (a3 : Word) (h : Keeps r a0) : FMK r (fun x => x) (State.takeStops a0 a1 a2 a3) := by
  unfold State.takeStops
  extract_lets -merge -useContext +onlyGivenNames z0
  clear_value z0
  refine fm_ite _ ?_ ?_
  · refine fm_pure ?_
    refine State.hardStop_keeps _ _ _ ?_
    exact h
  · refine fm_ite _ ?_ ?_
    · refine fm_bindS (fun x => x) ?_ ?_
      · refine State.hitchToGen_keeps _ _ _ ?_
        exact h
      · intro w1_0 hw1
        refine fm_bind ?_
        intro w2_0
        refine State.rampStop_keeps _ _ _ _ _ ?_
        exact hw1
    · refine fm_ite _ ?_ ?_
      · refine fm_pure ?_
        refine State.hardStop_keeps _ _ _ ?_
        exact h
      · refine fm_pure ?_
        exact h

theorem State.takeStart_keeps {r : State} (a0 : State) (a1 : Nat) (h : Keeps r a0) : FMK r (fun x => x) (State.takeStart a0 a1) := by
  unfold State.takeStart
  extract_lets -merge -useContext +onlyGivenNames z0
  clear_value z0
  extract_lets -merge -useContext +onlyGivenNames z1
  have hz1 : Keeps r z1 := by
    unfold z1
    refine State.modAx_keeps _ _ _ ?_
    exact h
  clear_value z1
  split
  · refine fm_ite _ ?_ ?_
    · refine fm_bind ?_
      intro w2_0
      refine State.planTo_keeps _ _ _ _ _ ?_
      exact hz1
    · refine fm_pure ?_
      exact hz1
  · refine fm_ite _ ?_ ?_
    · refine fm_bind ?_
      intro w3_0
      refine State.changeTo_keeps _ _ _ _ _ ?_
      exact hz1
    · refine fm_pure ?_
      exact hz1
  · refine fm_pure ?_
    exact hz1

theorem State.softLimit_keeps {r : State} (a0 : State) (a1 : Nat) (a2 : When) (a3 : Int) (h : Keeps r a0) : Keeps r (State.softLimit a0 a1 a2 a3) := by
  unfold State.softLimit
  extract_lets -merge -useContext +onlyGivenNames z0
  clear_value z0
  extract_lets -merge -useContext +onlyGivenNames z1
  clear_value z1
  refine keeps_ite _ ?_ ?_
  · exact h
  · refine keeps_ite _ ?_ ?_
    · refine State.limDue_keeps _ _ _ ?_
      refine State.limitAt_keeps _ _ _ _ ?_
      exact h
    · refine keeps_ite _ ?_ ?_
      · refine State.limDue_keeps _ _ _ ?_
        refine State.limitAt_keeps _ _ _ _ ?_
        exact h
      · exact h

theorem State.reference_keeps {r : State} (a0 : State) (a1 : Nat) (a2 : When) (a3 : Word) (h : Keeps r a0) : FMK r (fun x => x.1) (State.reference a0 a1 a2 a3) := by
  unfold State.reference
  refine fm_bindS (fun x => x) ?_ ?_
  · refine State.takeStops_keeps _ _ _ _ ?_
    exact h
  · intro w0_0 hw0
    refine fm_bindS (fun x => x) ?_ ?_
    · refine State.transition_keeps _ _ _ _ ?_
      exact hw0
    · intro w1_0 hw1
      refine fm_bindS (fun x => x) ?_ ?_
      · refine State.takeStart_keeps _ _ ?_
        exact hw1
      · intro w2_0 hw2
        refine fm_bindS (fun x => x) ?_ ?_
        · refine fm_ite _ ?_ ?_
          · refine State.hitchStep_keeps _ _ _ ?_
            exact hw2
          · refine fm_pure ?_
            exact hw2
        · intro w3_0 hw3
          refine fm_bind ?_
          intro w4_0
          refine fm_ite _ ?_ ?_
          · extract_lets -merge -useContext +onlyGivenNames z5
            have hz5 : Keeps r z5 := by
              unfold z5
              refine State.softLimit_keeps _ _ _ _ ?_
              exact hw3
            clear_value z5
            refine fm_bindS (fun x => x) ?_ ?_
            · refine State.takeStops_keeps _ _ _ _ ?_
              exact hz5
            · intro w6_0 hw6
              refine fm_bind ?_
              intro w7_0
              refine fm_pure ?_
              refine keeps_fst ?_
              exact hw6
          · refine fm_pure ?_
            refine keeps_fst ?_
            exact hw3

theorem State.profileDone_keeps {r : State} (a0 : State) (a1 : Nat) (h : Keeps r a0) : Keeps r (State.profileDone a0 a1) := by
  unfold State.profileDone
  extract_lets -merge -useContext +onlyGivenNames z0
  clear_value z0
  split
  · exact h
  · extract_lets -merge -useContext +onlyGivenNames z1
    have hz1 : Keeps r z1 := by
      unfold z1
      refine State.setGen_keeps _ _ _ ?_
      exact h
    clear_value z1
    refine keeps_ite _ ?_ ?_
    · refine State.raise_keeps _ _ ?_
      exact hz1
    · exact hz1

theorem State.rampEnd_keeps {r : State} (a0 : State) (a1 : Nat) (h : Keeps r a0) : Keeps r (State.rampEnd a0 a1) := by
  unfold State.rampEnd
  refine keeps_ite _ ?_ ?_
  · extract_lets -merge -useContext +onlyGivenNames z0
    clear_value z0
    extract_lets -merge -useContext +onlyGivenNames z1
    have hz1 : Keeps r z1 := by
      unfold z1
      refine State.clr_keeps _ _ ?_
      refine State.setGen_keeps _ _ _ ?_
      exact h
    clear_value z1
    extract_lets -merge -useContext +onlyGivenNames z2
    clear_value z2
    extract_lets -merge -useContext +onlyGivenNames z3
    have hz3 : Keeps r z3 := by
      unfold z3
      refine State.modAx_keeps _ _ _ ?_
      exact hz1
    clear_value z3
    refine keeps_ite _ ?_ ?_
    · exact hz3
    · refine State.hwMode_keeps _ _ _ ?_
      exact hz3
  · exact h

theorem execProfileDone_keeps {r : State} (a0 : Fin 256) (a1 : State) (h : Keeps r a1) (t : State) (e : execProfileDone a0 a1 = .next t) : Keeps r t := by
  unfold execProfileDone at e
  injection e with e
  subst e
  repeat' (first | assumption | intro _ | with_reducible apply State.profileDone_keeps | with_reducible apply keeps_ite | split | dsimp only)

theorem execRampedStopEnd_keeps {r : State} (a0 : Fin 256) (a1 : State) (h : Keeps r a1) (t : State) (e : execRampedStopEnd a0 a1 = .next t) : Keeps r t := by
  unfold execRampedStopEnd at e
  injection e with e
  subst e
  repeat' (first | assumption | intro _ | with_reducible apply State.rampEnd_keeps | with_reducible apply keeps_ite | split | dsimp only)

end Sys2Proof.Machine
end

