-- ==== Sys2Proof/Laws/KeepsOps4.lean ====
section
/-! SUPPORT. Every operation of the files Duplex, Reset, Boot, Pmu, HostIf keeps what `Keeps` says: the queue, canonical stores, the free
counter and the fuses. -/

namespace Sys2Proof.Machine

theorem State.installA_keeps {r : State} (a0 : State) (a1 : AxMirror) (h : Keeps r a0) : Keeps r (State.installA a0 a1) := by
  unfold State.installA
  extract_lets -merge -useContext +onlyGivenNames z0
  clear_value z0
  extract_lets -merge -useContext +onlyGivenNames z1
  have hz1 : Keeps r z1 := by
    unfold z1
    refine State.setReg_keeps _ _ _ ?_
    refine State.setMode_keeps _ _ _ ?_
    exact h
  clear_value z1
  extract_lets -merge -useContext +onlyGivenNames z2
  have hz2 : Keeps r z2 := by
    unfold z2
    refine State.set_keeps _ _ _ ?_
    refine State.set64_keeps _ _ _ _ ?_
    exact hz1
  clear_value z2
  extract_lets -merge -useContext +onlyGivenNames z3
  have hz3 : Keeps r z3 := by
    unfold z3
    refine State.set_keeps _ _ _ ?_
    refine State.set64_keeps _ _ _ _ ?_
    exact hz2
  clear_value z3
  extract_lets -merge -useContext +onlyGivenNames z4
  have hz4 : Keeps r z4 := by
    unfold z4
    refine State.set64_keeps _ _ _ _ ?_
    refine State.set_keeps _ _ _ ?_
    exact hz3
  clear_value z4
  refine State.modAx_keeps _ _ _ ?_
  exact hz4

theorem State.installWord_keeps {r : State} (a0 : State) (a1 : Nat) (a2 : Nat) (h : Keeps r a0) : Keeps r (State.installWord a0 a1 a2) := by
  unfold State.installWord
  refine keeps_ite _ ?_ ?_
  · refine State.setActReg_keeps _ _ _ ?_
    refine State.setReg_keeps _ _ _ ?_
    exact h
  · refine keeps_ite _ ?_ ?_
    · refine keeps_ite _ ?_ ?_
      · exact h
      · refine State.setReg_keeps _ _ _ ?_
        exact h
    · refine keeps_ite _ ?_ ?_
      · extract_lets -merge -useContext +onlyGivenNames z0
        clear_value z0
        refine keeps_ite _ ?_ ?_
        · exact h
        · refine keeps_ite _ ?_ ?_
          · refine State.set_keeps _ _ _ ?_
            refine State.setBoth_keeps _ _ _ ?_
            exact h
          · refine State.setReg_keeps _ _ _ ?_
            exact h
      · refine State.setReg_keeps _ _ _ ?_
        exact h

theorem State.poolSync_keeps {r : State} (a0 : State) (h : Keeps r a0) : Keeps r (State.poolSync a0) := by
  unfold State.poolSync
  extract_lets -merge -useContext +onlyGivenNames z0
  clear_value z0
  refine State.set_keeps _ _ _ ?_
  exact h

theorem State.slotGone_keeps {r : State} (a0 : State) (a1 : Nat) (h : Keeps r a0) : Keeps r (State.slotGone a0 a1) := by
  unfold State.slotGone
  refine State.modDx_keeps _ _ ?_
  refine State.setKnot_keeps _ _ _ ?_
  refine State.kUsed_keeps _ _ _ ?_
  refine State.setKState_keeps _ _ _ ?_
  exact h

theorem State.installC_keeps {r : State} (a0 : State) (a1 : List (Nat × Nat)) (h : Keeps r a0) : Keeps r (State.installC a0 a1) := by
  unfold State.installC
  extract_lets -merge -useContext +onlyGivenNames z0
  have hz0 : Keeps r z0 := by
    unfold z0
    refine keeps_forEach ?_ _ _ ?_
    · exact h
    · intro w1_0 w1_1 hw1
      refine keeps_forN ?_ _ _ ?_
      · exact hw1
      · intro w2_0 w2_1 hw2
        refine State.setNt_keeps _ _ _ _ ?_
        exact hw2
  clear_value z0
  extract_lets -merge -useContext +onlyGivenNames z3
  have hz3 : Keeps r z3 := by
    unfold z3
    refine keeps_forN ?_ _ _ ?_
    · exact hz0
    · intro w4_0 w4_1 hw4
      refine keeps_ite _ ?_ ?_
      · refine State.slotGone_keeps _ _ ?_
        exact hw4
      · exact hw4
  clear_value z3
  refine State.poolSync_keeps _ ?_
  refine keeps_forEach ?_ _ _ ?_
  · exact hz3
  · intro w5_0 w5_1 hw5
    refine State.installWord_keeps _ _ _ ?_
    exact hw5

theorem State.installG_keeps {r : State} (a0 : State) (a1 : List (Nat × Nat × Nat)) (h : Keeps r a0) : Keeps r (State.installG a0 a1) := by
  unfold State.installG
  refine keeps_forEach ?_ _ _ ?_
  · exact h
  · intro w0_0 w0_1 hw0
    refine State.setActReg_keeps _ _ _ ?_
    refine State.setReg_keeps _ _ _ ?_
    exact hw0

theorem State.installK_keeps {r : State} (a0 : State) (a1 : Nat) (a2 : List (Nat × Nat)) (a3 : List (List Nat)) (a4 : Option Bool) (h : Keeps r a0) : Keeps r (State.installK a0 a1 a2 a3 a4) := by
  unfold State.installK
  extract_lets -merge -useContext +onlyGivenNames z0
  have hz0 : Keeps r z0 := by
    unfold z0
    refine keeps_ite _ ?_ ?_
    · refine State.slotGone_keeps _ _ ?_
      exact h
    · exact h
  clear_value z0
  extract_lets -merge -useContext +onlyGivenNames z1
  have hz1 : Keeps r z1 := by
    unfold z1
    refine State.poolSync_keeps _ ?_
    refine keeps_forEach ?_ _ _ ?_
    · exact hz0
    · intro w2_0 w2_1 hw2
      refine State.setReg_keeps _ _ _ ?_
      exact hw2
  clear_value z1
  extract_lets -merge -useContext +onlyGivenNames z3
  have hz3 : Keeps r z3 := by
    unfold z3
    refine State.modKnot_keeps _ _ _ ?_
    refine State.kUsed_keeps _ _ _ ?_
    exact hz1
  clear_value z3
  extract_lets -merge -useContext +onlyGivenNames z4
  extract_lets -merge -useContext +onlyGivenNames z5
  have hz5 : Keeps r z5 := by
    unfold z5
    refine keeps_ke ?_ _ (fun y => y)
    exact hz3
  clear_value z5
  split
  · exact hz5
  · refine State.decided_keeps _ _ _ _ ?_
    exact hz5

theorem State.installF_keeps {r : State} (a0 : State) (a1 : Nat) (a2 : Nat) (a3 : List Byte) (a4 : Bool) (h : Keeps r a0) : Keeps r (State.installF a0 a1 a2 a3 a4) := by
  unfold State.installF
  extract_lets -merge -useContext +onlyGivenNames z0
  clear_value z0
  refine keeps_ite _ ?_ ?_
  · refine State.modDx_keeps _ _ ?_
    refine State.set_keeps _ _ _ ?_
    refine State.store_keeps _ _ _ ?_
    exact h
  · refine State.modDx_keeps _ _ ?_
    exact h

theorem State.installAt_keeps {r : State} (a0 : State) (a1 : MirrorRec) (h : Keeps r a0) : Keeps r (State.installAt a0 a1) := by
  unfold State.installAt
  split
  · refine State.installG_keeps _ _ ?_
    exact h
  · refine State.modAx_keeps _ _ _ ?_
    exact h
  · refine State.installK_keeps _ _ _ _ _ ?_
    exact h
  · exact h

theorem State.installDue_keeps {r : State} (a0 : State) (a1 : Nat) (h : Keeps r a0) : Keeps r (State.installDue a0 a1) := by
  unfold State.installDue
  extract_lets -merge -useContext +onlyGivenNames z0
  clear_value z0
  extract_lets -merge -useContext +onlyGivenNames z1
  have hz1 : Keeps r z1 := by
    unfold z1
    refine State.modDx_keeps _ _ ?_
    exact h
  clear_value z1
  refine keeps_forEach ?_ _ _ ?_
  · exact hz1
  · intro w2_0 w2_1 hw2
    refine State.installAt_keeps _ _ ?_
    exact hw2

theorem State.releaseWakes_keeps {r : State} (a0 : State) (h : Keeps r a0) : Keeps r (State.releaseWakes a0) := by
  unfold State.releaseWakes
  extract_lets -merge -useContext +onlyGivenNames z0
  have hz0 : Keeps r z0 := by
    unfold z0
    refine State.modDx_keeps _ _ ?_
    exact h
  clear_value z0
  refine keeps_forEach ?_ _ _ ?_
  · exact hz0
  · intro w1_0 w1_1 hw1
    extract_lets -merge -useContext +onlyGivenNames z2
    clear_value z2
    refine keeps_ite _ ?_ ?_
    · refine State.wakeOwner_keeps _ _ ?_
      exact hw1
    · exact hw1

theorem State.mirrorEnd_keeps {r : State} (a0 : State) (a1 : Nat) (a2 : Nat) (a3 : Bool) (h : Keeps r a0) : Keeps r (State.mirrorEnd a0 a1 a2 a3) := by
  unfold State.mirrorEnd
  extract_lets -merge -useContext +onlyGivenNames z0
  clear_value z0
  extract_lets -merge -useContext +onlyGivenNames z1
  have hz1 : Keeps r z1 := by
    unfold z1
    refine State.modDx_keeps _ _ ?_
    exact h
  clear_value z1
  refine keeps_ite _ ?_ ?_
  · refine State.modDx_keeps _ _ ?_
    exact hz1
  · extract_lets -merge -useContext +onlyGivenNames z2
    have hz2 : Keeps r z2 := by
      unfold z2
      refine keeps_forEach ?_ _ _ ?_
      · exact hz1
      · intro w3_0 w3_1 hw3
        split
        · refine State.installC_keeps _ _ ?_
          exact hw3
        · refine State.installA_keeps _ _ ?_
          exact hw3
        · exact hw3
    clear_value z2
    extract_lets -merge -useContext +onlyGivenNames z4
    have hz4 : Keeps r z4 := by
      unfold z4
      refine State.modDx_keeps _ _ ?_
      refine State.set_keeps _ _ _ ?_
      exact hz2
    clear_value z4
    extract_lets -merge -useContext +onlyGivenNames z5
    have hz5 : Keeps r z5 := by
      unfold z5
      split
      · refine keeps_ite _ ?_ ?_
        · refine State.releaseWakes_keeps _ ?_
          exact hz4
        · exact hz4
      · exact hz4
    clear_value z5
    refine keeps_ite _ ?_ ?_
    · refine State.dxTo_keeps _ _ ?_
      exact hz5
    · exact hz5

theorem State.mirrorIn_keeps {r : State} (a0 : State) (a1 : MirrorRec) (h : Keeps r a0) : Keeps r (State.mirrorIn a0 a1) := by
  unfold State.mirrorIn
  refine keeps_ite _ ?_ ?_
  · exact h
  · extract_lets -merge -useContext +onlyGivenNames z0
    have hz0 : ∀ y0, Keeps r (z0 y0) := by
      unfold z0
      intro w1_0
      refine State.installDue_keeps _ _ ?_
      refine State.modDx_keeps _ _ ?_
      exact h
    clear_value z0
    split
    · refine State.modDx_keeps _ _ ?_
      exact h
    · refine State.modDx_keeps _ _ ?_
      exact h
    · refine hz0 _
    · refine hz0 _
    · refine hz0 _
    · refine State.modDx_keeps _ _ ?_
      refine State.installF_keeps _ _ _ _ _ ?_
      exact h
    · refine State.mirrorEnd_keeps _ _ _ _ ?_
      exact h
    · refine State.modDx_keeps _ _ ?_
      exact h

theorem State.mirrorLate_keeps {r : State} (a0 : State) (h : Keeps r a0) : Keeps r (State.mirrorLate a0) := by
  unfold State.mirrorLate
  refine keeps_ite _ ?_ ?_
  · exact h
  · extract_lets -merge -useContext +onlyGivenNames z0
    have hz0 : Keeps r z0 := by
      unfold z0
      refine State.dxReport_keeps _ _ _ ?_
      refine State.count_keeps _ _ ?_
      exact h
    clear_value z0
    extract_lets -merge -useContext +onlyGivenNames z1
    have hz1 : Keeps r z1 := by
      unfold z1
      refine State.modDx_keeps _ _ ?_
      exact hz0
    clear_value z1
    refine keeps_ite _ ?_ ?_
    · refine State.dxTo_keeps _ _ ?_
      refine State.modDx_keeps _ _ ?_
      refine State.dxReport_keeps _ _ _ ?_
      refine State.raise_keeps _ _ ?_
      exact hz1
    · exact hz1

theorem State.postMirror_keeps {r : State} (a0 : State) (a1 : Nat) (h : Keeps r a0) : Keeps r (State.postMirror a0 a1) := by
  unfold State.postMirror
  refine keeps_ite _ ?_ ?_
  · refine State.modDx_keeps _ _ ?_
    exact h
  · exact h

theorem State.mirrorSend_keeps {r : State} (a0 : State) (h : Keeps r a0) : Keeps r (State.mirrorSend a0) := by
  unfold State.mirrorSend
  refine keeps_ite _ ?_ ?_
  · exact h
  · extract_lets -merge -useContext +onlyGivenNames z0
    clear_value z0
    extract_lets -merge -useContext +onlyGivenNames z1
    clear_value z1
    extract_lets -merge -useContext +onlyGivenNames z2
    clear_value z2
    extract_lets -merge -useContext +onlyGivenNames z3
    clear_value z3
    extract_lets -merge -useContext +onlyGivenNames z4
    clear_value z4
    extract_lets -merge -useContext +onlyGivenNames z5
    have hz5 : Keeps r z5 := by
      unfold z5
      refine keeps_forEach ?_ _ _ ?_
      · exact h
      · intro w6_0 w6_1 hw6
        split
        · refine State.set_keeps _ _ _ ?_
          exact hw6
        · exact hw6
    clear_value z5
    refine State.modDx_keeps _ _ ?_
    refine State.set_keeps _ _ _ ?_
    exact hz5

theorem State.mirrorBoundary_keeps {r : State} (a0 : State) (a1 : State) (a2 : Nat) (h : Keeps r a0) : Keeps r (State.mirrorBoundary a0 a1 a2) := by
  unfold State.mirrorBoundary
  refine keeps_ite _ ?_ ?_
  · exact h
  · extract_lets -merge -useContext +onlyGivenNames z0
    have hz0 : Keeps r z0 := by
      unfold z0
      refine State.modDx_keeps _ _ ?_
      exact h
    clear_value z0
    refine keeps_forEach ?_ _ _ ?_
    · exact hz0
    · intro w1_0 w1_1 hw1
      extract_lets -merge -useContext +onlyGivenNames z2
      clear_value z2
      refine keeps_ite _ ?_ ?_
      · exact hw1
      · refine State.mirrorQueue_keeps _ _ ?_
        exact hw1

theorem State.mirrorPlan_keeps {r : State} (a0 : State) (a1 : Nat) (h : Keeps r a0) : Keeps r (State.mirrorPlan a0 a1) := by
  unfold State.mirrorPlan
  refine keeps_ite _ ?_ ?_
  · refine State.modDx_keeps _ _ ?_
    refine State.mirrorQueue_keeps _ _ ?_
    exact h
  · exact h

theorem State.mirrorKnot_keeps {r : State} (a0 : State) (a1 : Nat) (a2 : Option Bool) (h : Keeps r a0) : Keeps r (State.mirrorKnot a0 a1 a2) := by
  unfold State.mirrorKnot
  refine State.mirrorQueue_keeps _ _ ?_
  exact h

theorem State.actSource_keeps {r : State} (a0 : State) (h : Keeps r a0) : Keeps r (State.actSource a0) := by
  unfold State.actSource
  refine keeps_forN ?_ _ _ ?_
  · exact h
  · intro w0_0 w0_1 hw0
    refine keeps_ite _ ?_ ?_
    · refine State.set_keeps _ _ _ ?_
      refine State.ringLeave_keeps _ _ ?_
      exact hw0
    · exact hw0

theorem State.reducedAxis_keeps {r : State} (a0 : State) (a1 : Nat) (h : Keeps r a0) : Keeps r (State.reducedAxis a0 a1) := by
  unfold State.reducedAxis
  extract_lets -merge -useContext +onlyGivenNames z0
  have hz0 : Keeps r z0 := by
    unfold z0
    split
    · exact h
    · refine State.set64_keeps _ _ _ _ ?_
      refine State.setMode_keeps _ _ _ ?_
      exact h
  clear_value z0
  extract_lets -merge -useContext +onlyGivenNames z1
  have hz1 : Keeps r z1 := by
    unfold z1
    split
    · exact hz0
    · extract_lets -merge -useContext +onlyGivenNames z2
      clear_value z2
      extract_lets -merge -useContext +onlyGivenNames z3
      clear_value z3
      extract_lets -merge -useContext +onlyGivenNames z4
      clear_value z4
      extract_lets -merge -useContext +onlyGivenNames z5
      clear_value z5
      extract_lets -merge -useContext +onlyGivenNames z6
      clear_value z6
      extract_lets -merge -useContext +onlyGivenNames z7
      clear_value z7
      refine State.setGen_keeps _ _ _ ?_
      exact hz0
  clear_value z1
  refine State.modAx_keeps _ _ _ ?_
  exact hz1

theorem State.takeState_keeps {r : State} (a0 : State) (h : Keeps r a0) : Keeps r ((State.takeState a0).2) := by
  unfold State.takeState
  refine keeps_ite2 _ ?_ ?_
  · refine keeps_snd ?_
    exact h
  · refine keeps_ite2 _ ?_ ?_
    · refine keeps_snd ?_
      refine keeps_forEach ?_ _ _ ?_
      · exact h
      · intro w0_0 w0_1 hw0
        refine State.reducedAxis_keeps _ _ ?_
        exact hw0
    · refine keeps_snd ?_
      refine keeps_forEach ?_ _ _ ?_
      · exact h
      · intro w1_0 w1_1 hw1
        refine State.hwMode_keeps _ _ _ ?_
        refine State.identAbort_keeps _ _ _ ?_
        exact hw1

theorem State.spliceKnot_keeps {r : State} (a0 : State) (a1 : Nat) (h : Keeps r a0) : Keeps r (State.spliceKnot a0 a1) := by
  unfold State.spliceKnot
  refine keeps_ite _ ?_ ?_
  · exact h
  · split
    · refine State.setKState_keeps _ _ _ ?_
      exact h
    · refine State.knotVoid_keeps _ _ _ ?_
      exact h

theorem State.spliceKnots_keeps {r : State} (a0 : State) (h : Keeps r a0) : Keeps r (State.spliceKnots a0) := by
  unfold State.spliceKnots
  refine keeps_forN ?_ _ _ ?_
  · exact h
  · intro w0_0 w0_1 hw0
    refine State.spliceKnot_keeps _ _ ?_
    exact hw0

theorem State.spliceAxis_keeps {r : State} (a0 : State) (a1 : Nat) (h : Keeps r a0) : Keeps r (State.spliceAxis a0 a1) := by
  unfold State.spliceAxis
  refine State.modAx_keeps _ _ _ ?_
  refine State.identTaken_keeps _ _ ?_
  exact h

theorem State.portTake_keeps {r : State} (a0 : State) (a1 : Nat) (a2 : Bool) (h : Keeps r a0) : Keeps r (State.portTake a0 a1 a2) := by
  unfold State.portTake
  extract_lets -merge -useContext +onlyGivenNames z0
  have hz0 : Keeps r z0 := by
    unfold z0
    refine State.modRing_keeps _ _ _ ?_
    refine State.rpTo_keeps _ _ _ ?_
    exact h
  clear_value z0
  refine keeps_ite _ ?_ ?_
  · exact hz0
  · refine keeps_ite _ ?_ ?_
    · refine State.set_keeps _ _ _ ?_
      exact hz0
    · refine State.set_keeps _ _ _ ?_
      exact hz0

theorem State.spliceLog_keeps {r : State} (a0 : State) (a1 : Nat) (h : Keeps r a0) : Keeps r (State.spliceLog a0 a1) := by
  unfold State.spliceLog
  refine State.dxReport_keeps _ _ _ ?_
  refine State.set_keeps _ _ _ ?_
  refine State.count_keeps _ _ ?_
  exact h

theorem State.takeover_keeps {r : State} (a0 : State) (h : Keeps r a0) : Keeps r (State.takeover a0) := by
  unfold State.takeover
  refine keeps_ite _ ?_ ?_
  · exact h
  · have hd0 : Keeps r (a0.takeState).2 := by
      refine State.takeState_keeps _ ?_
      exact h
    split
    · extract_lets -merge -useContext +onlyGivenNames z1
      have hz1 : Keeps r z1 := by
        unfold z1
        refine State.clr_keeps _ _ ?_
        refine State.dxTo_keeps _ _ ?_
        exact (by simp_all)
      clear_value z1
      extract_lets -merge -useContext +onlyGivenNames z2
      have hz2 : Keeps r z2 := by
        unfold z2
        refine keeps_forEach ?_ _ _ ?_
        · exact hz1
        · intro w3_0 w3_1 hw3
          refine State.portTake_keeps _ _ _ ?_
          exact hw3
      clear_value z2
      extract_lets -merge -useContext +onlyGivenNames z4
      have hz4 : Keeps r z4 := by
        unfold z4
        refine keeps_forEach ?_ _ _ ?_
        · exact hz2
        · intro w5_0 w5_1 hw5
          refine State.deadline_keeps _ _ _ ?_
          refine State.modAx_keeps _ _ _ ?_
          refine State.spliceAxis_keeps _ _ ?_
          exact hw5
      clear_value z4
      refine State.spliceLog_keeps _ _ ?_
      refine State.spliceKnots_keeps _ ?_
      refine State.actSource_keeps _ ?_
      exact hz4

theorem State.spliceTry_keeps {r : State} (a0 : State) (h : Keeps r a0) : Keeps r (State.spliceTry a0) := by
  unfold State.spliceTry
  refine keeps_ite _ ?_ ?_
  · refine State.modDx_keeps _ _ ?_
    exact h
  · exact h

theorem State.spliceBoundary_keeps {r : State} (a0 : State) (h : Keeps r a0) : Keeps r (State.spliceBoundary a0) := by
  unfold State.spliceBoundary
  split
  · exact h
  · refine keeps_ite _ ?_ ?_
    · exact h
    · extract_lets -merge -useContext +onlyGivenNames z0
      have hz0 : Keeps r z0 := by
        unfold z0
        refine State.modDx_keeps _ _ ?_
        exact h
      clear_value z0
      refine keeps_ite _ ?_ ?_
      · extract_lets -merge -useContext +onlyGivenNames z1
        have hz1 : Keeps r z1 := by
          unfold z1
          refine State.dxTo_keeps _ _ ?_
          refine keeps_forEach ?_ _ _ ?_
          · exact hz0
          · intro w2_0 w2_1 hw2
            refine State.identAbort_keeps _ _ _ ?_
            exact hw2
        clear_value z1
        extract_lets -merge -useContext +onlyGivenNames z3
        have hz3 : Keeps r z3 := by
          unfold z3
          refine keeps_forEach ?_ _ _ ?_
          · exact hz1
          · intro w4_0 w4_1 hw4
            refine State.rpTo_keeps _ _ _ ?_
            exact hw4
        clear_value z3
        extract_lets -merge -useContext +onlyGivenNames z5
        have hz5 : Keeps r z5 := by
          unfold z5
          refine keeps_forEach ?_ _ _ ?_
          · exact hz3
          · intro w6_0 w6_1 hw6
            refine State.set_keeps _ _ _ ?_
            exact hw6
        clear_value z5
        refine State.spliceLog_keeps _ _ ?_
        exact hz5
      · extract_lets -merge -useContext +onlyGivenNames z7
        have hz7 : Keeps r z7 := by
          unfold z7
          refine State.dxTo_keeps _ _ ?_
          refine keeps_forEach ?_ _ _ ?_
          · exact hz0
          · intro w8_0 w8_1 hw8
            refine State.spliceAxis_keeps _ _ ?_
            exact hw8
        clear_value z7
        extract_lets -merge -useContext +onlyGivenNames z9
        have hz9 : Keeps r z9 := by
          unfold z9
          refine keeps_forEach ?_ _ _ ?_
          · exact hz7
          · intro w10_0 w10_1 hw10
            refine State.portTake_keeps _ _ _ ?_
            exact hw10
        clear_value z9
        extract_lets -merge -useContext +onlyGivenNames z11
        have hz11 : Keeps r z11 := by
          unfold z11
          refine State.spliceLog_keeps _ _ ?_
          refine State.actSource_keeps _ ?_
          exact hz9
        clear_value z11
        extract_lets -merge -useContext +onlyGivenNames z12
        clear_value z12
        refine keeps_ite _ ?_ ?_
        · exact hz11
        · refine State.modDx_keeps _ _ ?_
          exact hz11

theorem State.spliceTimeout_keeps {r : State} (a0 : State) (h : Keeps r a0) : Keeps r (State.spliceTimeout a0) := by
  unfold State.spliceTimeout
  split
  · refine keeps_ite _ ?_ ?_
    · refine State.spliceAbort_keeps _ ?_
      exact h
    · exact h
  · exact h

theorem State.dxHeal_keeps {r : State} (a0 : State) (h : Keeps r a0) : Keeps r (State.dxHeal a0) := by
  unfold State.dxHeal
  refine keeps_ite _ ?_ ?_
  · exact h
  · refine keeps_forEach ?_ _ _ ?_
    · exact h
    · intro w0_0 w0_1 hw0
      refine keeps_ite _ ?_ ?_
      · refine State.healStart_keeps _ _ ?_
        refine State.rpTo_keeps _ _ _ ?_
        exact hw0
      · exact hw0

theorem State.dxBoundary_keeps {r : State} (a0 : State) (a1 : Nat) (h : Keeps r a0) : Keeps r (State.dxBoundary a0 a1) := by
  unfold State.dxBoundary
  refine keeps_ite _ ?_ ?_
  · exact h
  · refine State.dxHeal_keeps _ ?_
    refine State.spliceTry_keeps _ ?_
    refine State.spliceBoundary_keeps _ ?_
    refine State.installDue_keeps _ _ ?_
    exact h

theorem State.dxFence_keeps {r : State} (a0 : State) (h : Keeps r a0) : Keeps r (State.dxFence a0) := by
  unfold State.dxFence
  refine keeps_ite _ ?_ ?_
  · exact h
  · extract_lets -merge -useContext +onlyGivenNames z0
    clear_value z0
    extract_lets -merge -useContext +onlyGivenNames z1
    have hz1 : Keeps r z1 := by
      unfold z1
      refine keeps_forEach ?_ _ _ ?_
      · exact h
      · intro w2_0 w2_1 hw2
        refine State.clr_keeps _ _ ?_
        refine State.clr_keeps _ _ ?_
        refine State.portIdle_keeps _ _ ?_
        exact hw2
    clear_value z1
    extract_lets -merge -useContext +onlyGivenNames z3
    have hz3 : Keeps r z3 := by
      unfold z3
      refine State.clr_keeps _ _ ?_
      refine State.clr_keeps _ _ ?_
      refine State.clr_keeps _ _ ?_
      exact hz1
    clear_value z3
    extract_lets -merge -useContext +onlyGivenNames z4
    have hz4 : Keeps r z4 := by
      unfold z4
      refine State.modDx_keeps _ _ ?_
      exact hz3
    clear_value z4
    refine State.dxTo_keeps _ _ ?_
    refine State.dxReport_keeps _ _ _ ?_
    exact hz4

theorem State.dxSeekStart_keeps {r : State} (a0 : State) (h : Keeps r a0) : Keeps r (State.dxSeekStart a0) := by
  unfold State.dxSeekStart
  extract_lets -merge -useContext +onlyGivenNames z0
  have hz0 : Keeps r z0 := by
    unfold z0
    refine State.dxTo_keeps _ _ ?_
    exact h
  clear_value z0
  extract_lets -merge -useContext +onlyGivenNames z1
  have hz1 : Keeps r z1 := by
    unfold z1
    refine State.modDx_keeps _ _ ?_
    exact hz0
  clear_value z1
  extract_lets -merge -useContext +onlyGivenNames z2
  have hz2 : Keeps r z2 := by
    unfold z2
    refine State.clr_keeps _ _ ?_
    exact hz1
  clear_value z2
  refine keeps_forEach ?_ _ _ ?_
  · exact hz2
  · intro w3_0 w3_1 hw3
    refine State.raise_keeps _ _ ?_
    refine keeps_ite _ ?_ ?_
    · refine State.portEnable_keeps _ _ ?_
      exact hw3
    · refine State.listen_keeps _ _ ?_
      exact hw3

theorem State.dxEnable_keeps {r : State} (a0 : State) (h : Keeps r a0) : Keeps r (State.dxEnable a0) := by
  unfold State.dxEnable
  refine keeps_ite _ ?_ ?_
  · refine State.dxSeekStart_keeps _ ?_
    exact h
  · exact h

theorem State.dxDisable_keeps {r : State} (a0 : State) (h : Keeps r a0) : Keeps r (State.dxDisable a0) := by
  unfold State.dxDisable
  refine keeps_ite _ ?_ ?_
  · exact h
  · extract_lets -merge -useContext +onlyGivenNames z0
    have hz0 : Keeps r z0 := by
      unfold z0
      refine keeps_forEach ?_ _ _ ?_
      · exact h
      · intro w1_0 w1_1 hw1
        refine State.portDisable_keeps _ _ ?_
        exact hw1
    clear_value z0
    extract_lets -merge -useContext +onlyGivenNames z2
    have hz2 : Keeps r z2 := by
      unfold z2
      refine State.modDx_keeps _ _ ?_
      exact hz0
    clear_value z2
    refine State.dxTo_keeps _ _ ?_
    refine State.clr_keeps _ _ ?_
    refine State.clr_keeps _ _ ?_
    exact hz2

theorem State.dxRejoin_keeps {r : State} (a0 : State) (h : Keeps r a0) : Keeps r (State.dxRejoin a0) := by
  unfold State.dxRejoin
  refine keeps_ite _ ?_ ?_
  · refine State.dxSeekStart_keeps _ ?_
    exact h
  · exact h

theorem State.tbClear_keeps {r : State} (a0 : State) (h : Keeps r a0) : Keeps r (State.tbClear a0) := by
  unfold State.tbClear
  refine State.clr_keeps _ _ ?_
  exact h

theorem State.dxSwitch_keeps {r : State} (a0 : State) (h : Keeps r a0) : Keeps r (State.dxSwitch a0) := by
  unfold State.dxSwitch
  refine keeps_ite _ ?_ ?_
  · refine State.spliceTry_keeps _ ?_
    refine State.modDx_keeps _ _ ?_
    exact h
  · exact h

theorem State.liveKick_keeps {r : State} (a0 : State) (h : Keeps r a0) : Keeps r (State.liveKick a0) := by
  unfold State.liveKick
  refine State.modDx_keeps _ _ ?_
  exact h

theorem State.partnerLost_keeps {r : State} (a0 : State) (h : Keeps r a0) : Keeps r (State.partnerLost a0) := by
  unfold State.partnerLost
  refine keeps_ite _ ?_ ?_
  · exact h
  · extract_lets -merge -useContext +onlyGivenNames z0
    have hz0 : Keeps r z0 := by
      unfold z0
      refine State.clr_keeps _ _ ?_
      exact h
    clear_value z0
    refine keeps_ite _ ?_ ?_
    · refine State.dxTo_keeps _ _ ?_
      refine State.modDx_keeps _ _ ?_
      exact hz0
    · exact hz0

theorem State.peerLinkLost_keeps {r : State} (a0 : State) (h : Keeps r a0) : Keeps r (State.peerLinkLost a0) := by
  unfold State.peerLinkLost
  refine keeps_ite _ ?_ ?_
  · exact h
  · extract_lets -merge -useContext +onlyGivenNames z0
    have hz0 : Keeps r z0 := by
      unfold z0
      refine State.clr_keeps _ _ ?_
      refine State.clr_keeps _ _ ?_
      refine State.raise_keeps _ _ ?_
      exact h
    clear_value z0
    extract_lets -merge -useContext +onlyGivenNames z1
    have hz1 : Keeps r z1 := by
      unfold z1
      refine State.dxReport_keeps _ _ _ ?_
      exact hz0
    clear_value z1
    extract_lets -merge -useContext +onlyGivenNames z2
    have hz2 : Keeps r z2 := by
      unfold z2
      refine State.modDx_keeps _ _ ?_
      exact hz1
    clear_value z2
    refine keeps_ite _ ?_ ?_
    · refine State.clr_keeps _ _ ?_
      exact hz2
    · exact hz2

theorem State.peerLinkReturn_keeps {r : State} (a0 : State) (h : Keeps r a0) : Keeps r (State.peerLinkReturn a0) := by
  unfold State.peerLinkReturn
  refine keeps_ite _ ?_ ?_
  · exact h
  · extract_lets -merge -useContext +onlyGivenNames z0
    have hz0 : Keeps r z0 := by
      unfold z0
      refine State.clr_keeps _ _ ?_
      exact h
    clear_value z0
    refine keeps_ite _ ?_ ?_
    · refine State.dxTo_keeps _ _ ?_
      refine State.modDx_keeps _ _ ?_
      exact hz0
    · refine keeps_ite _ ?_ ?_
      · refine State.modDx_keeps _ _ ?_
        exact hz0
      · exact hz0

theorem State.forwarded_keeps {r : State} (a0 : State) (a1 : Forward) (h : Keeps r a0) : Keeps r (State.forwarded a0 a1) := by
  unfold State.forwarded
  extract_lets -merge -useContext +onlyGivenNames z0
  clear_value z0
  refine keeps_ite _ ?_ ?_
  · refine State.acceptRelease_keeps _ _ ?_
    exact h
  · exact h

theorem State.peerMessage_keeps {r : State} (a0 : State) (a1 : Nat) (a2 : PeerMsg) (h : Keeps r a0) : Keeps r (State.peerMessage a0 a1 a2) := by
  unfold State.peerMessage
  refine keeps_ite _ ?_ ?_
  · exact h
  · extract_lets -merge -useContext +onlyGivenNames z0
    have hz0 : Keeps r z0 := by
      unfold z0
      refine State.raise_keeps _ _ ?_
      exact h
    clear_value z0
    split
    · refine keeps_ite _ ?_ ?_
      · refine State.dxBeat_keeps _ _ _ ?_
        refine State.modDx_keeps _ _ ?_
        refine State.learnPartner_keeps _ _ ?_
        exact hz0
      · exact hz0
    · refine State.spliceAsked_keeps _ _ ?_
      exact hz0
    · refine keeps_ite _ ?_ ?_
      · refine State.spliceAcked_keeps _ ?_
        exact hz0
      · exact hz0
    · refine State.spliceAborted_keeps _ ?_
      exact hz0
    · refine keeps_ite _ ?_ ?_
      · refine State.spliceTry_keeps _ ?_
        refine State.modDx_keeps _ _ ?_
        exact hz0
      · exact hz0
    · refine keeps_ite _ ?_ ?_
      · exact hz0
      · extract_lets -merge -useContext +onlyGivenNames z1
        clear_value z1
        refine State.setSent_keeps _ _ _ _ ?_
        exact hz0
    · refine keeps_ite _ ?_ ?_
      · refine State.ringReceive_keeps _ _ _ _ ?_
        exact hz0
      · exact hz0
    · refine keeps_ite _ ?_ ?_
      · refine State.forwarded_keeps _ _ ?_
        exact hz0
      · exact hz0

theorem State.mirrorSetWrite_keeps {r : State} (a0 : State) (a1 : Nat) (a2 : Nat) (h : Keeps r a0) : Keeps r (State.mirrorSetWrite a0 a1 a2) := by
  unfold State.mirrorSetWrite
  extract_lets -merge -useContext +onlyGivenNames z0
  have hz0 : Keeps r z0 := by
    unfold z0
    refine State.plainWrite_keeps _ _ _ ?_
    exact h
  clear_value z0
  extract_lets -merge -useContext +onlyGivenNames z1
  clear_value z1
  refine keeps_ite _ ?_ ?_
  · exact hz0
  · refine State.raise_keeps _ _ ?_
    exact h

theorem State.dxCtrlW_keeps {r : State} (a0 : State) (a1 : Nat) (h : Keeps r a0) : Keeps r (State.dxCtrlW a0 a1) := by
  unfold State.dxCtrlW
  extract_lets -merge -useContext +onlyGivenNames z0
  have hz0 : Keeps r z0 := by
    unfold z0
    refine State.storeWrite_keeps _ _ _ ?_
    exact h
  clear_value z0
  extract_lets -merge -useContext +onlyGivenNames z1
  have hz1 : Keeps r z1 := by
    unfold z1
    refine keeps_ite _ ?_ ?_
    · refine State.dxEnable_keeps _ ?_
      exact hz0
    · refine State.dxDisable_keeps _ ?_
      exact hz0
  clear_value z1
  extract_lets -merge -useContext +onlyGivenNames z2
  have hz2 : Keeps r z2 := by
    unfold z2
    refine keeps_ite _ ?_ ?_
    · refine State.tbClear_keeps _ ?_
      exact hz1
    · exact hz1
  clear_value z2
  extract_lets -merge -useContext +onlyGivenNames z3
  have hz3 : Keeps r z3 := by
    unfold z3
    refine keeps_ite _ ?_ ?_
    · refine State.dxRejoin_keeps _ ?_
      exact hz2
    · exact hz2
  clear_value z3
  extract_lets -merge -useContext +onlyGivenNames z4
  have hz4 : Keeps r z4 := by
    unfold z4
    refine keeps_ite _ ?_ ?_
    · refine State.dxSwitch_keeps _ ?_
      exact hz3
    · exact hz3
  clear_value z4
  refine keeps_ite _ ?_ ?_
  · refine State.dxFence_keeps _ ?_
    exact hz4
  · exact hz4

theorem State.dxWrite_keeps {r : State} (a0 : State) (a1 : Nat) (a2 : Nat) (h : Keeps r a0) : Keeps r (State.dxWrite a0 a1 a2) := by
  unfold State.dxWrite
  refine keeps_ite _ ?_ ?_
  · refine State.dxCtrlW_keeps _ _ ?_
    exact h
  · refine keeps_ite _ ?_ ?_
    · extract_lets -merge -useContext +onlyGivenNames z0
      have hz0 : Keeps r z0 := by
        unfold z0
        refine State.set_keeps _ _ _ ?_
        exact h
      clear_value z0
      refine keeps_ite _ ?_ ?_
      · refine State.liveKick_keeps _ ?_
        exact hz0
      · exact hz0
    · refine keeps_ite _ ?_ ?_
      · refine State.mirrorSetWrite_keeps _ _ _ ?_
        exact h
      · refine State.plainWrite_keeps _ _ _ ?_
        exact h

theorem execHeartbeatSend_keeps {r : State} (a0 : State) (h : Keeps r a0) (t : State) (e : execHeartbeatSend a0 = .next t) : Keeps r t := by
  unfold execHeartbeatSend at e
  injection e with e
  subst e
  repeat' (first | assumption | intro _ | with_reducible apply State.modDx_keeps | with_reducible apply keeps_ite | split | dsimp only)

theorem execPeerMessageReceive_keeps {r : State} (a0 : Fin 2) (a1 : PeerMsg) (a2 : State) (h : Keeps r a2) (t : State) (e : execPeerMessageReceive a0 a1 a2 = .next t) : Keeps r t := by
  unfold execPeerMessageReceive at e
  injection e with e
  subst e
  repeat' (first | assumption | intro _ | with_reducible apply State.peerMessage_keeps | with_reducible apply keeps_ite | split | dsimp only)

theorem execPartnerLost_keeps {r : State} (a0 : State) (h : Keeps r a0) (t : State) (e : execPartnerLost a0 = .next t) : Keeps r t := by
  unfold execPartnerLost at e
  injection e with e
  subst e
  repeat' (first | assumption | intro _ | with_reducible apply State.partnerLost_keeps | with_reducible apply keeps_ite | split | dsimp only)

theorem execPeerLinkLost_keeps {r : State} (a0 : State) (h : Keeps r a0) (t : State) (e : execPeerLinkLost a0 = .next t) : Keeps r t := by
  unfold execPeerLinkLost at e
  injection e with e
  subst e
  repeat' (first | assumption | intro _ | with_reducible apply State.peerLinkLost_keeps | with_reducible apply keeps_ite | split | dsimp only)

theorem execPeerLinkReturn_keeps {r : State} (a0 : State) (h : Keeps r a0) (t : State) (e : execPeerLinkReturn a0 = .next t) : Keeps r t := by
  unfold execPeerLinkReturn at e
  injection e with e
  subst e
  repeat' (first | assumption | intro _ | with_reducible apply State.peerLinkReturn_keeps | with_reducible apply keeps_ite | split | dsimp only)

theorem execTakeover_keeps {r : State} (a0 : State) (h : Keeps r a0) (t : State) (e : execTakeover a0 = .next t) : Keeps r t := by
  unfold execTakeover at e
  injection e with e
  subst e
  repeat' (first | assumption | intro _ | with_reducible apply State.takeover_keeps | with_reducible apply keeps_ite | split | dsimp only)

theorem execLiveWatchdogExpiry_keeps {r : State} (a0 : State) (h : Keeps r a0) (t : State) (e : execLiveWatchdogExpiry a0 = .next t) : Keeps r t := by
  unfold execLiveWatchdogExpiry at e
  injection e with e
  subst e
  repeat' (first | assumption | intro _ | with_reducible apply State.dxFence_keeps | with_reducible apply keeps_ite | split | dsimp only)

theorem execSpliceAbort_keeps {r : State} (a0 : State) (h : Keeps r a0) (t : State) (e : execSpliceAbort a0 = .next t) : Keeps r t := by
  unfold execSpliceAbort at e
  injection e with e
  subst e
  repeat' (first | assumption | intro _ | with_reducible apply State.spliceTimeout_keeps | with_reducible apply keeps_ite | split | dsimp only)

theorem execTakebackHoldoffExpiry_keeps {r : State} (a0 : State) (h : Keeps r a0) (t : State) (e : execTakebackHoldoffExpiry a0 = .next t) : Keeps r t := by
  unfold execTakebackHoldoffExpiry at e
  injection e with e
  subst e
  repeat' (first | assumption | intro _ | with_reducible apply State.spliceTry_keeps | with_reducible apply State.modDx_keeps | with_reducible apply keeps_ite | split | dsimp only)

theorem execMirrorRecordReceive_keeps {r : State} (a0 : MirrorRec) (a1 : State) (h : Keeps r a1) (t : State) (e : execMirrorRecordReceive a0 a1 = .next t) : Keeps r t := by
  unfold execMirrorRecordReceive at e
  injection e with e
  subst e
  repeat' (first | assumption | intro _ | with_reducible apply State.mirrorIn_keeps | with_reducible apply keeps_ite | split | dsimp only)

theorem execMirrorLate_keeps {r : State} (a0 : State) (h : Keeps r a0) (t : State) (e : execMirrorLate a0 = .next t) : Keeps r t := by
  unfold execMirrorLate at e
  injection e with e
  subst e
  repeat' (first | assumption | intro _ | with_reducible apply State.mirrorLate_keeps | with_reducible apply keeps_ite | split | dsimp only)

theorem execReducedRecordResend_keeps {r : State} (a0 : State) (h : Keeps r a0) (t : State) (e : execReducedRecordResend a0 = .next t) : Keeps r t := by
  unfold execReducedRecordResend at e
  injection e with e
  subst e
  repeat' (first | assumption | intro _ | with_reducible apply State.recResend_keeps | with_reducible apply keeps_ite | split | dsimp only)

theorem execMirrorEndSend_keeps {r : State} (a0 : State) (h : Keeps r a0) (t : State) (e : execMirrorEndSend a0 = .next t) : Keeps r t := by
  unfold execMirrorEndSend at e
  injection e with e
  subst e
  repeat' (first | assumption | intro _ | with_reducible apply State.mirrorSend_keeps | with_reducible apply keeps_ite | split | dsimp only)

theorem State.resetCore_keeps {r : State} (a0 : State) (a1 : Nat) (h : Keeps r a0) : Keeps r (State.resetCore a0 a1) := by
  unfold State.resetCore
  extract_lets -merge -useContext +onlyGivenNames z0
  have hz0 : Keeps r z0 := by
    unfold z0
    refine keeps_ite _ ?_ ?_
    · refine State.migrate_keeps _ _ ?_
      exact h
    · exact h
  clear_value z0
  extract_lets -merge -useContext +onlyGivenNames z1
  have hz1 : Keeps r z1 := by
    unfold z1
    refine keeps_ite _ ?_ ?_
    · refine State.endDetached_keeps _ _ ?_
      exact hz0
    · exact hz0
  clear_value z1
  extract_lets -merge -useContext +onlyGivenNames z2
  have hz2 : Keeps r z2 := by
    unfold z2
    refine State.clr_keeps _ _ ?_
    refine State.freeSlot_keeps _ _ ?_
    exact hz1
  clear_value z2
  refine State.syncHalt_keeps _ _ ?_
  refine State.setCore_keeps _ _ _ ?_
  exact hz2

theorem State.resetDsp_keeps {r : State} (a0 : State) (h : Keeps r a0) : Keeps r (State.resetDsp a0) := by
  unfold State.resetDsp
  extract_lets -merge -useContext +onlyGivenNames z0
  clear_value z0
  extract_lets -merge -useContext +onlyGivenNames z1
  clear_value z1
  extract_lets -merge -useContext +onlyGivenNames z2
  have hz2 : Keeps r z2 := by
    unfold z2
    refine State.dropRegs_keeps _ _ ?_
    exact h
  clear_value z2
  extract_lets -merge -useContext +onlyGivenNames z3
  have hz3 : Keeps r z3 := by
    unfold z3
    refine ⟨hz2.queue, fun x => ?_, hz2.free, hz2.fuses⟩
    have y := hz2.canon x
    rw [State.canonical_iff] at y ⊢
    exact ⟨y.1, y.2.1, y.2.2.1, y.2.2.2.1, rfl, y.2.2.2.2.2.1, rfl, y.2.2.2.2.2.2.2.1, rfl⟩
  clear_value z3
  extract_lets -merge -useContext +onlyGivenNames z4
  have hz4 : Keeps r z4 := by
    unfold z4
    refine keeps_forEach ?_ _ _ ?_
    · exact hz3
    · intro w5_0 w5_1 hw5
      refine State.setCore_keeps _ _ _ ?_
      exact hw5
  clear_value z4
  refine keeps_forN ?_ _ _ ?_
  · exact hz4
  · intro w6_0 w6_1 hw6
    refine State.syncHalt_keeps _ _ ?_
    refine State.setB_keeps _ _ _ ?_
    exact hw6

theorem State.resetBank_keeps {r : State} (a0 : State) (a1 : Nat) (h : Keeps r a0) : Keeps r (State.resetBank a0 a1) := by
  unfold State.resetBank
  extract_lets -merge -useContext +onlyGivenNames z0
  have hz0 : Keeps r z0 := State.dropRegs_keeps _ _ h
  clear_value z0
  dsimp only
  have hz2 : Keeps r { z0 with pwr := { z0.pwr with chans := z0.pwr.chans.filter (fun c => c.1 / 16 != a1), gangs := z0.pwr.gangs.filter (fun c => c.1 / 4 != a1), syncOut := z0.pwr.syncOut.filter (fun c => c.1 != a1) } } := by
    refine keeps_pwr hz0 _ (fun y => ?_)
    simp only [Power.wf, Bool.and_eq_true] at y ⊢
    exact ⟨SMap.wf_filter _ _ _ y.1, SMap.wf_filter _ _ _ y.2⟩
  exact keeps_ite _ (keeps_forN hz2 _ _ (fun _ _ k => State.raise_keeps _ _ k)) hz2

theorem State.resetIsland_keeps {r : State} (a0 : State) (a1 : Nat) (h : Keeps r a0) : Keeps r (State.resetIsland a0 a1) := by
  unfold State.resetIsland
  extract_lets -merge -useContext +onlyGivenNames z0
  have hz0 : Keeps r z0 := by
    unfold z0
    refine keeps_forEach ?_ _ _ ?_
    · exact h
    · intro w1_0 w1_1 hw1
      refine State.resetCore_keeps _ _ ?_
      exact hw1
  clear_value z0
  extract_lets -merge -useContext +onlyGivenNames z2
  have hz2 : Keeps r z2 := by
    unfold z2
    refine State.dropRegs_keeps _ _ ?_
    exact hz0
  clear_value z2
  extract_lets -merge -useContext +onlyGivenNames z3
  extract_lets -merge -useContext +onlyGivenNames z4
  have hz4 : Keeps r z4 := by
    unfold z4
    refine State.dropRegs_keeps _ _ ?_
    exact hz0
  clear_value z4
  extract_lets -merge -useContext +onlyGivenNames z5
  extract_lets -merge -useContext +onlyGivenNames z6
  have hz6 : Keeps r z6 := by
    unfold z6
    refine keeps_ite _ ?_ ?_
    · refine State.resetDsp_keeps _ ?_
      exact hz0
    · refine keeps_ite _ ?_ ?_
      · refine keeps_net ?_ _ (fun y => by
          simp only [Net.wf, Bool.and_eq_true] at y ⊢; exact ⟨y.1, SMap.wf_filter _ _ _ y.2⟩)
        exact hz2
      · refine keeps_ite _ ?_ ?_
        · refine State.resetBank_keeps _ _ ?_
          exact hz0
        · refine keeps_ite _ ?_ ?_
          · refine hz4.of_same (fun y => ?_) rfl rfl rfl
            rw [State.canonical_iff] at y ⊢
            exact y
          · exact hz0
  clear_value z6
  extract_lets -merge -useContext +onlyGivenNames z7
  have hz7 : Keeps r z7 := by
    unfold z7
    refine State.setRep_keeps _ _ _ ?_
    exact hz6
  clear_value z7
  refine keeps_tim ?_ _ (fun y => y)
  exact hz7

theorem State.belOff_keeps {r : State} (a0 : State) (h : Keeps r a0) : Keeps r (State.belOff a0) := by
  unfold State.belOff
  extract_lets -merge -useContext +onlyGivenNames z0
  clear_value z0
  extract_lets -merge -useContext +onlyGivenNames z1
  clear_value z1
  extract_lets -merge -useContext +onlyGivenNames z2
  clear_value z2
  extract_lets -merge -useContext +onlyGivenNames z3
  have hz3 : Keeps r z3 := by
    unfold z3
    refine State.dropRegs_keeps _ _ ?_
    exact h
  clear_value z3
  extract_lets -merge -useContext +onlyGivenNames z4
  have hz4 : Keeps r z4 := by
    unfold z4
    refine keeps_bel ?_ _
    exact hz3
  clear_value z4
  extract_lets -merge -useContext +onlyGivenNames z5
  have hz5 : Keeps r z5 := by
    unfold z5
    refine State.set_keeps _ _ _ ?_
    refine State.set_keeps _ _ _ ?_
    refine State.set_keeps _ _ _ ?_
    exact hz4
  clear_value z5
  refine keeps_forN ?_ _ _ ?_
  · refine State.belOutputs_keeps _ ?_
    refine State.set_keeps _ _ _ ?_
    exact hz5
  · intro w6_0 w6_1 hw6
    refine State.bankSafeOff_keeps _ _ _ ?_
    exact hw6

theorem State.domainOff_keeps {r : State} (a0 : State) (a1 : Nat) (h : Keeps r a0) : Keeps r (State.domainOff a0 a1) := by
  unfold State.domainOff
  extract_lets -merge -useContext +onlyGivenNames z0
  have hz0 : Keeps r z0 := by
    unfold z0
    refine State.set_keeps _ _ _ ?_
    exact h
  clear_value z0
  extract_lets -merge -useContext +onlyGivenNames z1
  clear_value z1
  extract_lets -merge -useContext +onlyGivenNames z2
  have hz2 : Keeps r z2 := by
    unfold z2
    refine keeps_pmu ?_ _
    exact hz0
  clear_value z2
  extract_lets -merge -useContext +onlyGivenNames z3
  clear_value z3
  extract_lets -merge -useContext +onlyGivenNames z4
  have hz4 : Keeps r z4 := by
    unfold z4
    refine keeps_forEach ?_ _ _ ?_
    · exact hz2
    · intro w5_0 w5_1 hw5
      refine keeps_ite _ ?_ ?_
      · refine State.coreOffline_keeps _ _ ?_
        exact hw5
      · exact hw5
  clear_value z4
  extract_lets -merge -useContext +onlyGivenNames z6
  have hz6 : Keeps r z6 := by
    unfold z6
    refine keeps_ite _ ?_ ?_
    · refine State.belOff_keeps _ ?_
      exact hz4
    · refine keeps_ite _ ?_ ?_
      · exact hz4
      · refine keeps_forEach ?_ _ _ ?_
        · exact hz4
        · intro w7_0 w7_1 hw7
          refine State.resetIsland_keeps _ _ ?_
          exact hw7
  clear_value z6
  extract_lets -merge -useContext +onlyGivenNames z8
  have hz8 : Keeps r z8 := by
    unfold z8
    refine State.dropMem_keeps _ _ ?_
    exact hz6
  clear_value z8
  split
  · extract_lets -merge -useContext +onlyGivenNames z9
    have hz9 : Keeps r z9 := by
      unfold z9
      refine State.dropRegs_keeps _ _ ?_
      exact hz8
    clear_value z9
    refine keeps_log ?_ _
    exact hz9
  · refine State.clr_keeps _ _ ?_
    refine State.clr_keeps _ _ ?_
    exact hz8
  · extract_lets -merge -useContext +onlyGivenNames z10
    have hz10 : Keeps r z10 := by
      unfold z10
      refine State.dropRegs_keeps _ _ ?_
      exact hz8
    clear_value z10
    refine keeps_host ?_ _
    exact hz10
  · refine State.clr_keeps _ _ ?_
    refine State.clr_keeps _ _ ?_
    exact hz8
  · extract_lets -merge -useContext +onlyGivenNames z11
    have hz11 : Keeps r z11 := by
      unfold z11
      refine State.dropRegs_keeps _ _ ?_
      exact hz8
    exact keeps_pwr hz11 _ (fun y => y)
  · extract_lets -merge -useContext +onlyGivenNames z12
    have hz12 : Keeps r z12 := by
      unfold z12
      refine State.dropRegs_keeps _ _ ?_
      exact hz8
    clear_value z12
    refine keeps_host ?_ _
    exact hz12
  · exact hz8

theorem State.domainOn_keeps {r : State} (a0 : State) (a1 : Nat) (h : Keeps r a0) : Keeps r (State.domainOn a0 a1) := by
  unfold State.domainOn
  extract_lets -merge -useContext +onlyGivenNames z0
  have hz0 : Keeps r z0 := by
    unfold z0
    refine State.set_keeps _ _ _ ?_
    exact h
  clear_value z0
  extract_lets -merge -useContext +onlyGivenNames z1
  clear_value z1
  extract_lets -merge -useContext +onlyGivenNames z2
  have hz2 : Keeps r z2 := by
    unfold z2
    refine keeps_pmu ?_ _
    exact hz0
  clear_value z2
  extract_lets -merge -useContext +onlyGivenNames z3
  have hz3 : Keeps r z3 := by
    unfold z3
    refine keeps_forEach ?_ _ _ ?_
    · exact hz2
    · intro w4_0 w4_1 hw4
      refine State.coreOnline_keeps _ _ ?_
      exact hw4
  clear_value z3
  refine keeps_ite _ ?_ ?_
  · refine State.belPowerUp_keeps _ ?_
    exact hz3
  · exact hz3

theorem State.deviceReset_keeps {r : State} (a0 : State) (a1 : Bool) (h : Keeps r a0) : Keeps r (State.deviceReset a0 a1) := by
  unfold State.deviceReset
  refine State.set_keeps _ _ _ (State.set_keeps _ _ _ (State.set_keeps _ _ _ ?_))
  refine ⟨h.queue, fun x => ?_, h.free, ?_⟩
  · have y := h.canon x
    rw [State.canonical_iff] at y ⊢
    refine ⟨SMap.wf_filter memDflt a0.mem _ y.1, SMap.wf_filter regDflt a0.regs _ y.2.1, rfl, rfl, rfl, ?_, rfl, rfl, rfl⟩
    have z := y.2.2.2.2.2.1
    simp only [Net.wf, Bool.and_eq_true] at z ⊢
    exact ⟨z.1, rfl⟩
  · exact h.fuses.trans ⟨rfl, rfl, Nat.and_self _, Nat.and_self _⟩

theorem State.powerOff_keeps {r : State} (a0 : State) (h : Keeps r a0) : Keeps r (State.powerOff a0) := by
  unfold State.powerOff
  refine State.set_keeps _ _ _ ?_
  refine State.deviceReset_keeps _ _ ?_
  exact h

theorem State.hostReport_keeps {r : State} (a0 : State) (a1 : Nat) (a2 : Nat) (a3 : Nat) (a4 : List Nat) (h : Keeps r a0) : Keeps r (State.hostReport a0 a1 a2 a3 a4) := by
  unfold State.hostReport
  refine State.report_keeps _ _ _ _ _ ?_
  exact h

theorem State.romStart_keeps {r : State} (a0 : State) (h : Keeps r a0) : Keeps r (State.romStart a0) := by
  unfold State.romStart
  extract_lets -merge -useContext +onlyGivenNames z0
  have hz0 : Keeps r z0 := by
    unfold z0
    refine State.set_keeps _ _ _ ?_
    refine State.set_keeps _ _ _ ?_
    exact h
  clear_value z0
  extract_lets -merge -useContext +onlyGivenNames z1
  have hz1 : Keeps r z1 := by
    unfold z1
    refine State.set_keeps _ _ _ ?_
    refine State.set_keeps _ _ _ ?_
    refine State.set_keeps _ _ _ ?_
    exact hz0
  clear_value z1
  extract_lets -merge -useContext +onlyGivenNames z2
  have hz2 : Keeps r z2 := by
    unfold z2
    refine State.set_keeps _ _ _ ?_
    refine State.setSt_keeps _ _ _ ?_
    exact hz1
  clear_value z2
  extract_lets -merge -useContext +onlyGivenNames z3
  have hz3 : Keeps r z3 := by
    unfold z3
    refine State.set_keeps _ _ _ ?_
    refine State.raise_keeps _ _ ?_
    exact hz2
  clear_value z3
  extract_lets -merge -useContext +onlyGivenNames z4
  clear_value z4
  extract_lets -merge -useContext +onlyGivenNames z5
  clear_value z5
  extract_lets -merge -useContext +onlyGivenNames z6
  have hz6 : Keeps r z6 := by
    unfold z6
    refine State.modCore_keeps _ _ _ ?_
    exact hz3
  clear_value z6
  refine keeps_boot ?_ _ ⟨rfl, rfl, Nat.and_self _, Nat.and_self _⟩
  exact hz6

theorem State.bootInto_keeps {r : State} (a0 : State) (a1 : ImgSrc) (a2 : Nat) (h : Keeps r a0) : Keeps r (State.bootInto a0 a1 a2) := by
  unfold State.bootInto
  extract_lets -merge -useContext +onlyGivenNames z0
  clear_value z0
  extract_lets -merge -useContext +onlyGivenNames z1
  have hz1 : Keeps r z1 := by
    unfold z1
    refine State.store_keeps _ _ _ ?_
    exact h
  clear_value z1
  extract_lets -merge -useContext +onlyGivenNames z2
  have hz2 : Keeps r z2 := by
    unfold z2
    refine State.hostReport_keeps _ _ _ _ _ ?_
    exact hz1
  clear_value z2
  extract_lets -merge -useContext +onlyGivenNames z3
  clear_value z3
  extract_lets -merge -useContext +onlyGivenNames z4
  clear_value z4
  extract_lets -merge -useContext +onlyGivenNames z5
  have hz5 : Keeps r z5 := by
    unfold z5
    refine State.modCore_keeps _ _ _ ?_
    exact hz2
  clear_value z5
  refine keeps_boot ?_ _ ⟨rfl, rfl, Nat.and_self _, Nat.and_self _⟩
  exact hz5

theorem State.bootNone_keeps {r : State} (a0 : State) (h : Keeps r a0) : Keeps r (State.bootNone a0) := by
  unfold State.bootNone
  refine State.hostReport_keeps _ _ _ _ _ ?_
  refine keeps_boot ?_ _ ⟨rfl, rfl, Nat.and_self _, Nat.and_self _⟩
  exact h

theorem State.bootSlots_keeps {r : State} (a0 : State) (a1 : List (Nat × ImgSrc × Nat)) (h : Keeps r a0) : Keeps r (State.bootSlots a0 a1) := by
  induction a1 generalizing a0 with
  | nil => exact State.bootNone_keeps _ h
  | cons x xs ih =>
    obtain ⟨slot, rd, size⟩ := x
    unfold State.bootSlots
    dsimp only
    exact keeps_ite _ (State.bootInto_keeps _ _ _ h) (ih _ (State.hostReport_keeps _ _ _ _ _ h))

theorem State.bootHost_keeps {r : State} (a0 : State) (h : Keeps r a0) : Keeps r (State.bootHost a0) := by
  unfold State.bootHost
  extract_lets -merge -useContext +onlyGivenNames z0
  have hz0 : Keeps r z0 := by
    unfold z0
    refine State.domainOn_keeps _ _ ?_
    exact h
  clear_value z0
  extract_lets -merge -useContext +onlyGivenNames z1
  have hz1 : Keeps r z1 := by
    unfold z1
    refine State.set_keeps _ _ _ ?_
    exact hz0
  clear_value z1
  extract_lets -merge -useContext +onlyGivenNames z2
  have hz2 : Keeps r z2 := by
    unfold z2
    refine State.raise_keeps _ _ ?_
    refine State.set_keeps _ _ _ ?_
    refine State.raise_keeps _ _ ?_
    exact hz1
  clear_value z2
  refine keeps_boot ?_ _ ⟨rfl, rfl, Nat.and_self _, Nat.and_self _⟩
  exact hz2

theorem State.romRun_keeps {r : State} (a0 : State) (h : Keeps r a0) : Keeps r (State.romRun a0) := by
  unfold State.romRun
  split
  · extract_lets -merge -useContext +onlyGivenNames z0
    clear_value z0
    refine State.bootSlots_keeps _ _ ?_
    exact h
  · extract_lets -merge -useContext +onlyGivenNames z1
    clear_value z1
    refine State.bootSlots_keeps _ _ ?_
    exact h
  · refine State.bootHost_keeps _ ?_
    exact h
  · refine State.bootNone_keeps _ ?_
    exact h

theorem State.bootDoorbell_keeps {r : State} (a0 : State) (a1 : Nat) (h : Keeps r a0) : Keeps r (State.bootDoorbell a0 a1) := by
  unfold State.bootDoorbell
  extract_lets -merge -useContext +onlyGivenNames z0
  have hz0 : Keeps r z0 := by
    unfold z0
    refine keeps_forN ?_ _ _ ?_
    · exact h
    · intro w1_0 w1_1 hw1
      refine State.clr_keeps _ _ ?_
      exact hw1
  clear_value z0
  refine keeps_ite _ ?_ ?_
  · refine State.bootNone_keeps _ ?_
    refine State.hostReport_keeps _ _ _ _ _ ?_
    exact hz0
  · refine State.bootSlots_keeps _ _ ?_
    exact hz0

theorem State.coldStart_keeps {r : State} (a0 : State) (a1 : Nat) (a2 : Bool) (h : Keeps r a0) : Keeps r (State.coldStart a0 a1 a2) := by
  unfold State.coldStart
  extract_lets -merge -useContext +onlyGivenNames z0
  have hz0 : Keeps r z0 := by
    unfold z0
    refine State.deviceReset_keeps _ _ ?_
    exact h
  clear_value z0
  extract_lets -merge -useContext +onlyGivenNames z1
  have hz1 : Keeps r z1 := by
    unfold z1
    refine State.setReg_keeps _ _ _ ?_
    exact hz0
  clear_value z1
  extract_lets -merge -useContext +onlyGivenNames z2
  have hz2 : Keeps r z2 := by
    unfold z2
    refine State.set_keeps _ _ _ ?_
    refine State.set_keeps _ _ _ ?_
    exact hz1
  clear_value z2
  extract_lets -merge -useContext +onlyGivenNames z3
  have hz3 : Keeps r z3 := by
    unfold z3
    refine State.setReg_keeps _ _ _ ?_
    exact hz2
  clear_value z3
  extract_lets -merge -useContext +onlyGivenNames z4
  have hz4 : Keeps r z4 := by
    unfold z4
    refine State.set_keeps _ _ _ ?_
    refine State.set_keeps _ _ _ ?_
    refine State.setB_keeps _ _ _ ?_
    exact hz3
  clear_value z4
  refine State.romRun_keeps _ ?_
  refine State.romStart_keeps _ ?_
  refine State.belPowerUp_keeps _ ?_
  exact hz4

theorem State.fuseProgram_keeps {r : State} (a0 : State) (h : Keeps r a0) : Keeps r (State.fuseProgram a0) := by
  unfold State.fuseProgram
  dsimp only
  refine keeps_ite _ h (keeps_ite _ ?_ ?_)
  · exact State.hostReport_keeps _ _ _ _ _ (State.set_keeps _ _ _ h)
  · exact keeps_boot (State.set_keeps _ _ _ h) _ ⟨rfl, rfl, Nat.and_self _, Nat.and_self _⟩

theorem State.fuseDone_keeps {r : State} (a0 : State) (h : Keeps r a0) : Keeps r (State.fuseDone a0) := by
  unfold State.fuseDone
  split
  · exact h
  · refine State.hostReport_keeps _ _ _ _ _ ?_
    dsimp only
    refine keeps_boot (State.set_keeps _ _ _ h) _ ?_
    split
    · refine ⟨rfl, rfl, Nat.and_self _, ?_⟩
      exact Nat.eq_of_testBit_eq (fun i => by
        rw [show (a0.set R.DOM_FUSEPROG_RESULT 2).boot = a0.boot from rfl]
        simp +contextual [Nat.testBit_and, Nat.testBit_or])
    · refine ⟨rfl, rfl, ?_, Nat.and_self _⟩
      exact Nat.eq_of_testBit_eq (fun i => by
        rw [show (a0.set R.DOM_FUSEPROG_RESULT 2).boot = a0.boot from rfl]
        simp +contextual [Nat.testBit_and, Nat.testBit_or])

theorem State.mramWrite_keeps {r : State} (a0 : State) (h : Keeps r a0) : Keeps r (State.mramWrite a0) := by
  unfold State.mramWrite
  dsimp only
  refine keeps_ite _ h (keeps_ite _ ?_ ?_)
  · exact State.hostReport_keeps _ _ _ _ _ (State.set_keeps _ _ _ h)
  · exact keeps_boot (State.set_keeps _ _ _ h) _ ⟨rfl, rfl, Nat.and_self _, Nat.and_self _⟩

theorem State.mramDone_keeps {r : State} (a0 : State) (a1 : Bool) (h : Keeps r a0) : Keeps r (State.mramDone a0 a1) := by
  unfold State.mramDone
  split
  · exact h
  · have h1 : Keeps r { a0 with boot := { a0.boot with mwr := none } } :=
      keeps_boot h _ ⟨rfl, rfl, Nat.and_self _, Nat.and_self _⟩
    dsimp only
    refine keeps_ite _ ?_ ?_
    · exact State.hostReport_keeps _ _ _ _ _ (State.set_keeps _ _ _ (State.store_keeps _ _ _ h1))
    · exact State.hostReport_keeps _ _ _ _ _ (State.set_keeps _ _ _ (State.burn_keeps _ (State.store_keeps _ _ _ h1)))

theorem execPowerUp_keeps {r : State} (a0 : State) (h : Keeps r a0) (t : State) (e : execPowerUp a0 = .next t) : Keeps r t := by
  unfold execPowerUp at e
  injection e with e
  subst e
  exact State.coldStart_keeps _ _ _ (keeps_pmu (State.dropRegs_keeps _ _ h) _)

theorem execFuseProgramDone_keeps {r : State} (a0 : State) (h : Keeps r a0) (t : State) (e : execFuseProgramDone a0 = .next t) : Keeps r t := by
  unfold execFuseProgramDone at e
  injection e with e
  subst e
  repeat' (first | assumption | intro _ | with_reducible apply State.fuseDone_keeps | with_reducible apply keeps_ite | split | dsimp only)

theorem execMramWriteDone_keeps {r : State} (a0 : Bool) (a1 : State) (h : Keeps r a1) (t : State) (e : execMramWriteDone a0 a1 = .next t) : Keeps r t := by
  unfold execMramWriteDone at e
  injection e with e
  subst e
  repeat' (first | assumption | intro _ | with_reducible apply State.mramDone_keeps | with_reducible apply keeps_ite | split | dsimp only)

theorem execDramTrainingDone_keeps {r : State} (a0 : Bool) (a1 : State) (h : Keeps r a1) (t : State) (e : execDramTrainingDone a0 a1 = .next t) : Keeps r t := by
  unfold execDramTrainingDone at e
  injection e with e
  subst e
  repeat' (first | assumption | intro _ | with_reducible apply State.setB_keeps | with_reducible apply keeps_ite | split | dsimp only)

theorem State.modPmu_keeps {r : State} (a0 : State) (a1 : Pmu → Pmu) (h : Keeps r a0) : Keeps r (State.modPmu a0 a1) := by
  unfold State.modPmu
  refine keeps_pmu ?_ _
  exact h

theorem State.pmuReport_keeps {r : State} (a0 : State) (a1 : Nat) (a2 : Nat) (a3 : Nat) (a4 : List Nat) (h : Keeps r a0) : Keeps r (State.pmuReport a0 a1 a2 a3 a4) := by
  unfold State.pmuReport
  refine State.report_keeps _ _ _ _ _ ?_
  exact h

theorem State.pdRefuse_keeps {r : State} (a0 : State) (a1 : Nat) (a2 : Nat) (h : Keeps r a0) : Keeps r (State.pdRefuse a0 a1 a2) := by
  unfold State.pdRefuse
  extract_lets -merge -useContext +onlyGivenNames z0
  have hz0 : Keeps r z0 := by
    unfold z0
    refine State.raise_keeps _ _ ?_
    refine State.set_keeps _ _ _ ?_
    refine State.set_keeps _ _ _ ?_
    exact h
  clear_value z0
  refine State.pmuReport_keeps _ _ _ _ _ ?_
  refine State.modPmu_keeps _ _ ?_
  exact hz0

theorem State.bankDisable_keeps {r : State} (a0 : State) (a1 : Nat) (h : Keeps r a0) : Keeps r (State.bankDisable a0 a1) := by
  unfold State.bankDisable
  refine keeps_forN ?_ _ _ ?_
  · exact h
  · intro w0_0 w0_1 hw0
    extract_lets -merge -useContext +onlyGivenNames z1
    clear_value z1
    refine keeps_ite _ ?_ ?_
    · exact hw0
    · refine State.chanEnable_keeps _ _ _ ?_
      exact hw0

theorem State.pdBegin_keeps {r : State} (a0 : State) (a1 : Nat) (a2 : Bool) (h : Keeps r a0) : Keeps r (State.pdBegin a0 a1 a2) := by
  unfold State.pdBegin
  extract_lets -merge -useContext +onlyGivenNames z0
  have hz0 : Keeps r z0 := by
    unfold z0
    refine State.modPmu_keeps _ _ ?_
    exact h
  clear_value z0
  refine keeps_ite _ ?_ ?_
  · exact hz0
  · extract_lets -merge -useContext +onlyGivenNames z1
    have hz1 : Keeps r z1 := by
      unfold z1
      refine State.bankDisable_keeps _ _ ?_
      exact hz0
    clear_value z1
    extract_lets -merge -useContext +onlyGivenNames z2
    have hz2 : Keeps r z2 := by
      unfold z2
      refine keeps_ite _ ?_ ?_
      · refine State.pmuReport_keeps _ _ _ _ _ ?_
        refine keeps_forN ?_ _ _ ?_
        · exact hz1
        · intro w3_0 w3_1 hw3
          refine State.clr_keeps _ _ ?_
          exact hw3
      · exact hz0
    clear_value z2
    extract_lets -merge -useContext +onlyGivenNames z4
    have hz4 : Keeps r z4 := by
      unfold z4
      refine keeps_forEach ?_ _ _ ?_
      · exact hz2
      · intro w5_0 w5_1 hw5
        refine State.coreOffreq_keeps _ _ ?_
        exact hw5
    clear_value z4
    refine keeps_ite _ ?_ ?_
    · refine State.modPmu_keeps _ _ ?_
      exact hz4
    · exact hz4

theorem State.pdAdvance_keeps {r : State} (a0 : State) (a1 : Nat) (h : Keeps r a0) : Keeps r (State.pdAdvance a0 a1) := by
  induction a1 generalizing a0 with
  | zero => exact h
  | succ n ih =>
    unfold State.pdAdvance
    split
    · exact h
    · dsimp only
      exact keeps_ite _ (State.pdBegin_keeps _ _ _ h) (ih _ (State.pdRefuse_keeps _ _ _ h))

theorem State.domainRequest_keeps {r : State} (a0 : State) (a1 : Nat) (a2 : Bool) (h : Keeps r a0) : Keeps r (State.domainRequest a0 a1 a2) := by
  unfold State.domainRequest
  extract_lets -merge -useContext +onlyGivenNames z0
  have hz0 : Keeps r z0 := by
    unfold z0
    refine State.modPmu_keeps _ _ ?_
    refine State.set_keeps _ _ _ ?_
    exact h
  clear_value z0
  refine keeps_ite _ ?_ ?_
  · exact hz0
  · refine State.pdAdvance_keeps _ _ ?_
    exact hz0

theorem State.domainDone_keeps {r : State} (a0 : State) (h : Keeps r a0) : Keeps r (State.domainDone a0) := by
  unfold State.domainDone
  split
  · exact h
  · refine keeps_ite _ ?_ ?_
    · exact h
    · extract_lets -merge -useContext +onlyGivenNames z0
      have hz0 : Keeps r z0 := by
        unfold z0
        refine keeps_ite _ ?_ ?_
        · refine State.domainOn_keeps _ _ ?_
          exact h
        · refine State.domainOff_keeps _ _ ?_
          exact h
      clear_value z0
      extract_lets -merge -useContext +onlyGivenNames z1
      have hz1 : Keeps r z1 := by
        unfold z1
        refine State.pmuReport_keeps _ _ _ _ _ ?_
        refine State.modPmu_keeps _ _ ?_
        exact hz0
      clear_value z1
      refine State.pdAdvance_keeps _ _ ?_
      exact hz1

theorem State.domainTimeout_keeps {r : State} (a0 : State) (h : Keeps r a0) : Keeps r (State.domainTimeout a0) := by
  unfold State.domainTimeout
  split
  · refine keeps_ite _ ?_ ?_
    · exact h
    · refine State.pdAdvance_keeps _ _ ?_
      refine State.pdRefuse_keeps _ _ _ ?_
      exact h
  · exact h

theorem State.islandReset_keeps {r : State} (a0 : State) (a1 : Nat) (h : Keeps r a0) : Keeps r (State.islandReset a0 a1) := by
  unfold State.islandReset
  extract_lets -merge -useContext +onlyGivenNames z0
  have hz0 : Keeps r z0 := by
    unfold z0
    refine State.set_keeps _ _ _ ?_
    exact h
  clear_value z0
  refine keeps_ite _ ?_ ?_
  · exact hz0
  · extract_lets -merge -useContext +onlyGivenNames z1
    clear_value z1
    refine keeps_ite _ ?_ ?_
    · refine State.modPmu_keeps _ _ ?_
      refine State.raise_keeps _ _ ?_
      exact hz0
    · refine State.pmuReport_keeps _ _ _ _ _ ?_
      refine State.raise_keeps _ _ ?_
      refine State.clr_keeps _ _ ?_
      exact hz0

theorem State.islandResetDone_keeps {r : State} (a0 : State) (h : Keeps r a0) : Keeps r (State.islandResetDone a0) := by
  unfold State.islandResetDone
  split
  · exact h
  · refine State.pmuReport_keeps _ _ _ _ _ ?_
    refine State.modPmu_keeps _ _ ?_
    refine State.clr_keeps _ _ ?_
    refine State.resetIsland_keeps _ _ ?_
    exact h

theorem State.oppChange_keeps {r : State} (a0 : State) (a1 : Nat) (a2 : Nat) (h : Keeps r a0) : Keeps r (State.oppChange a0 a1 a2) := by
  unfold State.oppChange
  extract_lets -merge -useContext +onlyGivenNames z0
  clear_value z0
  extract_lets -merge -useContext +onlyGivenNames z1
  have hz1 : Keeps r z1 := by
    unfold z1
    refine State.set_keeps _ _ _ ?_
    exact h
  clear_value z1
  refine keeps_ite _ ?_ ?_
  · exact hz1
  · extract_lets -merge -useContext +onlyGivenNames z2
    have hz2 : Keeps r z2 := by
      unfold z2
      refine State.raise_keeps _ _ ?_
      exact hz1
    clear_value z2
    refine State.modPmu_keeps _ _ ?_
    exact hz2

theorem State.oppDone_keeps {r : State} (a0 : State) (h : Keeps r a0) : Keeps r (State.oppDone a0) := by
  unfold State.oppDone
  split
  · exact h
  · extract_lets -merge -useContext +onlyGivenNames z0
    clear_value z0
    extract_lets -merge -useContext +onlyGivenNames z1
    clear_value z1
    extract_lets -merge -useContext +onlyGivenNames z2
    have hz2 : Keeps r z2 := by
      unfold z2
      refine State.modPmu_keeps _ _ ?_
      refine State.clr_keeps _ _ ?_
      exact h
    clear_value z2
    refine State.pmuReport_keeps _ _ _ _ _ ?_
    exact hz2

theorem State.saveErr_keeps {r : State} (a0 : State) (h : Keeps r a0) : Keeps r (State.saveErr a0) := by
  unfold State.saveErr
  refine State.pmuReport_keeps _ _ _ _ _ ?_
  refine State.raise_keeps _ _ ?_
  exact h

theorem State.saveBegin_keeps {r : State} (a0 : State) (h : Keeps r a0) : Keeps r (State.saveBegin a0) := by
  unfold State.saveBegin
  refine keeps_ite _ ?_ ?_
  · exact h
  · refine keeps_ite _ ?_ ?_
    · refine State.saveErr_keeps _ ?_
      exact h
    · refine State.modPmu_keeps _ _ ?_
      exact h

theorem State.saveAbandon_keeps {r : State} (a0 : State) (h : Keeps r a0) : Keeps r (State.saveAbandon a0) := by
  unfold State.saveAbandon
  split
  · exact h
  · extract_lets -merge -useContext +onlyGivenNames z0
    clear_value z0
    refine State.modPmu_keeps _ _ ?_
    refine State.burn_keeps _ ?_
    refine State.store_keeps _ _ _ ?_
    exact h

theorem State.saveDone_keeps {r : State} (a0 : State) (a1 : Bool) (h : Keeps r a0) : Keeps r (State.saveDone a0 a1) := by
  unfold State.saveDone
  split
  · exact h
  · refine keeps_ite _ ?_ ?_
    · refine State.modPmu_keeps _ _ ?_
      refine State.set_keeps _ _ _ ?_
      refine State.store_keeps _ _ _ ?_
      exact h
    · refine State.saveErr_keeps _ ?_
      refine State.saveAbandon_keeps _ ?_
      exact h

theorem State.saveWhenEmpty_keeps {r : State} (a0 : State) (h : Keeps r a0) : Keeps r (State.saveWhenEmpty a0) := by
  unfold State.saveWhenEmpty
  refine keeps_ite _ ?_ ?_
  · refine State.saveBegin_keeps _ ?_
    refine State.modPmu_keeps _ _ ?_
    exact h
  · exact h

theorem State.restoreAxes_keeps {r : State} (a0 : State) (a1 : Nat) (a2 : Nat) (h : Keeps r a0) : Keeps r (State.restoreAxes a0 a1 a2) := by
  induction a2 generalizing a0 with
  | zero => exact h
  | succ n ih =>
    unfold State.restoreAxes
    dsimp only
    exact keeps_ite _ (State.set_keeps _ _ _ (State.set_keeps _ _ _ (State.set_keeps _ _ _ (ih _ h)))) (ih _ h)

theorem State.restoreRegions_keeps {r : State} (a0 : State) (a1 : Nat) (a2 : Nat) (h : Keeps r a0) : Keeps r (State.restoreRegions a0 a1 a2) := by
  induction a2 generalizing a0 a1 with
  | zero => exact h
  | succ n ih =>
    unfold State.restoreRegions
    dsimp only
    exact ih _ _ (keeps_ite _ (State.store_keeps _ _ _ h) h)

theorem State.restoreEpoch_keeps {r : State} (a0 : State) (a1 : Nat) (a2 : Nat) (h : Keeps r a0) : Keeps r (State.restoreEpoch a0 a1 a2) := by
  unfold State.restoreEpoch
  extract_lets -merge -useContext +onlyGivenNames z0
  have hz0 : Keeps r z0 := by
    unfold z0
    refine State.set_keeps _ _ _ ?_
    refine State.set_keeps _ _ _ ?_
    exact h
  clear_value z0
  extract_lets -merge -useContext +onlyGivenNames z1
  have hz1 : Keeps r z1 := by
    unfold z1
    refine State.set_keeps _ _ _ ?_
    refine State.set_keeps _ _ _ ?_
    exact hz0
  clear_value z1
  refine State.epochWrite_keeps _ _ _ ?_
  exact hz1

theorem State.restoreSaved_keeps {r : State} (a0 : State) (h : Keeps r a0) : Keeps r (State.restoreSaved a0) := by
  unfold State.restoreSaved
  split
  · refine State.raise_keeps _ _ ?_
    exact h
  · extract_lets -merge -useContext +onlyGivenNames z0
    clear_value z0
    extract_lets -merge -useContext +onlyGivenNames z1
    clear_value z1
    extract_lets -merge -useContext +onlyGivenNames z2
    clear_value z2
    refine keeps_ite _ ?_ ?_
    · refine State.raise_keeps _ _ ?_
      exact h
    · extract_lets -merge -useContext +onlyGivenNames z3
      have hz3 : Keeps r z3 := by
        unfold z3
        refine State.restoreAxes_keeps _ _ _ ?_
        exact h
      clear_value z3
      extract_lets -merge -useContext +onlyGivenNames z4
      have hz4 : Keeps r z4 := by
        unfold z4
        refine State.restoreRegions_keeps _ _ _ ?_
        exact hz3
      clear_value z4
      refine State.restoreEpoch_keeps _ _ _ ?_
      refine State.restoreEpoch_keeps _ _ _ ?_
      exact hz4

theorem State.mlsStep_keeps {r : State} (a0 : State) (a1 : Nat) (a2 : Nat) (h : Keeps r a0) : Keeps r (State.mlsStep a0 a1 a2) := by
  unfold State.mlsStep
  extract_lets -merge -useContext +onlyGivenNames z0
  have hz0 : Keeps r z0 := by
    unfold z0
    refine State.set_keeps _ _ _ ?_
    refine State.set_keeps _ _ _ ?_
    exact h
  clear_value z0
  extract_lets -merge -useContext +onlyGivenNames z1
  have hz1 : Keeps r z1 := by
    unfold z1
    refine State.setReg_keeps _ _ _ ?_
    exact hz0
  clear_value z1
  refine State.pmuReport_keeps _ _ _ _ _ ?_
  exact hz1

theorem State.mlsStart_keeps {r : State} (a0 : State) (a1 : Nat) (h : Keeps r a0) : Keeps r (State.mlsStart a0 a1) := by
  unfold State.mlsStart
  refine keeps_ite _ ?_ ?_
  · exact h
  · extract_lets -merge -useContext +onlyGivenNames z0
    have hz0 : Keeps r z0 := by
      unfold z0
      refine State.ext_keeps _ _ ?_
      exact h
    clear_value z0
    extract_lets -merge -useContext +onlyGivenNames z1
    have hz1 : Keeps r z1 := by
      unfold z1
      refine keeps_ite _ ?_ ?_
      · refine State.fillTag_keeps _ _ _ ?_
        exact hz0
      · exact hz0
    clear_value z1
    extract_lets -merge -useContext +onlyGivenNames z2
    have hz2 : Keeps r z2 := by
      unfold z2
      refine State.mlsStep_keeps _ _ _ ?_
      exact hz1
    clear_value z2
    refine keeps_ite _ ?_ ?_
    · refine keeps_forN ?_ _ _ ?_
      · exact hz2
      · intro w3_0 w3_1 hw3
        refine keeps_ite _ ?_ ?_
        · refine State.superAct_keeps _ _ _ ?_
          exact hw3
        · exact hw3
    · exact hz2

theorem State.mainsFail_keeps {r : State} (a0 : State) (a1 : Nat) (h : Keeps r a0) : Keeps r (State.mainsFail a0 a1) := by
  unfold State.mainsFail
  refine keeps_ite _ ?_ ?_
  · refine State.mlsStart_keeps _ _ ?_
    exact h
  · refine State.pmuReport_keeps _ _ _ _ _ ?_
    exact h

theorem State.mlsSto_keeps {r : State} (a0 : State) (h : Keeps r a0) : Keeps r (State.mlsSto a0) := by
  unfold State.mlsSto
  refine keeps_ite _ ?_ ?_
  · exact h
  · extract_lets -merge -useContext +onlyGivenNames z0
    have hz0 : Keeps r z0 := by
      unfold z0
      refine State.mlsStep_keeps _ _ _ ?_
      exact h
    clear_value z0
    extract_lets -merge -useContext +onlyGivenNames z1
    have hz1 : Keeps r z1 := by
      unfold z1
      refine keeps_forN ?_ _ _ ?_
      · exact hz0
      · intro w2_0 w2_1 hw2
        refine keeps_ite _ ?_ ?_
        · refine State.superAct_keeps _ _ _ ?_
          exact hw2
        · exact hw2
    clear_value z1
    refine keeps_forN ?_ _ _ ?_
    · exact hz1
    · intro w3_0 w3_1 hw3
      refine keeps_ite _ ?_ ?_
      · refine State.bankDisable_keeps _ _ ?_
        exact hw3
      · exact hw3

theorem State.mlsSave_keeps {r : State} (a0 : State) (h : Keeps r a0) : Keeps r (State.mlsSave a0) := by
  unfold State.mlsSave
  refine keeps_ite _ ?_ ?_
  · exact h
  · extract_lets -merge -useContext +onlyGivenNames z0
    have hz0 : Keeps r z0 := by
      unfold z0
      refine State.mlsStep_keeps _ _ _ ?_
      exact h
    clear_value z0
    refine keeps_ite _ ?_ ?_
    · refine State.saveWhenEmpty_keeps _ ?_
      refine State.modPmu_keeps _ _ ?_
      exact hz0
    · exact hz0

theorem State.mlsOff_keeps {r : State} (a0 : State) (a1 : Nat) (h : Keeps r a0) : Keeps r (State.mlsOff a0 a1) := by
  unfold State.mlsOff
  extract_lets -merge -useContext +onlyGivenNames z0
  have hz0 : Keeps r z0 := by
    unfold z0
    refine State.mlsStep_keeps _ _ _ ?_
    exact h
  clear_value z0
  extract_lets -merge -useContext +onlyGivenNames z1
  have hz1 : Keeps r z1 := by
    unfold z1
    refine State.domainOff_keeps _ _ ?_
    exact hz0
  clear_value z1
  refine State.pmuReport_keeps _ _ _ _ _ ?_
  refine State.modPmu_keeps _ _ ?_
  exact hz1

theorem State.mlsSaveEnd_keeps {r : State} (a0 : State) (h : Keeps r a0) : Keeps r (State.mlsSaveEnd a0) := by
  unfold State.mlsSaveEnd
  refine keeps_ite _ ?_ ?_
  · exact h
  · extract_lets -merge -useContext +onlyGivenNames z0
    have hz0 : Keeps r z0 := by
      unfold z0
      refine keeps_ite _ ?_ ?_
      · refine State.saveErr_keeps _ ?_
        refine State.saveAbandon_keeps _ ?_
        exact h
      · exact h
    clear_value z0
    refine State.mlsOff_keeps _ _ ?_
    exact hz0

theorem State.pfRelease_keeps {r : State} (a0 : State) (h : Keeps r a0) : Keeps r (State.pfRelease a0) := by
  unfold State.pfRelease
  extract_lets -merge -useContext +onlyGivenNames z0
  have hz0 : Keeps r z0 := by
    unfold z0
    refine State.clr_keeps _ _ ?_
    exact h
  clear_value z0
  extract_lets -merge -useContext +onlyGivenNames z1
  clear_value z1
  extract_lets -merge -useContext +onlyGivenNames z2
  clear_value z2
  refine keeps_ite _ ?_ ?_
  · refine State.pmuReport_keeps _ _ _ _ _ ?_
    refine State.set_keeps _ _ _ ?_
    exact hz0
  · exact hz0

theorem State.finalStep_keeps {r : State} (a0 : State) (a1 : Nat) (h : Keeps r a0) : Keeps r (State.finalStep a0 a1) := by
  unfold State.finalStep
  refine keeps_ite _ ?_ ?_
  · exact h
  · extract_lets -merge -useContext +onlyGivenNames z0
    have hz0 : Keeps r z0 := by
      unfold z0
      refine State.domainOff_keeps _ _ ?_
      exact h
    clear_value z0
    extract_lets -merge -useContext +onlyGivenNames z1
    have hz1 : Keeps r z1 := by
      unfold z1
      refine State.requestLastGasp_keeps _ _ ?_
      exact hz0
    clear_value z1
    extract_lets -merge -useContext +onlyGivenNames z2
    have hz2 : Keeps r z2 := by
      unfold z2
      refine State.raise_keeps _ _ ?_
      refine State.mlsStep_keeps _ _ _ ?_
      exact hz1
    clear_value z2
    extract_lets -merge -useContext +onlyGivenNames z3
    have hz3 : Keeps r z3 := by
      unfold z3
      refine State.saveAbandon_keeps _ ?_
      exact hz2
    clear_value z3
    extract_lets -merge -useContext +onlyGivenNames z4
    have hz4 : Keeps r z4 := by
      unfold z4
      refine State.modPmu_keeps _ _ ?_
      exact hz3
    clear_value z4
    refine keeps_forEach ?_ _ _ ?_
    · exact hz4
    · intro w5_0 w5_1 hw5
      refine keeps_ite _ ?_ ?_
      · refine State.domainOff_keeps _ _ ?_
        exact hw5
      · exact hw5

theorem State.afterCommit_keeps {r : State} (a0 : State) (h : Keeps r a0) : Keeps r (State.afterCommit a0) := by
  unfold State.afterCommit
  extract_lets -merge -useContext +onlyGivenNames z0
  have hz0 : Keeps r z0 := by
    unfold z0
    refine State.saveWhenEmpty_keeps _ ?_
    exact h
  clear_value z0
  extract_lets -merge -useContext +onlyGivenNames z1
  clear_value z1
  refine keeps_ite _ ?_ ?_
  · refine State.powerOff_keeps _ ?_
    exact hz0
  · refine keeps_ite _ ?_ ?_
    · refine State.powerOff_keeps _ ?_
      exact hz0
    · exact hz0

theorem State.railFault_keeps {r : State} (a0 : State) (a1 : Nat) (h : Keeps r a0) : Keeps r (State.railFault a0 a1) := by
  unfold State.railFault
  extract_lets -merge -useContext +onlyGivenNames z0
  have hz0 : Keeps r z0 := by
    unfold z0
    refine State.set_keeps _ _ _ ?_
    exact h
  clear_value z0
  extract_lets -merge -useContext +onlyGivenNames z1
  have hz1 : Keeps r z1 := by
    unfold z1
    refine State.set_keeps _ _ _ ?_
    exact hz0
  clear_value z1
  refine State.finalStep_keeps _ _ ?_
  refine State.pmuReport_keeps _ _ _ _ _ ?_
  exact hz1

theorem State.busThreshold_keeps {r : State} (a0 : State) (a1 : Nat) (a2 : Nat) (a3 : Fld) (a4 : Bool) (a5 : Nat) (h : Keeps r a0) : Keeps r (State.busThreshold a0 a1 a2 a3 a4 a5) := by
  unfold State.busThreshold
  extract_lets -merge -useContext +onlyGivenNames z0
  clear_value z0
  extract_lets -merge -useContext +onlyGivenNames z1
  clear_value z1
  extract_lets -merge -useContext +onlyGivenNames z2
  have hz2 : Keeps r z2 := by
    unfold z2
    refine State.modPmu_keeps _ _ ?_
    exact h
  clear_value z2
  refine keeps_ite _ ?_ ?_
  · refine State.pmuReport_keeps _ _ _ _ _ ?_
    refine State.ext_keeps _ _ ?_
    refine State.raise_keeps _ _ ?_
    exact hz2
  · exact hz2

theorem State.busEval_keeps {r : State} (a0 : State) (a1 : Nat) (a2 : Nat) (h : Keeps r a0) : Keeps r (State.busEval a0 a1 a2) := by
  unfold State.busEval
  extract_lets -merge -useContext +onlyGivenNames z0
  have hz0 : Keeps r z0 := by
    unfold z0
    split
    · refine State.raise_keeps _ _ ?_
      exact h
    · refine State.set_keeps _ _ _ ?_
      exact h
  clear_value z0
  extract_lets -merge -useContext +onlyGivenNames z1
  clear_value z1
  extract_lets -merge -useContext +onlyGivenNames z2
  have hz2 : Keeps r z2 := by
    unfold z2
    refine keeps_forN ?_ _ _ ?_
    · exact hz0
    · intro w3_0 w3_1 hw3
      refine keeps_ite _ ?_ ?_
      · refine State.set_keeps _ _ _ ?_
        exact hw3
      · exact hw3
  clear_value z2
  extract_lets -merge -useContext +onlyGivenNames z4
  have hz4 : Keeps r z4 := by
    unfold z4
    refine State.busThreshold_keeps _ _ _ _ _ _ ?_
    exact hz2
  clear_value z4
  extract_lets -merge -useContext +onlyGivenNames z5
  have hz5 : Keeps r z5 := by
    unfold z5
    refine State.busThreshold_keeps _ _ _ _ _ _ ?_
    exact hz4
  clear_value z5
  refine State.busThreshold_keeps _ _ _ _ _ _ ?_
  exact hz5

theorem State.busBoundary_keeps {r : State} (a0 : State) (a1 : Nat) (h : Keeps r a0) : Keeps r (State.busBoundary a0 a1) := by
  unfold State.busBoundary
  extract_lets -merge -useContext +onlyGivenNames z0
  clear_value z0
  extract_lets -merge -useContext +onlyGivenNames z1
  have hz1 : Keeps r z1 := by
    unfold z1
    refine keeps_forEach ?_ _ _ ?_
    · exact h
    · intro w2_0 w2_1 hw2
      refine State.busEval_keeps _ _ _ ?_
      exact hw2
  clear_value z1
  extract_lets -merge -useContext +onlyGivenNames z3
  clear_value z3
  refine keeps_ite _ ?_ ?_
  · refine State.mainsFail_keeps _ _ ?_
    exact hz1
  · exact hz1

theorem State.nodeCollapse_keeps {r : State} (a0 : State) (a1 : Nat) (a2 : Nat) (h : Keeps r a0) : Keeps r (State.nodeCollapse a0 a1 a2) := by
  unfold State.nodeCollapse
  refine keeps_ite _ ?_ ?_
  · exact h
  · split
    · exact h
    · extract_lets -merge -useContext +onlyGivenNames z0
      have hz0 : Keeps r z0 := by
        unfold z0
        refine keeps_forEach ?_ _ _ ?_
        · exact h
        · intro w1_0 w1_1 hw1
          refine State.superAct_keeps _ _ _ ?_
          exact hw1
      clear_value z0
      refine State.ext_keeps _ _ ?_
      refine State.pmuReport_keeps _ _ _ _ _ ?_
      refine State.raise_keeps _ _ ?_
      exact hz0

theorem State.standbyGo_keeps {r : State} (a0 : State) (h : Keeps r a0) : Keeps r (State.standbyGo a0) := by
  unfold State.standbyGo
  refine keeps_ite _ ?_ ?_
  · exact h
  · refine State.mlsOff_keeps _ _ ?_
    refine State.saveAbandon_keeps _ ?_
    exact h

theorem State.wake_keeps {r : State} (a0 : State) (a1 : Bool) (h : Keeps r a0) : Keeps r (State.wake a0 a1) := by
  unfold State.wake
  refine keeps_ite _ ?_ ?_
  · exact h
  · refine keeps_ite _ ?_ ?_
    · refine keeps_ite _ ?_ ?_
      · refine State.coldStart_keeps _ _ _ ?_
        exact h
      · exact h
    · refine keeps_ite _ ?_ ?_
      · refine State.coldStart_keeps _ _ _ ?_
        exact h
      · exact h

theorem State.vbatChange_keeps {r : State} (a0 : State) (a1 : Bool) (a2 : Bool) (h : Keeps r a0) : Keeps r (State.vbatChange a0 a1 a2) := by
  unfold State.vbatChange
  refine keeps_ite _ ?_ ?_
  · exact h
  · extract_lets -merge -useContext +onlyGivenNames z0
    have hz0 : Keeps r z0 := by
      unfold z0
      refine State.dropRegs_keeps _ _ ?_
      refine State.powerOff_keeps _ ?_
      exact h
    clear_value z0
    refine State.modPmu_keeps _ _ ?_
    refine State.clr_keeps _ _ ?_
    exact hz0

theorem State.pmuWrite_keeps {r : State} (a0 : State) (a1 : Bool) (a2 : Nat) (a3 : Nat) (h : Keeps r a0) : Keeps r (State.pmuWrite a0 a1 a2 a3) := by
  unfold State.pmuWrite
  refine keeps_ite _ ?_ ?_
  · extract_lets -merge -useContext +onlyGivenNames z0
    have hz0 : Keeps r z0 := by
      unfold z0
      refine State.set_keeps _ _ _ ?_
      exact h
    clear_value z0
    refine keeps_ite _ ?_ ?_
    · refine State.coldStart_keeps _ _ _ ?_
      exact hz0
    · refine keeps_ite _ ?_ ?_
      · refine State.mlsStart_keeps _ _ ?_
        exact hz0
      · exact hz0
  · refine keeps_ite _ ?_ ?_
    · refine State.domainRequest_keeps _ _ _ ?_
      exact h
    · refine keeps_ite _ ?_ ?_
      · refine keeps_ite _ ?_ ?_
        · refine State.islandReset_keeps _ _ ?_
          exact h
        · refine State.set_keeps _ _ _ ?_
          exact h
      · refine keeps_ite _ ?_ ?_
        · refine State.oppChange_keeps _ _ _ ?_
          exact h
        · refine keeps_ite _ ?_ ?_
          · extract_lets -merge -useContext +onlyGivenNames z1
            have hz1 : Keeps r z1 := by
              unfold z1
              refine State.set_keeps _ _ _ ?_
              exact h
            clear_value z1
            refine keeps_ite _ ?_ ?_
            · refine State.saveBegin_keeps _ ?_
              exact hz1
            · exact hz1
          · refine keeps_ite _ ?_ ?_
            · extract_lets -merge -useContext +onlyGivenNames z2
              have hz2 : Keeps r z2 := by
                unfold z2
                refine State.set_keeps _ _ _ ?_
                refine State.set_keeps _ _ _ ?_
                exact h
              clear_value z2
              refine keeps_ite _ ?_ ?_
              · refine State.standbyGo_keeps _ ?_
                exact hz2
              · exact hz2
            · refine keeps_ite _ ?_ ?_
              · exact h
              · refine State.storeWrite_keeps _ _ _ ?_
                exact h

theorem execRailFault_keeps {r : State} (a0 : Fin 7) (a1 : State) (h : Keeps r a1) (t : State) (e : execRailFault a0 a1 = .next t) : Keeps r t := by
  unfold execRailFault at e
  injection e with e
  subst e
  repeat' (first | assumption | intro _ | with_reducible apply State.railFault_keeps | with_reducible apply keeps_ite | split | dsimp only)

theorem execDomainLevelLoss_keeps {r : State} (a0 : Fin 24) (a1 : State) (h : Keeps r a1) (t : State) (e : execDomainLevelLoss a0 a1 = .next t) : Keeps r t := by
  unfold execDomainLevelLoss at e
  injection e with e
  subst e
  repeat' (first | assumption | intro _ | with_reducible apply State.set_keeps | with_reducible apply State.finalStep_keeps | with_reducible apply keeps_ite | split | dsimp only)

theorem execVbatChangeover_keeps {r : State} (a0 : Bool) (a1 : Bool) (a2 : State) (h : Keeps r a2) (t : State) (e : execVbatChangeover a0 a1 a2 = .next t) : Keeps r t := by
  unfold execVbatChangeover at e
  injection e with e
  subst e
  repeat' (first | assumption | intro _ | with_reducible apply State.vbatChange_keeps | with_reducible apply keeps_ite | split | dsimp only)

theorem execDomainSwitchDone_keeps {r : State} (a0 : State) (h : Keeps r a0) (t : State) (e : execDomainSwitchDone a0 = .next t) : Keeps r t := by
  unfold execDomainSwitchDone at e
  injection e with e
  subst e
  repeat' (first | assumption | intro _ | with_reducible apply State.domainDone_keeps | with_reducible apply keeps_ite | split | dsimp only)

theorem execDomainSwitchTimeout_keeps {r : State} (a0 : State) (h : Keeps r a0) (t : State) (e : execDomainSwitchTimeout a0 = .next t) : Keeps r t := by
  unfold execDomainSwitchTimeout at e
  injection e with e
  subst e
  repeat' (first | assumption | intro _ | with_reducible apply State.domainTimeout_keeps | with_reducible apply keeps_ite | split | dsimp only)

theorem execIslandResetDone_keeps {r : State} (a0 : State) (h : Keeps r a0) (t : State) (e : execIslandResetDone a0 = .next t) : Keeps r t := by
  unfold execIslandResetDone at e
  injection e with e
  subst e
  repeat' (first | assumption | intro _ | with_reducible apply State.islandResetDone_keeps | with_reducible apply keeps_ite | split | dsimp only)

theorem execOppChangeDone_keeps {r : State} (a0 : State) (h : Keeps r a0) (t : State) (e : execOppChangeDone a0 = .next t) : Keeps r t := by
  unfold execOppChangeDone at e
  injection e with e
  subst e
  repeat' (first | assumption | intro _ | with_reducible apply State.oppDone_keeps | with_reducible apply keeps_ite | split | dsimp only)

theorem execWake_keeps {r : State} (a0 : Bool) (a1 : State) (h : Keeps r a1) (t : State) (e : execWake a0 a1 = .next t) : Keeps r t := by
  unfold execWake at e
  injection e with e
  subst e
  repeat' (first | assumption | intro _ | with_reducible apply State.wake_keeps | with_reducible apply keeps_ite | split | dsimp only)

theorem execNodeCollapse_keeps {r : State} (a0 : Fin 32) (a1 : Fin 256) (a2 : State) (h : Keeps r a2) (t : State) (e : execNodeCollapse a0 a1 a2 = .next t) : Keeps r t := by
  unfold execNodeCollapse at e
  injection e with e
  subst e
  repeat' (first | assumption | intro _ | with_reducible apply State.nodeCollapse_keeps | with_reducible apply keeps_ite | split | dsimp only)

theorem execPfAssert_keeps {r : State} (a0 : State) (h : Keeps r a0) (t : State) (e : execPfAssert a0 = .next t) : Keeps r t := by
  unfold execPfAssert at e
  injection e with e
  subst e
  repeat' (first | assumption | intro _ | with_reducible apply State.mainsFail_keeps | with_reducible apply State.raise_keeps | with_reducible apply keeps_ite | split | dsimp only)

theorem execMlsStopEnd_keeps {r : State} (a0 : State) (h : Keeps r a0) (t : State) (e : execMlsStopEnd a0 = .next t) : Keeps r t := by
  unfold execMlsStopEnd at e
  injection e with e
  subst e
  repeat' (first | assumption | intro _ | with_reducible apply State.mlsSto_keeps | with_reducible apply keeps_ite | split | dsimp only)

theorem execMlsStoEnd_keeps {r : State} (a0 : State) (h : Keeps r a0) (t : State) (e : execMlsStoEnd a0 = .next t) : Keeps r t := by
  unfold execMlsStoEnd at e
  injection e with e
  subst e
  repeat' (first | assumption | intro _ | with_reducible apply State.mlsSave_keeps | with_reducible apply keeps_ite | split | dsimp only)

theorem execMlsSaveEnd_keeps {r : State} (a0 : State) (h : Keeps r a0) (t : State) (e : execMlsSaveEnd a0 = .next t) : Keeps r t := by
  unfold execMlsSaveEnd at e
  injection e with e
  subst e
  repeat' (first | assumption | intro _ | with_reducible apply State.mlsSaveEnd_keeps | with_reducible apply keeps_ite | split | dsimp only)

theorem execPfRelease_keeps {r : State} (a0 : State) (h : Keeps r a0) (t : State) (e : execPfRelease a0 = .next t) : Keeps r t := by
  unfold execPfRelease at e
  injection e with e
  subst e
  repeat' (first | assumption | intro _ | with_reducible apply State.pfRelease_keeps | with_reducible apply keeps_ite | split | dsimp only)

theorem execSaveWriteDone_keeps {r : State} (a0 : Bool) (a1 : State) (h : Keeps r a1) (t : State) (e : execSaveWriteDone a0 a1 = .next t) : Keeps r t := by
  unfold execSaveWriteDone at e
  injection e with e
  subst e
  repeat' (first | assumption | intro _ | with_reducible apply State.saveDone_keeps | with_reducible apply keeps_ite | split | dsimp only)

theorem execDebugPortReset_keeps {r : State} (a0 : State) (h : Keeps r a0) (t : State) (e : execDebugPortReset a0 = .next t) : Keeps r t := by
  unfold execDebugPortReset at e
  injection e with e
  subst e
  repeat' (first | assumption | intro _ | with_reducible apply State.coldStart_keeps | with_reducible apply keeps_ite | split | dsimp only)

theorem State.modHost_keeps {r : State} (a0 : State) (a1 : Hosts → Hosts) (h : Keeps r a0) : Keeps r (State.modHost a0 a1) := by
  unfold State.modHost
  refine keeps_host ?_ _
  exact h

theorem State.engRead_keeps {r : State} (a0 : State) (a1 : Nat) (a2 : Nat) (h : Keeps r a0) : Keeps r ((State.engRead a0 a1 a2).2) := by
  unfold State.engRead
  refine keeps_ite2 _ ?_ ?_
  · refine keeps_snd ?_
    refine State.burn_keeps _ ?_
    exact h
  · refine keeps_snd ?_
    exact h

theorem State.engWrite_keeps {r : State} (a0 : State) (a1 : Nat) (a2 : List Byte) (h : Keeps r a0) : Keeps r (State.engWrite a0 a1 a2) := by
  unfold State.engWrite
  refine keeps_ite _ ?_ ?_
  · refine State.modHost_keeps _ _ ?_
    exact h
  · refine State.store_keeps _ _ _ ?_
    exact h

theorem State.setDma_keeps {r : State} (a0 : State) (a1 : Nat) (a2 : Option DmaCh) (h : Keeps r a0) : Keeps r (State.setDma a0 a1 a2) := by
  unfold State.setDma
  refine State.modHost_keeps _ _ ?_
  exact h

theorem State.dmaFault_keeps {r : State} (a0 : State) (a1 : Nat) (a2 : Nat) (a3 : Nat) (h : Keeps r a0) : Keeps r (State.dmaFault a0 a1 a2 a3) := by
  unfold State.dmaFault
  extract_lets -merge -useContext +onlyGivenNames z0
  have hz0 : Keeps r z0 := by
    unfold z0
    refine State.set_keeps _ _ _ ?_
    refine State.raise_keeps _ _ ?_
    refine State.clr_keeps _ _ ?_
    exact h
  clear_value z0
  extract_lets -merge -useContext +onlyGivenNames z1
  have hz1 : Keeps r z1 := by
    unfold z1
    refine State.setDma_keeps _ _ _ ?_
    refine State.set_keeps _ _ _ ?_
    exact hz0
  clear_value z1
  refine State.hostReport_keeps _ _ _ _ _ ?_
  exact hz1

theorem State.dmaFetch_keeps {r : State} (a0 : State) (a1 : Nat) (a2 : Nat) (a3 : Bool) (h : Keeps r a0) : Keeps r (State.dmaFetch a0 a1 a2 a3) := by
  unfold State.dmaFetch
  extract_lets -merge -useContext +onlyGivenNames z0
  clear_value z0
  split
  · have hd1 : Keeps r (a0.engRead a2 32).2 := by
      refine State.engRead_keeps _ _ _ ?_
      exact h
    split
    · extract_lets -merge -useContext +onlyGivenNames z2
      clear_value z2
      refine keeps_ite _ ?_ ?_
      · refine State.dmaFault_keeps _ _ _ _ ?_
        exact (by simp_all)
      · refine keeps_ite _ ?_ ?_
        · refine State.dmaFault_keeps _ _ _ _ ?_
          exact (by simp_all)
        · refine keeps_ite _ ?_ ?_
          · refine State.dmaFault_keeps _ _ _ _ ?_
            exact (by simp_all)
          · refine State.raise_keeps _ _ ?_
            refine State.setDma_keeps _ _ _ ?_
            exact (by simp_all)
  · refine State.dmaFault_keeps _ _ _ _ ?_
    refine State.refuse_keeps _ _ _ _ _ ?_
    exact h

theorem State.dmaStart_keeps {r : State} (a0 : State) (a1 : Nat) (h : Keeps r a0) : Keeps r (State.dmaStart a0 a1) := by
  unfold State.dmaStart
  refine keeps_ite _ ?_ ?_
  · exact h
  · refine State.dmaFetch_keeps _ _ _ _ ?_
    exact h

theorem State.dmaStop_keeps {r : State} (a0 : State) (a1 : Nat) (h : Keeps r a0) : Keeps r (State.dmaStop a0 a1) := by
  unfold State.dmaStop
  split
  · exact h
  · refine State.setDma_keeps _ _ _ ?_
    exact h

theorem State.dmaCopy_keeps {r : State} (a0 : State) (a1 : Requester) (a2 : Nat) (a3 : Nat) (a4 : Nat) (h : Keeps r a0) : Keeps r ((State.dmaCopy a0 a1 a2 a3 a4).2) := by
  induction a4 generalizing a0 a2 a3 with
  | zero => exact h
  | succ n ih =>
    unfold State.dmaCopy
    have h1 := State.engRead_keeps a0 a2 1 h
    dsimp only
    split
    · split
      · exact ih _ _ _ (State.engWrite_keeps _ _ _ h1)
      · exact State.refuse_keeps _ _ _ _ _ h1
    · exact State.refuse_keeps _ _ _ _ _ h

theorem State.dmaDone_keeps {r : State} (a0 : State) (a1 : Nat) (h : Keeps r a0) : Keeps r (State.dmaDone a0 a1) := by
  unfold State.dmaDone
  split
  · exact h
  · rename_i c _
    have h1 := State.dmaCopy_keeps a0 (a0.dmaWho a1) c.src c.dst c.len h
    split
    · rename_i s e
      rw [e] at h1
      exact State.dmaFault_keeps _ _ _ _ h1
    · rename_i s e
      rw [e] at h1
      extract_lets -merge -useContext +onlyGivenNames z0
      clear_value z0
      extract_lets -merge -useContext +onlyGivenNames z1
      have hz1 : Keeps r z1 := keeps_ite _ (State.fillTag_keeps _ _ _ h1) h1
      clear_value z1
      extract_lets -merge -useContext +onlyGivenNames z2
      have hz2 : Keeps r z2 := keeps_ite _ (State.ext_keeps _ _ hz1) hz1
      clear_value z2
      exact keeps_ite _ (State.raise_keeps _ _ (State.clr_keeps _ _ (State.setDma_keeps _ _ _ hz2)))
        (State.dmaFetch_keeps _ _ _ _ hz2)

theorem State.ptpNote_keeps {r : State} (a0 : State) (a1 : Bool) (a2 : Nat) (a3 : List Byte) (a4 : PtpMsg) (a5 : Int) (h : Keeps r a0) : Keeps r (State.ptpNote a0 a1 a2 a3 a4 a5) := by
  unfold State.ptpNote
  refine State.ptpEnter_keeps _ _ _ _ ?_
  exact h

theorem State.queueTail_keeps {r : State} (a0 : State) (a1 : Bool) (a2 : Nat) (h : Keeps r a0) : Keeps r (State.queueTail a0 a1 a2) := by
  unfold State.queueTail
  refine keeps_ite _ ?_ ?_
  · exact h
  · refine State.modHost_keeps _ _ ?_
    exact h

theorem State.queueFault_keeps {r : State} (a0 : State) (a1 : Bool) (a2 : Nat) (h : Keeps r a0) : Keeps r (State.queueFault a0 a1 a2) := by
  unfold State.queueFault
  refine State.hostReport_keeps _ _ _ _ _ ?_
  refine State.modHost_keeps _ _ ?_
  refine State.raise_keeps _ _ ?_
  exact h

theorem State.rxDrop_keeps {r : State} (a0 : State) (h : Keeps r a0) : Keeps r (State.rxDrop a0) := by
  unfold State.rxDrop
  refine State.count_keeps _ _ ?_
  exact h

theorem State.rxDeliver_keeps {r : State} (a0 : State) (a1 : Nat) (a2 : List Byte) (a3 : Bool) (h : Keeps r a0) : Keeps r (State.rxDeliver a0 a1 a2 a3) := by
  unfold State.rxDeliver
  extract_lets -merge -useContext +onlyGivenNames z0
  clear_value z0
  extract_lets -merge -useContext +onlyGivenNames z1
  clear_value z1
  refine keeps_ite _ ?_ ?_
  · refine State.rxDrop_keeps _ ?_
    exact h
  · split
    · have hd2 : Keeps r (a0.engRead z1 16).2 := by
        refine State.engRead_keeps _ _ _ ?_
        exact h
      split
      · extract_lets -merge -useContext +onlyGivenNames z3
        clear_value z3
        refine keeps_ite _ ?_ ?_
        · refine State.rxDrop_keeps _ ?_
          exact (by simp_all)
        · extract_lets -merge -useContext +onlyGivenNames z4
          clear_value z4
          split
          · extract_lets -merge -useContext +onlyGivenNames z5
            have hz5 : Keeps r z5 := by
              unfold z5
              refine State.engWrite_keeps _ _ _ ?_
              exact (by simp_all)
            clear_value z5
            extract_lets -merge -useContext +onlyGivenNames z6
            have hz6 : Keeps r z6 := by
              unfold z6
              refine State.engWrite_keeps _ _ _ ?_
              exact hz5
            clear_value z6
            extract_lets -merge -useContext +onlyGivenNames z7
            have hz7 : Keeps r z7 := by
              unfold z7
              refine State.set_keeps _ _ _ ?_
              exact hz6
            clear_value z7
            refine State.ext_keeps _ _ ?_
            refine State.count_keeps _ _ ?_
            exact hz7
          · refine State.queueFault_keeps _ _ _ ?_
            refine State.refuse_keeps _ _ _ _ _ ?_
            exact (by simp_all)
    · refine State.queueFault_keeps _ _ _ ?_
      refine State.refuse_keeps _ _ _ _ _ ?_
      exact h
    · refine State.queueFault_keeps _ _ _ ?_
      refine State.refuse_keeps _ _ _ _ _ ?_
      exact h

theorem State.plantReceive_keeps {r : State} (a0 : State) (a1 : List Byte) (h : Keeps r a0) : Keeps r (State.plantReceive a0 a1) := by
  unfold State.plantReceive
  refine keeps_ite _ ?_ ?_
  · exact h
  · extract_lets -merge -useContext +onlyGivenNames z0
    clear_value z0
    refine keeps_ite _ ?_ ?_
    · refine State.rxDrop_keeps _ ?_
      exact h
    · refine keeps_ite _ ?_ ?_
      · refine State.count_keeps _ _ ?_
        exact h
      · refine keeps_ite _ ?_ ?_
        · refine State.count_keeps _ _ ?_
          exact h
        · refine keeps_ite _ ?_ ?_
          · exact h
          · extract_lets -merge -useContext +onlyGivenNames z1
            clear_value z1
            split
            · refine State.rxDeliver_keeps _ _ _ _ ?_
              exact h
            · split
              · refine State.rxDeliver_keeps _ _ _ _ ?_
                exact h
              · refine keeps_ite _ ?_ ?_
                · extract_lets -merge -useContext +onlyGivenNames z2
                  clear_value z2
                  refine State.rxDeliver_keeps _ _ _ _ ?_
                  refine State.ptpNote_keeps _ _ _ _ _ _ ?_
                  refine State.burn_keeps _ ?_
                  exact h
                · refine State.rxDeliver_keeps _ _ _ _ ?_
                  exact h

theorem State.txComplete_keeps {r : State} (a0 : State) (a1 : Nat) (a2 : Nat) (a3 : List Byte) (h : Keeps r a0) : Keeps r (State.txComplete a0 a1 a2 a3) := by
  unfold State.txComplete
  extract_lets -merge -useContext +onlyGivenNames z0
  have hz0 : Keeps r z0 := by
    unfold z0
    refine State.engWrite_keeps _ _ _ ?_
    exact h
  clear_value z0
  extract_lets -merge -useContext +onlyGivenNames z1
  have hz1 : Keeps r z1 := by
    unfold z1
    refine State.set_keeps _ _ _ ?_
    exact hz0
  clear_value z1
  refine State.ext_keeps _ _ ?_
  exact hz1

theorem State.txSend_keeps {r : State} (a0 : State) (a1 : List Byte) (h : Keeps r a0) : Keeps r (State.txSend a0 a1) := by
  unfold State.txSend
  refine State.modHost_keeps _ _ ?_
  refine State.count_keeps _ _ ?_
  exact h

theorem State.txFrame_keeps {r : State} (a0 : State) (a1 : List Byte) (a2 : Nat) (a3 : Nat) (a4 : Nat) (h : Keeps r a0) : Keeps r (State.txFrame a0 a1 a2 a3 a4) := by
  unfold State.txFrame
  split
  · refine State.txSend_keeps _ _ ?_
    exact h
  · refine keeps_ite _ ?_ ?_
    · refine State.txSend_keeps _ _ ?_
      exact h
    · extract_lets -merge -useContext +onlyGivenNames z0
      clear_value z0
      extract_lets -merge -useContext +onlyGivenNames z1
      clear_value z1
      extract_lets -merge -useContext +onlyGivenNames z2
      have hz2 : Keeps r z2 := by
        unfold z2
        refine State.burn_keeps _ ?_
        exact h
      clear_value z2
      extract_lets -merge -useContext +onlyGivenNames z3
      have hz3 : Keeps r z3 := by
        unfold z3
        refine keeps_ite _ ?_ ?_
        · refine State.ptpNote_keeps _ _ _ _ _ _ ?_
          exact hz2
        · exact hz2
      clear_value z3
      split
      · refine State.txSend_keeps _ _ ?_
        exact hz3
      · refine State.report_keeps _ _ _ _ _ ?_
        refine State.count_keeps _ _ ?_
        exact hz3

theorem State.plantTx_keeps {r : State} (a0 : State) (a1 : Nat) (h : Keeps r a0) : Keeps r (State.plantTx a0 a1) := by
  unfold State.plantTx
  dsimp only
  have hq : ∀ s, Keeps r s → Keeps r ((s.queueFault false a1).ext 140) := fun s k =>
    State.ext_keeps _ _ (State.queueFault_keeps _ _ _ k)
  refine keeps_ite _ h ?_
  split
  · have h1 := State.engRead_keeps a0 (a0.txDesc a1) 16 h
    refine keeps_ite _ h1 (keeps_ite _ (hq _ h1) ?_)
    split
    · exact State.txComplete_keeps _ _ _ _ (State.txFrame_keeps _ _ _ _ _ (State.engRead_keeps _ _ _ h1))
    · exact hq _ (State.refuse_keeps _ _ _ _ _ h1)
  · exact hq _ (State.refuse_keeps _ _ _ _ _ h)
  · exact hq _ (State.refuse_keeps _ _ _ _ _ h)

theorem State.snapFire_keeps {r : State} (a0 : State) (a1 : Nat) (a2 : Nat) (h : Keeps r a0) : Keeps r (State.snapFire a0 a1 a2) := by
  unfold State.snapFire
  refine keeps_ite _ ?_ ?_
  · exact h
  · refine keeps_ite _ ?_ ?_
    · exact h
    · refine keeps_ite _ ?_ ?_
      · refine State.hostReport_keeps _ _ _ _ _ ?_
        refine State.raise_keeps _ _ ?_
        exact h
      · extract_lets -merge -useContext +onlyGivenNames z0
        clear_value z0
        refine State.modHost_keeps _ _ ?_
        refine State.raise_keeps _ _ ?_
        exact h

theorem State.snapSwap_keeps {r : State} (a0 : State) (h : Keeps r a0) : Keeps r (State.snapSwap a0) := by
  unfold State.snapSwap
  split
  · exact h
  · extract_lets -merge -useContext +onlyGivenNames z0
    clear_value z0
    extract_lets -merge -useContext +onlyGivenNames z1
    clear_value z1
    extract_lets -merge -useContext +onlyGivenNames z2
    clear_value z2
    extract_lets -merge -useContext +onlyGivenNames z3
    have hz3 : Keeps r z3 := by
      unfold z3
      refine State.modHost_keeps _ _ ?_
      refine State.clr_keeps _ _ ?_
      exact h
    clear_value z3
    split
    · extract_lets -merge -useContext +onlyGivenNames z4
      clear_value z4
      extract_lets -merge -useContext +onlyGivenNames z5
      clear_value z5
      extract_lets -merge -useContext +onlyGivenNames z6
      clear_value z6
      extract_lets -merge -useContext +onlyGivenNames z7
      have hz7 : Keeps r z7 := by
        unfold z7
        refine State.set_keeps _ _ _ ?_
        refine State.set_keeps _ _ _ ?_
        exact hz3
      clear_value z7
      refine State.modHost_keeps _ _ ?_
      exact hz7
    · refine State.hostReport_keeps _ _ _ _ _ ?_
      refine State.refuse_keeps _ _ _ _ _ ?_
      exact hz3

theorem State.snapWrite_keeps {r : State} (a0 : State) (a1 : Nat) (a2 : Nat) (h : Keeps r a0) : Keeps r (State.snapWrite a0 a1 a2) := by
  unfold State.snapWrite
  extract_lets -merge -useContext +onlyGivenNames z0
  clear_value z0
  refine keeps_ite _ ?_ ?_
  · exact h
  · refine keeps_ite _ ?_ ?_
    · refine State.count_keeps _ _ ?_
      exact h
    · extract_lets -merge -useContext +onlyGivenNames z1
      have hz1 : Keeps r z1 := by
        unfold z1
        refine State.setReg_keeps _ _ _ ?_
        exact h
      clear_value z1
      refine keeps_ite _ ?_ ?_
      · refine State.ext_keeps _ _ ?_
        refine State.bump_keeps _ _ ?_
        refine State.raise_keeps _ _ ?_
        exact hz1
      · exact hz1

theorem State.snpWrite_keeps {r : State} (a0 : State) (a1 : Nat) (a2 : Nat) (a3 : Nat) (h : Keeps r a0) : Keeps r (State.snpWrite a0 a1 a2 a3) := by
  unfold State.snpWrite
  refine keeps_ite _ ?_ ?_
  · extract_lets -merge -useContext +onlyGivenNames z0
    have hz0 : Keeps r z0 := by
      unfold z0
      refine keeps_ite _ ?_ ?_
      · refine State.set_keeps _ _ _ ?_
        exact h
      · exact h
    clear_value z0
    extract_lets -merge -useContext +onlyGivenNames z1
    have hz1 : Keeps r z1 := by
      unfold z1
      refine State.set_keeps _ _ _ ?_
      refine State.set_keeps _ _ _ ?_
      exact hz0
    clear_value z1
    refine keeps_ite _ ?_ ?_
    · refine State.snapFire_keeps _ _ _ ?_
      exact hz1
    · exact hz1
  · refine keeps_ite _ ?_ ?_
    · refine State.set_keeps _ _ _ ?_
      exact h
    · refine keeps_ite _ ?_ ?_
      · refine State.set_keeps _ _ _ ?_
        exact h
      · refine keeps_ite _ ?_ ?_
        · refine keeps_ite _ ?_ ?_
          · refine State.clr_keeps _ _ ?_
            exact h
          · exact h
        · exact h

theorem State.pcieWrite_keeps {r : State} (a0 : State) (a1 : Nat) (a2 : Nat) (h : Keeps r a0) : Keeps r ((State.pcieWrite a0 a1 a2).2) := by
  unfold State.pcieWrite
  refine keeps_ite2 _ ?_ ?_
  · extract_lets -merge -useContext +onlyGivenNames z0
    have hz0 : Keeps r z0 := by
      unfold z0
      refine keeps_ite _ ?_ ?_
      · exact h
      · refine State.set_keeps _ _ _ ?_
        exact h
    clear_value z0
    refine keeps_snd ?_
    refine State.set_keeps _ _ _ ?_
    exact hz0
  · refine keeps_ite2 _ ?_ ?_
    · refine keeps_snd ?_
      refine keeps_ite _ ?_ ?_
      · exact h
      · refine State.setReg_keeps _ _ _ ?_
        exact h
    · refine keeps_ite2 _ ?_ ?_
      · refine keeps_ite2 _ ?_ ?_
        · refine keeps_snd ?_
          exact h
        · refine keeps_snd ?_
          refine State.storeWrite_keeps _ _ _ ?_
          exact h
      · refine keeps_ite2 _ ?_ ?_
        · refine keeps_snd ?_
          refine State.modHost_keeps _ _ ?_
          exact h
        · refine keeps_ite2 _ ?_ ?_
          · extract_lets -merge -useContext +onlyGivenNames z1
            clear_value z1
            extract_lets -merge -useContext +onlyGivenNames z2
            have hz2 : Keeps r z2 := by
              unfold z2
              refine keeps_ite _ ?_ ?_
              · refine State.dmaStart_keeps _ _ ?_
                exact h
              · exact h
            clear_value z2
            refine keeps_snd ?_
            refine keeps_ite _ ?_ ?_
            · refine State.dmaStop_keeps _ _ ?_
              exact hz2
            · exact hz2
          · refine keeps_ite2 _ ?_ ?_
            · refine keeps_snd ?_
              refine State.queueTail_keeps _ _ _ ?_
              refine State.plainWrite_keeps _ _ _ ?_
              exact h
            · refine keeps_ite2 _ ?_ ?_
              · refine keeps_snd ?_
                refine State.queueTail_keeps _ _ _ ?_
                refine State.plainWrite_keeps _ _ _ ?_
                exact h
              · refine keeps_snd ?_
                refine State.plainWrite_keeps _ _ _ ?_
                exact h

theorem State.doorbell_keeps {r : State} (a0 : State) (a1 : Nat) (a2 : Nat) (h : Keeps r a0) : Keeps r (State.doorbell a0 a1 a2) := by
  unfold State.doorbell
  refine keeps_ite _ ?_ ?_
  · exact h
  · refine keeps_ite _ ?_ ?_
    · refine State.bootDoorbell_keeps _ _ ?_
      exact h
    · refine keeps_ite _ ?_ ?_
      · refine State.fillTag_keeps _ _ _ ?_
        exact h
      · refine State.ext_keeps _ _ ?_
        exact h

theorem State.pcieLink_keeps {r : State} (a0 : State) (a1 : Bool) (a2 : Nat) (a3 : Nat) (h : Keeps r a0) : Keeps r (State.pcieLink a0 a1 a2 a3) := by
  unfold State.pcieLink
  extract_lets -merge -useContext +onlyGivenNames z0
  have hz0 : Keeps r z0 := by
    unfold z0
    refine State.set_keeps _ _ _ ?_
    refine State.set_keeps _ _ _ ?_
    refine State.setB_keeps _ _ _ ?_
    exact h
  clear_value z0
  extract_lets -merge -useContext +onlyGivenNames z1
  clear_value z1
  extract_lets -merge -useContext +onlyGivenNames z2
  have hz2 : Keeps r z2 := by
    unfold z2
    refine State.burn_keeps _ ?_
    refine State.setB_keeps _ _ _ ?_
    exact hz0
  clear_value z2
  refine State.hostReport_keeps _ _ _ _ _ ?_
  exact hz2

theorem State.outboundTimeout_keeps {r : State} (a0 : State) (h : Keeps r a0) : Keeps r (State.outboundTimeout a0) := by
  unfold State.outboundTimeout
  split
  · exact h
  · refine State.answer_keeps _ _ ?_
    refine State.hostReport_keeps _ _ _ _ _ ?_
    refine State.modHost_keeps _ _ ?_
    exact h

theorem execPcieDoorbell_keeps {r : State} (a0 : Fin 64) (a1 : Word) (a2 : State) (h : Keeps r a2) (t : State) (e : execPcieDoorbell a0 a1 a2 = .next t) : Keeps r t := by
  unfold execPcieDoorbell at e
  injection e with e
  subst e
  repeat' (first | assumption | intro _ | with_reducible apply State.doorbell_keeps | with_reducible apply keeps_ite | split | dsimp only)

theorem execPcieOutboundTimeout_keeps {r : State} (a0 : State) (h : Keeps r a0) (t : State) (e : execPcieOutboundTimeout a0 = .next t) : Keeps r t := by
  unfold execPcieOutboundTimeout at e
  injection e with e
  subst e
  repeat' (first | assumption | intro _ | with_reducible apply State.outboundTimeout_keeps | with_reducible apply keeps_ite | split | dsimp only)

theorem execPcieLinkChange_keeps {r : State} (a0 : Bool) (a1 : BitVec 3) (a2 : BitVec 3) (a3 : State) (h : Keeps r a3) (t : State) (e : execPcieLinkChange a0 a1 a2 a3 = .next t) : Keeps r t := by
  unfold execPcieLinkChange at e
  injection e with e
  subst e
  repeat' (first | assumption | intro _ | with_reducible apply State.pcieLink_keeps | with_reducible apply keeps_ite | split | dsimp only)

theorem execDmaDescriptorDone_keeps {r : State} (a0 : Fin 8) (a1 : State) (h : Keeps r a1) (t : State) (e : execDmaDescriptorDone a0 a1 = .next t) : Keeps r t := by
  unfold execDmaDescriptorDone at e
  injection e with e
  subst e
  repeat' (first | assumption | intro _ | with_reducible apply State.dmaDone_keeps | with_reducible apply keeps_ite | split | dsimp only)

theorem execPlantFrameReceive_keeps {r : State} (a0 : List Byte) (a1 : State) (h : Keeps r a1) (t : State) (e : execPlantFrameReceive a0 a1 = .next t) : Keeps r t := by
  unfold execPlantFrameReceive at e
  injection e with e
  subst e
  repeat' (first | assumption | intro _ | with_reducible apply State.plantReceive_keeps | with_reducible apply keeps_ite | split | dsimp only)

theorem execPlantTxDone_keeps {r : State} (a0 : Fin 2) (a1 : State) (h : Keeps r a1) (t : State) (e : execPlantTxDone a0 a1 = .next t) : Keeps r t := by
  unfold execPlantTxDone at e
  injection e with e
  subst e
  repeat' (first | assumption | intro _ | with_reducible apply State.plantTx_keeps | with_reducible apply keeps_ite | split | dsimp only)

theorem execSnapshotRead_keeps {r : State} (a0 : BitVec 20) (a1 : State) (h : Keeps r a1) (t : State) (e : execSnapshotRead a0 a1 = .next t) : Keeps r t := by
  unfold execSnapshotRead at e
  injection e with e
  subst e
  repeat' (first | assumption | intro _ | with_reducible apply State.answer_keeps | with_reducible apply keeps_ite | split | dsimp only)

theorem execSnapshotWrite_keeps {r : State} (a0 : BitVec 20) (a1 : Word) (a2 : State) (h : Keeps r a2) (t : State) (e : execSnapshotWrite a0 a1 a2 = .next t) : Keeps r t := by
  unfold execSnapshotWrite at e
  injection e with e
  subst e
  repeat' (first | assumption | intro _ | with_reducible apply State.snapWrite_keeps | with_reducible apply keeps_ite | split | dsimp only)

theorem execSnapshotSwap_keeps {r : State} (a0 : State) (h : Keeps r a0) (t : State) (e : execSnapshotSwap a0 = .next t) : Keeps r t := by
  unfold execSnapshotSwap at e
  injection e with e
  subst e
  repeat' (first | assumption | intro _ | with_reducible apply State.snapSwap_keeps | with_reducible apply keeps_ite | split | dsimp only)

end Sys2Proof.Machine
end

