-- ==== Sys2Proof/Laws/KeepsOps5.lean ====
section
/-! SUPPORT. Every operation of the files Pins, Fids, BlockWrite, KnotCommit, Loop, Release, Bus, CorePath, Exc, IsaBase, IsaScalar keeps what `Keeps` says: the queue, canonical stores, the free
counter and the fuses. -/

namespace Sys2Proof.Machine

theorem State.pinReject_keeps {r : State} (a0 : State) (a1 : Nat) (h : Keeps r a0) : Keeps r (State.pinReject a0 a1) := by
  unfold State.pinReject
  extract_lets -merge -useContext +onlyGivenNames z0
  have hz0 : Keeps r z0 := by
    unfold z0
    refine State.raise_keeps _ _ ?_
    exact h
  clear_value z0
  refine keeps_ite _ ?_ ?_
  · exact hz0
  · refine State.raise_keeps _ _ ?_
    refine State.set_keeps _ _ _ ?_
    exact hz0

theorem State.pinTake_keeps {r : State} (a0 : State) (a1 : Nat) (h : Keeps r a0) : Keeps r ((State.pinTake a0 a1).2) := by
  unfold State.pinTake
  extract_lets -merge -useContext +onlyGivenNames z0
  clear_value z0
  extract_lets -merge -useContext +onlyGivenNames z1
  clear_value z1
  refine keeps_ite2 _ ?_ ?_
  · refine keeps_snd ?_
    exact h
  · refine keeps_ite2 _ ?_ ?_
    · refine keeps_snd ?_
      refine State.raise_keeps _ _ ?_
      exact h
    · refine keeps_ite2 _ ?_ ?_
      · refine keeps_snd ?_
        refine State.pinReject_keeps _ _ ?_
        exact h
      · extract_lets -merge -useContext +onlyGivenNames z2
        clear_value z2
        extract_lets -merge -useContext +onlyGivenNames z3
        have hz3 : Keeps r z3 := by
          unfold z3
          refine State.setActReg_keeps _ _ _ ?_
          exact h
        clear_value z3
        extract_lets -merge -useContext +onlyGivenNames z4
        extract_lets -merge -useContext +onlyGivenNames z5
        have hz5 : Keeps r z5 := by
          unfold z5
          refine keeps_ite _ ?_ ?_
          · exact hz3
          · refine keeps_pwr ?_ _ (fun y => y)
            exact hz3
        clear_value z5
        refine keeps_snd ?_
        exact hz5

theorem State.pinCommit_keeps {r : State} (a0 : State) (h : Keeps r a0) : Keeps r (State.pinCommit a0) := by
  unfold State.pinCommit
  refine keeps_forN ?_ _ _ ?_
  · exact h
  · intro w0_0 w0_1 hw0
    refine State.pinTake_keeps _ _ ?_
    exact hw0

theorem State.pinBoundary_keeps {r : State} (a0 : State) (a1 : Nat) (h : Keeps r a0) : Keeps r (State.pinBoundary a0 a1) := by
  unfold State.pinBoundary
  refine keeps_ite _ ?_ ?_
  · refine State.set_keeps _ _ _ ?_
    refine State.pinCommit_keeps _ ?_
    refine State.clr_keeps _ _ ?_
    exact h
  · exact h

theorem State.pinRestEnd_keeps {r : State} (a0 : State) (a1 : Nat) (h : Keeps r a0) : Keeps r (State.pinRestEnd a0 a1) := by
  unfold State.pinRestEnd
  refine keeps_pwr ?_ _ (fun y => y)
  exact h

theorem State.pinWord_keeps {r : State} (a0 : State) (a1 : Nat) (a2 : Nat) (a3 : Nat) (h : Keeps r a0) : Keeps r ((State.pinWord a0 a1 a2 a3).2) := by
  unfold State.pinWord
  extract_lets -merge -useContext +onlyGivenNames z0
  clear_value z0
  refine keeps_ite2 _ ?_ ?_
  · refine keeps_snd ?_
    refine State.pinReject_keeps _ _ ?_
    exact h
  · extract_lets -merge -useContext +onlyGivenNames z1
    have hz1 : Keeps r z1 := by
      unfold z1
      refine keeps_ite _ ?_ ?_
      · refine State.raise_keeps _ _ ?_
        exact h
      · exact h
    clear_value z1
    extract_lets -merge -useContext +onlyGivenNames z2
    have hz2 : Keeps r z2 := by
      unfold z2
      refine State.set_keeps _ _ _ ?_
      refine State.set_keeps _ _ _ ?_
      exact hz1
    clear_value z2
    refine keeps_snd ?_
    refine State.setReg_keeps _ _ _ ?_
    exact hz2

theorem State.pinWrite_keeps {r : State} (a0 : State) (a1 : Nat) (a2 : Nat) (h : Keeps r a0) : Keeps r ((State.pinWrite a0 a1 a2).2) := by
  rw [State.pinWrite]
  refine keeps_ite2 _ (keeps_ite2 _ ?_ ?_) (keeps_ite2 _ ?_ ?_)
  · refine keeps_snd ?_
    exact State.pinReject_keeps _ _ h
  · refine keeps_snd ?_
    exact State.setReg_keeps _ _ _ (State.set_keeps _ _ _ (State.set_keeps _ _ _ (keeps_ite _ (State.raise_keeps _ _ h) h)))
  · refine keeps_snd ?_
    have h1 := keeps_ite (bit a2 1 = true) (State.pinCommit_keeps _ h) h
    exact keeps_ite _ (State.raise_keeps _ _ h1) h1
  · refine keeps_snd ?_
    exact h

theorem execPinSwitchRestEnd_keeps {r : State} (a0 : Fin 488) (a1 : State) (h : Keeps r a1) (t : State) (e : execPinSwitchRestEnd a0 a1 = .next t) : Keeps r t := by
  unfold execPinSwitchRestEnd at e
  injection e with e
  subst e
  repeat' (first | assumption | intro _ | with_reducible apply State.pinRestEnd_keeps | with_reducible apply keeps_ite | split | dsimp only)

theorem State.modFid_keeps {r : State} (a0 : State) (a1 : Fids → Fids) (h : Keeps r a0) : Keeps r (State.modFid a0 a1) := by
  unfold State.modFid
  refine keeps_fid ?_ _
  exact h

theorem State.setFidSlot_keeps {r : State} (a0 : State) (a1 : Nat) (a2 : FidSlot) (h : Keeps r a0) : Keeps r (State.setFidSlot a0 a1 a2) := by
  unfold State.setFidSlot
  refine State.modFid_keeps _ _ ?_
  exact h

theorem State.fidUnlock_keeps {r : State} (a0 : State) (a1 : Nat) (h : Keeps r a0) : Keeps r (State.fidUnlock a0 a1) := by
  unfold State.fidUnlock
  extract_lets -merge -useContext +onlyGivenNames z0
  clear_value z0
  refine keeps_ite _ ?_ ?_
  · refine State.modFid_keeps _ _ ?_
    exact h
  · extract_lets -merge -useContext +onlyGivenNames z1
    have hz1 : Keeps r z1 := by
      unfold z1
      refine State.modFid_keeps _ _ ?_
      exact h
    clear_value z1
    refine keeps_ite _ ?_ ?_
    · refine State.modFid_keeps _ _ ?_
      refine State.raise_keeps _ _ ?_
      exact hz1
    · exact hz1

theorem State.fidStop_keeps {r : State} (a0 : State) (a1 : Nat) (h : Keeps r a0) : Keeps r (State.fidStop a0 a1) := by
  unfold State.fidStop
  refine keeps_ite _ ?_ ?_
  · refine State.set_keeps _ _ _ ?_
    refine State.clr_keeps _ _ ?_
    refine State.setFidSlot_keeps _ _ _ ?_
    exact h
  · exact h

theorem State.fidDisarm_keeps {r : State} (a0 : State) (h : Keeps r a0) : Keeps r (State.fidDisarm a0) := by
  unfold State.fidDisarm
  extract_lets -merge -useContext +onlyGivenNames z0
  have hz0 : Keeps r z0 := by
    unfold z0
    refine State.modFid_keeps _ _ ?_
    refine State.clr_keeps _ _ ?_
    exact h
  clear_value z0
  refine keeps_forN ?_ _ _ ?_
  · exact hz0
  · intro w1_0 w1_1 hw1
    refine State.fidStop_keeps _ _ ?_
    exact hw1

theorem State.fidFinish_keeps {r : State} (a0 : State) (a1 : Nat) (h : Keeps r a0) : Keeps r (State.fidFinish a0 a1) := by
  unfold State.fidFinish
  refine keeps_ite _ ?_ ?_
  · refine State.set_keeps _ _ _ ?_
    refine State.clr_keeps _ _ ?_
    refine State.setFidSlot_keeps _ _ _ ?_
    exact h
  · exact h

theorem State.fidMiss_keeps {r : State} (a0 : State) (a1 : Nat) (a2 : Nat) (h : Keeps r a0) : Keeps r (State.fidMiss a0 a1 a2) := by
  unfold State.fidMiss
  refine State.countK_keeps _ _ _ ?_
  exact h

theorem State.fidSkip_keeps {r : State} (a0 : State) (a1 : Nat) (h : Keeps r a0) : Keeps r (State.fidSkip a0 a1) := by
  unfold State.fidSkip
  extract_lets -merge -useContext +onlyGivenNames z0
  clear_value z0
  extract_lets -merge -useContext +onlyGivenNames z1
  clear_value z1
  extract_lets -merge -useContext +onlyGivenNames z2
  clear_value z2
  extract_lets -merge -useContext +onlyGivenNames z3
  clear_value z3
  refine State.setFidSlot_keeps _ _ _ ?_
  refine State.fidMiss_keeps _ _ _ ?_
  exact h

theorem State.fidGo_keeps {r : State} (a0 : State) (a1 : Nat) (h : Keeps r a0) : Keeps r (State.fidGo a0 a1) := by
  unfold State.fidGo
  extract_lets -merge -useContext +onlyGivenNames z0
  clear_value z0
  refine keeps_ite _ ?_ ?_
  · exact h
  · refine keeps_ite _ ?_ ?_
    · refine State.set_keeps _ _ _ ?_
      exact h
    · refine keeps_ite _ ?_ ?_
      · refine State.set_keeps _ _ _ ?_
        exact h
      · refine keeps_ite _ ?_ ?_
        · refine State.set_keeps _ _ _ ?_
          exact h
        · extract_lets -merge -useContext +onlyGivenNames z1
          have hz1 : Keeps r z1 := by
            unfold z1
            refine State.raise_keeps _ _ ?_
            refine State.setReg_keeps _ _ _ ?_
            exact h
          clear_value z1
          refine State.fidFinish_keeps _ _ ?_
          refine State.fidSkip_keeps _ _ ?_
          exact hz1

theorem State.fidCtrlW_keeps {r : State} (a0 : State) (a1 : Nat) (a2 : Nat) (h : Keeps r a0) : Keeps r (State.fidCtrlW a0 a1 a2) := by
  unfold State.fidCtrlW
  extract_lets -merge -useContext +onlyGivenNames z0
  have hz0 : Keeps r z0 := by
    unfold z0
    refine keeps_ite _ ?_ ?_
    · refine State.fidStop_keeps _ _ ?_
      exact h
    · exact h
  clear_value z0
  extract_lets -merge -useContext +onlyGivenNames z1
  have hz1 : Keeps r z1 := by
    unfold z1
    refine State.set_keeps _ _ _ ?_
    exact hz0
  clear_value z1
  refine keeps_ite _ ?_ ?_
  · refine State.fidGo_keeps _ _ ?_
    exact hz1
  · exact hz1

theorem State.fidWrite_keeps {r : State} (a0 : State) (a1 : Nat) (a2 : Nat) (h : Keeps r a0) : Keeps r (State.fidWrite a0 a1 a2) := by
  unfold State.fidWrite
  refine keeps_ite _ ?_ ?_
  · refine State.fidUnlock_keeps _ _ ?_
    exact h
  · refine keeps_ite _ ?_ ?_
    · refine keeps_ite _ ?_ ?_
      · refine State.fidDisarm_keeps _ ?_
        exact h
      · exact h
    · refine keeps_ite _ ?_ ?_
      · refine State.set_keeps _ _ _ ?_
        exact h
      · refine keeps_ite _ ?_ ?_
        · refine State.set_keeps _ _ _ ?_
          exact h
        · refine keeps_ite _ ?_ ?_
          · extract_lets -merge -useContext +onlyGivenNames z0
            clear_value z0
            split
            · refine State.set_keeps _ _ _ ?_
              exact h
            · refine State.fidCtrlW_keeps _ _ _ ?_
              exact h
            · refine State.set_keeps _ _ _ ?_
              exact h
            · refine State.set_keeps _ _ _ ?_
              exact h
            · refine State.set_keeps _ _ _ ?_
              refine State.set_keeps _ _ _ ?_
              exact h
            · exact h
          · exact h

theorem State.axWrite_keeps {r : State} (a0 : State) (a1 : Nat) (a2 : Nat) (h : Keeps r a0) : Keeps r ((State.axWrite a0 a1 a2).2) := by
  unfold State.axWrite
  extract_lets -merge -useContext +onlyGivenNames z0
  clear_value z0
  split
  · refine keeps_snd ?_
    refine State.axStatusW_keeps _ _ _ ?_
    exact h
  · refine keeps_snd ?_
    refine keeps_ite _ ?_ ?_
    · refine State.axCntclr_keeps _ _ ?_
      exact h
    · exact h
  · extract_lets -merge -useContext +onlyGivenNames z1
    have hz1 : Keeps r z1 := by
      unfold z1
      refine State.storeWrite_keeps _ _ _ ?_
      exact h
    clear_value z1
    refine keeps_snd ?_
    refine keeps_ite _ ?_ ?_
    · refine State.modAx_keeps _ _ _ ?_
      exact hz1
    · exact hz1
  · refine keeps_ite2 _ ?_ ?_
    · refine keeps_snd ?_
      refine State.plainWrite_keeps _ _ _ ?_
      exact h
    · refine keeps_snd ?_
      exact h
  · refine keeps_ite2 _ ?_ ?_
    · refine keeps_snd ?_
      refine State.plainWrite_keeps _ _ _ ?_
      exact h
    · refine keeps_snd ?_
      exact h
  · refine keeps_snd ?_
    refine State.plainWrite_keeps _ _ _ ?_
    exact h

theorem State.pcCntclr_keeps {r : State} (a0 : State) (a1 : Nat) (h : Keeps r a0) : Keeps r (State.pcCntclr a0 a1) := by
  unfold State.pcCntclr
  refine State.clr_keeps _ _ ?_
  refine State.clr_keeps _ _ ?_
  refine State.clr_keeps _ _ ?_
  exact h

theorem State.shotCtl_keeps {r : State} (a0 : State) (a1 : Nat) (a2 : Nat) (h : Keeps r a0) : Keeps r (State.shotCtl a0 a1 a2) := by
  unfold State.shotCtl
  extract_lets -merge -useContext +onlyGivenNames z0
  have hz0 : Keeps r z0 := by
    unfold z0
    refine keeps_ite _ ?_ ?_
    · refine State.shotFlush_keeps _ _ ?_
      exact h
    · exact h
  clear_value z0
  refine keeps_ite _ ?_ ?_
  · refine State.shotStop_keeps _ _ ?_
    exact hz0
  · exact hz0

theorem State.pcWrite_keeps {r : State} (a0 : State) (a1 : Requester) (a2 : Nat) (a3 : Nat) (h : Keeps r a0) : Keeps r (State.pcWrite a0 a1 a2 a3) := by
  unfold State.pcWrite
  extract_lets -merge -useContext +onlyGivenNames z0
  clear_value z0
  extract_lets -merge -useContext +onlyGivenNames z1
  have hz1 : Keeps r z1 := by
    unfold z1
    refine State.dwellTouch_keeps _ _ _ ?_
    exact h
  clear_value z1
  split
  · refine State.chanEnable_keeps _ _ _ ?_
    refine State.setReg_keeps _ _ _ ?_
    exact hz1
  · extract_lets -merge -useContext +onlyGivenNames z2
    clear_value z2
    refine State.evalAround_keeps _ _ ?_
    refine State.setReg_keeps _ _ _ ?_
    exact hz1
  · refine State.thaw_keeps _ _ ?_
    refine State.plainWrite_keeps _ _ _ ?_
    exact hz1
  · refine State.evalAround_keeps _ _ ?_
    refine State.set_keeps _ _ _ ?_
    exact hz1
  · refine State.set_keeps _ _ _ ?_
    exact hz1
  · refine State.shotPush_keeps _ _ _ ?_
    exact hz1
  · refine State.shotCtl_keeps _ _ _ ?_
    exact hz1
  · refine keeps_ite _ ?_ ?_
    · refine State.pcCntclr_keeps _ _ ?_
      exact hz1
    · exact hz1
  · refine State.plainWrite_keeps _ _ _ ?_
    exact hz1

theorem State.hgCntclr_keeps {r : State} (a0 : State) (a1 : Nat) (h : Keeps r a0) : Keeps r (State.hgCntclr a0 a1) := by
  unfold State.hgCntclr
  refine keeps_forN ?_ _ _ ?_
  · exact h
  · intro w0_0 w0_1 hw0
    refine State.setReg_keeps _ _ _ ?_
    exact hw0

theorem State.hgWrite_keeps {r : State} (a0 : State) (a1 : Nat) (a2 : Nat) (h : Keeps r a0) : Keeps r (State.hgWrite a0 a1 a2) := by
  unfold State.hgWrite
  extract_lets -merge -useContext +onlyGivenNames z0
  clear_value z0
  split
  · refine State.evalChan_keeps _ _ ?_
    refine State.storeWrite_keeps _ _ _ ?_
    exact h
  · refine State.syncGroup_keeps _ _ ?_
    refine State.evalChan_keeps _ _ ?_
    refine State.setReg_keeps _ _ _ ?_
    exact h
  · refine keeps_ite _ ?_ ?_
    · refine State.hgCntclr_keeps _ _ ?_
      exact h
    · exact h
  · refine State.plainWrite_keeps _ _ _ ?_
    exact h

theorem State.domWrite_keeps {r : State} (a0 : State) (a1 : Nat) (a2 : Nat) (h : Keeps r a0) : Keeps r ((State.domWrite a0 a1 a2).2) := by
  unfold State.domWrite
  refine keeps_ite2 _ ?_ ?_
  · refine keeps_ite2 _ ?_ ?_
    · refine keeps_snd ?_
      exact h
    · refine keeps_snd ?_
      refine State.set_keeps _ _ _ ?_
      exact h
  · refine keeps_ite2 _ ?_ ?_
    · extract_lets -merge -useContext +onlyGivenNames z0
      have hz0 : Keeps r z0 := by
        unfold z0
        refine State.storeWrite_keeps _ _ _ ?_
        exact h
      clear_value z0
      refine keeps_snd ?_
      refine keeps_ite _ ?_ ?_
      · refine State.fuseProgram_keeps _ ?_
        exact hz0
      · exact hz0
    · refine keeps_ite2 _ ?_ ?_
      · refine keeps_snd ?_
        refine keeps_ite _ ?_ ?_
        · refine State.mramWrite_keeps _ ?_
          exact h
        · exact h
      · refine keeps_snd ?_
        refine State.plainWrite_keeps _ _ _ ?_
        exact h

theorem State.softReport_keeps {r : State} (a0 : State) (a1 : Nat) (a2 : Nat) (h : Keeps r a0) : Keeps r (State.softReport a0 a1 a2) := by
  unfold State.softReport
  refine State.report_keeps _ _ _ _ _ ?_
  exact h

theorem State.llWrite_keeps {r : State} (a0 : State) (a1 : Nat) (a2 : Nat) (h : Keeps r a0) : Keeps r (State.llWrite a0 a1 a2) := by
  unfold State.llWrite
  refine keeps_ite _ ?_ ?_
  · extract_lets -merge -useContext +onlyGivenNames z0
    have hz0 : Keeps r z0 := by
      unfold z0
      refine State.set_keeps _ _ _ ?_
      exact h
    clear_value z0
    refine State.readStart_keeps _ _ _ ?_
    exact hz0
  · refine keeps_ite _ ?_ ?_
    · refine keeps_ite _ ?_ ?_
      · refine State.eraseGo_keeps _ _ ?_
        exact h
      · refine State.set_keeps _ _ _ ?_
        exact h
    · refine keeps_ite _ ?_ ?_
      · exact h
      · refine keeps_ite _ ?_ ?_
        · extract_lets -merge -useContext +onlyGivenNames z1
          clear_value z1
          split
          · extract_lets -merge -useContext +onlyGivenNames z2
            have hz2 : Keeps r z2 := by
              unfold z2
              refine State.set_keeps _ _ _ ?_
              exact h
            clear_value z2
            refine keeps_ite _ ?_ ?_
            · refine State.softReport_keeps _ _ _ ?_
              exact hz2
            · exact hz2
          · extract_lets -merge -useContext +onlyGivenNames z3
            have hz3 : Keeps r z3 := by
              unfold z3
              refine State.set_keeps _ _ _ ?_
              exact h
            clear_value z3
            refine State.readStart_keeps _ _ _ ?_
            exact hz3
          · refine State.storeWrite_keeps _ _ _ ?_
            exact h
        · refine State.storeWrite_keeps _ _ _ ?_
          exact h

theorem State.restoreFirst_keeps {r : State} (a0 : State) (a1 : Nat) (a2 : Nat) (h : Keeps r a0) : Keeps r (State.restoreFirst a0 a1 a2) := by
  unfold State.restoreFirst
  extract_lets -merge -useContext +onlyGivenNames z0
  clear_value z0
  refine keeps_ite _ ?_ ?_
  · refine State.restoreSaved_keeps _ ?_
    exact h
  · exact h

theorem State.mirrorSlot_keeps {r : State} (a0 : State) (a1 : State) (a2 : Nat) (h : Keeps r a0) : Keeps r (State.mirrorSlot a0 a1 a2) := by
  unfold State.mirrorSlot
  refine keeps_ite _ ?_ ?_
  · refine State.mirrorKnot_keeps _ _ _ ?_
    exact h
  · exact h

theorem State.knotWrite_keeps {r : State} (a0 : State) (a1 : Nat) (a2 : Nat) (a3 : Nat) (h : Keeps r a0) : Keeps r ((State.knotWrite a0 a1 a2 a3).2) := by
  unfold State.knotWrite
  extract_lets -merge -useContext +onlyGivenNames z0
  have hz0 : Keeps r z0.2 := by
    unfold z0
    refine State.keWrite_keeps _ _ _ _ ?_
    exact h
  clear_value z0
  refine keeps_snd ?_
  refine State.mirrorSlot_keeps _ _ _ ?_
  exact hz0

theorem State.blockWrite_keeps {r : State} (a0 : State) (a1 : Requester) (a2 : Nat) (a3 : Nat) (h : Keeps r a0) : Keeps r ((State.blockWrite a0 a1 a2 a3).2) := by
  unfold State.blockWrite
  split
  · refine keeps_snd ?_
    exact h
  · split
    · refine State.axWrite_keeps _ _ _ ?_
      exact h
    · refine keeps_snd ?_
      refine State.pcWrite_keeps _ _ _ _ ?_
      exact h
    · refine keeps_snd ?_
      refine State.hgWrite_keeps _ _ _ ?_
      exact h
    · refine keeps_snd ?_
      refine State.ringWrite_keeps _ _ _ ?_
      refine State.restoreFirst_keeps _ _ _ ?_
      exact h
    · refine State.dspWrite_keeps _ _ _ _ ?_
      exact h
    · refine State.knotWrite_keeps _ _ _ _ ?_
      exact h
    · refine keeps_snd ?_
      refine State.tbWrite_keeps _ _ _ ?_
      exact h
    · refine keeps_snd ?_
      refine State.tioWrite_keeps _ _ _ ?_
      exact h
    · refine keeps_snd ?_
      refine State.belWrite_keeps _ _ _ ?_
      exact h
    · refine keeps_snd ?_
      refine State.dxWrite_keeps _ _ _ ?_
      exact h
    · refine keeps_snd ?_
      refine State.llWrite_keeps _ _ _ ?_
      exact h
    · refine keeps_snd ?_
      refine State.fidWrite_keeps _ _ _ ?_
      exact h
    · refine keeps_snd ?_
      refine State.pmuWrite_keeps _ _ _ _ ?_
      exact h
    · refine State.pinWrite_keeps _ _ _ ?_
      exact h
    · refine State.domWrite_keeps _ _ _ ?_
      exact h
    · refine keeps_snd ?_
      refine State.snpWrite_keeps _ _ _ _ ?_
      exact h
    · refine State.pcieWrite_keeps _ _ _ ?_
      exact h
    · refine keeps_snd ?_
      exact h

theorem State.readDoneAt_keeps {r : State} (a0 : State) (a1 : Range) (a2 : Nat) (h : Keeps r a0) : Keeps r (State.readDoneAt a0 a1 a2) := by
  unfold State.readDoneAt
  extract_lets -merge -useContext +onlyGivenNames z0
  have hz0 : Keeps r z0 := by
    unfold z0
    refine keeps_ite _ ?_ ?_
    · refine State.burn_keeps _ ?_
      exact h
    · exact h
  clear_value z0
  extract_lets -merge -useContext +onlyGivenNames z1
  have hz1 : Keeps r z1 := by
    unfold z1
    refine State.readEffect_keeps _ _ ?_
    exact hz0
  clear_value z1
  split
  · refine State.timReadEffect_keeps _ _ ?_
    exact hz1
  · refine State.timReadEffect_keeps _ _ ?_
    exact hz1
  · refine keeps_ite _ ?_ ?_
    · refine State.setReg_keeps _ _ _ ?_
      exact hz1
    · exact hz1
  · exact hz1

theorem State.blockRead_keeps {r : State} (a0 : State) (a1 : Range) (a2 : Nat) (h : Keeps r a0) : Keeps r ((State.blockRead a0 a1 a2).2) := by
  unfold State.blockRead
  split
  · refine keeps_snd ?_
    exact h
  · refine keeps_snd ?_
    refine State.readDoneAt_keeps _ _ _ ?_
    exact h

theorem State.ringTake_keeps {r : State} (a0 : State) (a1 : Nat) (h : Keeps r a0) : Keeps r ((State.ringTake a0 a1).2) := by
  unfold State.ringTake
  extract_lets -merge -useContext +onlyGivenNames z0
  clear_value z0
  refine keeps_ite2 _ ?_ ?_
  · refine State.takeTdom_keeps _ _ ?_
    exact h
  · refine keeps_ite2 _ ?_ ?_
    · refine State.takeSched_keeps _ _ ?_
      exact h
    · refine keeps_snd ?_
      refine State.take_keeps _ _ ?_
      exact h

theorem State.pcTake_keeps {r : State} (a0 : State) (a1 : Nat) (a2 : Nat) (h : Keeps r a0) : Keeps r ((State.pcTake a0 a1 a2).2) := by
  rw [State.pcTake]
  refine keeps_ite2 _ ?_ ?_
  · refine keeps_snd ?_
    exact State.set_keeps _ _ _ (State.pcTakeOne_keeps _ _ h)
  · refine keeps_snd ?_
    exact State.pcTakeOne_keeps _ _ h

theorem State.hgTakeOne_keeps {r : State} (a0 : State) (a1 : Nat) (a2 : Nat) (h : Keeps r a0) : Keeps r ((State.hgTakeOne a0 a1 a2).2) := by
  rw [State.hgTakeOne]
  refine keeps_ite2 _ ?_ ?_
  · refine keeps_snd ?_
    exact State.set_keeps _ _ _ (State.hgTake_keeps _ _ _ h)
  · refine keeps_snd ?_
    exact State.hgTake_keeps _ _ _ h

theorem State.knotGroup_keeps {r : State} (a0 : State) (a1 : Nat) (a2 : Nat) (a3 : Nat) (h : Keeps r a0) : Keeps r ((State.knotGroup a0 a1 a2 a3).2) := by
  unfold State.knotGroup
  extract_lets -merge -useContext +onlyGivenNames z0
  have hz0 : Keeps r z0.2 := by
    unfold z0
    refine State.axTake_keeps _ _ _ _ ?_
    exact h
  clear_value z0
  refine keeps_ite2 _ ?_ ?_
  · refine keeps_snd ?_
    refine State.cmtErr_keeps _ _ _ _ ?_
    refine State.raise_keeps _ _ ?_
    exact h
  · refine keeps_ite2 _ ?_ ?_
    · refine keeps_snd ?_
      exact hz0
    · refine keeps_snd ?_
      refine State.cmtErr_keeps _ _ _ _ ?_
      exact hz0

theorem State.applyGroups_keeps {r : State} (a0 : State) (a1 : Nat) (a2 : Nat) (a3 : List Nat) (h : Keeps r a0) : Keeps r ((State.applyGroups a0 a1 a2 a3).2) := by
  unfold State.applyGroups
  refine keeps_foldl2 _ _ _ ?_ ?_
  · refine keeps_snd ?_
    exact h
  · intro w0_0 w0_1 hw0
    extract_lets -merge -useContext +onlyGivenNames z1
    have hz1 : Keeps r z1.2 := by
      unfold z1
      refine State.knotGroup_keeps _ _ _ _ ?_
      exact hw0
    clear_value z1
    refine keeps_snd ?_
    exact hz1

theorem State.takeStaged_keeps {r : State} (a0 : State) (a1 : Nat) (a2 : Nat) (h : Keeps r a0) : Keeps r ((State.takeStaged a0 a1 a2).2) := by
  unfold State.takeStaged
  split
  · extract_lets -merge -useContext +onlyGivenNames z0
    clear_value z0
    split
    · refine State.applyGroups_keeps _ _ _ _ ?_
      exact h
    · refine keeps_snd ?_
      exact h
  · refine State.pcTake_keeps _ _ _ ?_
    exact h
  · refine State.hgTakeOne_keeps _ _ _ ?_
    exact h
  · refine State.ringTake_keeps _ _ ?_
    exact h
  · refine State.pinTake_keeps _ _ ?_
    exact h
  · refine keeps_snd ?_
    refine State.take_keeps _ _ ?_
    exact h

theorem State.stageWord_keeps {r : State} (a0 : State) (a1 : Nat) (a2 : Nat) (h : Keeps r a0) : Keeps r (State.stageWord a0 a1 a2) := by
  unfold State.stageWord
  refine keeps_ite _ ?_ ?_
  · refine State.tbWrite_keeps _ _ _ ?_
    exact h
  · refine State.setReg_keeps _ _ _ ?_
    exact h

theorem State.applyWrite_keeps {r : State} (a0 : State) (a1 : Nat) (a2 : List Nat) (a3 : Nat) (h : Keeps r a0) : Keeps r ((State.applyWrite a0 a1 a2 a3).2) := by
  unfold State.applyWrite
  extract_lets -merge -useContext +onlyGivenNames z0
  clear_value z0
  extract_lets -merge -useContext +onlyGivenNames z1
  clear_value z1
  extract_lets -merge -useContext +onlyGivenNames z2
  clear_value z2
  extract_lets -merge -useContext +onlyGivenNames z3
  have hz3 : Keeps r z3.2 := by
    unfold z3
    refine keeps_ite2 _ ?_ ?_
    · refine keeps_snd ?_
      exact h
    · refine State.takeStaged_keeps _ _ _ ?_
      refine State.stageWord_keeps _ _ _ ?_
      exact h
  clear_value z3
  refine keeps_ite2 _ ?_ ?_
  · exact hz3
  · extract_lets -merge -useContext +onlyGivenNames z4
    clear_value z4
    extract_lets -merge -useContext +onlyGivenNames z5
    have hz5 : Keeps r z5.2 := by
      unfold z5
      refine State.blockWrite_keeps _ _ _ _ ?_
      exact hz3
    clear_value z5
    refine keeps_snd ?_
    exact hz5

theorem State.applyEntry_keeps {r : State} (a0 : State) (a1 : Nat) (a2 : List Nat) (a3 : Nat) (h : Keeps r a0) : Keeps r ((State.applyEntry a0 a1 a2 a3).2) := by
  unfold State.applyEntry
  extract_lets -merge -useContext +onlyGivenNames z0
  clear_value z0
  refine keeps_ite2 _ ?_ ?_
  · refine keeps_snd ?_
    exact h
  · split
    · refine State.applyWrite_keeps _ _ _ _ ?_
      exact h
    · refine State.applyGroups_keeps _ _ _ _ ?_
      exact h
    · refine State.applyGroups_keeps _ _ _ _ ?_
      refine State.raise_keeps _ _ ?_
      exact h
    · refine State.applyGroups_keeps _ _ _ _ ?_
      refine State.set_keeps _ _ _ ?_
      exact h
    · extract_lets -merge -useContext +onlyGivenNames z1
      clear_value z1
      extract_lets -merge -useContext +onlyGivenNames z2
      clear_value z2
      refine keeps_ite2 _ ?_ ?_
      · refine keeps_snd ?_
        refine keeps_forEach ?_ _ _ ?_
        · refine State.setNt_keeps _ _ _ _ ?_
          exact h
        · intro w3_0 w3_1 hw3
          refine State.modAx_keeps _ _ _ ?_
          exact hw3
      · refine keeps_snd ?_
        exact h
    · refine keeps_snd ?_
      exact h

theorem State.kRefused_keeps {r : State} (a0 : State) (a1 : Nat) (a2 : Nat) (a3 : List Nat) (h : Keeps r a0) : Keeps r (State.kRefused a0 a1 a2 a3) := by
  unfold State.kRefused
  refine State.report_keeps _ _ _ _ _ ?_
  refine State.kErr_keeps _ _ _ ?_
  refine State.raise_keeps _ _ ?_
  exact h

theorem State.tellErrors_keeps {r : State} (a0 : State) (a1 : State) (a2 : Nat) (h : Keeps r a0) : Keeps r (State.tellErrors a0 a1 a2) := by
  unfold State.tellErrors
  refine State.orF_keeps _ _ _ ?_
  refine State.setReg_keeps _ _ _ ?_
  exact h

theorem State.knotFailed_keeps {r : State} (a0 : State) (a1 : Nat) (a2 : KRun) (h : Keeps r a0) : Keeps r (State.knotFailed a0 a1 a2) := by
  unfold State.knotFailed
  refine State.knotVoid_keeps _ _ _ ?_
  refine keeps_forEach ?_ _ _ ?_
  · exact h
  · intro w0_0 w0_1 hw0
    refine State.tellErrors_keeps _ _ _ ?_
    exact hw0

theorem State.knotDecide_keeps {r : State} (a0 : State) (a1 : Nat) (h : Keeps r a0) : Keeps r (State.knotDecide a0 a1) := by
  unfold State.knotDecide
  refine keeps_ite _ ?_ ?_
  · exact h
  · refine keeps_ite _ ?_ ?_
    · refine State.mirrorKnot_keeps _ _ _ ?_
      refine State.knotVoid_keeps _ _ _ ?_
      refine State.kDecision_keeps _ _ _ ?_
      exact h
    · extract_lets -merge -useContext +onlyGivenNames z0
      clear_value z0
      refine keeps_ite _ ?_ ?_
      · refine State.mirrorKnot_keeps _ _ _ ?_
        refine State.knotFailed_keeps _ _ _ ?_
        refine State.kDecision_keeps _ _ _ ?_
        exact h
      · refine State.mirrorKnot_keeps _ _ _ ?_
        refine State.setKState_keeps _ _ _ ?_
        refine State.kDecision_keeps _ _ _ ?_
        exact h

theorem KRun.entry_keeps {r : State} (p : KRun) (k c : Nat) (d : Bool) (e : List Nat) (h : Keeps r p.s) :
    Keeps r (p.entry k c d e).s := by
  have h1 : Keeps r (p.s.applyEntry k e c).2 := State.applyEntry_keeps _ _ _ _ h
  unfold KRun.entry
  extract_lets t
  split
  · exact h1
  · exact h1
  · exact h1
  · exact State.kRefused_keeps _ _ _ _ h1
  · split
    · exact State.kRefused_keeps _ _ _ _ h1
    · exact h1

theorem State.applyKnot_keeps {r : State} (s : State) (k c : Nat) (d : Bool) (h : Keeps r s) : Keeps r (s.applyKnot k c d).s := by
  unfold State.applyKnot
  suffices ∀ (l : List (List Nat)) (p : KRun), Keeps r p.s → Keeps r (l.foldl (fun p e => p.entry k c d e) p).s from
    this _ _ h
  intro l
  induction l with
  | nil => exact fun _ h => h
  | cons e l ih => exact fun p h => ih _ (KRun.entry_keeps p k c d e h)

theorem State.knotApply_keeps {r : State} (a0 : State) (a1 : Nat) (a2 : Nat) (h : Keeps r a0) : Keeps r (State.knotApply a0 a1 a2) := by
  unfold State.knotApply
  exact State.modKnot_keeps _ _ _ (State.applyKnot_keeps _ _ _ _ h)

theorem State.knotCommit_keeps {r : State} (a0 : State) (a1 : Nat) (a2 : Nat) (h : Keeps r a0) : Keeps r (State.knotCommit a0 a1 a2) := by
  unfold State.knotCommit
  refine keeps_ite _ ?_ (State.knotApply_keeps _ _ _ h)
  exact keeps_ite _ (State.knotFailed_keeps _ _ _ h) (State.knotEnd_keeps _ _ _ (State.applyKnot_keeps _ _ _ _ h))

theorem State.knotStandby_keeps {r : State} (a0 : State) (a1 : Nat) (h : Keeps r a0) : Keeps r (State.knotStandby a0 a1) := by
  unfold State.knotStandby
  refine keeps_ite _ ?_ ?_
  · exact h
  · refine keeps_forEach ?_ _ _ ?_
    · exact h
    · intro w0_0 w0_1 hw0
      split
      · extract_lets -merge -useContext +onlyGivenNames z1
        clear_value z1
        refine keeps_ite _ ?_ ?_
        · exact hw0
        · extract_lets -merge -useContext +onlyGivenNames z2
          have hz2 : Keeps r z2 := by
            unfold z2
            refine State.modDx_keeps _ _ ?_
            exact hw0
          clear_value z2
          refine keeps_ite _ ?_ ?_
          · refine State.knotApply_keeps _ _ _ ?_
            exact hz2
          · exact hz2
      · exact hw0

theorem State.knotBoundary_keeps {r : State} (a0 : State) (a1 : Nat) (h : Keeps r a0) : Keeps r (State.knotBoundary a0 a1) := by
  unfold State.knotBoundary
  refine State.knotStandby_keeps _ _ ?_
  refine keeps_forEach ?_ _ _ ?_
  · exact h
  · intro w0_0 w0_1 hw0
    refine State.knotCommit_keeps _ _ _ ?_
    exact hw0

theorem State.busVolts_keeps {r : State} (a0 : State) (a1 : Nat) (h : Keeps r a0) : FMK r (fun x => x.2) (State.busVolts a0 a1) := by
  unfold State.busVolts
  refine fm_bind ?_
  intro w0_0
  refine fm_bind ?_
  intro w1_0
  extract_lets -merge -useContext +onlyGivenNames z2
  clear_value z2
  refine fm_pure ?_
  refine keeps_ite2 _ ?_ ?_
  · refine keeps_snd ?_
    refine State.raise_keeps _ _ ?_
    exact h
  · refine keeps_snd ?_
    exact h

theorem State.notch_keeps {r : State} (a0 : State) (a1 : Nat) (a2 : Nat) (a3 : Word) (h : Keeps r a0) : FMK r (fun x => x.2) (State.notch a0 a1 a2 a3) := by
  unfold State.notch
  extract_lets -merge -useContext +onlyGivenNames z0
  clear_value z0
  refine fm_bind ?_
  intro w1_0
  refine fm_pure ?_
  refine keeps_snd ?_
  refine State.modAx_keeps _ _ _ ?_
  exact h

theorem State.filtered_keeps {r : State} (a0 : State) (a1 : Nat) (a2 : Word) (h : Keeps r a0) : FMK r (fun x => x.2) (State.filtered a0 a1 a2) := by
  unfold State.filtered
  refine fm_bindS (fun x => x.2) ?_ ?_
  · refine State.notch_keeps _ _ _ _ ?_
    exact h
  · intro w0_0 hw0
    have hd1 : Keeps r (w0_0).2 := by
      exact hw0
    split
    · refine fm_bindS (fun x => x.2) ?_ ?_
      · refine State.notch_keeps _ _ _ _ ?_
        exact (by simp_all)
      · intro w2_0 hw2
        have hd3 : Keeps r (w2_0).2 := by
          exact hw2
        split
        · refine fm_bindS (fun x => x.2) ?_ ?_
          · refine State.notch_keeps _ _ _ _ ?_
            exact (by simp_all)
          · intro w4_0 hw4
            have hd5 : Keeps r (w4_0).2 := by
              exact hw4
            split
            · refine State.notch_keeps _ _ _ _ ?_
              exact (by simp_all)

theorem State.clearLoop_keeps {r : State} (a0 : State) (a1 : Nat) (h : Keeps r a0) : Keeps r (State.clearLoop a0 a1) := by
  unfold State.clearLoop
  refine State.modAx_keeps _ _ _ ?_
  exact h

theorem State.velLoop_keeps {r : State} (a0 : State) (a1 : Nat) (a2 : Casc) (a3 : Word) (a4 : Word) (a5 : Word) (a6 : Bool) (a7 : Exc) (h : Keeps r a0) : FMK r (fun x => x.2) (State.velLoop a0 a1 a2 a3 a4 a5 a6 a7) := by
  unfold State.velLoop
  extract_lets -merge -useContext +onlyGivenNames z0
  clear_value z0
  extract_lets -merge -useContext +onlyGivenNames z1
  clear_value z1
  extract_lets -merge -useContext +onlyGivenNames z2
  clear_value z2
  refine fm_bind ?_
  intro w3_0
  refine fm_bind ?_
  intro w4_0
  refine fm_bindS (fun x => x.2) ?_ ?_
  · refine State.notch_keeps _ _ _ _ ?_
    exact h
  · intro w5_0 hw5
    have hd6 : Keeps r (w5_0).2 := by
      exact hw5
    split
    · refine fm_bindS (fun x => x.2) ?_ ?_
      · refine State.notch_keeps _ _ _ _ ?_
        exact (by simp_all)
      · intro w7_0 hw7
        have hd8 : Keeps r (w7_0).2 := by
          exact hw7
        split
        · refine fm_bind ?_
          intro w9_0
          refine fm_bind ?_
          intro w10_0
          refine fm_bind ?_
          intro w11_0
          extract_lets -merge -useContext +onlyGivenNames z12
          clear_value z12
          refine fm_bind ?_
          intro w13_0
          refine fm_bindS (fun x => x) ?_ ?_
          · refine fm_ite _ ?_ ?_
            · refine fm_pure ?_
              exact (by simp_all)
            · refine fm_bind ?_
              intro w14_0
              refine fm_bind ?_
              intro w15_0
              refine fm_bind ?_
              intro w16_0
              refine fm_pure ?_
              refine State.modAx_keeps _ _ _ ?_
              exact (by simp_all)
          · intro w17_0 hw17
            extract_lets -merge -useContext +onlyGivenNames z18
            clear_value z18
            refine fm_pure ?_
            refine keeps_snd ?_
            exact hw17

theorem State.currentLoop_keeps {r : State} (a0 : State) (a1 : Nat) (a2 : Word) (a3 : Word) (a4 : Word) (a5 : Bool) (h : Keeps r a0) : FMK r (fun x => x.2) (State.currentLoop a0 a1 a2 a3 a4 a5) := by
  unfold State.currentLoop
  refine fm_bind ?_
  intro w0_0
  refine fm_bind ?_
  intro w1_0
  refine fm_bind ?_
  intro w2_0
  refine fm_bind ?_
  intro w3_0
  refine fm_bind ?_
  intro w4_0
  refine fm_bind ?_
  intro w5_0
  refine fm_bind ?_
  intro w6_0
  refine fm_bind ?_
  intro w7_0
  refine fm_bind ?_
  intro w8_0
  refine fm_bind ?_
  intro w9_0
  refine fm_bind ?_
  intro w10_0
  refine fm_bind ?_
  intro w11_0
  refine fm_bind ?_
  intro w12_0
  refine fm_bind ?_
  intro w13_0
  refine fm_bind ?_
  intro w14_0
  refine fm_bind ?_
  intro w15_0
  extract_lets -merge -useContext +onlyGivenNames z16
  clear_value z16
  refine fm_bind ?_
  intro w17_0
  refine fm_bind ?_
  intro w18_0
  refine fm_bind ?_
  intro w19_0
  refine fm_bind ?_
  intro w20_0
  refine fm_bind ?_
  intro w21_0
  refine fm_bind ?_
  intro w22_0
  refine fm_bind ?_
  intro w23_0
  refine fm_bind ?_
  intro w24_0
  refine fm_bind ?_
  intro w25_0
  refine fm_bind ?_
  intro w26_0
  refine fm_bind ?_
  intro w27_0
  refine fm_bind ?_
  intro w28_0
  refine fm_bind ?_
  intro w29_0
  extract_lets -merge -useContext +onlyGivenNames z30
  clear_value z30
  refine fm_bind ?_
  intro w31_0
  split
  · refine fm_bindS (fun x => x) ?_ ?_
    · refine fm_ite _ ?_ ?_
      · refine fm_pure ?_
        exact h
      · refine fm_bind ?_
        intro w32_0
        refine fm_bind ?_
        intro w33_0
        refine fm_bind ?_
        intro w34_0
        refine fm_bind ?_
        intro w35_0
        refine fm_bind ?_
        intro w36_0
        refine fm_bind ?_
        intro w37_0
        refine fm_pure ?_
        refine State.modAx_keeps _ _ _ ?_
        exact h
    · intro w38_0 hw38
      refine fm_bind ?_
      intro w39_0
      refine fm_bind ?_
      intro w40_0
      refine fm_bind ?_
      intro w41_0
      refine fm_bind ?_
      intro w42_0
      refine fm_bind ?_
      intro w43_0
      refine fm_bind ?_
      intro w44_0
      refine fm_bind ?_
      intro w45_0
      refine fm_bind ?_
      intro w46_0
      extract_lets -merge -useContext +onlyGivenNames z47
      clear_value z47
      refine fm_ite _ ?_ ?_
      · refine fm_bind ?_
        intro w48_0
        refine fm_bind ?_
        intro w49_0
        refine fm_pure ?_
        refine keeps_snd ?_
        exact hw38
      · refine fm_pure ?_
        refine keeps_snd ?_
        exact hw38

theorem State.postRelease_keeps {r : State} (a0 : State) (a1 : Nat) (a2 : Nat) (a3 : Int) (a4 : Word) (a5 : Bool) (a6 : List Nat) (a7 : List Nat) (h : Keeps r a0) : Keeps r (State.postRelease a0 a1 a2 a3 a4 a5 a6 a7) := by
  unfold State.postRelease
  extract_lets -merge -useContext +onlyGivenNames z0
  clear_value z0
  extract_lets -merge -useContext +onlyGivenNames z1
  clear_value z1
  extract_lets -merge -useContext +onlyGivenNames z2
  clear_value z2
  refine keeps_dsp ?_ _ (fun y => y)
  exact h

theorem State.strandFlags_keeps {r : State} (a0 : State) (a1 : Nat) (a2 : FFlags) (h : Keeps r a0) : Keeps r (State.strandFlags a0 a1 a2) := by
  unfold State.strandFlags
  refine State.modStrand_keeps _ _ _ ?_
  exact h

theorem State.clearNonfinite_keeps {r : State} (a0 : State) (a1 : Nat) (h : Keeps r a0) : Keeps r (State.clearNonfinite a0 a1) := by
  unfold State.clearNonfinite
  extract_lets -merge -useContext +onlyGivenNames z0
  clear_value z0
  refine State.modAx_keeps _ _ _ ?_
  exact h

theorem State.numFault_keeps {r : State} (a0 : State) (a1 : Nat) (h : Keeps r a0) : Keeps r (State.numFault a0 a1) := by
  unfold State.numFault
  refine State.report_keeps _ _ _ _ _ ?_
  refine State.clearNonfinite_keeps _ _ ?_
  refine State.count_keeps _ _ ?_
  refine State.raise_keeps _ _ ?_
  exact h

theorem State.markValid_keeps {r : State} (a0 : State) (a1 : Nat) (a2 : Nat) (a3 : Word) (h : Keeps r a0) : Keeps r (State.markValid a0 a1 a2 a3) := by
  unfold State.markValid
  refine State.modAx_keeps _ _ _ ?_
  refine State.set_keeps _ _ _ ?_
  exact h

theorem State.quiet_keeps {r : State} (a0 : State) (a1 : Nat) (h : Keeps r a0) : Keeps r (State.quiet a0 a1) := by
  unfold State.quiet
  refine State.modAx_keeps _ _ _ ?_
  refine State.clr_keeps _ _ ?_
  refine State.dropHitch_keeps _ _ ?_
  exact h

theorem State.activateNone_keeps {r : State} (a0 : State) (a1 : Nat) (a2 : When) (a3 : Word) (a4 : Bool) (h : Keeps r a0) : Keeps r (State.activateNone a0 a1 a2 a3 a4) := by
  unfold State.activateNone
  extract_lets -merge -useContext +onlyGivenNames z0
  clear_value z0
  extract_lets -merge -useContext +onlyGivenNames z1
  have hz1 : Keeps r z1 := by
    unfold z1
    refine State.quiet_keeps _ _ ?_
    refine keeps_ite _ ?_ ?_
    · refine State.raise_keeps _ _ ?_
      exact h
    · exact h
  clear_value z1
  refine State.publish_keeps _ _ _ _ _ _ _ _ _ ?_
  exact hz1

theorem State.activateOff_keeps {r : State} (a0 : State) (a1 : Nat) (a2 : When) (a3 : Word) (h : Keeps r a0) : Keeps r (State.activateOff a0 a1 a2 a3) := by
  unfold State.activateOff
  extract_lets -merge -useContext +onlyGivenNames z0
  have hz0 : Keeps r z0 := by
    unfold z0
    refine State.activateNone_keeps _ _ _ _ _ ?_
    exact h
  clear_value z0
  extract_lets -merge -useContext +onlyGivenNames z1
  clear_value z1
  refine State.postRelease_keeps _ _ _ _ _ _ _ _ ?_
  exact hz0

theorem State.activateInvalid_keeps {r : State} (a0 : State) (a1 : Nat) (a2 : When) (h : Keeps r a0) : Keeps r (State.activateInvalid a0 a1 a2) := by
  unfold State.activateInvalid
  extract_lets -merge -useContext +onlyGivenNames z0
  clear_value z0
  extract_lets -merge -useContext +onlyGivenNames z1
  clear_value z1
  extract_lets -merge -useContext +onlyGivenNames z2
  clear_value z2
  extract_lets -merge -useContext +onlyGivenNames z3
  have hz3 : Keeps r z3 := by
    unfold z3
    refine State.raise_keeps _ _ ?_
    exact h
  clear_value z3
  extract_lets -merge -useContext +onlyGivenNames z4
  have hz4 : Keeps r z4 := by
    unfold z4
    refine State.publish_keeps _ _ _ _ _ _ _ _ _ ?_
    exact hz3
  clear_value z4
  extract_lets -merge -useContext +onlyGivenNames z5
  have hz5 : Keeps r z5 := by
    unfold z5
    refine keeps_ite _ ?_ ?_
    · refine State.identActivation_keeps _ _ _ _ _ _ _ _ ?_
      exact hz4
    · exact hz4
  clear_value z5
  refine State.modAx_keeps _ _ _ ?_
  exact hz5

theorem State.servo_keeps {r : State} (a0 : State) (a1 : Nat) (a2 : When) (a3 : Intake) (a4 : Bool) (h : Keeps r a0) : FMK r (fun x => x) (State.servo a0 a1 a2 a3 a4) := by
  unfold State.servo
  extract_lets -merge -useContext +onlyGivenNames z0
  clear_value z0
  extract_lets -merge -useContext +onlyGivenNames z1
  have hz1 : Keeps r z1 := by
    unfold z1
    refine keeps_ite _ ?_ ?_
    · refine State.clearLoop_keeps _ _ ?_
      exact h
    · exact h
  clear_value z1
  refine fm_bindS (fun x => x.2) ?_ ?_
  · refine fm_ite _ ?_ ?_
    · refine State.filtered_keeps _ _ _ ?_
      exact hz1
    · refine fm_pure ?_
      refine keeps_snd ?_
      exact hz1
  · intro w2_0 hw2
    have hd3 : Keeps r (w2_0).2 := by
      exact hw2
    split
    · refine fm_bindS (fun x => x.1) ?_ ?_
      · refine State.reference_keeps _ _ _ _ ?_
        exact (by simp_all)
      · intro w4_0 hw4
        have hd5 : Keeps r (w4_0).1 := by
          exact hw4
        split
        · extract_lets -merge -useContext +onlyGivenNames z6
          clear_value z6
          extract_lets -merge -useContext +onlyGivenNames z7
          clear_value z7
          extract_lets -merge -useContext +onlyGivenNames z8
          clear_value z8
          refine fm_bindS (fun x => x.2) ?_ ?_
          · refine State.busVolts_keeps _ _ ?_
            exact (by simp_all)
          · intro w9_0 hw9
            have hd10 : Keeps r (w9_0).2 := by
              exact hw9
            split
            · refine fm_bind ?_
              intro w11_0
              extract_lets -merge -useContext +onlyGivenNames z12
              clear_value z12
              extract_lets -merge -useContext +onlyGivenNames z13
              clear_value z13
              refine fm_bind ?_
              intro w14_0
              extract_lets -merge -useContext +onlyGivenNames z15
              have hz15 : Keeps r z15 := by
                unfold z15
                refine keeps_ite _ ?_ ?_
                · refine State.repLost_keeps _ _ ?_
                  exact (by simp_all)
                · exact (by simp_all)
              clear_value z15
              refine fm_bindS (fun x => x.2) ?_ ?_
              · split
                · refine fm_ite _ ?_ ?_
                  · refine fm_pure ?_
                    refine keeps_snd ?_
                    exact hz15
                  · refine State.repRead_keeps _ _ _ ?_
                    exact hz15
                · refine fm_pure ?_
                  refine keeps_snd ?_
                  exact hz15
              · intro w16_0 hw16
                have hd17 : Keeps r (w16_0).2 := by
                  exact hw16
                split
                · refine fm_bindS (fun x => x.2) ?_ ?_
                  · refine fm_ite _ ?_ ?_
                    · refine fm_pure ?_
                      refine keeps_snd ?_
                      exact (by simp_all)
                    · refine fm_bind ?_
                      intro w18_0
                      split
                      · refine State.velLoop_keeps _ _ _ _ _ _ _ _ ?_
                        exact (by simp_all)
                  · intro w19_0 hw19
                    have hd20 : Keeps r (w19_0).2 := by
                      exact hw19
                    split
                    · refine fm_bindS (fun x => x.2) ?_ ?_
                      · refine fm_ite _ ?_ ?_
                        · refine fm_bind ?_
                          intro w21_0
                          refine fm_pure ?_
                          refine keeps_snd ?_
                          exact (by simp_all)
                        · refine State.currentLoop_keeps _ _ _ _ _ _ ?_
                          exact (by simp_all)
                      · intro w22_0 hw22
                        have hd23 : Keeps r (w22_0).2 := by
                          exact hw22
                        split
                        · extract_lets -merge -useContext +onlyGivenNames z24
                          clear_value z24
                          extract_lets -merge -useContext +onlyGivenNames z25
                          clear_value z25
                          extract_lets -merge -useContext +onlyGivenNames z26
                          clear_value z26
                          refine fm_bindS (fun x => x) ?_ ?_
                          · refine State.repUpdate_keeps _ _ _ ?_
                            exact (by simp_all)
                          · intro w27_0 hw27
                            refine fm_bindS (fun x => x) ?_ ?_
                            · refine fm_ite _ ?_ ?_
                              · refine fm_pure ?_
                                exact hw27
                              · refine fm_pure ?_
                                refine State.repDrop_keeps _ _ ?_
                                exact hw27
                            · intro w28_0 hw28
                              extract_lets -merge -useContext +onlyGivenNames z29
                              have hz29 : Keeps r z29 := by
                                unfold z29
                                refine State.publish_keeps _ _ _ _ _ _ _ _ _ ?_
                                exact hw28
                              clear_value z29
                              extract_lets -merge -useContext +onlyGivenNames z30
                              have hz30 : Keeps r z30 := by
                                unfold z30
                                refine keeps_ite _ ?_ ?_
                                · refine State.numFault_keeps _ _ ?_
                                  exact hz29
                                · refine State.postRelease_keeps _ _ _ _ _ _ _ _ ?_
                                  exact hz29
                              clear_value z30
                              extract_lets -merge -useContext +onlyGivenNames z31
                              clear_value z31
                              extract_lets -merge -useContext +onlyGivenNames z32
                              have hz32 : Keeps r z32 := by
                                unfold z32
                                refine keeps_ite _ ?_ ?_
                                · refine State.identActivation_keeps _ _ _ _ _ _ _ _ ?_
                                  exact hz30
                                · exact hz30
                              clear_value z32
                              refine fm_pure ?_
                              exact hz32

theorem State.stepperServo_keeps {r : State} (a0 : State) (a1 : Nat) (a2 : When) (a3 : Intake) (h : Keeps r a0) : FMK r (fun x => x) (State.stepperServo a0 a1 a2 a3) := by
  unfold State.stepperServo
  refine fm_bindS (fun x => x.1) ?_ ?_
  · refine State.reference_keeps _ _ _ _ ?_
    exact h
  · intro w0_0 hw0
    have hd1 : Keeps r (w0_0).1 := by
      exact hw0
    split
    · extract_lets -merge -useContext +onlyGivenNames z2
      have hz2 : Keeps r z2 := by
        unfold z2
        refine State.publish_keeps _ _ _ _ _ _ _ _ _ ?_
        exact (by simp_all)
      clear_value z2
      extract_lets -merge -useContext +onlyGivenNames z3
      clear_value z3
      refine fm_pure ?_
      refine State.postRelease_keeps _ _ _ _ _ _ _ _ ?_
      exact hz2

theorem State.activationStart_keeps {r : State} (a0 : State) (a1 : Nat) (h : Keeps r a0) : Keeps r (State.activationStart a0 a1) := by
  unfold State.activationStart
  refine State.refuseEntry_keeps _ _ ?_
  refine State.refuseBehindStop_keeps _ _ ?_
  refine State.identLeave_keeps _ _ ?_
  refine State.limDue_keeps _ _ _ ?_
  refine State.repCheck_keeps _ _ ?_
  exact h

theorem State.activateReal_keeps {r : State} (a0 : State) (a1 : Nat) (a2 : Nat) (h : Keeps r a0) : Keeps r (State.activateReal a0 a1 a2) := by
  unfold State.activateReal
  extract_lets -merge -useContext +onlyGivenNames z0 z1 z2 z3 z4
  have hz4 : Keeps r z4 := State.activationStart_keeps _ _ h
  clear_value z4
  extract_lets -merge -useContext +onlyGivenNames z5 z6
  refine keeps_ite _ (keeps_ite _ ?_ (State.activateInvalid_keeps _ _ _ hz4)) ?_
  · exact State.modAx_keeps _ _ _ (State.activateNone_keeps _ _ _ _ _ (State.raise_keeps _ _ hz4))
  extract_lets -merge -useContext +onlyGivenNames z7
  refine State.strandFlags_keeps _ _ _ ?_
  unfold z7
  refine fm_run (fun x => x) _ ?_
  refine fm_bind (fun ts => ?_)
  refine fm_bind (fun inp => ?_)
  refine fm_ite _ (fm_pure (State.markValid_keeps _ _ _ _ (State.activateOff_keeps _ _ _ _ hz4))) ?_
  refine fm_bindS (fun x => x) ?_ (fun s hs => fm_pure (State.markValid_keeps _ _ _ _ hs))
  exact fm_ite _ (State.stepperServo_keeps _ _ _ _ hz4) (State.servo_keeps _ _ _ _ _ hz4)

theorem State.activateVirtual_keeps {r : State} (a0 : State) (a1 : Nat) (a2 : Nat) (a3 : Nat) (a4 : Nat) (h : Keeps r a0) : Keeps r (State.activateVirtual a0 a1 a2 a3 a4) := by
  unfold State.activateVirtual
  extract_lets -merge -useContext +onlyGivenNames z0
  clear_value z0
  extract_lets -merge -useContext +onlyGivenNames z1
  clear_value z1
  extract_lets -merge -useContext +onlyGivenNames z2
  clear_value z2
  extract_lets -merge -useContext +onlyGivenNames z3
  have hz3 : Keeps r z3 := by
    unfold z3
    refine State.activationStart_keeps _ _ ?_
    refine State.modAx_keeps _ _ _ ?_
    exact h
  clear_value z3
  refine keeps_ite _ ?_ ?_
  · refine State.publish_keeps _ _ _ _ _ _ _ _ _ ?_
    refine State.set_keeps _ _ _ ?_
    refine State.quiet_keeps _ _ ?_
    exact hz3
  · extract_lets -merge -useContext +onlyGivenNames z4
    have hz4 : Keeps r z4.1 := by
      unfold z4
      refine fm_run (fun x => x) _ ?_
      refine fm_bindS (fun x => x.1) ?_ ?_
      · refine State.reference_keeps _ _ _ _ ?_
        exact hz3
      · intro w5_0 hw5
        have hd6 : Keeps r (w5_0).1 := by
          exact hw5
        split
        · extract_lets -merge -useContext +onlyGivenNames z7
          clear_value z7
          extract_lets -merge -useContext +onlyGivenNames z8
          have hz8 : Keeps r z8 := by
            unfold z8
            refine State.set64_keeps _ _ _ _ ?_
            exact (by simp_all)
          clear_value z8
          extract_lets -merge -useContext +onlyGivenNames z9
          have hz9 : Keeps r z9 := by
            unfold z9
            refine State.set_keeps _ _ _ ?_
            exact hz8
          clear_value z9
          refine fm_pure ?_
          refine State.publish_keeps _ _ _ _ _ _ _ _ _ ?_
          exact hz9
    clear_value z4
    refine State.strandFlags_keeps _ _ _ ?_
    exact hz4

theorem State.consumeTag_keeps {r : State} (a0 : State) (a1 : Nat) (h : Keeps r a0) : Keeps r (State.consumeTag a0 a1) := by
  unfold State.consumeTag
  extract_lets -merge -useContext +onlyGivenNames z0
  clear_value z0
  refine keeps_ite _ ?_ ?_
  · extract_lets -merge -useContext +onlyGivenNames z1
    clear_value z1
    refine State.modStrand_keeps _ _ _ ?_
    refine State.emptyTag_keeps _ _ ?_
    exact h
  · exact h

theorem State.withOld_keeps {r : State} (a0 : State) (a1 : Nat) (a2 : State → State) (h : Keeps r a0) (h3 : ∀ y0, Keeps r y0 → Keeps r (a2 y0)) : Keeps r (State.withOld a0 a1 a2) := by
  unfold State.withOld
  split
  · refine h3 _ ?_
    exact h
  · extract_lets -merge -useContext +onlyGivenNames z0
    clear_value z0
    extract_lets -merge -useContext +onlyGivenNames z1
    have hz1 : Keeps r z1 := by
      unfold z1
      refine h3 _ ?_
      refine State.modAx_keeps _ _ _ ?_
      refine keeps_forEach ?_ _ _ ?_
      · exact h
      · intro w2_0 w2_1 hw2
        refine State.setActReg_keeps _ _ _ ?_
        exact hw2
    clear_value z1
    extract_lets -merge -useContext +onlyGivenNames z3
    have hz3 : Keeps r z3 := by
      unfold z3
      refine keeps_forEach ?_ _ _ ?_
      · exact hz1
      · intro w4_0 w4_1 hw4
        refine State.setActReg_keeps _ _ _ ?_
        exact hw4
    clear_value z3
    extract_lets -merge -useContext +onlyGivenNames z5
    clear_value z5
    refine State.modAx_keeps _ _ _ ?_
    exact hz3

theorem State.activated_keeps {r : State} (a0 : State) (a1 : Nat) (h : Keeps r a0) : Keeps r (State.activated a0 a1) := by
  unfold State.activated
  refine State.modAx_keeps _ _ _ ?_
  exact h

theorem State.activate_keeps {r : State} (a0 : State) (a1 : Nat) (h : Keeps r a0) : Keeps r (State.activate a0 a1) := by
  unfold State.activate
  extract_lets -merge -useContext +onlyGivenNames z0
  clear_value z0
  extract_lets -merge -useContext +onlyGivenNames z1
  clear_value z1
  refine keeps_ite _ ?_ ?_
  · exact h
  · refine keeps_ite _ ?_ ?_
    · refine State.userStops_keeps _ _ ?_
      exact h
    · refine keeps_ite _ ?_ ?_
      · split
        · exact h
        · refine State.activated_keeps _ _ ?_
          refine State.withOld_keeps _ _ _ ?_ ?_
          · refine State.consumeTag_keeps _ _ ?_
            exact h
          · intro w2_0 hw2
            refine State.activateVirtual_keeps _ _ _ _ _ ?_
            exact hw2
      · refine keeps_ite _ ?_ ?_
        · refine State.activated_keeps _ _ ?_
          refine State.withOld_keeps _ _ _ ?_ ?_
          · refine State.consumeTag_keeps _ _ ?_
            exact h
          · intro w3_0 hw3
            refine State.activateReal_keeps _ _ _ ?_
            exact hw3
        · exact h

theorem State.traceRel_keeps {r : State} (a0 : State) (a1 : Nat) (a2 : RelMsg) (a3 : Nat) (a4 : Nat) (a5 : Nat) (h : Keeps r a0) : Keeps r (State.traceRel a0 a1 a2 a3 a4 a5) := by
  unfold State.traceRel
  refine State.trace_keeps _ _ _ _ _ _ _ _ ?_
  exact h

theorem State.refuseRel_keeps {r : State} (a0 : State) (a1 : RelMsg) (a2 : Nat) (a3 : Nat) (a4 : Nat) (h : Keeps r a0) : Keeps r (State.refuseRel a0 a1 a2 a3 a4) := by
  unfold State.refuseRel
  extract_lets -merge -useContext +onlyGivenNames z0
  have hz0 : Keeps r z0 := by
    unfold z0
    refine State.traceRel_keeps _ _ _ _ _ _ ?_
    refine State.count_keeps _ _ ?_
    exact h
  clear_value z0
  refine State.modStrand_keeps _ _ _ ?_
  exact hz0

theorem State.flowOvf_keeps {r : State} (a0 : State) (a1 : Nat) (a2 : Nat) (h : Keeps r a0) : Keeps r (State.flowOvf a0 a1 a2) := by
  unfold State.flowOvf
  refine State.report_keeps _ _ _ _ _ ?_
  refine State.count_keeps _ _ ?_
  exact h

theorem State.axisArrival_keeps {r : State} (a0 : State) (a1 : RelMsg) (h : Keeps r a0) : Keeps r (State.axisArrival a0 a1) := by
  unfold State.axisArrival
  extract_lets -merge -useContext +onlyGivenNames z0
  clear_value z0
  extract_lets -merge -useContext +onlyGivenNames z1
  clear_value z1
  extract_lets -merge -useContext +onlyGivenNames z2
  clear_value z2
  extract_lets -merge -useContext +onlyGivenNames z3
  clear_value z3
  extract_lets -merge -useContext +onlyGivenNames z4
  clear_value z4
  extract_lets -merge -useContext +onlyGivenNames z5
  clear_value z5
  refine keeps_ite _ ?_ ?_
  · refine State.refuseRel_keeps _ _ _ _ _ ?_
    exact h
  · refine keeps_ite _ ?_ ?_
    · refine State.lateRelease_keeps _ _ _ ?_
      refine State.traceRel_keeps _ _ _ _ _ _ ?_
      refine State.count_keeps _ _ ?_
      exact h
    · refine keeps_ite _ ?_ ?_
      · refine State.refuseRel_keeps _ _ _ _ _ ?_
        exact h
      · refine keeps_ite _ ?_ ?_
        · refine State.lateRelease_keeps _ _ _ ?_
          refine State.flowOvf_keeps _ _ _ ?_
          exact h
        · extract_lets -merge -useContext +onlyGivenNames z6
          have hz6 : Keeps r z6 := by
            unfold z6
            refine State.traceRel_keeps _ _ _ _ _ _ ?_
            refine State.count_keeps _ _ ?_
            exact h
          clear_value z6
          refine State.acceptRelease_keeps _ _ ?_
          exact hz6

theorem State.seqWrite_keeps {r : State} (a0 : State) (a1 : Nat) (a2 : List Byte) (h : Keeps r a0) : Keeps r (State.seqWrite a0 a1 a2) := by
  unfold State.seqWrite
  extract_lets -merge -useContext +onlyGivenNames z0
  clear_value z0
  extract_lets -merge -useContext +onlyGivenNames z1
  clear_value z1
  extract_lets -merge -useContext +onlyGivenNames z2
  clear_value z2
  extract_lets -merge -useContext +onlyGivenNames z3
  clear_value z3
  extract_lets -merge -useContext +onlyGivenNames z4
  clear_value z4
  extract_lets -merge -useContext +onlyGivenNames z5
  have hz5 : Keeps r z5 := by
    unfold z5
    refine keeps_ite _ ?_ ?_
    · exact h
    · refine keeps_ite _ ?_ ?_
      · refine State.store_keeps _ _ _ ?_
        exact h
      · refine State.engRefused_keeps _ _ _ _ _ ?_
        exact h
  clear_value z5
  refine State.set_keeps _ _ _ ?_
  refine State.set_keeps _ _ _ ?_
  exact hz5

theorem State.seqDrain_keeps {r : State} (a0 : State) (a1 : Nat) (a2 : Nat) (h : Keeps r a0) : Keeps r (State.seqDrain a0 a1 a2) := by
  induction a2 generalizing a0 with
  | zero => exact h
  | succ n ih =>
    unfold State.seqDrain
    dsimp only
    split
    · exact h
    · exact ih _ (State.seqWrite_keeps _ _ _ (keeps_dsp h _ (fun y => y)))

theorem State.seqArrival_keeps {r : State} (a0 : State) (a1 : RelMsg) (h : Keeps r a0) : Keeps r (State.seqArrival a0 a1) := by
  unfold State.seqArrival
  extract_lets -merge -useContext +onlyGivenNames z0
  clear_value z0
  extract_lets -merge -useContext +onlyGivenNames z1
  clear_value z1
  extract_lets -merge -useContext +onlyGivenNames z2
  clear_value z2
  extract_lets -merge -useContext +onlyGivenNames z3
  clear_value z3
  refine keeps_ite _ ?_ ?_
  · refine State.refuseRel_keeps _ _ _ _ _ ?_
    exact h
  · refine keeps_ite _ ?_ ?_
    · refine State.refuseRel_keeps _ _ _ _ _ ?_
      exact h
    · refine keeps_ite _ ?_ ?_
      · refine State.flowOvf_keeps _ _ _ ?_
        exact h
      · extract_lets -merge -useContext +onlyGivenNames z4
        have hz4 : Keeps r z4 := by
          unfold z4
          refine State.traceRel_keeps _ _ _ _ _ _ ?_
          refine State.count_keeps _ _ ?_
          exact h
        clear_value z4
        extract_lets -merge -useContext +onlyGivenNames z5
        clear_value z5
        extract_lets -merge -useContext +onlyGivenNames z6
        extract_lets -merge -useContext +onlyGivenNames z7
        have hz7 : Keeps r z7 := by
          unfold z7
          refine keeps_dsp ?_ _ (fun y => y)
          exact hz4
        clear_value z7
        refine State.seqDrain_keeps _ _ _ ?_
        exact hz7

theorem State.relArrival_keeps {r : State} (a0 : State) (a1 : RelMsg) (h : Keeps r a0) : Keeps r (State.relArrival a0 a1) := by
  unfold State.relArrival
  extract_lets -merge -useContext +onlyGivenNames z0
  clear_value z0
  extract_lets -merge -useContext +onlyGivenNames z1
  clear_value z1
  extract_lets -merge -useContext +onlyGivenNames z2
  clear_value z2
  extract_lets -merge -useContext +onlyGivenNames z3
  clear_value z3
  refine keeps_ite _ ?_ ?_
  · refine State.traceRel_keeps _ _ _ _ _ _ ?_
    refine State.count_keeps _ _ ?_
    exact h
  · refine keeps_ite _ ?_ ?_
    · refine State.axisArrival_keeps _ _ ?_
      exact h
    · refine keeps_ite _ ?_ ?_
      · refine State.seqArrival_keeps _ _ ?_
        exact h
      · refine State.refuseRel_keeps _ _ _ _ _ ?_
        exact h

theorem State.relTravel_keeps {r : State} (a0 : State) (a1 : RelMsg) (h : Keeps r a0) : Keeps r (State.relTravel a0 a1) := by
  unfold State.relTravel
  refine keeps_ite _ ?_ ?_
  · refine State.modStrand_keeps _ _ _ ?_
    exact h
  · refine State.relArrival_keeps _ _ ?_
    exact h

theorem State.releaseArrival_keeps {r : State} (a0 : State) (h : Keeps r a0) : Keeps r (State.releaseArrival a0) := by
  unfold State.releaseArrival
  split
  · exact h
  · refine State.relTravel_keeps _ _ ?_
    refine keeps_dsp ?_ _ (fun y => y)
    exact h

theorem State.dspOrder_keeps {r : State} (a0 : State) (a1 : Nat) (h : Keeps r a0) : Keeps r (State.dspOrder a0 a1) := by
  unfold State.dspOrder
  extract_lets -merge -useContext +onlyGivenNames z0
  clear_value z0
  refine keeps_ite _ ?_ ?_
  · exact h
  · refine keeps_forEach ?_ _ _ ?_
    · refine keeps_dsp ?_ _ (fun y => y)
      exact h
    · intro w1_0 w1_1 hw1
      refine State.relTravel_keeps _ _ ?_
      exact hw1

theorem State.seqGap_keeps {r : State} (a0 : State) (a1 : Nat) (h : Keeps r a0) : Keeps r (State.seqGap a0 a1) := by
  unfold State.seqGap
  extract_lets -merge -useContext +onlyGivenNames z0
  clear_value z0
  extract_lets -merge -useContext +onlyGivenNames z1
  clear_value z1
  refine keeps_ite _ ?_ ?_
  · exact h
  · refine State.seqDrain_keeps _ _ _ ?_
    refine State.count_keeps _ _ ?_
    refine State.seqWrite_keeps _ _ _ ?_
    exact h

theorem execSeqGapExpiry_keeps {r : State} (a0 : Fin 64) (a1 : State) (h : Keeps r a1) (t : State) (e : execSeqGapExpiry a0 a1 = .next t) : Keeps r t := by
  unfold execSeqGapExpiry at e
  injection e with e
  subst e
  repeat' (first | assumption | intro _ | with_reducible apply State.seqGap_keeps | with_reducible apply keeps_ite | split | dsimp only)

theorem State.regWrite_keeps {r : State} (a0 : State) (a1 : Requester) (a2 : Nat) (a3 : Nat) (h : Keeps r a0) : Keeps r ((State.regWrite a0 a1 a2 a3).2) := by
  unfold State.regWrite
  split
  · refine keeps_ite2 _ ?_ ?_
    · refine keeps_snd ?_
      refine keeps_ke ?_ _ (fun y => y)
      exact h
    · extract_lets -merge -useContext +onlyGivenNames z0
      have hz0 : Keeps r z0.2 := by
        unfold z0
        refine State.blockWrite_keeps _ _ _ _ ?_
        exact h
      clear_value z0
      split
      · refine keeps_snd ?_
        exact hz0
      · refine keeps_snd ?_
        refine State.refuse_keeps _ _ _ _ _ ?_
        exact hz0
  · refine keeps_snd ?_
    refine State.refuse_keeps _ _ _ _ _ ?_
    exact h

theorem State.heldLand_keeps {r : State} (a0 : State) (h : Keeps r a0) : Keeps r (State.heldLand a0) := by
  unfold State.heldLand
  extract_lets -merge -useContext +onlyGivenNames z0
  clear_value z0
  extract_lets -merge -useContext +onlyGivenNames z1
  extract_lets -merge -useContext +onlyGivenNames z2
  have hz2 : Keeps r z2 := by
    unfold z2
    refine keeps_ke ?_ _ (fun y => y)
    exact h
  clear_value z2
  refine keeps_forEach ?_ _ _ ?_
  · exact hz2
  · intro w3_0 w3_1 hw3
    refine State.regWrite_keeps _ _ _ _ ?_
    exact hw3

theorem State.regRead_keeps {r : State} (a0 : State) (a1 : Requester) (a2 : Nat) (h : Keeps r a0) : Keeps r ((State.regRead a0 a1 a2).2) := by
  unfold State.regRead
  split
  · split
    · extract_lets -merge -useContext +onlyGivenNames z0
      have hz0 : Keeps r z0.2 := by
        unfold z0
        refine State.blockRead_keeps _ _ _ ?_
        exact h
      clear_value z0
      refine keeps_snd ?_
      exact hz0
    · refine keeps_snd ?_
      exact h
  · refine keeps_snd ?_
    refine State.refuse_keeps _ _ _ _ _ ?_
    exact h

theorem State.memWrite_keeps {r : State} (a0 : State) (a1 : Requester) (a2 : Nat) (a3 : Nat) (a4 : Nat) (h : Keeps r a0) : Keeps r ((State.memWrite a0 a1 a2 a3 a4).2) := by
  unfold State.memWrite
  split
  · refine keeps_ite2 _ ?_ ?_
    · refine keeps_snd ?_
      exact h
    · refine keeps_snd ?_
      refine State.engWrite_keeps _ _ _ ?_
      exact h
  · refine keeps_snd ?_
    refine State.refuse_keeps _ _ _ _ _ ?_
    exact h

theorem State.memRead_keeps {r : State} (a0 : State) (a1 : Requester) (a2 : Nat) (a3 : Nat) (h : Keeps r a0) : Keeps r ((State.memRead a0 a1 a2 a3).2) := by
  unfold State.memRead
  split
  · refine keeps_ite2 _ ?_ ?_
    · refine keeps_ite2 _ ?_ ?_
      · refine keeps_snd ?_
        exact h
      · extract_lets -merge -useContext +onlyGivenNames z0
        have hz0 : Keeps r z0 := by
          unfold z0
          refine State.modHost_keeps _ _ ?_
          exact h
        clear_value z0
        extract_lets -merge -useContext +onlyGivenNames z1
        have hz1 : Keeps r z1.2 := by
          unfold z1
          refine State.engRead_keeps _ _ _ ?_
          exact hz0
        clear_value z1
        refine keeps_snd ?_
        exact hz1
    · refine keeps_snd ?_
      exact h
  · refine keeps_snd ?_
    refine State.refuse_keeps _ _ _ _ _ ?_
    exact h

theorem State.ordered_keeps {r : State} (a0 : State) (a1 : Requester) (a2 : Nat) (h : Keeps r a0) : Keeps r (State.ordered a0 a1 a2) := by
  unfold State.ordered
  split
  · refine keeps_ite _ ?_ ?_
    · refine State.dspOrder_keeps _ _ ?_
      exact h
    · exact h
  · exact h

theorem State.busWrite_keeps {r : State} (a0 : State) (a1 : Requester) (a2 : Nat) (a3 : Nat) (a4 : Nat) (h : Keeps r a0) : Keeps r ((State.busWrite a0 a1 a2 a3 a4).2) := by
  unfold State.busWrite
  extract_lets -merge -useContext +onlyGivenNames z0
  have hz0 : Keeps r z0 := by
    unfold z0
    refine State.ordered_keeps _ _ _ ?_
    exact h
  clear_value z0
  refine keeps_ite2 _ ?_ ?_
  · refine State.memWrite_keeps _ _ _ _ _ ?_
    exact hz0
  · refine keeps_ite2 _ ?_ ?_
    · refine State.regWrite_keeps _ _ _ _ ?_
      exact hz0
    · refine keeps_ite2 _ ?_ ?_
      · extract_lets -merge -useContext +onlyGivenNames z1
        have hz1 : Keeps r z1.2 := by
          unfold z1
          refine State.regWrite_keeps _ _ _ _ ?_
          exact hz0
        clear_value z1
        extract_lets -merge -useContext +onlyGivenNames z2
        have hz2 : Keeps r z2.2 := by
          unfold z2
          refine State.regWrite_keeps _ _ _ _ ?_
          exact hz1
        clear_value z2
        refine keeps_snd ?_
        exact hz2
      · refine keeps_snd ?_
        refine State.refuse_keeps _ _ _ _ _ ?_
        exact hz0

theorem State.busRead_keeps {r : State} (a0 : State) (a1 : Requester) (a2 : Nat) (a3 : Nat) (h : Keeps r a0) : Keeps r ((State.busRead a0 a1 a2 a3).2) := by
  unfold State.busRead
  extract_lets -merge -useContext +onlyGivenNames z0
  have hz0 : Keeps r z0 := by
    unfold z0
    refine State.ordered_keeps _ _ _ ?_
    exact h
  clear_value z0
  refine keeps_ite2 _ ?_ ?_
  · refine State.memRead_keeps _ _ _ _ ?_
    exact hz0
  · refine keeps_ite2 _ ?_ ?_
    · refine State.regRead_keeps _ _ _ ?_
      exact hz0
    · refine keeps_ite2 _ ?_ ?_
      · extract_lets -merge -useContext +onlyGivenNames z1
        have hz1 : Keeps r z1.2 := by
          unfold z1
          refine State.regRead_keeps _ _ _ ?_
          exact hz0
        clear_value z1
        extract_lets -merge -useContext +onlyGivenNames z2
        have hz2 : Keeps r z2.2 := by
          unfold z2
          refine State.regRead_keeps _ _ _ ?_
          exact hz1
        clear_value z2
        split
        · refine keeps_snd ?_
          exact hz2
        · refine keeps_snd ?_
          exact hz2
      · refine keeps_snd ?_
        refine State.refuse_keeps _ _ _ _ _ ?_
        exact hz0

theorem State.cmdWrite_keeps {r : State} (a0 : State) (a1 : Requester) (a2 : Nat) (a3 : Nat) (a4 : Nat) (h : Keeps r a0) : Keeps r (State.cmdWrite a0 a1 a2 a3 a4) := by
  unfold State.cmdWrite
  extract_lets -merge -useContext +onlyGivenNames z0
  have hz0 : Keeps r z0.2 := by
    unfold z0
    refine State.busWrite_keeps _ _ _ _ _ ?_
    exact h
  clear_value z0
  refine State.answer_keeps _ _ ?_
  exact hz0

theorem State.cmdRead_keeps {r : State} (a0 : State) (a1 : Requester) (a2 : Nat) (a3 : Nat) (h : Keeps r a0) : Keeps r (State.cmdRead a0 a1 a2 a3) := by
  unfold State.cmdRead
  extract_lets -merge -useContext +onlyGivenNames z0
  have hz0 : Keeps r z0.2 := by
    unfold z0
    refine State.busRead_keeps _ _ _ _ ?_
    exact h
  clear_value z0
  refine State.answer_keeps _ _ ?_
  exact hz0

theorem State.cmdField_keeps {r : State} (a0 : State) (a1 : Requester) (a2 : Fld) (a3 : Nat) (h : Keeps r a0) : Keeps r (State.cmdField a0 a1 a2 a3) := by
  unfold State.cmdField
  refine State.cmdWrite_keeps _ _ _ _ _ ?_
  exact h

theorem execRegisterWrite_keeps {r : State} (a0 : Requester) (a1 : BitVec 52) (a2 : Size) (a3 : BitVec 64) (a4 : State) (h : Keeps r a4) (t : State) (e : execRegisterWrite a0 a1 a2 a3 a4 = .next t) : Keeps r t := by
  unfold execRegisterWrite at e
  injection e with e
  subst e
  repeat' (first | assumption | intro _ | with_reducible apply State.cmdWrite_keeps | with_reducible apply keeps_ite | split | dsimp only)

theorem State.tlbFill_keeps {r : State} (a0 : State) (a1 : Nat) (a2 : Tlb) (h : Keeps r a0) : Keeps r (State.tlbFill a0 a1 a2) := by
  rw [State.tlbFill]
  split
  · exact State.modCore_keeps _ _ _ h
  · exact State.burn_keeps _ (State.modCore_keeps _ _ _ h)

theorem State.translate_keeps {r : State} (a0 : State) (a1 : Nat) (a2 : Nat) (a3 : Bool) (a4 : Right) (h : Keeps r a0) : Keeps r ((State.translate a0 a1 a2 a3 a4).2) := by
  unfold State.translate
  extract_lets -merge -useContext +onlyGivenNames z0
  clear_value z0
  refine keeps_ite2 _ ?_ ?_
  · exact h
  · extract_lets -merge -useContext +onlyGivenNames z1
    clear_value z1
    generalize List.find? _ _ = x
    cases x with
    | some t => exact h
    | none =>
      generalize State.walk a0 a1 a2 = y
      cases y with
      | none => exact h
      | some t =>
        dsimp only
        generalize z1 t = v
        cases v with
        | none => exact h
        | some a => exact State.tlbFill_keeps _ _ _ h

theorem State.place_keeps {r : State} (a0 : State) (a1 : Nat) (a2 : Nat) (a3 : Bool) (a4 : Right) (h : Keeps r a0) : Keeps r ((State.place a0 a1 a2 a3 a4).2) := by
  unfold State.place
  refine keeps_ite2 _ ?_ ?_
  · refine keeps_snd ?_
    exact h
  · extract_lets -merge -useContext +onlyGivenNames z0
    have hz0 : Keeps r z0.2 := by
      unfold z0
      refine State.translate_keeps _ _ _ _ _ ?_
      exact h
    clear_value z0
    split
    · refine keeps_snd ?_
      exact hz0
    · refine keeps_snd ?_
      exact hz0

theorem State.l1_keeps {r : State} (a0 : State) (a1 : Nat) (a2 : Nat) (h : Keeps r a0) : Keeps r (State.l1 a0 a1 a2) := by
  unfold State.l1
  refine keeps_ite _ ?_ ?_
  · refine State.burn_keeps _ ?_
    exact h
  · exact h

theorem State.coreRead_keeps {r : State} (a0 : State) (a1 : Nat) (a2 : Nat) (a3 : Nat) (h : Keeps r a0) : Keeps r ((State.coreRead a0 a1 a2 a3).2) := by
  unfold State.coreRead
  extract_lets -merge -useContext +onlyGivenNames z0
  have hz0 : Keeps r z0.2 := by
    unfold z0
    refine State.place_keeps _ _ _ _ _ ?_
    exact h
  clear_value z0
  extract_lets -merge -useContext +onlyGivenNames z1
  have hz1 : Keeps r z1 := by
    unfold z1
    exact hz0
  clear_value z1
  split
  · refine keeps_snd ?_
    exact hz1
  · refine keeps_snd ?_
    exact hz1
  · refine keeps_snd ?_
    exact hz1
  · refine keeps_snd ?_
    exact hz1
  · extract_lets -merge -useContext +onlyGivenNames z2
    have hz2 : Keeps r z2.2 := by
      unfold z2
      refine State.busRead_keeps _ _ _ _ ?_
      exact hz1
    clear_value z2
    split
    · refine keeps_snd ?_
      refine State.l1_keeps _ _ _ ?_
      exact hz2
    · refine keeps_snd ?_
      exact hz2

theorem State.coreWrite_keeps {r : State} (a0 : State) (a1 : Nat) (a2 : Nat) (a3 : Nat) (a4 : Nat) (h : Keeps r a0) : Keeps r ((State.coreWrite a0 a1 a2 a3 a4).2) := by
  unfold State.coreWrite
  extract_lets -merge -useContext +onlyGivenNames z0
  have hz0 : Keeps r z0.2 := by
    unfold z0
    refine State.place_keeps _ _ _ _ _ ?_
    exact h
  clear_value z0
  extract_lets -merge -useContext +onlyGivenNames z1
  have hz1 : Keeps r z1 := by
    unfold z1
    exact hz0
  clear_value z1
  split
  · refine keeps_snd ?_
    exact hz1
  · refine keeps_snd ?_
    exact hz1
  · refine keeps_snd ?_
    exact hz1
  · refine keeps_snd ?_
    refine State.wr_keeps _ _ _ _ ?_
    exact hz1
  · extract_lets -merge -useContext +onlyGivenNames z2
    have hz2 : Keeps r z2.2 := by
      unfold z2
      refine State.busWrite_keeps _ _ _ _ _ ?_
      exact hz1
    clear_value z2
    refine keeps_ite2 _ ?_ ?_
    · refine keeps_snd ?_
      refine State.l1_keeps _ _ _ ?_
      exact hz2
    · refine keeps_snd ?_
      exact hz2

theorem State.fetchFails_keeps {r : State} (a0 : State) (a1 : Nat) (a2 : Nat) (h : Keeps r a0) : Keeps r ((State.fetchFails a0 a1 a2).2) := by
  unfold State.fetchFails
  refine keeps_ite2 _ ?_ ?_
  · refine keeps_snd ?_
    exact h
  · refine keeps_ite2 _ ?_ ?_
    · split
      · refine keeps_snd ?_
        exact h
      · refine keeps_snd ?_
        exact h
      · refine keeps_snd ?_
        exact h
    · extract_lets -merge -useContext +onlyGivenNames z0
      have hz0 : Keeps r z0.2 := by
        unfold z0
        refine State.translate_keeps _ _ _ _ _ ?_
        exact h
      clear_value z0
      extract_lets -merge -useContext +onlyGivenNames z1
      have hz1 : Keeps r z1 := by
        unfold z1
        exact hz0
      clear_value z1
      split
      · refine keeps_snd ?_
        exact hz1
      · split
        · refine keeps_snd ?_
          exact hz1
        · refine keeps_snd ?_
          refine State.refuse_keeps _ _ _ _ _ ?_
          exact hz1

theorem State.stackFaultInt_keeps {r : State} (a0 : State) (a1 : Nat) (a2 : Nat) (h : Keeps r a0) : Keeps r (State.stackFaultInt a0 a1 a2) := by
  unfold State.stackFaultInt
  split
  · refine State.raiseInt_keeps _ _ _ _ ?_
    exact h
  · exact h

theorem State.park_keeps {r : State} (a0 : State) (a1 : Nat) (a2 : Attempt) (h : Keeps r a0) : Keeps r (State.park a0 a1 a2) := by
  unfold State.park
  extract_lets -merge -useContext +onlyGivenNames z0
  clear_value z0
  extract_lets -merge -useContext +onlyGivenNames z1
  have hz1 : Keeps r z1 := by
    unfold z1
    refine State.setSt_keeps _ _ _ ?_
    refine State.suspend_keeps _ _ ?_
    exact h
  clear_value z1
  refine State.traceS_keeps _ _ _ _ _ ?_
  refine State.modStrand_keeps _ _ _ ?_
  exact hz1

theorem State.secondFault_keeps {r : State} (a0 : State) (a1 : Nat) (a2 : Nat) (a3 : Attempt) (h : Keeps r a0) : Keeps r (State.secondFault a0 a1 a2 a3) := by
  unfold State.secondFault
  extract_lets -merge -useContext +onlyGivenNames z0
  clear_value z0
  extract_lets -merge -useContext +onlyGivenNames z1
  clear_value z1
  extract_lets -merge -useContext +onlyGivenNames z2
  clear_value z2
  extract_lets -merge -useContext +onlyGivenNames z3
  clear_value z3
  extract_lets -merge -useContext +onlyGivenNames z4
  have hz4 : Keeps r z4 := by
    unfold z4
    refine State.report_keeps _ _ _ _ _ ?_
    exact h
  clear_value z4
  extract_lets -merge -useContext +onlyGivenNames z5
  have hz5 : Keeps r z5 := by
    unfold z5
    refine State.dwellCore_keeps _ _ ?_
    refine State.syncHalt_keeps _ _ ?_
    refine State.modCore_keeps _ _ _ ?_
    exact hz4
  clear_value z5
  extract_lets -merge -useContext +onlyGivenNames z6
  have hz6 : Keeps r z6 := by
    unfold z6
    refine State.park_keeps _ _ _ ?_
    exact hz5
  clear_value z6
  extract_lets -merge -useContext +onlyGivenNames z7
  have hz7 : Keeps r z7 := by
    unfold z7
    refine State.modStrand_keeps _ _ _ ?_
    exact hz6
  clear_value z7
  extract_lets -merge -useContext +onlyGivenNames z8
  have hz8 : Keeps r z8 := by
    unfold z8
    split
    · refine State.clr_keeps _ _ ?_
      refine State.modCore_keeps _ _ _ ?_
      refine State.modStrand_keeps _ _ _ ?_
      exact hz7
    · exact hz7
  clear_value z8
  extract_lets -merge -useContext +onlyGivenNames z9
  have hz9 : Keeps r z9 := by
    unfold z9
    refine State.stackFaultInt_keeps _ _ _ ?_
    exact hz8
  clear_value z9
  refine State.coreOffline_keeps _ _ ?_
  refine keeps_ite _ ?_ ?_
  · refine State.toIdle_keeps _ _ ?_
    exact hz9
  · exact hz9

theorem State.stackFault_keeps {r : State} (a0 : State) (a1 : Nat) (a2 : Nat) (a3 : Nat) (a4 : Nat) (a5 : Nat) (a6 : Nat) (a7 : Nat) (a8 : Attempt) (h : Keeps r a0) : Keeps r (State.stackFault a0 a1 a2 a3 a4 a5 a6 a7 a8) := by
  unfold State.stackFault
  extract_lets -merge -useContext +onlyGivenNames z0
  clear_value z0
  extract_lets -merge -useContext +onlyGivenNames z1
  clear_value z1
  refine keeps_ite _ ?_ ?_
  · refine State.secondFault_keeps _ _ _ _ ?_
    exact h
  · extract_lets -merge -useContext +onlyGivenNames z2
    clear_value z2
    extract_lets -merge -useContext +onlyGivenNames z3
    clear_value z3
    extract_lets -merge -useContext +onlyGivenNames z4
    have hz4 : Keeps r z4 := by
      unfold z4
      refine State.raise_keeps _ _ ?_
      refine State.modCore_keeps _ _ _ ?_
      exact h
    clear_value z4
    refine State.vacated_keeps _ _ _ _ ?_
    refine State.stackFaultInt_keeps _ _ _ ?_
    refine State.park_keeps _ _ _ ?_
    exact hz4

theorem State.storeError_keeps {r : State} (a0 : State) (a1 : Nat) (a2 : Nat) (h : Keeps r a0) : Keeps r (State.storeError a0 a1 a2) := by
  unfold State.storeError
  extract_lets -merge -useContext +onlyGivenNames z0
  clear_value z0
  refine keeps_ite _ ?_ ?_
  · refine State.modCore_keeps _ _ _ ?_
    exact h
  · refine State.modStrand_keeps _ _ _ ?_
    exact h

theorem State.pushWords_keeps {r : State} (a0 : State) (a1 : Nat) (a2 : Nat) (a3 : List Nat) (h : Keeps r a0) : Keeps r (State.pushWords a0 a1 a2 a3) := by
  induction a3 generalizing a0 a2 with
  | nil => exact h
  | cons w ws ih =>
    refine ih _ _ (keeps_ite _ (State.storeError_keeps _ _ _ ?_) ?_) <;> exact State.coreWrite_keeps _ _ _ _ _ h

theorem State.entry_keeps {r : State} (a0 : State) (a1 : Nat) (a2 : Nat) (a3 : Nat) (a4 : Nat) (a5 : Nat) (a6 : Nat) (a7 : Nat) (h : Keeps r a0) : Keeps r (State.entry a0 a1 a2 a3 a4 a5 a6 a7) := by
  unfold State.entry
  refine keeps_ite _ ?_ ?_
  · refine State.endDetached_keeps _ _ ?_
    exact h
  · extract_lets -merge -useContext +onlyGivenNames z0
    have hz0 : Keeps r z0 := by
      unfold z0
      refine State.modCore_keeps _ _ _ ?_
      exact h
    clear_value z0
    extract_lets -merge -useContext +onlyGivenNames z1
    clear_value z1
    extract_lets -merge -useContext +onlyGivenNames z2
    clear_value z2
    extract_lets -merge -useContext +onlyGivenNames z3
    clear_value z3
    extract_lets -merge -useContext +onlyGivenNames z4
    clear_value z4
    refine keeps_ite _ ?_ ?_
    · refine State.stackFault_keeps _ _ _ _ _ _ _ _ _ ?_
      exact hz0
    · extract_lets -merge -useContext +onlyGivenNames z5
      clear_value z5
      extract_lets -merge -useContext +onlyGivenNames z6
      clear_value z6
      extract_lets -merge -useContext +onlyGivenNames z7
      clear_value z7
      extract_lets -merge -useContext +onlyGivenNames z8
      clear_value z8
      extract_lets -merge -useContext +onlyGivenNames z9
      have hz9 : Keeps r z9 := by
        unfold z9
        refine State.notePosted_keeps _ _ ?_
        refine State.setCtx_keeps _ _ _ ?_
        refine State.burn_keeps _ ?_
        exact hz0
      clear_value z9
      refine State.pushWords_keeps _ _ _ _ ?_
      exact hz9

theorem State.enterAt_keeps {r : State} (a0 : State) (a1 : Nat) (a2 : Nat) (a3 : Nat) (a4 : Bool) (a5 : Bool) (a6 : Nat) (h : Keeps r a0) : Keeps r (State.enterAt a0 a1 a2 a3 a4 a5 a6) := by
  unfold State.enterAt
  extract_lets -merge -useContext +onlyGivenNames z0
  clear_value z0
  extract_lets -merge -useContext +onlyGivenNames z1
  clear_value z1
  refine State.entry_keeps _ _ _ _ _ _ _ _ ?_
  exact h

theorem State.exc_keeps {r : State} (a0 : State) (a1 : Nat) (a2 : Nat) (a3 : Nat) (h : Keeps r a0) : Keeps r (State.exc a0 a1 a2 a3) := by
  unfold State.exc
  refine State.enterAt_keeps _ _ _ _ _ _ _ ?_
  exact h

theorem State.popWords_keeps {r : State} (a0 : State) (a1 : Nat) (a2 : Nat) (a3 : Nat) (h : Keeps r a0) : Keeps r ((State.popWords a0 a1 a2 a3).2) := by
  induction a3 generalizing a0 a2 with
  | zero => exact h
  | succ n ih =>
    have h1 := ih _ (a2 + 4) (State.coreRead_keeps a0 a1 a2 4 h)
    unfold State.popWords
    dsimp only
    split <;> exact h1

theorem State.eret_keeps {r : State} (a0 : State) (a1 : Nat) (h : Keeps r a0) : Keeps r (State.eret a0 a1) := by
  unfold State.eret
  extract_lets -merge -useContext +onlyGivenNames z0
  have hz0 : Keeps r z0 := by
    unfold z0
    refine State.modCore_keeps _ _ _ ?_
    exact h
  clear_value z0
  extract_lets -merge -useContext +onlyGivenNames z1
  clear_value z1
  extract_lets -merge -useContext +onlyGivenNames z2
  clear_value z2
  extract_lets -merge -useContext +onlyGivenNames z3
  clear_value z3
  refine keeps_ite _ ?_ ?_
  · refine keeps_ite _ ?_ ?_
    · refine State.endDetached_keeps _ _ ?_
      exact hz0
    · refine State.stackFault_keeps _ _ _ _ _ _ _ _ _ ?_
      exact hz0
  · extract_lets -merge -useContext +onlyGivenNames z4
    have hz4 : Keeps r z4.2 := by
      unfold z4
      refine State.popWords_keeps _ _ _ _ ?_
      exact hz0
    clear_value z4
    extract_lets -merge -useContext +onlyGivenNames z5
    clear_value z5
    extract_lets -merge -useContext +onlyGivenNames z6
    clear_value z6
    extract_lets -merge -useContext +onlyGivenNames z7
    clear_value z7
    split
    · refine State.exc_keeps _ _ _ _ ?_
      exact hz4
    · refine State.setCtx_keeps _ _ _ ?_
      exact hz4

theorem State.repeatAttempt_keeps {r : State} (a0 : State) (a1 : Nat) (h : Keeps r a0) : Keeps r (State.repeatAttempt a0 a1) := by
  unfold State.repeatAttempt
  split
  · exact h
  · extract_lets -merge -useContext +onlyGivenNames z0
    have hz0 : Keeps r z0 := by
      unfold z0
      refine State.modCore_keeps _ _ _ ?_
      exact h
    clear_value z0
    split
    · refine State.entry_keeps _ _ _ _ _ _ _ _ ?_
      exact hz0
    · refine State.eret_keeps _ _ ?_
      exact hz0

theorem State.takeErrs_keeps {r : State} (a0 : State) (a1 : Nat) (h : Keeps r a0) : Keeps r (State.takeErrs a0 a1) := by
  unfold State.takeErrs
  extract_lets -merge -useContext +onlyGivenNames z0
  clear_value z0
  refine keeps_ite _ ?_ ?_
  · exact h
  · split
    · exact h
    · extract_lets -merge -useContext +onlyGivenNames z1
      have hz1 : Keeps r z1 := by
        unfold z1
        refine State.modStrand_keeps _ _ _ ?_
        exact h
      clear_value z1
      refine State.modCore_keeps _ _ _ ?_
      exact hz1

theorem State.asyncEntry_keeps {r : State} (a0 : State) (a1 : Nat) (h : Keeps r a0) : Keeps r (State.asyncEntry a0 a1) := by
  unfold State.asyncEntry
  extract_lets -merge -useContext +onlyGivenNames z0
  clear_value z0
  split
  · exact h
  · refine keeps_ite _ ?_ ?_
    · refine State.enterAt_keeps _ _ _ _ _ _ _ ?_
      refine State.modCore_keeps _ _ _ ?_
      exact h
    · exact h

theorem State.intEntry_keeps {r : State} (a0 : State) (a1 : Nat) (h : Keeps r a0) : Keeps r (State.intEntry a0 a1) := by
  unfold State.intEntry
  extract_lets -merge -useContext +onlyGivenNames z0
  clear_value z0
  extract_lets -merge -useContext +onlyGivenNames z1
  clear_value z1
  refine keeps_ite _ ?_ ?_
  · split
    · exact h
    · extract_lets -merge -useContext +onlyGivenNames z2
      clear_value z2
      extract_lets -merge -useContext +onlyGivenNames z3
      clear_value z3
      extract_lets -merge -useContext +onlyGivenNames z4
      have hz4 : Keeps r z4 := by
        unfold z4
        refine State.set_keeps _ _ _ ?_
        refine State.burn_keeps _ ?_
        exact h
      clear_value z4
      extract_lets -merge -useContext +onlyGivenNames z5
      have hz5 : Keeps r z5 := by
        unfold z5
        refine keeps_ite _ ?_ ?_
        · refine State.report_keeps _ _ _ _ _ ?_
          exact hz4
        · exact hz4
      clear_value z5
      refine State.enterAt_keeps _ _ _ _ _ _ _ ?_
      exact hz5
  · exact h

theorem execAccessAsync_keeps {r : State} (a0 : Fin 36) (a1 : State) (h : Keeps r a1) (t : State) (e : execAccessAsync a0 a1 = .next t) : Keeps r t := by
  unfold execAccessAsync at e
  injection e with e
  subst e
  repeat' (first | assumption | intro _ | with_reducible apply State.settle_keeps | with_reducible apply State.asyncEntry_keeps | with_reducible apply State.takeErrs_keeps | with_reducible apply keeps_ite | split | dsimp only)

theorem execInterruptEntry_keeps {r : State} (a0 : Fin 36) (a1 : State) (h : Keeps r a1) (t : State) (e : execInterruptEntry a0 a1 = .next t) : Keeps r t := by
  unfold execInterruptEntry at e
  injection e with e
  subst e
  repeat' (first | assumption | intro _ | with_reducible apply State.settle_keeps | with_reducible apply State.intEntry_keeps | with_reducible apply keeps_ite | split | dsimp only)

theorem execRemoteAccessComplete_keeps {r : State} (a0 : Fin 36) (a1 : State) (h : Keeps r a1) (t : State) (e : execRemoteAccessComplete a0 a1 = .next t) : Keeps r t := by
  unfold execRemoteAccessComplete at e
  injection e with e
  subst e
  repeat' (first | assumption | intro _ | with_reducible apply State.settle_keeps | with_reducible apply State.modCore_keeps | with_reducible apply keeps_ite | split | dsimp only)

theorem State.stallAbandoned_keeps {r : State} (a0 : State) (a1 : Nat) (a2 : Nat) (h : Keeps r a0) : Keeps r (State.stallAbandoned a0 a1 a2) := by
  unfold State.stallAbandoned
  refine keeps_forN ?_ _ _ ?_
  · exact h
  · intro w0_0 w0_1 hw0
    split
    · refine keeps_ite _ ?_ ?_
      · refine State.exc_keeps _ _ _ _ ?_
        refine State.modCore_keeps _ _ _ ?_
        exact hw0
      · exact hw0
    · exact hw0

theorem execQWriteLand_keeps {r : State} (a0 : Fin 36) (a1 : Nat) (a2 : State) (h : Keeps r a2) (t : State) (e : execQWriteLand a0 a1 a2 = .next t) : Keeps r t := by
  unfold execQWriteLand at e
  injection e with e
  subst e
  repeat' (first | assumption | intro _ | with_reducible apply State.settle_keeps | with_reducible apply State.modCore_keeps | with_reducible apply keeps_ite | split | dsimp only)

theorem State.finish_keeps {r : State} (a0 : State) (a1 : Nat) (a2 : Nat) (a3 : Ctx → Ctx) (h : Keeps r a0) : Keeps r (State.finish a0 a1 a2 a3) := by
  unfold State.finish
  refine State.modCore_keeps _ _ _ ?_
  exact h

theorem State.skip_keeps {r : State} (a0 : State) (a1 : Nat) (a2 : Insn) (h : Keeps r a0) : Keeps r (State.skip a0 a1 a2) := by
  unfold State.skip
  refine keeps_ite _ ?_ ?_
  · refine State.modCore_keeps _ _ _ ?_
    exact h
  · refine State.finish_keeps _ _ _ _ ?_
    exact h

theorem State.fetchAll_keeps {r : State} (a0 : State) (a1 : Nat) (a2 : Insn) (h : Keeps r a0) : Keeps r ((State.fetchAll a0 a1 a2).2) := by
  unfold State.fetchAll
  extract_lets -merge -useContext +onlyGivenNames z0
  clear_value z0
  extract_lets -merge -useContext +onlyGivenNames z1
  have hz1 : Keeps r z1.2 := by
    unfold z1
    refine State.fetchFails_keeps _ _ _ ?_
    exact h
  clear_value z1
  refine keeps_ite2 _ ?_ ?_
  · refine keeps_snd ?_
    exact hz1
  · refine keeps_ite2 _ ?_ ?_
    · extract_lets -merge -useContext +onlyGivenNames z2
      have hz2 : Keeps r z2.2 := by
        unfold z2
        refine State.fetchFails_keeps _ _ _ ?_
        exact hz1
      clear_value z2
      refine keeps_snd ?_
      exact hz2
    · refine keeps_snd ?_
      exact hz1

theorem State.insn_keeps {r : State} (a0 : State) (a1 : Nat) (a2 : BitVec 4) (a3 : Insn) (a4 : State → State) (h : Keeps r a0) (h5 : ∀ y0, Keeps r y0 → Keeps r (a4 y0)) : Keeps r (State.insn a0 a1 a2 a3 a4) := by
  unfold State.insn
  refine keeps_ite _ ?_ ?_
  · exact h
  · extract_lets -merge -useContext +onlyGivenNames z0
    have hz0 : Keeps r z0.2 := by
      unfold z0
      refine State.fetchAll_keeps _ _ _ ?_
      exact h
    clear_value z0
    extract_lets -merge -useContext +onlyGivenNames z1
    have hz1 : Keeps r z1 := by
      unfold z1
      exact hz0
    clear_value z1
    refine State.settle_keeps _ _ ?_
    split
    · refine State.exc_keeps _ _ _ _ ?_
      exact hz1
    · refine keeps_ite _ ?_ ?_
      · refine State.exc_keeps _ _ _ _ ?_
        exact hz1
      · refine keeps_ite _ ?_ ?_
        · refine State.skip_keeps _ _ _ ?_
          exact hz1
        · refine h5 _ ?_
          refine State.modCore_keeps _ _ _ ?_
          exact hz1

theorem State.writeG_keeps {r : State} (a0 : State) (a1 : Nat) (a2 : Nat) (a3 : Nat) (a4 : Ctx → Word) (h : Keeps r a0) : Keeps r (State.writeG a0 a1 a2 a3 a4) := by
  unfold State.writeG
  refine State.finish_keeps _ _ _ _ ?_
  exact h

theorem State.writeF_keeps {r : State} (a0 : State) (a1 : Nat) (a2 : Nat) (a3 : Ctx → FM Word) (h : Keeps r a0) : Keeps r (State.writeF a0 a1 a2 a3) := by
  unfold State.writeF
  refine State.finish_keeps _ _ _ _ ?_
  exact h

theorem State.writeQ_keeps {r : State} (a0 : State) (a1 : Nat) (a2 : Nat) (a3 : Nat) (a4 : BitVec 128) (h : Keeps r a0) : Keeps r (State.writeQ a0 a1 a2 a3 a4) := by
  unfold State.writeQ
  refine State.modCore_keeps _ _ _ ?_
  exact h

theorem State.deliver_keeps {r : State} (a0 : State) (a1 : Nat) (a2 : Option (Nat × Nat)) (a3 : Insn) (a4 : List (Nat × Word)) (h : Keeps r a0) : Keeps r (State.deliver a0 a1 a2 a3 a4) := by
  unfold State.deliver
  refine keeps_ite _ ?_ ?_
  · refine State.modCore_keeps _ _ _ ?_
    exact h
  · refine State.finish_keeps _ _ _ _ ?_
    exact h

/-! ## Computations that access memory -/

/-- A computation with memory accesses keeps `r` if it starts from a state that does. -/
def CMK {α : Type} (r : State) (m : CM α) : Prop := ∀ x : Run, Keeps r x.s → Keeps r (m x).2.s

theorem cm_pure {α : Type} {r : State} (a : α) : CMK r (pure a : CM α) := fun _ h => h

theorem cm_bind {α β : Type} {r : State} {m : CM α} {k : α → CM β} (hm : CMK r m) (hk : ∀ a, CMK r (k a)) :
    CMK r (m >>= k) := by
  intro x h
  have h1 := hm x h
  show Keeps r (ExceptT.bindCont k (m x).1 (m x).2).2.s
  generalize m x = y at h1 ⊢
  obtain ⟨e, z⟩ := y
  cases e with
  | ok a => exact hk a z h1
  | error e => exact h1

theorem cm_ite {α : Type} {r : State} {m n : CM α} (c : Prop) [Decidable c] (hm : CMK r m) (hn : CMK r n) :
    CMK r (if c then m else n) := by
  split
  · exact hm
  · exact hn

theorem fm_cmk {α : Type} {r : State} (m : FM α) : CMK r (fm m) := fun _ h => h

theorem failWith_cmk {α : Type} {r : State} (v e : Nat) : CMK r (failWith v e : CM α) := fun _ h => h

theorem ldN_cmk {r : State} (c ea n : Nat) : CMK r (ldN c ea n) := by
  intro x h
  have h1 := State.coreRead_keeps x.s c ea n h
  unfold ldN
  split
  · exact h
  · dsimp only
    split <;> exact h1

theorem stN_cmk {r : State} (c ea n v : Nat) : CMK r (stN c ea n v) := by
  intro x h
  have h1 := State.coreWrite_keeps x.s c ea n v h
  unfold stN
  split
  · exact h
  · dsimp only
    split <;> exact h1

theorem ldW_cmk {r : State} (c ea : Nat) : CMK r (ldW c ea) := cm_bind (ldN_cmk c _ 4) (fun _ => cm_pure _)
theorem stW_cmk {r : State} (c ea : Nat) (v : Word) : CMK r (stW c ea v) := stN_cmk c _ 4 _

theorem preCheck_cmk {r : State} (c : Nat) (l : List (Nat × Nat × Right)) : CMK r (preCheck c l) := by
  intro x h
  unfold preCheck
  split
  · exact h
  · split <;> exact h

theorem State.runG_keeps {r : State} (a0 : State) (a1 : Nat) (a2 : Insn) (a3 : CM (List (Nat × Word))) (h : Keeps r a0)
    (hm : CMK r a3) : Keeps r (State.runG a0 a1 a2 a3) := by
  have h1 : Keeps r (a3.run { s := a0 }).2.s := hm _ h
  unfold State.runG
  generalize a3.run { s := a0 } = y at h1
  obtain ⟨e, z⟩ := y
  cases e with
  | ok a => exact State.deliver_keeps _ _ _ _ _ (State.modCore_keeps _ _ _ h1)
  | error e => exact State.exc_keeps _ _ _ _ h1

/-! ## The DSP group, the block groups and RELEASE -/

theorem recordWords_cmk {r : State} (c a n : Nat) : CMK r (recordWords c a n) := by
  induction n generalizing a with
  | zero => exact cm_pure _
  | succ n ih => exact cm_bind (ldN_cmk c _ 4) (fun _ => cm_bind (ih _) (fun _ => cm_pure _))

theorem recordAt_cmk {r : State} (c ea : Nat) : CMK r (recordAt c ea) := by
  unfold recordAt
  refine cm_ite _ (cm_pure _) (cm_bind (ldN_cmk c ea 4) (fun h => ?_))
  exact cm_ite _ (cm_pure _) (recordWords_cmk c ea _)

theorem readStage_cmk {r : State} (c a : Nat) : CMK r (readStage c a) := by
  unfold readStage
  exact cm_bind (ldW_cmk c _) fun _ => cm_bind (ldW_cmk c _) fun _ => cm_bind (ldW_cmk c _) fun _ =>
    cm_bind (ldW_cmk c _) fun _ => cm_bind (ldW_cmk c _) fun _ => cm_bind (ldW_cmk c _) fun _ =>
    cm_bind (ldW_cmk c _) fun _ => cm_pure _

theorem writeStage_cmk {r : State} (c a : Nat) (b : BStage) : CMK r (writeStage c a b) :=
  cm_bind (stW_cmk c _ _) fun _ => stW_cmk c _ _

theorem readStages_cmk {r : State} (c a n : Nat) : CMK r (readStages c a n) := by
  induction n generalizing a with
  | zero => exact cm_pure _
  | succ n ih => exact cm_bind (readStage_cmk c a) fun _ => cm_bind (ih _) fun _ => cm_pure _

theorem writeStages_cmk {r : State} (c a : Nat) (l : List BStage) : CMK r (writeStages c a l) := by
  induction l generalizing a with
  | nil => exact cm_pure _
  | cons b l ih => exact cm_bind (writeStage_cmk c a b) fun _ => ih _

theorem tint_cmk {r : State} (c n : Nat) (x : Word) (a : Nat) : CMK r (tint c n x a) := by
  unfold tint
  refine cm_ite _ (cm_pure _) (cm_ite _ (ldW_cmk c a) (cm_bind (fm_cmk _) fun i => ?_))
  exact cm_ite _ (ldW_cmk c _) (cm_bind (preCheck_cmk c _) fun _ => cm_bind (ldW_cmk c _) fun _ => cm_bind (ldW_cmk c _) fun _ =>
    fm_cmk _)

theorem notMram_cmk {r : State} (c ea : Nat) : CMK r (notMram c ea) := by
  intro x h
  unfold notMram
  repeat' split
  all_goals exact h

theorem rlu_cmk {r : State} (c tab desc : Nat) : CMK r (rlu c tab desc) := by
  unfold rlu
  refine cm_bind (preCheck_cmk c _) fun _ => cm_bind (ldN_cmk c _ 4) fun _ => cm_bind (ldW_cmk c _) fun _ =>
    cm_bind (ldW_cmk c _) fun _ => cm_bind (ldW_cmk c _) fun _ => cm_bind (ldW_cmk c _) fun _ => cm_bind (notMram_cmk c tab) fun _ =>
    cm_bind (ldN_cmk c _ 1) fun _ => cm_ite _ (cm_pure _) (cm_bind (ldN_cmk c _ 2) fun _ => cm_ite _ (cm_pure _) ?_)
  exact cm_bind (preCheck_cmk c _) fun _ => cm_bind (ldW_cmk c _) fun _ => cm_bind (fm_cmk _) fun _ => cm_bind (fm_cmk _) fun _ =>
    cm_bind (ldN_cmk c _ 4) fun _ => cm_bind (stW_cmk c _ _) fun _ => cm_bind (stN_cmk c _ 4 _) fun _ => cm_pure _

theorem elem2_cmk {r : State} (rd rs1 rs2 : BitVec 5) (g : Word → Word → FM Word) (c : Nat) (x : Ctx) (i : Nat) :
    CMK r (elem2 rd rs1 rs2 g c x i) :=
  cm_bind (preCheck_cmk c _) fun _ => cm_bind (ldW_cmk c _) fun _ => cm_bind (ldW_cmk c _) fun _ =>
    cm_bind (fm_cmk _) fun _ => stW_cmk c _ _

theorem blockLoop_keeps {r : State} (f : Nat → CM Unit) (hf : ∀ i, CMK r (f i)) (k i : Nat) (x : Run) (h : Keeps r x.s) :
    Keeps r (blockLoop f k i x).2.2.s := by
  induction k generalizing i x with
  | zero => exact h
  | succ k ih =>
    have h1 : Keeps r ((f i).run x).2.s := hf i x h
    unfold blockLoop
    generalize (f i).run x = y at h1
    obtain ⟨e, z⟩ := y
    cases e with
    | ok a => exact ih (i + 1) z h1
    | error e => exact h1

theorem aluR_keeps {r : State} (a0 : Nat) (a1 : Nat) (a2 : BitVec 4) (a3 : BitVec 5) (a4 : BitVec 5) (a5 : BitVec 5) (a6 : Word → Word → Word) (a7 : State) (h : Keeps r a7) : Keeps r (aluR a0 a1 a2 a3 a4 a5 a6 a7) := by
  unfold aluR
  refine State.insn_keeps _ _ _ _ _ ?_ ?_
  · exact h
  · intro w0_0 hw0
    refine State.writeG_keeps _ _ _ _ _ ?_
    exact hw0

theorem execAdd_keeps {r : State} (a0 : Fin 36) (a1 : BitVec 4) (a2 : BitVec 5) (a3 : BitVec 5) (a4 : BitVec 5) (a5 : State) (h : Keeps r a5) (t : State) (e : execAdd a0 a1 a2 a3 a4 a5 = .next t) : Keeps r t := by
  unfold execAdd at e
  injection e with e
  subst e
  repeat' (first | assumption | intro _ | with_reducible apply aluR_keeps | with_reducible apply keeps_ite | split | dsimp only)

theorem execSub_keeps {r : State} (a0 : Fin 36) (a1 : BitVec 4) (a2 : BitVec 5) (a3 : BitVec 5) (a4 : BitVec 5) (a5 : State) (h : Keeps r a5) (t : State) (e : execSub a0 a1 a2 a3 a4 a5 = .next t) : Keeps r t := by
  unfold execSub at e
  injection e with e
  subst e
  repeat' (first | assumption | intro _ | with_reducible apply aluR_keeps | with_reducible apply keeps_ite | split | dsimp only)

theorem execAnd_keeps {r : State} (a0 : Fin 36) (a1 : BitVec 4) (a2 : BitVec 5) (a3 : BitVec 5) (a4 : BitVec 5) (a5 : State) (h : Keeps r a5) (t : State) (e : execAnd a0 a1 a2 a3 a4 a5 = .next t) : Keeps r t := by
  unfold execAnd at e
  injection e with e
  subst e
  repeat' (first | assumption | intro _ | with_reducible apply aluR_keeps | with_reducible apply keeps_ite | split | dsimp only)

theorem execOr_keeps {r : State} (a0 : Fin 36) (a1 : BitVec 4) (a2 : BitVec 5) (a3 : BitVec 5) (a4 : BitVec 5) (a5 : State) (h : Keeps r a5) (t : State) (e : execOr a0 a1 a2 a3 a4 a5 = .next t) : Keeps r t := by
  unfold execOr at e
  injection e with e
  subst e
  repeat' (first | assumption | intro _ | with_reducible apply aluR_keeps | with_reducible apply keeps_ite | split | dsimp only)

theorem execXor_keeps {r : State} (a0 : Fin 36) (a1 : BitVec 4) (a2 : BitVec 5) (a3 : BitVec 5) (a4 : BitVec 5) (a5 : State) (h : Keeps r a5) (t : State) (e : execXor a0 a1 a2 a3 a4 a5 = .next t) : Keeps r t := by
  unfold execXor at e
  injection e with e
  subst e
  repeat' (first | assumption | intro _ | with_reducible apply aluR_keeps | with_reducible apply keeps_ite | split | dsimp only)

theorem execShl_keeps {r : State} (a0 : Fin 36) (a1 : BitVec 4) (a2 : BitVec 5) (a3 : BitVec 5) (a4 : BitVec 5) (a5 : State) (h : Keeps r a5) (t : State) (e : execShl a0 a1 a2 a3 a4 a5 = .next t) : Keeps r t := by
  unfold execShl at e
  injection e with e
  subst e
  repeat' (first | assumption | intro _ | with_reducible apply aluR_keeps | with_reducible apply keeps_ite | split | dsimp only)

theorem execShr_keeps {r : State} (a0 : Fin 36) (a1 : BitVec 4) (a2 : BitVec 5) (a3 : BitVec 5) (a4 : BitVec 5) (a5 : State) (h : Keeps r a5) (t : State) (e : execShr a0 a1 a2 a3 a4 a5 = .next t) : Keeps r t := by
  unfold execShr at e
  injection e with e
  subst e
  repeat' (first | assumption | intro _ | with_reducible apply aluR_keeps | with_reducible apply keeps_ite | split | dsimp only)

theorem execSar_keeps {r : State} (a0 : Fin 36) (a1 : BitVec 4) (a2 : BitVec 5) (a3 : BitVec 5) (a4 : BitVec 5) (a5 : State) (h : Keeps r a5) (t : State) (e : execSar a0 a1 a2 a3 a4 a5 = .next t) : Keeps r t := by
  unfold execSar at e
  injection e with e
  subst e
  repeat' (first | assumption | intro _ | with_reducible apply aluR_keeps | with_reducible apply keeps_ite | split | dsimp only)

theorem execMul_keeps {r : State} (a0 : Fin 36) (a1 : BitVec 4) (a2 : BitVec 5) (a3 : BitVec 5) (a4 : BitVec 5) (a5 : State) (h : Keeps r a5) (t : State) (e : execMul a0 a1 a2 a3 a4 a5 = .next t) : Keeps r t := by
  unfold execMul at e
  injection e with e
  subst e
  repeat' (first | assumption | intro _ | with_reducible apply aluR_keeps | with_reducible apply keeps_ite | split | dsimp only)

theorem execMulh_keeps {r : State} (a0 : Fin 36) (a1 : BitVec 4) (a2 : BitVec 5) (a3 : BitVec 5) (a4 : BitVec 5) (a5 : State) (h : Keeps r a5) (t : State) (e : execMulh a0 a1 a2 a3 a4 a5 = .next t) : Keeps r t := by
  unfold execMulh at e
  injection e with e
  subst e
  repeat' (first | assumption | intro _ | with_reducible apply aluR_keeps | with_reducible apply keeps_ite | split | dsimp only)

theorem execMulhu_keeps {r : State} (a0 : Fin 36) (a1 : BitVec 4) (a2 : BitVec 5) (a3 : BitVec 5) (a4 : BitVec 5) (a5 : State) (h : Keeps r a5) (t : State) (e : execMulhu a0 a1 a2 a3 a4 a5 = .next t) : Keeps r t := by
  unfold execMulhu at e
  injection e with e
  subst e
  repeat' (first | assumption | intro _ | with_reducible apply aluR_keeps | with_reducible apply keeps_ite | split | dsimp only)

theorem aluDiv_keeps {r : State} (a0 : Nat) (a1 : Nat) (a2 : BitVec 4) (a3 : BitVec 5) (a4 : BitVec 5) (a5 : BitVec 5) (a6 : Word → Word → Word) (a7 : State) (h : Keeps r a7) : Keeps r (aluDiv a0 a1 a2 a3 a4 a5 a6 a7) := by
  unfold aluDiv
  refine State.insn_keeps _ _ _ _ _ ?_ ?_
  · exact h
  · intro w0_0 hw0
    refine State.writeF_keeps _ _ _ _ ?_
    exact hw0

theorem execDiv_keeps {r : State} (a0 : Fin 36) (a1 : BitVec 4) (a2 : BitVec 5) (a3 : BitVec 5) (a4 : BitVec 5) (a5 : State) (h : Keeps r a5) (t : State) (e : execDiv a0 a1 a2 a3 a4 a5 = .next t) : Keeps r t := by
  unfold execDiv at e
  injection e with e
  subst e
  repeat' (first | assumption | intro _ | with_reducible apply aluDiv_keeps | with_reducible apply keeps_ite | split | dsimp only)

theorem execDivu_keeps {r : State} (a0 : Fin 36) (a1 : BitVec 4) (a2 : BitVec 5) (a3 : BitVec 5) (a4 : BitVec 5) (a5 : State) (h : Keeps r a5) (t : State) (e : execDivu a0 a1 a2 a3 a4 a5 = .next t) : Keeps r t := by
  unfold execDivu at e
  injection e with e
  subst e
  repeat' (first | assumption | intro _ | with_reducible apply aluDiv_keeps | with_reducible apply keeps_ite | split | dsimp only)

theorem execRem_keeps {r : State} (a0 : Fin 36) (a1 : BitVec 4) (a2 : BitVec 5) (a3 : BitVec 5) (a4 : BitVec 5) (a5 : State) (h : Keeps r a5) (t : State) (e : execRem a0 a1 a2 a3 a4 a5 = .next t) : Keeps r t := by
  unfold execRem at e
  injection e with e
  subst e
  repeat' (first | assumption | intro _ | with_reducible apply aluDiv_keeps | with_reducible apply keeps_ite | split | dsimp only)

theorem execRemu_keeps {r : State} (a0 : Fin 36) (a1 : BitVec 4) (a2 : BitVec 5) (a3 : BitVec 5) (a4 : BitVec 5) (a5 : State) (h : Keeps r a5) (t : State) (e : execRemu a0 a1 a2 a3 a4 a5 = .next t) : Keeps r t := by
  unfold execRemu at e
  injection e with e
  subst e
  repeat' (first | assumption | intro _ | with_reducible apply aluDiv_keeps | with_reducible apply keeps_ite | split | dsimp only)

theorem execMin_keeps {r : State} (a0 : Fin 36) (a1 : BitVec 4) (a2 : BitVec 5) (a3 : BitVec 5) (a4 : BitVec 5) (a5 : State) (h : Keeps r a5) (t : State) (e : execMin a0 a1 a2 a3 a4 a5 = .next t) : Keeps r t := by
  unfold execMin at e
  injection e with e
  subst e
  repeat' (first | assumption | intro _ | with_reducible apply aluR_keeps | with_reducible apply keeps_ite | split | dsimp only)

theorem execMax_keeps {r : State} (a0 : Fin 36) (a1 : BitVec 4) (a2 : BitVec 5) (a3 : BitVec 5) (a4 : BitVec 5) (a5 : State) (h : Keeps r a5) (t : State) (e : execMax a0 a1 a2 a3 a4 a5 = .next t) : Keeps r t := by
  unfold execMax at e
  injection e with e
  subst e
  repeat' (first | assumption | intro _ | with_reducible apply aluR_keeps | with_reducible apply keeps_ite | split | dsimp only)

theorem execMinu_keeps {r : State} (a0 : Fin 36) (a1 : BitVec 4) (a2 : BitVec 5) (a3 : BitVec 5) (a4 : BitVec 5) (a5 : State) (h : Keeps r a5) (t : State) (e : execMinu a0 a1 a2 a3 a4 a5 = .next t) : Keeps r t := by
  unfold execMinu at e
  injection e with e
  subst e
  repeat' (first | assumption | intro _ | with_reducible apply aluR_keeps | with_reducible apply keeps_ite | split | dsimp only)

theorem execMaxu_keeps {r : State} (a0 : Fin 36) (a1 : BitVec 4) (a2 : BitVec 5) (a3 : BitVec 5) (a4 : BitVec 5) (a5 : State) (h : Keeps r a5) (t : State) (e : execMaxu a0 a1 a2 a3 a4 a5 = .next t) : Keeps r t := by
  unfold execMaxu at e
  injection e with e
  subst e
  repeat' (first | assumption | intro _ | with_reducible apply aluR_keeps | with_reducible apply keeps_ite | split | dsimp only)

theorem execClz_keeps {r : State} (a0 : Fin 36) (a1 : BitVec 4) (a2 : BitVec 5) (a3 : BitVec 5) (a4 : BitVec 5) (a5 : State) (h : Keeps r a5) (t : State) (e : execClz a0 a1 a2 a3 a4 a5 = .next t) : Keeps r t := by
  unfold execClz at e
  injection e with e
  subst e
  repeat' (first | assumption | intro _ | with_reducible apply aluR_keeps | with_reducible apply keeps_ite | split | dsimp only)

theorem execMov_keeps {r : State} (a0 : Fin 36) (a1 : BitVec 4) (a2 : BitVec 5) (a3 : BitVec 5) (a4 : BitVec 5) (a5 : State) (h : Keeps r a5) (t : State) (e : execMov a0 a1 a2 a3 a4 a5 = .next t) : Keeps r t := by
  unfold execMov at e
  injection e with e
  subst e
  repeat' (first | assumption | intro _ | with_reducible apply aluR_keeps | with_reducible apply keeps_ite | split | dsimp only)

theorem aluI_keeps {r : State} (a0 : Nat) (a1 : Nat) (a2 : BitVec 4) (a3 : BitVec 5) (a4 : BitVec 5) (a5 : BitVec 12) (a6 : Word → Word → Word) (a7 : State) (h : Keeps r a7) : Keeps r (aluI a0 a1 a2 a3 a4 a5 a6 a7) := by
  unfold aluI
  refine State.insn_keeps _ _ _ _ _ ?_ ?_
  · exact h
  · intro w0_0 hw0
    refine State.writeG_keeps _ _ _ _ _ ?_
    exact hw0

theorem execAddi_keeps {r : State} (a0 : Fin 36) (a1 : BitVec 4) (a2 : BitVec 5) (a3 : BitVec 5) (a4 : BitVec 12) (a5 : State) (h : Keeps r a5) (t : State) (e : execAddi a0 a1 a2 a3 a4 a5 = .next t) : Keeps r t := by
  unfold execAddi at e
  injection e with e
  subst e
  repeat' (first | assumption | intro _ | with_reducible apply aluI_keeps | with_reducible apply keeps_ite | split | dsimp only)

theorem execAndi_keeps {r : State} (a0 : Fin 36) (a1 : BitVec 4) (a2 : BitVec 5) (a3 : BitVec 5) (a4 : BitVec 12) (a5 : State) (h : Keeps r a5) (t : State) (e : execAndi a0 a1 a2 a3 a4 a5 = .next t) : Keeps r t := by
  unfold execAndi at e
  injection e with e
  subst e
  repeat' (first | assumption | intro _ | with_reducible apply aluI_keeps | with_reducible apply keeps_ite | split | dsimp only)

theorem execOri_keeps {r : State} (a0 : Fin 36) (a1 : BitVec 4) (a2 : BitVec 5) (a3 : BitVec 5) (a4 : BitVec 12) (a5 : State) (h : Keeps r a5) (t : State) (e : execOri a0 a1 a2 a3 a4 a5 = .next t) : Keeps r t := by
  unfold execOri at e
  injection e with e
  subst e
  repeat' (first | assumption | intro _ | with_reducible apply aluI_keeps | with_reducible apply keeps_ite | split | dsimp only)

theorem execXori_keeps {r : State} (a0 : Fin 36) (a1 : BitVec 4) (a2 : BitVec 5) (a3 : BitVec 5) (a4 : BitVec 12) (a5 : State) (h : Keeps r a5) (t : State) (e : execXori a0 a1 a2 a3 a4 a5 = .next t) : Keeps r t := by
  unfold execXori at e
  injection e with e
  subst e
  repeat' (first | assumption | intro _ | with_reducible apply aluI_keeps | with_reducible apply keeps_ite | split | dsimp only)

theorem execShi_keeps {r : State} (a0 : Fin 36) (a1 : BitVec 4) (a2 : BitVec 5) (a3 : BitVec 5) (a4 : BitVec 12) (a5 : State) (h : Keeps r a5) (t : State) (e : execShi a0 a1 a2 a3 a4 a5 = .next t) : Keeps r t := by
  unfold execShi at e
  injection e with e
  subst e
  repeat' (first | assumption | intro _ | with_reducible apply State.insn_keeps | with_reducible apply State.writeG_keeps | with_reducible apply keeps_ite | split | dsimp only)

theorem execMovi_keeps {r : State} (a0 : Fin 36) (a1 : BitVec 4) (a2 : BitVec 5) (a3 : BitVec 17) (a4 : State) (h : Keeps r a4) (t : State) (e : execMovi a0 a1 a2 a3 a4 = .next t) : Keeps r t := by
  unfold execMovi at e
  injection e with e
  subst e
  repeat' (first | assumption | intro _ | with_reducible apply State.insn_keeps | with_reducible apply State.writeG_keeps | with_reducible apply keeps_ite | split | dsimp only)

theorem execCmp_keeps {r : State} (a0 : Fin 36) (a1 : BitVec 4) (a2 : BitVec 3) (a3 : BitVec 3) (a4 : BitVec 5) (a5 : BitVec 5) (a6 : BitVec 6) (a7 : State) (h : Keeps r a7) (t : State) (e : execCmp a0 a1 a2 a3 a4 a5 a6 a7 = .next t) : Keeps r t := by
  unfold execCmp at e
  injection e with e
  subst e
  repeat' (first | assumption | intro _ | with_reducible apply State.insn_keeps | with_reducible apply State.finish_keeps | with_reducible apply keeps_ite | split | dsimp only)

theorem fpu_keeps {r : State} (a0 : Nat) (a1 : Nat) (a2 : BitVec 4) (a3 : BitVec 5) (a4 : BitVec 5) (a5 : BitVec 5) (a6 : Word → Word → Word → FM Word) (a7 : State) (h : Keeps r a7) : Keeps r (fpu a0 a1 a2 a3 a4 a5 a6 a7) := by
  unfold fpu
  refine State.insn_keeps _ _ _ _ _ ?_ ?_
  · exact h
  · intro w0_0 hw0
    refine State.writeF_keeps _ _ _ _ ?_
    exact hw0

theorem execFadd_keeps {r : State} (a0 : Fin 36) (a1 : BitVec 4) (a2 : BitVec 5) (a3 : BitVec 5) (a4 : BitVec 5) (a5 : State) (h : Keeps r a5) (t : State) (e : execFadd a0 a1 a2 a3 a4 a5 = .next t) : Keeps r t := by
  unfold execFadd at e
  injection e with e
  subst e
  repeat' (first | assumption | intro _ | with_reducible apply fpu_keeps | with_reducible apply keeps_ite | split | dsimp only)

theorem execFsub_keeps {r : State} (a0 : Fin 36) (a1 : BitVec 4) (a2 : BitVec 5) (a3 : BitVec 5) (a4 : BitVec 5) (a5 : State) (h : Keeps r a5) (t : State) (e : execFsub a0 a1 a2 a3 a4 a5 = .next t) : Keeps r t := by
  unfold execFsub at e
  injection e with e
  subst e
  repeat' (first | assumption | intro _ | with_reducible apply fpu_keeps | with_reducible apply keeps_ite | split | dsimp only)

theorem execFmul_keeps {r : State} (a0 : Fin 36) (a1 : BitVec 4) (a2 : BitVec 5) (a3 : BitVec 5) (a4 : BitVec 5) (a5 : State) (h : Keeps r a5) (t : State) (e : execFmul a0 a1 a2 a3 a4 a5 = .next t) : Keeps r t := by
  unfold execFmul at e
  injection e with e
  subst e
  repeat' (first | assumption | intro _ | with_reducible apply fpu_keeps | with_reducible apply keeps_ite | split | dsimp only)

theorem execFfma_keeps {r : State} (a0 : Fin 36) (a1 : BitVec 4) (a2 : BitVec 5) (a3 : BitVec 5) (a4 : BitVec 5) (a5 : State) (h : Keeps r a5) (t : State) (e : execFfma a0 a1 a2 a3 a4 a5 = .next t) : Keeps r t := by
  unfold execFfma at e
  injection e with e
  subst e
  repeat' (first | assumption | intro _ | with_reducible apply fpu_keeps | with_reducible apply keeps_ite | split | dsimp only)

theorem execFfms_keeps {r : State} (a0 : Fin 36) (a1 : BitVec 4) (a2 : BitVec 5) (a3 : BitVec 5) (a4 : BitVec 5) (a5 : State) (h : Keeps r a5) (t : State) (e : execFfms a0 a1 a2 a3 a4 a5 = .next t) : Keeps r t := by
  unfold execFfms at e
  injection e with e
  subst e
  repeat' (first | assumption | intro _ | with_reducible apply fpu_keeps | with_reducible apply keeps_ite | split | dsimp only)

theorem execFdiv_keeps {r : State} (a0 : Fin 36) (a1 : BitVec 4) (a2 : BitVec 5) (a3 : BitVec 5) (a4 : BitVec 5) (a5 : State) (h : Keeps r a5) (t : State) (e : execFdiv a0 a1 a2 a3 a4 a5 = .next t) : Keeps r t := by
  unfold execFdiv at e
  injection e with e
  subst e
  repeat' (first | assumption | intro _ | with_reducible apply fpu_keeps | with_reducible apply keeps_ite | split | dsimp only)

theorem execFsqrt_keeps {r : State} (a0 : Fin 36) (a1 : BitVec 4) (a2 : BitVec 5) (a3 : BitVec 5) (a4 : BitVec 5) (a5 : State) (h : Keeps r a5) (t : State) (e : execFsqrt a0 a1 a2 a3 a4 a5 = .next t) : Keeps r t := by
  unfold execFsqrt at e
  injection e with e
  subst e
  repeat' (first | assumption | intro _ | with_reducible apply fpu_keeps | with_reducible apply keeps_ite | split | dsimp only)

theorem execFmin_keeps {r : State} (a0 : Fin 36) (a1 : BitVec 4) (a2 : BitVec 5) (a3 : BitVec 5) (a4 : BitVec 5) (a5 : State) (h : Keeps r a5) (t : State) (e : execFmin a0 a1 a2 a3 a4 a5 = .next t) : Keeps r t := by
  unfold execFmin at e
  injection e with e
  subst e
  repeat' (first | assumption | intro _ | with_reducible apply fpu_keeps | with_reducible apply keeps_ite | split | dsimp only)

theorem execFmax_keeps {r : State} (a0 : Fin 36) (a1 : BitVec 4) (a2 : BitVec 5) (a3 : BitVec 5) (a4 : BitVec 5) (a5 : State) (h : Keeps r a5) (t : State) (e : execFmax a0 a1 a2 a3 a4 a5 = .next t) : Keeps r t := by
  unfold execFmax at e
  injection e with e
  subst e
  repeat' (first | assumption | intro _ | with_reducible apply fpu_keeps | with_reducible apply keeps_ite | split | dsimp only)

theorem execFabs_keeps {r : State} (a0 : Fin 36) (a1 : BitVec 4) (a2 : BitVec 5) (a3 : BitVec 5) (a4 : BitVec 5) (a5 : State) (h : Keeps r a5) (t : State) (e : execFabs a0 a1 a2 a3 a4 a5 = .next t) : Keeps r t := by
  unfold execFabs at e
  injection e with e
  subst e
  repeat' (first | assumption | intro _ | with_reducible apply fpu_keeps | with_reducible apply keeps_ite | split | dsimp only)

theorem execFneg_keeps {r : State} (a0 : Fin 36) (a1 : BitVec 4) (a2 : BitVec 5) (a3 : BitVec 5) (a4 : BitVec 5) (a5 : State) (h : Keeps r a5) (t : State) (e : execFneg a0 a1 a2 a3 a4 a5 = .next t) : Keeps r t := by
  unfold execFneg at e
  injection e with e
  subst e
  repeat' (first | assumption | intro _ | with_reducible apply fpu_keeps | with_reducible apply keeps_ite | split | dsimp only)

theorem execFclamp_keeps {r : State} (a0 : Fin 36) (a1 : BitVec 4) (a2 : BitVec 5) (a3 : BitVec 5) (a4 : BitVec 5) (a5 : State) (h : Keeps r a5) (t : State) (e : execFclamp a0 a1 a2 a3 a4 a5 = .next t) : Keeps r t := by
  unfold execFclamp at e
  injection e with e
  subst e
  repeat' (first | assumption | intro _ | with_reducible apply fpu_keeps | with_reducible apply keeps_ite | split | dsimp only)

theorem execCvtif_keeps {r : State} (a0 : Fin 36) (a1 : BitVec 4) (a2 : BitVec 5) (a3 : BitVec 5) (a4 : BitVec 5) (a5 : State) (h : Keeps r a5) (t : State) (e : execCvtif a0 a1 a2 a3 a4 a5 = .next t) : Keeps r t := by
  unfold execCvtif at e
  injection e with e
  subst e
  repeat' (first | assumption | intro _ | with_reducible apply fpu_keeps | with_reducible apply keeps_ite | split | dsimp only)

theorem execCvtuf_keeps {r : State} (a0 : Fin 36) (a1 : BitVec 4) (a2 : BitVec 5) (a3 : BitVec 5) (a4 : BitVec 5) (a5 : State) (h : Keeps r a5) (t : State) (e : execCvtuf a0 a1 a2 a3 a4 a5 = .next t) : Keeps r t := by
  unfold execCvtuf at e
  injection e with e
  subst e
  repeat' (first | assumption | intro _ | with_reducible apply fpu_keeps | with_reducible apply keeps_ite | split | dsimp only)

theorem execCvtfi_keeps {r : State} (a0 : Fin 36) (a1 : BitVec 4) (a2 : BitVec 5) (a3 : BitVec 5) (a4 : BitVec 5) (a5 : State) (h : Keeps r a5) (t : State) (e : execCvtfi a0 a1 a2 a3 a4 a5 = .next t) : Keeps r t := by
  unfold execCvtfi at e
  injection e with e
  subst e
  repeat' (first | assumption | intro _ | with_reducible apply fpu_keeps | with_reducible apply keeps_ite | split | dsimp only)

theorem execCvtfu_keeps {r : State} (a0 : Fin 36) (a1 : BitVec 4) (a2 : BitVec 5) (a3 : BitVec 5) (a4 : BitVec 5) (a5 : State) (h : Keeps r a5) (t : State) (e : execCvtfu a0 a1 a2 a3 a4 a5 = .next t) : Keeps r t := by
  unfold execCvtfu at e
  injection e with e
  subst e
  repeat' (first | assumption | intro _ | with_reducible apply fpu_keeps | with_reducible apply keeps_ite | split | dsimp only)

theorem execFtrunc_keeps {r : State} (a0 : Fin 36) (a1 : BitVec 4) (a2 : BitVec 5) (a3 : BitVec 5) (a4 : BitVec 5) (a5 : State) (h : Keeps r a5) (t : State) (e : execFtrunc a0 a1 a2 a3 a4 a5 = .next t) : Keeps r t := by
  unfold execFtrunc at e
  injection e with e
  subst e
  repeat' (first | assumption | intro _ | with_reducible apply fpu_keeps | with_reducible apply keeps_ite | split | dsimp only)

theorem execFfloor_keeps {r : State} (a0 : Fin 36) (a1 : BitVec 4) (a2 : BitVec 5) (a3 : BitVec 5) (a4 : BitVec 5) (a5 : State) (h : Keeps r a5) (t : State) (e : execFfloor a0 a1 a2 a3 a4 a5 = .next t) : Keeps r t := by
  unfold execFfloor at e
  injection e with e
  subst e
  repeat' (first | assumption | intro _ | with_reducible apply fpu_keeps | with_reducible apply keeps_ite | split | dsimp only)

theorem execFsin_keeps {r : State} (a0 : Fin 36) (a1 : BitVec 4) (a2 : BitVec 5) (a3 : BitVec 5) (a4 : BitVec 5) (a5 : State) (h : Keeps r a5) (t : State) (e : execFsin a0 a1 a2 a3 a4 a5 = .next t) : Keeps r t := by
  unfold execFsin at e
  injection e with e
  subst e
  repeat' (first | assumption | intro _ | with_reducible apply fpu_keeps | with_reducible apply keeps_ite | split | dsimp only)

theorem execFcos_keeps {r : State} (a0 : Fin 36) (a1 : BitVec 4) (a2 : BitVec 5) (a3 : BitVec 5) (a4 : BitVec 5) (a5 : State) (h : Keeps r a5) (t : State) (e : execFcos a0 a1 a2 a3 a4 a5 = .next t) : Keeps r t := by
  unfold execFcos at e
  injection e with e
  subst e
  repeat' (first | assumption | intro _ | with_reducible apply fpu_keeps | with_reducible apply keeps_ite | split | dsimp only)

theorem scaled_keeps {r : State} (a0 : Nat) (a1 : Nat) (a2 : BitVec 4) (a3 : BitVec 5) (a4 : BitVec 5) (a5 : BitVec 5) (a6 : Word → Nat → Word → FM Word) (a7 : State) (h : Keeps r a7) : Keeps r (scaled a0 a1 a2 a3 a4 a5 a6 a7) := by
  unfold scaled
  extract_lets -merge -useContext +onlyGivenNames z0
  clear_value z0
  extract_lets -merge -useContext +onlyGivenNames z1
  clear_value z1
  refine State.insn_keeps _ _ _ _ _ ?_ ?_
  · exact h
  · intro w2_0 hw2
    refine keeps_ite _ ?_ ?_
    · refine State.exc_keeps _ _ _ _ ?_
      exact hw2
    · refine State.writeF_keeps _ _ _ _ ?_
      exact hw2

theorem execSmvf_keeps {r : State} (a0 : Fin 36) (a1 : BitVec 4) (a2 : BitVec 5) (a3 : BitVec 5) (a4 : BitVec 5) (a5 : State) (h : Keeps r a5) (t : State) (e : execSmvf a0 a1 a2 a3 a4 a5 = .next t) : Keeps r t := by
  unfold execSmvf at e
  injection e with e
  subst e
  repeat' (first | assumption | intro _ | with_reducible apply scaled_keeps | with_reducible apply keeps_ite | split | dsimp only)

theorem execSmvi_keeps {r : State} (a0 : Fin 36) (a1 : BitVec 4) (a2 : BitVec 5) (a3 : BitVec 5) (a4 : BitVec 5) (a5 : State) (h : Keeps r a5) (t : State) (e : execSmvi a0 a1 a2 a3 a4 a5 = .next t) : Keeps r t := by
  unfold execSmvi at e
  injection e with e
  subst e
  repeat' (first | assumption | intro _ | with_reducible apply scaled_keeps | with_reducible apply keeps_ite | split | dsimp only)

theorem longI_keeps {r : State} (a0 : Nat) (a1 : Nat) (a2 : BitVec 4) (a3 : BitVec 5) (a4 : BitVec 5) (a5 : Word → Word) (a6 : State) (h : Keeps r a6) : Keeps r (longI a0 a1 a2 a3 a4 a5 a6) := by
  unfold longI
  refine State.insn_keeps _ _ _ _ _ ?_ ?_
  · exact h
  · intro w0_0 hw0
    refine State.writeG_keeps _ _ _ _ _ ?_
    exact hw0

theorem execLi_keeps {r : State} (a0 : Fin 36) (a1 : BitVec 4) (a2 : BitVec 5) (a3 : BitVec 5) (a4 : Word) (a5 : State) (h : Keeps r a5) (t : State) (e : execLi a0 a1 a2 a3 a4 a5 = .next t) : Keeps r t := by
  unfold execLi at e
  injection e with e
  subst e
  repeat' (first | assumption | intro _ | with_reducible apply longI_keeps | with_reducible apply keeps_ite | split | dsimp only)

theorem execAddi32_keeps {r : State} (a0 : Fin 36) (a1 : BitVec 4) (a2 : BitVec 5) (a3 : BitVec 5) (a4 : Word) (a5 : State) (h : Keeps r a5) (t : State) (e : execAddi32 a0 a1 a2 a3 a4 a5 = .next t) : Keeps r t := by
  unfold execAddi32 at e
  injection e with e
  subst e
  repeat' (first | assumption | intro _ | with_reducible apply longI_keeps | with_reducible apply keeps_ite | split | dsimp only)

theorem execAndi32_keeps {r : State} (a0 : Fin 36) (a1 : BitVec 4) (a2 : BitVec 5) (a3 : BitVec 5) (a4 : Word) (a5 : State) (h : Keeps r a5) (t : State) (e : execAndi32 a0 a1 a2 a3 a4 a5 = .next t) : Keeps r t := by
  unfold execAndi32 at e
  injection e with e
  subst e
  repeat' (first | assumption | intro _ | with_reducible apply longI_keeps | with_reducible apply keeps_ite | split | dsimp only)

theorem execOri32_keeps {r : State} (a0 : Fin 36) (a1 : BitVec 4) (a2 : BitVec 5) (a3 : BitVec 5) (a4 : Word) (a5 : State) (h : Keeps r a5) (t : State) (e : execOri32 a0 a1 a2 a3 a4 a5 = .next t) : Keeps r t := by
  unfold execOri32 at e
  injection e with e
  subst e
  repeat' (first | assumption | intro _ | with_reducible apply longI_keeps | with_reducible apply keeps_ite | split | dsimp only)

theorem execXori32_keeps {r : State} (a0 : Fin 36) (a1 : BitVec 4) (a2 : BitVec 5) (a3 : BitVec 5) (a4 : Word) (a5 : State) (h : Keeps r a5) (t : State) (e : execXori32 a0 a1 a2 a3 a4 a5 = .next t) : Keeps r t := by
  unfold execXori32 at e
  injection e with e
  subst e
  repeat' (first | assumption | intro _ | with_reducible apply longI_keeps | with_reducible apply keeps_ite | split | dsimp only)

end Sys2Proof.Machine
end

