-- ==== Sys2Proof/Laws/KeepsOps6.lean ====
section
/-! SUPPORT. Every operation of the files IsaMem, IsaFlow, IsaStrand, IsaBlock, IsaVec, Place, FidFire, Boundary, RegRows keeps what `Keeps` says: the queue, canonical stores, the free
counter and the fuses. -/

namespace Sys2Proof.Machine

theorem loadOp_keeps {r : State} (a0 : Nat) (a1 : BitVec 4) (a2 : Insn) (a3 : BitVec 5) (a4 : BitVec 5) (a5 : Int) (a6 : Nat) (a7 : Nat → Word) (a8 : State) (h : Keeps r a8) : Keeps r (loadOp a0 a1 a2 a3 a4 a5 a6 a7 a8) := by
  unfold loadOp
  refine State.insn_keeps _ _ _ _ _ h (fun s hs => State.runG_keeps _ _ _ _ hs ?_)
  exact cm_bind (ldN_cmk _ _ _) (fun _ => cm_pure _)

theorem execLdb_keeps {r : State} (a0 : Fin 36) (a1 : BitVec 4) (a2 : BitVec 5) (a3 : BitVec 5) (a4 : BitVec 12) (a5 : State) (h : Keeps r a5) (t : State) (e : execLdb a0 a1 a2 a3 a4 a5 = .next t) : Keeps r t := by
  unfold execLdb at e
  injection e with e
  subst e
  repeat' (first | assumption | intro _ | with_reducible apply loadOp_keeps | with_reducible apply keeps_ite | split | dsimp only)

theorem execLdbu_keeps {r : State} (a0 : Fin 36) (a1 : BitVec 4) (a2 : BitVec 5) (a3 : BitVec 5) (a4 : BitVec 12) (a5 : State) (h : Keeps r a5) (t : State) (e : execLdbu a0 a1 a2 a3 a4 a5 = .next t) : Keeps r t := by
  unfold execLdbu at e
  injection e with e
  subst e
  repeat' (first | assumption | intro _ | with_reducible apply loadOp_keeps | with_reducible apply keeps_ite | split | dsimp only)

theorem execLdh_keeps {r : State} (a0 : Fin 36) (a1 : BitVec 4) (a2 : BitVec 5) (a3 : BitVec 5) (a4 : BitVec 12) (a5 : State) (h : Keeps r a5) (t : State) (e : execLdh a0 a1 a2 a3 a4 a5 = .next t) : Keeps r t := by
  unfold execLdh at e
  injection e with e
  subst e
  repeat' (first | assumption | intro _ | with_reducible apply loadOp_keeps | with_reducible apply keeps_ite | split | dsimp only)

theorem execLdhu_keeps {r : State} (a0 : Fin 36) (a1 : BitVec 4) (a2 : BitVec 5) (a3 : BitVec 5) (a4 : BitVec 12) (a5 : State) (h : Keeps r a5) (t : State) (e : execLdhu a0 a1 a2 a3 a4 a5 = .next t) : Keeps r t := by
  unfold execLdhu at e
  injection e with e
  subst e
  repeat' (first | assumption | intro _ | with_reducible apply loadOp_keeps | with_reducible apply keeps_ite | split | dsimp only)

theorem execLdw_keeps {r : State} (a0 : Fin 36) (a1 : BitVec 4) (a2 : BitVec 5) (a3 : BitVec 5) (a4 : BitVec 12) (a5 : State) (h : Keeps r a5) (t : State) (e : execLdw a0 a1 a2 a3 a4 a5 = .next t) : Keeps r t := by
  unfold execLdw at e
  injection e with e
  subst e
  repeat' (first | assumption | intro _ | with_reducible apply loadOp_keeps | with_reducible apply keeps_ite | split | dsimp only)

theorem execLdd_keeps {r : State} (a0 : Fin 36) (a1 : BitVec 4) (a2 : BitVec 5) (a3 : BitVec 5) (a4 : BitVec 12) (a5 : State) (h : Keeps r a5) (t : State) (e : execLdd a0 a1 a2 a3 a4 a5 = .next t) : Keeps r t := by
  unfold execLdd at e
  injection e with e
  subst e
  refine State.insn_keeps _ _ _ _ _ h (fun s hs => State.runG_keeps _ _ _ _ hs ?_)
  exact cm_bind (ldN_cmk _ _ _) (fun _ => cm_pure _)

theorem execLdw32_keeps {r : State} (a0 : Fin 36) (a1 : BitVec 4) (a2 : BitVec 5) (a3 : BitVec 5) (a4 : Word) (a5 : State) (h : Keeps r a5) (t : State) (e : execLdw32 a0 a1 a2 a3 a4 a5 = .next t) : Keeps r t := by
  unfold execLdw32 at e
  injection e with e
  subst e
  repeat' (first | assumption | intro _ | with_reducible apply loadOp_keeps | with_reducible apply keeps_ite | split | dsimp only)

theorem State.postStore_keeps {r : State} (a0 : State) (a1 : Nat) (a2 : Insn) (a3 : Nat) (a4 : Nat) (a5 : Nat) (h : Keeps r a0) : Keeps r (State.postStore a0 a1 a2 a3 a4 a5) := by
  unfold State.postStore
  refine keeps_ite _ ?_ ?_
  · refine State.exc_keeps _ _ _ _ ?_
    exact h
  · extract_lets -merge -useContext +onlyGivenNames z0
    have hz0 : Keeps r z0.2 := by
      unfold z0
      refine State.coreWrite_keeps _ _ _ _ _ ?_
      exact h
    clear_value z0
    split
    · refine State.exc_keeps _ _ _ _ ?_
      exact hz0
    · refine State.finish_keeps _ _ _ _ ?_
      refine State.notePosted_keeps _ _ ?_
      refine State.storeError_keeps _ _ _ ?_
      exact hz0
    · refine State.finish_keeps _ _ _ _ ?_
      refine State.notePosted_keeps _ _ ?_
      exact hz0

theorem storeOp_keeps {r : State} (a0 : Nat) (a1 : BitVec 4) (a2 : Insn) (a3 : BitVec 5) (a4 : Int) (a5 : Nat) (a6 : Ctx → Nat) (a7 : State) (h : Keeps r a7) : Keeps r (storeOp a0 a1 a2 a3 a4 a5 a6 a7) := by
  unfold storeOp
  refine State.insn_keeps _ _ _ _ _ ?_ ?_
  · exact h
  · intro w0_0 hw0
    refine State.postStore_keeps _ _ _ _ _ _ ?_
    exact hw0

theorem execStb_keeps {r : State} (a0 : Fin 36) (a1 : BitVec 4) (a2 : BitVec 5) (a3 : BitVec 5) (a4 : BitVec 12) (a5 : State) (h : Keeps r a5) (t : State) (e : execStb a0 a1 a2 a3 a4 a5 = .next t) : Keeps r t := by
  unfold execStb at e
  injection e with e
  subst e
  repeat' (first | assumption | intro _ | with_reducible apply storeOp_keeps | with_reducible apply keeps_ite | split | dsimp only)

theorem execSth_keeps {r : State} (a0 : Fin 36) (a1 : BitVec 4) (a2 : BitVec 5) (a3 : BitVec 5) (a4 : BitVec 12) (a5 : State) (h : Keeps r a5) (t : State) (e : execSth a0 a1 a2 a3 a4 a5 = .next t) : Keeps r t := by
  unfold execSth at e
  injection e with e
  subst e
  repeat' (first | assumption | intro _ | with_reducible apply storeOp_keeps | with_reducible apply keeps_ite | split | dsimp only)

theorem execStw_keeps {r : State} (a0 : Fin 36) (a1 : BitVec 4) (a2 : BitVec 5) (a3 : BitVec 5) (a4 : BitVec 12) (a5 : State) (h : Keeps r a5) (t : State) (e : execStw a0 a1 a2 a3 a4 a5 = .next t) : Keeps r t := by
  unfold execStw at e
  injection e with e
  subst e
  repeat' (first | assumption | intro _ | with_reducible apply storeOp_keeps | with_reducible apply keeps_ite | split | dsimp only)

theorem execStd_keeps {r : State} (a0 : Fin 36) (a1 : BitVec 4) (a2 : BitVec 5) (a3 : BitVec 5) (a4 : BitVec 12) (a5 : State) (h : Keeps r a5) (t : State) (e : execStd a0 a1 a2 a3 a4 a5 = .next t) : Keeps r t := by
  unfold execStd at e
  injection e with e
  subst e
  repeat' (first | assumption | intro _ | with_reducible apply storeOp_keeps | with_reducible apply keeps_ite | split | dsimp only)

theorem execStw32_keeps {r : State} (a0 : Fin 36) (a1 : BitVec 4) (a2 : BitVec 5) (a3 : BitVec 5) (a4 : Word) (a5 : State) (h : Keeps r a5) (t : State) (e : execStw32 a0 a1 a2 a3 a4 a5 = .next t) : Keeps r t := by
  unfold execStw32 at e
  injection e with e
  subst e
  repeat' (first | assumption | intro _ | with_reducible apply storeOp_keeps | with_reducible apply keeps_ite | split | dsimp only)

theorem State.branchTo_keeps {r : State} (a0 : State) (a1 : Nat) (a2 : Nat) (a3 : Ctx → Ctx) (h : Keeps r a0) : Keeps r (State.branchTo a0 a1 a2 a3) := by
  unfold State.branchTo
  refine State.modCore_keeps _ _ _ ?_
  exact h

theorem execB_keeps {r : State} (a0 : Fin 36) (a1 : BitVec 4) (a2 : BitVec 22) (a3 : State) (h : Keeps r a3) (t : State) (e : execB a0 a1 a2 a3 = .next t) : Keeps r t := by
  unfold execB at e
  injection e with e
  subst e
  repeat' (first | assumption | intro _ | with_reducible apply State.insn_keeps | with_reducible apply State.branchTo_keeps | with_reducible apply keeps_ite | split | dsimp only)

theorem execBl_keeps {r : State} (a0 : Fin 36) (a1 : BitVec 4) (a2 : BitVec 22) (a3 : State) (h : Keeps r a3) (t : State) (e : execBl a0 a1 a2 a3 = .next t) : Keeps r t := by
  unfold execBl at e
  injection e with e
  subst e
  repeat' (first | assumption | intro _ | with_reducible apply State.insn_keeps | with_reducible apply State.branchTo_keeps | with_reducible apply keeps_ite | split | dsimp only)

theorem branchReg_keeps {r : State} (a0 : Nat) (a1 : Nat) (a2 : BitVec 4) (a3 : BitVec 5) (a4 : BitVec 5) (a5 : BitVec 5) (a6 : Bool) (a7 : State) (h : Keeps r a7) : Keeps r (branchReg a0 a1 a2 a3 a4 a5 a6 a7) := by
  unfold branchReg
  extract_lets -merge -useContext +onlyGivenNames z0
  clear_value z0
  refine State.insn_keeps _ _ _ _ _ ?_ ?_
  · exact h
  · intro w1_0 hw1
    extract_lets -merge -useContext +onlyGivenNames z2
    clear_value z2
    refine keeps_ite _ ?_ ?_
    · refine State.exc_keeps _ _ _ _ ?_
      exact hw1
    · refine keeps_ite _ ?_ ?_
      · refine State.branchTo_keeps _ _ _ _ ?_
        exact hw1
      · refine State.branchTo_keeps _ _ _ _ ?_
        exact hw1

theorem execBr_keeps {r : State} (a0 : Fin 36) (a1 : BitVec 4) (a2 : BitVec 5) (a3 : BitVec 5) (a4 : BitVec 5) (a5 : State) (h : Keeps r a5) (t : State) (e : execBr a0 a1 a2 a3 a4 a5 = .next t) : Keeps r t := by
  unfold execBr at e
  injection e with e
  subst e
  repeat' (first | assumption | intro _ | with_reducible apply branchReg_keeps | with_reducible apply keeps_ite | split | dsimp only)

theorem execBlr_keeps {r : State} (a0 : Fin 36) (a1 : BitVec 4) (a2 : BitVec 5) (a3 : BitVec 5) (a4 : BitVec 5) (a5 : State) (h : Keeps r a5) (t : State) (e : execBlr a0 a1 a2 a3 a4 a5 = .next t) : Keeps r t := by
  unfold execBlr at e
  injection e with e
  subst e
  repeat' (first | assumption | intro _ | with_reducible apply branchReg_keeps | with_reducible apply keeps_ite | split | dsimp only)

theorem execRep_keeps {r : State} (a0 : Fin 36) (a1 : BitVec 4) (a2 : BitVec 8) (a3 : Bool) (a4 : Bool) (a5 : BitVec 12) (a6 : State) (h : Keeps r a6) (t : State) (e : execRep a0 a1 a2 a3 a4 a5 a6 = .next t) : Keeps r t := by
  unfold execRep at e
  injection e with e
  subst e
  repeat' (first | assumption | intro _ | with_reducible apply State.insn_keeps | with_reducible apply State.exc_keeps | with_reducible apply State.setCtx_keeps | with_reducible apply keeps_ite | split | dsimp only)

theorem execNop_keeps {r : State} (a0 : Fin 36) (a1 : BitVec 4) (a2 : BitVec 5) (a3 : BitVec 5) (a4 : BitVec 5) (a5 : State) (h : Keeps r a5) (t : State) (e : execNop a0 a1 a2 a3 a4 a5 = .next t) : Keeps r t := by
  unfold execNop at e
  injection e with e
  subst e
  repeat' (first | assumption | intro _ | with_reducible apply State.insn_keeps | with_reducible apply State.finish_keeps | with_reducible apply keeps_ite | split | dsimp only)

theorem execFence_keeps {r : State} (a0 : Fin 36) (a1 : BitVec 4) (a2 : BitVec 5) (a3 : BitVec 5) (a4 : BitVec 5) (a5 : State) (h : Keeps r a5) (t : State) (e : execFence a0 a1 a2 a3 a4 a5 = .next t) : Keeps r t := by
  unfold execFence at e
  injection e with e
  subst e
  repeat' (first | assumption | intro _ | with_reducible apply State.insn_keeps | with_reducible apply State.finish_keeps | with_reducible apply State.modStrand_keeps | with_reducible apply keeps_ite | split | dsimp only)

theorem State.excAfter_keeps {r : State} (a0 : State) (a1 : Nat) (a2 : Nat) (a3 : Nat) (h : Keeps r a0) : Keeps r (State.excAfter a0 a1 a2 a3) := by
  unfold State.excAfter
  extract_lets -merge -useContext +onlyGivenNames z0
  have hz0 : Keeps r z0 := by
    unfold z0
    refine State.finish_keeps _ _ _ _ ?_
    exact h
  clear_value z0
  refine State.exc_keeps _ _ _ _ ?_
  refine State.modCore_keeps _ _ _ ?_
  exact hz0

theorem execSyscall_keeps {r : State} (a0 : Fin 36) (a1 : BitVec 4) (a2 : BitVec 5) (a3 : BitVec 5) (a4 : BitVec 5) (a5 : State) (h : Keeps r a5) (t : State) (e : execSyscall a0 a1 a2 a3 a4 a5 = .next t) : Keeps r t := by
  unfold execSyscall at e
  injection e with e
  subst e
  repeat' (first | assumption | intro _ | with_reducible apply State.insn_keeps | with_reducible apply State.excAfter_keeps | with_reducible apply keeps_ite | split | dsimp only)

theorem execEret_keeps {r : State} (a0 : Fin 36) (a1 : BitVec 4) (a2 : BitVec 5) (a3 : BitVec 5) (a4 : BitVec 5) (a5 : State) (h : Keeps r a5) (t : State) (e : execEret a0 a1 a2 a3 a4 a5 = .next t) : Keeps r t := by
  unfold execEret at e
  injection e with e
  subst e
  repeat' (first | assumption | intro _ | with_reducible apply State.insn_keeps | with_reducible apply State.exc_keeps | with_reducible apply State.eret_keeps | with_reducible apply keeps_ite | split | dsimp only)

theorem State.debugHalt_keeps {r : State} (a0 : State) (a1 : Nat) (h : Keeps r a0) : Keeps r (State.debugHalt a0 a1) := by
  unfold State.debugHalt
  refine keeps_ite _ ?_ ?_
  · exact h
  · extract_lets -merge -useContext +onlyGivenNames z0
    have hz0 : Keeps r z0 := by
      unfold z0
      refine State.syncHalt_keeps _ _ ?_
      refine State.modCore_keeps _ _ _ ?_
      exact h
    clear_value z0
    refine State.freezeCore_keeps _ _ ?_
    refine State.freeSlot_keeps _ _ ?_
    exact hz0

theorem State.haltEnd_keeps {r : State} (a0 : State) (a1 : Nat) (h : Keeps r a0) : Keeps r (State.haltEnd a0 a1) := by
  unfold State.haltEnd
  refine keeps_ite _ ?_ ?_
  · exact h
  · refine State.thawCore_keeps _ _ ?_
    refine State.syncHalt_keeps _ _ ?_
    refine State.modCore_keeps _ _ _ ?_
    exact h

theorem execDebugHalt_keeps {r : State} (a0 : Fin 36) (a1 : State) (h : Keeps r a1) (t : State) (e : execDebugHalt a0 a1 = .next t) : Keeps r t := by
  unfold execDebugHalt at e
  injection e with e
  subst e
  repeat' (first | assumption | intro _ | with_reducible apply State.debugHalt_keeps | with_reducible apply keeps_ite | split | dsimp only)

theorem execHaltEnd_keeps {r : State} (a0 : Fin 36) (a1 : State) (h : Keeps r a1) (t : State) (e : execHaltEnd a0 a1 = .next t) : Keeps r t := by
  unfold execHaltEnd at e
  injection e with e
  subst e
  repeat' (first | assumption | intro _ | with_reducible apply State.settle_keeps | with_reducible apply State.haltEnd_keeps | with_reducible apply keeps_ite | split | dsimp only)

theorem execBrk_keeps {r : State} (a0 : Fin 36) (a1 : BitVec 4) (a2 : BitVec 5) (a3 : BitVec 5) (a4 : BitVec 5) (a5 : State) (h : Keeps r a5) (t : State) (e : execBrk a0 a1 a2 a3 a4 a5 = .next t) : Keeps r t := by
  unfold execBrk at e
  injection e with e
  subst e
  repeat' (first | assumption | intro _ | with_reducible apply State.insn_keeps | with_reducible apply State.debugHalt_keeps | with_reducible apply State.finish_keeps | with_reducible apply State.excAfter_keeps | with_reducible apply keeps_ite | split | dsimp only)

theorem execMfs_keeps {r : State} (a0 : Fin 36) (a1 : BitVec 4) (a2 : BitVec 5) (a3 : BitVec 12) (a4 : State) (h : Keeps r a4) (t : State) (e : execMfs a0 a1 a2 a3 a4 = .next t) : Keeps r t := by
  unfold execMfs at e
  injection e with e
  subst e
  repeat' (first | assumption | intro _ | with_reducible apply State.insn_keeps | with_reducible apply State.exc_keeps | with_reducible apply State.writeG_keeps | with_reducible apply State.burn_keeps | with_reducible apply keeps_ite | split | dsimp only)

theorem execMts_keeps {r : State} (a0 : Fin 36) (a1 : BitVec 4) (a2 : BitVec 5) (a3 : BitVec 12) (a4 : State) (h : Keeps r a4) (t : State) (e : execMts a0 a1 a2 a3 a4 = .next t) : Keeps r t := by
  unfold execMts at e
  injection e with e
  subst e
  repeat' (first | assumption | intro _ | with_reducible apply State.insn_keeps | with_reducible apply State.exc_keeps | with_reducible apply State.finish_keeps | with_reducible apply State.modCore_keeps | with_reducible apply keeps_ite | split | dsimp only)

theorem mmuOp_keeps {r : State} (a0 : Nat) (a1 : Nat) (a2 : BitVec 4) (a3 : BitVec 5) (a4 : BitVec 5) (a5 : BitVec 5) (a6 : Ctx → List Tlb → List Tlb) (a7 : State) (h : Keeps r a7) : Keeps r (mmuOp a0 a1 a2 a3 a4 a5 a6 a7) := by
  unfold mmuOp
  extract_lets -merge -useContext +onlyGivenNames z0
  clear_value z0
  refine State.insn_keeps _ _ _ _ _ ?_ ?_
  · exact h
  · intro w1_0 hw1
    refine keeps_ite _ ?_ ?_
    · refine State.exc_keeps _ _ _ _ ?_
      exact hw1
    · refine keeps_ite _ ?_ ?_
      · refine State.exc_keeps _ _ _ _ ?_
        exact hw1
      · refine State.finish_keeps _ _ _ _ ?_
        refine State.modCore_keeps _ _ _ ?_
        exact hw1

theorem execTlbinv_keeps {r : State} (a0 : Fin 36) (a1 : BitVec 4) (a2 : BitVec 5) (a3 : BitVec 5) (a4 : BitVec 5) (a5 : State) (h : Keeps r a5) (t : State) (e : execTlbinv a0 a1 a2 a3 a4 a5 = .next t) : Keeps r t := by
  unfold execTlbinv at e
  injection e with e
  subst e
  repeat' (first | assumption | intro _ | with_reducible apply mmuOp_keeps | with_reducible apply keeps_ite | split | dsimp only)

theorem execTlbinvd_keeps {r : State} (a0 : Fin 36) (a1 : BitVec 4) (a2 : BitVec 5) (a3 : BitVec 5) (a4 : BitVec 5) (a5 : State) (h : Keeps r a5) (t : State) (e : execTlbinvd a0 a1 a2 a3 a4 a5 = .next t) : Keeps r t := by
  unfold execTlbinvd at e
  injection e with e
  subst e
  repeat' (first | assumption | intro _ | with_reducible apply mmuOp_keeps | with_reducible apply keeps_ite | split | dsimp only)

theorem execTlbinva_keeps {r : State} (a0 : Fin 36) (a1 : BitVec 4) (a2 : BitVec 5) (a3 : BitVec 5) (a4 : BitVec 5) (a5 : State) (h : Keeps r a5) (t : State) (e : execTlbinva a0 a1 a2 a3 a4 a5 = .next t) : Keeps r t := by
  unfold execTlbinva at e
  injection e with e
  subst e
  repeat' (first | assumption | intro _ | with_reducible apply mmuOp_keeps | with_reducible apply keeps_ite | split | dsimp only)

theorem execIcinv_keeps {r : State} (a0 : Fin 36) (a1 : BitVec 4) (a2 : BitVec 5) (a3 : BitVec 5) (a4 : BitVec 5) (a5 : State) (h : Keeps r a5) (t : State) (e : execIcinv a0 a1 a2 a3 a4 a5 = .next t) : Keeps r t := by
  unfold execIcinv at e
  injection e with e
  subst e
  repeat' (first | assumption | intro _ | with_reducible apply mmuOp_keeps | with_reducible apply keeps_ite | split | dsimp only)

theorem execDcfl_keeps {r : State} (a0 : Fin 36) (a1 : BitVec 4) (a2 : BitVec 5) (a3 : BitVec 5) (a4 : BitVec 5) (a5 : State) (h : Keeps r a5) (t : State) (e : execDcfl a0 a1 a2 a3 a4 a5 = .next t) : Keeps r t := by
  unfold execDcfl at e
  injection e with e
  subst e
  repeat' (first | assumption | intro _ | with_reducible apply mmuOp_keeps | with_reducible apply keeps_ite | split | dsimp only)

theorem execDcfla_keeps {r : State} (a0 : Fin 36) (a1 : BitVec 4) (a2 : BitVec 5) (a3 : BitVec 5) (a4 : BitVec 5) (a5 : State) (h : Keeps r a5) (t : State) (e : execDcfla a0 a1 a2 a3 a4 a5 = .next t) : Keeps r t := by
  unfold execDcfla at e
  injection e with e
  subst e
  repeat' (first | assumption | intro _ | with_reducible apply mmuOp_keeps | with_reducible apply keeps_ite | split | dsimp only)

theorem State.waitop_keeps {r : State} (a0 : State) (a1 : Nat) (h : Keeps r a0) : Keeps r (State.waitop a0 a1) := by
  unfold State.waitop
  extract_lets -merge -useContext +onlyGivenNames z0
  clear_value z0
  refine keeps_ite _ ?_ ?_
  · refine State.endDetached_keeps _ _ ?_
    exact h
  · extract_lets -merge -useContext +onlyGivenNames z1
    clear_value z1
    extract_lets -merge -useContext +onlyGivenNames z2
    have hz2 : Keeps r z2 := by
      unfold z2
      refine State.traceS_keeps _ _ _ _ _ ?_
      exact h
    clear_value z2
    extract_lets -merge -useContext +onlyGivenNames z3
    have hz3 : Keeps r z3 := by
      unfold z3
      refine State.suspend_keeps _ _ ?_
      exact hz2
    clear_value z3
    extract_lets -merge -useContext +onlyGivenNames z4
    have hz4 : Keeps r z4 := by
      unfold z4
      refine keeps_ite _ ?_ ?_
      · refine State.makeReady_keeps _ _ _ _ ?_
        refine State.modStrand_keeps _ _ _ ?_
        exact hz3
      · refine State.setSt_keeps _ _ _ ?_
        exact hz3
    clear_value z4
    refine State.vacated_keeps _ _ _ _ ?_
    exact hz4

theorem execWaitop_keeps {r : State} (a0 : Fin 36) (a1 : BitVec 4) (a2 : BitVec 5) (a3 : BitVec 5) (a4 : BitVec 5) (a5 : State) (h : Keeps r a5) (t : State) (e : execWaitop a0 a1 a2 a3 a4 a5 = .next t) : Keeps r t := by
  unfold execWaitop at e
  injection e with e
  subst e
  repeat' (first | assumption | intro _ | with_reducible apply State.insn_keeps | with_reducible apply State.waitop_keeps | with_reducible apply keeps_ite | split | dsimp only)

theorem execRelease_keeps {r : State} (a0 : Fin 36) (a1 : BitVec 4) (a2 : BitVec 5) (a3 : BitVec 5) (a4 : BitVec 5) (a5 : State) (h : Keeps r a5) (t : State) (e : execRelease a0 a1 a2 a3 a4 a5 = .next t) : Keeps r t := by
  unfold execRelease at e
  injection e with e
  subst e
  refine State.insn_keeps _ _ _ _ _ h (fun s hs => ?_)
  have h1 : Keeps r ((recordAt a0 (s.gOf a0 a3)).run { s := s }).2.s := recordAt_cmk _ _ _ hs
  dsimp only
  generalize (recordAt a0 (s.gOf a0 a3)).run { s := s } = y at h1
  obtain ⟨e, z⟩ := y
  cases e with
  | ok a => exact State.finish_keeps _ _ _ _ (State.notePosted_keeps _ _ (keeps_dsp h1 _ (fun y => y)))
  | error e => exact State.exc_keeps _ _ _ _ h1

theorem execTagrd_keeps {r : State} (a0 : Fin 36) (a1 : BitVec 4) (a2 : BitVec 5) (a3 : BitVec 5) (a4 : BitVec 5) (a5 : State) (h : Keeps r a5) (t : State) (e : execTagrd a0 a1 a2 a3 a4 a5 = .next t) : Keeps r t := by
  unfold execTagrd at e
  injection e with e
  subst e
  repeat' (first | assumption | intro _ | with_reducible apply State.insn_keeps | with_reducible apply State.dspOrder_keeps | with_reducible apply State.exc_keeps | with_reducible apply State.modStrand_keeps | with_reducible apply State.deliver_keeps | with_reducible apply State.emptyTag_keeps | with_reducible apply State.refuse_keeps | with_reducible apply keeps_ite | split | dsimp only)

theorem State.dspStore_keeps {r : State} (a0 : State) (a1 : Nat) (a2 : Nat) (a3 : Nat) (h : Keeps r a0) : Keeps r (State.dspStore a0 a1 a2 a3) := by
  unfold State.dspStore
  refine keeps_ite _ ?_ ?_
  · refine State.exc_keeps _ _ _ _ ?_
    exact h
  · extract_lets -merge -useContext +onlyGivenNames z0
    have hz0 : Keeps r z0.2 := by
      unfold z0
      refine State.regWrite_keeps _ _ _ _ ?_
      refine State.dspOrder_keeps _ _ ?_
      exact h
    clear_value z0
    refine keeps_ite _ ?_ ?_
    · refine State.finish_keeps _ _ _ _ ?_
      refine State.notePosted_keeps _ _ ?_
      exact hz0
    · refine State.exc_keeps _ _ _ _ ?_
      exact hz0

theorem execTagwr_keeps {r : State} (a0 : Fin 36) (a1 : BitVec 4) (a2 : BitVec 5) (a3 : BitVec 5) (a4 : BitVec 5) (a5 : State) (h : Keeps r a5) (t : State) (e : execTagwr a0 a1 a2 a3 a4 a5 = .next t) : Keeps r t := by
  unfold execTagwr at e
  injection e with e
  subst e
  repeat' (first | assumption | intro _ | with_reducible apply State.insn_keeps | with_reducible apply State.dspStore_keeps | with_reducible apply keeps_ite | split | dsimp only)

theorem execKopen_keeps {r : State} (a0 : Fin 36) (a1 : BitVec 4) (a2 : BitVec 5) (a3 : BitVec 5) (a4 : BitVec 5) (a5 : State) (h : Keeps r a5) (t : State) (e : execKopen a0 a1 a2 a3 a4 a5 = .next t) : Keeps r t := by
  unfold execKopen at e
  injection e with e
  subst e
  repeat' (first | assumption | intro _ | with_reducible apply State.insn_keeps | with_reducible apply State.exc_keeps | with_reducible apply State.kopen_keeps | with_reducible apply State.dspOrder_keeps | with_reducible apply State.deliver_keeps | with_reducible apply State.refuse_keeps | with_reducible apply keeps_ite | split | dsimp only)

theorem execKadd_keeps {r : State} (a0 : Fin 36) (a1 : BitVec 4) (a2 : BitVec 5) (a3 : BitVec 5) (a4 : BitVec 5) (a5 : State) (h : Keeps r a5) (t : State) (e : execKadd a0 a1 a2 a3 a4 a5 = .next t) : Keeps r t := by
  unfold execKadd at e
  injection e with e
  subst e
  refine State.insn_keeps _ _ _ _ _ h (fun s hs => ?_)
  dsimp only
  split
  · exact State.exc_keeps _ _ _ _ hs
  refine keeps_ite _ (State.exc_keeps _ _ _ _ hs) ?_
  have h1 : Keeps r ((recordWords a0 (s.gOf a0 a4) 4).run { s := s }).2.s := recordWords_cmk _ _ _ _ hs
  generalize (recordWords a0 (s.gOf a0 a4) 4).run { s := s } = y at h1
  obtain ⟨e, z⟩ := y
  cases e with
  | error e => exact State.exc_keeps _ _ _ _ h1
  | ok a =>
    have h2 : Keeps r (z.s.dspOrder a0) := State.dspOrder_keeps _ _ h1
    dsimp only
    split
    · exact State.deliver_keeps _ _ _ _ _ (State.knotAdd_keeps _ _ _ h2)
    · exact State.exc_keeps _ _ _ _ (State.refuse_keeps _ _ _ _ _ h2)

theorem execKclose_keeps {r : State} (a0 : Fin 36) (a1 : BitVec 4) (a2 : BitVec 5) (a3 : BitVec 5) (a4 : BitVec 5) (a5 : State) (h : Keeps r a5) (t : State) (e : execKclose a0 a1 a2 a3 a4 a5 = .next t) : Keeps r t := by
  unfold execKclose at e
  injection e with e
  subst e
  repeat' (first | assumption | intro _ | with_reducible apply State.insn_keeps | with_reducible apply State.exc_keeps | with_reducible apply State.dspStore_keeps | with_reducible apply keeps_ite | split | dsimp only)

theorem dspOp_keeps {r : State} (a0 : Nat) (a1 : Nat) (a2 : BitVec 4) (a3 : BitVec 5) (a4 : BitVec 5) (a5 : BitVec 5) (a6 : BitVec 3) (a7 : Bool) (a8 : Nat → Word → Nat → Word → CM (List (Nat × Word))) (a9 : State) (h : Keeps r a9) (hm : ∀ c x a d, CMK r (a8 c x a d)) : Keeps r (dspOp a0 a1 a2 a3 a4 a5 a6 a7 a8 a9) := by
  unfold dspOp
  exact State.insn_keeps _ _ _ _ _ h (fun s hs => State.runG_keeps _ _ _ _ hs (hm _ _ _ _))

theorem execBiq_keeps {r : State} (a0 : Fin 36) (a1 : BitVec 4) (a2 : BitVec 5) (a3 : BitVec 5) (a4 : BitVec 5) (a5 : BitVec 3) (a6 : State) (h : Keeps r a6) (t : State) (e : execBiq a0 a1 a2 a3 a4 a5 a6 = .next t) : Keeps r t := by
  unfold execBiq at e
  injection e with e
  subst e
  refine dspOp_keeps _ _ _ _ _ _ _ _ _ _ h (fun c x a d => ?_)
  exact cm_bind (preCheck_cmk _ _) (fun _ => cm_bind (readStages_cmk _ _ _) (fun _ => cm_bind (fm_cmk _) (fun _ => cm_bind (writeStages_cmk _ _ _) (fun _ => cm_pure _))))

theorem execPi_keeps {r : State} (a0 : Fin 36) (a1 : BitVec 4) (a2 : BitVec 5) (a3 : BitVec 5) (a4 : BitVec 5) (a5 : BitVec 3) (a6 : State) (h : Keeps r a6) (t : State) (e : execPi a0 a1 a2 a3 a4 a5 a6 = .next t) : Keeps r t := by
  unfold execPi at e
  injection e with e
  subst e
  refine dspOp_keeps _ _ _ _ _ _ _ _ _ _ h (fun c x a d => ?_)
  exact cm_bind (preCheck_cmk _ _) (fun _ => cm_bind (ldW_cmk _ _) (fun _ => cm_bind (ldW_cmk _ _) (fun _ => cm_bind (fm_cmk _) (fun _ => cm_pure _))))

theorem execPiu_keeps {r : State} (a0 : Fin 36) (a1 : BitVec 4) (a2 : BitVec 5) (a3 : BitVec 5) (a4 : BitVec 5) (a5 : BitVec 3) (a6 : State) (h : Keeps r a6) (t : State) (e : execPiu a0 a1 a2 a3 a4 a5 a6 = .next t) : Keeps r t := by
  unfold execPiu at e
  injection e with e
  subst e
  refine dspOp_keeps _ _ _ _ _ _ _ _ _ _ h (fun c x a d => ?_)
  exact cm_bind (preCheck_cmk _ _) (fun _ => cm_bind (ldW_cmk _ _) (fun _ => cm_bind (ldW_cmk _ _) (fun _ => cm_bind (ldW_cmk _ _) (fun _ => cm_bind (ldW_cmk _ _) (fun _ => cm_bind (fm_cmk _) (fun _ => cm_bind (fm_cmk _) (fun _ => cm_bind (stW_cmk _ _ _) (fun _ => cm_pure _))))))))

theorem execTint_keeps {r : State} (a0 : Fin 36) (a1 : BitVec 4) (a2 : BitVec 5) (a3 : BitVec 5) (a4 : BitVec 5) (a5 : BitVec 3) (a6 : State) (h : Keeps r a6) (t : State) (e : execTint a0 a1 a2 a3 a4 a5 a6 = .next t) : Keeps r t := by
  unfold execTint at e
  injection e with e
  subst e
  refine dspOp_keeps _ _ _ _ _ _ _ _ _ _ h (fun c x a d => ?_)
  exact cm_bind (tint_cmk _ _ _ _) (fun _ => cm_pure _)

theorem execRlu_keeps {r : State} (a0 : Fin 36) (a1 : BitVec 4) (a2 : BitVec 5) (a3 : BitVec 5) (a4 : BitVec 5) (a5 : BitVec 3) (a6 : State) (h : Keeps r a6) (t : State) (e : execRlu a0 a1 a2 a3 a4 a5 a6 = .next t) : Keeps r t := by
  unfold execRlu at e
  injection e with e
  subst e
  refine dspOp_keeps _ _ _ _ _ _ _ _ _ _ h (fun c x a d => ?_)
  exact cm_bind (rlu_cmk _ _ _) (fun _ => cm_bind (fun x hx => hx) (fun _ => cm_pure _))

theorem blockOp_keeps {r : State} (a0 : Nat) (a1 : Nat) (a2 : Nat) (a3 : BitVec 4) (a4 : BitVec 5) (a5 : BitVec 5) (a6 : BitVec 5) (a7 : BitVec 5) (a8 : Nat → Ctx → Nat → CM Unit) (a9 : State) (h : Keeps r a9) (hm : ∀ c x i, CMK r (a8 c x i)) : Keeps r (blockOp a0 a1 a2 a3 a4 a5 a6 a7 a8 a9) := by
  unfold blockOp
  refine State.insn_keeps _ _ _ _ _ h (fun s hs => ?_)
  dsimp only
  refine keeps_ite _ (State.exc_keeps _ _ _ _ hs) (keeps_ite _ (State.finish_keeps _ _ _ _ hs) ?_)
  have h1 := blockLoop_keeps (r := r) _ (hm a2 ((s.core a2).ctx))
    (s.blockStop a2 ((s.core a2).ctx.reg a7.toNat).toNat (s.core a2).ctx.prog - (s.core a2).ctx.prog)
    (s.core a2).ctx.prog { s := s.burn } (State.burn_keeps _ hs)
  generalize blockLoop _ _ _ _ = q at h1
  split
  · exact State.exc_keeps _ _ _ _ (State.modCore_keeps _ _ _ (State.modCore_keeps _ _ _ h1))
  · refine keeps_ite _ (State.modCore_keeps _ _ _ (State.modCore_keeps _ _ _ h1)) ?_
    exact State.deliver_keeps _ _ _ _ _ (State.modCore_keeps _ _ _ (State.modCore_keeps _ _ _ h1))

theorem execBcopy_keeps {r : State} (a0 : Fin 36) (a1 : BitVec 4) (a2 : BitVec 5) (a3 : BitVec 5) (a4 : BitVec 5) (a5 : BitVec 5) (a6 : State) (h : Keeps r a6) (t : State) (e : execBcopy a0 a1 a2 a3 a4 a5 a6 = .next t) : Keeps r t := by
  unfold execBcopy at e
  injection e with e
  subst e
  refine blockOp_keeps _ _ _ _ _ _ _ _ _ _ h (fun c x i => ?_)
  exact cm_bind (preCheck_cmk _ _) (fun _ => cm_bind (ldW_cmk _ _) (fun _ => stW_cmk _ _ _))

theorem execBfill_keeps {r : State} (a0 : Fin 36) (a1 : BitVec 4) (a2 : BitVec 5) (a3 : BitVec 5) (a4 : BitVec 5) (a5 : BitVec 5) (a6 : State) (h : Keeps r a6) (t : State) (e : execBfill a0 a1 a2 a3 a4 a5 a6 = .next t) : Keeps r t := by
  unfold execBfill at e
  injection e with e
  subst e
  refine blockOp_keeps _ _ _ _ _ _ _ _ _ _ h (fun c x i => ?_)
  exact stW_cmk _ _ _

theorem execBadd_keeps {r : State} (a0 : Fin 36) (a1 : BitVec 4) (a2 : BitVec 5) (a3 : BitVec 5) (a4 : BitVec 5) (a5 : BitVec 5) (a6 : State) (h : Keeps r a6) (t : State) (e : execBadd a0 a1 a2 a3 a4 a5 a6 = .next t) : Keeps r t := by
  unfold execBadd at e
  injection e with e
  subst e
  exact blockOp_keeps _ _ _ _ _ _ _ _ _ _ h (fun c x i => elem2_cmk _ _ _ _ c x i)

theorem execBsub_keeps {r : State} (a0 : Fin 36) (a1 : BitVec 4) (a2 : BitVec 5) (a3 : BitVec 5) (a4 : BitVec 5) (a5 : BitVec 5) (a6 : State) (h : Keeps r a6) (t : State) (e : execBsub a0 a1 a2 a3 a4 a5 a6 = .next t) : Keeps r t := by
  unfold execBsub at e
  injection e with e
  subst e
  exact blockOp_keeps _ _ _ _ _ _ _ _ _ _ h (fun c x i => elem2_cmk _ _ _ _ c x i)

theorem execBmul_keeps {r : State} (a0 : Fin 36) (a1 : BitVec 4) (a2 : BitVec 5) (a3 : BitVec 5) (a4 : BitVec 5) (a5 : BitVec 5) (a6 : State) (h : Keeps r a6) (t : State) (e : execBmul a0 a1 a2 a3 a4 a5 a6 = .next t) : Keeps r t := by
  unfold execBmul at e
  injection e with e
  subst e
  exact blockOp_keeps _ _ _ _ _ _ _ _ _ _ h (fun c x i => elem2_cmk _ _ _ _ c x i)

theorem execBfma_keeps {r : State} (a0 : Fin 36) (a1 : BitVec 4) (a2 : BitVec 5) (a3 : BitVec 5) (a4 : BitVec 5) (a5 : BitVec 5) (a6 : State) (h : Keeps r a6) (t : State) (e : execBfma a0 a1 a2 a3 a4 a5 a6 = .next t) : Keeps r t := by
  unfold execBfma at e
  injection e with e
  subst e
  refine blockOp_keeps _ _ _ _ _ _ _ _ _ _ h (fun c x i => ?_)
  exact cm_bind (preCheck_cmk _ _) (fun _ => cm_bind (ldW_cmk _ _) (fun _ => cm_bind (ldW_cmk _ _) (fun _ => cm_bind (ldW_cmk _ _) (fun _ => cm_bind (fm_cmk _) (fun _ => stW_cmk _ _ _)))))

theorem execBtint_keeps {r : State} (a0 : Fin 36) (a1 : BitVec 4) (a2 : BitVec 5) (a3 : BitVec 5) (a4 : BitVec 5) (a5 : BitVec 5) (a6 : State) (h : Keeps r a6) (t : State) (e : execBtint a0 a1 a2 a3 a4 a5 a6 = .next t) : Keeps r t := by
  unfold execBtint at e
  injection e with e
  subst e
  refine blockOp_keeps _ _ _ _ _ _ _ _ _ _ h (fun c x i => ?_)
  exact cm_bind (preCheck_cmk _ _) (fun _ => cm_bind (ldW_cmk _ _) (fun _ => cm_bind (ldN_cmk _ _ _) (fun _ => cm_bind (tint_cmk _ _ _ _) (fun _ => stW_cmk _ _ _))))

theorem execBbiq_keeps {r : State} (a0 : Fin 36) (a1 : BitVec 4) (a2 : BitVec 5) (a3 : BitVec 5) (a4 : BitVec 5) (a5 : BitVec 5) (a6 : State) (h : Keeps r a6) (t : State) (e : execBbiq a0 a1 a2 a3 a4 a5 a6 = .next t) : Keeps r t := by
  unfold execBbiq at e
  injection e with e
  subst e
  refine blockOp_keeps _ _ _ _ _ _ _ _ _ _ h (fun c x i => ?_)
  exact cm_bind (preCheck_cmk _ _) (fun _ => cm_bind (ldW_cmk _ _) (fun _ => cm_bind (readStage_cmk _ _) (fun _ => cm_bind (fm_cmk _) (fun _ => cm_bind (stW_cmk _ _ _) (fun _ => writeStage_cmk _ _ _)))))

theorem State.vecRun_keeps {r : State} (a0 : State) (a1 : Nat) (a2 : Nat) (a3 : Nat) (a4 : FM (BitVec 128)) (h : Keeps r a0) : Keeps r (State.vecRun a0 a1 a2 a3 a4) := by
  unfold State.vecRun
  extract_lets -merge -useContext +onlyGivenNames z0
  clear_value z0
  refine State.finish_keeps _ _ _ _ ?_
  refine State.writeQ_keeps _ _ _ _ _ ?_
  exact h

theorem vecOp_keeps {r : State} (a0 : Nat) (a1 : Nat) (a2 : BitVec 4) (a3 : BitVec 6) (a4 : BitVec 6) (a5 : BitVec 6) (a6 : Word → Word → Word → FM Word) (a7 : State) (h : Keeps r a7) : Keeps r (vecOp a0 a1 a2 a3 a4 a5 a6 a7) := by
  unfold vecOp
  refine State.insn_keeps _ _ _ _ _ ?_ ?_
  · exact h
  · intro w0_0 hw0
    extract_lets -merge -useContext +onlyGivenNames z1
    clear_value z1
    refine State.vecRun_keeps _ _ _ _ _ ?_
    exact hw0

theorem execVadd_keeps {r : State} (a0 : Fin 36) (a1 : BitVec 4) (a2 : BitVec 6) (a3 : BitVec 6) (a4 : BitVec 6) (a5 : State) (h : Keeps r a5) (t : State) (e : execVadd a0 a1 a2 a3 a4 a5 = .next t) : Keeps r t := by
  unfold execVadd at e
  injection e with e
  subst e
  repeat' (first | assumption | intro _ | with_reducible apply vecOp_keeps | with_reducible apply keeps_ite | split | dsimp only)

theorem execVsub_keeps {r : State} (a0 : Fin 36) (a1 : BitVec 4) (a2 : BitVec 6) (a3 : BitVec 6) (a4 : BitVec 6) (a5 : State) (h : Keeps r a5) (t : State) (e : execVsub a0 a1 a2 a3 a4 a5 = .next t) : Keeps r t := by
  unfold execVsub at e
  injection e with e
  subst e
  repeat' (first | assumption | intro _ | with_reducible apply vecOp_keeps | with_reducible apply keeps_ite | split | dsimp only)

theorem execVmul_keeps {r : State} (a0 : Fin 36) (a1 : BitVec 4) (a2 : BitVec 6) (a3 : BitVec 6) (a4 : BitVec 6) (a5 : State) (h : Keeps r a5) (t : State) (e : execVmul a0 a1 a2 a3 a4 a5 = .next t) : Keeps r t := by
  unfold execVmul at e
  injection e with e
  subst e
  repeat' (first | assumption | intro _ | with_reducible apply vecOp_keeps | with_reducible apply keeps_ite | split | dsimp only)

theorem execVfma_keeps {r : State} (a0 : Fin 36) (a1 : BitVec 4) (a2 : BitVec 6) (a3 : BitVec 6) (a4 : BitVec 6) (a5 : State) (h : Keeps r a5) (t : State) (e : execVfma a0 a1 a2 a3 a4 a5 = .next t) : Keeps r t := by
  unfold execVfma at e
  injection e with e
  subst e
  repeat' (first | assumption | intro _ | with_reducible apply vecOp_keeps | with_reducible apply keeps_ite | split | dsimp only)

theorem execVfms_keeps {r : State} (a0 : Fin 36) (a1 : BitVec 4) (a2 : BitVec 6) (a3 : BitVec 6) (a4 : BitVec 6) (a5 : State) (h : Keeps r a5) (t : State) (e : execVfms a0 a1 a2 a3 a4 a5 = .next t) : Keeps r t := by
  unfold execVfms at e
  injection e with e
  subst e
  repeat' (first | assumption | intro _ | with_reducible apply vecOp_keeps | with_reducible apply keeps_ite | split | dsimp only)

theorem execVmin_keeps {r : State} (a0 : Fin 36) (a1 : BitVec 4) (a2 : BitVec 6) (a3 : BitVec 6) (a4 : BitVec 6) (a5 : State) (h : Keeps r a5) (t : State) (e : execVmin a0 a1 a2 a3 a4 a5 = .next t) : Keeps r t := by
  unfold execVmin at e
  injection e with e
  subst e
  repeat' (first | assumption | intro _ | with_reducible apply vecOp_keeps | with_reducible apply keeps_ite | split | dsimp only)

theorem execVmax_keeps {r : State} (a0 : Fin 36) (a1 : BitVec 4) (a2 : BitVec 6) (a3 : BitVec 6) (a4 : BitVec 6) (a5 : State) (h : Keeps r a5) (t : State) (e : execVmax a0 a1 a2 a3 a4 a5 = .next t) : Keeps r t := by
  unfold execVmax at e
  injection e with e
  subst e
  repeat' (first | assumption | intro _ | with_reducible apply vecOp_keeps | with_reducible apply keeps_ite | split | dsimp only)

theorem execVclamp_keeps {r : State} (a0 : Fin 36) (a1 : BitVec 4) (a2 : BitVec 6) (a3 : BitVec 6) (a4 : BitVec 6) (a5 : State) (h : Keeps r a5) (t : State) (e : execVclamp a0 a1 a2 a3 a4 a5 = .next t) : Keeps r t := by
  unfold execVclamp at e
  injection e with e
  subst e
  repeat' (first | assumption | intro _ | with_reducible apply vecOp_keeps | with_reducible apply keeps_ite | split | dsimp only)

theorem execVabs_keeps {r : State} (a0 : Fin 36) (a1 : BitVec 4) (a2 : BitVec 6) (a3 : BitVec 6) (a4 : BitVec 6) (a5 : State) (h : Keeps r a5) (t : State) (e : execVabs a0 a1 a2 a3 a4 a5 = .next t) : Keeps r t := by
  unfold execVabs at e
  injection e with e
  subst e
  repeat' (first | assumption | intro _ | with_reducible apply vecOp_keeps | with_reducible apply keeps_ite | split | dsimp only)

theorem execVneg_keeps {r : State} (a0 : Fin 36) (a1 : BitVec 4) (a2 : BitVec 6) (a3 : BitVec 6) (a4 : BitVec 6) (a5 : State) (h : Keeps r a5) (t : State) (e : execVneg a0 a1 a2 a3 a4 a5 = .next t) : Keeps r t := by
  unfold execVneg at e
  injection e with e
  subst e
  repeat' (first | assumption | intro _ | with_reducible apply vecOp_keeps | with_reducible apply keeps_ite | split | dsimp only)

theorem execVdiv_keeps {r : State} (a0 : Fin 36) (a1 : BitVec 4) (a2 : BitVec 6) (a3 : BitVec 6) (a4 : BitVec 6) (a5 : State) (h : Keeps r a5) (t : State) (e : execVdiv a0 a1 a2 a3 a4 a5 = .next t) : Keeps r t := by
  unfold execVdiv at e
  injection e with e
  subst e
  repeat' (first | assumption | intro _ | with_reducible apply vecOp_keeps | with_reducible apply keeps_ite | split | dsimp only)

theorem execVld_keeps {r : State} (a0 : Fin 36) (a1 : BitVec 4) (a2 : BitVec 6) (a3 : BitVec 5) (a4 : BitVec 11) (a5 : State) (h : Keeps r a5) (t : State) (e : execVld a0 a1 a2 a3 a4 a5 = .next t) : Keeps r t := by
  unfold execVld at e
  injection e with e
  subst e
  refine State.insn_keeps _ _ _ _ _ h (fun s hs => ?_)
  dsimp only
  split
  · rename_i e z q
    have h1 := ldN_cmk (r := r) a0 (eaOf ((s.core a0).ctx.reg a3.toNat) (16 * a4.toInt)) 16 { s := s } hs
    rw [show ldN a0 (eaOf ((s.core a0).ctx.reg a3.toNat) (16 * a4.toInt)) 16 { s := s } = _ from q] at h1
    exact State.exc_keeps _ _ _ _ h1
  · rename_i v z q
    have h1 := ldN_cmk (r := r) a0 (eaOf ((s.core a0).ctx.reg a3.toNat) (16 * a4.toInt)) 16 { s := s } hs
    rw [show ldN a0 (eaOf ((s.core a0).ctx.reg a3.toNat) (16 * a4.toInt)) 16 { s := s } = _ from q] at h1
    exact keeps_ite _ (State.modCore_keeps _ _ _ h1) (State.finish_keeps _ _ _ _ (State.writeQ_keeps _ _ _ _ _ h1))

theorem execVst_keeps {r : State} (a0 : Fin 36) (a1 : BitVec 4) (a2 : BitVec 6) (a3 : BitVec 5) (a4 : BitVec 11) (a5 : State) (h : Keeps r a5) (t : State) (e : execVst a0 a1 a2 a3 a4 a5 = .next t) : Keeps r t := by
  unfold execVst at e
  injection e with e
  subst e
  repeat' (first | assumption | intro _ | with_reducible apply storeOp_keeps | with_reducible apply keeps_ite | split | dsimp only)

theorem State.vecMove_keeps {r : State} (a0 : State) (a1 : Nat) (a2 : Nat) (a3 : Ctx → BitVec 128) (h : Keeps r a0) : Keeps r (State.vecMove a0 a1 a2 a3) := by
  unfold State.vecMove
  refine State.finish_keeps _ _ _ _ ?_
  exact h

theorem execVsplat_keeps {r : State} (a0 : Fin 36) (a1 : BitVec 4) (a2 : BitVec 6) (a3 : BitVec 5) (a4 : BitVec 2) (a5 : State) (h : Keeps r a5) (t : State) (e : execVsplat a0 a1 a2 a3 a4 a5 = .next t) : Keeps r t := by
  unfold execVsplat at e
  injection e with e
  subst e
  repeat' (first | assumption | intro _ | with_reducible apply State.insn_keeps | with_reducible apply State.vecMove_keeps | with_reducible apply keeps_ite | split | dsimp only)

theorem execVins_keeps {r : State} (a0 : Fin 36) (a1 : BitVec 4) (a2 : BitVec 6) (a3 : BitVec 5) (a4 : BitVec 2) (a5 : State) (h : Keeps r a5) (t : State) (e : execVins a0 a1 a2 a3 a4 a5 = .next t) : Keeps r t := by
  unfold execVins at e
  injection e with e
  subst e
  repeat' (first | assumption | intro _ | with_reducible apply State.insn_keeps | with_reducible apply State.vecMove_keeps | with_reducible apply keeps_ite | split | dsimp only)

theorem execVext_keeps {r : State} (a0 : Fin 36) (a1 : BitVec 4) (a2 : BitVec 6) (a3 : BitVec 5) (a4 : BitVec 2) (a5 : State) (h : Keeps r a5) (t : State) (e : execVext a0 a1 a2 a3 a4 a5 = .next t) : Keeps r t := by
  unfold execVext at e
  injection e with e
  subst e
  repeat' (first | assumption | intro _ | with_reducible apply State.insn_keeps | with_reducible apply State.writeG_keeps | with_reducible apply keeps_ite | split | dsimp only)

theorem transOp_keeps {r : State} (a0 : Nat) (a1 : Nat) (a2 : BitVec 4) (a3 : BitVec 6) (a4 : BitVec 6) (a5 : BitVec 6) (a6 : BitVec 128 → FM (BitVec 128)) (a7 : State) (h : Keeps r a7) : Keeps r (transOp a0 a1 a2 a3 a4 a5 a6 a7) := by
  unfold transOp
  refine State.insn_keeps _ _ _ _ _ ?_ ?_
  · exact h
  · intro w0_0 hw0
    refine State.vecRun_keeps _ _ _ _ _ ?_
    exact hw0

theorem execClpk_keeps {r : State} (a0 : Fin 36) (a1 : BitVec 4) (a2 : BitVec 6) (a3 : BitVec 6) (a4 : BitVec 6) (a5 : State) (h : Keeps r a5) (t : State) (e : execClpk a0 a1 a2 a3 a4 a5 = .next t) : Keeps r t := by
  unfold execClpk at e
  injection e with e
  subst e
  repeat' (first | assumption | intro _ | with_reducible apply transOp_keeps | with_reducible apply keeps_ite | split | dsimp only)

theorem execIpkc_keeps {r : State} (a0 : Fin 36) (a1 : BitVec 4) (a2 : BitVec 6) (a3 : BitVec 6) (a4 : BitVec 6) (a5 : State) (h : Keeps r a5) (t : State) (e : execIpkc a0 a1 a2 a3 a4 a5 = .next t) : Keeps r t := by
  unfold execIpkc at e
  injection e with e
  subst e
  repeat' (first | assumption | intro _ | with_reducible apply transOp_keeps | with_reducible apply keeps_ite | split | dsimp only)

theorem vScaled_keeps {r : State} (a0 : Nat) (a1 : Nat) (a2 : BitVec 4) (a3 : BitVec 6) (a4 : BitVec 6) (a5 : BitVec 6) (a6 : Word → Nat → Word → FM Word) (a7 : State) (h : Keeps r a7) : Keeps r (vScaled a0 a1 a2 a3 a4 a5 a6 a7) := by
  unfold vScaled
  extract_lets -merge -useContext +onlyGivenNames z0
  clear_value z0
  extract_lets -merge -useContext +onlyGivenNames z1
  clear_value z1
  refine State.insn_keeps _ _ _ _ _ ?_ ?_
  · exact h
  · intro w2_0 hw2
    extract_lets -merge -useContext +onlyGivenNames z3
    clear_value z3
    refine keeps_ite _ ?_ ?_
    · refine State.exc_keeps _ _ _ _ ?_
      exact hw2
    · refine State.vecRun_keeps _ _ _ _ _ ?_
      exact hw2

theorem execVsmvf_keeps {r : State} (a0 : Fin 36) (a1 : BitVec 4) (a2 : BitVec 6) (a3 : BitVec 6) (a4 : BitVec 6) (a5 : State) (h : Keeps r a5) (t : State) (e : execVsmvf a0 a1 a2 a3 a4 a5 = .next t) : Keeps r t := by
  unfold execVsmvf at e
  injection e with e
  subst e
  repeat' (first | assumption | intro _ | with_reducible apply vScaled_keeps | with_reducible apply keeps_ite | split | dsimp only)

theorem execVsmvi_keeps {r : State} (a0 : Fin 36) (a1 : BitVec 4) (a2 : BitVec 6) (a3 : BitVec 6) (a4 : BitVec 6) (a5 : State) (h : Keeps r a5) (t : State) (e : execVsmvi a0 a1 a2 a3 a4 a5 = .next t) : Keeps r t := by
  unfold execVsmvi at e
  injection e with e
  subst e
  repeat' (first | assumption | intro _ | with_reducible apply vScaled_keeps | with_reducible apply keeps_ite | split | dsimp only)

theorem execVmov_keeps {r : State} (a0 : Fin 36) (a1 : BitVec 4) (a2 : BitVec 6) (a3 : BitVec 6) (a4 : BitVec 6) (a5 : State) (h : Keeps r a5) (t : State) (e : execVmov a0 a1 a2 a3 a4 a5 = .next t) : Keeps r t := by
  unfold execVmov at e
  injection e with e
  subst e
  repeat' (first | assumption | intro _ | with_reducible apply State.insn_keeps | with_reducible apply State.vecMove_keeps | with_reducible apply keeps_ite | split | dsimp only)

theorem State.placeOn_keeps {r : State} (a0 : State) (a1 : Nat) (a2 : Nat) (h : Keeps r a0) : Keeps r (State.placeOn a0 a1 a2) := by
  unfold State.placeOn
  extract_lets -merge -useContext +onlyGivenNames z0
  have hz0 : Keeps r z0 := by
    unfold z0
    refine State.freeSlotOf_keeps _ _ ?_
    exact h
  clear_value z0
  extract_lets -merge -useContext +onlyGivenNames z1
  clear_value z1
  extract_lets -merge -useContext +onlyGivenNames z2
  clear_value z2
  extract_lets -merge -useContext +onlyGivenNames z3
  clear_value z3
  extract_lets -merge -useContext +onlyGivenNames z4
  have hz4 : Keeps r z4 := by
    unfold z4
    refine State.modStrand_keeps _ _ _ ?_
    exact hz0
  clear_value z4
  extract_lets -merge -useContext +onlyGivenNames z5
  have hz5 : Keeps r z5 := by
    unfold z5
    refine State.set_keeps _ _ _ ?_
    refine State.setSt_keeps _ _ _ ?_
    exact hz4
  clear_value z5
  extract_lets -merge -useContext +onlyGivenNames z6
  have hz6 : Keeps r z6 := by
    unfold z6
    refine State.set_keeps _ _ _ ?_
    refine State.raise_keeps _ _ ?_
    exact hz5
  clear_value z6
  extract_lets -merge -useContext +onlyGivenNames z7
  clear_value z7
  extract_lets -merge -useContext +onlyGivenNames z8
  have hz8 : Keeps r z8 := by
    unfold z8
    refine State.modCore_keeps _ _ _ ?_
    exact hz6
  clear_value z8
  extract_lets -merge -useContext +onlyGivenNames z9
  have hz9 : Keeps r z9 := by
    unfold z9
    refine State.traceS_keeps _ _ _ _ _ ?_
    refine State.count_keeps _ _ ?_
    exact hz8
  clear_value z9
  refine State.takeErrs_keeps _ _ ?_
  refine State.repeatAttempt_keeps _ _ ?_
  exact hz9

theorem execStrandPlace_keeps {r : State} (a0 : Fin 36) (a1 : State) (h : Keeps r a1) (t : State) (e : execStrandPlace a0 a1 = .next t) : Keeps r t := by
  unfold execStrandPlace at e
  injection e with e
  subst e
  repeat' (first | assumption | intro _ | with_reducible apply State.placeOn_keeps | with_reducible apply keeps_ite | split | dsimp only)

theorem State.prefetchInto_keeps {r : State} (a0 : State) (a1 : Nat) (a2 : Nat) (h : Keeps r a0) : Keeps r (State.prefetchInto a0 a1 a2) := by
  unfold State.prefetchInto
  extract_lets -merge -useContext +onlyGivenNames z0
  have hz0 : Keeps r z0 := by
    unfold z0
    refine State.freeSlot_keeps _ _ ?_
    exact h
  clear_value z0
  extract_lets -merge -useContext +onlyGivenNames z1
  have hz1 : Keeps r z1 := by
    unfold z1
    refine State.raise_keeps _ _ ?_
    refine State.set_keeps _ _ _ ?_
    refine State.raise_keeps _ _ ?_
    exact hz0
  clear_value z1
  refine State.traceS_keeps _ _ _ _ _ ?_
  refine State.modCore_keeps _ _ _ ?_
  exact hz1

theorem execPrefetch_keeps {r : State} (a0 : Fin 36) (a1 : State) (h : Keeps r a1) (t : State) (e : execPrefetch a0 a1 = .next t) : Keeps r t := by
  unfold execPrefetch at e
  injection e with e
  subst e
  repeat' (first | assumption | intro _ | with_reducible apply State.prefetchInto_keeps | with_reducible apply keeps_ite | split | dsimp only)

theorem execPrefetchDone_keeps {r : State} (a0 : Fin 36) (a1 : State) (h : Keeps r a1) (t : State) (e : execPrefetchDone a0 a1 = .next t) : Keeps r t := by
  unfold execPrefetchDone at e
  injection e with e
  subst e
  repeat' (first | assumption | intro _ | with_reducible apply State.modCore_keeps | with_reducible apply keeps_ite | split | dsimp only)

theorem execPreempt_keeps {r : State} (a0 : Fin 36) (a1 : State) (h : Keeps r a1) (t : State) (e : execPreempt a0 a1 = .next t) : Keeps r t := by
  unfold execPreempt at e
  injection e with e
  subst e
  repeat' (first | assumption | intro _ | with_reducible apply State.modCore_keeps | with_reducible apply State.preemptNow_keeps | with_reducible apply keeps_ite | split | dsimp only)

theorem execAffwinExpiry_keeps {r : State} (a0 : Fin 1024) (a1 : State) (h : Keeps r a1) (t : State) (e : execAffwinExpiry a0 a1 = .next t) : Keeps r t := by
  unfold execAffwinExpiry at e
  injection e with e
  subst e
  repeat' (first | assumption | intro _ | with_reducible apply State.modStrand_keeps | with_reducible apply keeps_ite | split | dsimp only)

theorem execDrainComplete_keeps {r : State} (a0 : Fin 1024) (a1 : State) (h : Keeps r a1) (t : State) (e : execDrainComplete a0 a1 = .next t) : Keeps r t := by
  unfold execDrainComplete at e
  injection e with e
  subst e
  repeat' (first | assumption | intro _ | with_reducible apply State.modStrand_keeps | with_reducible apply State.clr_keeps | with_reducible apply keeps_ite | split | dsimp only)

theorem execDrainlate_keeps {r : State} (a0 : Fin 1024) (a1 : State) (h : Keeps r a1) (t : State) (e : execDrainlate a0 a1 = .next t) : Keeps r t := by
  unfold execDrainlate at e
  injection e with e
  subst e
  repeat' (first | assumption | intro _ | with_reducible apply State.traceS_keeps | with_reducible apply State.count_keeps | with_reducible apply State.clr_keeps | with_reducible apply State.report_keeps | with_reducible apply keeps_ite | split | dsimp only)

theorem State.replicaUnlocked_keeps {r : State} (a0 : State) (a1 : Nat) (h : Keeps r a0) : Keeps r (State.replicaUnlocked a0 a1) := by
  unfold State.replicaUnlocked
  extract_lets -merge -useContext +onlyGivenNames z0
  clear_value z0
  extract_lets -merge -useContext +onlyGivenNames z1
  have hz1 : Keeps r z1 := by
    unfold z1
    refine State.report_keeps _ _ _ _ _ ?_
    refine State.setRep_keeps _ _ _ ?_
    exact h
  clear_value z1
  refine keeps_ite _ ?_ ?_
  · refine State.bankFault_keeps _ _ _ _ ?_
    exact hz1
  · refine keeps_ite _ ?_ ?_
    · refine State.belDiag_keeps _ _ _ _ ?_
      exact hz1
    · refine keeps_ite _ ?_ ?_
      · refine State.dxFence_keeps _ ?_
        exact hz1
      · exact hz1

theorem State.crossingFailed_keeps {r : State} (a0 : State) (a1 : Nat) (a2 : Nat) (h : Keeps r a0) : Keeps r (State.crossingFailed a0 a1 a2) := by
  unfold State.crossingFailed
  extract_lets -merge -useContext +onlyGivenNames z0
  clear_value z0
  extract_lets -merge -useContext +onlyGivenNames z1
  extract_lets -merge -useContext +onlyGivenNames z2
  have hz2 : Keeps r z2 := by
    unfold z2
    refine keeps_tim ?_ _ (fun y => y)
    exact h
  clear_value z2
  refine State.report_keeps _ _ _ _ _ ?_
  exact hz2

theorem State.fidIsland_keeps {r : State} (a0 : State) (a1 : Nat) (a2 : Nat) (h : Keeps r a0) : Keeps r (State.fidIsland a0 a1 a2) := by
  unfold State.fidIsland
  split
  · refine State.crossingFailed_keeps _ _ _ ?_
    exact h
  · refine State.offResponse_keeps _ _ ?_
    exact h
  · refine State.replicaUnlocked_keeps _ _ ?_
    exact h
  · refine State.lateAction_keeps _ _ ?_
    exact h
  · refine State.report_keeps _ _ _ _ _ ?_
    exact h

theorem State.fidRing_keeps {r : State} (a0 : State) (a1 : Nat) (a2 : Nat) (a3 : Nat) (h : Keeps r a0) : Keeps r (State.fidRing a0 a1 a2 a3) := by
  unfold State.fidRing
  split
  · refine keeps_ite _ ?_ ?_
    · refine State.ringBreak_keeps _ _ ?_
      exact h
    · refine State.report_keeps _ _ _ _ _ ?_
      refine State.raise_keeps _ _ ?_
      exact h
  · refine State.foreignLost_keeps _ _ _ ?_
    exact h
  · refine State.nodeGone_keeps _ _ _ ?_
    exact h
  · refine State.report_keeps _ _ _ _ _ ?_
    refine State.raise_keeps _ _ ?_
    exact h
  · refine State.report_keeps _ _ _ _ _ ?_
    refine State.rpTo_keeps _ _ _ ?_
    refine State.raise_keeps _ _ ?_
    exact h
  · refine State.healFail_keeps _ _ ?_
    exact h
  · refine State.report_keeps _ _ _ _ _ ?_
    refine State.raise_keeps _ _ ?_
    exact h
  · refine State.report_keeps _ _ _ _ _ ?_
    refine State.raise_keeps _ _ ?_
    exact h

theorem State.fidMaster_keeps {r : State} (a0 : State) (a1 : Nat) (h : Keeps r a0) : Keeps r (State.fidMaster a0 a1) := by
  unfold State.fidMaster
  refine keeps_ite _ ?_ ?_
  · extract_lets -merge -useContext +onlyGivenNames z0
    clear_value z0
    extract_lets -merge -useContext +onlyGivenNames z1
    clear_value z1
    extract_lets -merge -useContext +onlyGivenNames z2
    clear_value z2
    refine fm_val (fun x => x) ?_
    refine State.masterLost_keeps _ _ _ ?_
    exact h
  · refine State.repLost_keeps _ _ ?_
    exact h

theorem State.fidAxis_keeps {r : State} (a0 : State) (a1 : Nat) (a2 : Nat) (h : Keeps r a0) : Keeps r (State.fidAxis a0 a1 a2) := by
  unfold State.fidAxis
  split
  · refine State.supervise_keeps _ _ _ ?_
    refine State.identAbort_keeps _ _ _ ?_
    exact h
  · refine State.nodeMissEvent_keeps _ _ ?_
    exact h
  · refine State.numFault_keeps _ _ ?_
    exact h
  · refine State.limitHit_keeps _ _ _ ?_
    exact h
  · refine State.fidMaster_keeps _ _ ?_
    exact h
  · refine State.supervise_keeps _ _ _ ?_
    exact h

theorem State.fidSequence_keeps {r : State} (a0 : State) (a1 : Nat) (h : Keeps r a0) : Keeps r (State.fidSequence a0 a1) := by
  unfold State.fidSequence
  refine keeps_ite _ ?_ ?_
  · refine State.report_keeps _ _ _ _ _ ?_
    refine State.orF_keeps _ _ _ ?_
    exact h
  · refine keeps_ite _ ?_ ?_
    · refine State.report_keeps _ _ _ _ _ ?_
      exact h
    · refine keeps_ite _ ?_ ?_
      · refine State.kRefused_keeps _ _ _ _ ?_
        exact h
      · refine keeps_ite _ ?_ ?_
        · refine State.flowOvf_keeps _ _ _ ?_
          exact h
        · refine State.lateRelease_keeps _ _ _ ?_
          exact h

theorem State.fidStack_keeps {r : State} (a0 : State) (a1 : Nat) (h : Keeps r a0) : Keeps r (State.fidStack a0 a1) := by
  unfold State.fidStack
  extract_lets -merge -useContext +onlyGivenNames z0
  clear_value z0
  extract_lets -merge -useContext +onlyGivenNames z1
  have hz1 : Keeps r z1 := by
    unfold z1
    refine State.report_keeps _ _ _ _ _ ?_
    exact h
  clear_value z1
  extract_lets -merge -useContext +onlyGivenNames z2
  have hz2 : Keeps r z2 := by
    unfold z2
    refine State.dwellCore_keeps _ _ ?_
    refine State.syncHalt_keeps _ _ ?_
    refine State.modCore_keeps _ _ _ ?_
    exact hz1
  clear_value z2
  extract_lets -merge -useContext +onlyGivenNames z3
  have hz3 : Keeps r z3 := by
    unfold z3
    refine keeps_ite _ ?_ ?_
    · refine State.stackFaultInt_keeps _ _ _ ?_
      refine State.modStrand_keeps _ _ _ ?_
      refine State.traceS_keeps _ _ _ _ _ ?_
      refine State.setSt_keeps _ _ _ ?_
      refine State.suspend_keeps _ _ ?_
      exact hz2
    · exact hz2
  clear_value z3
  refine State.coreOffline_keeps _ _ ?_
  exact hz3

theorem State.fidCore_keeps {r : State} (a0 : State) (a1 : Nat) (a2 : Nat) (h : Keeps r a0) : Keeps r (State.fidCore a0 a1 a2) := by
  unfold State.fidCore
  extract_lets -merge -useContext +onlyGivenNames z0
  have hz0 : Keeps r z0 := by
    unfold z0
    refine State.report_keeps _ _ _ _ _ ?_
    exact h
  clear_value z0
  split
  · refine State.fidStack_keeps _ _ ?_
    exact h
  · refine State.count_keeps _ _ ?_
    exact hz0
  · refine State.count_keeps _ _ ?_
    exact hz0
  · refine keeps_ite _ ?_ ?_
    · refine State.coreOffline_keeps _ _ ?_
      exact h
    · exact hz0
  · exact hz0

theorem State.fidTime_keeps {r : State} (a0 : State) (a1 : Nat) (a2 : Nat) (h : Keeps r a0) : Keeps r (State.fidTime a0 a1 a2) := by
  unfold State.fidTime
  extract_lets -merge -useContext +onlyGivenNames z0
  have hz0 : ∀ y0 y1, Keeps r y0 → Keeps r (z0 y0 y1) := by
    unfold z0
    intro w1_0 w1_1 hw1
    refine State.report_keeps _ _ _ _ _ ?_
    exact hw1
  clear_value z0
  split
  · refine hz0 _ _ ?_
    refine State.raise_keeps _ _ ?_
    exact h
  · refine hz0 _ _ ?_
    exact h
  · refine hz0 _ _ ?_
    refine State.raise_keeps _ _ ?_
    exact h
  · refine hz0 _ _ ?_
    refine State.count_keeps _ _ ?_
    exact h
  · refine hz0 _ _ ?_
    refine State.count_keeps _ _ ?_
    exact h
  · refine hz0 _ _ ?_
    refine State.raise_keeps _ _ ?_
    exact h
  · refine hz0 _ _ ?_
    refine State.raise_keeps _ _ ?_
    exact h

theorem State.fidChan_keeps {r : State} (a0 : State) (a1 : Nat) (a2 : Nat) (h : Keeps r a0) : Keeps r (State.fidChan a0 a1 a2) := by
  unfold State.fidChan
  split
  · refine State.fault_keeps _ _ _ _ _ ?_
    exact h
  · refine State.withBel_keeps _ _ ?_ ?_
    · refine State.fault_keeps _ _ _ _ _ ?_
      exact h
    · intro w0_0 hw0
      refine State.gbothRequest_keeps _ _ ?_
      exact hw0
  · refine State.fault_keeps _ _ _ _ _ ?_
    exact h
  · refine State.fault_keeps _ _ _ _ _ ?_
    exact h
  · refine State.fault_keeps _ _ _ _ _ ?_
    exact h
  · refine State.fault_keeps _ _ _ _ _ ?_
    exact h
  · refine State.fault_keeps _ _ _ _ _ ?_
    exact h
  · refine State.fault_keeps _ _ _ _ _ ?_
    exact h
  · refine State.pcReport_keeps _ _ _ _ ?_
    refine State.raise_keeps _ _ ?_
    exact h
  · refine State.pcReport_keeps _ _ _ _ ?_
    refine State.lateAction_keeps _ _ ?_
    refine State.count_keeps _ _ ?_
    exact h
  · refine State.pcReport_keeps _ _ _ _ ?_
    refine State.raise_keeps _ _ ?_
    exact h

theorem State.fidGroup_keeps {r : State} (a0 : State) (a1 : Nat) (a2 : Nat) (h : Keeps r a0) : Keeps r (State.fidGroup a0 a1 a2) := by
  unfold State.fidGroup
  split
  · refine State.pumpStop_keeps _ _ ?_
    exact h
  · refine State.hgReport_keeps _ _ _ _ ?_
    refine State.count_keeps _ _ ?_
    refine State.raise_keeps _ _ ?_
    exact h
  · refine State.hgReport_keeps _ _ _ _ ?_
    refine State.count_keeps _ _ ?_
    refine State.raise_keeps _ _ ?_
    exact h
  · refine State.hgReport_keeps _ _ _ _ ?_
    refine State.count_keeps _ _ ?_
    refine State.raise_keeps _ _ ?_
    exact h
  · refine State.hgReport_keeps _ _ _ _ ?_
    refine State.count_keeps _ _ ?_
    refine State.raise_keeps _ _ ?_
    exact h

theorem State.fidBelay_keeps {r : State} (a0 : State) (a1 : Nat) (h : Keeps r a0) : Keeps r (State.fidBelay a0 a1) := by
  unfold State.fidBelay
  refine keeps_ite _ ?_ ?_
  · refine State.belReport_keeps _ _ _ ?_
    exact h
  · refine keeps_ite _ ?_ ?_
    · refine keeps_ite _ ?_ ?_
      · refine State.guardDiag_keeps _ _ _ ?_
        exact h
      · refine keeps_ite _ ?_ ?_
        · refine State.belEval_keeps _ ?_
          refine State.belDiag_keeps _ _ _ _ ?_
          refine State.modBel_keeps _ _ ?_
          refine State.connFail_keeps _ _ ?_
          exact h
        · refine State.belDiag_keeps _ _ _ _ ?_
          exact h
    · refine keeps_ite _ ?_ ?_
      · refine State.belEval_keeps _ ?_
        refine State.connFail_keeps _ _ ?_
        exact h
      · refine keeps_ite _ ?_ ?_
        · refine State.gbothRequest_keeps _ _ ?_
          exact h
        · refine State.belReport_keeps _ _ _ ?_
          exact h

theorem State.fidDuplex_keeps {r : State} (a0 : State) (a1 : Nat) (h : Keeps r a0) : Keeps r (State.fidDuplex a0 a1) := by
  unfold State.fidDuplex
  split
  · refine State.dxReport_keeps _ _ _ ?_
    refine State.raise_keeps _ _ ?_
    exact h
  · split
    · refine State.spliceAbort_keeps _ ?_
      exact h
    · refine State.dxReport_keeps _ _ _ ?_
      refine State.raise_keeps _ _ ?_
      exact h
  · refine State.mirrorLate_keeps _ ?_
    exact h
  · refine State.dxReport_keeps _ _ _ ?_
    refine State.raise_keeps _ _ ?_
    exact h
  · refine State.peerLinkLost_keeps _ ?_
    exact h
  · refine State.dxFence_keeps _ ?_
    exact h
  · refine State.dxReport_keeps _ _ _ ?_
    exact h

theorem State.fidPmu_keeps {r : State} (a0 : State) (a1 : Nat) (a2 : Nat) (h : Keeps r a0) : Keeps r (State.fidPmu a0 a1 a2) := by
  unfold State.fidPmu
  split
  · refine State.railFault_keeps _ _ ?_
    exact h
  · refine State.offResponse_keeps _ _ ?_
    exact h
  · refine State.pmuReport_keeps _ _ _ _ _ ?_
    refine State.ext_keeps _ _ ?_
    refine State.raise_keeps _ _ ?_
    exact h
  · refine State.ext_keeps _ _ ?_
    refine State.pmuReport_keeps _ _ _ _ _ ?_
    refine State.raise_keeps _ _ ?_
    exact h
  · refine keeps_ite _ ?_ ?_
    · refine State.mainsFail_keeps _ _ ?_
      exact h
    · refine State.pmuReport_keeps _ _ _ _ _ ?_
      exact h
  · refine State.pmuReport_keeps _ _ _ _ _ ?_
    exact h

theorem State.fidHost_keeps {r : State} (a0 : State) (a1 : Nat) (a2 : Nat) (h : Keeps r a0) : Keeps r (State.fidHost a0 a1 a2) := by
  unfold State.fidHost
  split
  · refine State.hostReport_keeps _ _ _ _ _ ?_
    refine State.count_keeps _ _ ?_
    exact h
  · refine State.dmaFault_keeps _ _ _ _ ?_
    exact h
  · refine State.queueFault_keeps _ _ _ ?_
    exact h
  · refine State.hostReport_keeps _ _ _ _ _ ?_
    refine State.raise_keeps _ _ ?_
    exact h
  · refine State.hostReport_keeps _ _ _ _ _ ?_
    exact h
  · refine State.hostReport_keeps _ _ _ _ _ ?_
    exact h
  · refine State.hostReport_keeps _ _ _ _ _ ?_
    exact h
  · refine State.hostReport_keeps _ _ _ _ _ ?_
    exact h

theorem State.fidDetect_keeps {r : State} (a0 : State) (a1 : Nat) (h : Keeps r a0) : Keeps r (State.fidDetect a0 a1) := by
  unfold State.fidDetect
  extract_lets -merge -useContext +onlyGivenNames z0
  clear_value z0
  split
  · refine State.modFid_keeps _ _ ?_
    exact h
  · refine State.fidIsland_keeps _ _ _ ?_
    exact h
  · refine State.fidRing_keeps _ _ _ _ ?_
    exact h
  · refine State.fidAxis_keeps _ _ _ ?_
    exact h
  · refine State.fidSequence_keeps _ _ ?_
    exact h
  · refine State.fidCore_keeps _ _ _ ?_
    exact h
  · refine State.fidTime_keeps _ _ _ ?_
    exact h
  · refine State.fidChan_keeps _ _ _ ?_
    exact h
  · refine State.fidGroup_keeps _ _ _ ?_
    exact h
  · refine State.fidBelay_keeps _ _ ?_
    exact h
  · refine State.fidDuplex_keeps _ _ ?_
    exact h
  · refine State.fidPmu_keeps _ _ _ ?_
    exact h
  · refine State.fidHost_keeps _ _ _ ?_
    exact h

theorem State.fidAct_keeps {r : State} (a0 : State) (a1 : Nat) (h : Keeps r a0) : Keeps r (State.fidAct a0 a1) := by
  unfold State.fidAct
  refine State.modFid_keeps _ _ ?_
  refine State.fidDetect_keeps _ _ ?_
  refine State.modFid_keeps _ _ ?_
  exact h

theorem State.fidExpire_keeps {r : State} (a0 : State) (h : Keeps r a0) : Keeps r (State.fidExpire a0) := by
  unfold State.fidExpire
  extract_lets -merge -useContext +onlyGivenNames z0
  clear_value z0
  extract_lets -merge -useContext +onlyGivenNames z1
  have hz1 : Keeps r z1 := by
    unfold z1
    refine State.modFid_keeps _ _ ?_
    exact h
  clear_value z1
  refine keeps_forEach ?_ _ _ ?_
  · exact hz1
  · intro w2_0 w2_1 hw2
    refine State.fidMiss_keeps _ _ _ ?_
    exact hw2

theorem State.fidTake_keeps {r : State} (a0 : State) (a1 : Nat → Bool) (h : Keeps r a0) : Keeps r (State.fidTake a0 a1) := by
  unfold State.fidTake
  refine keeps_ite _ ?_ ?_
  · exact h
  · extract_lets -merge -useContext +onlyGivenNames z0
    have hz0 : Keeps r z0 := by
      unfold z0
      refine State.fidExpire_keeps _ ?_
      exact h
    clear_value z0
    extract_lets -merge -useContext +onlyGivenNames z1
    clear_value z1
    extract_lets -merge -useContext +onlyGivenNames z2
    have hz2 : Keeps r z2 := by
      unfold z2
      refine State.modFid_keeps _ _ ?_
      exact hz0
    clear_value z2
    extract_lets -merge -useContext +onlyGivenNames z3
    have hz3 : Keeps r z3 := by
      unfold z3
      refine keeps_forEach ?_ _ _ ?_
      · exact hz2
      · intro w4_0 w4_1 hw4
        refine State.count_keeps _ _ ?_
        exact hw4
    clear_value z3
    refine keeps_forEach ?_ _ _ ?_
    · exact hz3
    · intro w5_0 w5_1 hw5
      refine State.fidAct_keeps _ _ ?_
      exact hw5

theorem State.fidFlood_keeps {r : State} (a0 : State) (a1 : Nat) (a2 : Nat) (h : Keeps r a0) : Keeps r (State.fidFlood a0 a1 a2) := by
  unfold State.fidFlood
  refine keeps_forN ?_ _ _ ?_
  · exact h
  · intro w0_0 w0_1 hw0
    refine State.reportAt_keeps _ _ _ _ _ _ _ ?_
    exact hw0

theorem State.fidFire_keeps {r : State} (a0 : State) (a1 : Nat) (h : Keeps r a0) : Keeps r (State.fidFire a0 a1) := by
  unfold State.fidFire
  refine keeps_ite _ ?_ ?_
  · exact h
  · extract_lets -merge -useContext +onlyGivenNames z0
    clear_value z0
    extract_lets -merge -useContext +onlyGivenNames z1
    clear_value z1
    extract_lets -merge -useContext +onlyGivenNames z2
    clear_value z2
    extract_lets -merge -useContext +onlyGivenNames z3
    have hz3 : Keeps r z3 := by
      unfold z3
      refine State.setFidSlot_keeps _ _ _ ?_
      exact h
    clear_value z3
    extract_lets -merge -useContext +onlyGivenNames z4
    have hz4 : Keeps r z4 := by
      unfold z4
      refine State.modFid_keeps _ _ ?_
      refine State.count_keeps _ _ ?_
      exact hz3
    clear_value z4
    extract_lets -merge -useContext +onlyGivenNames z5
    have hz5 : Keeps r z5 := by
      unfold z5
      refine State.count_keeps _ _ ?_
      exact hz4
    clear_value z5
    extract_lets -merge -useContext +onlyGivenNames z6
    have hz6 : Keeps r z6 := by
      unfold z6
      refine keeps_ite _ ?_ ?_
      · refine State.fidMiss_keeps _ _ _ ?_
        exact hz3
      · refine keeps_ite _ ?_ ?_
        · refine State.modFid_keeps _ _ ?_
          exact hz4
        · refine keeps_ite _ ?_ ?_
          · refine State.fidFlood_keeps _ _ _ ?_
            exact hz5
          · refine State.fidAct_keeps _ _ ?_
            exact hz5
    clear_value z6
    refine State.fidFinish_keeps _ _ ?_
    exact hz6

theorem execFidFire_keeps {r : State} (a0 : Fin 8) (a1 : State) (h : Keeps r a1) (t : State) (e : execFidFire a0 a1 = .next t) : Keeps r t := by
  unfold execFidFire at e
  injection e with e
  subst e
  repeat' (first | assumption | intro _ | with_reducible apply State.fidFire_keeps | with_reducible apply keeps_ite | split | dsimp only)

theorem execFidArmExpiry_keeps {r : State} (a0 : State) (h : Keeps r a0) (t : State) (e : execFidArmExpiry a0 = .next t) : Keeps r t := by
  unfold execFidArmExpiry at e
  injection e with e
  subst e
  exact keeps_ite _ (State.fidDisarm_keeps _ h) h

theorem execCrossingTimerExpiry_keeps {r : State} (a0 : Fin 44) (a1 : Fin 44) (a2 : State) (h : Keeps r a2) (t : State) (e : execCrossingTimerExpiry a0 a1 a2 = .next t) : Keeps r t := by
  unfold execCrossingTimerExpiry at e
  injection e with e
  subst e
  exact State.answer_keeps _ _ (State.stallAbandoned_keeps _ _ _ (State.crossingFailed_keeps _ _ _ h))

theorem execBeacon_keeps {r : State} (a0 : BitVec 44) (a1 : State) (h : Keeps r a1) (t : State) (e : execBeacon a0 a1 = .next t) : Keeps r t := by
  unfold execBeacon at e
  injection e with e
  subst e
  repeat' (first | assumption | intro _ | with_reducible apply State.beacon_keeps | with_reducible apply keeps_ite | split | dsimp only)

theorem execReplicaLock_keeps {r : State} (a0 : Fin 44) (a1 : State) (h : Keeps r a1) (t : State) (e : execReplicaLock a0 a1 = .next t) : Keeps r t := by
  unfold execReplicaLock at e
  injection e with e
  subst e
  repeat' (first | assumption | intro _ | with_reducible apply State.setRep_keeps | with_reducible apply keeps_ite | split | dsimp only)

theorem execReplicaUnlock_keeps {r : State} (a0 : Fin 44) (a1 : State) (h : Keeps r a1) (t : State) (e : execReplicaUnlock a0 a1 = .next t) : Keeps r t := by
  unfold execReplicaUnlock at e
  injection e with e
  subst e
  repeat' (first | assumption | intro _ | with_reducible apply State.replicaUnlocked_keeps | with_reducible apply keeps_ite | split | dsimp only)

theorem execReleaseArrival_keeps {r : State} (a0 : State) (h : Keeps r a0) (t : State) (e : execReleaseArrival a0 = .next t) : Keeps r t := by
  unfold execReleaseArrival at e
  injection e with e
  subst e
  repeat' (first | assumption | intro _ | with_reducible apply State.fidTake_keeps | with_reducible apply State.releaseArrival_keeps | with_reducible apply keeps_ite | split | dsimp only)

theorem execFeedbackLanding_keeps {r : State} (a0 : Fin 256) (a1 : State) (h : Keeps r a1) (t : State) (e : execFeedbackLanding a0 a1 = .next t) : Keeps r t := by
  unfold execFeedbackLanding at e
  injection e with e
  subst e
  repeat' (first | assumption | intro _ | with_reducible apply State.fidTake_keeps | with_reducible apply State.feedbackLanding_keeps | with_reducible apply keeps_ite | split | dsimp only)

theorem execReleaseDeadline_keeps {r : State} (a0 : Fin 256) (a1 : State) (h : Keeps r a1) (t : State) (e : execReleaseDeadline a0 a1 = .next t) : Keeps r t := by
  unfold execReleaseDeadline at e
  injection e with e
  subst e
  repeat' (first | assumption | intro _ | with_reducible apply State.fidTake_keeps | with_reducible apply State.deadline_keeps | with_reducible apply keeps_ite | split | dsimp only)

theorem execRingFrameReceive_keeps {r : State} (a0 : Fin 4) (a1 : Bool) (a2 : List Byte) (a3 : State) (h : Keeps r a3) (t : State) (e : execRingFrameReceive a0 a1 a2 a3 = .next t) : Keeps r t := by
  unfold execRingFrameReceive at e
  injection e with e
  subst e
  repeat' (first | assumption | intro _ | with_reducible apply State.fidTake_keeps | with_reducible apply State.ringReceive_keeps | with_reducible apply keeps_ite | split | dsimp only)

theorem execLogCommitDone_keeps {r : State} (a0 : Bool) (a1 : Bool) (a2 : State) (h : Keeps r a2) (t : State) (e : execLogCommitDone a0 a1 a2 = .next t) : Keeps r t := by
  unfold execLogCommitDone at e
  injection e with e
  subst e
  repeat' (first | assumption | intro _ | with_reducible apply State.afterCommit_keeps | with_reducible apply State.commitDone_keeps | with_reducible apply State.fidTake_keeps | with_reducible apply keeps_ite | split | dsimp only)

theorem execStandardLoopActivation_keeps {r : State} (a0 : Fin 256) (a1 : State) (h : Keeps r a1) (t : State) (e : execStandardLoopActivation a0 a1 = .next t) : Keeps r t := by
  unfold execStandardLoopActivation at e
  injection e with e
  subst e
  repeat' (first | assumption | intro _ | with_reducible apply State.fidTake_keeps | with_reducible apply State.mirrorPlan_keeps | with_reducible apply State.postMirror_keeps | with_reducible apply State.activate_keeps | with_reducible apply keeps_ite | split | dsimp only)

theorem State.nextCycle_keeps {r : State} (a0 : State) (h : Keeps r a0) : Keeps r (State.nextCycle a0) := by
  unfold State.nextCycle
  extract_lets -merge -useContext +onlyGivenNames z0
  clear_value z0
  extract_lets -merge -useContext +onlyGivenNames z1
  clear_value z1
  extract_lets -merge -useContext +onlyGivenNames z2
  clear_value z2
  refine keeps_tim ?_ _ (fun y => y)
  exact h

theorem State.ringCommits_keeps {r : State} (a0 : State) (a1 : Nat) (h : Keeps r a0) : Keeps r (State.ringCommits a0 a1) := by
  unfold State.ringCommits
  extract_lets -merge -useContext +onlyGivenNames z0
  clear_value z0
  extract_lets -merge -useContext +onlyGivenNames z1
  have hz1 : Keeps r z1 := by
    unfold z1
    refine keeps_forEach ?_ _ _ ?_
    · exact h
    · intro w2_0 w2_1 hw2
      refine State.ringTake_keeps _ _ ?_
      exact hw2
  clear_value z1
  refine keeps_ite _ ?_ ?_
  · exact hz1
  · refine State.take_keeps _ _ ?_
    exact hz1

theorem State.tcycChange_keeps {r : State} (a0 : State) (a1 : Nat) (a2 : Nat) (h : Keeps r a0) : Keeps r (State.tcycChange a0 a1 a2) := by
  unfold State.tcycChange
  refine keeps_ite _ ?_ ?_
  · exact h
  · extract_lets -merge -useContext +onlyGivenNames z0
    have hz0 : Keeps r z0 := by
      unfold z0
      refine keeps_forEach ?_ _ _ ?_
      · exact h
      · intro w1_0 w1_1 hw1
        refine keeps_ite _ ?_ ?_
        · exact hw1
        · refine State.modAx_keeps _ _ _ ?_
          exact hw1
    clear_value z0
    refine State.recheckHeld_keeps _ ?_
    exact hz0

theorem State.portsBoundary_keeps {r : State} (a0 : State) (a1 : Nat) (h : Keeps r a0) : Keeps r (State.portsBoundary a0 a1) := by
  unfold State.portsBoundary
  extract_lets -merge -useContext +onlyGivenNames z0
  have hz0 : Keeps r z0 := by
    unfold z0
    refine keeps_forN ?_ _ _ ?_
    · exact h
    · intro w1_0 w1_1 hw1
      refine State.ringBoundary_keeps _ _ _ ?_
      exact hw1
  clear_value z0
  extract_lets -merge -useContext +onlyGivenNames z2
  have hz2 : Keeps r z2 := by
    unfold z2
    refine keeps_forN ?_ _ _ ?_
    · exact hz0
    · intro w3_0 w3_1 hw3
      refine State.modRing_keeps _ _ _ ?_
      exact hw3
  clear_value z2
  extract_lets -merge -useContext +onlyGivenNames z4
  have hz4 : Keeps r z4 := by
    unfold z4
    exact hz2
  clear_value z4
  refine State.valveLandings_keeps _ _ ?_
  refine State.lossBoundary_keeps _ _ ?_
  refine State.capsBound_keeps _ _ ?_
  refine State.deriveBinds_keeps _ ?_
  exact hz2

theorem State.markTag_keeps {r : State} (a0 : State) (a1 : Nat) (a2 : Nat) (h : Keeps r a0) : Keeps r (State.markTag a0 a1 a2) := by
  unfold State.markTag
  extract_lets -merge -useContext +onlyGivenNames z0
  clear_value z0
  extract_lets -merge -useContext +onlyGivenNames z1
  clear_value z1
  extract_lets -merge -useContext +onlyGivenNames z2
  clear_value z2
  extract_lets -merge -useContext +onlyGivenNames z3
  clear_value z3
  extract_lets -merge -useContext +onlyGivenNames z4
  have hz4 : Keeps r z4 := by
    unfold z4
    refine keeps_ite _ ?_ ?_
    · refine State.report_keeps _ _ _ _ _ ?_
      refine State.orF_keeps _ _ _ ?_
      exact h
    · exact h
  clear_value z4
  refine State.fillTag_keeps _ _ _ ?_
  refine keeps_forN ?_ _ _ ?_
  · exact hz4
  · intro w5_0 w5_1 hw5
    refine keeps_ite _ ?_ ?_
    · refine State.wokenIn_keeps _ _ _ ?_
      refine State.modAx_keeps _ _ _ ?_
      exact hw5
    · exact hw5

theorem State.markAct_keeps {r : State} (a0 : State) (a1 : Nat) (a2 : Nat) (h : Keeps r a0) : Keeps r (State.markAct a0 a1 a2) := by
  unfold State.markAct
  extract_lets -merge -useContext +onlyGivenNames z0
  clear_value z0
  extract_lets -merge -useContext +onlyGivenNames z1
  have hz1 : Keeps r z1 := by
    unfold z1
    refine State.modRing_keeps _ _ _ ?_
    exact h
  clear_value z1
  extract_lets -merge -useContext +onlyGivenNames z2
  have hz2 : Keeps r z2 := by
    unfold z2
    refine keeps_ite _ ?_ ?_
    · refine State.markTag_keeps _ _ _ ?_
      exact hz1
    · exact hz1
  clear_value z2
  extract_lets -merge -useContext +onlyGivenNames z3
  have hz3 : Keeps r z3 := by
    unfold z3
    refine keeps_ite _ ?_ ?_
    · refine State.irq_keeps _ _ _ _ ?_
      exact hz2
    · exact hz2
  clear_value z3
  extract_lets -merge -useContext +onlyGivenNames z4
  have hz4 : Keeps r z4 := by
    unfold z4
    refine keeps_ite _ ?_ ?_
    · refine State.snapFire_keeps _ _ _ ?_
      exact hz3
    · exact hz3
  clear_value z4
  refine State.orF_keeps _ _ _ ?_
  exact hz4

theorem State.markFire_keeps {r : State} (a0 : State) (a1 : Nat) (a2 : Nat) (h : Keeps r a0) : Keeps r (State.markFire a0 a1 a2) := by
  unfold State.markFire
  refine keeps_ite _ ?_ ?_
  · refine State.fidTake_keeps _ _ ?_
    refine State.markAct_keeps _ _ _ ?_
    exact h
  · exact h

theorem State.boundaryMarks_keeps {r : State} (a0 : State) (h : Keeps r a0) : Keeps r (State.boundaryMarks a0) := by
  unfold State.boundaryMarks
  refine keeps_forN ?_ _ _ ?_
  · exact h
  · intro w0_0 w0_1 hw0
    refine keeps_forN ?_ _ _ ?_
    · exact hw0
    · intro w1_0 w1_1 hw1
      refine keeps_ite _ ?_ ?_
      · refine State.markFire_keeps _ _ _ ?_
        exact hw1
      · exact hw1

theorem State.cycleBoundary_keeps {r : State} (a0 : State) (h : Keeps r a0) : Keeps r (State.cycleBoundary a0) := by
  unfold State.cycleBoundary
  extract_lets -merge -useContext +onlyGivenNames z0
  have hz0 : Keeps r z0 := by
    unfold z0
    exact h
  clear_value z0
  extract_lets -merge -useContext +onlyGivenNames z1
  have hz1 : Keeps r z1 := by
    unfold z1
    refine State.nextCycle_keeps _ ?_
    exact h
  clear_value z1
  extract_lets -merge -useContext +onlyGivenNames z2
  clear_value z2
  extract_lets -merge -useContext +onlyGivenNames z3
  have hz3 : Keeps r z3 := by
    unfold z3
    refine State.axisCommits_keeps _ _ ?_
    refine State.tcycChange_keeps _ _ _ ?_
    refine State.knotBoundary_keeps _ _ ?_
    refine State.ringCommits_keeps _ _ ?_
    exact hz1
  clear_value z3
  extract_lets -merge -useContext +onlyGivenNames z4
  have hz4 : Keeps r z4 := by
    unfold z4
    refine State.portsBoundary_keeps _ _ ?_
    refine State.pinBoundary_keeps _ _ ?_
    refine State.groupBoundary_keeps _ _ ?_
    refine State.chanBoundary_keeps _ _ ?_
    exact hz3
  clear_value z4
  extract_lets -merge -useContext +onlyGivenNames z5
  have hz5 : Keeps r z5 := by
    unfold z5
    refine State.switchBoundary_keeps _ ?_
    refine State.belBoundary_keeps _ ?_
    refine State.gangBoundary_keeps _ _ ?_
    exact hz4
  clear_value z5
  extract_lets -merge -useContext +onlyGivenNames z6
  have hz6 : Keeps r z6 := by
    unfold z6
    refine State.dxBoundary_keeps _ _ ?_
    refine State.heldLand_keeps _ ?_
    refine State.boundaryMarks_keeps _ ?_
    exact hz5
  clear_value z6
  extract_lets -merge -useContext +onlyGivenNames z7
  have hz7 : Keeps r z7 := by
    unfold z7
    refine State.busBoundary_keeps _ _ ?_
    refine State.mirrorBoundary_keeps _ _ _ ?_
    exact hz6
  clear_value z7
  refine State.fidTake_keeps _ _ ?_
  exact hz7

theorem execCycleBoundary_keeps {r : State} (a0 : State) (h : Keeps r a0) (t : State) (e : execCycleBoundary a0 = .next t) : Keeps r t := by
  unfold execCycleBoundary at e
  injection e with e
  subst e
  repeat' (first | assumption | intro _ | with_reducible apply State.cycleBoundary_keeps | with_reducible apply keeps_ite | split | dsimp only)

theorem execMarkFire_keeps {r : State} (a0 : Fin 4) (a1 : Fin 16) (a2 : State) (h : Keeps r a2) (t : State) (e : execMarkFire a0 a1 a2 = .next t) : Keeps r t := by
  unfold execMarkFire at e
  injection e with e
  subst e
  repeat' (first | assumption | intro _ | with_reducible apply State.markFire_keeps | with_reducible apply keeps_ite | split | dsimp only)

theorem execTimedActionArrival_keeps {r : State} (a0 : Fin 44) (a1 : Nat) (a2 : Fin 2) (a3 : Word) (a4 : Nat) (a5 : State) (h : Keeps r a5) (t : State) (e : execTimedActionArrival a0 a1 a2 a3 a4 a5 = .next t) : Keeps r t := by
  unfold execTimedActionArrival at e
  injection e with e
  subst e
  repeat' (first | assumption | intro _ | with_reducible apply State.actionArrive_keeps | with_reducible apply keeps_ite | split | dsimp only)

theorem execTimedActionPerform_keeps {r : State} (a0 : Fin 44) (a1 : Nat) (a2 : State) (h : Keeps r a2) (t : State) (e : execTimedActionPerform a0 a1 a2 = .next t) : Keeps r t := by
  unfold execTimedActionPerform at e
  injection e with e
  subst e
  repeat' (first | assumption | intro _ | with_reducible apply State.chanAction_keeps | with_reducible apply State.actionPerform_keeps | with_reducible apply keeps_ite | split | dsimp only)

theorem State.capture_keeps {r : State} (a0 : State) (a1 : Nat) (a2 : Bool) (h : Keeps r a0) : Keeps r (State.capture a0 a1 a2) := by
  unfold State.capture
  extract_lets -merge -useContext +onlyGivenNames z0
  have hz0 : Keeps r z0 := by
    unfold z0
    refine State.lencEdge_keeps _ _ ?_
    exact h
  clear_value z0
  refine keeps_ite _ ?_ ?_
  · exact hz0
  · extract_lets -merge -useContext +onlyGivenNames z1
    clear_value z1
    extract_lets -merge -useContext +onlyGivenNames z2
    have hz2 : Keeps r z2 := by
      unfold z2
      split
      · refine State.dirCapture_keeps _ _ _ _ ?_
        exact hz0
      · refine State.stepCapture_keeps _ _ _ ?_
        exact hz0
      · refine State.tciEnter_keeps _ _ _ _ ?_
        exact hz0
    clear_value z2
    refine State.tciTag_keeps _ _ _ ?_
    exact hz2

theorem execTciCapture_keeps {r : State} (a0 : Fin 32) (a1 : Bool) (a2 : State) (h : Keeps r a2) (t : State) (e : execTciCapture a0 a1 a2 = .next t) : Keeps r t := by
  unfold execTciCapture at e
  injection e with e
  subst e
  repeat' (first | assumption | intro _ | with_reducible apply State.capture_keeps | with_reducible apply keeps_ite | split | dsimp only)

theorem execSysClockLoss_keeps {r : State} (a0 : State) (h : Keeps r a0) (t : State) (e : execSysClockLoss a0 = .next t) : Keeps r t := by
  unfold execSysClockLoss at e
  injection e with e
  subst e
  repeat' (first | assumption | intro _ | with_reducible apply State.set_keeps | with_reducible apply State.modLog_keeps | with_reducible apply keeps_ite | split | dsimp only)

theorem execSysClockReturn_keeps {r : State} (a0 : State) (h : Keeps r a0) (t : State) (e : execSysClockReturn a0 = .next t) : Keeps r t := by
  unfold execSysClockReturn at e
  injection e with e
  subst e
  repeat' (first | assumption | intro _ | with_reducible apply State.syncOcc_keeps | with_reducible apply State.logStart_keeps | with_reducible apply State.set_keeps | with_reducible apply keeps_ite | split | dsimp only)

theorem execRingPortEnable_keeps {r : State} (a0 : Requester) (a1 : Fin 4) (a2 : State) (h : Keeps r a2) (t : State) (e : execRingPortEnable a0 a1 a2 = .next t) : Keeps r t := by
  unfold execRingPortEnable at e
  injection e with e
  subst e
  repeat' (first | assumption | intro _ | with_reducible apply State.cmdField_keeps | with_reducible apply keeps_ite | split | dsimp only)

theorem execRingPortDisable_keeps {r : State} (a0 : Requester) (a1 : Fin 4) (a2 : State) (h : Keeps r a2) (t : State) (e : execRingPortDisable a0 a1 a2 = .next t) : Keeps r t := by
  unfold execRingPortDisable at e
  injection e with e
  subst e
  repeat' (first | assumption | intro _ | with_reducible apply State.cmdField_keeps | with_reducible apply keeps_ite | split | dsimp only)

theorem execRingRun_keeps {r : State} (a0 : Requester) (a1 : Fin 4) (a2 : State) (h : Keeps r a2) (t : State) (e : execRingRun a0 a1 a2 = .next t) : Keeps r t := by
  unfold execRingRun at e
  injection e with e
  subst e
  repeat' (first | assumption | intro _ | with_reducible apply State.cmdField_keeps | with_reducible apply keeps_ite | split | dsimp only)

theorem execRingRediscover_keeps {r : State} (a0 : Requester) (a1 : Fin 4) (a2 : State) (h : Keeps r a2) (t : State) (e : execRingRediscover a0 a1 a2 = .next t) : Keeps r t := by
  unfold execRingRediscover at e
  injection e with e
  subst e
  repeat' (first | assumption | intro _ | with_reducible apply State.cmdField_keeps | with_reducible apply keeps_ite | split | dsimp only)

theorem execRingHeal_keeps {r : State} (a0 : Requester) (a1 : Fin 4) (a2 : State) (h : Keeps r a2) (t : State) (e : execRingHeal a0 a1 a2 = .next t) : Keeps r t := by
  unfold execRingHeal at e
  injection e with e
  subst e
  repeat' (first | assumption | intro _ | with_reducible apply State.cmdField_keeps | with_reducible apply keeps_ite | split | dsimp only)

theorem execRingCntclr_keeps {r : State} (a0 : Requester) (a1 : Fin 4) (a2 : State) (h : Keeps r a2) (t : State) (e : execRingCntclr a0 a1 a2 = .next t) : Keeps r t := by
  unfold execRingCntclr at e
  injection e with e
  subst e
  repeat' (first | assumption | intro _ | with_reducible apply State.cmdField_keeps | with_reducible apply keeps_ite | split | dsimp only)

theorem execNodeAccept_keeps {r : State} (a0 : Requester) (a1 : Fin 4) (a2 : Fin 64) (a3 : State) (h : Keeps r a3) (t : State) (e : execNodeAccept a0 a1 a2 a3 = .next t) : Keeps r t := by
  unfold execNodeAccept at e
  injection e with e
  subst e
  repeat' (first | assumption | intro _ | with_reducible apply State.cmdField_keeps | with_reducible apply keeps_ite | split | dsimp only)

theorem execAxisCommitRequest_keeps {r : State} (a0 : Requester) (a1 : Fin 256) (a2 : BitVec 11) (a3 : State) (h : Keeps r a3) (t : State) (e : execAxisCommitRequest a0 a1 a2 a3 = .next t) : Keeps r t := by
  unfold execAxisCommitRequest at e
  injection e with e
  subst e
  repeat' (first | assumption | intro _ | with_reducible apply State.cmdWrite_keeps | with_reducible apply keeps_ite | split | dsimp only)

theorem execAxisCntclr_keeps {r : State} (a0 : Requester) (a1 : Fin 256) (a2 : State) (h : Keeps r a2) (t : State) (e : execAxisCntclr a0 a1 a2 = .next t) : Keeps r t := by
  unfold execAxisCntclr at e
  injection e with e
  subst e
  repeat' (first | assumption | intro _ | with_reducible apply State.cmdWrite_keeps | with_reducible apply keeps_ite | split | dsimp only)

theorem execKnotOpen_keeps {r : State} (a0 : Requester) (a1 : Fin 64) (a2 : BitVec 10) (a3 : State) (h : Keeps r a3) (t : State) (e : execKnotOpen a0 a1 a2 a3 = .next t) : Keeps r t := by
  unfold execKnotOpen at e
  injection e with e
  subst e
  repeat' (first | assumption | intro _ | with_reducible apply State.cmdWrite_keeps | with_reducible apply keeps_ite | split | dsimp only)

theorem execKnotAdd_keeps {r : State} (a0 : Requester) (a1 : Fin 64) (a2 : State) (h : Keeps r a2) (t : State) (e : execKnotAdd a0 a1 a2 = .next t) : Keeps r t := by
  unfold execKnotAdd at e
  injection e with e
  subst e
  repeat' (first | assumption | intro _ | with_reducible apply State.cmdWrite_keeps | with_reducible apply keeps_ite | split | dsimp only)

theorem execKnotClose_keeps {r : State} (a0 : Requester) (a1 : Fin 64) (a2 : State) (h : Keeps r a2) (t : State) (e : execKnotClose a0 a1 a2 = .next t) : Keeps r t := by
  unfold execKnotClose at e
  injection e with e
  subst e
  repeat' (first | assumption | intro _ | with_reducible apply State.cmdWrite_keeps | with_reducible apply keeps_ite | split | dsimp only)

theorem execKnotSlotCancel_keeps {r : State} (a0 : Requester) (a1 : Fin 64) (a2 : State) (h : Keeps r a2) (t : State) (e : execKnotSlotCancel a0 a1 a2 = .next t) : Keeps r t := by
  unfold execKnotSlotCancel at e
  injection e with e
  subst e
  repeat' (first | assumption | intro _ | with_reducible apply State.cmdWrite_keeps | with_reducible apply keeps_ite | split | dsimp only)

theorem execKnotRelease_keeps {r : State} (a0 : Requester) (a1 : Fin 64) (a2 : State) (h : Keeps r a2) (t : State) (e : execKnotRelease a0 a1 a2 = .next t) : Keeps r t := by
  unfold execKnotRelease at e
  injection e with e
  subst e
  repeat' (first | assumption | intro _ | with_reducible apply State.cmdWrite_keeps | with_reducible apply keeps_ite | split | dsimp only)

theorem execKnotAnnounce_keeps {r : State} (a0 : Fin 64) (a1 : State) (h : Keeps r a1) (t : State) (e : execKnotAnnounce a0 a1 = .next t) : Keeps r t := by
  unfold execKnotAnnounce at e
  injection e with e
  subst e
  repeat' (first | assumption | intro _ | with_reducible apply State.mirrorSlot_keeps | with_reducible apply State.knotAnnounce_keeps | with_reducible apply keeps_ite | split | dsimp only)

theorem execKnotDecide_keeps {r : State} (a0 : Fin 64) (a1 : State) (h : Keeps r a1) (t : State) (e : execKnotDecide a0 a1 = .next t) : Keeps r t := by
  unfold execKnotDecide at e
  injection e with e
  subst e
  repeat' (first | assumption | intro _ | with_reducible apply State.knotDecide_keeps | with_reducible apply keeps_ite | split | dsimp only)

theorem execKnotConfirmEnd_keeps {r : State} (a0 : Fin 64) (a1 : State) (h : Keeps r a1) (t : State) (e : execKnotConfirmEnd a0 a1 = .next t) : Keeps r t := by
  unfold execKnotConfirmEnd at e
  injection e with e
  subst e
  repeat' (first | assumption | intro _ | with_reducible apply State.mirrorSlot_keeps | with_reducible apply State.knotConfirmEnd_keeps | with_reducible apply keeps_ite | split | dsimp only)

theorem execOfsInWrite_keeps {r : State} (a0 : Requester) (a1 : Fin 2) (a2 : Word) (a3 : State) (h : Keeps r a3) (t : State) (e : execOfsInWrite a0 a1 a2 a3 = .next t) : Keeps r t := by
  unfold execOfsInWrite at e
  injection e with e
  subst e
  repeat' (first | assumption | intro _ | with_reducible apply State.cmdWrite_keeps | with_reducible apply keeps_ite | split | dsimp only)

theorem execRateWrite_keeps {r : State} (a0 : Requester) (a1 : Fin 2) (a2 : Word) (a3 : State) (h : Keeps r a3) (t : State) (e : execRateWrite a0 a1 a2 a3 = .next t) : Keeps r t := by
  unfold execRateWrite at e
  injection e with e
  subst e
  repeat' (first | assumption | intro _ | with_reducible apply State.cmdWrite_keeps | with_reducible apply keeps_ite | split | dsimp only)

theorem execSwitchOverStart_keeps {r : State} (a0 : Requester) (a1 : Fin 2) (a2 : State) (h : Keeps r a2) (t : State) (e : execSwitchOverStart a0 a1 a2 = .next t) : Keeps r t := by
  unfold execSwitchOverStart at e
  injection e with e
  subst e
  repeat' (first | assumption | intro _ | with_reducible apply State.cmdWrite_keeps | with_reducible apply keeps_ite | split | dsimp only)

theorem execTimeSnap_keeps {r : State} (a0 : Requester) (a1 : State) (h : Keeps r a1) (t : State) (e : execTimeSnap a0 a1 = .next t) : Keeps r t := by
  unfold execTimeSnap at e
  injection e with e
  subst e
  repeat' (first | assumption | intro _ | with_reducible apply State.cmdWrite_keeps | with_reducible apply keeps_ite | split | dsimp only)

theorem execEpochWrite_keeps {r : State} (a0 : Requester) (a1 : Fin 2) (a2 : BitVec 16) (a3 : State) (h : Keeps r a3) (t : State) (e : execEpochWrite a0 a1 a2 a3 = .next t) : Keeps r t := by
  unfold execEpochWrite at e
  injection e with e
  subst e
  repeat' (first | assumption | intro _ | with_reducible apply State.cmdWrite_keeps | with_reducible apply keeps_ite | split | dsimp only)

theorem execPtpFifoRead_keeps {r : State} (a0 : Requester) (a1 : Fin 2) (a2 : Bool) (a3 : State) (h : Keeps r a3) (t : State) (e : execPtpFifoRead a0 a1 a2 a3 = .next t) : Keeps r t := by
  unfold execPtpFifoRead at e
  injection e with e
  subst e
  repeat' (first | assumption | intro _ | with_reducible apply State.cmdRead_keeps | with_reducible apply keeps_ite | split | dsimp only)

theorem execTeoPush_keeps {r : State} (a0 : Requester) (a1 : Fin 32) (a2 : Fin 4) (a3 : State) (h : Keeps r a3) (t : State) (e : execTeoPush a0 a1 a2 a3 = .next t) : Keeps r t := by
  unfold execTeoPush at e
  injection e with e
  subst e
  repeat' (first | assumption | intro _ | with_reducible apply State.cmdWrite_keeps | with_reducible apply keeps_ite | split | dsimp only)

theorem execTeoFlush_keeps {r : State} (a0 : Requester) (a1 : Fin 32) (a2 : State) (h : Keeps r a2) (t : State) (e : execTeoFlush a0 a1 a2 = .next t) : Keeps r t := by
  unfold execTeoFlush at e
  injection e with e
  subst e
  repeat' (first | assumption | intro _ | with_reducible apply State.cmdWrite_keeps | with_reducible apply keeps_ite | split | dsimp only)

theorem execTeoAction_keeps {r : State} (a0 : Fin 32) (a1 : State) (h : Keeps r a1) (t : State) (e : execTeoAction a0 a1 = .next t) : Keeps r t := by
  unfold execTeoAction at e
  injection e with e
  subst e
  repeat' (first | assumption | intro _ | with_reducible apply State.teoAct_keeps | with_reducible apply keeps_ite | split | dsimp only)

theorem execTeoPulseClear_keeps {r : State} (a0 : Fin 32) (a1 : State) (h : Keeps r a1) (t : State) (e : execTeoPulseClear a0 a1 = .next t) : Keeps r t := by
  unfold execTeoPulseClear at e
  injection e with e
  subst e
  repeat' (first | assumption | intro _ | with_reducible apply State.teoClear_keeps | with_reducible apply keeps_ite | split | dsimp only)

theorem execTciHeadRead_keeps {r : State} (a0 : Requester) (a1 : Fin 32) (a2 : State) (h : Keeps r a2) (t : State) (e : execTciHeadRead a0 a1 a2 = .next t) : Keeps r t := by
  unfold execTciHeadRead at e
  injection e with e
  subst e
  repeat' (first | assumption | intro _ | with_reducible apply State.cmdRead_keeps | with_reducible apply keeps_ite | split | dsimp only)

theorem execHoldover_keeps {r : State} (a0 : Fin 2) (a1 : State) (h : Keeps r a1) (t : State) (e : execHoldover a0 a1 = .next t) : Keeps r t := by
  unfold execHoldover at e
  injection e with e
  subst e
  repeat' (first | assumption | intro _ | with_reducible apply State.holdover_keeps | with_reducible apply keeps_ite | split | dsimp only)

theorem execStrandStart_keeps {r : State} (a0 : Requester) (a1 : Fin 1024) (a2 : State) (h : Keeps r a2) (t : State) (e : execStrandStart a0 a1 a2 = .next t) : Keeps r t := by
  unfold execStrandStart at e
  injection e with e
  subst e
  repeat' (first | assumption | intro _ | with_reducible apply State.cmdWrite_keeps | with_reducible apply keeps_ite | split | dsimp only)

theorem execStrandStop_keeps {r : State} (a0 : Requester) (a1 : Fin 1024) (a2 : State) (h : Keeps r a2) (t : State) (e : execStrandStop a0 a1 a2 = .next t) : Keeps r t := by
  unfold execStrandStop at e
  injection e with e
  subst e
  repeat' (first | assumption | intro _ | with_reducible apply State.cmdWrite_keeps | with_reducible apply keeps_ite | split | dsimp only)

theorem execStrandResume_keeps {r : State} (a0 : Requester) (a1 : Fin 1024) (a2 : State) (h : Keeps r a2) (t : State) (e : execStrandResume a0 a1 a2 = .next t) : Keeps r t := by
  unfold execStrandResume at e
  injection e with e
  subst e
  repeat' (first | assumption | intro _ | with_reducible apply State.cmdWrite_keeps | with_reducible apply keeps_ite | split | dsimp only)

theorem execStrandEnd_keeps {r : State} (a0 : Requester) (a1 : Fin 1024) (a2 : State) (h : Keeps r a2) (t : State) (e : execStrandEnd a0 a1 a2 = .next t) : Keeps r t := by
  unfold execStrandEnd at e
  injection e with e
  subst e
  repeat' (first | assumption | intro _ | with_reducible apply State.cmdWrite_keeps | with_reducible apply keeps_ite | split | dsimp only)

theorem execStrandMigrate_keeps {r : State} (a0 : Requester) (a1 : Fin 1024) (a2 : State) (h : Keeps r a2) (t : State) (e : execStrandMigrate a0 a1 a2 = .next t) : Keeps r t := by
  unfold execStrandMigrate at e
  injection e with e
  subst e
  repeat' (first | assumption | intro _ | with_reducible apply State.cmdWrite_keeps | with_reducible apply keeps_ite | split | dsimp only)

theorem execTagValueWrite_keeps {r : State} (a0 : Requester) (a1 : Fin 16384) (a2 : Word) (a3 : State) (h : Keeps r a3) (t : State) (e : execTagValueWrite a0 a1 a2 a3 = .next t) : Keeps r t := by
  unfold execTagValueWrite at e
  injection e with e
  subst e
  repeat' (first | assumption | intro _ | with_reducible apply State.cmdWrite_keeps | with_reducible apply keeps_ite | split | dsimp only)

theorem execCoreOffreq_keeps {r : State} (a0 : Requester) (a1 : Fin 36) (a2 : State) (h : Keeps r a2) (t : State) (e : execCoreOffreq a0 a1 a2 = .next t) : Keeps r t := by
  unfold execCoreOffreq at e
  injection e with e
  subst e
  repeat' (first | assumption | intro _ | with_reducible apply State.cmdWrite_keeps | with_reducible apply keeps_ite | split | dsimp only)

theorem execCoreOnreq_keeps {r : State} (a0 : Requester) (a1 : Fin 36) (a2 : State) (h : Keeps r a2) (t : State) (e : execCoreOnreq a0 a1 a2 = .next t) : Keeps r t := by
  unfold execCoreOnreq at e
  injection e with e
  subst e
  repeat' (first | assumption | intro _ | with_reducible apply State.cmdWrite_keeps | with_reducible apply keeps_ite | split | dsimp only)

theorem execSoftInterrupt_keeps {r : State} (a0 : Requester) (a1 : Fin 1024) (a2 : State) (h : Keeps r a2) (t : State) (e : execSoftInterrupt a0 a1 a2 = .next t) : Keeps r t := by
  unfold execSoftInterrupt at e
  injection e with e
  subst e
  repeat' (first | assumption | intro _ | with_reducible apply State.cmdWrite_keeps | with_reducible apply keeps_ite | split | dsimp only)

theorem execParkedViewSelect_keeps {r : State} (a0 : Requester) (a1 : Fin 1024) (a2 : State) (h : Keeps r a2) (t : State) (e : execParkedViewSelect a0 a1 a2 = .next t) : Keeps r t := by
  unfold execParkedViewSelect at e
  injection e with e
  subst e
  repeat' (first | assumption | intro _ | with_reducible apply State.cmdWrite_keeps | with_reducible apply keeps_ite | split | dsimp only)

theorem execChannelCommitRequest_keeps {r : State} (a0 : Requester) (a1 : Fin 64) (a2 : State) (h : Keeps r a2) (t : State) (e : execChannelCommitRequest a0 a1 a2 = .next t) : Keeps r t := by
  unfold execChannelCommitRequest at e
  injection e with e
  subst e
  repeat' (first | assumption | intro _ | with_reducible apply State.cmdWrite_keeps | with_reducible apply keeps_ite | split | dsimp only)

theorem execGroupCommitRequest_keeps {r : State} (a0 : Requester) (a1 : Fin 16) (a2 : State) (h : Keeps r a2) (t : State) (e : execGroupCommitRequest a0 a1 a2 = .next t) : Keeps r t := by
  unfold execGroupCommitRequest at e
  injection e with e
  subst e
  repeat' (first | assumption | intro _ | with_reducible apply State.cmdWrite_keeps | with_reducible apply keeps_ite | split | dsimp only)

theorem execOvrWrite_keeps {r : State} (a0 : Requester) (a1 : Fin 64) (a2 : BitVec 3) (a3 : State) (h : Keeps r a3) (t : State) (e : execOvrWrite a0 a1 a2 a3 = .next t) : Keeps r t := by
  unfold execOvrWrite at e
  injection e with e
  subst e
  repeat' (first | assumption | intro _ | with_reducible apply State.cmdWrite_keeps | with_reducible apply keeps_ite | split | dsimp only)

theorem execChannelEnable_keeps {r : State} (a0 : Requester) (a1 : Fin 64) (a2 : State) (h : Keeps r a2) (t : State) (e : execChannelEnable a0 a1 a2 = .next t) : Keeps r t := by
  unfold execChannelEnable at e
  injection e with e
  subst e
  repeat' (first | assumption | intro _ | with_reducible apply State.cmdField_keeps | with_reducible apply keeps_ite | split | dsimp only)

theorem execChannelCntclr_keeps {r : State} (a0 : Requester) (a1 : Fin 64) (a2 : State) (h : Keeps r a2) (t : State) (e : execChannelCntclr a0 a1 a2 = .next t) : Keeps r t := by
  unfold execChannelCntclr at e
  injection e with e
  subst e
  repeat' (first | assumption | intro _ | with_reducible apply State.cmdWrite_keeps | with_reducible apply keeps_ite | split | dsimp only)

theorem execGroupCntclr_keeps {r : State} (a0 : Requester) (a1 : Fin 16) (a2 : State) (h : Keeps r a2) (t : State) (e : execGroupCntclr a0 a1 a2 = .next t) : Keeps r t := by
  unfold execGroupCntclr at e
  injection e with e
  subst e
  repeat' (first | assumption | intro _ | with_reducible apply State.cmdWrite_keeps | with_reducible apply keeps_ite | split | dsimp only)

theorem execShotPush_keeps {r : State} (a0 : Requester) (a1 : Fin 64) (a2 : BitVec 30) (a3 : State) (h : Keeps r a3) (t : State) (e : execShotPush a0 a1 a2 a3 = .next t) : Keeps r t := by
  unfold execShotPush at e
  injection e with e
  subst e
  repeat' (first | assumption | intro _ | with_reducible apply State.cmdWrite_keeps | with_reducible apply keeps_ite | split | dsimp only)

theorem execShotFlush_keeps {r : State} (a0 : Requester) (a1 : Fin 64) (a2 : State) (h : Keeps r a2) (t : State) (e : execShotFlush a0 a1 a2 = .next t) : Keeps r t := by
  unfold execShotFlush at e
  injection e with e
  subst e
  repeat' (first | assumption | intro _ | with_reducible apply State.cmdWrite_keeps | with_reducible apply keeps_ite | split | dsimp only)

theorem execShotAbort_keeps {r : State} (a0 : Requester) (a1 : Fin 64) (a2 : State) (h : Keeps r a2) (t : State) (e : execShotAbort a0 a1 a2 = .next t) : Keeps r t := by
  unfold execShotAbort at e
  injection e with e
  subst e
  repeat' (first | assumption | intro _ | with_reducible apply State.cmdWrite_keeps | with_reducible apply keeps_ite | split | dsimp only)

theorem execBelayRestart_keeps {r : State} (a0 : Requester) (a1 : State) (h : Keeps r a1) (t : State) (e : execBelayRestart a0 a1 = .next t) : Keeps r t := by
  unfold execBelayRestart at e
  injection e with e
  subst e
  repeat' (first | assumption | intro _ | with_reducible apply State.cmdWrite_keeps | with_reducible apply keeps_ite | split | dsimp only)

theorem execConfigWrite_keeps {r : State} (a0 : Requester) (a1 : State) (h : Keeps r a1) (t : State) (e : execConfigWrite a0 a1 = .next t) : Keeps r t := by
  unfold execConfigWrite at e
  injection e with e
  subst e
  repeat' (first | assumption | intro _ | with_reducible apply State.cmdWrite_keeps | with_reducible apply keeps_ite | split | dsimp only)

theorem execZoneRequest_keeps {r : State} (a0 : Requester) (a1 : Word) (a2 : State) (h : Keeps r a2) (t : State) (e : execZoneRequest a0 a1 a2 = .next t) : Keeps r t := by
  unfold execZoneRequest at e
  injection e with e
  subst e
  repeat' (first | assumption | intro _ | with_reducible apply State.cmdWrite_keeps | with_reducible apply keeps_ite | split | dsimp only)

theorem execZoneReset_keeps {r : State} (a0 : Requester) (a1 : Word) (a2 : State) (h : Keeps r a2) (t : State) (e : execZoneReset a0 a1 a2 = .next t) : Keeps r t := by
  unfold execZoneReset at e
  injection e with e
  subst e
  repeat' (first | assumption | intro _ | with_reducible apply State.cmdWrite_keeps | with_reducible apply keeps_ite | split | dsimp only)

theorem execConnfClear_keeps {r : State} (a0 : Requester) (a1 : Fin 8) (a2 : Word) (a3 : State) (h : Keeps r a3) (t : State) (e : execConnfClear a0 a1 a2 a3 = .next t) : Keeps r t := by
  unfold execConnfClear at e
  injection e with e
  subst e
  repeat' (first | assumption | intro _ | with_reducible apply State.cmdWrite_keeps | with_reducible apply keeps_ite | split | dsimp only)

theorem execSorst_keeps {r : State} (a0 : Requester) (a1 : BitVec 4) (a2 : State) (h : Keeps r a2) (t : State) (e : execSorst a0 a1 a2 = .next t) : Keeps r t := by
  unfold execSorst at e
  injection e with e
  subst e
  repeat' (first | assumption | intro _ | with_reducible apply State.cmdWrite_keeps | with_reducible apply keeps_ite | split | dsimp only)

theorem execDuplexEnable_keeps {r : State} (a0 : Requester) (a1 : State) (h : Keeps r a1) (t : State) (e : execDuplexEnable a0 a1 = .next t) : Keeps r t := by
  unfold execDuplexEnable at e
  injection e with e
  subst e
  repeat' (first | assumption | intro _ | with_reducible apply State.cmdField_keeps | with_reducible apply keeps_ite | split | dsimp only)

theorem execDuplexDisable_keeps {r : State} (a0 : Requester) (a1 : State) (h : Keeps r a1) (t : State) (e : execDuplexDisable a0 a1 = .next t) : Keeps r t := by
  unfold execDuplexDisable at e
  injection e with e
  subst e
  repeat' (first | assumption | intro _ | with_reducible apply State.cmdField_keeps | with_reducible apply keeps_ite | split | dsimp only)

theorem execDuplexFence_keeps {r : State} (a0 : Requester) (a1 : State) (h : Keeps r a1) (t : State) (e : execDuplexFence a0 a1 = .next t) : Keeps r t := by
  unfold execDuplexFence at e
  injection e with e
  subst e
  repeat' (first | assumption | intro _ | with_reducible apply State.cmdField_keeps | with_reducible apply keeps_ite | split | dsimp only)

theorem execDuplexRejoin_keeps {r : State} (a0 : Requester) (a1 : State) (h : Keeps r a1) (t : State) (e : execDuplexRejoin a0 a1 = .next t) : Keeps r t := by
  unfold execDuplexRejoin at e
  injection e with e
  subst e
  repeat' (first | assumption | intro _ | with_reducible apply State.cmdField_keeps | with_reducible apply keeps_ite | split | dsimp only)

theorem execLiveKick_keeps {r : State} (a0 : Requester) (a1 : State) (h : Keeps r a1) (t : State) (e : execLiveKick a0 a1 = .next t) : Keeps r t := by
  unfold execLiveKick at e
  injection e with e
  subst e
  repeat' (first | assumption | intro _ | with_reducible apply State.cmdField_keeps | with_reducible apply keeps_ite | split | dsimp only)

theorem execTakebackClear_keeps {r : State} (a0 : Requester) (a1 : State) (h : Keeps r a1) (t : State) (e : execTakebackClear a0 a1 = .next t) : Keeps r t := by
  unfold execTakebackClear at e
  injection e with e
  subst e
  repeat' (first | assumption | intro _ | with_reducible apply State.cmdField_keeps | with_reducible apply keeps_ite | split | dsimp only)

theorem execSwitch_keeps {r : State} (a0 : Requester) (a1 : State) (h : Keeps r a1) (t : State) (e : execSwitch a0 a1 = .next t) : Keeps r t := by
  unfold execSwitch at e
  injection e with e
  subst e
  repeat' (first | assumption | intro _ | with_reducible apply State.cmdField_keeps | with_reducible apply keeps_ite | split | dsimp only)

theorem execLogRead_keeps {r : State} (a0 : Requester) (a1 : Word) (a2 : State) (h : Keeps r a2) (t : State) (e : execLogRead a0 a1 a2 = .next t) : Keeps r t := by
  unfold execLogRead at e
  injection e with e
  subst e
  repeat' (first | assumption | intro _ | with_reducible apply State.cmdWrite_keeps | with_reducible apply keeps_ite | split | dsimp only)

theorem execWindowRead_keeps {r : State} (a0 : Requester) (a1 : Fin 256) (a2 : Word) (a3 : State) (h : Keeps r a3) (t : State) (e : execWindowRead a0 a1 a2 a3 = .next t) : Keeps r t := by
  unfold execWindowRead at e
  injection e with e
  subst e
  repeat' (first | assumption | intro _ | with_reducible apply State.cmdWrite_keeps | with_reducible apply keeps_ite | split | dsimp only)

theorem execSoftwareReport_keeps {r : State} (a0 : Requester) (a1 : Fin 256) (a2 : Fin 4) (a3 : State) (h : Keeps r a3) (t : State) (e : execSoftwareReport a0 a1 a2 a3 = .next t) : Keeps r t := by
  unfold execSoftwareReport at e
  injection e with e
  subst e
  repeat' (first | assumption | intro _ | with_reducible apply State.cmdWrite_keeps | with_reducible apply keeps_ite | split | dsimp only)

theorem execLogErase_keeps {r : State} (a0 : Requester) (a1 : BitVec 4) (a2 : State) (h : Keeps r a2) (t : State) (e : execLogErase a0 a1 a2 = .next t) : Keeps r t := by
  unfold execLogErase at e
  injection e with e
  subst e
  repeat' (first | assumption | intro _ | with_reducible apply State.cmdWrite_keeps | with_reducible apply keeps_ite | split | dsimp only)

theorem execFidUnlock_keeps {r : State} (a0 : Requester) (a1 : Word) (a2 : State) (h : Keeps r a2) (t : State) (e : execFidUnlock a0 a1 a2 = .next t) : Keeps r t := by
  unfold execFidUnlock at e
  injection e with e
  subst e
  repeat' (first | assumption | intro _ | with_reducible apply State.cmdWrite_keeps | with_reducible apply keeps_ite | split | dsimp only)

theorem execFidDisarm_keeps {r : State} (a0 : Requester) (a1 : State) (h : Keeps r a1) (t : State) (e : execFidDisarm a0 a1 = .next t) : Keeps r t := by
  unfold execFidDisarm at e
  injection e with e
  subst e
  repeat' (first | assumption | intro _ | with_reducible apply State.cmdWrite_keeps | with_reducible apply keeps_ite | split | dsimp only)

theorem execFidSlotGo_keeps {r : State} (a0 : Requester) (a1 : Fin 8) (a2 : BitVec 16) (a3 : State) (h : Keeps r a3) (t : State) (e : execFidSlotGo a0 a1 a2 a3 = .next t) : Keeps r t := by
  unfold execFidSlotGo at e
  injection e with e
  subst e
  repeat' (first | assumption | intro _ | with_reducible apply State.cmdWrite_keeps | with_reducible apply keeps_ite | split | dsimp only)

theorem execFidSlotStop_keeps {r : State} (a0 : Requester) (a1 : Fin 8) (a2 : State) (h : Keeps r a2) (t : State) (e : execFidSlotStop a0 a1 a2 = .next t) : Keeps r t := by
  unfold execFidSlotStop at e
  injection e with e
  subst e
  repeat' (first | assumption | intro _ | with_reducible apply State.cmdField_keeps | with_reducible apply keeps_ite | split | dsimp only)

theorem execLatchAdmit_keeps {r : State} (a0 : State) (h : Keeps r a0) (t : State) (e : execLatchAdmit a0 = .next t) : Keeps r t := by
  unfold execLatchAdmit at e
  injection e with e
  subst e
  repeat' (first | assumption | intro _ | with_reducible apply State.latchAdmit_keeps | with_reducible apply keeps_ite | split | dsimp only)

theorem execLogScanDone_keeps {r : State} (a0 : State) (h : Keeps r a0) (t : State) (e : execLogScanDone a0 = .next t) : Keeps r t := by
  unfold execLogScanDone at e
  injection e with e
  subst e
  repeat' (first | assumption | intro _ | with_reducible apply State.scanDone_keeps | with_reducible apply keeps_ite | split | dsimp only)

theorem execLogReadDone_keeps {r : State} (a0 : State) (h : Keeps r a0) (t : State) (e : execLogReadDone a0 = .next t) : Keeps r t := by
  unfold execLogReadDone at e
  injection e with e
  subst e
  repeat' (first | assumption | intro _ | with_reducible apply State.readDone_keeps | with_reducible apply keeps_ite | split | dsimp only)

theorem execLogEraseDone_keeps {r : State} (a0 : BitVec 16) (a1 : State) (h : Keeps r a1) (t : State) (e : execLogEraseDone a0 a1 = .next t) : Keeps r t := by
  unfold execLogEraseDone at e
  injection e with e
  subst e
  repeat' (first | assumption | intro _ | with_reducible apply State.eraseDone_keeps | with_reducible apply keeps_ite | split | dsimp only)

theorem execLogReport_keeps {r : State} (a0 : BitVec 16) (a1 : Fin 4) (a2 : BitVec 8) (a3 : List Word) (a4 : State) (h : Keeps r a4) (t : State) (e : execLogReport a0 a1 a2 a3 a4 = .next t) : Keeps r t := by
  unfold execLogReport at e
  injection e with e
  subst e
  repeat' (first | assumption | intro _ | with_reducible apply State.report_keeps | with_reducible apply keeps_ite | split | dsimp only)

theorem execDomainRequest_keeps {r : State} (a0 : Requester) (a1 : BitVec 24) (a2 : State) (h : Keeps r a2) (t : State) (e : execDomainRequest a0 a1 a2 = .next t) : Keeps r t := by
  unfold execDomainRequest at e
  injection e with e
  subst e
  repeat' (first | assumption | intro _ | with_reducible apply State.cmdWrite_keeps | with_reducible apply keeps_ite | split | dsimp only)

theorem execIslandReset_keeps {r : State} (a0 : Requester) (a1 : BitVec 6) (a2 : State) (h : Keeps r a2) (t : State) (e : execIslandReset a0 a1 a2 = .next t) : Keeps r t := by
  unfold execIslandReset at e
  injection e with e
  subst e
  repeat' (first | assumption | intro _ | with_reducible apply State.cmdWrite_keeps | with_reducible apply keeps_ite | split | dsimp only)

theorem execOppChange_keeps {r : State} (a0 : Requester) (a1 : Fin 33) (a2 : Fin 4) (a3 : State) (h : Keeps r a3) (t : State) (e : execOppChange a0 a1 a2 a3 = .next t) : Keeps r t := by
  unfold execOppChange at e
  injection e with e
  subst e
  repeat' (first | assumption | intro _ | with_reducible apply State.cmdWrite_keeps | with_reducible apply keeps_ite | split | dsimp only)

theorem execStandbyGo_keeps {r : State} (a0 : Requester) (a1 : State) (h : Keeps r a1) (t : State) (e : execStandbyGo a0 a1 = .next t) : Keeps r t := by
  unfold execStandbyGo at e
  injection e with e
  subst e
  repeat' (first | assumption | intro _ | with_reducible apply State.cmdField_keeps | with_reducible apply keeps_ite | split | dsimp only)

theorem execShutdown_keeps {r : State} (a0 : Requester) (a1 : State) (h : Keeps r a1) (t : State) (e : execShutdown a0 a1 = .next t) : Keeps r t := by
  unfold execShutdown at e
  injection e with e
  subst e
  repeat' (first | assumption | intro _ | with_reducible apply State.cmdField_keeps | with_reducible apply keeps_ite | split | dsimp only)

theorem execSaveGo_keeps {r : State} (a0 : Requester) (a1 : State) (h : Keeps r a1) (t : State) (e : execSaveGo a0 a1 = .next t) : Keeps r t := by
  unfold execSaveGo at e
  injection e with e
  subst e
  repeat' (first | assumption | intro _ | with_reducible apply State.cmdField_keeps | with_reducible apply keeps_ite | split | dsimp only)

theorem execSoftwareReset_keeps {r : State} (a0 : Requester) (a1 : State) (h : Keeps r a1) (t : State) (e : execSoftwareReset a0 a1 = .next t) : Keeps r t := by
  unfold execSoftwareReset at e
  injection e with e
  subst e
  repeat' (first | assumption | intro _ | with_reducible apply State.cmdField_keeps | with_reducible apply keeps_ite | split | dsimp only)

theorem execFuseProgram_keeps {r : State} (a0 : Requester) (a1 : State) (h : Keeps r a1) (t : State) (e : execFuseProgram a0 a1 = .next t) : Keeps r t := by
  unfold execFuseProgram at e
  injection e with e
  subst e
  repeat' (first | assumption | intro _ | with_reducible apply State.cmdField_keeps | with_reducible apply keeps_ite | split | dsimp only)

theorem execMramWrite_keeps {r : State} (a0 : Requester) (a1 : State) (h : Keeps r a1) (t : State) (e : execMramWrite a0 a1 = .next t) : Keeps r t := by
  unfold execMramWrite at e
  injection e with e
  subst e
  repeat' (first | assumption | intro _ | with_reducible apply State.cmdField_keeps | with_reducible apply keeps_ite | split | dsimp only)

theorem execDebugOpen_keeps {r : State} (a0 : Requester) (a1 : State) (h : Keeps r a1) (t : State) (e : execDebugOpen a0 a1 = .next t) : Keeps r t := by
  unfold execDebugOpen at e
  injection e with e
  subst e
  repeat' (first | assumption | intro _ | with_reducible apply State.cmdField_keeps | with_reducible apply keeps_ite | split | dsimp only)

theorem execMsixSend_keeps {r : State} (a0 : Requester) (a1 : Fin 64) (a2 : Fin 8) (a3 : State) (h : Keeps r a3) (t : State) (e : execMsixSend a0 a1 a2 a3 = .next t) : Keeps r t := by
  unfold execMsixSend at e
  injection e with e
  subst e
  repeat' (first | assumption | intro _ | with_reducible apply State.cmdWrite_keeps | with_reducible apply keeps_ite | split | dsimp only)

theorem execPcieOutbound_keeps {r : State} (a0 : Requester) (a1 : Bool) (a2 : BitVec 52) (a3 : Size) (a4 : BitVec 64) (a5 : State) (h : Keeps r a5) (t : State) (e : execPcieOutbound a0 a1 a2 a3 a4 a5 = .next t) : Keeps r t := by
  unfold execPcieOutbound at e
  injection e with e
  subst e
  repeat' (first | assumption | intro _ | with_reducible apply State.cmdWrite_keeps | with_reducible apply State.cmdRead_keeps | with_reducible apply keeps_ite | split | dsimp only)

theorem State.inbound_keeps {r : State} (a0 : State) (a1 : Nat) (a2 : Bool) (a3 : Nat) (a4 : Nat) (a5 : Nat) (h : Keeps r a0) : Keeps r (State.inbound a0 a1 a2 a3 a4 a5) := by
  unfold State.inbound
  extract_lets -merge -useContext +onlyGivenNames z0
  clear_value z0
  extract_lets -merge -useContext +onlyGivenNames z1
  clear_value z1
  extract_lets -merge -useContext +onlyGivenNames z2
  clear_value z2
  extract_lets -merge -useContext +onlyGivenNames z3
  clear_value z3
  refine keeps_ite _ ?_ ?_
  · refine State.answer_keeps _ _ ?_
    refine State.hostReport_keeps _ _ _ _ _ ?_
    refine State.violation_keeps _ _ _ _ ?_
    exact h
  · refine keeps_ite _ ?_ ?_
    · refine State.cmdWrite_keeps _ _ _ _ _ ?_
      exact h
    · refine State.cmdRead_keeps _ _ _ _ ?_
      exact h

theorem execPcieInboundAccess_keeps {r : State} (a0 : Fin 64) (a1 : Bool) (a2 : Nat) (a3 : Size) (a4 : BitVec 64) (a5 : State) (h : Keeps r a5) (t : State) (e : execPcieInboundAccess a0 a1 a2 a3 a4 a5 = .next t) : Keeps r t := by
  unfold execPcieInboundAccess at e
  injection e with e
  subst e
  repeat' (first | assumption | intro _ | with_reducible apply State.inbound_keeps | with_reducible apply keeps_ite | split | dsimp only)

theorem execDmaStart_keeps {r : State} (a0 : Requester) (a1 : Fin 8) (a2 : State) (h : Keeps r a2) (t : State) (e : execDmaStart a0 a1 a2 = .next t) : Keeps r t := by
  unfold execDmaStart at e
  injection e with e
  subst e
  repeat' (first | assumption | intro _ | with_reducible apply State.cmdField_keeps | with_reducible apply keeps_ite | split | dsimp only)

theorem execDmaStop_keeps {r : State} (a0 : Requester) (a1 : Fin 8) (a2 : State) (h : Keeps r a2) (t : State) (e : execDmaStop a0 a1 a2 = .next t) : Keeps r t := by
  unfold execDmaStop at e
  injection e with e
  subst e
  repeat' (first | assumption | intro _ | with_reducible apply State.cmdField_keeps | with_reducible apply keeps_ite | split | dsimp only)

theorem execPlantTxTail_keeps {r : State} (a0 : Requester) (a1 : Fin 2) (a2 : BitVec 13) (a3 : State) (h : Keeps r a3) (t : State) (e : execPlantTxTail a0 a1 a2 a3 = .next t) : Keeps r t := by
  unfold execPlantTxTail at e
  injection e with e
  subst e
  repeat' (first | assumption | intro _ | with_reducible apply State.cmdWrite_keeps | with_reducible apply keeps_ite | split | dsimp only)

theorem execMailboxAck_keeps {r : State} (a0 : Requester) (a1 : State) (h : Keeps r a1) (t : State) (e : execMailboxAck a0 a1 = .next t) : Keeps r t := by
  unfold execMailboxAck at e
  injection e with e
  subst e
  repeat' (first | assumption | intro _ | with_reducible apply State.cmdField_keeps | with_reducible apply keeps_ite | split | dsimp only)

theorem execSnapshotSwapnow_keeps {r : State} (a0 : Requester) (a1 : State) (h : Keeps r a1) (t : State) (e : execSnapshotSwapnow a0 a1 = .next t) : Keeps r t := by
  unfold execSnapshotSwapnow at e
  injection e with e
  subst e
  repeat' (first | assumption | intro _ | with_reducible apply State.cmdField_keeps | with_reducible apply keeps_ite | split | dsimp only)

theorem execPinCommitNow_keeps {r : State} (a0 : Requester) (a1 : State) (h : Keeps r a1) (t : State) (e : execPinCommitNow a0 a1 = .next t) : Keeps r t := by
  unfold execPinCommitNow at e
  injection e with e
  subst e
  repeat' (first | assumption | intro _ | with_reducible apply State.cmdField_keeps | with_reducible apply keeps_ite | split | dsimp only)

theorem execPinCommitGo_keeps {r : State} (a0 : Requester) (a1 : State) (h : Keeps r a1) (t : State) (e : execPinCommitGo a0 a1 = .next t) : Keeps r t := by
  unfold execPinCommitGo at e
  injection e with e
  subst e
  repeat' (first | assumption | intro _ | with_reducible apply State.cmdField_keeps | with_reducible apply keeps_ite | split | dsimp only)

end Sys2Proof.Machine
end

