-- ==== Sys2Proof/Laws/Spec.lean ====
section
/-! SUPPORT. One law per shared operation of the commands: what issuing an instruction, a write access and a read access do
when they are permitted. -/

namespace Sys2Proof.Machine

/-- With no suspension requested, nothing happens at an instruction boundary. -/
theorem State.settle_still (s : State) (c : Nat) (h : (s.core c).suspReq = 0) (o : s.on (R.DSP_CORE_OFFREQ c) = false) :
    s.settle c = s := by
  simp [State.settle, State.suspDue, h, o]

/-- What an instruction does when it runs. -/
theorem State.insn_runs {s u : State} {c : Nat} {G : BitVec 4} {i : Insn} (h : Runs s c G i u) (eff : State → State) :
    s.insn c G i eff = (eff u).settle c := by
  have k : u = (s.fetchAll c i).2.modCore c (fun k => { k with issued := k.issued + 1 }) := h.counted
  rw [k]
  unfold State.insn
  simp [h.issues, h.fetched, h.legal, h.placed, h.guarded]

/-- An effect that leaves core `c` with no suspension requested. -/
theorem State.insn_runs' {s u : State} {c : Nat} {G : BitVec 4} {i : Insn} (h : Runs s c G i u) (eff : State → State)
    (k : ((eff u).core c).suspReq = 0) (o : (eff u).on (R.DSP_CORE_OFFREQ c) = false) : s.insn c G i eff = eff u := by
  rw [State.insn_runs h, State.settle_still _ _ k o]

theorem State.core_ctxTo {u : State} (h : u.canonical = true) (c : Nat) (x : Ctx) :
    (u.ctxTo c x).core c = { u.core c with ctx := x } := State.core_setCore_self h _ _

theorem State.finish_eq (u : State) (c len : Nat) (f : Ctx → Ctx) : u.finish c len f = u.ctxTo c ((f (u.core c).ctx).after len) :=
  rfl

/-- An instruction whose effect is on the register state alone. -/
theorem State.insn_finish {s u : State} {c : Nat} {G : BitVec 4} {i : Insn} (h : Runs s c G i u) (len : Nat) (f : Ctx → Ctx) :
    s.insn c G i (fun s => s.finish c len f) = u.ctxTo c ((f (u.core c).ctx).after len) := by
  refine State.insn_runs' h _ ?_ h.still.2
  rw [State.finish_eq, State.core_ctxTo h.canonical]
  exact h.still.1

/-- `Runs` looks at no word. -/
theorem Runs.word {s u : State} {c : Nat} {G : BitVec 4} {i : Insn} (h : Runs s c G i u) (w : Nat) :
    Runs s c G { i with word := w } u := by
  exact ⟨h.issues, h.fetched, h.legal, h.placed, h.guarded, h.counted, h.still, h.canonical⟩

/-! ## Bytes stored -/

theorem State.canonical_setByte {s : State} (h : s.canonical = true) (a : Nat) (v : Byte) : (s.setByte a v).canonical = true :=
  (State.setByte_keeps s a v (Keeps.refl s)).canon h

/-- Every byte after a store: those stored, and the others as before. -/
theorem State.byte_store {s : State} (h : s.canonical = true) (a : Nat) (bs : List Byte) (b : Nat) :
    (s.store a bs).byte b = if a ≤ b ∧ b < a + bs.length then bs.getD (b - a) 0 else s.byte b := by
  induction bs generalizing s a with
  | nil => rw [if_neg (by simp only [List.length_nil]; omega)]; rfl
  | cons x xs ih =>
    rw [State.store, ih (State.canonical_setByte h a x)]
    simp only [List.length_cons]
    by_cases e : b = a
    · subst e
      rw [if_neg (by omega), if_pos (by omega), State.byte_setByte_self h, Nat.sub_self]; rfl
    · rw [State.byte_setByte_ne _ _ _ _ e]
      by_cases q : a + 1 ≤ b ∧ b < a + 1 + xs.length
      · rw [if_pos q, if_pos (by omega), show b - a = (b - (a + 1)) + 1 by omega]; rfl
      · rw [if_neg q, if_neg (by omega)]

theorem leBytes_length (n v : Nat) : (leBytes n v).length = n := by
  induction n generalizing v with
  | zero => rfl
  | succ n ih => simp [leBytes, ih]

theorem leBytes_getD (n v i : Nat) (h : i < n) : (leBytes n v).getD i 0 = BitVec.ofNat 8 (v / 256 ^ i) := by
  induction n generalizing v i with
  | zero => omega
  | succ n ih =>
    cases i with
    | zero => simp [leBytes]
    | succ i =>
      simp only [leBytes, List.getD_cons_succ]
      rw [ih (v / 256) i (by omega), Nat.div_div_eq_div_mul, Nat.pow_succ, Nat.mul_comm]

/-- Every byte after a little-endian write. -/
theorem State.byte_wr {s : State} (h : s.canonical = true) (a n v b : Nat) :
    (s.wr a n v).byte b = if a ≤ b ∧ b < a + n then BitVec.ofNat 8 (v / 256 ^ (b - a)) else s.byte b := by
  unfold State.wr
  rw [State.byte_store h, leBytes_length]
  by_cases q : a ≤ b ∧ b < a + n
  · rw [if_pos q, if_pos q, leBytes_getD _ _ _ (by omega)]
  · rw [if_neg q, if_neg q]

/-- A write of bytes changes memory alone. -/
theorem State.store_mem (s : State) (a : Nat) (bs : List Byte) : { s.store a bs with mem := s.mem } = s := by
  induction bs generalizing s a with
  | nil => rfl
  | cons x xs ih =>
    rw [State.store]
    have e := ih (s.setByte a x) (a + 1)
    exact congrArg (fun q : State => { q with mem := s.mem }) e

/-! ## Memory of a core -/

theorem State.own_quick {u : State} {c ea a : Nat} {k : Bool} {r : Right} {t : State} (h : u.place c ea k r = (.own a, t)) :
    u.quick c a = true := by
  unfold State.place at h
  unfold State.quick
  cases hc : isCC c with
  | false =>
    rw [hc] at h
    simp only [Bool.false_eq_true, ↓reduceIte] at h
    split at h <;> cases h
  | true =>
    rw [hc] at h
    simp only [↓reduceIte, Prod.mk.injEq] at h
    have h1 := h.1
    unfold ccPlace at h1
    dsimp only at h1
    repeat' split at h1
    all_goals first | cases h1 | skip
    simp only [Nat.le_add_right, decide_true, Bool.true_and, decide_eq_true_eq, ↓reduceIte]
    omega

theorem State.own_l1 {u : State} {c ea a : Nat} {k : Bool} {r : Right} {t : State} (h : u.place c ea k r = (.own a, t))
    (s : State) : s.l1 c a = s := by
  unfold State.place at h
  unfold State.l1
  cases hc : isCC c with
  | false =>
    rw [hc] at h
    simp only [Bool.false_eq_true, ↓reduceIte] at h
    split at h <;> cases h
  | true => rfl

/-- No release waits before an access to memory. -/
theorem State.ordered_mem {s : State} {a : Nat} (h : s.memLike a = true) (who : Requester) : s.ordered who a = s := by
  unfold State.memLike at h
  unfold State.ordered
  split
  · rename_i g e
    rw [e] at h
    simp only [show g.isMem = true from h, Bool.not_true, Bool.and_false, Bool.false_eq_true, ↓reduceIte]
  · rfl

/-- A load from reachable memory brings the bytes there, and stalls unless they are quick. -/
theorem State.coreRead_reaches {u : State} {c ea n v a : Nat} (h : Reaches u c ea n v a .read) :
    u.coreRead c ea n = (.val (u.rd a n) (!u.quick c a), u.l1 c a) := by
  unfold State.coreRead
  rcases h.placed with p | ⟨p, hm, ho, hk⟩
  · rw [p]; simp only [State.own_quick p, State.own_l1 p, Bool.not_true]
  · rw [p]
    have hk' : u.check (u.coreWho c) a n 0 .read = .ok := hk
    simp only [State.busRead, State.ordered_mem hm, hm, State.memRead, hk', ho, ↓reduceIte]

/-- A store to reachable memory writes the bytes there. -/
theorem State.coreWrite_reaches {u : State} {c ea n v a : Nat} (h : Reaches u c ea n v a .write) :
    u.coreWrite c ea n v = (.val 0 (!u.quick c a), (u.wr a n v).l1 c a) := by
  unfold State.coreWrite
  rcases h.placed with p | ⟨p, hm, ho, hk⟩
  · rw [p]; simp only [State.own_quick p, State.own_l1 p, Bool.not_true]
  · rw [p]
    have hr : (u.range a = some .outbound) = False := eq_false ho
    simp only [State.busWrite, State.ordered_mem hm, hm, State.memWrite, hk, State.engWrite, hr, ↓reduceIte, decide_false, Bool.false_and, Bool.false_eq_true]
    rfl

/-! ## Accesses -/

/-- A permitted write is the block's write, answered ok. -/
theorem State.cmdWrite_ok {s : State} {who : Requester} {a v : Nat} (h : Permits s who a v) (k : (s.blockWrite who a v).1 = .ok) :
    s.cmdWrite who a 4 v = (s.blockWrite who a v).2.answer .ok := by
  unfold State.cmdWrite State.busWrite State.regWrite
  simp only [h.first, h.block, h.check, h.free, Bool.false_eq_true, ↓reduceIte]
  generalize s.blockWrite who a v = r at k
  obtain ⟨vd, t⟩ := r
  cases k
  rfl

/-- A write that the check does not pass changes no register but those a refusal writes. -/
theorem State.cmdWrite_refused {s : State} {who : Requester} {a v : Nat} (hb : s.memLike a = false) (ho : s.ordered who a = s)
    (h : s.check who a 4 v .write ≠ .ok) :
    s.cmdWrite who a 4 v = (s.refuse (s.check who a 4 v .write) who a true).answer .accessError := by
  unfold State.cmdWrite State.busWrite State.regWrite
  simp only [ho, hb, Bool.false_eq_true, ↓reduceIte]

/-- A permitted read of a register. -/
theorem State.cmdRead_ok {s : State} {who : Requester} {a : Nat} {g : Range} (hb : s.memLike a = false) (ho : s.ordered who a = s)
    (hg : s.range a = some g) (h : s.check who a 4 0 .read = .ok) :
    s.cmdRead who a 4 = (s.blockRead g a).2.answer (.data (s.blockRead g a).1) := by
  unfold State.cmdRead State.busRead State.regRead
  simp only [ho, hb, h, hg, Bool.false_eq_true, ↓reduceIte]

end Sys2Proof.Machine
end

