-- ==== Sys2Proof/WellFormed.lean ====
section
/-! DEFINITION. Well-formed commands: what the operand types alone do not say. A command that is not well-formed is one no
sender of the block can send; `exec` is total on every term all the same. -/

namespace Sys2Proof

/-- A requester names a domain that exists (256 of them, R2), an index its kind has (36 cores, 8 DMA channels, 64 functions,
3 ports), and an existing strand if it is a strand's access. -/
def Requester.wf (w : Requester) : Bool :=
  w.dom < 256 &&
  (match w.kind with
   | .core => w.index < 36
   | .dma => w.index < 8
   | .pcie => w.index < 64
   | .port => w.index < 3) &&
  (match w.strand with
   | none => true
   | some t => w.kind == .core && t < 1024)

/-- A frame on a wire has at most 16,384 bytes: more than the longest Finil frame and than a plant frame's 1,522 (R477). -/
def frameLenOk (f : List Byte) : Bool := f.length ≤ 16384

/-- The data words of a report: at most six (R416). -/
def reportDataOk (d : List Word) : Bool := d.length ≤ 6

/-- A mailbox value fits the PARAM datagram (R45). -/
def valueOk (v : List Byte) : Bool := v.length ≤ 2048

/-- A node drives at most four axes (R43). -/
def samplesOk (x : List AxisSample) : Bool := x.length ≤ 4

/-- Well-formed commands. -/
def Instr.wf : Instr → Bool
  | .registerWrite who _ _ _ => who.wf
  | .crossingTimerExpiry _ _ => true
  | .beacon _ => true
  | .replicaLock _ => true
  | .replicaUnlock _ => true
  | .timedActionArrival _ out _ _ value => decide (out < 2 ^ 32) && decide (value < 2 ^ 32)
  | .timedActionPerform _ out => decide (out < 2 ^ 32)
  | .debugHalt _ => true
  | .haltEnd _ => true
  | .debugPortReset => true
  | .portLinkChange _ _ _ _ => true
  | .ringPortEnable who _ => who.wf
  | .ringPortDisable who _ => who.wf
  | .listenWindowExpiry _ => true
  | .ringRun who _ => who.wf
  | .ringRediscover who _ => who.wf
  | .ringHeal who _ => who.wf
  | .ringCntclr who _ => who.wf
  | .healTimeout _ => true
  | .frameSend _ _ => true
  | .ringFrameReceive _ _ frame => frameLenOk frame
  | .returnLimitExpiry _ => true
  | .nodeMissing _ _ => true
  | .nodeRetryExpiry _ _ => true
  | .nodeAccept who _ _ => who.wf
  | .nodeFrameProcess _ _ frame => frameLenOk frame
  | .nodeReverseForward _ _ frame => frameLenOk frame
  | .nodeAddressTake _ _ => true
  | .nodeClaimTimeout _ _ => true
  | .nodeSample _ _ samples => samplesOk samples
  | .nodeApply _ _ => true
  | .nodeLostCycle _ _ => true
  | .nodeLoopback _ _ _ => true
  | .nodeHealnow _ _ => true
  | .nodeReset _ _ => true
  | .nodeSafetyWatchdog _ _ => true
  | .mailboxNop _ _ _ => true
  | .mailboxRead _ _ _ _ => true
  | .mailboxWrite _ _ _ _ value => valueOk value
  | .knotPrep _ _ _ _ _ value => valueOk value
  | .knotSeal _ _ _ _ _ => true
  | .knotCancel _ _ _ _ => true
  | .mailboxUnknownOp _ _ _ _ => true
  | .cycleBoundary => true
  | .releaseArrival => true
  | .seqGapExpiry _ => true
  | .releaseDeadline _ => true
  | .lateEvent _ => true
  | .markFire _ _ => true
  | .standardLoopActivation _ => true
  | .profileDone _ => true
  | .rampedStopEnd _ => true
  | .stepTimeout _ => true
  | .feedbackLanding _ => true
  | .feTimerExpiry _ => true
  | .fblossEvent _ => true
  | .limitInputActive _ _ => true
  | .axisCommitRequest who _ _ => who.wf
  | .axisCntclr who _ => who.wf
  | .knotOpen who _ _ => who.wf
  | .knotAdd who _ => who.wf
  | .knotClose who _ => who.wf
  | .knotSlotCancel who _ => who.wf
  | .knotRelease who _ => who.wf
  | .knotAnnounce _ => true
  | .knotDecide _ => true
  | .knotConfirmEnd _ => true
  | .ofsInWrite who _ _ => who.wf
  | .rateWrite who _ _ => who.wf
  | .holdover _ => true
  | .switchOverStart who _ => who.wf
  | .timeSnap who => who.wf
  | .epochWrite who _ _ => who.wf
  | .ptpFifoRead who _ _ => who.wf
  | .teoPush who _ _ => who.wf
  | .teoFlush who _ => who.wf
  | .teoAction _ => true
  | .teoPulseClear _ => true
  | .tciCapture _ _ => true
  | .tciHeadRead who _ => who.wf
  | .add _ _ _ _ _ => true
  | .sub _ _ _ _ _ => true
  | .and _ _ _ _ _ => true
  | .or _ _ _ _ _ => true
  | .xor _ _ _ _ _ => true
  | .shl _ _ _ _ _ => true
  | .shr _ _ _ _ _ => true
  | .sar _ _ _ _ _ => true
  | .mul _ _ _ _ _ => true
  | .mulh _ _ _ _ _ => true
  | .mulhu _ _ _ _ _ => true
  | .div _ _ _ _ _ => true
  | .divu _ _ _ _ _ => true
  | .rem _ _ _ _ _ => true
  | .remu _ _ _ _ _ => true
  | .min _ _ _ _ _ => true
  | .max _ _ _ _ _ => true
  | .minu _ _ _ _ _ => true
  | .maxu _ _ _ _ _ => true
  | .clz _ _ _ _ _ => true
  | .mov _ _ _ _ _ => true
  | .addi _ _ _ _ _ => true
  | .andi _ _ _ _ _ => true
  | .ori _ _ _ _ _ => true
  | .xori _ _ _ _ _ => true
  | .shi _ _ _ _ _ => true
  | .movi _ _ _ _ => true
  | .cmp _ _ _ _ _ _ _ => true
  | .fadd _ _ _ _ _ => true
  | .fsub _ _ _ _ _ => true
  | .fmul _ _ _ _ _ => true
  | .ffma _ _ _ _ _ => true
  | .ffms _ _ _ _ _ => true
  | .fdiv _ _ _ _ _ => true
  | .fsqrt _ _ _ _ _ => true
  | .fmin _ _ _ _ _ => true
  | .fmax _ _ _ _ _ => true
  | .fabs _ _ _ _ _ => true
  | .fneg _ _ _ _ _ => true
  | .fclamp _ _ _ _ _ => true
  | .cvtif _ _ _ _ _ => true
  | .cvtuf _ _ _ _ _ => true
  | .cvtfi _ _ _ _ _ => true
  | .cvtfu _ _ _ _ _ => true
  | .ftrunc _ _ _ _ _ => true
  | .ffloor _ _ _ _ _ => true
  | .fsin _ _ _ _ _ => true
  | .fcos _ _ _ _ _ => true
  | .smvf _ _ _ _ _ => true
  | .smvi _ _ _ _ _ => true
  | .ldb _ _ _ _ _ => true
  | .ldbu _ _ _ _ _ => true
  | .ldh _ _ _ _ _ => true
  | .ldhu _ _ _ _ _ => true
  | .ldw _ _ _ _ _ => true
  | .ldd _ _ _ _ _ => true
  | .stb _ _ _ _ _ => true
  | .sth _ _ _ _ _ => true
  | .stw _ _ _ _ _ => true
  | .std _ _ _ _ _ => true
  | .b _ _ _ => true
  | .bl _ _ _ => true
  | .br _ _ _ _ _ => true
  | .blr _ _ _ _ _ => true
  | .rep _ _ _ _ _ _ => true
  | .nop _ _ _ _ _ => true
  | .fence _ _ _ _ _ => true
  | .syscall _ _ _ _ _ => true
  | .eret _ _ _ _ _ => true
  | .brk _ _ _ _ _ => true
  | .waitop _ _ _ _ _ => true
  | .release _ _ _ _ _ => true
  | .tagrd _ _ _ _ _ => true
  | .tagwr _ _ _ _ _ => true
  | .kopen _ _ _ _ _ => true
  | .kadd _ _ _ _ _ => true
  | .kclose _ _ _ _ _ => true
  | .biq _ _ _ _ _ _ => true
  | .pi _ _ _ _ _ _ => true
  | .piu _ _ _ _ _ _ => true
  | .tint _ _ _ _ _ _ => true
  | .rlu _ _ _ _ _ _ => true
  | .bcopy _ _ _ _ _ _ => true
  | .bfill _ _ _ _ _ _ => true
  | .badd _ _ _ _ _ _ => true
  | .bsub _ _ _ _ _ _ => true
  | .bmul _ _ _ _ _ _ => true
  | .bfma _ _ _ _ _ _ => true
  | .btint _ _ _ _ _ _ => true
  | .bbiq _ _ _ _ _ _ => true
  | .vadd _ _ _ _ _ => true
  | .vsub _ _ _ _ _ => true
  | .vmul _ _ _ _ _ => true
  | .vfma _ _ _ _ _ => true
  | .vfms _ _ _ _ _ => true
  | .vmin _ _ _ _ _ => true
  | .vmax _ _ _ _ _ => true
  | .vclamp _ _ _ _ _ => true
  | .vabs _ _ _ _ _ => true
  | .vneg _ _ _ _ _ => true
  | .vdiv _ _ _ _ _ => true
  | .vld _ _ _ _ _ => true
  | .vst _ _ _ _ _ => true
  | .vsplat _ _ _ _ _ => true
  | .vins _ _ _ _ _ => true
  | .vext _ _ _ _ _ => true
  | .clpk _ _ _ _ _ => true
  | .ipkc _ _ _ _ _ => true
  | .vsmvf _ _ _ _ _ => true
  | .vsmvi _ _ _ _ _ => true
  | .vmov _ _ _ _ _ => true
  | .li _ _ _ _ _ => true
  | .addi32 _ _ _ _ _ => true
  | .andi32 _ _ _ _ _ => true
  | .ori32 _ _ _ _ _ => true
  | .xori32 _ _ _ _ _ => true
  | .ldw32 _ _ _ _ _ => true
  | .stw32 _ _ _ _ _ => true
  | .mfs _ _ _ _ => true
  | .mts _ _ _ _ => true
  | .tlbinv _ _ _ _ _ => true
  | .tlbinvd _ _ _ _ _ => true
  | .tlbinva _ _ _ _ _ => true
  | .icinv _ _ _ _ _ => true
  | .dcfl _ _ _ _ _ => true
  | .dcfla _ _ _ _ _ => true
  | .remoteAccessComplete _ => true
  | .qWriteLand _ k => decide (k < 36)
  | .accessAsync _ => true
  | .interruptEntry _ => true
  | .strandStart who _ => who.wf
  | .strandStop who _ => who.wf
  | .strandResume who _ => who.wf
  | .strandEnd who _ => who.wf
  | .strandMigrate who _ => who.wf
  | .tagValueWrite who _ _ => who.wf
  | .strandPlace _ => true
  | .prefetch _ => true
  | .prefetchDone _ => true
  | .preempt _ => true
  | .affwinExpiry _ => true
  | .drainComplete _ => true
  | .drainlate _ => true
  | .coreOffreq who _ => who.wf
  | .coreOnreq who _ => who.wf
  | .softInterrupt who _ => who.wf
  | .parkedViewSelect who _ => who.wf
  | .channelCommitRequest who _ => who.wf
  | .groupCommitRequest who _ => who.wf
  | .carrierPeriodStart _ => true
  | .syncinEdge _ => true
  | .syncLoss _ => true
  | .syncoutPulseEnd _ => true
  | .compareEdge _ => true
  | .ovrWrite who _ _ => who.wf
  | .pulseSet _ => true
  | .enRise _ => true
  | .gateSenseChange _ _ _ => true
  | .goffTimeout _ => true
  | .gonTimeout _ => true
  | .overcurrentDetect _ => true
  | .adcConversion _ _ _ => true
  | .channelEnable who _ => who.wf
  | .channelCntclr who _ => who.wf
  | .groupCntclr who _ => who.wf
  | .shotPush who _ _ => who.wf
  | .shotFlush who _ => who.wf
  | .shotAbort who _ => who.wf
  | .shotStart _ => true
  | .deferredShotStart _ => true
  | .shotPeakEnd _ => true
  | .holdPeriodStart _ => true
  | .shotEnd _ => true
  | .chargePumpFault _ => true
  | .haltDwellExpiry _ => true
  | .microstep _ => true
  | .holdCurrentTimeout _ => true
  | .chopperSample _ _ => true
  | .fastDecayEnd _ => true
  | .encoderEdge _ _ _ => true
  | .gangLanding _ => true
  | .belayPowerUp => true
  | .configVote => true
  | .belayTestDone _ => true
  | .gttimeExpiry => true
  | .belayRestart who => who.wf
  | .sealOpen _ => true
  | .configWrite who => who.wf
  | .configWriteDone _ => true
  | .guardTestPulse _ _ _ => true
  | .guardDemand _ => true
  | .resetAction _ => true
  | .zoneRequest who _ => who.wf
  | .zoneReset who _ => who.wf
  | .ss1TimerExpiry _ => true
  | .slsReading _ _ => true
  | .connectionWatchdog _ => true
  | .stoConfirmTimeout _ => true
  | .connfClear who _ _ => who.wf
  | .gbothRequest _ => true
  | .sorst who _ => who.wf
  | .safeOffTestPulse _ _ => true
  | .safeOffFeedbackFault _ => true
  | .oscCheckWindow _ _ => true
  | .configCrcCheck => true
  | .duplexEnable who => who.wf
  | .duplexDisable who => who.wf
  | .heartbeatSend => true
  | .peerMessageReceive _ _ => true
  | .partnerLost => true
  | .peerLinkLost => true
  | .peerLinkReturn => true
  | .takeover => true
  | .liveWatchdogExpiry => true
  | .liveKick who => who.wf
  | .duplexRejoin who => who.wf
  | .takebackClear who => who.wf
  | .switch who => who.wf
  | .spliceAbort => true
  | .takebackHoldoffExpiry => true
  | .mirrorRecordReceive _ => true
  | .mirrorLate => true
  | .reducedRecordResend => true
  | .logReport _ _ _ data => reportDataOk data
  | .latchAdmit => true
  | .logCommitDone _ _ => true
  | .logScanDone => true
  | .logRead who _ => who.wf
  | .logReadDone => true
  | .windowRead who _ _ => who.wf
  | .softwareReport who _ _ => who.wf
  | .logErase who _ => who.wf
  | .logEraseDone _ => true
  | .fidUnlock who _ => who.wf
  | .fidArmExpiry => true
  | .fidDisarm who => who.wf
  | .fidSlotGo who _ _ => who.wf
  | .fidSlotStop who _ => who.wf
  | .fidFire _ => true
  | .railFault _ => true
  | .domainLevelLoss _ => true
  | .vbatChangeover _ _ => true
  | .domainRequest who _ => who.wf
  | .domainSwitchDone => true
  | .islandReset who _ => who.wf
  | .islandResetDone => true
  | .oppChange who _ _ => who.wf
  | .oppChangeDone => true
  | .standbyGo who => who.wf
  | .wake _ => true
  | .nodeCollapse _ _ => true
  | .pfAssert => true
  | .shutdown who => who.wf
  | .mlsStopEnd => true
  | .mlsStoEnd => true
  | .mlsSaveEnd => true
  | .pfRelease => true
  | .saveGo who => who.wf
  | .saveWriteDone _ => true
  | .softwareReset who => who.wf
  | .powerUp => true
  | .fuseProgram who => who.wf
  | .fuseProgramDone => true
  | .mramWrite who => who.wf
  | .mramWriteDone _ => true
  | .debugOpen who => who.wf
  | .dramTrainingDone _ => true
  | .pcieDoorbell _ _ => true
  | .pcieInboundAccess _ _ ofs _ _ => decide (ofs < 2 ^ 40)
  | .msixSend who _ _ => who.wf
  | .pcieOutbound who _ _ _ _ => who.wf
  | .pcieOutboundTimeout => true
  | .pcieLinkChange _ _ _ => true
  | .dmaStart who _ => who.wf
  | .dmaStop who _ => who.wf
  | .dmaDescriptorDone _ => true
  | .plantFrameReceive frame => frameLenOk frame
  | .plantTxTail who _ _ => who.wf
  | .plantTxDone _ => true
  | .snapshotRead _ => true
  | .snapshotWrite _ _ => true
  | .mailboxAck who => who.wf
  | .snapshotSwapnow who => who.wf
  | .snapshotSwap => true
  | .pinCommitNow who => who.wf
  | .pinCommitGo who => who.wf
  | .pinSwitchRestEnd _ => true
  | .duplexFence who => who.wf
  | .guardDemandEnd _ => true
  | .nodeLinkUp _ _ _ _ => true
  | .domainSwitchTimeout => true
  | .mirrorEndSend => true
  | .sysClockLoss => true
  | .sysClockReturn => true

end Sys2Proof
end

