-- ==== Sys2Proof/Tests/Slice0.lean ====
section
/-! SUPPORT. Tests of the model's own author: a term each check of WellFormed refuses; the examples of spec/; and, for each
obligation, states and operands that meet its hypotheses, clause by clause, at the ends of their ranges. -/

set_option maxRecDepth 10000
set_option Elab.async false

namespace Sys2Proof.Tests

open Sys2Proof Sys2Proof.Machine

/-! ## States and hypotheses -/

/-- The host behind a configuration port, and strand 2 on core 0 for domain 3. -/
def host : Requester := ⟨.port, 0, 0, none⟩
def strand2 : Requester := ⟨.core, 0, 3, some 2⟩

/-- The state `c` leaves. -/
def after (c : Instr) (s : State) : State := match exec c s with | .next t => t | _ => s

/-- `s` with the commands `l` behind the one that runs. -/
def incoming (l : List Instr) (s : State) : State := { s with pending := l }

/-- After reset with every power domain on. -/
def up : State := State.reset.set R.PMU_PD_STAT_PD 0xFFFFFF

/-- Core `c` online, strand `t` placed on it, with register state `x`. -/
def placed (c t : Nat) (x : Ctx) (s : State) : State :=
  ((((s.set (R.DSP_CORE_ONLINE c) 1).set (R.DSP_CORE_RUN_V c) 1).set (R.DSP_CORE_RUN c) t).set (R.ST_STAT_STATE t) 3).setCore c
    { s.core c with ctx := x, strand := t }

/-- Contexts of a control core (its local memory from 0xF0000000) and of a supervisor core in kernel mode. -/
def ctrlCtx : Ctx :=
  { pc := 0xF0000100, g := [(1, 5), (2, 0xF0000200), (3, 0x80000000), (4, 0x7FC00001), (5, 0xFFFFFFFF), (6, 1), (31, 0xF0008000)],
    swlo := 0xF0004000, swhi := 0xF0009000, p := 15 }
def supCtx : Ctx :=
  { pc := 0x1000, g := [(1, 5), (2, 0x2000), (3, 0x80000000), (4, 0x7FC00001), (5, 0xFFFFFFFF), (6, 1), (31, 0x8000)],
    swlo := 0x4000, swhi := 0x9000, ssw := 0xC0000000 }
def ctrl : State := placed 0 3 ctrlCtx up
def sup : State := placed 35 4 supCtx up

/-- `Runs` as a test; the state the fetch leaves. -/
def issued (s : State) (c : Nat) (i : Insn) : State :=
  let u := (s.fetchAll c i).2
  u.setCore c { u.core c with issued := (u.core c).issued + 1 }
def runs (s : State) (c : Nat) (G : BitVec 4) (i : Insn) : Bool :=
  let f := s.fetchAll c i
  let u := issued s c i
  s.canIssue c i && f.1.isNone && !i.bad && !f.2.misplaced c i && (f.2.core c).ctx.guarded G && (u.core c).suspReq == 0 &&
    !u.on (R.DSP_CORE_OFFREQ c) && u.canonical

theorem runs_of {s : State} {c : Nat} {G : BitVec 4} {i : Insn} (h : runs s c G i = true) : Runs s c G i (issued s c i) := by
  simp only [runs, Bool.and_eq_true, Bool.not_eq_true', Option.isNone_iff_eq_none, beq_iff_eq] at h
  exact ⟨h.1.1.1.1.1.1.1, h.1.1.1.1.1.1.2, h.1.1.1.1.1.2, h.1.1.1.1.2, h.1.1.1.2, rfl, ⟨h.1.1.2, h.1.2⟩, h.2⟩

/-- `Permits` and `PermitsF` as tests. -/
def may (s : State) (who : Requester) (a v : Nat) : Bool :=
  !s.memLike a && s.check who a 4 v .write == .ok && !(s.kLocked a && regMask Acc.isRWS a != 0) && decide (s.ordered who a = s)
def mayF (s : State) (who : Requester) (x : Fld) (v : Nat) : Bool :=
  may s who x.addr (putBits (s.reg x.addr &&& regMask Acc.isStored x.addr) x.hi x.lo v)

theorem may_of {s : State} {who : Requester} {a v : Nat} (h : may s who a v = true) : Permits s who a v := by
  simp only [may, Bool.and_eq_true, Bool.not_eq_true', beq_iff_eq, decide_eq_true_eq] at h
  exact ⟨h.1.1.1, h.1.1.2, by simpa using h.1.2, h.2⟩

theorem mayF_of {s : State} {who : Requester} {x : Fld} {v : Nat} (h : mayF s who x v = true) : PermitsF s who x v := may_of h

def mayR (s : State) (who : Requester) (a : Nat) : Bool :=
  !s.memLike a && s.check who a 4 0 .read == .ok && decide (s.ordered who a = s)
theorem mayR_of {s : State} {who : Requester} {a : Nat} (h : mayR s who a = true) : PermitsRead s who a := by
  simp only [mayR, Bool.and_eq_true, Bool.not_eq_true', beq_iff_eq, decide_eq_true_eq] at h
  exact ⟨h.1.1, h.1.2, h.2⟩

/-! ## Instructions -/

/-- A word of one, of two words; a branch, REP, ERET. -/
def w1 : Insn := { word := 0 }
def w2 : Insn := { word := 0, len := 2 }
def wb : Insn := { word := 0, noSlot := true, branch := true }
def wr : Insn := { word := 0, noSlot := true }
def we : Insn := { word := 0, noSlot := true, noBody := true }

/-- The register state of core `c` after `i`. -/
def ctx (s : State) (c : Nat) (i : Instr) : Ctx := ((after i s).core c).ctx
/-- The state in which core `c`'s fetch of a word leaves `s`, with register state `f` of its own. -/
def withCtx (s : State) (c : Nat) (f : Ctx → Ctx) : State := s.setCore c { s.core c with ctx := f (s.core c).ctx }

/-- Core 0 and core 35 run every shape of instruction, unguarded and guarded by a true predicate. -/
theorem witness_Runs : (∀ i ∈ [w1, w2, wb, wr, we], Runs ctrl 0 0 i (issued ctrl 0 i) ∧ Runs ctrl 0 1 i (issued ctrl 0 i) ∧
    Runs sup 35 0 i (issued sup 35 i)) := by
  have h : ∀ i ∈ [w1, w2, wb, wr, we], runs ctrl 0 0 i = true ∧ runs ctrl 0 1 i = true ∧ runs sup 35 0 i = true := by decide
  exact fun i hi => ⟨runs_of (h i hi).1, runs_of (h i hi).2.1, runs_of (h i hi).2.2⟩

/-- ScalarIntegerResults, FloatResults, ImmediateResults: nothing but `Runs`; the four shift kinds of SHI at 5 and at 31. -/
theorem witness_ImmediateResults : ∀ n ∈ [5, 31], ∀ k < 4, (1024 * k + n) / 2 ^ 5 % 2 ^ 5 = 0 ∧ (1024 * k + n) / 2 ^ 10 = k := by decide
/-- DivisionResults: b ≠ 0, b = 0, and the overflow's operands. -/
theorem witness_DivisionResults : let x := ((issued ctrl 0 w1).core 0).ctx
    x.reg 1 ≠ 0 ∧ x.reg 0 = 0 ∧ x.reg 3 = 0x80000000 ∧ x.reg 5 = 0xFFFFFFFF := by decide
/-- CompareWritesPredicates: the last listed conditions (signed, unsigned, float), and the two kinds of reserved one. -/
theorem witness_CompareWritesPredicates :
    (∀ cc ∈ [(5 : BitVec 6), 0x15, 0x25], cc.toNat % 16 < 6 ∧ ¬(cc.getLsbD 5 = true ∧ cc.getLsbD 4 = true)) ∧
    6 ≤ (6 : BitVec 6).toNat % 16 ∧ ((0x30 : BitVec 6).getLsbD 5 = true ∧ (0x30 : BitVec 6).getLsbD 4 = true) ∧
    sup.canIssue 35 w1 = true ∧ (sup.fetchAll 35 w1).1 = none := by decide
theorem witness_FloatNaNRules : F32.isNaN 0x7FC00001 = true ∧ F32.ofWord 0x7F800000 = .inf false ∧ F32.ofWord 0xFF800000 = .inf true ∧
    F32.ofWord 0x80000000 = .zero true ∧ F32.isNaN 0x3F800000 = false ∧ F32.ofWord 0xBF800000 = .fin true (2 ^ 23) (-23) := by decide

/-- SCL0 of signed bytes about 3, SCL3 of the reserved width; F holds 2^-1. -/
def scaled : State := withCtx ctrl 0 fun x => { x with scl := [(1, 0x40003), (7, 0x30000)] }
theorem witness_ScaledMoveResults : let x := ((issued scaled 0 w1).core 0).ctx
    runs scaled 0 0 w1 = true ∧ x.sclC 0 / 2 ^ 16 % 4 ≠ 3 ∧ (x.sclC 0).testBit 18 = true ∧ x.sclC 3 / 2 ^ 16 % 4 = 3 ∧
    F32.isNaN ((F32.mul (x.reg 4) (x.sclF 0)).run 0).1 = true ∧ F32.isFinite ((F32.mul (x.reg 1) (x.sclF 0)).run 0).1 = true := by decide

/-- An access at `ea` of core 0 that its own local memory answers at `a`. -/
def own (s : State) (ea n a : Nat) (r : Right) : Bool := ea % n == 0 && decide (s.place 0 ea (s.core 0).ctx.kern r = (.own a, s))
theorem own_of {s : State} {ea n v a : Nat} {r : Right} (h : own s ea n a r = true) : Reaches s 0 ea n v a r := by
  simp only [own, Bool.and_eq_true, beq_iff_eq, decide_eq_true_eq] at h
  exact ⟨h.1, .inl h.2⟩
/-- The last doubleword of core 0's local memory; core 35 with its translation off reaches shared SRAM at the address itself. -/
theorem witness_LoadResults : let u := issued ctrl 0 w1
    (∀ n ∈ [1, 2, 4, 8], ∀ r ∈ [Right.read, .write], Reaches u 0 0xF003FFF8 n 0 0x0203FFF8 r) ∧ 0xF0000201 % 2 ≠ 0 ∧
    (let v := issued sup 35 w1
     v.place 35 0x2000 true .read = (.phys 0x2000, v) ∧ v.memLike 0x2000 = true ∧ v.check (v.coreWho 35) 0x2000 4 0 .read = .ok) := by
  refine ⟨?_, by decide, by decide⟩
  have h : ∀ n ∈ [1, 2, 4, 8], ∀ r ∈ [Right.read, .write], own (issued ctrl 0 w1) 0xF003FFF8 n 0x0203FFF8 r = true := by decide
  exact fun n hn r hr => own_of (h n hn r hr)
theorem witness_StoreEffects : ∀ n ∈ [1, 2, 4, 8], Reaches (issued ctrl 0 w2) 0 0xF0000200 n 5 0x02000200 .write := by
  have h : ∀ n ∈ [1, 2, 4, 8], own (issued ctrl 0 w2) 0xF0000200 n 0x02000200 .write = true := by decide
  exact fun n hn => own_of (h n hn)

/-- One loop level in use up to word 0x120, both in use, and loops suspended. -/
def loop0 : State := withCtx ctrl 0 fun x => { x with lc0 := 2, lsa0 := 0xF0000100, lea0 := 0xF0000120 }
def loop1 : State := withCtx loop0 0 fun x => { x with lc1 := 1, lea1 := 0xF0000104 }
theorem witness_BranchesAndRepeats : let x := ((issued ctrl 0 wr).core 0).ctx
    let y := ((issued loop0 0 wr).core 0).ctx
    let z := ((issued loop1 0 wr).core 0).ctx
    (x.reg 2).toNat % 4 = 0 ∧ (x.reg 1).toNat % 4 ≠ 0 ∧ x.lsusp = false ∧ x.lc0 = 0 ∧ (x.reg 0).toNat = 0 ∧ 65536 ≤ (x.reg 3).toNat ∧
    runs loop0 0 0 wr = true ∧ y.lc0 ≠ 0 ∧ y.lc1 = 0 ∧ y.pc + 4 * (7 + 1) = y.lea0 ∧ runs loop1 0 0 wr = true ∧ z.lc0 ≠ 0 ∧ z.lc1 ≠ 0 := by
  decide

/-- A release of strand 3 on its way; core 35 without K. -/
def posted3 : State := { ctrl with dsp := { ctrl.dsp with posted := [⟨3, 0, 0, 0x20000, [0, 0, 0, 0], 0⟩] } }
def userCore : State := withCtx sup 35 fun x => { x with ssw := 0x40000000 }
theorem witness_NopFenceAndMaintenance :
    (issued ctrl 0 w1).fenced 0 = true ∧ runs posted3 0 0 w1 = true ∧ (issued posted3 0 w1).fenced 0 = false ∧
    (((issued sup 35 w1).core 35).ctx.ssw).getLsbD 31 = true ∧ runs userCore 35 0 w1 = true ∧
    (((issued userCore 35 w1).core 35).ctx.ssw).getLsbD 31 = false := by decide
/-- SpecialRegisterMoves: the last SCL register, one number past it, and MMUCTL with and without K (R244). -/
theorem test_mfs_legal : (ctx ctrl 0 (.mfs 0 0 7 0x017)).pc = 0xF0000104 ∧ (ctx sup 35 (.mfs 35 0 7 0x062)).pc = 0x1004 := by decide
theorem test_mfs_illegal : (ctx ctrl 0 (.mfs 0 0 7 0x018)).pc = 64 * vIllegal ∧ (ctx userCore 35 (.mfs 35 0 7 0x062)).pc = 64 * vIllegal := by
  decide

/-- The 32 bytes of stack below 0xF0008000 of core 0. -/
def stack (s : State) (lo a : Nat) (kern : Bool) (r : Right) : Bool :=
  s.stackFail 0 (lo : Int) kern r == 0 && (List.range 8).all (fun i => decide (s.place 0 (lo + 4 * i) kern r = (.own (a + 4 * i), s)))
theorem stack_of {s : State} {lo a : Nat} {kern : Bool} {r : Right} (h : stack s lo a kern r = true) : StackAt s 0 lo a kern r := by
  simp only [stack, Bool.and_eq_true, beq_iff_eq, List.all_eq_true, List.mem_range, decide_eq_true_eq] at h
  exact ⟨h.1, fun i hi => .inl (h.2 i hi), fun hc => absurd hc (by decide)⟩
def noGovernor (s : State) : State := { s with regs := (List.range 64).map (fun c => ((R.PC_HALT_CORE c).addr, (0 : Word))) ++ s.regs }
def debugged : State := let s := noGovernor (placed 1 3 ctrlCtx up); { s with dsp := { s.dsp with debugger := true } }
theorem witness_SyscallAndBreakEnter : let k := (issued ctrl 0 w1).core 0
    k.detached = false ∧ k.stall = none ∧ k.pendq = [] ∧ 32 ≤ (k.ctx.reg 31).toNat ∧
    StackAt (issued ctrl 0 w1) 0 0xF0007FE0 0x02007FE0 false .write ∧ (issued ctrl 0 w1).dsp.debugger = false ∧
    runs debugged 1 0 w1 = true ∧ (issued debugged 1 w1).dsp.debugger = true ∧ ∀ ch < 64, (issued debugged 1 w1).governs 1 ch = false := by
  refine ⟨by decide, by decide, by decide, by decide, stack_of (by decide), by decide, by decide, by decide, by decide⟩
/-- Interrupts 0 and 4 with IE, and an asynchronous error. -/
def irqs (m : Nat) : State := (withCtx ctrl 0 fun x => { x with ssw := 0x60000000 }).set (R.ST_IPEND 3) m
def asyncErr : State := withCtx ctrl 0 fun x => { x with async := some (77, true) }
theorem witness_EventsEnterTheirVectors : (∀ m ∈ [1, 16], (irqs m).canonical = true ∧ (irqs m).executes 0 = true ∧
      ((irqs m).core 0).ctx.ssw.getLsbD 30 = true ∧ ((irqs m).f (R.ST_IPEND 3)).testBit 4 = (m == 16) ∧
      ((irqs m).f (R.ST_IPEND 3)).testBit 0 = (m == 1)) ∧
    asyncErr.executes 0 = true ∧ (asyncErr.strand 3).errs = [] ∧ asyncErr.coreBusy 0 = true := by decide
theorem test_syscall_enters_vector_9 : (ctx ctrl 0 (.syscall 0 0 0 1 0)).pc = 0x40 * 9 ∧
    (ctx ctrl 0 (.syscall 0 0 0 1 0)).reg 31 = 0xF0007FE0 := by decide
/-- A frame with no slot left and TK set (R280), one with two slots, on core 0. -/
def frame (v2 : Nat) : State := ((ctrl.wr 0x02008000 4 0xF0000500).wr 0x02008004 4 0xF0000600).wr 0x02008008 4 v2
theorem witness_EretRestoresTheFrame : (∀ v ∈ [0x400, 0x200, 0x600], runs (frame v) 0 0 we = true ∧
      stack (issued (frame v) 0 we) 0xF0008000 0x02008000 false .read = true) ∧
    (((issued userCore 35 we).core 35).ctx.ssw).getLsbD 31 = false := by decide
theorem test_eret : (ctx (frame 0x400) 0 (.eret 0 0 0 0 0)).pc = 0xF0000600 ∧ (ctx (frame 0x600) 0 (.eret 0 0 0 0 0)).pc = 0xF0000500 ∧
    (ctx (frame 0x600) 0 (.eret 0 0 0 0 0)).bta = 0xF0000600 := by decide
def halted : State := after (.debugHalt 0) ctrl
theorem witness_DebugHaltAndResume : (ctrl.core 0).dbgHalt = false ∧ ctrl.on (R.DSP_CORE_PF_V 0) = false ∧
    (List.range 64).all (fun ch => ctrl.f (R.PC_HALT_DWELL ch) != 0) = true ∧ halted.canonical = true ∧ (halted.core 0).dbgHalt = true ∧
    (halted.core 0).suspReq = 0 := by decide +kernel

/-! ## Tags, vectors, the DSP group, blocks -/

/-- Tag 5 owned by strand 3, with FULL and WAIT as given; strand 3 waits for `w` empty tags. -/
def tagged (s : State) (full wait : Nat) : State :=
  (((s.set (R.TAG_CTL_OWNED 5) 1).set (R.TAG_CTL_OWNER 5) 3).set (R.TAG_CTL_FULL 5) full).set (R.TAG_CTL_WAIT 5) wait
def tagCore (full wait : Nat) : State := tagged ctrl full wait
theorem witness_TagFillReadAndWrite : Permits up host (R.TAG_VALUE_W 0) 7 ∧ Permits up host (R.TAG_VALUE_W 16383) 0xFFFFFFFF ∧
    Permits (issued ctrl 0 w1) ((issued ctrl 0 w1).coreWho 0) (R.TAG_VALUE_W 5) 9 :=
  ⟨may_of (by decide), may_of (by decide), may_of (by decide)⟩
theorem witness_TagFillReadAndWrite_reads : runs (tagCore 1 1) 0 0 w1 = true ∧ (issued (tagCore 1 1) 0 w1).dspReach 0 = .ok ∧
    (issued (tagCore 1 1) 0 w1).dspOrder 0 = issued (tagCore 1 1) 0 w1 ∧ (issued (tagCore 1 1) 0 w1).on (R.TAG_CTL_WAIT 5) = true ∧
    runs (tagCore 1 0) 0 0 w1 = true ∧ (issued (tagCore 1 0) 0 w1).on (R.TAG_CTL_FULL 5) = true ∧
    runs (tagCore 0 0) 0 0 w1 = true ∧ (issued (tagCore 0 0) 0 w1).on (R.TAG_CTL_FULL 5) = false := by decide
/-- The three ways a source fills an empty tag, and a full one (`Filled`): 5 is full; in no wait set; one of two; the last one. -/
def waiting (n : Nat) : State := ((tagged up 0 1).set (R.ST_STAT_STATE 3) 1).set (R.ST_WAIT_WEMPTY 3) n
theorem test_tag_fill : (after (.tagValueWrite host 5 7) (tagged up 1 0)).on (R.TAG_CTL_OVR 5) = true ∧
    (after (.tagValueWrite host 5 7) up).f (R.TAG_VALUE 5) = 7 ∧ (after (.tagValueWrite host 5 7) (waiting 2)).f (R.ST_WAIT_WEMPTY 3) = 1 ∧
    (after (.tagValueWrite host 5 7) (waiting 2)).f (R.ST_STAT_STATE 3) = 1 ∧
    (after (.tagValueWrite host 5 7) (waiting 1)).f (R.ST_STAT_STATE 3) = 2 := by decide

/-- A wait set with no empty tag, and one with an empty tag; a release of 32 bytes, of 256, and ones of no legal length. -/
def waitSet (empty : Nat) : State := (ctrl.set (R.ST_WAIT_WTAGS 3) 2).set (R.ST_WAIT_WEMPTY 3) empty
def payloadOf (len : Nat) : State := ctrl.wr 0x02000200 4 (len * 2 ^ 16)
theorem witness_WaitopEndsTheActivation : runs (waitSet 0) 0 0 we = true ∧ (issued (waitSet 0) 0 we).f (R.ST_WAIT_WTAGS 3) ≠ 0 ∧
    (issued (waitSet 0) 0 we).f (R.ST_WAIT_WEMPTY 3) = 0 ∧ runs (waitSet 2) 0 0 we = true ∧
    (issued (waitSet 2) 0 we).f (R.ST_WAIT_WEMPTY 3) ≠ 0 ∧ runs halted 0 0 we = false ∧
    runs (payloadOf 256) 0 0 w1 = true ∧ (issued (payloadOf 256) 0 w1).rd 0x02000200 4 / 2 ^ 16 % 2 ^ 12 = 16 * 16 ∧
    (issued (payloadOf 32) 0 w1).rd 0x02000200 4 / 2 ^ 16 % 2 ^ 12 = 16 * 2 ∧
    (let len := (issued (payloadOf 272) 0 w1).rd 0x02000200 4 / 2 ^ 16 % 2 ^ 12; 256 < len) ∧ 5 % 4 ≠ 0 := by decide
theorem test_waitop : (after (.waitop 0 0 0 0 0) (waitSet 0)).f (R.ST_STAT_STATE 3) = 2 ∧
    (after (.waitop 0 0 0 0 0) (waitSet 2)).f (R.ST_STAT_STATE 3) = 1 ∧ (after (.waitop 0 0 0 0 0) (waitSet 2)).f (R.DSP_CORE_RUN_V 0) = 0 := by
  decide

def wv : Insn := { word := 0, v := true }
def wvg : Insn := { word := 0, v := true, guse := [2] }
theorem witness_Vectors : Runs ctrl 0 0 wv (issued ctrl 0 wv) ∧ Runs scaled 0 0 wv (issued scaled 0 wv) ∧ Runs ctrl 0 0 wvg (issued ctrl 0 wvg) ∧
    Reaches (issued ctrl 0 wvg) 0 0xF0000200 16 0 0x02000200 .read ∧ (issued ctrl 0 wvg).quick 0 0x02000200 = true ∧
    0xF0000205 % 16 ≠ 0 :=
  ⟨runs_of (by decide), runs_of (by decide), runs_of (by decide), own_of (by decide), by decide, by decide⟩

/-- Words of core 0's own local memory. -/
def words (s : State) (ea a n : Nat) : Bool :=
  (List.range n).all (fun i => own s ((ea + 4 * i) % 2 ^ 32) 4 (a + 4 * i) .read && own s ((ea + 4 * i) % 2 ^ 32) 4 (a + 4 * i) .write &&
    s.quick 0 (a + 4 * i))
theorem words_of {s : State} {ea a n : Nat} (h : words s ea a n = true) : Words s 0 ea a n true := by
  simp only [words, List.all_eq_true, List.mem_range, Bool.and_eq_true] at h
  exact ⟨fun i hi => own_of (h i hi).1.1, fun i hi v => own_of (h i hi).1.2, fun _ i hi => (h i hi).2⟩
theorem witness_DspGroupResults : Words (issued ctrl 0 w1) 0 0xF0000200 0x02000200 8 true ∧
    Words (issued ctrl 0 w1) 0 0xF0000200 0x02000200 (min 5 4095 + 1) true ∧ F32.isNaN (((issued ctrl 0 w1).core 0).ctx.reg 3) = false ∧
    F32.isNaN (((issued ctrl 0 w1).core 0).ctx.reg 4) = true :=
  ⟨words_of (by decide), words_of (by decide), by decide, by decide⟩
/-- A table of eight bins at 0xF0000400, frozen or not, and a descriptor at 0xF0000200 that names bin `i`. -/
def learning (i frozen : Nat) : State :=
  (((withCtx ctrl 0 fun x => { x with g := [(1, 0xF0000400), (2, 0xF0000200), (31, 0xF0008000)] }).wr 0x02000404 2 8).wr 0x02000406 1 frozen).wr
    0x02000200 4 i
theorem witness_LearnBinCommit (i : Nat) (h : i ∈ [0, 7, 8]) : Words (issued (learning i 0) 0 w1) 0 0xF0000200 0x02000200 5 true ∧
    Words (issued (learning i 0) 0 w1) 0 0xF0000400 0x02000400 4 true ∧ (issued (learning i 0) 0 w1).rd 0x02000200 4 = i ∧
    (issued (learning i 0) 0 w1).range 0x02000400 = some .local ∧ ((issued (learning i 1) 0 w1).byte 0x02000406).getLsbD 0 = true := by
  have all : ∀ i ∈ [0, 7, 8], words (issued (learning i 0) 0 w1) 0xF0000200 0x02000200 5 = true ∧
    words (issued (learning i 0) 0 w1) 0xF0000400 0x02000400 4 = true ∧ (issued (learning i 0) 0 w1).rd 0x02000200 4 = i ∧
    (issued (learning i 0) 0 w1).range 0x02000400 = some .local ∧ ((issued (learning i 1) 0 w1).byte 0x02000406).getLsbD 0 = true := by decide
  exact ⟨words_of (all i h).1, words_of (all i h).2.1, (all i h).2.2⟩
/-- No element, one more than 4,096, and three of which one is done. -/
def blockCore (n prog : Nat) : State :=
  withCtx ctrl 0 fun x => { x with g := [(1, 0xF0000200), (2, 0xF0000300), (3, 0xF0000400), (4, BitVec.ofNat 32 n)], prog := prog }
theorem witness_BlockInstructionResults : runs (blockCore 0 0) 0 0 wr = true ∧ 4096 < (((issued (blockCore 4097 0) 0 wr).core 0).ctx.reg 4).toNat ∧
    runs (blockCore 3 1) 0 0 wr = true ∧ ((issued (blockCore 3 1) 0 wr).core 0).ctx.prog < 3 ∧
    words (issued (blockCore 3 1) 0 wr) 0xF0000400 0x02000400 3 = true ∧ words (issued (blockCore 3 1) 0 wr) 0xF0000200 0x02000200 3 = true ∧
    words (issued (blockCore 3 1) 0 wr) 0xF0000300 0x02000300 8 = true := by decide

/-! ## Strands and cores -/

/-- Strand 1 with a good configuration, and a strand that is READY with priority `p`. -/
def configured (t : Nat) (s : State) : State :=
  ((((s.set (R.ST_CMASK t) 1).set (R.ST_ENTRY t) (0xF0000100 / 4)).set (R.ST_SAVE t) 32).set (R.ST_SWLO t) 5).set (R.ST_SWHI t) 9
def ready (t p : Nat) (s : State) : State :=
  (((configured t s).set (R.ST_STAT_STATE t) 2).set (R.ST_ATTR_PRIO t) p).set (R.ST_STAT_LASTCORE t) 63
def core0 : State := up.set (R.DSP_CORE_ONLINE 0) 1
def running : State := (placed 0 3 ctrlCtx (configured 3 up)).set (R.ST_ATTR_PRIO 3) 9
def inState (t st : Nat) (s : State) : State := s.set (R.ST_STAT_STATE t) st
theorem witness_StrandStartAndResume : (∀ v ∈ [1, 2, 3, 4, 5], Permits up host (R.ST_CMD_W 1) v) ∧
    (let s := configured 1 up
     (s.f (R.ST_CMASK 1) ≠ 0 ↔ s.f (R.ST_SMASK 1) = 0) ∧ s.memRight 0 (2048 * s.f (R.ST_SAVE 1)) 2048 .read = true ∧
       s.memRight 0 (2048 * s.f (R.ST_SAVE 1)) 2048 .write = true ∧ s.f (R.ST_SWLO 1) < s.f (R.ST_SWHI 1)) := by
  have h : ∀ v ∈ [1, 2, 3, 4, 5], may up host (R.ST_CMD_W 1) v = true := by decide
  exact ⟨fun v hv => may_of (h v hv), by decide⟩
theorem test_strand_start : (after (.strandStart host 1) (configured 1 up)).f (R.ST_STAT_STATE 1) = 2 ∧
    (after (.strandStart host 1) up).on (R.ST_STAT_CFGERR 1) = true ∧ (after (.strandStart host 1) (inState 1 4 up)).on (R.ST_STAT_CMDERR 1) = true ∧
    (after (.strandResume host 1) (inState 1 4 up)).f (R.ST_STAT_STATE 1) = 2 := by decide
theorem witness_StrandStopEndAndMigrate : running.coreOf 3 = some 0 ∧ running.f (R.ST_STAT_STATE 3) = 3 ∧ (running.core 0).heldOff = false ∧
    halted.coreOf 3 = some 0 ∧ halted.f (R.DSP_CORE_HALTED 0) = 1 ∧ (halted.core 0).strand = 3 ∧ (inState 1 4 up).coreOf 1 = none := by decide +kernel
theorem test_strand_stop : (after (.strandStop host 3) running).f (R.ST_STAT_STATE 3) = 0 ∧
    (after (.strandEnd host 1) (inState 1 4 up)).f (R.ST_STAT_STATE 1) = 0 := by decide
/-- Two ready strands before an idle core; one of them in its prefetch slot; one that outranks the strand that runs. -/
def two : State := ready 1 5 (ready 2 7 core0)
def fetched (t : Nat) (s : State) : State := ((s.set (R.DSP_CORE_PF_V 0) 1).set (R.DSP_CORE_PF 0) t).set (R.ST_STAT_PREFETCHED t) 1
def urgent : State := ready 1 2 running
theorem witness_PlacementAndPrefetch : two.on (R.DSP_CORE_ONLINE 0) = true ∧ two.coreBusy 0 = false ∧ two.stOf 1 = 2 ∧ two.mayGo 1 0 = true ∧
    two.f (R.ST_ATTR_PRIO 1) < two.f (R.ST_ATTR_PRIO 2) ∧ two.f (R.DSP_CORE_PF_V 0) = 0 ∧ (fetched 1 two).f (R.DSP_CORE_PF_V 0) = 1 ∧
    (fetched 1 two).f (R.ST_ATTR_PRIO 1) ≤ (fetched 1 two).f (R.ST_ATTR_PRIO 1) ∧ (fetched 1 two).on (R.ST_STAT_PREFETCHED 1) = true := by decide
theorem test_place_takes_the_lower_priority_number : (after (.strandPlace 0) two).f (R.DSP_CORE_RUN 0) = 1 ∧
    (after (.strandPlace 0) (fetched 1 two)).f (R.DSP_CORE_RUN 0) = 1 := by decide +kernel
theorem test_prefetch : (after (.prefetch 0) urgent).f (R.DSP_CORE_PF 0) = 1 ∧
    (after (.affwinExpiry 1) two).strand 1 = { two.strand 1 with affSeen := some (two.f (R.ST_ATTR_AFFWIN 1)) } := by decide +kernel

/-- The strand that runs stalls; two q writes wait; a strand drains. -/
def stalled (s : State) : State :=
  s.setCore 0 { s.core 0 with stall := some { gw := [(1, 7)], pairAt := none, far := some (33, 0x20000), back := {} } }
def pendingQ : State := running.setCore 0 { running.core 0 with pendq := [⟨3, 5, 9⟩, ⟨4, 6, 2⟩] }
def drains : State := core0.set (R.ST_STAT_DRAINING 1) 1
theorem witness_PreemptionAndDraining : (urgent.core 0).suspReq = 0 ∧ urgent.preemptFor 0 ≠ none ∧ (urgent.core 0).heldOff = false ∧
    ((stalled urgent).core 0).heldOff = true ∧ running.preemptFor 0 = none ∧ ((stalled running).core 0).stall ≠ none ∧
    (pendingQ.core 0).pendq[1]? = some ⟨4, 6, 2⟩ ∧ (pendingQ.core 0).pendq.length ≤ 2 ∧ drains.f (R.ST_STAT_DRAINING 1) = 1 := by decide +kernel
theorem test_preempt : (after (.preempt 0) urgent).f (R.ST_STAT_STATE 3) = 2 ∧
    ((after (.preempt 0) (stalled urgent)).core 0).suspReq = 1 ∧ ((after (.remoteAccessComplete 0) (stalled running)).core 0).ctx.reg 1 = 7 := by
  decide +kernel
/-- A supervisor strand of domain 0. -/
def supQ : Requester := ⟨.core, 33, 0, some 7⟩
/-- Core 35 reset and halted by the debugger; core 0 online with no strand. -/
def wasReset : State := (up.set (R.DSP_CORE_ONLINE 35) 0).setCore 35 { up.core 35 with resetDone := true, dbgHalt := true }
theorem witness_CoreRequestsAndInterrupts : Permits core0 host (R.DSP_CORE 0) (2 ^ 29) ∧ Permits wasReset host (R.DSP_CORE 35) (2 ^ 28) ∧
    Permits running supQ R.DSP_SOFT_W (3 * 2 ^ 16) ∧ Permits up supQ R.DSP_SOFT_W (1023 * 2 ^ 16) ∧ Permits up host R.DSP_PV_SEL 1023 ∧
    wasReset.islOn (min 35 32) = true ∧ wasReset.f (R.DSP_CORE_ONLINE 35) = 0 ∧ core0.f (R.DSP_CORE_RUN_V 0) = 0 :=
  ⟨may_of (by decide), may_of (by decide), may_of (by decide), may_of (by decide), may_of (by decide), by decide, by decide, by decide⟩
theorem test_core_requests : (after (.coreOffreq host 0) core0).on (R.DSP_CORE_ONLINE 0) = false ∧
    (after (.coreOnreq host 35) wasReset).on (R.DSP_CORE_ONLINE 35) = true ∧ (after (.coreOnreq host 35) wasReset).on (R.DSP_CORE_HALTED 35) = true ∧
    (after (.coreOnreq host 0) core0).on (R.DSP_CORE_ONERR 0) = true ∧ (after (.softInterrupt supQ 3) running).f (R.ST_IPEND 3) = 8 := by
  decide +kernel

/-! ## Releases -/

/-- Little-endian words. -/
def bytesOf (ws : List Nat) : List Byte := ws.flatMap (fun w => leBytes 4 w)
/-- An AXIS record of axis `n` for target `tgt` with ENABLE, and a SEQ record of flow `f` with SEQ `q`. -/
def axRec (n tgt : Nat) : List Byte := bytesOf [0x10300000 + n, tgt, 0x11223344, 0x55, 0x3F800000, 0x10001, 7, 9, 11, 0, 0, 0]
def seqRec (f q : Nat) : List Byte := bytesOf [0x20200000 + q, f, 1, 2, 3, 4, 5, 6]
def post (epoch addr : Nat) (bs : List Byte) (s : State) : State := { s with dsp := { s.dsp with posted := [⟨3, epoch, 0, addr, bs, 2⟩] } }
/-- Flow 5 for axis 5 and strand 3. -/
def flow (kind : Nat) : State :=
  (((up.set (R.FLOW_CTRL_EN 5) 1).set (R.FLOW_CTRL_KIND 5) kind).set (R.AX_STRAND_FLOW 5) 5).set (R.AX_STRAND_STRAND 5) 3
def late (s : State) : State := s.setDom 0 { s.dom 0 with phase := 40000 * phaseNs }
theorem witness_AxisReleaseArrival : (flow 1).canonical = true ∧ (flow 1).inTime 5 1 ((flow 1).axNow 5) = true ∧
    (late (flow 1)).inTime 5 1 ((late (flow 1)).axNow 5) = false ∧
    1 = ((flow 1).f (R.TAG_VALUE ((flow 1).f (R.AX_FB_TAG_TAG 5))) + 2 ^ (flow 1).fa (R.AX_CTRL_RATE 5)) % 2 ^ 32 ∧
    ((flow 1).heldOf 5).length < 256 ∧ (axRec 5 1).length = 48 ∧ leAt (axRec 5 1) 0 4 = 0x10300005 := by decide
theorem test_axis_release : (after .releaseArrival (post 0 0x100 (axRec 5 1) (flow 1))).f (R.FLOW_ACCEPT 5) = 1 ∧
    (after .releaseArrival (post 1 0x100 (axRec 5 1) (flow 1))).f (R.FLOW_STALE 5) = 1 ∧
    (after .releaseArrival (post 0 0x104 (axRec 5 1) (flow 1))).f (R.FLOW_REFUSED 5) = 1 ∧
    (after .releaseArrival (post 0 0x100 (axRec 5 1) (late (flow 1)))).f (R.FLOW_LATE 5) = 1 := by decide +kernel
/-- Flow 5 as a sequence of four entries of 16 bytes at 0x20000; one held for SEQ 7; SEQ 0xFFFF is behind 0. -/
def seqFlow : State := ((((flow 2).set (R.FLOW_ELEN_ELEN 5) 16).set (R.FLOW_ELEN_NENT 5) 4).set (R.FLOW_DEST_LO 5) 0x20000).set (R.FLOW_WRIDX 5) 3
def gap (q : Nat) : State := { seqFlow with dsp := { seqFlow.dsp with held := [⟨5, noAxis, q, 0, 0, 0, [], [], bytesOf [q, 1, 2, 3]⟩] } }
theorem witness_SequenceReleaseAndGap : seqFlow.canonical = true ∧ (seqRec 5 0).length = 32 ∧ leAt (seqRec 5 0) 2 2 = 0x2000 + 32 ∧
    leAt (seqRec 5 0) 0 2 = seqFlow.f (R.FLOW_NEXT 5) ∧ seqFlow.heldOf 5 = [] ∧
    (BitVec.ofNat 16 (leAt (seqRec 5 0xFFFF) 0 2) - BitVec.ofNat 16 0).toInt < 0 ∧ (gap 7).heldOf 5 ≠ [] ∧
    (∀ h ∈ (gap 7).heldOf 5, h.tgt ≠ 0 ∧ h.tgt ≠ 1) ∧ (∃ h ∈ (gap 0).heldOf 5, h.tgt = 0) := by decide
theorem test_sequence : (after .releaseArrival (post 0 0x200 (seqRec 5 0) seqFlow)).f (R.FLOW_WRIDX 5) = 0 ∧
    (after .releaseArrival (post 0 0x200 (seqRec 5 0) seqFlow)).rd 0x20034 4 = 5 ∧
    (after .releaseArrival (post 0 0x200 (seqRec 5 0xFFFF) seqFlow)).f (R.FLOW_REFUSED 5) = 1 ∧
    (after (.seqGapExpiry 5) (gap 7)).rd 0x20030 4 = 0xFFFF0000 ∧ (after (.seqGapExpiry 5) (gap 7)).f (R.FLOW_SKIPS 5) = 1 := by decide +kernel
/-- The record the gap waits for travels to DSP with the stamp of the expiry. -/
theorem test_gap_tie : (after (.seqGapExpiry 5) (incoming [.releaseArrival] (post 0 0x200 (seqRec 5 0) (gap 7)))).f (R.FLOW_SKIPS 5) = 0 ∧
    (after (.seqGapExpiry 5) (incoming [.releaseArrival] (post 0 0x200 (seqRec 5 1) (gap 7)))).f (R.FLOW_SKIPS 5) = 1 := by decide +kernel

/-! ## Axes -/

def lock (i : Nat) (s : State) : State := s.setRep i { s.rep i with locked := true }
def mode (m : Nat) (s : State) : State := s.setBoth (R.AX_CTRL_MODE 5) m
def kind (k : Nat) (s : State) : State := s.setBoth (R.AX_CTRL_KIND 5) k
def axis (f : Ax → Ax) (s : State) : State := s.setAx 5 (f (s.ax 5))
/-- Axis 5 in POSITION, bound to node 2, its replica locked, its STO released. -/
def servo5 : State := (lock 33 (kind 1 (mode 3 ((up.set (R.AX_BIND_NET_VALID 5) 1).set (R.AX_BIND_NODE 5) 2)))).set (R.BEL_AXSTO_STO 0) 0
def rel (tgt : Nat) : Held := ⟨5, 5, tgt, 0, 1234567, 0x3F800000, [1, 7, 8, 9], [3, 4, 5], axRec 5 tgt⟩
def heldRel (tgt : Nat) (s : State) : State := { s with dsp := { s.dsp with held := [rel tgt] } }
def gang (s : State) : State := ((s.setBoth (R.PC_CTRL_AXEN 8) 1).setBoth (R.PC_CTRL_AXIS 8) 5).setBoth (R.PC_STP_CTRL_GANG 8) 1
def halfRate (p : Nat) (s : State) : State := (s.setBoth (R.AX_CTRL_RATE 5) 1).setBoth (R.AX_CTRL_RPHASE 5) p
def target (s : State) : Bool := s.deadlineCyc 5 % 2 ^ s.fa (R.AX_CTRL_RATE 5) == s.fa (R.AX_CTRL_RPHASE 5) % 2 ^ s.fa (R.AX_CTRL_RATE 5)
theorem witness_ReleaseDeadlinePayload : servo5.axisGang 5 = none ∧ servo5.boundNode 5 ≠ none ∧ up.boundNode 5 = none ∧ target servo5 = true ∧
    (heldRel 0 servo5).locked 33 = true ∧ (heldRel 0 servo5).heldFor 5 ((heldRel 0 servo5).deadlineCyc 5) = some (rel 0) ∧
    target (halfRate 1 servo5) = false ∧ (gang servo5).axisGang 5 = some (2, 1) ∧ target (gang servo5) = true ∧
    (heldRel 1 (gang servo5)).heldFor 5 ((heldRel 1 (gang servo5)).deadlineCyc 5) = some (rel 1) ∧ target (halfRate 0 (gang servo5)) = false := by decide
theorem test_deadline_takes_the_release : ((after (.releaseDeadline 5) (heldRel 0 servo5)).ax 5).pay = some ⟨true, 1, 7, 8, 9⟩ ∧
    (after (.releaseDeadline 5) servo5).f (R.AX_STATUS_FB_RUN 5) = 1 ∧ (after (.releaseDeadline 5) servo5).f (R.AX_FB_CNT 5) = 1 := by decide +kernel

/-- FE timer due; FBLOSS and LATE run out at their own limits (2 of 2 cycles, 3 of 3), and one short of them. -/
def due (n : Nat) (s : State) : State := axis (fun x => { x with feAt := some 0, lossRun := n })
  (((s.setBoth (R.AX_SUP_FBLOSS_CYC 5) 2).setBoth (R.AX_SUP_FB_LIMIT 5) 3).set (R.AX_STATUS_FB_RUN 5) (n + 1))
def pins (act : Nat) (s : State) : State := ((s.setBoth (R.AX_LIM_PPIN 5) 3).setBoth (R.AX_LIM_NPIN 5) 4).setBoth (R.AX_LIM_ACT 5) act
def noPins (s : State) : State := (s.setBoth (R.AX_LIM_PPIN 5) 0xFF).setBoth (R.AX_LIM_NPIN 5) 0xFF
theorem witness_AxisSupervisorEvents : ((due 2 servo5).ax 5).feAt ≠ none ∧ (servo5.ax 5).feAt = none ∧ servo5.f (R.AX_STATUS_IDRUN 5) = 0 ∧
    (due 2 servo5).fa (R.AX_SUP_FBLOSS_CYC 5) ≤ ((due 2 servo5).ax 5).lossRun ∧ ((due 2 servo5).ax 5).lossDone = false ∧
    ((due 1 servo5).ax 5).lossRun < (due 1 servo5).fa (R.AX_SUP_FBLOSS_CYC 5) ∧
    (due 2 servo5).fa (R.AX_SUP_FB_LIMIT 5) ≤ (due 2 servo5).f (R.AX_STATUS_FB_RUN 5) ∧ ((due 2 servo5).ax 5).lateDone = false ∧
    (due 1 servo5).f (R.AX_STATUS_FB_RUN 5) < (due 1 servo5).fa (R.AX_SUP_FB_LIMIT 5) ∧
    (pins 1 servo5).fa (R.AX_LIM_PPIN 5) ≠ 0xFF ∧ (noPins servo5).fa (R.AX_LIM_NPIN 5) = 0xFF := by decide
theorem test_supervisor : (after (.fblossEvent 5) (due 2 (servo5.setBoth (R.AX_SUP 5 |> fun a => ⟨a, 9, 0⟩) 0x155))).f (R.AX_STATUS_FBLOSS 5) = 1 ∧
    (after (.fblossEvent 5) (due 1 servo5)).f (R.AX_STATUS_FBLOSS 5) = 0 ∧
    (after (.limitInputActive 5 true) (pins 1 servo5)).f (R.AX_STATUS_LIMN 5) = 1 ∧
    ((after (.limitInputActive 5 true) (pins 1 servo5)).ax 5).lim = some (0, true) ∧
    (after (.limitInputActive 5 false) (pins 1 (mode 0 servo5))).f (R.AX_STATUS_LIMP 5) = 1 := by decide +kernel

/-- A landing without an excess waits with the stamp of the timer's expiry. -/
def lands (s : State) : State := incoming [.feedbackLanding 5] (axis (fun x => { x with pending := some { cyc := 7, s := ⟨4, 0, 0, 0, 0, 0, 0⟩ } }) (due 2 s))
theorem witness_AxisSupervisorEvents_tie : Instr.feedbackLanding 5 ∈ (lands servo5).pending ∧ ((lands servo5).ax 5).pending ≠ none ∧
    ((lands servo5).feedbackLanding 5).feExceeds 5 = false ∧ ((after (.feTimerExpiry 5) (lands servo5)).ax 5).feDone = false ∧
    ((after (.feTimerExpiry 5) (due 2 servo5)).ax 5).feDone = true := by decide +kernel
/-- A sample of cycle 7 with its valid bit, bit 20 of a position of 20 bits not read. -/
def sample (st : Nat) : Feedback :=
  { cyc := 7, s := { astat := BitVec.ofNat 16 st, ia := 5, ib := 6, ic := 7, pos := 0x00100010, vbus := 9, aux := 11 } }
def fedBack (st : Nat) (s : State) : State :=
  axis (fun x => { x with pending := some (sample st) }) ((s.set (R.AX_AXCAP_POS_BITS 5) 20).set (R.AX_FB_TAG_TAG 5) 9)
theorem witness_FeedbackLandingSnapshot : (servo5.ax 5).pending = none ∧ ((fedBack 4 servo5).ax 5).pending = some (sample 4) ∧
    (fedBack 4 (kind 3 servo5)).fa (R.AX_CTRL_KIND 5) = 3 ∧ (fedBack 4 servo5).fa (R.AX_CTRL_KIND 5) ≠ 3 ∧
    7 % 2 ^ (fedBack 4 servo5).fa (R.AX_CTRL_RATE 5) = (fedBack 4 servo5).fa (R.AX_CTRL_RPHASE 5) % 2 ^ (fedBack 4 servo5).fa (R.AX_CTRL_RATE 5) ∧
    (fedBack 4 servo5).fid.pend = [] := by decide
theorem test_landing : (after (.feedbackLanding 5) (fedBack 4 servo5)).xAct 5 = 16 ∧
    (after (.feedbackLanding 5) (fedBack 6 servo5)).f (R.AX_STATUS_FBINVALID 5) = 1 ∧
    (after (.feedbackLanding 5) (fedBack 4 servo5)).f (R.TAG_VALUE 9) = 7 := by decide +kernel

def moves (s : State) : State :=
  axis (fun x => { x with gen := { x.gen with tgt := some 77, v := 0x3F800000, segs := [⟨100, 0, 5, 6, 7, none⟩] } }) s
def stops (st ran : Nat) (s : State) : State := axis (fun x => { x with stop := st, ran := ran }) ((moves s).set (R.AX_STATUS_STOPPING 5) 1)
def ident (nv : Nat) (s : State) : State :=
  axis (fun x => { x with ident := { x.ident with nv := nv, nl := 8 } }) (((mode 5 s).set (R.AX_STATUS_IDRUN 5) 1).setBoth (R.AX_ID_N_NMEAS 5) 1)
theorem witness_AxisCommandsAndPlanEnds : Permits servo5 host (R.AX_CMT 5) (2047 * 2 ^ 16 + 1) ∧ Permits servo5 host (R.AX_CNTCLR_W 5) 1 ∧
    (servo5.ax 5).gen.tgt = none ∧ ((moves servo5).ax 5).gen.tgt = some 77 ∧ servo5.f (R.AX_STATUS_STOPPING 5) = 0 ∧
    (stops 3 2 servo5).f (R.AX_STATUS_STOPPING 5) = 1 ∧ 16 * (ident 8 servo5).fa (R.AX_ID_N_NMEAS 5) = 8 + 8 ∧
    (ident 8 servo5).f (R.AX_STATUS_IDRUN 5) = 1 ∧ (ident 7 servo5).fa (R.AX_ID_N_NMEAS 5) * 16 > 7 + 8 :=
  ⟨may_of (by decide), may_of (by decide), by decide, by decide, by decide, by decide, by decide, by decide, by decide⟩
/-- A stop of its own turn ends in HOLD; one behind a MODE write the activation has not yet taken leaves that MODE. -/
theorem test_plan_ends : (after (.profileDone 5) (moves (mode 2 servo5))).f (R.AX_STATUS_PDONE 5) = 1 ∧
    (after (.rampedStopEnd 5) (stops 3 2 (mode 2 servo5))).fa (R.AX_CTRL_MODE 5) = 1 ∧
    (after (.rampedStopEnd 5) (stops 5 4 (mode 2 servo5))).fa (R.AX_CTRL_MODE 5) = 2 ∧
    (after (.stepTimeout 5) (ident 8 servo5)).f (R.AX_STATUS_IDRUN 5) = 0 := by decide +kernel

/-! ## The control cycle -/

/-- A commit of the gains: good ones, and G[32] = -1.0 (spec/07_axis_block.md, the worked example). -/
def commits (g32 : Nat) (s : State) : State :=
  (((s.set (R.AX_CMT_GO 5) 1).set (R.AX_CMT_GMASK 5) 16).setReg (R.AX_CTRL 5 + 0x280) 0x42480000).setReg (R.AX_CTRL 5 + 0x300) g32
def ringState (r st : Nat) (s : State) : State := s.set (R.RING_STAT_STATE r) st
theorem witness_CycleBoundaryAdvances : servo5.dxSt = 0 ∧ servo5.dx.splice = none ∧ servo5.tim.swTarget = none ∧ servo5.ke.held = [] ∧
    servo5.kDue ((servo5.cyc + 1) % 2 ^ 32) = [] ∧ servo5.grid ≤ 1 ∧ servo5.anySending = false ∧ (ringState 1 7 servo5).rpSt 1 = rpFollow ∧
    (commits 0 servo5).f (R.AX_CMT_GO 5) = 1 ∧ (commits 0 servo5).f (R.AX_CMT_GMASK 5) = 16 ∧ servo5.f (R.AX_CMT_GO 5) = 0 := by decide
theorem witness_CycleBoundaryAdvances_rings : ∀ j < 32, servo5.f (R.BUS_CFG_EN j) = 0 := by decide
theorem test_bad_gain : (after .cycleBoundary (commits 0xBF800000 servo5)).f (R.AX_CMT_ERR_ERRGRP 5) = 16 := by decide +kernel

/-- Mark 2 of ring 1, live and locked; its offset at the cycle's last nanosecond and at its length. -/
def marks (f : Nat → Nat → Fld) (v : Nat) (s : State) : State := s.setBoth (f 1 2) v
def live (s : State) : State := (lock (ringIsl 1) s).modRing 1 (fun x => { x with live := true })
def mark : State := marks R.RING_MARK_C_EN 1 (live up)
def markTag : State := marks R.RING_MARK_C_TAGEN 1 (marks R.RING_MARK_C_TAG 9 mark)
def routed (s : State) : State := (((marks R.RING_MARK_C_IRQ 1 s).set (R.DSP_IRT_STRAND 18) 7).set (R.DSP_IRT_EN 18) 1).set (R.ST_STAT_STATE 7) 2
theorem witness_MarkFiring : mark.islOn (ringIsl 1) = true ∧ mark.locked (ringIsl 1) = true ∧ (mark.ring 1).live = true ∧
    mark.fa (R.RING_MARK_C_EN 1 2) = 1 ∧ mark.markCyc 1 = (0, mark.ringCstart 1 0, 31250) ∧
    (marks R.RING_MARK_T_OFFSET 31249 mark).fa (R.RING_MARK_T_OFFSET 1 2) < 31250 ∧
    ¬(marks R.RING_MARK_T_OFFSET 31250 mark).fa (R.RING_MARK_T_OFFSET 1 2) < 31250 ∧ SMap.get (fun _ => 0) (mark.ring 1).firedIn 2 ≠ 1 ∧
    markTag.fa (R.RING_MARK_C_TAGEN 1 2) = 1 ∧ markTag.fa (R.RING_MARK_C_TAG 1 2) = 9 ∧ (routed mark).f (R.DSP_IRT_EN 18) = 1 ∧
    (routed mark).f (R.ST_STAT_STATE 7) ≠ 0 ∧ mark.pdOn 22 = true ∧ mark.host.fill = none := by decide
theorem test_mark : (after (.markFire 1 2) markTag).f (R.TAG_CTL_FULL 9) = 1 ∧
    (after (.markFire 1 2) (markTag.set (R.TAG_CTL_FULL 9) 1)).f (R.RING_MARK_OVR_OVR 1) = 4 ∧
    (after (.markFire 1 2) (marks R.RING_MARK_T_OFFSET 31250 mark)).f (R.RING_MARK_FIRED_FIRED 1) = 0 ∧
    (after (.markFire 1 2) (routed mark)).f (R.ST_IPEND 7) = 4 := by decide +kernel

/-- Axis 5 with valid feedback of cycle 40, strand 3 its releaser. -/
def wakes (s : State) : State :=
  (((s.set (R.AX_VALID_VALID 5) 1).set (R.AX_FB_TAG_TAG 5) 9).set (R.TAG_VALUE 9) 40).set (R.AX_STRAND_STRAND 5) 3
def user (s : State) : State := s.setBoth (R.AX_CTRL_LOOP 5) 1
theorem witness_StandardLoopActivation : (wakes servo5).fid.pend = [] ∧ (wakes servo5).f R.DX_CTRL_EN = 0 ∧
    (wakes servo5).fa (R.AX_CTRL_KIND 5) = 1 ∧ (wakes servo5).fa (R.AX_CTRL_LOOP 5) = 0 ∧ 40 % 2 ^ 0 = 0 ∧ ((wakes servo5).ax 5).old = none ∧
    (wakes servo5).f (R.AX_VALID_VALID 5) = 1 ∧ servo5.f (R.AX_VALID_VALID 5) = 0 ∧ (kind 0 servo5).fa (R.AX_CTRL_KIND 5) = 0 ∧
    (user servo5).fa (R.AX_CTRL_LOOP 5) = 1 ∧ ((axis (fun x => { x with lim := some (0, false) }) (user servo5)).ax 5).lim = some (0, false) ∧
    (wakes (mode 0 servo5)).fa (R.AX_CTRL_MODE 5) = 0 := by decide
theorem test_activation : (after (.standardLoopActivation 5) (wakes (mode 0 servo5))).dsp.posted.length = 1 ∧
    (after (.standardLoopActivation 5) servo5).f (R.AX_STATUS_FBINVALID 5) = 1 ∧
    (after (.standardLoopActivation 5) (axis (fun x => { x with hold := true }) (user servo5))).fa (R.AX_CTRL_MODE 5) = 1 := by decide +kernel

/-! ## Knots -/

def knotSt (k st : Nat) (s : State) : State := s.set (R.K_STAT_STATE k) st
/-- Slot 0 in use and slot 1 the lowest free one. -/
def kcore (v : Nat) : State := knotSt 0 1 (placed 0 3 { ctrlCtx with g := [(1, BitVec.ofNat 32 v), (2, 0xF0000200)] } up)
def fewFree (s : State) : State := s.set R.KE_POOL_FREE 3
theorem witness_KnotOpening : Permits up host (R.K_CMD 63) (2 ^ 28 + 1) ∧ Permits up host (R.K_CMD 0) (2 ^ 28 + 512) ∧
    Permits up host (R.K_CMD 0) (2 ^ 28 + 513) ∧ Permits up host (R.K_CMD 0) (2 ^ 28) ∧ Permits (fewFree up) host (R.K_CMD 0) (2 ^ 28 + 4) ∧
    Permits (knotSt 0 6 up) host (R.K_CMD 0) (2 ^ 28 + 4) ∧ up.f R.KE_POOL_FREE = 8192 ∧ up.dxSt = 0 :=
  ⟨may_of (by decide), may_of (by decide), may_of (by decide), may_of (by decide), may_of (by decide), may_of (by decide), by decide, by decide⟩
theorem witness_KnotOpening_kopen : runs (kcore 512) 0 0 w1 = true ∧ ((issued (kcore 512) 0 w1).core 0).detached = false ∧
    (issued (kcore 512) 0 w1).dspReach 0 = .ok ∧ ((issued (kcore 512) 0 w1).dspOrder 0).f (R.K_STAT_STATE 1) = 0 ∧
    ((issued (kcore 512) 0 w1).dspOrder 0).f (R.K_STAT_STATE 0) ≠ 0 ∧
    (((issued (kcore 0x94C01) 0 w1).core 0).ctx.reg 1).toNat / 2 ^ 12 % 4 ≠ 3 ∧ (((issued (kcore 0x3001) 0 w1).core 0).ctx.reg 1).toNat / 2 ^ 12 % 4 = 3 := by
  decide
theorem test_knot_open : (after (.knotOpen host 5 513) up).f (R.K_STAT_REASON 5) = 8 ∧ (after (.knotOpen host 5 4) (fewFree up)).f (R.K_STAT_REASON 5) = 9 ∧
    (after (.knotOpen host 5 4) up).f (R.K_STAT_STATE 5) = 1 ∧ (after (.knotOpen host 5 4) up).f R.KE_POOL_FREE = 8188 := by decide +kernel

/-- An open slot 5 of three entries, one added; in its window another, a TAG entry with reserved bits, or none. -/
def opened (s : State) : State :=
  (((knotSt 5 1 s).set (R.K_SIZE_RSIZE 5) 3).set (R.K_SIZE_ADDED 5) 1).setKnot 5 { s.knot 5 with ents := [[0x20000005, 16, 0, 0]] }
def window (w0 w1 : Nat) (s : State) : State := (s.set (R.K_ENT 5 0) w0).set (R.K_ENT 5 1) w1
def closing (s : State) (c : Nat) : State := ((opened s).set (R.K_CFG_WHEN 5) 0).set (R.K_CYC 5) c
theorem witness_KnotAddAndClose : Permits (opened up) host (R.K_CMD 5) (2 * 2 ^ 28) ∧ Permits (opened up) host (R.K_CMD 5) (3 * 2 ^ 28) ∧
    (opened up).f (R.K_STAT_STATE 5) = 1 ∧ up.f (R.K_STAT_STATE 5) ≠ 1 ∧
    (window 0x20000005 16 (opened up)).kAddOk 5 [0x20000005, 16, 0, 0] = true ∧ (opened up).f (R.K_SIZE_ADDED 5) < (opened up).f (R.K_SIZE_RSIZE 5) ∧
    (opened up).kAddOk 5 [0x30000005, 1, 0, 0] = false ∧ (∀ e ∈ ((opened up).knot 5).ents, kKind e ≠ 5) ∧
    (opened up).f (R.K_STAT_ADDERR 5) = 0 ∧ (BitVec.ofNat 32 1048576 - BitVec.ofNat 32 (closing up 1048576).cyc).toInt = 1048576 ∧
    (BitVec.ofNat 32 ((closing up 0).f (R.K_CYC 5)) - BitVec.ofNat 32 (closing up 0).cyc).toInt < 1 ∧ (opened up).f (R.K_CFG_FAULT_ACT 5) ≠ 3 :=
  ⟨may_of (by decide), may_of (by decide), by decide, by decide, by decide, by decide, by decide, by decide, by decide, by decide, by decide, by decide⟩
/-- Strand 3 on core 0 with slot 5 and an entry in its local memory. -/
def kcore5 : State := (((placed 0 3 { ctrlCtx with g := [(1, 5), (2, 0xF0000200)] } (opened up)).wr 0x02000200 4 0x20000005).wr 0x02000204 4 16)
theorem witness_KnotAddAndClose_core : runs kcore5 0 0 w1 = true ∧ ((issued kcore5 0 w1).core 0).detached = false ∧
    (((issued kcore5 0 w1).core 0).ctx.reg 1).toNat < 64 ∧ words (issued kcore5 0 w1) 0xF0000200 0x02000200 4 = true ∧
    (issued kcore5 0 w1).check ((issued kcore5 0 w1).coreWho 0) (R.K_CMD 5) 4 (2 * 2 ^ 28) .write = .ok ∧
    may (issued kcore5 0 w1) ((issued kcore5 0 w1).coreWho 0) (R.K_CMD 5) (3 * 2 ^ 28) = true := by decide
theorem test_knot_add_close : (after (.knotAdd host 5) (window 0x20000005 16 (opened up))).f (R.K_SIZE_ADDED 5) = 2 ∧
    (after (.knotAdd host 5) (window 0x30000005 1 (opened up))).f (R.K_STAT_ADDERR 5) = 1 ∧
    (after (.knotClose host 5) (closing up 1)).f (R.K_STAT_STATE 5) = 2 ∧ (after (.knotClose host 5) (closing up 0)).f (R.K_STAT_REASON 5) = 6 := by
  decide +kernel

/-- Slot 5 with participant 3 of ring 1, for cycle 8. -/
def netKnot (st : Nat) (ps : List KPart) : State :=
  let s := knotSt 5 st ((opened up).set (R.K_CCYC 5) 8)
  s.setKnot 5 { s.knot 5 with parts := ps, fixed := true, ents := [[0x50400300, 0, 0, 0]] }
def part (gone : Bool) (r1 : Option (Nat × Bool)) : KPart := { ring := 1, addr := 3, sealed := true, gone := gone, rep1 := r1 }
def armedBy (c : Nat) (s : State) : State := s.modRing 1 (fun x => { x with nstat := [(3, (4, 5, c))] })
theorem witness_KnotDecisionAndEnds : Permits up host (R.K_CMD 5) (4 * 2 ^ 28) ∧ Permits up host (R.K_CMD 5) (5 * 2 ^ 28) ∧
    (netKnot 3 [part false none]).f (R.K_STAT_STATE 5) = 3 ∧ ((netKnot 3 [part false none]).knot 5).fixed = true ∧
    SMap.get (fun _ => (0, 0, 0)) ((armedBy 7 (netKnot 4 [part false none])).ring 1).nstat 3 = (4, 5, 7) ∧
    (∀ e ∈ ((netKnot 4 [part false none]).knot 5).ents, kKind e = 5) ∧ SMap.get (fun _ => (0, 0, 0)) ((armedBy 6 (netKnot 4 [])).ring 1).nstat 3 ≠ (4, 5, 7) ∧
    (∀ p ∈ ((netKnot 5 [part false (some (0, false))]).knot 5).parts, p.gone = false ∧ p.rep1 = some (0, false)) ∧
    (∀ p ∈ ((netKnot 5 [part true none]).knot 5).parts, p.gone = true ∧ p.ring < 4 ∧ 1 ≤ p.addr ∧ p.addr ≤ 64) :=
  ⟨may_of (by decide), may_of (by decide), by decide, by decide, by decide, by decide, by decide, by decide, by decide⟩
theorem test_knot_ends : (after (.knotAnnounce 5) (netKnot 3 [part false none])).f (R.K_STAT_STATE 5) = 4 ∧
    (after (.knotDecide 5) (armedBy 7 (netKnot 4 [part false none]))).f (R.K_STAT_STATE 5) = 5 ∧
    (after (.knotDecide 5) (armedBy 6 (netKnot 4 [part false none]))).f (R.K_STAT_REASON 5) = 5 ∧
    (after (.knotConfirmEnd 5) (netKnot 5 [part false (some (0, false))])).f (R.K_STAT_STATE 5) = 6 ∧
    (after (.knotConfirmEnd 5) (netKnot 5 [part true none])).f (R.K_OUT_MISSED 5) = 1 := by decide +kernel

/-! ## The time base -/

/-- Domain 1 in SERVO with steps over 16 ns allowed, with ring 2 sending on it or not; 100 ns and 101 ns away from domain 0. -/
def servoed (src : Nat) : State := ((up.set (R.TD_CFG_SRC 1) src).set (R.TD_CFG_STEP_EN 1) 1).set (R.TD_STEP_LIM 1) 1
def sendsOn (d : Nat) (s : State) : State := (s.set (R.RING_STAT_STATE 2) 5).setBoth (R.RING_CTRL_TDOM 2) d
def away (n : Nat) (s : State) : State := (s.set R.TB_SW_MAXOFS 100).modDom 1 (fun c => { c with phase := n * phaseNs })
def fifos : State := (up.setPtpFifo true 1 [⟨1, 2, 3, 4⟩]).setPtpFifo false 1 [⟨65535, 15, 15, 4⟩]
theorem witness_TimeBaseWrites : Permits (servoed 1) host (R.TD_OFS_IN_W 1) 0xFFFFFFFF ∧ Permits up host (R.TD_RATE_W 1) 0x80000000 ∧
    (servoed 1).f (R.TD_CFG_SRC 1) = 1 ∧ (servoed 2).f (R.TD_CFG_SRC 1) ≠ 1 ∧ (servoed 1).tim.swTarget = none ∧
    16 * (servoed 1).f (R.TD_STEP_LIM 1) < (17 : BitVec 32).toInt.natAbs ∧ ¬16 * (servoed 1).f (R.TD_STEP_LIM 1) < (16 : BitVec 32).toInt.natAbs ∧
    (∀ r < 4, (servoed 1).sending r = false) ∧ (sendsOn 1 (servoed 1)).sending 2 = true ∧ (servoed 1).f (R.TD_STAT_HOLDOVER 1) = 0 ∧
    Permits (away 100 up) host R.TB_SW (2 ^ 31 + 1) ∧ (BitVec.ofNat 32 ((away 101 up).now 1) - BitVec.ofNat 32 ((away 101 up).now 0)).toInt.natAbs = 101 ∧
    Permits up host R.TB_SNAP_W 1 ∧ Permits up host (R.TD_EPOCH_SEC_HI_W 1) 65535 :=
  ⟨may_of (by decide), may_of (by decide), by decide, by decide, by decide, by decide, by decide, by decide, by decide, by decide,
    may_of (by decide), by decide, may_of (by decide), may_of (by decide)⟩
theorem witness_TimeBaseWrites_fifo : PermitsRead fifos host (R.PTP_TX_INFO 1) ∧ PermitsRead fifos host (R.PTP_RX_INFO 1) ∧
    fifos.ptpFifo false 1 = [⟨65535, 15, 15, 4⟩] ∧ fifos.ptpFifo true 0 = [] := ⟨mayR_of (by decide), mayR_of (by decide), by decide, by decide⟩
theorem test_time_writes : ((after (.ofsInWrite host 1 17) (servoed 1)).dom 1).phase = 17 * 16000000000000 ∧
    ((after (.ofsInWrite host 1 16) (servoed 1)).dom 1).resid = 256000000000000 ∧ (after (.ofsInWrite host 1 17) (sendsOn 1 (servoed 1))).f (R.TD_STAT_STEPDENY 1) = 1 ∧
    (after (.switchOverStart host 1) (away 101 up)).f R.TB_STAT_SWERR = 1 ∧ (after (.switchOverStart host 1) (away 100 up)).f R.TB_STAT_SWBUSY = 1 := by
  decide +kernel
/-- +100 ns as OFS_IN, RATE of 200 ppm clamped (spec/09_time_base.md: ±200 ppm). -/
theorem test_rate_is_limited : (after (.rateWrite host 1 0x7FFFFFFF) up).f (R.TD_RATE 1) = 51200000 := by decide +kernel

/-- TEO 5 at 100 ns of domain 0: a queue, and the end of the last pulse. -/
def at100 (s : State) : State := (s.modDom 0 (fun d => { d with phase := 100 * phaseNs })).modDom 1 (fun d => { d with phase := 300 * phaseNs })
def teo (l : List (Nat × Nat)) (e : Option (Nat × Nat)) (t : Nat) : State :=
  ((at100 up).set (R.TEO_Q_STAMP 5) t).setTeo 5 { up.teo 5 with queue := l, pulseEnd := e }
theorem witness_TimedOutputsAndCaptures_teo : Permits (teo [] none 100) host (R.TEO_Q_ACT 5) 3 ∧ Permits (teo [] none 100) host (R.TEO_Q_ACT 5) (2 ^ 31) ∧
    SMap.wf (fun _ => ({} : TeoQ)) (teo [] none 100).tim.teo = true ∧ (teo [] none 99).now 0 = 100 ∧
    ((teo (List.replicate 16 (5, 1)) none 0).teo 5).queue.length = 16 ∧ ((teo [(100, 3), (149, 1)] none 0).teo 5).queue = [(100, 3), (149, 1)] :=
  ⟨may_of (by decide), may_of (by decide), by decide, by decide, by decide, by decide⟩
theorem test_teo : (after (.teoPush host 5 0) (teo [] none 99)).f (R.TEO_STAT_LATE 5) = 1 ∧ (after (.teoPush host 5 0) (teo [] none 100)).f (R.TEO_STAT_LATE 5) = 0 ∧
    (after (.teoPush host 5 0) (teo [] (some (0, 101)) 101)).f (R.TEO_STAT_LATE 5) = 0 ∧ (after (.teoPush host 5 0) (teo [] (some (0, 102)) 101)).f (R.TEO_STAT_LATE 5) = 1 ∧
    (after (.teoPush host 5 0) (teo (List.replicate 16 (5, 1)) none 99)).f (R.TEO_STAT_OVF 5) = 1 := by decide +kernel
theorem test_teo_action : ((after (.teoAction 5) (teo [(100, 3), (149, 1)] none 0)).teo 5).pin = true ∧
    ((after (.teoPulseClear 5) (teo [] (some (0, 102)) 0)).teo 5).pulseEnd = none := by decide +kernel

/-- TCI 5 takes rising edges of pin 5 with a filter of 33 ns and tag 9; `n` captures stand. -/
def tci (n : Nat) : State := (((((at100 up).set (R.TCI_CFG_EN 5) 1).set (R.TCI_CFG_EDGE 5) 1).set (R.TCI_CFG_FILT 5) 33).set (R.TCI_CFG_TAG 5) 9).setTci 5
  { fifo := (List.range n).map (fun i => ⟨i, true, i⟩), seq := 65535 }
theorem witness_TimedOutputsAndCaptures_tci : (∀ g < 16, (tci 0).fa (R.PC_STP_CTRL_GANG (4 * g)) ≠ 1) ∧ (tci 16).f (R.TCI_CFG_EN 5) = 1 ∧
    SMap.wf (fun _ => ({} : TciF)) (tci 16).tim.tci = true ∧ ((tci 16).tci 5).fifo.length = 16 ∧ ((tci 15).tci 5).fifo.length = 15 ∧
    PermitsRead (tci 1) host (R.TCI_HEAD_INFO 5) := ⟨by decide, by decide, by decide, by decide, by decide, mayR_of (by decide)⟩
theorem test_tci : ((after (.tciCapture 5 true) (tci 0)).tci 5).fifo = [⟨67, true, 65535⟩] ∧ (after (.tciCapture 5 true) (tci 16)).f (R.TCI_STAT_OVF 5) = 1 ∧
    (after (.tciCapture 5 true) ((tci 0).set (R.TCI_CFG_TAGEN 5) 1)).f (R.TAG_VALUE 9) = 67 ∧ ((after (.tciCapture 5 false) (tci 0)).tci 5).seq = 65535 := by
  decide +kernel
def acts (l : List TAction) : State := { at100 up with tim := { (at100 up).tim with actions := l } }
theorem witness_TimedOutputsAndCaptures_actions : (100#32 - BitVec.ofNat 32 ((acts []).rnow 0)).toInt = 0 ∧ (99#32 - BitVec.ofNat 32 ((acts []).rnow 0)).toInt < 0 ∧
    (acts [⟨33, 5, 0, 100, 7⟩, ⟨33, 5, 0, 100, 9⟩]).tim.actions = [] ++ ⟨33, 5, 0, 100, 7⟩ :: [] ++ ⟨33, 5, 0, 100, 9⟩ :: [] := by decide
theorem test_actions : (after (.timedActionArrival 33 5 0 100 7) (acts [])).tim.actions = [⟨33, 5, 0, 100, 7⟩] ∧
    (after (.timedActionArrival 33 5 0 99 7) (acts [])).tim.lateCnt = [(33, 1)] ∧
    SMap.get (fun _ => 0) (after (.timedActionPerform 33 5) (acts [⟨33, 5, 0, 100, 7⟩, ⟨33, 5, 0, 100, 9⟩])).tim.outs (33 * 2 ^ 32 + 5) = 9 := by decide +kernel

def rep (i : Nat) (f : Replica → Replica) : State := up.setRep i (f (up.rep i))
theorem witness_BeaconsReplicasAndCrossings : up.tim.swTarget = none ∧ ((rep 37 fun r => { r with good := 64 }).rep 37).good = 64 ∧
    ((rep 37 fun r => { r with good := 63 }).rep 37).good = 63 ∧ ((rep 37 fun r => { r with miss := 4, locked := true }).rep 37).miss = 4 ∧
    ((stalled running).core 0).stall ≠ none ∧ (∀ c < 36, (up.core c).stall = none) := by decide +kernel
theorem test_replicas : ((after (.beacon 0xFFFFFFFFFFF) (rep 37 fun r => { r with good := 63, miss := 1 })).rep 37) = { (up.rep 37) with good := 64, miss := 0 } ∧
    ((after (.replicaLock 37) (rep 37 fun r => { r with good := 64 })).rep 37).locked = true ∧
    (after (.replicaUnlock 37) (rep 37 fun r => { r with miss := 4, locked := true })).f (R.PC_STAT_LOCK 31) = 1 ∧
    ((after (.crossingTimerExpiry 0 33) (stalled running)).core 0).stall = none := by decide +kernel

/-! ## Rings and nodes -/

/-- Ring 1: two AXIS entries (node 3 in frame 0, node 4 in frame 1), OUI and PROTO set, its replica locked. -/
def entry (i fidx node axbase : Nat) (s : State) : State :=
  (s.setReg (R.RING_SCH_W0 1 i) (2 ^ 31 + fidx * 2 ^ 27 + 2 ^ 16 + node * 256)).setReg (R.RING_SCH_W1 1 i) (16 * 2 ^ 21 + 20 * 2 ^ 10 + axbase * 4)
def ring1 : State :=
  ((((entry 0 0 3 5 (entry 1 1 4 6 (lock (ringIsl 1) up))).set (R.RING_OUI 1) 0x112233).set (R.RING_PROTO 1) 0x4455).set (R.RING_CTRL_EN 1) 1).deriveBinds
def rs (st : Nat) (s : State) : State := s.set (R.RING_STAT_STATE 1) st
def broken (up1 : Nat) (s : State) : State :=
  (((rs 6 s).set (R.RING_TOPO_BREAK_U 1) 3).set (R.RING_TOPO_BREAK_V 1) 4).modRing 1 (fun x => { x with upU := some 0, upV := some up1 })
def waits (s : State) : State := { s.set (R.RING_HEAL_WAIT 1) 5 with tim := { s.tim with clk := 5000000, domA := { s.tim.domA with phase := 5000000 * phaseNs } } }
theorem witness_RingPortCommands : PermitsF (rs 0 ring1) host (R.RING_CTRL_EN 1) 1 ∧ PermitsF (rs 5 ring1) host (R.RING_CTRL_EN 1) 0 ∧
    PermitsF (rs 4 ring1) host (R.RING_CTRL_RUN 1) 1 ∧ PermitsF (rs 6 ring1) host (R.RING_CTRL_REDISCOVER 1) 1 ∧
    PermitsF (broken 0 ring1) host (R.RING_CTRL_HEAL 1) 1 ∧ PermitsF (rs 5 ring1) host (R.RING_CTRL_CNTCLR 1) 1 ∧
    PermitsF ring1 host (R.RING_NT_STATE_ACCEPT 1 63) 1 ∧ (rs 0 ring1).f (R.RING_OUI 1) ≠ 0 ∧ up.f (R.RING_OUI 1) = 0 ∧
    ((waits (broken 0 ring1)).long 0 = 5 * 1000000) ∧ ring1.f (R.RING_CTRL_EN 1) = 1 ∧ ring1.dxSt = 0 :=
  ⟨mayF_of (by decide), mayF_of (by decide), mayF_of (by decide), mayF_of (by decide), mayF_of (by decide), mayF_of (by decide), mayF_of (by decide),
    by decide, by decide, by decide, by decide, by decide⟩
theorem test_ring_commands : (after (.ringPortEnable host 1) (rs 0 ring1)).f (R.RING_STAT_STATE 1) = 1 ∧
    (after (.ringPortEnable host 2) up).f (R.RING_STAT_CFGERR 2) = 1 ∧ ((after (.ringPortDisable host 1) (rs 5 ring1)).ring 1).stopping = true ∧
    ((after (.ringRun host 1) (rs 4 ring1)).ring 1).runAt = some 1 ∧ ((after (.ringHeal host 1) (waits (broken 0 ring1))).ring 1).heal = 1 ∧
    (after (.ringHeal host 1) ((broken 0 ring1).modRing 1 fun x => { x with upV := none })).f (R.RING_STAT_HEALERR 1) = 1 := by decide +kernel

/-- An AXIS datagram of node 3, and frames that carry it from this unit, from another of lower rank, and with a bad FCS. -/
def dgram (node : Nat) : List Byte := dgHeader 1 node 16 20 1 ++ leBytes 16 0x0009000800070001FEDCBA9876543210 ++ leBytes 20 0x112233
def ringFrame (serial : Nat) (h : Hdr) : List Byte :=
  frameOf { h with oui := 0x112233, proto := 0x4455, cycle := 9, hbSerial := serial, plen := (dgram 3).length } (dgram 3)
def ours : List Byte := ringFrame ring1.serial {}
def theirs : List Byte := ringFrame (ring1.serial + 1) {}
def lostNode (st : Nat) (s : State) : State :=
  ((rs 6 s).set (R.RING_NT_STATE_STATE 1 2) st).set (R.RING_MISS_LIMIT 1) 4 |>.modRing 1 (fun x => { x with missRun := [(3, 4)] })
theorem witness_RingPortEvents : ring1.islOn (ringIsl 1) = true ∧ ring1.locked (ringIsl 1) = true ∧ Instr.ringFrameReceive 1 false ours ∉ ring1.pending ∧
    84 ≤ ours.length ∧ (Hdr.parse ours).oui = 0x112233 ∧ (Hdr.parse ours).hbSerial = ring1.serial ∧ (Hdr.parse theirs).hbSerial ≠ ring1.serial ∧
    ((ring1.activeBank 1).find? (fun e => e.dtype == 1 && e.node == 3)).map (fun e => (e.fidx, e.axbase)) = some (0, 5) ∧
    (lostNode 1 ring1).f (R.RING_MISS_LIMIT 1) ≤ SMap.get (fun _ => 0) ((lostNode 1 ring1).ring 1).missRun 3 ∧
    (ring1.activeBank 1).foldl (fun m e => max m e.fidx) 0 = 1 := by decide
theorem witness_RingPortEvents_frames : fcsGood ours = true ∧ fcsGood (theirs.set 20 7) = false ∧
    (datagrams ours).1.map (fun d => (d.dtype, d.node, d.hits)) = [(1, 3, 1)] := by decide +kernel
theorem test_ring_frames : ((after (.ringFrameReceive 1 true ours) ((rs 5 ring1).modRing 1 fun x => { x with retCyc := 5 })).ring 1).retCyc = 9 ∧
    (after (.ringFrameReceive 1 true (theirs.set 20 7)) (rs 5 ring1)).f (R.RING_FCS_ERR 1) = 1 ∧
    (after (.nodeMissing 1 2) (lostNode 1 ring1)).f (R.RING_NT_STATE_STATE 1 2) = 3 := by decide +kernel

/-- Node 2 of ring 1: with address 3, locked to cycle 8 and in cycle 9; holding the command of a cycle. -/
def node2 (f : NodeSt → NodeSt) : State :=
  let s := up.setNode 66 (f { up.node 66 with addr := 3, ouiProto := some (0x112233, 0x4455), locked := true, lastGood := some 8, cstart := 100, tcyc := 31250 })
  { s with tim := { s.tim with cyc := 9 } }
def holds (c flags : Nat) (n : NodeSt) : NodeSt := { n with heldCyc := some c, held := leBytes 16 (0x0009000800070001FEDCBA9876540000 + flags) }
def runs2 (n : NodeSt) : NodeSt := { n with started := true, everApplied := true, axcfg := [(0, 0), (0, 1), (1, 0), (0, 2)] }
theorem witness_NodeMailboxResults : (up.node 66).lastMseq ≠ some 5 ∧ ((node2 fun n => { n with lastMseq := some 5 }).node 66).lastMseq = some 5 ∧
    (up.node 66).object 0x7FFF = none ∧ ((node2 fun n => { n with room := 1 }).node 66).shadows.length < 1 ∧
    ((node2 fun n => { n with room := 0 }).node 66).room ≤ 0 ∧ (leBytes 1 16).headD 0 = 16 ∧ 6 ≤ (6 : Byte).toNat := by decide
theorem test_mailbox : ((after (.mailboxRead 1 2 5 5) (node2 id)).node 66).response.take 9 = leBytes 9 0x030000000100050005 ∧
    ((after (.mailboxWrite 1 2 5 8 [16]) (node2 id)).node 66).pwmDiv = 16 ∧ ((after (.mailboxWrite 1 2 5 8 [17]) (node2 id)).node 66).response.take 2 = [5, 6] ∧
    ((after (.mailboxWrite 1 2 5 8 [16]) (node2 fun n => { n with lastMseq := some 5 })).node 66).pwmDiv = 1 := by decide +kernel
theorem witness_NodeFramesAndCycles : (((node2 id).node 66).loopIn = false ∧ ((node2 (holds 9 0)).node 66).heldCyc = some (node2 id).cyc ∧
    ((node2 (holds 9 1)).node 66).held.headD 0 = 0x01 + 0 ∧ ((node2 (holds 8 0)).node 66).heldCyc ≠ some (node2 id).cyc ∧
    ((node2 fun n => holds 8 0 (runs2 n)).node 66).started = true ∧ ((node2 fun n => { n with grant := some (7, 4) }).node 66).grant = some (7, 4) ∧
    ((node2 id).node 66).dec = none ∧ ((node2 id).node 66).announced = none ∧ ((node2 id).node 66).grant = none ∧
    ((node2 fun n => { n with revCycs := [8, 7] }).node 66).cycNow (node2 id).tim.clk 9 = 9 ∧ 84 ≤ (ringFrame 0 {}).length) := by decide
theorem test_node_frame : let t := after (.nodeFrameProcess 1 2 (ringFrame 0 { tstamp := 12345, cstart := 12000, tcyc := 31250 })) (node2 id)
    (t.node 66).heldCyc = some 9 ∧ (t.node 66).cstart = 12000 ∧ (Hdr.parse (SMap.get (fun _ => []) t.net.nodeOut 132)).hops = 1 := by decide +kernel
theorem test_node_cycle : ((after (.nodeApply 1 2) (node2 (holds 9 1))).node 66).addr = 0 ∧
    ((after (.nodeLostCycle 1 2) (node2 fun n => { holds 8 0 (runs2 n) with lostRun := 8 })).node 66).addr = 0 ∧
    ((after (.nodeLostCycle 1 2) (node2 fun n => { holds 8 0 (runs2 n) with lostRun := 7 })).node 66).lostRun = 8 ∧
    ((after (.nodeLoopback 1 2 .reverseOnly) (node2 fun n => { n with revCycs := [8, 7] })).node 66).loopIn = true ∧
    ((after (.nodeLoopback 1 2 .reverseOnly) (node2 fun n => { n with revCycs := [8, 7], fwdCycs := [7] })).node 66).loopIn = false := by decide +kernel
/-- The FCS is CRC-32: its check value is that of IEEE 802.3. -/
theorem test_crc32 : crc32 ("123456789".toList.map (fun c => BitVec.ofNat 8 c.toNat)) = 0xCBF43926 := by decide +kernel

/-! ## Channels, shots and gangs -/

/-- Channel 5 with its pins routed, its bank locked and not safe-off, in a mode; enabled and past its first period. -/
def chan (f : Chan → Chan) (s : State) : State := s.setChan 5 (f (s.chan 5))
def both (x : Nat → Fld) (v : Nat) (s : State) : State := s.setBoth (x 5) v
def routedPins : State := (forN 5 (fun i s => s.setBoth (R.PIN_PIN_FUNC (pcPin 5 i)) 1) (lock 36 up)).set R.BEL_SO_ASSERTED 0
def enabled (m : Nat) : State := chan (fun x => { x with follow := true }) ((both R.PC_CTRL_MODE m routedPins).set (R.PC_CTRL_EN 5) 1)
theorem witness_ChannelsAndSequencer_commands : Permits routedPins host (R.PC_CMT_W 5) 1 ∧ Permits routedPins host (R.PC_CNTCLR_W 5) 1 ∧
    Permits (enabled 1) host (R.PC_OVR 5) 7 ∧ PermitsF (both R.PC_CTRL_MODE 1 routedPins) host (R.PC_CTRL_EN 5) 1 ∧
    Permits up host (R.HG_CMT_W 15) 1 ∧ Permits up host (R.HG_CNTCLR_W 15) 1 ∧ (enabled 1).f (R.PC_STAT_DWELLRUN 5) = 0 ∧
    ((enabled 1).chan 5).shot = none ∧ (enabled 1).f (R.PC_CTRL_EN 5) = 1 ∧ (enabled 1).f (R.PC_STAT_XON 5) = 0 ∧
    routedPins.pcMuxed 5 = true ∧ up.pcMuxed 5 = false ∧ routedPins.reg (R.PC_STAT 5) % 128 = 0 ∧ routedPins.f R.BEL_SO_ASSERTED % 2 = 0 :=
  ⟨may_of (by decide), may_of (by decide), may_of (by decide), mayF_of (by decide), may_of (by decide), may_of (by decide),
    by decide, by decide, by decide, by decide, by decide, by decide, by decide, by decide⟩
/-- No valve group and no gang drives channel 5. -/
theorem witness_ChannelsAndSequencer_alone : (enabled 1).alone 5 ∧ (enabled 1).follows 5 := by
  unfold State.alone State.follows; decide
theorem test_channel_commands : (after (.channelEnable host 5) (both R.PC_CTRL_MODE 1 routedPins)).f (R.PC_CTRL_EN 5) = 1 ∧
    (after (.channelEnable host 5) up).f (R.PC_STAT_ENERR 5) = 1 ∧ (after (.ovrWrite host 5 7) (enabled 1)).f (R.PC_STAT_XON 5) = 1 ∧
    (after (.ovrWrite host 5 3) (enabled 1)).f (R.PC_STAT_SEQ 5) = 1 := by decide +kernel
/-- A period of 1000 counts with a first part of 300, and a shortest pulse of 50; the sequencer on its way to H or to L. -/
def pwm (s : State) : State :=
  both R.PC_PER 1000 (both (fun c => R.PC_CMP c 0) 300 (both R.PC_MINP 50 (chan (fun x => { x with follow := false }) s)))
def seq (q target : Nat) (set : Bool) (s : State) : State :=
  chan (fun x => { x with target := target, pulseSet := set }) (s.set (R.PC_STAT_SEQ 5) q)
def edge (h l : Bool) (s : State) : State := chan (fun x => { x with edges := [(7, h, l), (9, false, false)] }) s
theorem witness_ChannelsAndSequencer_events : (pwm (enabled 1)).fa (R.PC_PER 5) = 1000 ∧ (pwm (enabled 1)).fa (R.PC_CMP 5 0) = 300 ∧
    ((pwm (enabled 1)).chan 5).next = none ∧ ((pwm (enabled 1)).chan 5).follow = false ∧ (pwm (enabled 1)).fa (R.PC_CTRL_SYNC 5) = 0 ∧
    ((edge true false (enabled 1)).chan 5).edges ≠ [] ∧ ((enabled 1).chan 5).zHold = false ∧ ((enabled 1).chan 5).ocForce = false ∧
    ((enabled 1).setChan 5 { (enabled 1).chan 5 with held := false }).bothOn 5 = false ∧
    (seq 1 1 true (enabled 1)).f (R.PC_STAT_SEQ 5) = 1 ∧ (seq 3 2 true (enabled 1)).f (R.PC_STAT_SEQ 5) = 3 ∧
    (both R.PC_GATE_TGON 9 (enabled 1)).fa (R.PC_GATE_TGON 5) = 9 ∧ (enabled 1).f (R.PC_STAT_GSH_IN 5) = (enabled 1).fa (R.PC_GATE_GSHPOL 5) ∧
    ((enabled 1).set (R.PC_STAT_GSH_IN 5) 1).f (R.PC_STAT_GSH_IN 5) ≠ (enabled 1).fa (R.PC_GATE_GSHPOL 5) ∧
    (both R.PC_OCCFG_OCMODE 2 (enabled 1)).fa (R.PC_OCCFG_OCMODE 5) = 2 ∧ (both R.PC_CTRL_SYNC 2 (enabled 1)).fa (R.PC_CTRL_SYNC 5) = 2 := by decide
theorem test_channel_events : ((after (.carrierPeriodStart 5) (pwm (enabled 1))).chan 5).edges = [(300, false, false)] ∧
    (after (.enRise 5) (seq 1 1 true (enabled 1))).f (R.PC_STAT_SEQ 5) = 2 ∧
    (after (.gonTimeout 5) (both R.PC_GATE_TGON 9 (seq 3 2 true (enabled 1)))).f (R.PC_STAT_GON 5) = 1 ∧
    (after (.overcurrentDetect 5) (both R.PC_OCCFG_OCMODE 1 (enabled 1))).f (R.PC_OC_CNT 5) = 1 ∧
    (after (.overcurrentDetect 5) (both R.PC_OCCFG_OCMODE 2 (enabled 1))).f (R.PC_CTRL_EN 5) = 0 := by decide +kernel
theorem test_bank_events : ((after (.syncinEdge 0) (both R.PC_CTRL_SYNC 2 (edge true false (enabled 1)))).chan 5).edges = [] ∧
    SMap.get (fun _ => 0) (after (.adcConversion 3 70 0x1234) up).pwr.adc 131 = 0x1234 := by decide +kernel

/-- What ends a wait arrives with the stamp of its expiry: a gate that reads off, one that reads on, the end of core 3's halt, an
edge on SYNCIN of bank 0. -/
def goff : State := (seq 1 1 true (enabled 1)).set (R.PC_STAT_GSL_IN 5) (1 - (enabled 1).fa (R.PC_GATE_GSLPOL 5))
def gon : State := both R.PC_GATE_TGON 9 (seq 3 2 true (enabled 1))
def dwell : State := both R.PC_HALT_CORE 3 ((enabled 1).set (R.PC_STAT_DWELLRUN 5) 1)
def senseOf (on : Bool) : Instr := .gateSenseChange 5 true (on != ((enabled 1).fa (R.PC_GATE_GSLPOL 5) == 1))
theorem witness_ChannelsAndSequencer_ties : goff.f (R.PC_STAT_GSL_IN 5) ≠ goff.fa (R.PC_GATE_GSLPOL 5) ∧ dwell.f (R.PC_HALT_CORE 5) = 3 ∧
    dwell.f (R.PC_STAT_DWELLRUN 5) = 1 ∧ (∀ j < 36, j ≠ 3 → (dwell.core j).dbgHalt = false ∧ (dwell.core j).sfHalt = false) ∧
    (incoming [.haltEnd 3] dwell).pending = [.haltEnd 3] := by decide
theorem test_channel_ties : (after (.goffTimeout 5) goff).f (R.PC_STAT_GOFF 5) = 1 ∧ (after (.goffTimeout 5) (incoming [senseOf false] goff)).f (R.PC_STAT_GOFF 5) = 0 ∧
    (after (.gonTimeout 5) (incoming [senseOf true] gon)).f (R.PC_STAT_GON 5) = 0 ∧ (after (.gonTimeout 5) (incoming [senseOf false] gon)).f (R.PC_STAT_GON 5) = 1 ∧
    (after (.haltDwellExpiry 5) dwell).f (R.PC_STAT_HDWELL 5) = 1 ∧ (after (.haltDwellExpiry 5) (incoming [.haltEnd 3] dwell)).f (R.PC_STAT_HDWELL 5) = 0 ∧
    (after (.syncLoss 5) (incoming [.syncinEdge 0] (both R.PC_CTRL_SYNC 2 (enabled 1)))).f (R.PC_STAT_SYNCLOSS 5) = 0 ∧
    (after (.syncLoss 5) (incoming [.syncinEdge 1] (both R.PC_CTRL_SYNC 2 (enabled 1)))).f (R.PC_STAT_SYNCLOSS 5) = 1 := by decide +kernel

/-- A valve channel at 100 ns, single or the low side of group 1 (its high side channel 7), with a queue. -/
def valve (role : Nat) (q : List (Nat × Nat)) : State :=
  ((both R.PC_VCFG_HG 1 (both R.PC_VCFG_ROLE role (chan (fun x => { x with queue := q }) (enabled 4)))).modDom 0 fun d => { d with phase := 100 * phaseNs }).set
    (R.PC_SHOT_T_T_ON 5) 99
def group (policy : Nat) (s : State) : State :=
  (((s.setBoth (R.HG_CTRL_HSCH 1) 7).setBoth (R.HG_CTRL_EN 1) 1).set (R.PC_CTRL_EN 7) 1).setBoth (R.HG_CTRL_POLICY 1) policy
def shot (n : Nat) (s : State) : State :=
  chan (fun x => { x with shot := some { ton := 10, dur := 10000, vpeak := 100, per := 100, vhold := 32768, minp := 5, fw := true, ipeak := 3, ihold := 1, holds := n } }) s
theorem witness_ShotsAndGangs_valve : Permits (valve 0 []) host (R.PC_SHOT_D_W 5) (2 ^ 30 - 1) ∧ Permits (valve 0 []) host (R.PC_SHOT_CTL 5) 1 ∧
    Permits (shot 0 (valve 0 [])) host (R.PC_SHOT_CTL 5) 2 ∧ (valve 0 []).rnow 0 = 100 ∧
    ((valve 0 (List.replicate 8 (100, 5))).chan 5).queue.length = 8 ∧ (valve 2 []).fa (R.PC_VCFG_ROLE 5) = 2 ∧
    (valve 0 [(100, 5)]).fa (R.PC_CTRL_MODE 5) = 4 ∧ (valve 0 [(100, 5)]).fa (R.PC_CTRL_AXEN 5) = 0 ∧ (valve 0 []).f (R.PC_STAT_FROZEN 5) = 0 ∧
    (group 1 (valve 1 [(100, 5)])).activeMembers 1 = [] ∧ (group 1 (valve 1 [])).members 1 = [5] ∧ (valve 1 []).groupReady 1 = false ∧
    (group 1 (valve 1 [])).fa (R.HG_CTRL_POLICY 1) ≠ 0 :=
  ⟨may_of (by decide), may_of (by decide), may_of (by decide), by decide, by decide, by decide, by decide, by decide, by decide, by decide, by decide, by decide, by decide⟩
theorem witness_ShotsAndGangs_ovr : ∀ j < 64, (valve 1 []).f (R.PC_OVR_OVEN j) = 0 := by decide
/-- VHOLD 0.5 of a period of 100: the last full period of this shot is its 495th, of (10,000 − 100)·6.4 counts of 6.4 per ns. -/
theorem witness_ShotsAndGangs_hold : ∃ h, ((shot 494 (valve 0 [])).chan 5).shot = some h ∧
    h.vhold * h.per / 2 ^ 16 = 50 ∧ h.minp + 50 ≤ h.per ∧ h.holds * h.per + h.per ≤ (h.dur - h.vpeak) * 32 / 5 :=
  ⟨_, rfl, by decide⟩
theorem test_shots : ((after (.shotPush host 5 7) (valve 0 [])).chan 5).queue = [] ∧ (after (.shotPush host 5 7) (valve 0 [])).f (R.PC_LATE_CNT 5) = 1 ∧
    (after (.shotPush host 5 7) (valve 0 (List.replicate 8 (100, 5)))).f (R.PC_SHOT_STAT_OVF 5) = 1 ∧
    ((after (.shotStart 5) (valve 0 [(100, 5)])).chan 5).shot.map (·.dur) = some 5 ∧
    (after (.shotStart 5) (valve 1 [(100, 5)])).f (R.PC_SHOT_STAT_GNRDY 5) = 1 ∧ (after (.shotEnd 5) (shot 3 (valve 0 []))).f (R.PC_SHOT_CNT 5) = 1 := by decide +kernel
theorem test_hold : ((after (.holdPeriodStart 5) (shot 494 (valve 0 []))).chan 5).edges = [(50, false, false)] := by decide +kernel

/-- Gang 1 (channels 4 to 7) of axis 9 in MODE `m`: stepper (1) or encoder (2); `l` steps left, forwards. -/
def gang1 (kind m l : Nat) : State :=
  let s := ((((up.setBoth (R.PC_STP_CTRL_GANG 4) kind).setBoth (R.PC_CTRL_AXIS 4) 9).setBoth (R.PC_CTRL_AXEN 4) 1).setBoth (R.AX_CTRL_MODE 9) m).setBoth (R.PC_STP_CTRL_ENC 4) 3
  s.setGang 1 { s.gang 1 with left := l }
def limited (s : State) : State := (s.setBoth (R.PC_STP_CTRL_LIMHW 4) 1).set (R.AX_STATUS_LIMP 9) 1
def chops (st : Nat) (s : State) : State :=
  ((((((((s.setBoth (R.PC_CHP_CTRL_EN 4) 1).setBoth (R.PC_CHP_CTRL_ADAPT 4) 0).setBoth (R.PC_CHP_HYS_HYS 4) 0).setBoth (R.PC_CHP_T_TBLANK 4) 0).setBoth
    (R.PC_CHP_HYS_AZERO 4) 0).setBoth (R.PC_STP_I_IRUN 4) 4).setBoth (R.PC_STP_I_IHOLD 4) 2).set (R.PC_CHP_STATE 4) st)
theorem witness_ShotsAndGangs_gang : (gang1 1 7 3).fa (R.PC_STP_CTRL_GANG 4) = 1 ∧ (gang1 1 7 3).fa (R.AX_CTRL_MODE 9) = 7 ∧ ((gang1 1 7 3).gang 1).left ≠ 0 ∧
    (∀ i < 4, (gang1 1 7 3).f (R.PC_STAT_FROZEN (4 + i)) = 0) ∧ (limited (gang1 1 7 3)).f (R.AX_STATUS_LIMP 9) = 1 ∧ (gang1 2 2 0).fa (R.PC_STP_CTRL_ENC 4) ≠ 31 ∧
    (chops 1 (gang1 1 2 0)).f (R.PC_CHP_STATE 4) = 1 ∧ 2 ≤ (chops 0 (gang1 1 2 0)).fa (R.PC_STP_I_IRUN 4) ∧ ((chops 1 (gang1 1 2 0)).chan 4).neg = false ∧
    (chops 1 (gang1 1 2 0)).f (R.PC_STP_M 4) = 0 ∧ (chops 2 (gang1 1 2 0)).f (R.PC_CHP_STATE 4) = 2 ∧ ((gang1 2 2 0).gang 1).encA = false := by decide
theorem test_gang : (after (.microstep 1) (gang1 1 2 3)).f (R.PC_STP_M 4) = 1 ∧ ((after (.microstep 1) (limited (gang1 1 2 3))).gang 1).left = 0 ∧
    ((after (.encoderEdge 1 true false) (gang1 2 2 0)).gang 1).enc = 1 ∧ (after (.encoderEdge 1 true true) (gang1 2 2 0)).f (R.PC_STP_STAT_ENCERR 4) = 1 ∧
    (after (.chopperSample 4 4) (chops 1 (gang1 1 2 0))).f (R.PC_CHP_STATE 4) = 2 ∧ (after (.gangLanding 1) (gang1 1 2 0)).f (R.AX_AXCAP_POS_BITS 9) = 32 := by decide +kernel
/-- A frozen channel of a phase keeps its chopper's state. -/
theorem test_frozen_chopper : (after (.chopperSample 4 4) ((chops 1 (gang1 1 2 0)).set (R.PC_STAT_FROZEN 5) 1)).f (R.PC_CHP_STATE 4) = 1 ∧
    (after (.chopperSample 4 0) (chops 0 (gang1 1 2 0))).f (R.PC_CHP_STATE 4) = 1 := by decide +kernel
/-- The charge pump of group 1 fails while its high side, channel 7, is on. -/
def pump : State := ((group 1 (valve 1 [])).set (R.HG_CTRL_CPEN 1) 1).set (R.PC_STAT_SEQ 7) 2
theorem witness_ShotsAndGangs_pump : pump.hsChan 1 = 7 ∧ pump.f (R.HG_CTRL_EN 1) = 1 ∧ pump.f (R.HG_CTRL_CPEN 1) = 1 := by decide
theorem test_pump : (after (.chargePumpFault 1) pump).f (R.HG_STAT_CPF 1) = 1 ∧ (after (.chargePumpFault 1) up).f (R.HG_STAT_CPF 1) = 0 := by decide +kernel

/-! ## Belay -/

def pt (o n v : Nat) (f : List Byte) : List Byte := patch f o (leBytes n v)
def conn (i axbase role : Nat) (f : List Byte) : List Byte :=
  let o := 64 + 16 * i
  pt (o + 12) 4 0x3F800000 (pt (o + 8) 2 axbase (pt (o + 4) 4 (i + 7) (pt (o + 3) 1 1 (pt (o + 2) 1 (i + 1) (pt (o + 1) 1 (i + 1) (pt o 1 role f))))))
def zone (i func trig flags so axes rst : Nat) (f : List Byte) : List Byte :=
  let o := 96 + 64 * i
  pt (o + 32) 32 axes (pt (o + 12) 1 rst (pt (o + 8) 4 0x41200000 (pt (o + 4) 4 1000 (pt (o + 3) 1 so (pt (o + 2) 1 flags (pt (o + 1) 1 trig (pt o 1 func f)))))))
/-- A configuration of two connections and three zones (STO, SS1, SLS); guards 0 and 5, the reset input 2; `man` = 4: by hand. -/
def image (man : Nat) : List Byte :=
  let f := List.replicate 292 (0 : Byte)
  let f := pt 14 2 1 (pt 12 2 2 (pt 11 1 3 (pt 10 1 0 (pt 4 4 292 (pt 0 4 0x31594C42 f)))))
  let f := pt 22 2 50 (pt 20 2 100 (pt 19 1 6 (pt 18 1 1 (pt 17 1 5 (pt 16 1 4 f)))))
  let f := pt 34 2 (0x501 + man) (pt 28 2 0x502 (pt 26 2 0x501 (pt 24 2 (0x501 + man) (pt 44 2 5 (pt 42 2 300 (pt 40 2 100 f))))))
  let f := zone 2 2 2 1 9 0x22 2 (zone 1 1 2 1 5 2 0xFF (zone 0 0 0x21 7 3 0x20 2 (conn 1 1 1 (conn 0 5 0 f))))
  pt 288 4 (crc32 (f.take 288)) f
def belay (st : Nat) (f : List Byte) : State := { up.set R.BEL_STAT_STATE st with bel := { up.bel with cfg := f } }
theorem witness_Belay_image : cfgValid (image 0) = true ∧ cfgAccepted (image 0) = true ∧ cfgValid (image 4) = true ∧ cfgValid ((image 0).set 46 9) = false := by
  decide +kernel
/-- The states over that image, and the same without its CRC (the checks of roles and zones do not read it). -/
def plain (man : Nat) : List Byte :=
  let f := pt 16 1 4 (pt 17 1 5 (pt 18 1 1 (List.replicate 292 (0 : Byte))))
  zone 2 2 2 1 9 0x22 2 (zone 1 1 2 1 5 2 0xFF (zone 0 0 0x21 7 3 0x20 2 (pt 11 1 3 (pt 12 2 2 (pt 28 2 0x502 (pt 26 2 0x501 (pt 24 2 (0x501 + man) f)))))))
def bel (f : Bel → Bel) (s : State) : State := { s with bel := f s.bel }
def gin (d : Nat) (s : State) : State := s.set R.BEL_GIN_DEMAND d
theorem witness_Belay : (belay 3 (plain 0)).islOn islBLY = true ∧ (belay 3 (plain 0)).f R.BEL_STAT_STATE = 3 ∧ State.reset.islOn islBLY = true ∧
    cfgRole (plain 0) 0 = 1 ∧ cfgRole (plain 0) 1 = 1 ∧ cfgRole (plain 0) 2 = 2 ∧ cfgRole (plain 0) 7 = 0 ∧ cfgManual (plain 4) 0 = true ∧
    cfgNzone (plain 0) = 3 ∧ cfgNconn (plain 0) = 2 ∧ (cfgZone (plain 0) 1).func = 1 ∧ (belay 3 (plain 0)).zone 0 = 3 ∧
    ((belay 3 (plain 0)).set (zoneFld 2) 1).zone 2 = 1 ∧ bit (cfgZone (plain 0) 2).axmask 5 = true := by decide +kernel
theorem witness_Belay_right : Permits (belay 4 (plain 0)) host R.BEL_CTRL_W 1 ∧ Permits (belay 5 (plain 0)) host R.BEL_CFGW_CTL 1 ∧
    Permits (belay 3 (plain 0)) host R.BEL_ZREQ_W 7 ∧ Permits (belay 3 (plain 0)) host R.BEL_ZRST_W 7 ∧
    Permits (belay 3 (plain 0)) host (R.BEL_CONNF_W 7) 0xFFFFFFFF ∧ Permits (belay 3 (plain 0)) host R.BEL_SORST_W 15 :=
  ⟨may_of (by decide), may_of (by decide), may_of (by decide), may_of (by decide), may_of (by decide), may_of (by decide)⟩
/-- No copy is good: Belay is FAULTED. -/
theorem test_belay_vote : (after .configVote (belay 1 [])).f R.BEL_STAT_STATE = 4 := by decide +kernel
theorem test_belay : (after (.sealOpen true) (belay 3 (plain 0))).f R.BEL_STAT_STATE = 5 ∧
    (after (.guardDemand 0) ((belay 3 (plain 0)).set (zoneFld 1) 0)).zone 1 = 0 ∧ (after (.guardDemand 1) ((belay 3 (plain 0)).set (zoneFld 1) 0)).zone 1 = 2 ∧
    (after (.ss1TimerExpiry 1) ((belay 3 (plain 0)).set (zoneFld 1) 2)).zone 1 = 3 ∧
    (after (.resetAction 2) ((belay 3 (plain 0)).set (zoneFld 0) 4)).zone 0 = 0 ∧ (after (.resetAction 2) (gin 32 ((belay 3 (plain 0)).set (zoneFld 0) 4))).zone 0 = 4 ∧
    (after (.oscCheckWindow true false) (belay 3 (plain 0))).f R.BEL_STAT_STATE = 4 := by decide +kernel
theorem test_belay_connections : (after (.connectionWatchdog 0) (bel (fun b => { b with conns := [(0, { miss := 5 })] }) (belay 3 (plain 0)))).f (connfFld 0) = 1 ∧
    (after (.stoConfirmTimeout 1) (bel (fun b => { b with conns := [(1, { req := [some 0xFFFFFFFC] })] }) (belay 3 (plain 0)))).f R.BEL_DIAG_STOCONF = 1 ∧
    (after (.sorst host 15) (((belay 3 (plain 0)).set ⟨R.BEL_SO, 9, 9⟩ 1).set (R.PC_STAT_GBOTH 19) 1)).f ⟨R.BEL_SO, 9, 9⟩ = 1 := by decide +kernel

/-- In TEST with guard 0 by hand, opened and not closed yet: GTTIME faults, but a closing with its stamp wins. -/
def tested : State := bel (fun b => { b with opened := 1 }) (belay 2 (plain 4))
theorem witness_Belay_gttime : bit tested.bel.opened 0 = true ∧ cfgManual (plain 4) 0 = true ∧ bit tested.bel.tested 0 = false ∧
    (∀ i < 8, i ≠ 0 → cfgRole (plain 4) i = 1 → cfgManual (plain 4) i = true → bit tested.bel.tested i = true) := by decide +kernel
theorem test_gttime : (after .gttimeExpiry tested).f R.BEL_STAT_STATE = 4 ∧
    (after .gttimeExpiry (incoming [.guardDemandEnd 0] tested)).f R.BEL_STAT_STATE = 2 ∧
    (after .gttimeExpiry (incoming [.guardDemandEnd 1] tested)).f R.BEL_STAT_STATE = 4 := by decide +kernel
/-- Zone 2 (SLS at 10.0, axes 1 and 5) watches axis 5, the first of connection 1, whose speed unit is 1.0. -/
def watches (spd : List Nat) (seen : List Nat) : State :=
  bel (fun b => { b with conns := [(1, { spd := spd, readBy := seen })] }) ((belay 3 (conn 1 5 1 (plain 0))).set (zoneFld 2) 1)
theorem witness_Belay_sls : (watches [11] []).axConn 5 = some 1 ∧ (watches [11] []).zone 2 = 1 ∧ cfgSlsN (conn 1 5 1 (plain 0)) = 1 ∧
    F32.gt 0x41300000 (cfgZone (conn 1 5 1 (plain 0)) 2).slslim = true := by decide +kernel
/-- Each accepted container is read once for each zone. -/
theorem test_sls : (after (.slsReading 2 5) (watches [11] [])).zone 2 = 3 ∧ (after (.slsReading 2 5) (watches [10] [])).zone 2 = 1 ∧
    (after (.slsReading 2 5) (watches [11] [517])).zone 2 = 1 ∧ (after (.slsReading 2 5) (watches [] [])).zone 2 = 1 ∧
    ((after (.slsReading 2 5) (watches [10] [])).bconn 1).readBy = [517] := by decide +kernel

/-! ## Duplex -/

/-- Rings 0 and 1 served and sending; the duplex state; a partner on lane 0 that is HOT. -/
def dring (r : Nat) (s : State) : State := ((s.set (R.RING_CTRL_DUPLEX r) 1).set (R.RING_STAT_STATE r) 5).set (R.RING_CTRL_EN r) 1
def duplex (st : Nat) : State :=
  ((((dring 0 (dring 1 up)).set R.DX_CTRL_EN 1).set R.DX_CTRL_RINGMASK 3).set R.DX_STAT_STATE st).set R.DX_STAT_ACTIVE (if st = 2 then 1 else 0)
def dx (f : Dx → Dx) (s : State) : State := { s with dx := f s.dx }
def partner (s : State) : State := dx (fun d => { d with pState := 4, pHot := true }) ((s.set R.DX_STAT_PARTNER 1).set R.DX_STAT_LANE0_UP 1)
def beat (c : Nat) (s : State) : State := dx (fun d => { d with beatPeer := some c, beatRing := some c }) s
def splice (p : Splice) (s : State) : State := dx (fun d => { d with splice := some p }) s
theorem witness_Duplex : PermitsF up host R.DX_CTRL_EN 1 ∧ PermitsF (duplex 2) host R.DX_CTRL_EN 0 ∧ PermitsF (duplex 2) host R.DX_CTRL_FENCE 1 ∧
    PermitsF (duplex 5) host R.DX_CTRL_REJOIN 1 ∧ PermitsF (duplex 2) host R.DX_CTRL_TBCLR 1 ∧ PermitsF (partner (duplex 2)) host R.DX_CTRL_SWITCH 1 ∧
    PermitsF (duplex 4) host R.DX_LIVE_KICK 1 ∧ (duplex 5).dxSt = 5 ∧ (partner (duplex 2)).peerUp = true ∧ (partner (duplex 2)).dx.splice = none ∧
    (∀ r < 4, (partner (duplex 2)).duplexRing r = true → (partner (duplex 2)).f (R.RING_STAT_STATE r) = 5) ∧
    (beat 0xFFFFFFFD (partner (duplex 4))).dx.beat = some 0xFFFFFFFD ∧ dt (duplex 4).cyc 0xFFFFFFFD = 3 ∧ dt (duplex 4).cyc 0xFFFFFFFE = 2 ∧
    ((partner (duplex 2)).set R.DX_STAT_PEER_LINK_DOWN 1).f R.DX_STAT_PEER_LINK_DOWN = 1 :=
  ⟨mayF_of (by decide), mayF_of (by decide), mayF_of (by decide), mayF_of (by decide), mayF_of (by decide), mayF_of (by decide), mayF_of (by decide),
    by decide, by decide, by decide, by decide, by decide, by decide, by decide, by decide⟩
theorem witness_Duplex_knots : ∀ k < 64, (partner (duplex 2)).f (R.K_STAT_STATE k) < 3 := by decide
theorem test_duplex_commands : (after (.duplexEnable host) (duplex 0)).dxSt = 1 ∧ (after (.duplexFence host) (duplex 2)).dxSt = 5 ∧
    (after (.duplexRejoin host) (duplex 5)).dxSt = 1 ∧ (after (.switch host) (partner (duplex 2))).dx.splice = some ⟨8, false, true⟩ ∧
    (after (.switch host) (duplex 2)).dx.wantSwitch = true ∧ (after .spliceAbort (splice ⟨2, true, true⟩ (duplex 4))).dx.abort = false ∧
    (after .spliceAbort (splice ⟨2, false, true⟩ (duplex 4))).dx.abort = true := by decide +kernel
theorem test_duplex_events : (after .takeover (beat 0xFFFFFFFD (partner (duplex 4)))).dxSt = 2 ∧ (after .takeover (beat 0xFFFFFFFE (partner (duplex 4)))).dxSt = 4 ∧
    (after .mirrorLate (dx (fun d => { d with lateRow := 7 }) (duplex 4))).f R.DX_STAT_HOTLOST = 1 ∧ (after .mirrorLate (dx (fun d => { d with lateRow := 6 }) (duplex 4))).dxSt = 4 ∧
    (after .peerLinkLost (duplex 4)).f R.DX_STAT_PEER_LINK_DOWN = 1 ∧ (after (.peerMessageReceive 0 (.heartbeat 3 1 2 true)) (duplex 4)).f R.DX_STAT_PARTNER = 1 := by
  decide +kernel
/-- A permitted kick with the stamp of the watchdog's expiry wins. -/
theorem test_live_tie : (after .liveWatchdogExpiry (duplex 2)).dxSt = 5 ∧ (after .liveWatchdogExpiry (incoming [.liveKick host] (duplex 2))).dxSt = 2 ∧
    (after .liveWatchdogExpiry (incoming [.liveKick ⟨.core, 5, 3, some 2⟩] (duplex 2))).dxSt = 5 := by decide +kernel
/-- The class A record of axis 5 in MODE 2; the eighth good END in a row after the full copy makes the standby HOT. -/
def record : AxMirror := { up.axMirror 5 with mode := 2, posPrev := 77, fbRun := 3 }
def mirrors (n : Nat) : State := dx (fun d => { d with recv := [.classA record], inRow := n, full := true }) (partner (duplex 3))
theorem witness_Duplex_mirror : (mirrors 7).peerUp = true ∧ (mirrors 7).dx.recv = [.classA record] ∧ record.axis = 5 ∧ (mirrors 7).dx.holdWake = none ∧
    (mirrors 7).dx.wait = [] := by decide +kernel
theorem test_mirror : (after (.mirrorRecordReceive (.endOf 1 1 true)) (mirrors 7)).dxSt = 4 ∧ (after (.mirrorRecordReceive (.endOf 1 1 true)) (mirrors 6)).dxSt = 3 ∧
    (after (.mirrorRecordReceive (.endOf 1 1 true)) (mirrors 7)).fa (R.AX_CTRL_MODE 5) = 2 ∧
    (after (.mirrorRecordReceive (.endOf 1 1 false)) (mirrors 7)).dx.inRow = 0 := by decide +kernel

/-! ## Logline and fids -/

def entryOf (src cls : Nat) : LEntry := ⟨src, false, cls, 3, 1, 5, 6, 7, 0, [1, 2, 3, 4, 5, 6], false, false⟩
/-- The logline READY with `n` entries in its FIFO and one under way. -/
def logs (n : Nat) : State :=
  { up.set R.LL_STAT_STATE 1 with log := { up.log with committing := some (entryOf 9 1), fifo := List.replicate n (entryOf 4 1) } }
def log (f : Logline → Logline) (s : State) : State := { s with log := f s.log }
theorem witness_Logline : up.fid.firing = none ∧ (logs 110).log.held = 111 ∧ (logs 111).log.held = 112 ∧ (logs 127).log.held = 128 ∧ (logs 0).log.tAdm 130 = none ∧
    (logs 0).log.lastGasp = none ∧ (logs 0).log.committing = some (entryOf 9 1) ∧ (entryOf 9 1).data.length = 6 ∧ up.fid.pend = [] ∧ up.fid.wfail = false ∧
    up.pmu.saveWait = false ∧ up.pmu.off4 = false ∧ up.f R.PMU_STAT_STEP ≠ 5 ∧ up.f R.LL_STAT_STATE = 0 ∧ up.f R.LL_SCAN_MIS = 0 := by decide
theorem test_log : (after (.logReport 65 3 3 [1]) (logs 111)).log.fifo.length = 112 ∧ (after (.logReport 65 1 3 [1]) (logs 111)).f R.LL_LOST_TOTAL = 1 ∧
    (after (.logReport 65 3 3 [1]) (logs 127)).log.latches.length = 1 ∧ (after (.logReport 4 1 3 [1]) (logs 1)).log.fifo.map (·.count) = [2] ∧
    (after .latchAdmit (log (fun l => { l with latches := [entryOf 65 3] }) (logs 0))).log.fifo.length = 1 := by decide +kernel
theorem test_log_commit : let t := after (.logCommitDone true true) (logs 0)
    t.head = 2 ∧ t.rd 0x04000048 2 = 9 ∧ t.rd 0x04400048 2 = 9 := by decide +kernel
def readsLog (q : Nat) (w : Option Nat) : State := log (fun l => { l with reads := [⟨q, w⟩] }) (((logs 0).setHead 8).setOldest 1)
theorem witness_Logline_reads : (readsLog 7 (some 255)).head = 8 ∧ (readsLog 8 none).log.reads = [⟨8, none⟩] ∧
    Permits up host R.LL_RD_SEQ_LO_W 0xFFFFFFFF ∧ Permits up host (R.LW_SEQ_LO_W 255) 7 ∧ Permits up host (R.LW_GO 255) (2 ^ 31 + 3) ∧
    Permits (up.set R.BEL_STAT_STATE 5) host R.LL_ERASE (2 ^ 31 + 15) ∧ (log (fun l => { l with erase := some 9 }) (logs 0)).log.eraseAborted = false :=
  ⟨by decide, by decide, may_of (by decide), may_of (by decide), may_of (by decide), may_of (by decide), by decide⟩
theorem test_log_reads : (after .logReadDone (readsLog 8 none)).reg R.LL_RD_STAT = 32 ∧
    (after .logScanDone up).head = 1 ∧ (after (.logEraseDone 65535) (log (fun l => { l with erase := some 9 }) (logs 0))).f R.LL_ERASE_RESULT = 2 ∧
    (after .sysClockLoss (logs 0)).f R.LL_STAT_STATE = 4 := by decide +kernel
/-- Reads queue up, one for each window; a second for a window takes the place of its first. -/
theorem test_log_read_queue : (after (.logRead host 6) (readsLog 7 (some 255))).log.reads = [⟨7, some 255⟩, ⟨6, none⟩] ∧
    (after (.logRead host 6) (readsLog 7 none)).log.reads = [⟨6, none⟩] ∧ (after .logReadDone (readsLog 8 none)).log.reads = [] := by decide +kernel
/-- A fid slot 5 with source `src`, armed; running at shot `m` of 3. -/
def fids (src : Nat) : State := ({ up with fid := { up.fid with armedUntil := some 5 } }.set R.FID_CTRL_ARMED 1).set (R.FS_SRC_SRC 5) src
def fires (m src : Nat) : State := (fids src).setFidSlot 5 ⟨true, m, 3⟩
def unlocked (t : Nat) : State := { up with fid := { up.fid with unlockAt := some 0 }, tim := { up.tim with clk := t } }
theorem witness_Fids : Permits up host R.FID_UNLOCK_W 0x0000F1D0 ∧ Permits (unlocked 1000000) host R.FID_UNLOCK_W 0x00000F1D ∧ Permits (fids 64) host R.FID_CTRL 1 ∧
    PermitsF (fires 1 64) host (R.FS_CTRL_STOP 5) 1 ∧ Permits (fids 64) host (R.FS_CTRL 5) (2 ^ 31 + 65535) ∧
    SMap.wf (fun _ => ({} : FidSlot)) (fires 1 64).fid.slots = true ∧ 0 ≤ dt ((fids 64).f (R.FS_T0 5)) (fids 64).gnow ∧ (fids 64).f R.FID_CTRL_ARMED = 1 ∧
    6149 / 2048 = 3 ∧ 6149 % 8 ≠ 6 ∧ 14 * 2048 ≤ 0x7000 ∧ (fids 64).islOn islSYS = true ∧ (fids 6149).islOn islDSP = true :=
  ⟨may_of (by decide), may_of (by decide), may_of (by decide), mayF_of (by decide), may_of (by decide),
    by decide, by decide, by decide, by decide, by decide, by decide, by decide, by decide⟩
theorem test_fids : (after (.fidUnlock host 0x00000F1D) (unlocked 1000000)).f R.FID_CTRL_ARMED = 1 ∧
    (after (.fidUnlock host 0x00000F1D) (unlocked 1000001)).f R.FID_CTRL_ARMED = 0 ∧ (after (.fidSlotGo host 5 3) (fids 64)).f (R.FS_STAT_RESULT 5) = 1 ∧
    (after (.fidSlotGo host 5 3) (fids 65)).f (R.FS_STAT_RESULT 5) = 5 ∧ (after (.fidSlotGo host 5 3) (fids 0x7000)).f (R.FS_STAT_RESULT 5) = 4 ∧
    (after (.fidFire 5) (fires 2 64)).f (R.FS_STAT_RESULT 5) = 2 ∧ (after (.fidFire 5) (fires 1 64)).f R.FID_FIRED_CNT = 1 := by decide +kernel

/-! ## Power, boot, hosts -/

def pmu (f : Pmu → Pmu) (s : State) : State := { s with pmu := f s.pmu }
def mls (n : Nat) : State := up.set R.PMU_STAT_STEP n
theorem witness_Power : Permits up host R.PMU_PD_REQ_W 0xFFFFFF ∧ Permits up host R.PMU_ISLRST (2 ^ 31 + 40) ∧ Permits up host R.PMU_ISLRST (2 ^ 31 + 41) ∧
    Permits up host (R.PMU_ISL 32) 3 ∧ PermitsF up host R.AON_STANDBY_GO 1 ∧ PermitsF up host R.PMU_CTRL_SHUTDOWN 1 ∧ PermitsF up host R.PMU_SAVE_CTRL_GO 1 ∧
    PermitsF up host R.PMU_CTRL_SWRESET 1 ∧ up.islOn 40 = true ∧ (∀ c ∈ islCores 40, up.f (R.DSP_CORE_ONLINE c) = 0) ∧ up.pmu.cur = none ∧ up.pmu.save = none ∧
    up.saveLen ≤ 0x200000 ∧ up.halfValid 0 = false :=
  ⟨may_of (by decide), may_of (by decide), may_of (by decide), may_of (by decide), mayF_of (by decide), mayF_of (by decide), mayF_of (by decide), mayF_of (by decide),
    by decide, by decide, by decide, by decide, by decide +kernel, by decide +kernel⟩
theorem test_power : (after .pfAssert (up.set R.PMU_MLS_CTRL_EN 1)).f R.PMU_STAT_STEP = 1 ∧
    (after .pfRelease ((mls 1).set R.PMU_CTRL_PFRECOVER 1)).f R.PMU_STAT_STEP = 0 ∧ (after (.islandReset host 41) up).f R.PMU_ISLRST_REFUSED = 1 := by decide +kernel
theorem test_power_domains : (after .domainSwitchDone (pmu (fun p => { p with cur := some (5, true) }) (up.set R.PMU_PD_STAT_PD 0xF))).f R.PMU_PD_STAT_PD = 0x2F ∧
    (after (.islandReset host 40) up).pmu.rst = some 40 ∧ (after (.oppChange host 3 3) up).f (R.PMU_ISL_OPP 3) = 3 := by decide +kernel

def fuse (f : Boot → Boot) (s : State) : State := { s with boot := f s.boot }
def writes (src dst len : Nat) : State := ((up.set R.DOM_MWR_SRC (src / 4)).set R.DOM_MWR_DST (dst / 4)).set R.DOM_MWR_LEN len
theorem witness_Boot : PermitsF up host R.DOM_FUSEPROG_GO 1 ∧ PermitsF up host R.DOM_MWR_CTL_GO 1 ∧ PermitsF up host R.DOM_BOOT_CTRL_DBGOPEN 1 ∧
    Permits up host (R.PCIE_MSIX_SEND_W 63) 7 ∧ PermitsF up host R.PIN_CMT_GO 1 ∧ PermitsF up host R.PIN_CMT_NOW 1 ∧
    PermitsF up host (R.PCIE_CH_CTRL_GO 5) 1 ∧ PermitsF up host (R.PCIE_CH_CTRL_STOP 5) 1 ∧ Permits up host (R.PCIE_TXQ_TAIL_W 1) 8191 ∧
    PermitsF up host R.SNP_MBX_ACK 1 ∧ PermitsF up host R.SNP_CTRL_SWAPNOW 1 ∧ up.range 0x800000000 = some .outbound ∧
    up.check host 0x800000000 4 7 .write = .ok ∧ up.check host 0x800000000 4 0 .read = .ok ∧ up.boot.prog = none ∧ up.boot.mwr = none ∧ up.host.fill = none :=
  ⟨mayF_of (by decide), mayF_of (by decide), mayF_of (by decide), may_of (by decide), mayF_of (by decide), mayF_of (by decide), mayF_of (by decide), mayF_of (by decide),
    may_of (by decide), mayF_of (by decide), mayF_of (by decide), by decide, by decide, by decide, by decide, by decide, by decide⟩
/-- MRAM writes that end at a part's last word, and one word beyond. -/
theorem test_boot : (after (.mramWrite host) (writes 0x2000 0x1DFFF8 8)).f R.DOM_MWR_CTL_RESULT = 1 ∧ (after (.mramWrite host) (writes 0x2000 0x1DFFFC 8)).f R.DOM_MWR_CTL_RESULT = 3 ∧
    (after .fuseProgramDone (fuse (fun b => { b with prog := some (true, 3) }) up)).boot.minver = 8 ∧
    (after .fuseProgramDone (fuse (fun b => { b with prog := some (false, 3) }) up)).boot.keyrev = 8 ∧ (after (.dramTrainingDone false) up).f R.DOM_DRAM_TRAINERR = 1 ∧
    (after (.msixSend host 63 7) up).host.msix = some (63, 7) ∧ (after (.pcieOutbound host true 0x800000000 .b4 7) up).resp = .accessError := by decide +kernel
theorem test_mram_copy : let t := after (.mramWriteDone true) (fuse (fun b => { b with mwr := some (0x2000, 0x100, 4) }) (up.wr 0x2000 4 7))
    t.rd 0x04C00100 4 = 7 ∧ t.f R.DOM_MWR_CTL_RESULT = 2 := by decide +kernel
/-- DMA channel 5 with its descriptor at 0x20000: 16 bytes from 0x30000 to 0x40000; none; and one beyond the greatest length. -/
def dma (len : Nat) : State :=
  (((up.set (R.PCIE_CH_HEAD_LO_HEAD 5) (0x20000 / 32)).wr 0x20000 4 0x30000).wr 0x20008 4 0x40000).wr 0x20010 4 len
theorem witness_Dma : (dma 16).dma 5 = none ∧ (dma 16).memVerdict ((dma 16).dmaWho 5) 0x20000 32 .read = .ok ∧ (dma 16).range 0x20000 = some .sram ∧
    leAt ((dma 16).bytes 0x20000 32) 16 4 = 16 ∧ (dma 16).dmaSpan ((dma 16).dmaWho 5).dom 0x30000 16 .read = true ∧
    (dma 16).dmaSpan ((dma 16).dmaWho 5).dom 0x40000 16 .write = true ∧ (dma 16).dma 4 = none ∧
    ((dma 16).set (R.PCIE_CH_HEAD_HI_HEAD 5) 8).memVerdict ((dma 16).dmaWho 5) 0x800020000 32 .read ≠ .ok := by decide +kernel
theorem test_dma : (after (.dmaStart host 5) (dma 16)).f (R.PCIE_CH_STAT_BUSY 5) = 1 ∧ (after (.dmaStart host 5) (dma 0)).f (R.PCIE_CH_STAT_REASON 5) = 1 ∧
    (after (.dmaStart host 5) (dma 16777217)).f (R.PCIE_CH_STAT_REASON 5) = 1 ∧
    (after (.dmaDescriptorDone 5) ((up.wr 0x30000 4 9).setDma 5 (some ⟨0x20000, 0x30000, 0x40000, 4, 0, 0, false⟩))).rd 0x40000 4 = 9 := by decide +kernel
/-- A broadcast frame of `n` bytes of type `ty`, with a good FCS. -/
def etherFrame (n ty : Nat) : List Byte :=
  let b := List.replicate 6 0xFF ++ List.replicate 6 3 ++ (leBytes 2 ty).reverse ++ [0, 1] ++ List.replicate (n - 20) 7
  b ++ leBytes 4 (crc32 b)
/-- The Ethernet enabled, queue 1 of four receive descriptors, the first one the hardware's; a transmit queue with one of `len` bytes. -/
def ether : State :=
  (((((up.set R.PCIE_ETH_CTRL_EN 1).set (R.PCIE_RXQ_BASE_LO 1) (0x20000 / 16)).set (R.PCIE_RXQ_SIZE 1) 4).set (R.PCIE_RXQ_TAIL 1) 3).wr 0x20000 4 0x30000).wr 0x20004 4 (2 ^ 31)
def sends (len : Nat) : State :=
  (((((up.set R.PCIE_ETH_CTRL_EN 1).set (R.PCIE_TXQ_BASE_LO 0) (0x20000 / 16)).set (R.PCIE_TXQ_SIZE 0) 4).set (R.PCIE_TXQ_TAIL 0) 3).wr 0x20000 4 0x30000).wr 0x20004 4 (2 ^ 31)
    |>.wr 0x20008 4 len
theorem witness_Ether : ether.ethOn = true ∧ up.ethOn = false ∧ (etherFrame 64 7).length = 64 ∧ crc32 ((etherFrame 64 7).take 60) = leAt (etherFrame 64 7) 60 4 ∧
    beAt (etherFrame 64 0x8808) 12 2 = 0x8808 ∧ beAt (etherFrame 64 0x8808) 14 2 = 1 ∧ ether.daMatch ((etherFrame 64 7).take 6) = true ∧
    ether.daMatch [2, 3, 3, 3, 3, 3] = false ∧ ptpFind (etherFrame 64 7) = none ∧ ether.rxDesc 1 = 0x20000 ∧ ether.queueStopped true 1 = false ∧
    ether.memVerdict ether.ethWho 0x30000 1536 .write = .ok ∧ (sends 59).rd 0x20008 4 = 59 ∧ (sends 60).txDesc 0 = 0x20000 ∧ (sends 60).queueStopped false 0 = false ∧
    up.f R.DSP_TRC_CTRL_EN = 0 := by decide +kernel
theorem test_ether : (after (.plantFrameReceive (etherFrame 64 7)) ether).f R.PCIE_RX_OK = 1 ∧ (after (.plantFrameReceive (etherFrame 63 7)) ether).f R.PCIE_RX_DROP = 1 ∧
    (after (.plantFrameReceive ((etherFrame 64 7).set 20 9)) ether).f R.PCIE_RX_FCS = 1 ∧ (after (.plantFrameReceive (etherFrame 64 0x8808)) ether).f R.PCIE_PAUSE_DROP = 1 ∧
    (after (.plantTxDone 0) (sends 59)).f (qfault false 0) = 1 ∧ (after (.plantTxDone 0) (sends 60)).f R.PCIE_TX_OK = 1 := by decide +kernel
def snapshots : State := up.set R.SNP_CTRL_EN 1
def fills (s : State) : State := { s with host := { s.host with fill := some (3, 4, [5]) } }
theorem witness_Snapshot : snapshots.pdOn 22 = true ∧ (4 * (0x3FFF : BitVec 20).toNat < 0x10000) ∧ 4 * (0x43FF : BitVec 20).toNat = 0x10FFC ∧
    snapshots.host.fill = none ∧ (fills snapshots).host.fill = some (3, 4, [5]) ∧ ¬(3 = snapshots.cyc ∧ 4 = snapshots.gnow) ∧ snapshots.f R.SNP_LEN_LEN = 0 ∧
    SMap.wf memDflt (fills snapshots).host.back = true ∧ snapshots.f R.SNP_CTRL_AXFILL = 0 := by decide
theorem test_snapshot : (after (.snapshotWrite 0x43FF 7) snapshots).f R.SNP_STAT_MBFULL = 1 ∧
    (after (.snapshotWrite 0x43FF 7) (snapshots.set R.SNP_STAT_MBFULL 1)).f R.SNP_MB_DROP = 1 ∧ (after .snapshotSwap (fills snapshots)).f R.SNP_LASTCYC = 3 ∧
    (after (.snapshotSwapnow host) (fills snapshots)).f R.SNP_STAT_OVR = 1 := by decide +kernel

/-! ## Accesses, the queue, the stores -/

/-- Strand 3's release waits before core 5's writes to island DSP; a decided knot holds TB.TCYC; power domain 16 is off. -/
def postedRel : State := { up with dsp := { up.dsp with posted := [⟨3, 0, 0, 0x20008, [1, 2, 3, 4], 5⟩] } }
def lockedKnot : State := (up.set (R.K_STAT_STATE 3) 5).setKnot 3 { ents := [[0x10000000, 0x10310008, 5, 0xFFFFFFFF]] }
def bankOff : State := up.set R.PMU_PD_STAT_PD 0xFEFFFF
def core0q : Requester := ⟨.core, 0, 0, some 2⟩
theorem witness_RegisterAccess : up.memLike 0x10005100 = false ∧ up.memLike 0x20008 = true ∧ up.range 0x20008 = some .sram ∧ up.range 0x04000000 = some .mramLog ∧
    up.range 0x10104000 = none ∧ up.range 0x10005040 = some .ax ∧ Permits up host 0x10005100 7 ∧ specOf 0x10005100 ≠ none ∧ specOf 0x10005014 = none ∧
    up.check host 0x20008 8 7 .write = .ok ∧ up.check ⟨.core, 5, 3, some 2⟩ 0x10005100 4 7 .write = .noRights ∧
    bankOff.check core0q 0x10100000 4 7 .write = .off 36 ∧ up.range 0x10400000 = some .id ∧ lockedKnot.kLocked 0x10310008 = true ∧
    regMask Acc.isRWS 0x10310008 ≠ 0 ∧ postedRel.dsp.posted ≠ [] ∧ up.islOn islSYS = true ∧ up.tim.failed = [] :=
  ⟨by decide, by decide, by decide, by decide, by decide, by decide, may_of (by decide), by decide, by decide, by decide, by decide, by decide,
    by decide, by decide, by decide, by decide, by decide, by decide⟩
theorem test_register_access : (after (.registerWrite host 0x10005100 .b4 7) up).reg 0x10005100 = 7 ∧ (after (.registerWrite host 0x10005101 .b4 7) up).resp = .accessError ∧
    (after (.registerWrite host 0x20008 .b8 0x1122334455667788) up).rd 0x2000C 4 = 0x11223344 ∧ (after (.registerWrite host 0x10104000 .b4 7) up).resp = .accessError ∧
    (after (.registerWrite ⟨.core, 5, 3, some 2⟩ 0x10005100 .b4 7) up).f R.DOM_VIOL_CNT = 1 ∧ (after (.registerWrite core0q 0x10100000 .b4 7) bankOff).f R.PMU_OFFRESP_CNT = 1 := by
  decide +kernel
theorem test_step : step { up with pending := [.railFault 3] } = exec (.railFault 3) { up with pending := [] } ∧ step State.reset = .next State.reset.tick := ⟨rfl, rfl⟩
theorem witness_ResetState : State.reset.canonical = true ∧ State.reset.f R.TB_TCYC = 31250 ∧ State.reset.f R.KE_POOL_FREE = 8192 := by decide
/-- The largest value of every header field fits its bytes. -/
def fullHdr : Hdr := { oui := 0xFFFFFF, proto := 0xFFFF, cycle := 0xFFFFFFFF, tstamp := 0xFFFFFFFF, corr := 0xFFFFFFFF, hops := 255, plen := 28 }
theorem witness_FrameHeaderRoundTrip : fullHdr.Fits := by constructor <;> decide
theorem witness_FrameHeaderRoundTrip_area : let d : Dg := { dtype := 1, node := 3, dlen := 16, ulen := 4, hits := 65535, off := 80 }
    [(d, List.replicate 20 (7 : Byte))].length ≤ 180 ∧ d.hits < 65536 ∧ d.dlen + d.ulen = 20 ∧ d.off = 80 + 0 ∧ fullHdr.plen = 8 + 20 := by decide

/-! ## Forms -/

/-- One ill-formed command for each check, beside the last value it passes. -/
theorem test_wf_requester : (⟨.core, 35, 255, some 1023⟩ : Requester).wf = true ∧ (⟨.core, 35, 256, none⟩ : Requester).wf = false ∧
    (⟨.core, 36, 0, none⟩ : Requester).wf = false ∧ (⟨.dma, 8, 0, none⟩ : Requester).wf = false ∧ (⟨.pcie, 64, 0, none⟩ : Requester).wf = false ∧
    (⟨.port, 3, 0, none⟩ : Requester).wf = false ∧ (⟨.core, 0, 0, some 1024⟩ : Requester).wf = false ∧ (⟨.port, 0, 0, some 0⟩ : Requester).wf = false := by decide
def still : AxisSample := ⟨0, 0, 0, 0, 0, 0, 0⟩
theorem test_wf_commands : (Instr.timeSnap ⟨.port, 3, 0, none⟩).wf = false ∧ (Instr.timedActionArrival 0 (2 ^ 32 - 1) 0 0 (2 ^ 32)).wf = false ∧
    (Instr.timedActionPerform 0 (2 ^ 32)).wf = false ∧ (Instr.nodeSample 0 0 (List.replicate 5 still)).wf = false ∧ (Instr.nodeSample 0 0 (List.replicate 4 still)).wf = true ∧
    (Instr.logReport 0 0 0 (List.replicate 7 0)).wf = false ∧ (Instr.qWriteLand 0 36).wf = false ∧ (Instr.pcieInboundAccess 0 true (2 ^ 40) .b4 0).wf = false := by decide
theorem test_wf_lengths : (Instr.mailboxWrite 0 0 0 0 (List.replicate 2049 0)).wf = false ∧ (Instr.knotPrep 0 0 0 0 0 (List.replicate 2048 0)).wf = true ∧
    (Instr.ringFrameReceive 0 false (List.replicate 16385 0)).wf = false ∧ (Instr.plantFrameReceive (List.replicate 16384 0)).wf = true := by decide +kernel
/-- No row of the table gives bits. -/
theorem test_no_word_spells_a_command : decodeTableWord 32 0 = none ∧ State.reset.withFetchWord 32 0 = State.reset := ⟨rfl, rfl⟩

/-! ## Worked examples of the spec -/

/-- spec/10_lyshief_isa.md, duty words: 0.7 gives 0xB333, 1.0 saturates to 0xFFFF and sets SAT. -/
theorem test_duty_word : ((smvi 0x47800000 0x10000 0x3F333333).run 0).1 = 0xB333 ∧ ((smvi 0x47800000 0x10000 0x3F333333).run 0).2 = 0 ∧
    ((smvi 0x47800000 0x10000 0x3F800000).run 0).1 = 0xFFFF ∧ ((smvi 0x47800000 0x10000 0x3F800000).run 0).2 = F32.flagSAT := by
  decide +kernel
/-- spec/06_repetitive_learning.md: x_m = 500,000, M_OFS = 147,456, PERIOD 1,179,648, 2,048 bins: bin 612, u = 32/576 (truncated, R253). -/
theorem test_bin : ((repBin (500000 * 65536) 147456 1179648 2048).run 0).1 = (612, 0x3D638E38) := by decide +kernel
end Sys2Proof.Tests
end

/-! PROOFS. What holds of every step and of the state after reset (spec/00_scope.md): a step runs the command in front, keeps
the sparse stores canonical and undoes no fuse, and reset gives every register the word of its Reset columns. -/

namespace Sys2Proof.Machine

/-! ## What a step runs -/

theorem step_of_pending_nil {s : State} (h : s.pending = []) : step s = .next s.tick := by
  rw [step, h]

theorem step_of_pending_cons {s : State} {c : Instr} {rest : List Instr} (h : s.pending = c :: rest) :
    step s = exec c { s with pending := rest } := by
  rw [step, h]

/-- Settles O57: both clauses are the two cases of `step`'s match on the queue. -/
theorem stepRunsFrontCommand : Obligations.StepRunsFrontCommand :=
  ⟨fun _ _ _ => step_of_pending_cons rfl, fun _ => step_of_pending_nil⟩

/-! ## Every command keeps the stores, the queue, the counter and the fuses -/

/-- The law of `exec`, one arm per command: its meaning keeps what `Keeps` says (Laws/KeepsOps1 to KeepsOps6). -/
theorem exec_keeps {r s t : State} (i : Instr) (h : Keeps r s) (e : exec i s = .next t) : Keeps r t := by
  cases i with
  | registerWrite => exact execRegisterWrite_keeps (h := h) (e := e)
  | crossingTimerExpiry => exact execCrossingTimerExpiry_keeps (h := h) (e := e)
  | beacon => exact execBeacon_keeps (h := h) (e := e)
  | replicaLock => exact execReplicaLock_keeps (h := h) (e := e)
  | replicaUnlock => exact execReplicaUnlock_keeps (h := h) (e := e)
  | timedActionArrival => exact execTimedActionArrival_keeps (h := h) (e := e)
  | timedActionPerform => exact execTimedActionPerform_keeps (h := h) (e := e)
  | debugHalt => exact execDebugHalt_keeps (h := h) (e := e)
  | haltEnd => exact execHaltEnd_keeps (h := h) (e := e)
  | debugPortReset => exact execDebugPortReset_keeps (h := h) (e := e)
  | portLinkChange => exact execPortLinkChange_keeps (h := h) (e := e)
  | ringPortEnable => exact execRingPortEnable_keeps (h := h) (e := e)
  | ringPortDisable => exact execRingPortDisable_keeps (h := h) (e := e)
  | listenWindowExpiry => exact execListenWindowExpiry_keeps (h := h) (e := e)
  | ringRun => exact execRingRun_keeps (h := h) (e := e)
  | ringRediscover => exact execRingRediscover_keeps (h := h) (e := e)
  | ringHeal => exact execRingHeal_keeps (h := h) (e := e)
  | ringCntclr => exact execRingCntclr_keeps (h := h) (e := e)
  | healTimeout => exact execHealTimeout_keeps (h := h) (e := e)
  | frameSend => exact execFrameSend_keeps (h := h) (e := e)
  | ringFrameReceive => exact execRingFrameReceive_keeps (h := h) (e := e)
  | returnLimitExpiry => exact execReturnLimitExpiry_keeps (h := h) (e := e)
  | nodeMissing => exact execNodeMissing_keeps (h := h) (e := e)
  | nodeRetryExpiry => exact execNodeRetryExpiry_keeps (h := h) (e := e)
  | nodeAccept => exact execNodeAccept_keeps (h := h) (e := e)
  | nodeFrameProcess => exact execNodeFrameProcess_keeps (h := h) (e := e)
  | nodeReverseForward => exact execNodeReverseForward_keeps (h := h) (e := e)
  | nodeAddressTake => exact execNodeAddressTake_keeps (h := h) (e := e)
  | nodeClaimTimeout => exact execNodeClaimTimeout_keeps (h := h) (e := e)
  | nodeSample => exact execNodeSample_keeps (h := h) (e := e)
  | nodeApply => exact execNodeApply_keeps (h := h) (e := e)
  | nodeLostCycle => exact execNodeLostCycle_keeps (h := h) (e := e)
  | nodeLoopback => exact execNodeLoopback_keeps (h := h) (e := e)
  | nodeHealnow => exact execNodeHealnow_keeps (h := h) (e := e)
  | nodeReset => exact execNodeReset_keeps (h := h) (e := e)
  | nodeSafetyWatchdog => exact execNodeSafetyWatchdog_keeps (h := h) (e := e)
  | mailboxNop => exact execMailboxNop_keeps (h := h) (e := e)
  | mailboxRead => exact execMailboxRead_keeps (h := h) (e := e)
  | mailboxWrite => exact execMailboxWrite_keeps (h := h) (e := e)
  | knotPrep => exact execKnotPrep_keeps (h := h) (e := e)
  | knotSeal => exact execKnotSeal_keeps (h := h) (e := e)
  | knotCancel => exact execKnotCancel_keeps (h := h) (e := e)
  | mailboxUnknownOp => exact execMailboxUnknownOp_keeps (h := h) (e := e)
  | cycleBoundary => exact execCycleBoundary_keeps (h := h) (e := e)
  | releaseArrival => exact execReleaseArrival_keeps (h := h) (e := e)
  | seqGapExpiry => exact execSeqGapExpiry_keeps (h := h) (e := e)
  | releaseDeadline => exact execReleaseDeadline_keeps (h := h) (e := e)
  | lateEvent => exact execLateEvent_keeps (h := h) (e := e)
  | markFire => exact execMarkFire_keeps (h := h) (e := e)
  | standardLoopActivation => exact execStandardLoopActivation_keeps (h := h) (e := e)
  | profileDone => exact execProfileDone_keeps (h := h) (e := e)
  | rampedStopEnd => exact execRampedStopEnd_keeps (h := h) (e := e)
  | stepTimeout => exact execStepTimeout_keeps (h := h) (e := e)
  | feedbackLanding => exact execFeedbackLanding_keeps (h := h) (e := e)
  | feTimerExpiry => exact execFeTimerExpiry_keeps (h := h) (e := e)
  | fblossEvent => exact execFblossEvent_keeps (h := h) (e := e)
  | limitInputActive => exact execLimitInputActive_keeps (h := h) (e := e)
  | axisCommitRequest => exact execAxisCommitRequest_keeps (h := h) (e := e)
  | axisCntclr => exact execAxisCntclr_keeps (h := h) (e := e)
  | knotOpen => exact execKnotOpen_keeps (h := h) (e := e)
  | knotAdd => exact execKnotAdd_keeps (h := h) (e := e)
  | knotClose => exact execKnotClose_keeps (h := h) (e := e)
  | knotSlotCancel => exact execKnotSlotCancel_keeps (h := h) (e := e)
  | knotRelease => exact execKnotRelease_keeps (h := h) (e := e)
  | knotAnnounce => exact execKnotAnnounce_keeps (h := h) (e := e)
  | knotDecide => exact execKnotDecide_keeps (h := h) (e := e)
  | knotConfirmEnd => exact execKnotConfirmEnd_keeps (h := h) (e := e)
  | ofsInWrite => exact execOfsInWrite_keeps (h := h) (e := e)
  | rateWrite => exact execRateWrite_keeps (h := h) (e := e)
  | holdover => exact execHoldover_keeps (h := h) (e := e)
  | switchOverStart => exact execSwitchOverStart_keeps (h := h) (e := e)
  | timeSnap => exact execTimeSnap_keeps (h := h) (e := e)
  | epochWrite => exact execEpochWrite_keeps (h := h) (e := e)
  | ptpFifoRead => exact execPtpFifoRead_keeps (h := h) (e := e)
  | teoPush => exact execTeoPush_keeps (h := h) (e := e)
  | teoFlush => exact execTeoFlush_keeps (h := h) (e := e)
  | teoAction => exact execTeoAction_keeps (h := h) (e := e)
  | teoPulseClear => exact execTeoPulseClear_keeps (h := h) (e := e)
  | tciCapture => exact execTciCapture_keeps (h := h) (e := e)
  | tciHeadRead => exact execTciHeadRead_keeps (h := h) (e := e)
  | add => exact execAdd_keeps (h := h) (e := e)
  | sub => exact execSub_keeps (h := h) (e := e)
  | and => exact execAnd_keeps (h := h) (e := e)
  | or => exact execOr_keeps (h := h) (e := e)
  | xor => exact execXor_keeps (h := h) (e := e)
  | shl => exact execShl_keeps (h := h) (e := e)
  | shr => exact execShr_keeps (h := h) (e := e)
  | sar => exact execSar_keeps (h := h) (e := e)
  | mul => exact execMul_keeps (h := h) (e := e)
  | mulh => exact execMulh_keeps (h := h) (e := e)
  | mulhu => exact execMulhu_keeps (h := h) (e := e)
  | div => exact execDiv_keeps (h := h) (e := e)
  | divu => exact execDivu_keeps (h := h) (e := e)
  | rem => exact execRem_keeps (h := h) (e := e)
  | remu => exact execRemu_keeps (h := h) (e := e)
  | min => exact execMin_keeps (h := h) (e := e)
  | max => exact execMax_keeps (h := h) (e := e)
  | minu => exact execMinu_keeps (h := h) (e := e)
  | maxu => exact execMaxu_keeps (h := h) (e := e)
  | clz => exact execClz_keeps (h := h) (e := e)
  | mov => exact execMov_keeps (h := h) (e := e)
  | addi => exact execAddi_keeps (h := h) (e := e)
  | andi => exact execAndi_keeps (h := h) (e := e)
  | ori => exact execOri_keeps (h := h) (e := e)
  | xori => exact execXori_keeps (h := h) (e := e)
  | shi => exact execShi_keeps (h := h) (e := e)
  | movi => exact execMovi_keeps (h := h) (e := e)
  | cmp => exact execCmp_keeps (h := h) (e := e)
  | fadd => exact execFadd_keeps (h := h) (e := e)
  | fsub => exact execFsub_keeps (h := h) (e := e)
  | fmul => exact execFmul_keeps (h := h) (e := e)
  | ffma => exact execFfma_keeps (h := h) (e := e)
  | ffms => exact execFfms_keeps (h := h) (e := e)
  | fdiv => exact execFdiv_keeps (h := h) (e := e)
  | fsqrt => exact execFsqrt_keeps (h := h) (e := e)
  | fmin => exact execFmin_keeps (h := h) (e := e)
  | fmax => exact execFmax_keeps (h := h) (e := e)
  | fabs => exact execFabs_keeps (h := h) (e := e)
  | fneg => exact execFneg_keeps (h := h) (e := e)
  | fclamp => exact execFclamp_keeps (h := h) (e := e)
  | cvtif => exact execCvtif_keeps (h := h) (e := e)
  | cvtuf => exact execCvtuf_keeps (h := h) (e := e)
  | cvtfi => exact execCvtfi_keeps (h := h) (e := e)
  | cvtfu => exact execCvtfu_keeps (h := h) (e := e)
  | ftrunc => exact execFtrunc_keeps (h := h) (e := e)
  | ffloor => exact execFfloor_keeps (h := h) (e := e)
  | fsin => exact execFsin_keeps (h := h) (e := e)
  | fcos => exact execFcos_keeps (h := h) (e := e)
  | smvf => exact execSmvf_keeps (h := h) (e := e)
  | smvi => exact execSmvi_keeps (h := h) (e := e)
  | ldb => exact execLdb_keeps (h := h) (e := e)
  | ldbu => exact execLdbu_keeps (h := h) (e := e)
  | ldh => exact execLdh_keeps (h := h) (e := e)
  | ldhu => exact execLdhu_keeps (h := h) (e := e)
  | ldw => exact execLdw_keeps (h := h) (e := e)
  | ldd => exact execLdd_keeps (h := h) (e := e)
  | stb => exact execStb_keeps (h := h) (e := e)
  | sth => exact execSth_keeps (h := h) (e := e)
  | stw => exact execStw_keeps (h := h) (e := e)
  | std => exact execStd_keeps (h := h) (e := e)
  | b => exact execB_keeps (h := h) (e := e)
  | bl => exact execBl_keeps (h := h) (e := e)
  | br => exact execBr_keeps (h := h) (e := e)
  | blr => exact execBlr_keeps (h := h) (e := e)
  | rep => exact execRep_keeps (h := h) (e := e)
  | nop => exact execNop_keeps (h := h) (e := e)
  | fence => exact execFence_keeps (h := h) (e := e)
  | syscall => exact execSyscall_keeps (h := h) (e := e)
  | eret => exact execEret_keeps (h := h) (e := e)
  | brk => exact execBrk_keeps (h := h) (e := e)
  | waitop => exact execWaitop_keeps (h := h) (e := e)
  | release => exact execRelease_keeps (h := h) (e := e)
  | tagrd => exact execTagrd_keeps (h := h) (e := e)
  | tagwr => exact execTagwr_keeps (h := h) (e := e)
  | kopen => exact execKopen_keeps (h := h) (e := e)
  | kadd => exact execKadd_keeps (h := h) (e := e)
  | kclose => exact execKclose_keeps (h := h) (e := e)
  | biq => exact execBiq_keeps (h := h) (e := e)
  | pi => exact execPi_keeps (h := h) (e := e)
  | piu => exact execPiu_keeps (h := h) (e := e)
  | tint => exact execTint_keeps (h := h) (e := e)
  | rlu => exact execRlu_keeps (h := h) (e := e)
  | bcopy => exact execBcopy_keeps (h := h) (e := e)
  | bfill => exact execBfill_keeps (h := h) (e := e)
  | badd => exact execBadd_keeps (h := h) (e := e)
  | bsub => exact execBsub_keeps (h := h) (e := e)
  | bmul => exact execBmul_keeps (h := h) (e := e)
  | bfma => exact execBfma_keeps (h := h) (e := e)
  | btint => exact execBtint_keeps (h := h) (e := e)
  | bbiq => exact execBbiq_keeps (h := h) (e := e)
  | vadd => exact execVadd_keeps (h := h) (e := e)
  | vsub => exact execVsub_keeps (h := h) (e := e)
  | vmul => exact execVmul_keeps (h := h) (e := e)
  | vfma => exact execVfma_keeps (h := h) (e := e)
  | vfms => exact execVfms_keeps (h := h) (e := e)
  | vmin => exact execVmin_keeps (h := h) (e := e)
  | vmax => exact execVmax_keeps (h := h) (e := e)
  | vclamp => exact execVclamp_keeps (h := h) (e := e)
  | vabs => exact execVabs_keeps (h := h) (e := e)
  | vneg => exact execVneg_keeps (h := h) (e := e)
  | vdiv => exact execVdiv_keeps (h := h) (e := e)
  | vld => exact execVld_keeps (h := h) (e := e)
  | vst => exact execVst_keeps (h := h) (e := e)
  | vsplat => exact execVsplat_keeps (h := h) (e := e)
  | vins => exact execVins_keeps (h := h) (e := e)
  | vext => exact execVext_keeps (h := h) (e := e)
  | clpk => exact execClpk_keeps (h := h) (e := e)
  | ipkc => exact execIpkc_keeps (h := h) (e := e)
  | vsmvf => exact execVsmvf_keeps (h := h) (e := e)
  | vsmvi => exact execVsmvi_keeps (h := h) (e := e)
  | vmov => exact execVmov_keeps (h := h) (e := e)
  | li => exact execLi_keeps (h := h) (e := e)
  | addi32 => exact execAddi32_keeps (h := h) (e := e)
  | andi32 => exact execAndi32_keeps (h := h) (e := e)
  | ori32 => exact execOri32_keeps (h := h) (e := e)
  | xori32 => exact execXori32_keeps (h := h) (e := e)
  | ldw32 => exact execLdw32_keeps (h := h) (e := e)
  | stw32 => exact execStw32_keeps (h := h) (e := e)
  | mfs => exact execMfs_keeps (h := h) (e := e)
  | mts => exact execMts_keeps (h := h) (e := e)
  | tlbinv => exact execTlbinv_keeps (h := h) (e := e)
  | tlbinvd => exact execTlbinvd_keeps (h := h) (e := e)
  | tlbinva => exact execTlbinva_keeps (h := h) (e := e)
  | icinv => exact execIcinv_keeps (h := h) (e := e)
  | dcfl => exact execDcfl_keeps (h := h) (e := e)
  | dcfla => exact execDcfla_keeps (h := h) (e := e)
  | remoteAccessComplete => exact execRemoteAccessComplete_keeps (h := h) (e := e)
  | qWriteLand => exact execQWriteLand_keeps (h := h) (e := e)
  | accessAsync => exact execAccessAsync_keeps (h := h) (e := e)
  | interruptEntry => exact execInterruptEntry_keeps (h := h) (e := e)
  | strandStart => exact execStrandStart_keeps (h := h) (e := e)
  | strandStop => exact execStrandStop_keeps (h := h) (e := e)
  | strandResume => exact execStrandResume_keeps (h := h) (e := e)
  | strandEnd => exact execStrandEnd_keeps (h := h) (e := e)
  | strandMigrate => exact execStrandMigrate_keeps (h := h) (e := e)
  | tagValueWrite => exact execTagValueWrite_keeps (h := h) (e := e)
  | strandPlace => exact execStrandPlace_keeps (h := h) (e := e)
  | prefetch => exact execPrefetch_keeps (h := h) (e := e)
  | prefetchDone => exact execPrefetchDone_keeps (h := h) (e := e)
  | preempt => exact execPreempt_keeps (h := h) (e := e)
  | affwinExpiry => exact execAffwinExpiry_keeps (h := h) (e := e)
  | drainComplete => exact execDrainComplete_keeps (h := h) (e := e)
  | drainlate => exact execDrainlate_keeps (h := h) (e := e)
  | coreOffreq => exact execCoreOffreq_keeps (h := h) (e := e)
  | coreOnreq => exact execCoreOnreq_keeps (h := h) (e := e)
  | softInterrupt => exact execSoftInterrupt_keeps (h := h) (e := e)
  | parkedViewSelect => exact execParkedViewSelect_keeps (h := h) (e := e)
  | channelCommitRequest => exact execChannelCommitRequest_keeps (h := h) (e := e)
  | groupCommitRequest => exact execGroupCommitRequest_keeps (h := h) (e := e)
  | carrierPeriodStart => exact execCarrierPeriodStart_keeps (h := h) (e := e)
  | syncinEdge => exact execSyncinEdge_keeps (h := h) (e := e)
  | syncLoss => exact execSyncLoss_keeps (h := h) (e := e)
  | syncoutPulseEnd => exact execSyncoutPulseEnd_keeps (h := h) (e := e)
  | compareEdge => exact execCompareEdge_keeps (h := h) (e := e)
  | ovrWrite => exact execOvrWrite_keeps (h := h) (e := e)
  | pulseSet => exact execPulseSet_keeps (h := h) (e := e)
  | enRise => exact execEnRise_keeps (h := h) (e := e)
  | gateSenseChange => exact execGateSenseChange_keeps (h := h) (e := e)
  | goffTimeout => exact execGoffTimeout_keeps (h := h) (e := e)
  | gonTimeout => exact execGonTimeout_keeps (h := h) (e := e)
  | overcurrentDetect => exact execOvercurrentDetect_keeps (h := h) (e := e)
  | adcConversion => exact execAdcConversion_keeps (h := h) (e := e)
  | channelEnable => exact execChannelEnable_keeps (h := h) (e := e)
  | channelCntclr => exact execChannelCntclr_keeps (h := h) (e := e)
  | groupCntclr => exact execGroupCntclr_keeps (h := h) (e := e)
  | shotPush => exact execShotPush_keeps (h := h) (e := e)
  | shotFlush => exact execShotFlush_keeps (h := h) (e := e)
  | shotAbort => exact execShotAbort_keeps (h := h) (e := e)
  | shotStart => exact execShotStart_keeps (h := h) (e := e)
  | deferredShotStart => exact execDeferredShotStart_keeps (h := h) (e := e)
  | shotPeakEnd => exact execShotPeakEnd_keeps (h := h) (e := e)
  | holdPeriodStart => exact execHoldPeriodStart_keeps (h := h) (e := e)
  | shotEnd => exact execShotEnd_keeps (h := h) (e := e)
  | chargePumpFault => exact execChargePumpFault_keeps (h := h) (e := e)
  | haltDwellExpiry => exact execHaltDwellExpiry_keeps (h := h) (e := e)
  | microstep => exact execMicrostep_keeps (h := h) (e := e)
  | holdCurrentTimeout => exact execHoldCurrentTimeout_keeps (h := h) (e := e)
  | chopperSample => exact execChopperSample_keeps (h := h) (e := e)
  | fastDecayEnd => exact execFastDecayEnd_keeps (h := h) (e := e)
  | encoderEdge => exact execEncoderEdge_keeps (h := h) (e := e)
  | gangLanding => exact execGangLanding_keeps (h := h) (e := e)
  | belayPowerUp => exact execBelayPowerUp_keeps (h := h) (e := e)
  | configVote => exact execConfigVote_keeps (h := h) (e := e)
  | belayTestDone => exact execBelayTestDone_keeps (h := h) (e := e)
  | gttimeExpiry => exact execGttimeExpiry_keeps (h := h) (e := e)
  | belayRestart => exact execBelayRestart_keeps (h := h) (e := e)
  | sealOpen => exact execSealOpen_keeps (h := h) (e := e)
  | configWrite => exact execConfigWrite_keeps (h := h) (e := e)
  | configWriteDone => exact execConfigWriteDone_keeps (h := h) (e := e)
  | guardTestPulse => exact execGuardTestPulse_keeps (h := h) (e := e)
  | guardDemand => exact execGuardDemand_keeps (h := h) (e := e)
  | resetAction => exact execResetAction_keeps (h := h) (e := e)
  | zoneRequest => exact execZoneRequest_keeps (h := h) (e := e)
  | zoneReset => exact execZoneReset_keeps (h := h) (e := e)
  | ss1TimerExpiry => exact execSs1TimerExpiry_keeps (h := h) (e := e)
  | slsReading => exact execSlsReading_keeps (h := h) (e := e)
  | connectionWatchdog => exact execConnectionWatchdog_keeps (h := h) (e := e)
  | stoConfirmTimeout => exact execStoConfirmTimeout_keeps (h := h) (e := e)
  | connfClear => exact execConnfClear_keeps (h := h) (e := e)
  | gbothRequest => exact execGbothRequest_keeps (h := h) (e := e)
  | sorst => exact execSorst_keeps (h := h) (e := e)
  | safeOffTestPulse => exact execSafeOffTestPulse_keeps (h := h) (e := e)
  | safeOffFeedbackFault => exact execSafeOffFeedbackFault_keeps (h := h) (e := e)
  | oscCheckWindow => exact execOscCheckWindow_keeps (h := h) (e := e)
  | configCrcCheck => exact execConfigCrcCheck_keeps (h := h) (e := e)
  | duplexEnable => exact execDuplexEnable_keeps (h := h) (e := e)
  | duplexDisable => exact execDuplexDisable_keeps (h := h) (e := e)
  | heartbeatSend => exact execHeartbeatSend_keeps (h := h) (e := e)
  | peerMessageReceive => exact execPeerMessageReceive_keeps (h := h) (e := e)
  | partnerLost => exact execPartnerLost_keeps (h := h) (e := e)
  | peerLinkLost => exact execPeerLinkLost_keeps (h := h) (e := e)
  | peerLinkReturn => exact execPeerLinkReturn_keeps (h := h) (e := e)
  | takeover => exact execTakeover_keeps (h := h) (e := e)
  | liveWatchdogExpiry => exact execLiveWatchdogExpiry_keeps (h := h) (e := e)
  | liveKick => exact execLiveKick_keeps (h := h) (e := e)
  | duplexRejoin => exact execDuplexRejoin_keeps (h := h) (e := e)
  | takebackClear => exact execTakebackClear_keeps (h := h) (e := e)
  | switch => exact execSwitch_keeps (h := h) (e := e)
  | spliceAbort => exact execSpliceAbort_keeps (h := h) (e := e)
  | takebackHoldoffExpiry => exact execTakebackHoldoffExpiry_keeps (h := h) (e := e)
  | mirrorRecordReceive => exact execMirrorRecordReceive_keeps (h := h) (e := e)
  | mirrorLate => exact execMirrorLate_keeps (h := h) (e := e)
  | reducedRecordResend => exact execReducedRecordResend_keeps (h := h) (e := e)
  | logReport => exact execLogReport_keeps (h := h) (e := e)
  | latchAdmit => exact execLatchAdmit_keeps (h := h) (e := e)
  | logCommitDone => exact execLogCommitDone_keeps (h := h) (e := e)
  | logScanDone => exact execLogScanDone_keeps (h := h) (e := e)
  | logRead => exact execLogRead_keeps (h := h) (e := e)
  | logReadDone => exact execLogReadDone_keeps (h := h) (e := e)
  | windowRead => exact execWindowRead_keeps (h := h) (e := e)
  | softwareReport => exact execSoftwareReport_keeps (h := h) (e := e)
  | logErase => exact execLogErase_keeps (h := h) (e := e)
  | logEraseDone => exact execLogEraseDone_keeps (h := h) (e := e)
  | fidUnlock => exact execFidUnlock_keeps (h := h) (e := e)
  | fidArmExpiry => exact execFidArmExpiry_keeps (h := h) (e := e)
  | fidDisarm => exact execFidDisarm_keeps (h := h) (e := e)
  | fidSlotGo => exact execFidSlotGo_keeps (h := h) (e := e)
  | fidSlotStop => exact execFidSlotStop_keeps (h := h) (e := e)
  | fidFire => exact execFidFire_keeps (h := h) (e := e)
  | railFault => exact execRailFault_keeps (h := h) (e := e)
  | domainLevelLoss => exact execDomainLevelLoss_keeps (h := h) (e := e)
  | vbatChangeover => exact execVbatChangeover_keeps (h := h) (e := e)
  | domainRequest => exact execDomainRequest_keeps (h := h) (e := e)
  | domainSwitchDone => exact execDomainSwitchDone_keeps (h := h) (e := e)
  | islandReset => exact execIslandReset_keeps (h := h) (e := e)
  | islandResetDone => exact execIslandResetDone_keeps (h := h) (e := e)
  | oppChange => exact execOppChange_keeps (h := h) (e := e)
  | oppChangeDone => exact execOppChangeDone_keeps (h := h) (e := e)
  | standbyGo => exact execStandbyGo_keeps (h := h) (e := e)
  | wake => exact execWake_keeps (h := h) (e := e)
  | nodeCollapse => exact execNodeCollapse_keeps (h := h) (e := e)
  | pfAssert => exact execPfAssert_keeps (h := h) (e := e)
  | shutdown => exact execShutdown_keeps (h := h) (e := e)
  | mlsStopEnd => exact execMlsStopEnd_keeps (h := h) (e := e)
  | mlsStoEnd => exact execMlsStoEnd_keeps (h := h) (e := e)
  | mlsSaveEnd => exact execMlsSaveEnd_keeps (h := h) (e := e)
  | pfRelease => exact execPfRelease_keeps (h := h) (e := e)
  | saveGo => exact execSaveGo_keeps (h := h) (e := e)
  | saveWriteDone => exact execSaveWriteDone_keeps (h := h) (e := e)
  | softwareReset => exact execSoftwareReset_keeps (h := h) (e := e)
  | powerUp => exact execPowerUp_keeps (h := h) (e := e)
  | fuseProgram => exact execFuseProgram_keeps (h := h) (e := e)
  | fuseProgramDone => exact execFuseProgramDone_keeps (h := h) (e := e)
  | mramWrite => exact execMramWrite_keeps (h := h) (e := e)
  | mramWriteDone => exact execMramWriteDone_keeps (h := h) (e := e)
  | debugOpen => exact execDebugOpen_keeps (h := h) (e := e)
  | dramTrainingDone => exact execDramTrainingDone_keeps (h := h) (e := e)
  | pcieDoorbell => exact execPcieDoorbell_keeps (h := h) (e := e)
  | pcieInboundAccess => exact execPcieInboundAccess_keeps (h := h) (e := e)
  | msixSend => exact execMsixSend_keeps (h := h) (e := e)
  | pcieOutbound => exact execPcieOutbound_keeps (h := h) (e := e)
  | pcieOutboundTimeout => exact execPcieOutboundTimeout_keeps (h := h) (e := e)
  | pcieLinkChange => exact execPcieLinkChange_keeps (h := h) (e := e)
  | dmaStart => exact execDmaStart_keeps (h := h) (e := e)
  | dmaStop => exact execDmaStop_keeps (h := h) (e := e)
  | dmaDescriptorDone => exact execDmaDescriptorDone_keeps (h := h) (e := e)
  | plantFrameReceive => exact execPlantFrameReceive_keeps (h := h) (e := e)
  | plantTxTail => exact execPlantTxTail_keeps (h := h) (e := e)
  | plantTxDone => exact execPlantTxDone_keeps (h := h) (e := e)
  | snapshotRead => exact execSnapshotRead_keeps (h := h) (e := e)
  | snapshotWrite => exact execSnapshotWrite_keeps (h := h) (e := e)
  | mailboxAck => exact execMailboxAck_keeps (h := h) (e := e)
  | snapshotSwapnow => exact execSnapshotSwapnow_keeps (h := h) (e := e)
  | snapshotSwap => exact execSnapshotSwap_keeps (h := h) (e := e)
  | pinCommitNow => exact execPinCommitNow_keeps (h := h) (e := e)
  | pinCommitGo => exact execPinCommitGo_keeps (h := h) (e := e)
  | pinSwitchRestEnd => exact execPinSwitchRestEnd_keeps (h := h) (e := e)
  | duplexFence => exact execDuplexFence_keeps (h := h) (e := e)
  | guardDemandEnd => exact execGuardDemandEnd_keeps (h := h) (e := e)
  | nodeLinkUp => exact execNodeLinkUp_keeps (h := h) (e := e)
  | domainSwitchTimeout => exact execDomainSwitchTimeout_keeps (h := h) (e := e)
  | mirrorEndSend => exact execMirrorEndSend_keeps (h := h) (e := e)
  | sysClockLoss => exact execSysClockLoss_keeps (h := h) (e := e)
  | sysClockReturn => exact execSysClockReturn_keeps (h := h) (e := e)

/-- What a step does to the queue, the stores, the counter and the fuses: it keeps them all, but for the command it takes. -/
theorem step_keeps {s t : State} (e : step s = .next t) : Keeps { s with pending := s.pending.tail } t := by
  cases hq : s.pending with
  | nil =>
    rw [step_of_pending_nil hq] at e
    cases e
    have hs : { s with pending := [] } = s := by rw [← hq]
    exact State.tick_keeps s (hs ▸ Keeps.refl s)
  | cons c rest =>
    rw [step_of_pending_cons hq] at e
    exact exec_keeps c (Keeps.refl _) e

/-- Settles O59: the canonical form does not look at the queue, and a step keeps everything else `Keeps` names. -/
theorem stepKeepsCanonicalStores : Obligations.StepKeepsCanonicalStores := by
  intro s t hc e
  obtain ⟨hqueue, hcanon, hfree, hfuses⟩ := step_keeps e
  exact ⟨hcanon hc, hfree, hqueue, hfuses.secure, hfuses.hash, hfuses.keyrev, hfuses.minver⟩

/-! ## Where a register of an indexed block lies (R26) -/

/-- No register of the array has an offset from `lo` on and below `hi`. -/
def RSpec.clear (r : RSpec) (lo hi : Nat) : Bool := r.off + r.str * (r.cnt - 1) < lo || hi ≤ r.off

/-- No register of block `b` has an address from `lo` on and below `hi`: the block lies apart, or these addresses lie in its
first unit and its tables define nothing there. -/
def BSpec.clear (b : BSpec) (lo hi : Nat) : Bool :=
  (b.base + b.str * b.cnt ≤ lo || hi ≤ b.base) ||
    (b.base ≤ lo && hi ≤ b.base + b.str && b.regs.all (·.clear (lo - b.base) (hi - b.base)))

theorem findReg_of_clear {off lo hi : Nat} (hlo : lo ≤ off) (hhi : off < hi) {rs : List RSpec}
    (h : rs.all (·.clear lo hi) = true) : findReg off rs = none := by
  induction rs with
  | nil => rfl
  | cons r rs ih =>
    simp only [List.all_cons, Bool.and_eq_true, RSpec.clear, Bool.or_eq_true, decide_eq_true_eq] at h
    have hmiss : ¬ (r.off ≤ off ∧ (off - r.off) % r.str = 0 ∧ (off - r.off) / r.str < r.cnt) := by
      rintro ⟨hle, hmod, hdiv⟩
      have hq : r.str * ((off - r.off) / r.str) = off - r.off := Nat.mul_div_cancel' (Nat.dvd_of_mod_eq_zero hmod)
      have hlast : r.str * ((off - r.off) / r.str) ≤ r.str * (r.cnt - 1) := Nat.mul_le_mul_left _ (by omega)
      omega
    rw [findReg, if_neg (by simpa [and_assoc] using hmiss), ih h.2]

theorem findSpec_cons_of_clear {a lo hi : Nat} (hlo : lo ≤ a) (hhi : a < hi) {b : BSpec} (bs : List BSpec)
    (h : b.clear lo hi = true) : findSpec a (b :: bs) = findSpec a bs := by
  simp only [BSpec.clear, Bool.or_eq_true, Bool.and_eq_true, decide_eq_true_eq] at h
  rw [findSpec]
  split
  next hin =>
    simp only [Bool.and_eq_true, decide_eq_true_eq] at hin
    obtain hapart | ⟨⟨hbase, hend⟩, hregs⟩ := h
    · omega
    · rw [Nat.mod_eq_of_lt (by omega), findReg_of_clear (by omega) (by omega) hregs]
  next => rfl

theorem findSpec_append_of_clear {a lo hi : Nat} (hlo : lo ≤ a) (hhi : a < hi) {pre : List BSpec} (bs : List BSpec)
    (h : pre.all (·.clear lo hi) = true) : findSpec a (pre ++ bs) = findSpec a bs := by
  induction pre with
  | nil => rfl
  | cons b pre ih =>
    rw [List.all_cons, Bool.and_eq_true] at h
    rw [List.cons_append, findSpec_cons_of_clear hlo hhi _ h.1, ih h.2]

/-- The register at offset `off` of unit `n` of a block. -/
theorem findSpec_cons_self {b : BSpec} (bs : List BSpec) {n off : Nat} {fs : List FSpec} (hn : n < b.cnt) (hoff : off < b.str)
    (hfs : findReg off b.regs = some fs) : findSpec (b.base + off + b.str * n) (b :: bs) = some fs := by
  have hend : b.str * n + b.str ≤ b.str * b.cnt := by rw [← Nat.mul_succ]; exact Nat.mul_le_mul_left _ hn
  have hin : (b.base ≤ b.base + off + b.str * n && b.base + off + b.str * n < b.base + b.str * b.cnt) = true := by
    simp only [Bool.and_eq_true, decide_eq_true_eq]; omega
  have hmod : (b.base + off + b.str * n - b.base) % b.str = off := by
    rw [show b.base + off + b.str * n - b.base = off + b.str * n by omega, Nat.add_mul_mod_self_left, Nat.mod_eq_of_lt hoff]
  rw [findSpec, if_pos hin, hmod, hfs]

/-- The fields of the register at offset `off` of unit `n` of block `b`, the `i`-th of the map, when no block before it
has a register among its addresses. -/
theorem specOf_block {i : Nat} {b : BSpec} {n off : Nat} {fs : List FSpec} (hb : blocks[i]? = some b)
    (hpre : (blocks.take i).all (·.clear b.base (b.base + b.str * b.cnt)) = true)
    (hfs : findReg off b.regs = some fs) (hoff : off < b.str) (hn : n < b.cnt) :
    specOf (b.base + off + b.str * n) = some fs := by
  have hend : b.str * n + b.str ≤ b.str * b.cnt := by rw [← Nat.mul_succ]; exact Nat.mul_le_mul_left _ hn
  have hdrop : blocks.drop i = b :: blocks.drop (i + 1) := by
    obtain ⟨hi, rfl⟩ := List.getElem?_eq_some_iff.1 hb
    exact List.drop_eq_getElem_cons hi
  rw [specOf, ← List.take_append_drop i blocks, findSpec_append_of_clear (by omega) (by omega) _ hpre, hdrop,
    findSpec_cons_self _ hn hoff hfs]

/-- The reset word of that register, made of its Reset columns. -/
theorem resetWord_block {i : Nat} {b : BSpec} {n off : Nat} {fs : List FSpec} (hb : blocks[i]? = some b)
    (hpre : (blocks.take i).all (·.clear b.base (b.base + b.str * b.cnt)) = true)
    (hfs : findReg off b.regs = some fs) (hoff : off < b.str) (hn : n < b.cnt) :
    resetWord (b.base + off + b.str * n) = fs.foldl (fun x f => x + f.rst * 2 ^ f.lo) 0 := by
  rw [resetWord, specOf_block hb hpre hfs hoff hn]

/-! ## The state after reset -/

theorem State.reset_reg (a : Nat) : State.reset.reg a = resetWord a % 2 ^ 32 := BitVec.toNat_ofNat _ _
theorem State.reset_actReg (a : Nat) : State.reset.actReg a = resetWord a % 2 ^ 32 := BitVec.toNat_ofNat _ _
theorem State.reset_byte (a : Nat) : State.reset.byte a = 0 := rfl

/-- A field reads as its bits of the register's reset word; `State.reset_fa` says so of its active copy. -/
theorem State.reset_f {x : Fld} {w v : Nat} (h : resetWord x.addr = w) (hv : bits (w % 2 ^ 32) x.hi x.lo = v) :
    State.reset.f x = v := by
  rw [State.f, State.reset_reg, h, hv]
theorem State.reset_fa {x : Fld} {w v : Nat} (h : resetWord x.addr = w) (hv : bits (w % 2 ^ 32) x.hi x.lo = v) :
    State.reset.fa x = v := by
  rw [State.fa, State.reset_actReg, h, hv]

/-- LASTCORE of STAT is 63, no core; every other field is 0. -/
theorem resetWord_ST_STAT {k : Nat} (hk : k < 1024) : resetWord (R.ST_STAT k) = 63 * 2 ^ 16 :=
  resetWord_block (i := 13) (off := 4) rfl (by decide) rfl (by decide) hk
theorem resetWord_AX_CTRL {n : Nat} (hn : n < 256) : resetWord (R.AX_CTRL n) = 0 :=
  resetWord_block (i := 2) (off := 0) rfl (by decide) rfl (by decide) hn
/-- DIV of CTRL is 1; every other field is 0. -/
theorem resetWord_PC_CTRL {c : Nat} (hc : c < 64) : resetWord (R.PC_CTRL c) = 2 ^ 12 :=
  resetWord_block (i := 16) (off := 0) rfl (by decide) rfl (by decide) hc
theorem resetWord_PC_STAT {c : Nat} (hc : c < 64) : resetWord (R.PC_STAT c) = 0 :=
  resetWord_block (i := 16) (off := 4) rfl (by decide) rfl (by decide) hc
theorem resetWord_K_STAT {k : Nat} (hk : k < 64) : resetWord (R.K_STAT k) = 0 :=
  resetWord_block (i := 4) (off := 0xC) rfl (by decide) rfl (by decide) hk
theorem resetWord_KE_POOL_FREE : resetWord R.KE_POOL_FREE_W = 8192 := by decide
theorem resetWord_TB_TCYC : resetWord R.TB_TCYC_W = 31250 := by decide

/-- Settles O58: every register reads its reset word, and the words of the named registers follow from where their blocks
lie in the map. -/
theorem resetState : Obligations.ResetState := by
  refine ⟨rfl, rfl, fun a => ⟨State.reset_reg a, State.reset_byte a⟩, fun k hk => ?_, fun n hn => ⟨?_, ?_⟩,
    fun c hc => ⟨?_, ?_⟩, fun k hk => ?_, ?_, ?_⟩
  · exact State.reset_f (resetWord_ST_STAT hk) (by simp [bits])
  · exact State.reset_f (resetWord_AX_CTRL hn) (by simp [bits])
  · exact State.reset_fa (resetWord_AX_CTRL hn) (by simp [bits])
  · exact State.reset_f (resetWord_PC_CTRL hc) (by simp [bits])
  · exact State.reset_f (resetWord_PC_STAT hc) (by simp [bits])
  · exact State.reset_f (resetWord_K_STAT hk) (by simp [bits])
  · exact State.reset_f resetWord_KE_POOL_FREE (by simp [bits])
  · exact State.reset_f resetWord_TB_TCYC (by simp [bits])

end Sys2Proof.Machine

/-! PROOFS. The control cycle (spec/03_control_cycle.md): release deadlines, the cycle boundary, and marks. -/

namespace Sys2Proof.Machine

/-! ## What an operation may write -/

/-- `t` comes from `s` by writes of registers in `P` and of active copies in `Q`; the fids, the power domains' clamps and the
host block are as they were. -/
structure Writes (P Q : Nat → Prop) (s t : State) : Prop where
  reg : ∀ a, ¬P a → t.reg a = s.reg a
  act : ∀ a, ¬Q a → t.actReg a = s.actReg a
  fid : t.fid = s.fid
  pmu : t.pmu = s.pmu
  host : t.host = s.host

/-- A change of the state that no read of `Writes` sees. -/
theorem Writes.of_same {P Q : Nat → Prop} {r s t : State} (h : Writes P Q r s) (hr : t.regs = s.regs) (ha : t.act = s.act)
    (hf : t.fid = s.fid) (hp : t.pmu = s.pmu) (hh : t.host = s.host) : Writes P Q r t := by
  refine ⟨fun a q => ?_, fun a q => ?_, hf.trans h.fid, hp.trans h.pmu, hh.trans h.host⟩
  · rw [← h.reg a q]; unfold State.reg; rw [hr]
  · rw [← h.act a q]; unfold State.actReg; rw [ha]

section
variable {P Q : Nat → Prop} {r s t : State}

theorem Writes.refl (s : State) : Writes P Q s s := ⟨fun _ _ => rfl, fun _ _ => rfl, rfl, rfl, rfl⟩

theorem Writes.trans (h : Writes P Q r s) (k : Writes P Q s t) : Writes P Q r t :=
  ⟨fun a q => (k.reg a q).trans (h.reg a q), fun a q => (k.act a q).trans (h.act a q), k.fid.trans h.fid, k.pmu.trans h.pmu,
    k.host.trans h.host⟩

theorem Writes.mono {P' Q' : Nat → Prop} (h : Writes P Q s t) (hP : ∀ a, P a → P' a) (hQ : ∀ a, Q a → Q' a) :
    Writes P' Q' s t :=
  ⟨fun a q => h.reg a (fun p => q (hP a p)), fun a q => h.act a (fun p => q (hQ a p)), h.fid, h.pmu, h.host⟩

theorem Writes.f (h : Writes P Q s t) (x : Fld) (q : ¬P x.addr) : t.f x = s.f x := by
  unfold State.f; rw [h.reg _ q]

theorem Writes.fa (h : Writes P Q s t) (x : Fld) (q : ¬Q x.addr) : t.fa x = s.fa x := by
  unfold State.fa; rw [h.act _ q]

theorem Writes.set (h : Writes P Q r s) (x : Fld) (v : Nat) (hx : P x.addr) : Writes P Q r (s.set x v) :=
  h.trans ⟨fun _ q => State.reg_set_ne _ _ _ (fun e => q (e ▸ hx)), fun _ _ => rfl, rfl, rfl, rfl⟩

theorem Writes.setA (h : Writes P Q r s) (x : Fld) (v : Nat) (hx : Q x.addr) : Writes P Q r (s.setA x v) :=
  h.trans ⟨fun _ _ => rfl, fun _ q => State.actReg_setActReg_ne _ _ _ _ (fun e => q (e ▸ hx)), rfl, rfl, rfl⟩

theorem Writes.modAx (h : Writes P Q r s) (n : Nat) (f : Ax → Ax) : Writes P Q r (s.modAx n f) := h.of_same rfl rfl rfl rfl rfl
theorem Writes.setGang (h : Writes P Q r s) (q : Nat) (x : Gang) : Writes P Q r (s.setGang q x) := h.of_same rfl rfl rfl rfl rfl
theorem Writes.modChan (h : Writes P Q r s) (c : Nat) (f : Chan → Chan) : Writes P Q r (s.modChan c f) :=
  h.of_same rfl rfl rfl rfl rfl
theorem Writes.modRing (h : Writes P Q r s) (k : Nat) (f : Ring → Ring) : Writes P Q r (s.modRing k f) :=
  h.of_same rfl rfl rfl rfl rfl
theorem Writes.modStrand (h : Writes P Q r s) (k : Nat) (f : Strand → Strand) : Writes P Q r (s.modStrand k f) :=
  h.of_same rfl rfl rfl rfl rfl

theorem Writes.forEach {α : Type} (h : Writes P Q r s) (xs : List α) (f : α → State → State)
    (hf : ∀ x s, Writes P Q r s → Writes P Q r (f x s)) : Writes P Q r (forEach xs f s) := by
  unfold Machine.forEach
  induction xs generalizing s with
  | nil => exact h
  | cons x xs ih => exact ih (hf x s h)

theorem Writes.forN (h : Writes P Q r s) (n : Nat) (f : Nat → State → State)
    (hf : ∀ x s, Writes P Q r s → Writes P Q r (f x s)) : Writes P Q r (forN n f s) := h.forEach (List.range n) f hf

theorem Writes.ite (c : Prop) [Decidable c] (h : Writes P Q r s) (k : Writes P Q r t) : Writes P Q r (if c then s else t) := by
  split
  · exact h
  · exact k

/-- Reports and trace events write the registers that observe. -/
theorem Writes.alike (h : Writes P Q r s) (hP : ∀ a, observer a = true → P a) (k : Alike s t) : Writes P Q r t :=
  h.trans ⟨fun a q => k.regs a (Bool.eq_false_iff.2 fun e => q (hP a e)),
    fun a _ => by unfold State.actReg; rw [k.act],
    k.part (·.fid) fun _ _ _ _ => rfl, k.pmu, k.host⟩

theorem Writes.lateAction (h : Writes P Q r s) (hP : ∀ a, observer a = true → P a) (isl : Nat) :
    Writes P Q r (s.lateAction isl) := by
  unfold State.lateAction
  extract_lets n tim counted
  have hcounted : Writes P Q r counted := h.of_same rfl rfl rfl rfl rfl
  exact hcounted.alike hP (alike_report _ _ _ _ _)

end

/-! ## The wake of an axis writes axes, channels and high-side groups (R88, R95, R338) -/

/-- Registers that a wake may write, by what their addresses leave over: CTRL and STATUS of an axis, CTRL, STAT, SHOT_STAT,
SHOT_CNT and LATE_CNT of a channel, STAT of a group, and the registers of reports. -/
def wakeAddr (a : Nat) : Prop :=
  a % 0x40 = 4 ∨ a % 0x100 = 0 ∨ a % 0x100 = 0x64 ∨ a % 0x100 = 0x68 ∨ a % 0x100 = 0x6C ∨ a % 0x1000 = 0x40 ∨
    observer a = true

/-- Active copies that a wake may write: CTRL of an axis. -/
def wakeAct (a : Nat) : Prop := a % 0x1000 = 0

theorem wakeAddr_observer (a : Nat) (h : observer a = true) : wakeAddr a := by simp [wakeAddr, h]
theorem wakeAddr_AX_CTRL (n : Nat) : wakeAddr (R.AX_CTRL n) := by unfold wakeAddr R.AX_CTRL; omega
theorem wakeAddr_AX_STATUS (n : Nat) : wakeAddr (R.AX_STATUS n) := by unfold wakeAddr R.AX_STATUS; omega
theorem wakeAddr_PC_CTRL (c : Nat) : wakeAddr (R.PC_CTRL c) := by unfold wakeAddr R.PC_CTRL; omega
theorem wakeAddr_PC_STAT (c : Nat) : wakeAddr (R.PC_STAT c) := by unfold wakeAddr R.PC_STAT; omega
theorem wakeAddr_PC_SHOT_STAT (c : Nat) : wakeAddr (R.PC_SHOT_STAT c) := by unfold wakeAddr R.PC_SHOT_STAT; omega
theorem wakeAddr_PC_SHOT_CNT (c : Nat) : wakeAddr (R.PC_SHOT_CNT_W c) := by unfold wakeAddr R.PC_SHOT_CNT_W; omega
theorem wakeAddr_PC_LATE_CNT (c : Nat) : wakeAddr (R.PC_LATE_CNT_W c) := by unfold wakeAddr R.PC_LATE_CNT_W; omega
theorem wakeAddr_HG_STAT (g : Nat) : wakeAddr (R.HG_STAT g) := by unfold wakeAddr R.HG_STAT; omega
theorem wakeAct_AX_CTRL (n : Nat) : wakeAct (R.AX_CTRL n) := by unfold wakeAct R.AX_CTRL; omega

section
variable {r s : State} (h : Writes wakeAddr wakeAct r s)
include h

theorem State.seqTo_writes (c w : Nat) : Writes wakeAddr wakeAct r (s.seqTo c w) := by
  unfold State.seqTo
  exact .ite _ h (((h.set _ _ (wakeAddr_PC_STAT c)).set _ _ (wakeAddr_PC_STAT c)).modChan _ _)

theorem State.syncGroup_writes (g : Nat) : Writes wakeAddr wakeAct r (s.syncGroup g) :=
  (h.set _ _ (wakeAddr_HG_STAT g)).set _ _ (wakeAddr_HG_STAT g)

theorem State.syncGroupsOf_writes (c : Nat) : Writes wakeAddr wakeAct r (s.syncGroupsOf c) := by
  unfold State.syncGroupsOf
  exact .ite _ (h.forN _ _ fun _ _ k => .ite _ (State.syncGroup_writes k _) k) h

theorem State.syncShots_writes (c : Nat) : Writes wakeAddr wakeAct r (s.syncShots c) :=
  ((h.set _ _ (wakeAddr_PC_SHOT_STAT c)).set _ _ (wakeAddr_PC_SHOT_STAT c)).set _ _ (wakeAddr_PC_SHOT_STAT c)

theorem State.pcReport_writes (c ev cls : Nat) : Writes wakeAddr wakeAct r (s.pcReport c ev cls) :=
  h.alike wakeAddr_observer (alike_report _ _ _ _ _)

theorem State.shotLate_writes (c : Nat) : Writes wakeAddr wakeAct r (s.shotLate c) :=
  State.pcReport_writes ((h.set _ _ (wakeAddr_PC_LATE_CNT c)).lateAction wakeAddr_observer _) _ _ _

theorem State.shotHeads_writes (c : Nat) : Writes wakeAddr wakeAct r (s.shotHeads c) := by
  unfold State.shotHeads
  exact .ite _ h (.ite _ h ((State.syncShots_writes (h.modChan _ _) c).forEach _ _ fun _ _ k => State.shotLate_writes k c))

theorem State.dropShot_writes (c : Nat) : Writes wakeAddr wakeAct r (s.dropShot c) := by
  unfold State.dropShot
  split
  · exact h
  · exact State.shotHeads_writes (State.syncShots_writes ((h.modChan _ _).set _ _ (wakeAddr_PC_SHOT_CNT c)) c) c

theorem State.chanFault_writes (c : Nat) (x : Fld) (ev cls : Nat) (hx : wakeAddr x.addr) :
    Writes wakeAddr wakeAct r (s.chanFault c x ev cls) := by
  unfold State.chanFault
  extract_lets cleared off members
  have hcleared : Writes wakeAddr wakeAct r cleared :=
    State.dropShot_writes ((h.set x 1 hx).set (R.PC_CTRL_EN c) 0 (wakeAddr_PC_CTRL c)) c
  have hoff : Writes wakeAddr wakeAct r off := (State.seqTo_writes hcleared c 0).modChan _ _
  have hmembers : Writes wakeAddr wakeAct r members :=
    .ite _ (hoff.forEach _ _ fun m _ k => State.syncGroup_writes (State.seqTo_writes (State.dropShot_writes k m) m 0) _) hoff
  exact State.pcReport_writes (State.syncGroupsOf_writes hmembers c) _ _ _

theorem State.evalChan_writes (c : Nat) : Writes wakeAddr wakeAct r (s.evalChan c) := by
  unfold State.evalChan
  exact .ite _ (State.chanFault_writes h c _ _ _ (wakeAddr_PC_STAT c)) (.ite _ h (State.seqTo_writes h c _))

theorem State.evalHigh_writes (o : Option Shot) : Writes wakeAddr wakeAct r (s.evalHigh o) := by
  unfold State.evalHigh
  split
  · exact .ite _ (State.syncGroup_writes (State.evalChan_writes h _) _) h
  · exact h

theorem State.evalAround_writes (c : Nat) : Writes wakeAddr wakeAct r (s.evalAround c) := by
  unfold State.evalAround
  extract_lets own gang
  have hgang : Writes wakeAddr wakeAct r gang := (State.evalChan_writes h c).forEach _ _ fun d _ k => State.evalChan_writes k d
  exact .ite _ (State.syncGroupsOf_writes (State.evalHigh_writes hgang _) c) hgang

theorem State.shotStop_writes (c : Nat) : Writes wakeAddr wakeAct r (s.shotStop c) := by
  unfold State.shotStop
  exact .ite _ (h.modChan _ _) (State.evalHigh_writes (State.evalAround_writes (State.dropShot_writes h c) c) _)

theorem State.valveLeave_writes (n : Nat) : Writes wakeAddr wakeAct r (s.valveLeave n) := by
  unfold State.valveLeave
  split
  · exact h
  · exact .ite _ (State.syncShots_writes ((State.shotStop_writes h _).modChan _ _) _) h

theorem State.gangDrop_writes (n : Nat) (side : Option Bool) : Writes wakeAddr wakeAct r (s.gangDrop n side) := by
  unfold State.gangDrop
  split
  · exact .ite _ (h.setGang _ _) h
  · exact h

theorem State.evalAxisChans_writes (n : Nat) : Writes wakeAddr wakeAct r (s.evalAxisChans n) := by
  unfold State.evalAxisChans
  split
  · exact h
  · exact State.evalAround_writes h _

theorem State.modeLeft_writes (n old new : Nat) : Writes wakeAddr wakeAct r (s.modeLeft n old new) := by
  unfold State.modeLeft
  extract_lets valve gang armed
  have hvalve : Writes wakeAddr wakeAct r valve := .ite _ (State.valveLeave_writes h n) h
  have hgang : Writes wakeAddr wakeAct r gang := .ite _ (State.gangDrop_writes hvalve n none) hvalve
  have harmed : Writes wakeAddr wakeAct r armed := .ite _ (hgang.modAx _ _) hgang
  exact State.evalAxisChans_writes harmed n

theorem State.hwMode_writes (n m : Nat) : Writes wakeAddr wakeAct r (s.hwMode n m) :=
  State.modeLeft_writes ((h.set _ _ (wakeAddr_AX_CTRL n)).setA _ _ (wakeAct_AX_CTRL n)) n _ m

theorem State.limDue_writes (n stamp : Nat) : Writes wakeAddr wakeAct r (s.limDue n stamp) := by
  unfold State.limDue
  split
  · exact .ite _ (h.modAx _ _) h
  · exact h

theorem State.userStops_writes (n : Nat) : Writes wakeAddr wakeAct r (s.userStops n) := by
  unfold State.userStops
  extract_lets due x stopped
  have hdue : Writes wakeAddr wakeAct r due := State.limDue_writes h n _
  have hstopped : Writes wakeAddr wakeAct r stopped :=
    (((hdue.set (R.AX_STATUS_HWAIT n) 0 (wakeAddr_AX_STATUS n)).set (R.AX_STATUS_HLOCK n) 0 (wakeAddr_AX_STATUS n)).modAx
      _ _).modAx _ _
  exact .ite _ (.ite _ hstopped (State.hwMode_writes hstopped n mHold)) (hdue.modAx _ _)

theorem State.wokenIn_writes (n c : Nat) : Writes wakeAddr wakeAct r (s.wokenIn n c) := by
  unfold State.wokenIn
  exact .ite _ (State.userStops_writes h n) (h.modAx _ _)

end

/-! ## Tags and interrupts write the dispatcher's registers -/

/-- Registers of the strands, and those of dropped interrupts and of reports and traces. -/
def strandAddr (a : Nat) : Prop := (0x10210000 ≤ a ∧ a < 0x10220000) ∨ a = R.DSP_IRQDROP_CNT_W ∨ observer a = true

/-- Registers that the fill of a tag may write: those, the tags' and the count of overruns. -/
def tagAddr (a : Nat) : Prop := strandAddr a ∨ (0x10220000 ≤ a ∧ a < 0x10240000) ∨ a = R.DSP_TAGOVR_CNT_W

/-- No active copy. -/
def noAct (_ : Nat) : Prop := False

theorem strandAddr_observer (a : Nat) (h : observer a = true) : strandAddr a := .inr (.inr h)
theorem tagAddr_observer (a : Nat) (h : observer a = true) : tagAddr a := .inl (strandAddr_observer a h)
theorem strandAddr_ST_STAT {t : Nat} (ht : t < 1024) : strandAddr (R.ST_STAT t) := .inl (by unfold R.ST_STAT; omega)
theorem strandAddr_ST_WAIT {t : Nat} (ht : t < 1024) : strandAddr (R.ST_WAIT t) := .inl (by unfold R.ST_WAIT; omega)
theorem strandAddr_ST_IPEND {t : Nat} (ht : t < 1024) : strandAddr (R.ST_IPEND_W t) := .inl (by unfold R.ST_IPEND_W; omega)
theorem tagAddr_TAG_VALUE {t : Nat} (ht : t < 2 ^ 14) : tagAddr (R.TAG_VALUE_W t) := .inr (.inl (by unfold R.TAG_VALUE_W; omega))
theorem tagAddr_TAG_CTL {t : Nat} (ht : t < 2 ^ 14) : tagAddr (R.TAG_CTL t) := .inr (.inl (by unfold R.TAG_CTL; omega))

theorem observer_iff (a : Nat) : observer a = true ↔ a = 0x10360000 ∨ a = 0x1036001C ∨ a = 0x10200618 ∨ a = 0x10200610 ∨
    a = 0x10200614 ∨ a = 0x10380034 := by
  simp only [observer, Bool.or_eq_true, beq_iff_eq, or_assoc]

theorem strandAddr_iff (a : Nat) :
    strandAddr a ↔ (0x10210000 ≤ a ∧ a < 0x10220000) ∨ a = 0x10200510 ∨ observer a = true := Iff.rfl

theorem not_strandAddr_TAG_VALUE {t : Nat} (ht : t < 2 ^ 14) : ¬strandAddr (R.TAG_VALUE_W t) := by
  rw [strandAddr_iff, observer_iff, R.TAG_VALUE_W]; omega
theorem not_strandAddr_TAG_CTL {t : Nat} (ht : t < 2 ^ 14) : ¬strandAddr (R.TAG_CTL t) := by
  rw [strandAddr_iff, observer_iff, R.TAG_CTL]; omega
theorem observer_TAG_VALUE {t : Nat} (ht : t < 2 ^ 14) : observer (R.TAG_VALUE_W t) = false :=
  Bool.eq_false_iff.2 fun e => not_strandAddr_TAG_VALUE ht (strandAddr_observer _ e)
theorem observer_TAG_CTL {t : Nat} (ht : t < 2 ^ 14) : observer (R.TAG_CTL t) = false :=
  Bool.eq_false_iff.2 fun e => not_strandAddr_TAG_CTL ht (strandAddr_observer _ e)

theorem TAG_CTL_ne_TAG_VALUE (t : Nat) : R.TAG_CTL t ≠ R.TAG_VALUE_W t := by unfold R.TAG_CTL R.TAG_VALUE_W; omega
theorem TAG_CTL_ne_TAGOVR (t : Nat) : R.TAG_CTL t ≠ R.DSP_TAGOVR_CNT_W := by unfold R.TAG_CTL R.DSP_TAGOVR_CNT_W; omega
theorem TAG_VALUE_ne_TAGOVR (t : Nat) : R.TAG_VALUE_W t ≠ R.DSP_TAGOVR_CNT_W := by
  unfold R.TAG_VALUE_W R.DSP_TAGOVR_CNT_W; omega

theorem State.tagOwner_lt (s : State) (t : Nat) : s.f (R.TAG_CTL_OWNER t) < 1024 := State.f_lt s _

section
variable {r s : State} (h : Writes strandAddr noAct r s)
include h

theorem State.makeReady_writes {t : Nat} (ht : t < 1024) (stamp arg : Nat) : Writes strandAddr noAct r (s.makeReady t stamp arg) :=
  ((h.set _ _ (strandAddr_ST_STAT ht)).modStrand _ _).alike strandAddr_observer (alike_traceS _ _ _ _ _)

theorem State.wakeOwner_writes (t : Nat) : Writes strandAddr noAct r (s.wakeOwner t) := by
  unfold State.wakeOwner
  exact .ite _ (State.makeReady_writes (h.modStrand _ _) (State.tagOwner_lt s t) _ _) h

theorem State.raiseInt_writes {t : Nat} (ht : t < 1024) (i einfo : Nat) : Writes strandAddr noAct r (s.raiseInt t i einfo) := by
  unfold State.raiseInt
  extract_lets pend noted
  have hnoted : Writes strandAddr noAct r noted := (h.set _ _ (strandAddr_ST_IPEND ht)).modStrand _ _
  exact .ite _ (h.set _ _ (.inr (.inl rfl))) (.ite _ (State.makeReady_writes hnoted ht _ _) hnoted)

theorem State.irq_writes (x i einfo : Nat) : Writes strandAddr noAct r (s.irq x i einfo) := by
  unfold State.irq
  exact .ite _ (State.raiseInt_writes h (State.f_lt s _) _ _) (h.set _ _ (.inr (.inl rfl)))

end

/-- A one-bit field that is not 0 is 1. -/
theorem State.on_iff {s : State} {x : Fld} (hx : x.hi = x.lo) : s.on x = true ↔ s.f x = 1 := by
  have hlt := s.f_lt x
  rw [hx, Nat.add_sub_cancel_left] at hlt
  unfold State.on
  rw [bne_iff_ne]
  omega

/-- What the fill of a tag reads as afterwards, and where it writes (R298). -/
structure TagFull (s t : State) (k v : Nat) : Prop where
  full : t.f (R.TAG_CTL_FULL k) = 1
  value : t.f (R.TAG_VALUE k) = v % 2 ^ 32
  writes : Writes tagAddr noAct s t

theorem TagFull.alike {s u t : State} {k v : Nat} (h : TagFull s u k v) (hk : k < 2 ^ 14) (a : Alike u t) : TagFull s t k v where
  full := (a.f _ (observer_TAG_CTL hk)).trans h.full
  value := (a.f _ (observer_TAG_VALUE hk)).trans h.value
  writes := h.writes.alike tagAddr_observer a

theorem TagFull.strand {s u t : State} {k v : Nat} (h : TagFull s u k v) (hk : k < 2 ^ 14) (w : Writes strandAddr noAct u t) :
    TagFull s t k v where
  full := (w.f _ (not_strandAddr_TAG_CTL hk)).trans h.full
  value := (w.f _ (not_strandAddr_TAG_VALUE hk)).trans h.value
  writes := h.writes.trans (w.mono (fun _ => .inl) fun _ => id)

/-- The value reaches a tag that is full already. -/
theorem tagFull_full {s : State} (h : s.canonical = true) {k : Nat} (hk : k < 2 ^ 14) (v : Nat)
    (hfull : s.f (R.TAG_CTL_FULL k) = 1) :
    TagFull s (((s.set (R.TAG_VALUE k) v).raise (R.TAG_CTL_OVR k)).count R.DSP_TAGOVR_CNT) k v where
  full := by
    rw [State.count, State.f_set_ne _ _ _ (TAG_CTL_ne_TAGOVR k), State.raise,
      State.f_set_apart (State.canonical_set h _ _) _ _ _ (by simp) (by simp) (.inl (by simp)),
      State.f_set_ne _ _ _ (TAG_CTL_ne_TAG_VALUE k), hfull]
  value := by
    rw [State.count, State.f_set_ne _ _ _ (TAG_VALUE_ne_TAGOVR k), State.raise, State.f_set_ne _ _ _ (TAG_CTL_ne_TAG_VALUE k).symm]
    exact State.f_set_self h _ _ (by simp) (by simp)
  writes := (((Writes.refl s).set _ _ (tagAddr_TAG_VALUE hk)).set _ _ (tagAddr_TAG_CTL hk)).set _ _ (.inr (.inr rfl))

/-- An empty tag becomes full. -/
theorem tagFull_empty {s : State} (h : s.canonical = true) {k : Nat} (hk : k < 2 ^ 14) (v : Nat) :
    TagFull s ((s.set (R.TAG_VALUE k) v).raise (R.TAG_CTL_FULL k)) k v where
  full := State.f_set_self (State.canonical_set h _ _) _ _ (by simp) (by simp)
  value := by
    rw [State.raise, State.f_set_ne _ _ _ (TAG_CTL_ne_TAG_VALUE k).symm]
    exact State.f_set_self h _ _ (by simp) (by simp)
  writes := ((Writes.refl s).set _ _ (tagAddr_TAG_VALUE hk)).set _ _ (tagAddr_TAG_CTL hk)

theorem State.fillTag_full {s : State} (h : s.canonical = true) {k : Nat} (hk : k < 2 ^ 14) (v : Nat) :
    TagFull s (s.fillTag k v) k v := by
  unfold State.fillTag
  extract_lets full owner valued overrun reported filled waited
  have hempty : TagFull s filled k v := tagFull_empty h hk v
  have hwaited : TagFull s waited k v :=
    hempty.strand hk ((Writes.refl _).set _ _ (strandAddr_ST_WAIT (State.f_lt s _)))
  split
  next hfull =>
    have hover : TagFull s overrun k v := tagFull_full h hk v ((State.on_iff rfl).1 hfull)
    exact (hover.alike hk (alike_report _ _ _ _ _)).alike hk (alike_trace _ _ _ _ _ _ _ _)
  next =>
    split
    · split
      · exact hwaited
      · exact hwaited.strand hk (State.wakeOwner_writes (Writes.refl _) k)
    · exact hempty

/-! ## Marks (R91, R92) -/

theorem bit_eq_testBit (x i : Nat) : bit x i = x.testBit i := by
  rw [Nat.testBit_eq_decide_div_mod_eq]; rfl

/-- A bit put into a field by OR reads 1. -/
theorem State.bit_orF {s : State} (h : s.canonical = true) (x : Fld) {i : Nat} (h32 : x.hi < 32) (hi : i < x.hi + 1 - x.lo) :
    bit ((s.orF x (2 ^ i)).f x) i = true := by
  rw [State.orF, State.f_set_self h _ _ (by omega) h32, bit_eq_testBit, Nat.testBit_mod_two_pow, Nat.testBit_or,
    Nat.testBit_two_pow_self]
  simp [hi]

theorem State.onA_iff {s : State} {x : Fld} (hx : x.hi = x.lo) : s.onA x = true ↔ s.fa x = 1 := by
  have hlt : s.fa x < 2 ^ (x.hi + 1 - x.lo) := bits_lt _ _ _
  rw [hx, Nat.add_sub_cancel_left] at hlt
  unfold State.onA
  rw [bne_iff_ne]
  omega

theorem State.on_eq_false {s : State} {x : Fld} (h : s.f x = 0) : s.on x = false := by simp [State.on, h]
theorem State.onA_eq_false {s : State} {x : Fld} (h : s.fa x = 0) : s.onA x = false := by simp [State.onA, h]

/-- A copy writes SNP.STAT beside the registers of its report. -/
theorem State.snapFire_f (s : State) (cyc stamp : Nat) (x : Fld) (hx : x.addr ≠ R.SNP_STAT) (ho : observer x.addr = false) :
    (s.snapFire cyc stamp).f x = s.f x := by
  unfold State.snapFire
  split
  · rfl
  · split
    · rfl
    · split
      · exact ((alike_report _ _ _ _ _).f x ho).trans (State.f_set_ne _ _ _ hx)
      · exact State.f_set_ne _ _ _ hx

theorem State.snapFire_fid (s : State) (cyc stamp : Nat) : (s.snapFire cyc stamp).fid = s.fid := by
  unfold State.snapFire
  split
  · rfl
  · split
    · rfl
    · split
      · exact (alike_report _ _ _ _ _).part (·.fid) fun _ _ _ _ => rfl
      · rfl

/-- With no copy under way and its power domain on, a copy begins (R481). -/
theorem State.snapFire_starts {s : State} (h : s.canonical = true) (hpd : s.pdOn 22 = true) (hfill : s.host.fill = none)
    (cyc stamp : Nat) :
    (s.snapFire cyc stamp).f R.SNP_STAT_COPY = 1 ∧ (s.snapFire cyc stamp).host.fill.isSome = true := by
  unfold State.snapFire
  simp only [hpd, hfill, Bool.not_true, Option.any_none, Option.isSome_none, Bool.false_eq_true, ↓reduceIte]
  exact ⟨State.f_set_self h _ _ (by decide) (by decide), rfl⟩

/-- Registers that a firing of a mark of ring `r` may write on its way to FIRED, its copy aside. -/
def markAddr (r a : Nat) : Prop := wakeAddr a ∨ tagAddr a ∨ a = R.RING_MARK_OVR_W r

theorem tagAddr_iff (a : Nat) : tagAddr a ↔ strandAddr a ∨ (0x10220000 ≤ a ∧ a < 0x10240000) ∨ a = 0x1020050C := Iff.rfl
theorem wakeAddr_iff (a : Nat) : wakeAddr a ↔ a % 0x40 = 4 ∨ a % 0x100 = 0 ∨ a % 0x100 = 0x64 ∨ a % 0x100 = 0x68 ∨
    a % 0x100 = 0x6C ∨ a % 0x1000 = 0x40 ∨ observer a = true := Iff.rfl

theorem not_wakeAddr_MARK_OVR (r : Nat) : ¬wakeAddr (R.RING_MARK_OVR_W r) := by
  rw [wakeAddr_iff, observer_iff, R.RING_MARK_OVR_W]; omega
theorem observer_MARK_OVR (r : Nat) : observer (R.RING_MARK_OVR_W r) = false :=
  Bool.eq_false_iff.2 fun e => not_wakeAddr_MARK_OVR r (wakeAddr_observer _ e)
theorem not_tagAddr_MARK_OVR (r : Fin 4) : ¬tagAddr (R.RING_MARK_OVR_W r) := by
  rw [tagAddr_iff, strandAddr_iff, observer_iff, R.RING_MARK_OVR_W]; omega
theorem not_markAddr_PD_STAT (r : Fin 4) : ¬markAddr r R.PMU_PD_STAT_W := by
  unfold markAddr
  rw [wakeAddr_iff, tagAddr_iff, strandAddr_iff, observer_iff, R.PMU_PD_STAT_W, R.RING_MARK_OVR_W]; omega
theorem not_strandAddr_MARK_OVR (r : Fin 4) : ¬strandAddr (R.RING_MARK_OVR_W r) := fun e => not_tagAddr_MARK_OVR r (.inl e)
theorem not_wakeAct_MARK_C (r : Fin 4) (m : Fin 16) : ¬wakeAct (R.RING_MARK_C r m) := by
  unfold wakeAct R.RING_MARK_C; omega

/-! SNP.STAT and MARK_FIRED lie apart from what the actions write. -/

theorem TAG_CTL_ne_SNP_STAT {t : Nat} (ht : t < 2 ^ 14) : R.TAG_CTL t ≠ R.SNP_STAT := by unfold R.TAG_CTL R.SNP_STAT; omega
theorem TAG_VALUE_ne_SNP_STAT {t : Nat} (ht : t < 2 ^ 14) : R.TAG_VALUE_W t ≠ R.SNP_STAT := by
  unfold R.TAG_VALUE_W R.SNP_STAT; omega
theorem MARK_OVR_ne_SNP_STAT (r : Fin 4) : R.RING_MARK_OVR_W r ≠ R.SNP_STAT := by unfold R.RING_MARK_OVR_W R.SNP_STAT; omega
theorem ST_IPEND_ne_SNP_STAT {t : Nat} (ht : t < 1024) : R.ST_IPEND_W t ≠ R.SNP_STAT := by unfold R.ST_IPEND_W R.SNP_STAT; omega
theorem TAG_CTL_ne_MARK_FIRED (t : Nat) (r : Fin 4) : R.TAG_CTL t ≠ R.RING_MARK_FIRED_W r := by
  unfold R.TAG_CTL R.RING_MARK_FIRED_W; omega
theorem TAG_VALUE_ne_MARK_FIRED (t : Nat) (r : Fin 4) : R.TAG_VALUE_W t ≠ R.RING_MARK_FIRED_W r := by
  unfold R.TAG_VALUE_W R.RING_MARK_FIRED_W; omega
theorem MARK_OVR_ne_MARK_FIRED (r : Fin 4) : R.RING_MARK_OVR_W r ≠ R.RING_MARK_FIRED_W r := by
  unfold R.RING_MARK_OVR_W R.RING_MARK_FIRED_W; omega
theorem ST_IPEND_ne_MARK_FIRED (t : Nat) (r : Fin 4) : R.ST_IPEND_W t ≠ R.RING_MARK_FIRED_W r := by
  unfold R.ST_IPEND_W R.RING_MARK_FIRED_W; omega
theorem IRQDROP_ne_MARK_FIRED (r : Fin 4) : R.DSP_IRQDROP_CNT_W ≠ R.RING_MARK_FIRED_W r := by
  unfold R.DSP_IRQDROP_CNT_W R.RING_MARK_FIRED_W; omega
theorem SNP_STAT_ne_MARK_FIRED (r : Fin 4) : R.SNP_STAT ≠ R.RING_MARK_FIRED_W r := by
  unfold R.SNP_STAT R.RING_MARK_FIRED_W; omega

/-- A firing with TAGEN: its tag is full with the cycle, a tag that was full sets the mark's OVR bit (R92). -/
structure MarkTagged (s t : State) (r m tag c : Nat) : Prop where
  full : t.f (R.TAG_CTL_FULL tag) = 1
  value : t.f (R.TAG_VALUE tag) = c % 2 ^ 32
  overrun : s.f (R.TAG_CTL_FULL tag) = 1 → bit (t.f (R.RING_MARK_OVR_OVR r)) m = true
  writes : Writes (markAddr r) wakeAct s t

theorem strandAddr_markAddr (r a : Nat) (h : strandAddr a) : markAddr r a := .inr (.inl (.inl h))

/-- A firing with TAGEN, up to the wakes: a tag that is full sets OVR and is reported. -/
def State.markNoted (s : State) (r m : Nat) : State :=
  let t := s.fa (R.RING_MARK_C_TAG r m)
  if s.on (R.TAG_CTL_FULL t) then
    (s.orF (R.RING_MARK_OVR_OVR r) (2 ^ m)).report (srcOf 4 (16 * r + m)) clsWarn 0 [t, (s.markCyc r).1]
  else s

/-- The virtual axes of the mark are woken in cycle `c`. -/
def State.markWakes (s : State) (r m st c : Nat) : State :=
  forN 256 (fun n s =>
    if s.axKind n == kVirtual && s.axisMark n == some (r, m) then
      (s.modAx n (fun x => { x with sStamp := st })).wokenIn n c
    else s) s

theorem State.markTag_eq (s : State) (r m : Nat) : s.markTag r m =
    ((s.markNoted r m).markWakes r m (u32 ((s.markCyc r).2.1 + s.fa (R.RING_MARK_T_OFFSET r m) : Nat)) (s.markCyc r).1).fillTag
      (s.fa (R.RING_MARK_C_TAG r m)) (s.markCyc r).1 := rfl

theorem State.markNoted_keeps (s : State) (r m : Nat) : Keeps s (s.markNoted r m) :=
  keeps_ite _ (State.report_keeps _ _ _ _ _ (State.orF_keeps _ _ _ (Keeps.refl s))) (Keeps.refl s)

theorem State.markNoted_writes (s : State) (r m : Nat) : Writes (markAddr r) wakeAct s (s.markNoted r m) :=
  .ite _ (((Writes.refl s).set _ _ (.inr (.inr rfl))).alike (fun a e => .inl (wakeAddr_observer a e)) (alike_report _ _ _ _ _))
    (Writes.refl s)

theorem State.markNoted_overrun {s : State} (h : s.canonical = true) (r : Nat) (m : Fin 16)
    (hfull : s.f (R.TAG_CTL_FULL (s.fa (R.RING_MARK_C_TAG r m))) = 1) :
    bit ((s.markNoted r m).f (R.RING_MARK_OVR_OVR r)) m = true := by
  unfold State.markNoted
  simp only [(State.on_iff rfl).2 hfull, ↓reduceIte]
  rw [(alike_report _ _ _ _ _).f _ (observer_MARK_OVR r)]
  exact State.bit_orF h _ (by simp) (by simp)

theorem State.markWakes_keeps (s : State) (r m st c : Nat) : Keeps s (s.markWakes r m st c) :=
  keeps_forN (Keeps.refl s) _ _ fun _ _ k => keeps_ite _ (State.wokenIn_keeps _ _ _ (State.modAx_keeps _ _ _ k)) k

theorem State.markWakes_writes (s : State) (r m st c : Nat) : Writes wakeAddr wakeAct s (s.markWakes r m st c) :=
  (Writes.refl s).forN _ _ fun _ _ k => .ite _ (State.wokenIn_writes (k.modAx _ _) _ _) k

theorem State.markTag_tagged {s : State} (h : s.canonical = true) (r : Fin 4) (m : Fin 16) :
    MarkTagged s (s.markTag r m) r m (s.fa (R.RING_MARK_C_TAG r m)) (s.markCyc r).1 := by
  rw [State.markTag_eq]
  generalize u32 ((s.markCyc r).2.1 + s.fa (R.RING_MARK_T_OFFSET r m) : Nat) = st
  have hwakes := State.markWakes_writes (s.markNoted r m) r m st (s.markCyc r).1
  have hwoken := (State.markWakes_keeps (s.markNoted r m) r m st (s.markCyc r).1).canon ((State.markNoted_keeps s r m).canon h)
  obtain ⟨hfull, hvalue, hfill⟩ :=
    State.fillTag_full hwoken (k := s.fa (R.RING_MARK_C_TAG r m)) (bits_lt _ _ _) (s.markCyc r).1
  refine ⟨hfull, hvalue, fun hover => ?_, ((State.markNoted_writes s r m).trans (hwakes.mono (fun _ => .inl) fun _ => id)).trans
    (hfill.mono (fun _ => .inr ∘ .inl) fun _ => False.elim)⟩
  rw [hfill.f _ (not_tagAddr_MARK_OVR r), hwakes.f _ (not_wakeAddr_MARK_OVR r)]
  exact State.markNoted_overrun h r m hover

theorem State.markCyc_modRing {s : State} (h : s.canonical = true) (r : Nat) (f : Ring → Ring) (hf : ∀ x, (f x).fol = x.fol) :
    (s.modRing r f).markCyc r = s.markCyc r := by
  have hfol : ((s.modRing r f).ring r).fol = (s.ring r).fol := by rw [State.modRing, State.ring_setRing_self h, hf]
  unfold State.markCyc
  rw [hfol]
  rfl

/-! ## Interrupts routed from a mark (R316) -/

theorem ST_IPEND_ne_ST_STAT (t : Nat) : R.ST_IPEND_W t ≠ R.ST_STAT t := by unfold R.ST_IPEND_W R.ST_STAT; omega
theorem observer_ST_IPEND {t : Nat} (ht : t < 1024) : observer (R.ST_IPEND_W t) = false := by
  rw [Bool.eq_false_iff, ne_eq, observer_iff, R.ST_IPEND_W]; omega

/-- An interrupt of a strand that is not IDLE is pending. -/
theorem State.raiseInt_pends {s : State} (h : s.canonical = true) {t i : Nat} (ht : t < 1024) (hi : i < 5)
    (hst : s.f (R.ST_STAT_STATE t) ≠ 0) (einfo : Nat) : bit ((s.raiseInt t i einfo).f (R.ST_IPEND t)) i = true := by
  unfold State.raiseInt
  extract_lets pend noted
  have hidle : (s.stOf t == stIdle) = false := beq_eq_false_iff_ne.2 hst
  have hnoted : bit (noted.f (R.ST_IPEND t)) i = true := State.bit_orF h (R.ST_IPEND t) (by simp) (by simpa using hi)
  have hready : (noted.makeReady t noted.gnow 0xFFFFFFFF).f (R.ST_IPEND t) = noted.f (R.ST_IPEND t) :=
    ((alike_traceS _ _ _ _ _).f _ (observer_ST_IPEND ht)).trans (State.f_set_ne _ _ _ (ST_IPEND_ne_ST_STAT t))
  simp only [hidle, Bool.false_eq_true, ↓reduceIte]
  split
  · rw [hready]; exact hnoted
  · exact hnoted

/-- What the routing of an interrupt through IRT[x] leaves: it is pending for the strand the entry names, or, without an entry,
its drop is counted. -/
structure Routed (s t : State) (x i : Nat) : Prop where
  pends : s.f (R.DSP_IRT_EN x) = 1 → s.f (R.ST_STAT_STATE (s.f (R.DSP_IRT_STRAND x))) ≠ 0 →
    bit (t.f (R.ST_IPEND (s.f (R.DSP_IRT_STRAND x)))) i = true
  drops : s.f (R.DSP_IRT_EN x) = 0 → t.f R.DSP_IRQDROP_CNT = min (s.f R.DSP_IRQDROP_CNT + 1) (2 ^ 32 - 1)

theorem State.irq_routed {s : State} (h : s.canonical = true) (x : Nat) {i : Nat} (hi : i < 5) (einfo : Nat) :
    Routed s (s.irq x i einfo) x i where
  pends hen hst := by
    rw [State.irq, if_pos ((State.on_iff rfl).2 hen)]
    exact State.raiseInt_pends h (State.f_lt s _) hi hst einfo
  drops hen := by
    rw [State.irq, State.on_eq_false hen, if_neg Bool.false_ne_true, State.count, State.f_set_self h _ _ (by decide) (by decide)]
    exact Nat.mod_eq_of_lt (by simp only [R.DSP_IRQDROP_CNT]; omega)

/-! ## The firing -/

/-- The mark has fired in this cycle (R91). -/
def State.markOnce (s : State) (r m : Nat) : State :=
  s.modRing r (fun x => { x with firedIn := SMap.put (fun _ => 0) x.firedIn m ((s.markCyc r).1 + 1) })

/-- A firing after the actions of TAGEN, of IRQ, and of SNAP; FIRED follows (R92). -/
def State.markAfterTag (s : State) (r m : Nat) : State :=
  if s.onA (R.RING_MARK_C_TAGEN r m) then (s.markOnce r m).markTag r m else s.markOnce r m
def State.markAfterIrq (s : State) (r m : Nat) : State :=
  if (s.markAfterTag r m).onA (R.RING_MARK_C_IRQ r m) then (s.markAfterTag r m).irq (16 * r + m) 2 (16 * r + m) else s.markAfterTag r m
def State.markAfterSnap (s : State) (r m : Nat) : State :=
  if (s.markAfterIrq r m).onA (R.RING_MARK_C_SNAP r m) then
    (s.markAfterIrq r m).snapFire (s.markCyc r).1 (u32 ((s.markCyc r).2.1 + (s.markAfterIrq r m).fa (R.RING_MARK_T_OFFSET r m) : Nat))
  else s.markAfterIrq r m

theorem State.markAct_eq (s : State) (r m : Nat) :
    s.markAct r m = (s.markAfterSnap r m).orF (R.RING_MARK_FIRED_FIRED r) (2 ^ m) := rfl

@[simp] theorem State.markOnce_onA (s : State) (r m : Nat) (x : Fld) : (s.markOnce r m).onA x = s.onA x := rfl

theorem State.markOnce_keeps (s : State) (r m : Nat) : Keeps s (s.markOnce r m) := State.modRing_keeps _ _ _ (Keeps.refl s)

theorem State.markAfterTag_keeps (s : State) (r m : Nat) : Keeps s (s.markAfterTag r m) :=
  keeps_ite _ (State.markTag_keeps _ _ _ (State.markOnce_keeps s r m)) (State.markOnce_keeps s r m)

theorem State.markAfterIrq_keeps (s : State) (r m : Nat) : Keeps s (s.markAfterIrq r m) :=
  keeps_ite _ (State.irq_keeps _ _ _ _ (State.markAfterTag_keeps s r m)) (State.markAfterTag_keeps s r m)

theorem State.markAfterSnap_keeps (s : State) (r m : Nat) : Keeps s (s.markAfterSnap r m) :=
  keeps_ite _ (State.snapFire_keeps _ _ _ (State.markAfterIrq_keeps s r m)) (State.markAfterIrq_keeps s r m)

section
variable {s : State} (h : s.canonical = true) (r : Fin 4) (m : Fin 16)

theorem State.markAfterTag_untagged (ht : s.fa (R.RING_MARK_C_TAGEN r m) = 0) : s.markAfterTag r m = s.markOnce r m := by
  rw [State.markAfterTag, State.onA_eq_false ht, if_neg Bool.false_ne_true]

theorem State.markAfterIrq_writes_afterTag : Writes strandAddr noAct (s.markAfterTag r m) (s.markAfterIrq r m) :=
  .ite _ (State.irq_writes (Writes.refl _) _ _ _) (Writes.refl _)

theorem State.markAfterSnap_f (x : Fld) (hx : x.addr ≠ R.SNP_STAT) (ho : observer x.addr = false) :
    (s.markAfterSnap r m).f x = (s.markAfterIrq r m).f x := by
  unfold State.markAfterSnap
  split
  · exact State.snapFire_f _ _ _ _ hx ho
  · rfl

/-- What SNAP and FIRED leave of a register that the actions before them wrote. -/
theorem State.markAct_f (x : Fld) (hx : x.addr ≠ R.SNP_STAT) (ho : observer x.addr = false) (hf : x.addr ≠ R.RING_MARK_FIRED_W r) :
    (s.markAct r m).f x = (s.markAfterIrq r m).f x := by
  rw [State.markAct_eq, State.orF, State.f_set_ne _ _ _ hf, State.markAfterSnap_f r m x hx ho]

/-- What IRQ, SNAP and FIRED leave of a register that TAGEN wrote. -/
theorem State.markAct_f_afterTag (x : Fld) (hx : x.addr ≠ R.SNP_STAT) (hs : ¬strandAddr x.addr)
    (hf : x.addr ≠ R.RING_MARK_FIRED_W r) :
    (s.markAct r m).f x = (s.markAfterTag r m).f x := by
  rw [State.markAct_f r m x hx (Bool.eq_false_iff.2 fun e => hs (strandAddr_observer _ e)) hf,
    (State.markAfterIrq_writes_afterTag r m).f x hs]

include h

theorem State.markAfterTag_tagged (ht : s.fa (R.RING_MARK_C_TAGEN r m) = 1) :
    MarkTagged s (s.markAfterTag r m) r m (s.fa (R.RING_MARK_C_TAG r m)) (s.markCyc r).1 := by
  obtain ⟨hfull, hvalue, hover, hwrites⟩ := State.markTag_tagged ((State.markOnce_keeps s r m).canon h) r m
  rw [show (s.markOnce r m).markCyc r = s.markCyc r from State.markCyc_modRing h r _ fun _ => rfl] at hvalue
  rw [State.markAfterTag, if_pos ((State.onA_iff rfl).2 ht)]
  exact ⟨hfull, hvalue, hover, ((Writes.refl s).modRing _ _).trans hwrites⟩

theorem State.markAfterTag_writes : Writes (markAddr r) wakeAct s (s.markAfterTag r m) := by
  by_cases ht : s.fa (R.RING_MARK_C_TAGEN r m) = 1
  · exact (State.markAfterTag_tagged h r m ht).writes
  · have h0 : s.fa (R.RING_MARK_C_TAGEN r m) < 2 := bits_lt _ _ _
    rw [State.markAfterTag_untagged r m (by omega)]
    exact (Writes.refl s).modRing _ _

theorem State.markAfterIrq_writes : Writes (markAddr r) wakeAct s (s.markAfterIrq r m) :=
  (State.markAfterTag_writes h r m).trans ((State.markAfterIrq_writes_afterTag r m).mono (strandAddr_markAddr r) fun _ => False.elim)

/-- No firing takes a fid. -/
theorem State.markAct_fid : (s.markAct r m).fid = s.fid := by
  have hsnap : (s.markAfterSnap r m).fid = (s.markAfterIrq r m).fid := by
    unfold State.markAfterSnap
    split
    · exact State.snapFire_fid _ _ _
    · rfl
  exact hsnap.trans (State.markAfterIrq_writes h r m).fid

theorem State.markAct_fired : bit ((s.markAct r m).f (R.RING_MARK_FIRED_FIRED r)) m = true :=
  State.bit_orF ((State.markAfterSnap_keeps s r m).canon h) _ (by simp) (by simp)

theorem State.markAct_tagged (ht : s.fa (R.RING_MARK_C_TAGEN r m) = 1) :
    (s.markAct r m).f (R.TAG_CTL_FULL (s.fa (R.RING_MARK_C_TAG r m))) = 1 ∧
      (s.markAct r m).f (R.TAG_VALUE (s.fa (R.RING_MARK_C_TAG r m))) = (s.markCyc r).1 % 2 ^ 32 ∧
      (s.f (R.TAG_CTL_FULL (s.fa (R.RING_MARK_C_TAG r m))) = 1 → bit ((s.markAct r m).f (R.RING_MARK_OVR_OVR r)) m = true) := by
  obtain ⟨hfull, hvalue, hover, -⟩ := State.markAfterTag_tagged h r m ht
  have htag : s.fa (R.RING_MARK_C_TAG r m) < 2 ^ 14 := bits_lt _ _ _
  refine ⟨?_, ?_, fun e => ?_⟩
  · rw [State.markAct_f_afterTag r m _ (TAG_CTL_ne_SNP_STAT htag) (not_strandAddr_TAG_CTL htag) (TAG_CTL_ne_MARK_FIRED _ r), hfull]
  · rw [State.markAct_f_afterTag r m _ (TAG_VALUE_ne_SNP_STAT htag) (not_strandAddr_TAG_VALUE htag)
      (TAG_VALUE_ne_MARK_FIRED _ r), hvalue]
  · rw [State.markAct_f_afterTag r m _ (MARK_OVR_ne_SNP_STAT r) (not_strandAddr_MARK_OVR r) (MARK_OVR_ne_MARK_FIRED r)]
    exact hover e

theorem State.markAct_routed (ht : s.fa (R.RING_MARK_C_TAGEN r m) = 0) (hi : s.fa (R.RING_MARK_C_IRQ r m) = 1) :
    Routed s (s.markAct r m) (16 * r + m) 2 := by
  have hcanon := (State.markAfterTag_keeps s r m).canon h
  have hirq : s.markAfterIrq r m = (s.markAfterTag r m).irq (16 * r + m) 2 (16 * r + m) := by
    refine if_pos ((State.onA_iff rfl).2 ?_)
    rw [State.markAfterTag_untagged r m ht]
    exact hi
  have key := State.irq_routed hcanon (16 * r + m) (i := 2) (by decide) (16 * r + m)
  rw [← hirq, State.markAfterTag_untagged r m ht] at key
  have hu : s.f (R.DSP_IRT_STRAND (16 * r + m)) < 1024 := State.f_lt s _
  refine ⟨fun hen hst => ?_, fun hen => ?_⟩
  · rw [State.markAct_f r m _ (ST_IPEND_ne_SNP_STAT hu) (observer_ST_IPEND hu) (ST_IPEND_ne_MARK_FIRED _ r)]
    exact key.pends hen hst
  · rw [State.markAct_f r m _ (by decide) (by decide) (IRQDROP_ne_MARK_FIRED r)]
    exact key.drops hen

theorem State.markAct_snaps (hs : s.fa (R.RING_MARK_C_SNAP r m) = 1) (hpd : s.pdOn 22 = true) (hfill : s.host.fill = none) :
    (s.markAct r m).f R.SNP_STAT_COPY = 1 ∧ (s.markAct r m).host.fill.isSome = true := by
  have hwrites := State.markAfterIrq_writes h r m
  have hsnap : (s.markAfterIrq r m).fa (R.RING_MARK_C_SNAP r m) = 1 := (hwrites.fa _ (not_wakeAct_MARK_C r m)).trans hs
  have hpower : (s.markAfterIrq r m).pdOn 22 = true := by
    rw [State.pdOn, hwrites.f _ (not_markAddr_PD_STAT r), hwrites.pmu]; exact hpd
  have hstarts := State.snapFire_starts ((State.markAfterIrq_keeps s r m).canon h) hpower (hwrites.host ▸ hfill)
  rw [State.markAct_eq, State.orF, State.f_set_ne _ _ _ (SNP_STAT_ne_MARK_FIRED r), State.set_host, State.markAfterSnap,
    if_pos ((State.onA_iff rfl).2 hsnap)]
  exact hstarts _ _

omit h in
/-- With none of the actions a firing notes its cycle and sets FIRED. -/
theorem State.markAct_plain (ht : s.fa (R.RING_MARK_C_TAGEN r m) = 0) (hi : s.fa (R.RING_MARK_C_IRQ r m) = 0)
    (hs : s.fa (R.RING_MARK_C_SNAP r m) = 0) :
    s.markAct r m = (s.markOnce r m).orF (R.RING_MARK_FIRED_FIRED r) (2 ^ m.val) := by
  have htag := State.markAfterTag_untagged r m ht
  have hirq : s.markAfterIrq r m = s.markOnce r m := by
    rw [State.markAfterIrq, htag, State.markOnce_onA, State.onA_eq_false hi, if_neg Bool.false_ne_true]
  rw [State.markAct_eq, State.markAfterSnap, hirq, State.markOnce_onA, State.onA_eq_false hs, if_neg Bool.false_ne_true]

end

/-- Whether a mark fires, in the fields' values (R91). -/
theorem State.markFires_iff (s : State) (r m : Nat) : s.markFires r m = true ↔
    s.fa (R.RING_MARK_C_EN r m) = 1 ∧
      (s.markCyc r).1 % 2 ^ s.fa (R.RING_MARK_C_DIVEXP r m) = s.fa (R.RING_MARK_C_PHASE r m) % 2 ^ s.fa (R.RING_MARK_C_DIVEXP r m) ∧
      s.fa (R.RING_MARK_T_OFFSET r m) < (s.markCyc r).2.2 ∧ s.islOn (ringIsl r) = true ∧ s.locked (ringIsl r) = true ∧
      (s.ring r).live = true ∧ SMap.get (fun _ => 0) (s.ring r).firedIn m ≠ (s.markCyc r).1 + 1 := by
  simp only [State.markFires, Bool.and_eq_true, State.onA_iff (x := R.RING_MARK_C_EN r m) rfl, beq_iff_eq, decide_eq_true_eq,
    bne_iff_ne, and_assoc]

theorem State.fidTake_nil {s : State} (h : s.fid.pend = []) (p : Nat → Bool) : s.fidTake p = s := by
  simp [State.fidTake, h]

theorem State.markCyc_own {s : State} {r : Nat} (h : s.f (R.RING_STAT_STATE r) ≠ 7 ∨ s.anySending = false) :
    s.markCyc r = (s.cyc, s.ringCstart r s.cyc, s.lenCyc) := by
  have hfol : ¬(s.rpSt r = rpFollow ∧ s.anySending = true) := by
    rintro ⟨hst, hsend⟩
    obtain hne | hno := h
    · exact hne hst
    · rw [hno] at hsend; cases hsend
  simp only [State.markCyc, Bool.and_eq_true, decide_eq_true_eq, hfol, ↓reduceIte]

theorem exec_markFire (r : Fin 4) (m : Fin 16) (s : State) : exec (.markFire r m) s = .next (s.markFire r m) := rfl

/-- Settles O37: a mark that does not fire changes nothing; one that fires takes its actions, and no fid waits for it. -/
theorem markFiring : Obligations.MarkFiring := by
  unfold Obligations.MarkFiring
  intro s r m hcanon hpend
  simp only [← State.markFires_iff, exec_markFire]
  refine ⟨State.markCyc_own, fun hno => ?_, fun hfires => ⟨s.markAct r m, ?_, State.markAct_fired hcanon r m,
    State.markAct_tagged hcanon r m, State.markAct_plain r m, fun ht hi => ?_, State.markAct_snaps hcanon r m⟩⟩
  · rw [State.markFire, if_neg hno]
  · rw [State.markFire, if_pos hfires, State.fidTake_nil ((congrArg Fids.pend (State.markAct_fid hcanon r m)).trans hpend)]
  · obtain ⟨hpends, hdrops⟩ := State.markAct_routed hcanon r m ht hi
    exact ⟨hpends, hdrops⟩

/-! ## A release deadline fixes ENABLE of a stepper gang's segment too (O32) -/

/-- Channel 0 leads stepper gang 0, which stands for axis 0; the axis is in OFF and no release is held for it. -/
def gangInOff : State := (State.reset.setA (R.PC_CTRL_AXEN 0) 1).setA (R.PC_STP_CTRL_GANG 0) 1

theorem gangInOff_deadline : ∃ t, exec (.releaseDeadline 0) gangInOff = .next t ∧ (t.gang 0).planOff = true :=
  ⟨_, rfl, by decide +kernel⟩

theorem Alike.gang {v t : State} (h : Alike v t) (q : Nat) : t.gang q = v.gang q := by
  unfold State.gang
  rw [h.pwr]

/-- Refutes O32: the deadline of a stepper gang also fixes whether its segment commands Z (`planOff`, R356, R368), and the
statement leaves that as it was. With the axis in OFF and no release held it turns from false to true. -/
theorem not_releaseDeadlinePayload : ¬ Obligations.ReleaseDeadlinePayload := by
  unfold Obligations.ReleaseDeadlinePayload
  intro h
  obtain ⟨-, -, hgang⟩ := h gangInOff 0 (by decide) rfl
  obtain ⟨-, hpolicy, -⟩ := hgang 0 (by decide) (by decide)
  obtain ⟨t, ht, halike⟩ := hpolicy (by decide) (by decide)
  obtain ⟨t', ht', hoff⟩ := gangInOff_deadline
  obtain rfl : t = t' := by simpa [ht] using ht'
  rw [halike.gang] at hoff
  revert hoff
  decide +kernel

/-! ## A loop that does nothing -/

/-- A loop whose every turn leaves the state as it is. -/
theorem forN_eq_self {σ : Type} {n : Nat} {f : Nat → σ → σ} {s : σ} (h : ∀ i < n, f i s = s) : forN n f s = s := by
  induction n with
  | zero => rfl
  | succ n ih =>
    have step : forN (n + 1) f s = f n (forN n f s) := by simp [forN, List.range_succ]
    rw [step, ih fun i hi => h i (by omega), h n (by omega)]

/-- Axes of no kind have no landing to lose (R120). -/
theorem State.lossBoundary_unused {s : State} (n : Nat) (h : ∀ a < 256, s.axKind a = kUnused) : s.lossBoundary n = s := by
  refine forN_eq_self fun a ha => ?_
  have hdue : s.axKind a ≠ kNetwork ∧ s.axKind a ≠ kLocal := by rw [h a ha]; decide
  cases hb : s.boundNode a with
  | none => simp [hdue.2]
  | some p => simp [hdue.1]

/-! ## A boundary with a grant outside the node table (O36) -/

/-- A grant of node address 71,553, where R67 grants 1 to 64: the table entry it would have is the duplex block's registers,
and the high word of its serial number lies on DX.STAT. -/
def strayGrant : Grant := ⟨2 ^ 32 - 3, 0x11781, 2 ^ 32, 0, 0, 0⟩

/-- Reset, with the grant due at the boundary of cycle 1 and, in the duplex block that is off, a class G record for that boundary. -/
def strayState : State :=
  { State.reset with
    net := { rings := [(0, { grants := [strayGrant] })] }
    dx := { wait := [(1, .classG 1 [(R.TB_TCYC_W, 31250, 0)])] } }

/-- Cycle 1 has begun. -/
def strayBegun : State := { strayState with tim := { cyc := 1, cstartA := 31250, cstartB := 31250 } }

/-- The grant has become valid: DX.STAT.STATE reads SEEK. -/
def straySeek : State :=
  (((strayBegun.setReg R.DX_CTRL 0).setReg R.DX_STAT dxSeek).setReg (R.DX_STAT + 4) 0).setRing 0
    { grants := [strayGrant], mbox := [{ addr := 0x11781, mop := 2, obj := 6, data := List.replicate 8 0, use := 4 }] }

theorem strayState_nextCycle : strayState.nextCycle = strayBegun := by decide +kernel

theorem strayBegun_commits :
    (((strayBegun.ringCommits 1).knotBoundary 1).tcycChange 1 strayState.tcyc).axisCommits 1 = strayBegun := by decide +kernel

theorem strayBegun_channels : ((strayBegun.chanBoundary 1).groupBoundary 1).pinBoundary 1 = strayBegun := by decide +kernel

theorem strayBegun_rings : forN 4 (fun r s => s.ringBoundary r 1) strayBegun = straySeek := by decide +kernel

theorem straySeek_live :
    forN 4 (fun r s => s.modRing r (fun x => { x with live := s.rpSt r != rpIdle && s.rpSt r != rpListen })) straySeek =
      straySeek := by
  decide +kernel

theorem straySeek_binds : straySeek.deriveBinds.capsBound straySeek = straySeek := by decide +kernel

theorem straySeek_axKind {a : Nat} (ha : a < 256) : straySeek.axKind a = kUnused :=
  State.reset_fa (resetWord_AX_CTRL ha) (by simp [bits, kUnused])

theorem straySeek_losses : straySeek.lossBoundary 1 = straySeek := State.lossBoundary_unused 1 fun _ => straySeek_axKind

theorem straySeek_landings : straySeek.valveLandings 1 = straySeek := by decide +kernel

theorem strayBegun_ports : strayBegun.portsBoundary 1 = straySeek := by
  unfold State.portsBoundary
  dsimp only
  rw [strayBegun_rings, straySeek_live, straySeek_binds, straySeek_losses, straySeek_landings]

theorem straySeek_gangs : ((straySeek.gangBoundary 1).belBoundary).switchBoundary.boundaryMarks.heldLand = straySeek := by
  decide +kernel

theorem straySeek_rest : ((straySeek.dxBoundary 1).mirrorBoundary strayState 1).busBoundary 0 =
    { straySeek.setActReg R.TB_TCYC_W 0 with dx := {} } := by decide +kernel

/-- The boundary leaves 0 in the active TCYC, from the record that the block installs in SEEK. -/
theorem strayState_boundary : strayState.cycleBoundary = { straySeek.setActReg R.TB_TCYC_W 0 with dx := {} } := by
  unfold State.cycleBoundary
  simp only [strayState_nextCycle]
  rw [show strayBegun.cyc = 1 from rfl, strayBegun_commits, strayBegun_channels, strayBegun_ports, straySeek_gangs]
  rw [show u32 (((1 : Nat) : Int) - 1) = 0 from rfl, straySeek_rest]
  rfl

theorem exec_cycleBoundary (s : State) : exec .cycleBoundary s = .next s.cycleBoundary := rfl

/-- Refutes O36: the statement does not keep the node address of a grant within the 64 of R67. The boundary fills the table
entry of address 71,553, which is the duplex block's DX.STAT; the block leaves OFF within the boundary and installs a record
that waits there, and the active TCYC is 0 where the staged one is 31,250. No command grants such an address: the statement
lacks the bound. -/
theorem not_cycleBoundaryAdvances : ¬ Obligations.CycleBoundaryAdvances := by
  unfold Obligations.CycleBoundaryAdvances
  intro h
  obtain ⟨t, ht, -, -, htcyc, -⟩ :=
    h strayState (by decide) rfl (by decide) rfl rfl rfl (by decide +kernel) (by decide +kernel) (by decide)
  rw [exec_cycleBoundary, strayState_boundary] at ht
  cases ht
  revert htcyc
  decide

end Sys2Proof.Machine

/-! PROOFS. The axis control law (spec/04_axis_control_law.md): supervisor events, limit inputs, and activations. -/

namespace Sys2Proof.Machine

/-! ## A limit input stops a stepper gang by hardware too (O33) -/

/-- Stepper gang 0 stands for axis 0, which is in STEP; one microstep toward the positive side is left of its input target,
and the limit inputs stop the gang by hardware. -/
def gangAtLimit : State :=
  ((((gangInOff.setA (R.PC_STP_CTRL_LIMHW 0) 1).setA (R.AX_CTRL_KIND 0) kLocal).setA (R.AX_CTRL_MODE 0) mStep).setA
    (R.AX_LIM_PPIN 0) 3).setGang 0 { left := 1, tgt := 1 }

theorem gangAtLimit_hit : ∃ t, exec (.limitInputActive 0 false) gangAtLimit = .next t ∧ (t.gang 0).left = 0 :=
  ⟨_, rfl, by decide +kernel⟩

/-- Refutes O33: with STP.CTRL.LIMHW = 1 an active limit input also drops what a stepper gang has left to move toward the
active side (R364), and the statement leaves the gang as it was. -/
theorem not_axisSupervisorEvents : ¬ Obligations.AxisSupervisorEvents := by
  unfold Obligations.AxisSupervisorEvents
  intro h
  obtain ⟨-, -, -, -, hlimit⟩ := h gangAtLimit 0 (by decide)
  obtain ⟨-, hactive⟩ := hlimit false
  obtain ⟨t, ht, halike⟩ := hactive (by decide) (by decide)
  obtain ⟨t', ht', hleft⟩ := gangAtLimit_hit
  obtain rfl : t = t' := by simpa [ht] using ht'
  rw [halike.gang] at hleft
  revert hleft
  decide +kernel

/-! ## A waiting limit stop whose stamp is no u32 (O38) -/

/-- A user program runs axis 0 in PROFILE, and a limit stop waits with the stamp 2^32 + 1; the latest landing is stamped 0. -/
def wideStampLimit : State :=
  (((State.reset.setA (R.AX_CTRL_KIND 0) kNetwork).setA (R.AX_CTRL_LOOP 0) 1).setA (R.AX_CTRL_MODE 0) mProfile).setAx 0
    { lim := some (2 ^ 32 + 1, false) }

/-- The i32 difference of the landing's stamp and the stop's is -1: the stop is not due, and the mode stays. -/
theorem wideStampLimit_runsOn :
    ∃ t, exec (.standardLoopActivation 0) wideStampLimit = .next t ∧ t.fa (R.AX_CTRL_MODE 0) = mProfile :=
  ⟨_, rfl, by decide +kernel⟩

/-- Refutes O38: the statement does not keep the stamp of a waiting limit stop within 32 bits. It takes 2^32 + 1 for due
at a wake stamped 0, because its difference of naturals ends at 0, where the block's i32 difference (R24) is -1 and the stop goes on
waiting: the mode of the user program's axis stays PROFILE. No command leaves such a stamp: the statement lacks the bound. -/
theorem not_standardLoopActivation : ¬ Obligations.StandardLoopActivation := by
  unfold Obligations.StandardLoopActivation
  intro h
  obtain ⟨-, huser, -⟩ := h wideStampLimit 0 (by decide) rfl (by decide) (by decide)
  obtain ⟨t, ht, -, -, hstops⟩ := huser (by decide) (by decide)
  obtain ⟨-, -, -, hmode⟩ := hstops (.inr (.inr (.inr ⟨_, rfl, by decide⟩)))
  obtain ⟨t', ht', hruns⟩ := wideStampLimit_runsOn
  obtain rfl : t = t' := by simpa [ht] using ht'
  exact absurd (hmode.symm.trans hruns) (by decide)

end Sys2Proof.Machine

/-! PROOFS. The axis block (spec/07_axis_block.md): landings, commit requests, and the ends of plans, stops and sweep steps. -/

namespace Sys2Proof.Machine

/-! ## An over-current landing of a valve axis makes a queued shot late (O34) -/

/-- A shot under way on a valve's channel. -/
def openShot : Shot := { ton := 0, dur := 1000, vpeak := 0, per := 0, vhold := 0, minp := 0, fw := false, ipeak := 0, ihold := 0 }

/-- The valve on channel 0 serves axis 0, which is in VALVE: a shot runs, and the queue's head lies 1 ns in the past. -/
def valveInShot : State :=
  ((((State.reset.setA (R.PC_CTRL_MODE 0) 4).setA (R.PC_CTRL_AXEN 0) 1).setA (R.AX_CTRL_KIND 0) kLocal).setA
    (R.AX_CTRL_MODE 0) mValve).setChan 0 { shot := some openShot, queue := [(2 ^ 32 - 1, 1000)] }

/-- A sample with an over-current waits for the axis, whose action for it is STO. -/
def valveOverCurrent : State :=
  (valveInShot.setA (R.AX_SUP_OVC_ACT 0) 2).setAx 0
    { pending := some { cyc := 0, s := { astat := 2, ia := 0, ib := 0, ic := 0, pos := 0, vbus := 0, aux := 0 } } }

theorem valveOverCurrent_landing : ∃ t, exec (.feedbackLanding 0) valveOverCurrent = .next t ∧ t.tim.lateCnt = [(islPB0, 1)] :=
  ⟨_, rfl, by decide +kernel⟩

/-- Refutes O34: the STO that a landed over-current asks for takes the axis out of VALVE and ends its shot (R122, R338); the
shot queued behind it is late, and its island counts that beside the clocks (R24, R336). The statement leaves `tim` as it was. -/
theorem not_feedbackLandingSnapshot : ¬ Obligations.FeedbackLandingSnapshot := by
  unfold Obligations.FeedbackLandingSnapshot
  intro h
  obtain ⟨-, -, hlands⟩ := h valveOverCurrent 0 (by decide) rfl
  obtain ⟨t, ht, -, -, -, -, -, -, -, -, -, -, -, -, -, -, -, htim, -⟩ := hlands _ rfl (by decide)
  obtain ⟨t', ht', hlate⟩ := valveOverCurrent_landing
  obtain rfl : t = t' := by simpa [ht] using ht'
  rw [htim] at hlate
  revert hlate
  decide

/-! ## What spares the axes -/

/-- Nothing of an axis changes from `s` to `t`: not its slot, not an active copy, and no register below the channels'. -/
structure SparesAxes (s t : State) : Prop where
  axes : t.axes = s.axes
  act : t.act = s.act
  reg : ∀ a < 0x10100000, t.reg a = s.reg a

theorem SparesAxes.refl (s : State) : SparesAxes s s := ⟨rfl, rfl, fun _ _ => rfl⟩

section
variable {r s t : State}

theorem SparesAxes.ax (h : SparesAxes s t) (n : Nat) : t.ax n = s.ax n := by unfold State.ax; rw [h.axes]
theorem SparesAxes.fa (h : SparesAxes s t) (x : Fld) : t.fa x = s.fa x := by unfold State.fa State.actReg; rw [h.act]
theorem SparesAxes.f (h : SparesAxes s t) (x : Fld) (hx : x.addr < 0x10100000) : t.f x = s.f x := by
  unfold State.f; rw [h.reg _ hx]

theorem SparesAxes.trans (h : SparesAxes r s) (k : SparesAxes s t) : SparesAxes r t :=
  ⟨k.axes.trans h.axes, k.act.trans h.act, fun a q => (k.reg a q).trans (h.reg a q)⟩

/-- A write of a register of a block that lies behind the axes. -/
theorem SparesAxes.set (h : SparesAxes r s) {base n : Nat} (x : Fld) (v : Nat) (hx : x.addr = base + n)
    (hbase : 0x10100000 ≤ base) : SparesAxes r (s.set x v) :=
  h.trans ⟨rfl, rfl, fun _ q => State.reg_set_ne _ _ _ (by omega)⟩

/-- A change of the state that no read of `SparesAxes` sees. -/
theorem SparesAxes.of_same (h : SparesAxes r s) (hx : t.axes = s.axes) (ha : t.act = s.act) (hr : t.regs = s.regs) :
    SparesAxes r t :=
  h.trans ⟨hx, ha, fun _ _ => by unfold State.reg; rw [hr]⟩

theorem SparesAxes.modChan (h : SparesAxes r s) (c : Nat) (f : Chan → Chan) : SparesAxes r (s.modChan c f) :=
  h.of_same rfl rfl rfl
theorem SparesAxes.setGang (h : SparesAxes r s) (q : Nat) (x : Gang) : SparesAxes r (s.setGang q x) := h.of_same rfl rfl rfl

theorem SparesAxes.store (h : SparesAxes r s) (a : Nat) (bs : List Byte) : SparesAxes r (s.store a bs) := by
  induction bs generalizing s a with
  | nil => exact h
  | cons b bs ih => exact ih (h.of_same (t := s.setByte a b) rfl rfl rfl) (a + 1)

theorem SparesAxes.forEach {α : Type} (h : SparesAxes r s) (xs : List α) (f : α → State → State)
    (hf : ∀ x s, SparesAxes r s → SparesAxes r (f x s)) : SparesAxes r (forEach xs f s) := by
  unfold Machine.forEach
  induction xs generalizing s with
  | nil => exact h
  | cons x xs ih => exact ih (hf x s h)

theorem SparesAxes.ite (c : Prop) [Decidable c] (h : SparesAxes r s) (k : SparesAxes r t) :
    SparesAxes r (if c then s else t) := by
  split
  · exact h
  · exact k

theorem observer_low {a : Nat} (h : a < 0x10100000) : observer a = false :=
  Bool.eq_false_iff.2 fun e => by rw [observer_iff] at e; omega

/-- Reports and trace events write the registers that observe. -/
theorem SparesAxes.alike (h : SparesAxes r s) (k : Alike s t) : SparesAxes r t :=
  h.trans ⟨k.axes, k.act, fun a q => k.regs a (observer_low q)⟩

theorem SparesAxes.lateAction (h : SparesAxes r s) (isl : Nat) : SparesAxes r (s.lateAction isl) := by
  unfold State.lateAction
  extract_lets n tim counted
  have hcounted : SparesAxes r counted := h.of_same rfl rfl rfl
  exact hcounted.alike (alike_report _ _ _ _ _)

end

/-! ## Channels and groups spare the axes -/

section
variable {r s : State} (h : SparesAxes r s)
include h

theorem State.seqTo_sparesAxes (c w : Nat) : SparesAxes r (s.seqTo c w) := by
  unfold State.seqTo
  exact .ite _ h (((h.set _ _ rfl (by decide)).set _ _ rfl (by decide)).modChan _ _)

theorem State.syncGroup_sparesAxes (g : Nat) : SparesAxes r (s.syncGroup g) :=
  (h.set _ _ rfl (by decide)).set _ _ rfl (by decide)

theorem State.syncGroupsOf_sparesAxes (c : Nat) : SparesAxes r (s.syncGroupsOf c) := by
  unfold State.syncGroupsOf
  exact .ite _ (h.forEach _ _ fun _ _ k => .ite _ (State.syncGroup_sparesAxes k _) k) h

theorem State.syncShots_sparesAxes (c : Nat) : SparesAxes r (s.syncShots c) :=
  ((h.set _ _ rfl (by decide)).set _ _ rfl (by decide)).set _ _ rfl (by decide)

theorem State.shotLate_sparesAxes (c : Nat) : SparesAxes r (s.shotLate c) :=
  ((h.set _ _ rfl (by decide)).lateAction _).alike (alike_report _ _ _ _ _)

theorem State.shotHeads_sparesAxes (c : Nat) : SparesAxes r (s.shotHeads c) := by
  unfold State.shotHeads
  exact .ite _ h (.ite _ h ((State.syncShots_sparesAxes (h.modChan _ _) c).forEach _ _ fun _ _ k =>
    State.shotLate_sparesAxes k c))

theorem State.dropShot_sparesAxes (c : Nat) : SparesAxes r (s.dropShot c) := by
  unfold State.dropShot
  split
  · exact h
  · exact State.shotHeads_sparesAxes (State.syncShots_sparesAxes ((h.modChan _ _).set _ _ rfl (by decide)) c) c

/-- A fault that latches in STAT of its channel. -/
theorem State.chanFault_sparesAxes (c hi lo ev cls : Nat) : SparesAxes r (s.chanFault c ⟨R.PC_STAT c, hi, lo⟩ ev cls) := by
  unfold State.chanFault
  extract_lets cleared off members
  have hcleared : SparesAxes r cleared :=
    State.dropShot_sparesAxes ((h.set _ _ rfl (by decide)).set _ _ rfl (by decide)) c
  have hoff : SparesAxes r off := (State.seqTo_sparesAxes hcleared c 0).modChan _ _
  have hmembers : SparesAxes r members :=
    .ite _ (hoff.forEach _ _ fun m _ k =>
      State.syncGroup_sparesAxes (State.seqTo_sparesAxes (State.dropShot_sparesAxes k m) m 0) _) hoff
  exact (State.syncGroupsOf_sparesAxes hmembers c).alike (alike_report _ _ _ _ _)

theorem State.evalChan_sparesAxes (c : Nat) : SparesAxes r (s.evalChan c) := by
  unfold State.evalChan
  exact .ite _ (State.chanFault_sparesAxes h c _ _ _ _) (.ite _ h (State.seqTo_sparesAxes h c _))

theorem State.evalHigh_sparesAxes (o : Option Shot) : SparesAxes r (s.evalHigh o) := by
  unfold State.evalHigh
  split
  · exact .ite _ (State.syncGroup_sparesAxes (State.evalChan_sparesAxes h _) _) h
  · exact h

theorem State.evalAround_sparesAxes (c : Nat) : SparesAxes r (s.evalAround c) := by
  unfold State.evalAround
  extract_lets own gang
  have hgang : SparesAxes r gang :=
    (State.evalChan_sparesAxes h c).forEach _ _ fun d _ k => State.evalChan_sparesAxes k d
  exact .ite _ (State.syncGroupsOf_sparesAxes (State.evalHigh_sparesAxes hgang _) c) hgang

theorem State.shotStop_sparesAxes (c : Nat) : SparesAxes r (s.shotStop c) := by
  unfold State.shotStop
  exact .ite _ (h.modChan _ _)
    (State.evalHigh_sparesAxes (State.evalAround_sparesAxes (State.dropShot_sparesAxes h c) c) _)

theorem State.valveLeave_sparesAxes (n : Nat) : SparesAxes r (s.valveLeave n) := by
  unfold State.valveLeave
  split
  · exact h
  · exact .ite _ (State.syncShots_sparesAxes ((State.shotStop_sparesAxes h _).modChan _ _) _) h

theorem State.gangDrop_sparesAxes (n : Nat) (side : Option Bool) : SparesAxes r (s.gangDrop n side) := by
  unfold State.gangDrop
  split
  · exact .ite _ (h.setGang _ _) h
  · exact h

theorem State.evalAxisChans_sparesAxes (n : Nat) : SparesAxes r (s.evalAxisChans n) := by
  unfold State.evalAxisChans
  split
  · exact h
  · exact State.evalAround_sparesAxes h _

/-- What hangs on a mode that an axis leaves for another than OFF. -/
theorem State.modeLeft_sparesAxes (n old : Nat) {new : Nat} (hnew : new ≠ mOff) : SparesAxes r (s.modeLeft n old new) := by
  unfold State.modeLeft
  extract_lets valve gang armed
  have hvalve : SparesAxes r valve := .ite _ (State.valveLeave_sparesAxes h n) h
  have hgang : SparesAxes r gang := .ite _ (State.gangDrop_sparesAxes hvalve n none) hvalve
  have harmed : armed = gang := if_neg hnew
  rw [harmed]
  exact State.evalAxisChans_sparesAxes hgang n

/-! ## The results of a sweep spare the axes (R133) -/

theorem State.identStore_sparesAxes (n ofs : Nat) (bs : List Byte) : SparesAxes r (s.identStore n ofs bs) := by
  unfold State.identStore
  exact .ite _ (h.store _ _) (h.alike (alike_engRefused _ _ _ _ _))

theorem State.identHeader_sparesAxes (n state reason : Nat) : SparesAxes r (s.identHeader n state reason) :=
  State.identStore_sparesAxes h n _ _

theorem State.identRecord_sparesAxes (n : Nat) (complete : Bool) : SparesAxes r (s.identRecord n complete) :=
  State.identStore_sparesAxes h n _ _

end

/-! ## Writes of an axis's registers (R5, R26) -/

theorem FSpec.mask_testBit (f : FSpec) (i : Nat) : f.mask.testBit i = decide (f.lo ≤ i ∧ i ≤ f.hi) := by
  rw [FSpec.mask, Nat.testBit_mul_two_pow, Nat.testBit_two_pow_sub_one, ← Bool.decide_and]
  exact decide_eq_decide.2 (by omega)

/-- A merge through the mask of one field puts the bits of `y` into that field. -/
theorem mergeBits_mask {x : Nat} (hx : x < 2 ^ 32) (y : Nat) (f : FSpec) (hlo : f.lo ≤ f.hi + 1) (hhi : f.hi < 32) :
    mergeBits x y f.mask = putBits x f.hi f.lo (y / 2 ^ f.lo) := by
  refine Nat.eq_of_testBit_eq fun i => ?_
  rw [putBits_testBit _ _ _ _ _ hlo, mergeBits, Nat.testBit_or, Nat.testBit_and, Nat.testBit_and, Nat.testBit_xor,
    FSpec.mask_testBit, show 0xFFFFFFFF = 2 ^ 32 - 1 from rfl, Nat.testBit_two_pow_sub_one]
  by_cases hin : f.lo ≤ i ∧ i ≤ f.hi
  · rw [if_pos hin, Nat.testBit_div_two_pow, show i - f.lo + f.lo = i by omega]
    simp [hin, show i < 32 by omega]
  · have hbits : x.testBit i = true → i < 32 := fun e => Nat.lt_of_not_le fun hi =>
      have hzero : x.testBit i = false := Nat.testBit_lt_two_pow (Nat.lt_of_lt_of_le hx (Nat.pow_le_pow_right (by decide) hi))
      Bool.false_ne_true (hzero.symm.trans e)
    rw [if_neg hin, decide_eq_false hin, Bool.xor_false, Bool.and_false, Bool.or_false]
    cases hbit : x.testBit i with
    | false => rfl
    | true => rw [decide_eq_true (hbits hbit)]; rfl

theorem or_one_eq_putBits (x : Nat) : x ||| 1 = putBits x 0 0 1 := by
  refine Nat.eq_of_testBit_eq fun i => ?_
  rw [putBits_testBit _ _ _ _ _ (by decide), Nat.testBit_or]
  cases i <;> simp [Nat.testBit_succ]

theorem State.setReg_setReg {s : State} (h : s.canonical = true) (a v w : Nat) : (s.setReg a v).setReg a w = s.setReg a w := by
  obtain ⟨-, hregs, -⟩ := State.canonical_parts h
  unfold State.setReg
  rw [SMap.put_put _ _ _ _ _ hregs]

/-- Two fields of one register, set one after the other. -/
theorem State.set_set {s : State} (h : s.canonical = true) {a hi lo hi' lo' : Nat} (v w : Nat) (hlo : lo ≤ hi + 1)
    (hhi : hi < 32) :
    (s.set ⟨a, hi, lo⟩ v).set ⟨a, hi', lo'⟩ w = s.setReg a (putBits (putBits (s.reg a) hi lo v) hi' lo' w) := by
  simp only [State.set]
  rw [State.reg_setReg_self h, Nat.mod_eq_of_lt (putBits_lt _ _ _ _ _ hlo (s.reg_lt _) hhi), State.setReg_setReg h]

theorem State.range_ax (s : State) {a : Nat} (hlo : 0x10000000 ≤ a) (hhi : a < 0x10100000) : s.range a = some .ax := by
  have hrow : addressMap.find? (fun r => r.lo ≤ a && a ≤ r.hi) = some ⟨0x10000000, 0x100FFFFF, .ax⟩ := by
    simp [addressMap, hlo, show ¬a ≤ 0xFFFFFF by omega, show ¬a ≤ 0x27FFFFF by omega, show ¬a ≤ 0x47FFFFF by omega,
      show ¬a ≤ 0x4FFFFFF by omega, show a ≤ 0x100FFFFF by omega]
  rw [State.range, hrow]
  rfl

theorem State.blockWrite_ax (s : State) (who : Requester) {a : Nat} (v : Nat) (hlo : 0x10000000 ≤ a) (hhi : a < 0x10100000) :
    s.blockWrite who a v = s.axWrite a v := by
  rw [State.blockWrite, State.range_ax s hlo hhi]

/-- The fields of CMT (R180). -/
def cmtFields : List FSpec := [⟨26, 16, .rw, 0x7FF⟩, ⟨0, 0, .w1s, 0⟩]

theorem plainWord_cmtFields {x : Nat} (hx : x < 2 ^ 32) (gmask : BitVec 11) :
    plainWord cmtFields x (gmask.toNat * 2 ^ 16 + 1) = putBits (putBits x 26 16 gmask.toNat) 0 0 1 := by
  have hput : mergeBits x (gmask.toNat * 2 ^ 16 + 1) 0x7FF0000 = putBits x 26 16 gmask.toNat := by
    rw [show 0x7FF0000 = FSpec.mask ⟨26, 16, .rw, 0x7FF⟩ from rfl, mergeBits_mask hx _ _ (by decide) (by decide)]
    exact congrArg (putBits x 26 16) (show (gmask.toNat * 2 ^ 16 + 1) / 2 ^ 16 = gmask.toNat by omega)
  have hlt : putBits x 26 16 gmask.toNat < 2 ^ 32 := putBits_lt _ _ _ _ _ (by decide) hx (by decide)
  have hgo : (gmask.toNat * 2 ^ 16 + 1) &&& 1 = 1 := by rw [Nat.and_one_is_mod]; omega
  have hstored : accMask Acc.isStored cmtFields = 0x7FF0000 := rfl
  have hclear : accMask (· == .w1c) cmtFields = 0 := rfl
  have hset : accMask (· == .w1s) cmtFields = 1 := rfl
  have hkeep : 0xFFFFFFFF ^^^ 0 = 2 ^ 32 - 1 := rfl
  rw [plainWord, hstored, hclear, hset, hput, hgo, Nat.and_zero, hkeep, Nat.and_two_pow_sub_one_eq_mod, Nat.mod_eq_of_lt hlt,
    or_one_eq_putBits]

/-- A write of CMT: GMASK takes its bits, GO is set by its one (R180). -/
theorem State.axWrite_AX_CMT {s : State} (h : s.canonical = true) {n : Nat} (hn : n < 256) (gmask : BitVec 11) :
    s.axWrite (R.AX_CMT n) (gmask.toNat * 2 ^ 16 + 1) =
      (.ok, (s.set (R.AX_CMT_GMASK n) gmask.toNat).set (R.AX_CMT_GO n) 1) := by
  have hofs : R.AX_CMT n % 0x1000 = 8 := by unfold R.AX_CMT; omega
  have hspec : specOf (R.AX_CMT n) = some cmtFields :=
    specOf_block (i := 2) (off := 8) rfl (by decide) rfl (by decide) hn
  rw [State.set_set h _ _ (by decide) (by decide), ← plainWord_cmtFields (s.reg_lt _)]
  simp only [State.axWrite, hofs, State.plainWrite, hspec]

theorem State.axWrite_AX_CNTCLR (s : State) {n : Nat} (hn : n < 256) : s.axWrite (R.AX_CNTCLR_W n) 1 = (.ok, s.axCntclr n) := by
  have hofs : R.AX_CNTCLR_W n % 0x1000 = 0x50 := by unfold R.AX_CNTCLR_W; omega
  have hslot : (R.AX_CNTCLR_W n - 0x10000000) / 0x1000 = n := by unfold R.AX_CNTCLR_W; omega
  simp only [State.axWrite, hofs, hslot]
  rfl

/-- A permitted write of an axis's register that the block performs. -/
theorem State.cmdWrite_ax {s t : State} {who : Requester} {a v : Nat} (h : Permits s who a v) (hlo : 0x10000000 ≤ a)
    (hhi : a < 0x10100000) (hw : s.axWrite a v = (.ok, t)) : s.cmdWrite who a 4 v = t.answer .ok := by
  have hblock : s.blockWrite who a v = (.ok, t) := (State.blockWrite_ax s who v hlo hhi).trans hw
  rw [State.cmdWrite_ok h (congrArg Prod.fst hblock), hblock]

/-! ## The end of a ramped stop (R143, R146) -/

theorem State.setAx_setAx {s : State} (h : s.canonical = true) (n : Nat) (x y : Ax) : (s.setAx n x).setAx n y = s.setAx n y := by
  obtain ⟨-, -, -, -, -, -, haxes, -⟩ := State.canonical_parts h
  unfold State.setAx
  rw [SMap.put_put _ _ _ _ _ haxes]

/-- A mode of hardware's own: nothing of any axis changes beside MODE and its active copy, unless the mode is OFF. -/
theorem State.hwMode_sparesAxes (s : State) (n : Nat) {m : Nat} (hm : m ≠ mOff) : SparesAxes (s.setMode n m) (s.hwMode n m) :=
  State.modeLeft_sparesAxes (SparesAxes.refl _) n _ hm

theorem AX_STATUS_lt {n : Nat} (hn : n < 256) : R.AX_STATUS n < 0x10100000 := by unfold R.AX_STATUS; omega
theorem AX_CTRL_lt {n : Nat} (hn : n < 256) : R.AX_CTRL n < 0x10100000 := by unfold R.AX_CTRL; omega
theorem AX_STATUS_ne_AX_CTRL (n : Nat) : R.AX_STATUS n ≠ R.AX_CTRL n := by unfold R.AX_STATUS R.AX_CTRL; omega

section
variable {s : State} {n m : Nat} (hm : m ≠ mOff)
include hm

theorem State.hwMode_ax (b : Nat) : (s.hwMode n m).ax b = s.ax b := (State.hwMode_sparesAxes s n hm).ax b

theorem State.hwMode_STATUS (hn : n < 256) (hi lo : Nat) :
    (s.hwMode n m).f ⟨R.AX_STATUS n, hi, lo⟩ = s.f ⟨R.AX_STATUS n, hi, lo⟩ :=
  ((State.hwMode_sparesAxes s n hm).f ⟨R.AX_STATUS n, hi, lo⟩ (AX_STATUS_lt hn)).trans
    (State.f_set_ne (R.AX_CTRL_MODE n) ⟨R.AX_STATUS n, hi, lo⟩ m (AX_STATUS_ne_AX_CTRL n))

/-- Hardware's mode is the active one and the staged one (R182). -/
theorem State.hwMode_mode (hcanon : s.canonical = true) (hn : n < 256) (hlt : m < 2 ^ 4) :
    (s.hwMode n m).fa (R.AX_CTRL_MODE n) = m ∧ (s.hwMode n m).f (R.AX_CTRL_MODE n) = m := by
  have hspares := State.hwMode_sparesAxes s n hm
  have hset := State.canonical_set hcanon (R.AX_CTRL_MODE n) m
  have hact : (s.setMode n m).fa (R.AX_CTRL_MODE n) = m % 2 ^ 4 :=
    State.fa_setA_self hset (R.AX_CTRL_MODE n) m (by simp) (by simp)
  have hstaged : (s.setMode n m).f (R.AX_CTRL_MODE n) = m % 2 ^ 4 :=
    State.f_set_self hcanon (R.AX_CTRL_MODE n) m (by simp) (by simp)
  rw [hspares.fa, hspares.f _ (AX_CTRL_lt hn), hact, hstaged, Nat.mod_eq_of_lt hlt]
  exact ⟨rfl, rfl⟩

end

/-- The slot at rest where it is, its stop over. -/
def Ax.stopped (x : Ax) : Ax := { x with gen := { x.gen with segs := [], v := 0, a := 0 }, stop := 0, ran := mHold }

/-- The axis at rest, STOPPING cleared; its mode as it was. -/
def State.stopped (s : State) (n : Nat) : State := (s.setAx n (s.ax n).stopped).clr (R.AX_STATUS_STOPPING n)

/-- The mode stays as a stop ends: OFF, or one written that no activation has taken yet (R146). -/
def State.stopKeepsMode (s : State) (n : Nat) : Prop :=
  s.fa (R.AX_CTRL_MODE n) = mOff ∨ ((s.ax n).stop ≠ 3 ∧ s.fa (R.AX_CTRL_MODE n) ≠ (s.ax n).ran)

section
variable {s : State} {n : Nat}

theorem State.rampEnd_idle (h : s.f (R.AX_STATUS_STOPPING n) = 0) : s.rampEnd n = s := by
  rw [State.rampEnd, State.on_eq_false h, if_neg Bool.false_ne_true]

/-- What the end of a running stop leaves, by whether the mode stays. -/
theorem State.rampEnd_running (hcanon : s.canonical = true) (h : s.f (R.AX_STATUS_STOPPING n) = 1) :
    (s.stopKeepsMode n → s.rampEnd n = s.stopped n) ∧ (¬s.stopKeepsMode n → s.rampEnd n = (s.stopped n).hwMode n mHold) := by
  unfold State.rampEnd
  rw [if_pos ((State.on_iff rfl).2 h)]
  extract_lets g rest x ended
  have hx : x = { s.ax n with gen := { (s.ax n).gen with segs := [], v := 0, a := 0 } } := State.ax_setAx_self hcanon n _
  have hended : ended = s.stopped n := by
    have hrest : ended = rest.setAx n { x with stop := 0, ran := mHold } := rfl
    rw [hrest, hx]
    exact congrArg (·.clr (R.AX_STATUS_STOPPING n)) (State.setAx_setAx hcanon n _ _)
  have hstays : (ended.mode n = mOff || (x.stop ≠ 3 && ended.mode n ≠ x.ran)) = true ↔ s.stopKeepsMode n := by
    have hmode : ended.mode n = s.fa (R.AX_CTRL_MODE n) := rfl
    rw [hmode, hx]
    simp [State.stopKeepsMode]
  rw [← hended]
  exact ⟨fun k => if_pos (hstays.2 k), fun k => if_neg fun e => k (hstays.1 e)⟩

variable (hcanon : s.canonical = true)
include hcanon

theorem State.stopped_ax_self : (s.stopped n).ax n = (s.ax n).stopped := State.ax_setAx_self hcanon n _

theorem State.stopped_canonical : (s.stopped n).canonical = true :=
  State.canonical_set ((State.setAx_keeps s n _ (Keeps.refl s)).canon hcanon) _ _

theorem State.stopped_STOPPING : (s.stopped n).f (R.AX_STATUS_STOPPING n) = 0 :=
  State.f_set_self ((State.setAx_keeps s n _ (Keeps.refl s)).canon hcanon) _ _ (by simp) (by simp)

/-- The end of a running stop: the slot is at rest, every other slot is as it was, and STOPPING is clear. -/
theorem State.rampEnd_rests (h : s.f (R.AX_STATUS_STOPPING n) = 1) (hn : n < 256) :
    (s.rampEnd n).ax n = (s.ax n).stopped ∧ (s.rampEnd n).f (R.AX_STATUS_STOPPING n) = 0 ∧
      ∀ b, b ≠ n → (s.rampEnd n).ax b = s.ax b := by
  have hself := State.stopped_ax_self (n := n) hcanon
  have hclear := State.stopped_STOPPING (n := n) hcanon
  have hother : ∀ b, b ≠ n → (s.stopped n).ax b = s.ax b := fun b hb => State.ax_setAx_ne s n b _ hb
  obtain ⟨hstays, hholds⟩ := State.rampEnd_running hcanon h
  by_cases k : s.stopKeepsMode n
  · rw [hstays k]
    exact ⟨hself, hclear, hother⟩
  · have hhold : mHold ≠ mOff := by decide
    rw [hholds k, State.hwMode_STATUS hhold hn]
    simp only [State.hwMode_ax hhold]
    exact ⟨hself, hclear, hother⟩

end

/-! ## The end of a sweep step (R131, R132) -/

/-- A sweep that is aborted no longer runs; slots and active copies are as they were. -/
theorem State.identAbort_ends {s : State} (hcanon : s.canonical = true) {n : Nat} (h : s.f (R.AX_STATUS_IDRUN n) = 1)
    (reason : Nat) :
    (s.identAbort n reason).f (R.AX_STATUS_IDRUN n) = 0 ∧ (∀ x, (s.identAbort n reason).fa x = s.fa x) ∧
      ∀ b, (s.identAbort n reason).ax b = s.ax b := by
  have hspares : SparesAxes s ((s.identRecord n false).identHeader n 2 reason) :=
    State.identHeader_sparesAxes (State.identRecord_sparesAxes (SparesAxes.refl s) n false) n 2 reason
  have hwritten : ((s.identRecord n false).identHeader n 2 reason).canonical = true :=
    (State.identHeader_keeps _ n 2 reason (State.identRecord_keeps s n false (Keeps.refl s))).canon hcanon
  rw [State.identAbort, if_pos ((State.on_iff rfl).2 h)]
  exact ⟨State.f_set_self hwritten _ _ (by simp) (by simp), hspares.fa, hspares.ax⟩

theorem State.identTimedOut_iff (s : State) (n : Nat) : s.identTimedOut n = true ↔
    16 * s.fa (R.AX_ID_N_NMEAS n) ≤ (s.ax n).ident.nv + (s.ax n).ident.nl := decide_eq_true_iff

/-! ## PROFILE_DONE (R141) -/

theorem State.profileDone_idle {s : State} {n : Nat} (h : (s.ax n).gen.tgt = none) : s.profileDone n = s := by
  simp only [State.profileDone, h]

theorem State.profileDone_plan {s : State} {n : Nat} {p : Int} (h : (s.ax n).gen.tgt = some p) :
    s.profileDone n =
      let y := s.setAx n { s.ax n with gen := { (s.ax n).gen with segs := [], x := p, v := 0, a := 0, tgt := none } }
      if s.fa (R.AX_CTRL_MODE n) = 2 then y.set (R.AX_STATUS_PDONE n) 1 else y := by
  simp only [State.profileDone, h]
  rfl

/-! ## The commands -/

theorem exec_axisCommitRequest (who : Requester) (a : Fin 256) (gmask : BitVec 11) (s : State) :
    exec (.axisCommitRequest who a gmask) s = .next (s.cmdWrite who (R.AX_CMT a) 4 (gmask.toNat * 2 ^ 16 + 1)) := rfl
theorem exec_axisCntclr (who : Requester) (a : Fin 256) (s : State) :
    exec (.axisCntclr who a) s = .next (s.cmdWrite who (R.AX_CNTCLR_W a) 4 1) := rfl
theorem exec_profileDone (a : Fin 256) (s : State) : exec (.profileDone a) s = .next (s.profileDone a) := rfl
theorem exec_rampedStopEnd (a : Fin 256) (s : State) : exec (.rampedStopEnd a) s = .next (s.rampEnd a) := rfl
theorem exec_stepTimeout (a : Fin 256) (s : State) : exec (.stepTimeout a) s =
    .next (if s.on (R.AX_STATUS_IDRUN a) && s.identTimedOut a then s.identAbort a 5 else s) := rfl

/-- Settles O35: each command is the operation above that it runs. -/
theorem axisCommandsAndPlanEnds : Obligations.AxisCommandsAndPlanEnds := by
  unfold Obligations.AxisCommandsAndPlanEnds
  intro s a hcanon x g
  have ha : a.val < 256 := a.isLt
  simp only [exec_axisCommitRequest, exec_axisCntclr, exec_profileDone, exec_rampedStopEnd, exec_stepTimeout]
  refine ⟨fun who gmask => ⟨fun hp => ?_, fun hp => ?_⟩, fun hg => ?_, fun p hg => ?_, fun hst => ?_, fun hst => ?_,
    fun hout => ?_, fun hout => ?_⟩
  · rw [State.cmdWrite_ax hp (by unfold R.AX_CMT; omega) (by unfold R.AX_CMT; omega) (State.axWrite_AX_CMT hcanon ha gmask)]
  · rw [State.cmdWrite_ax hp (by unfold R.AX_CNTCLR_W; omega) (by unfold R.AX_CNTCLR_W; omega) (State.axWrite_AX_CNTCLR s ha)]
    rfl
  · rw [State.profileDone_idle hg]
  · rw [State.profileDone_plan hg]
  · rw [State.rampEnd_idle hst]
  · obtain ⟨hself, hclear, hother⟩ := State.rampEnd_rests hcanon hst ha
    obtain ⟨hstays, hholds⟩ := State.rampEnd_running hcanon hst
    refine ⟨_, rfl, hself, hclear, ⟨fun k => ?_, fun k => ?_⟩, hother⟩
    · rw [hstays k]
      exact ⟨rfl, State.f_set_ne _ _ _ (AX_STATUS_ne_AX_CTRL a).symm⟩
    · obtain ⟨hact, hstaged⟩ := State.hwMode_mode (m := mHold) (by decide) (State.stopped_canonical hcanon) ha (by decide)
      rw [hholds k]
      exact ⟨hact, fun _ => hstaged⟩
  · rw [if_neg]
    rw [Bool.and_eq_true, State.on_iff rfl, State.identTimedOut_iff]
    exact hout
  · obtain ⟨hclear, hact, hax⟩ := State.identAbort_ends hcanon hout.1 5
    refine ⟨_, rfl, ?_⟩
    rw [if_pos]
    · exact ⟨hclear, hact _, hax⟩
    · rw [Bool.and_eq_true, State.on_iff rfl, State.identTimedOut_iff]
      exact hout

end Sys2Proof.Machine

/-! PROOFS. The time base (spec/09_time_base.md): writes of OFS_IN, RATE, SW, SNAP and the epoch, the stamp FIFOs, and HOLDOVER. -/

namespace Sys2Proof.Machine

/-! ## Words as integers -/

/-- The spec's i32 is the balanced remainder. -/
theorem i32_eq_bmod (x : Int) : i32 x = x.bmod (2 ^ 32) := rfl

theorem i32_toNat (v : Word) : i32 v.toNat = v.toInt := by rw [i32_eq_bmod, ← BitVec.toInt_eq_toNat_bmod]

theorem u32_eq_toNat_ofInt (x : Int) : u32 x = (BitVec.ofInt 32 x).toNat := (BitVec.toNat_ofInt (n := 32) x).symm

/-- The difference of two stamps is that of their words (R24). -/
theorem dt_eq_toInt (a b : Nat) : dt a b = (BitVec.ofNat 32 a - BitVec.ofNat 32 b).toInt := by
  rw [dt, i32_eq_bmod, BitVec.toInt_sub, BitVec.toInt_ofNat', BitVec.toInt_ofNat', Int.bmod_sub_bmod, Int.sub_bmod_bmod]

/-- AND goes part by part through two numbers cut at the same bit. -/
theorem two_pow_mul_add_and {i b d : Nat} (a c : Nat) (hb : b < 2 ^ i) (hd : d < 2 ^ i) :
    (2 ^ i * a + b) &&& (2 ^ i * c + d) = 2 ^ i * (a &&& c) + (b &&& d) := by
  refine Nat.eq_of_testBit_eq fun j => ?_
  rw [Nat.testBit_and, Nat.testBit_two_pow_mul_add _ hb, Nat.testBit_two_pow_mul_add _ hd,
    Nat.testBit_two_pow_mul_add _ (Nat.and_lt_two_pow _ hd)]
  split <;> rw [Nat.testBit_and]

/-! ## Accesses to the time base (R240) -/

theorem State.range_tb (s : State) {a : Nat} (hlo : 0x10310000 ≤ a) (hhi : a < 0x10320000) : s.range a = some .tb := by
  have hrow : addressMap.find? (fun r => r.lo ≤ a && a ≤ r.hi) = some ⟨0x10310000, 0x1031FFFF, .tb⟩ := by
    simp [addressMap, hlo, show a ≤ 0x1031FFFF by omega, show ¬a ≤ 0xFFFFFF by omega, show ¬a ≤ 0x27FFFFF by omega,
      show ¬a ≤ 0x47FFFFF by omega, show ¬a ≤ 0x4FFFFFF by omega, show ¬a ≤ 0x100FFFFF by omega, show ¬a ≤ 0x10103FFF by omega,
      show ¬a ≤ 0x101103FF by omega, show ¬a ≤ 0x1012FFFF by omega, show ¬a ≤ 0x102FFFFF by omega, show ¬a ≤ 0x1030FFFF by omega]
  rw [State.range, hrow]
  rfl

/-- A permitted write of a register of the time base. -/
theorem State.cmdWrite_tb {s : State} {who : Requester} {a v : Nat} (h : Permits s who a v) (hlo : 0x10310000 ≤ a)
    (hhi : a < 0x10320000) : s.cmdWrite who a 4 v = (s.tbWrite a v).answer .ok := by
  have hblock : s.blockWrite who a v = (.ok, s.tbWrite a v) := by rw [State.blockWrite, State.range_tb s hlo hhi]
  rw [State.cmdWrite_ok h (congrArg Prod.fst hblock), hblock]

section
variable (s : State) (d : Fin 2) (v : Nat)

theorem State.tbWrite_TD_OFS_IN : s.tbWrite (R.TD_OFS_IN_W d) v = s.ofsIn d (i32 v) := by
  match d with
  | 0 => simp [State.tbWrite, R.TD_OFS_IN_W, R.TB_TCYC_W, R.TB_SW, R.TB_SW_MAXOFS_W, R.TB_SNAP_W]
  | 1 => simp [State.tbWrite, R.TD_OFS_IN_W, R.TB_TCYC_W, R.TB_SW, R.TB_SW_MAXOFS_W, R.TB_SNAP_W]

theorem State.tbWrite_TD_RATE : s.tbWrite (R.TD_RATE_W d) v = s.rateWrite d (i32 v) := by
  match d with
  | 0 => rfl
  | 1 => rfl

theorem State.tbWrite_TD_EPOCH_SEC_HI : s.tbWrite (R.TD_EPOCH_SEC_HI_W d) v = s.epochWrite d v := by
  match d with
  | 0 => rfl
  | 1 => rfl

theorem State.tbWrite_TB_SW : s.tbWrite R.TB_SW (2 ^ 31 + d.val) = s.switchStart d := by
  match d with
  | 0 => rfl
  | 1 => rfl

theorem State.tbWrite_TB_SNAP :
    s.tbWrite R.TB_SNAP_W 1 = (s.set (R.TD_SNAP 0) (s.now 0)).set (R.TD_SNAP 1) (s.now 1) := rfl

end

/-! ## What a write of a register leaves of the time base -/

@[simp] theorem State.set_dom (s : State) (x : Fld) (v d : Nat) : (s.set x v).dom d = s.dom d := rfl
@[simp] theorem State.set_now (s : State) (x : Fld) (v d : Nat) : (s.set x v).now d = s.now d := rfl
@[simp] theorem State.set_fa (s : State) (x y : Fld) (v : Nat) : (s.set x v).fa y = s.fa y := rfl
@[simp] theorem State.set_deltaPhase (s : State) (x : Fld) (v t l : Nat) : (s.set x v).deltaPhase t l = s.deltaPhase t l := rfl

theorem State.grid_set_ne (s : State) (x : Fld) (v : Nat) (h : R.TB_CTRL_W ≠ x.addr) : (s.set x v).grid = s.grid :=
  State.f_set_ne _ _ _ h

/-- No write of a domain's STAT changes what the rings send. -/
theorem State.sending_set_TD_STAT (s : State) (d hi lo v : Nat) :
    (s.set ⟨R.TD_STAT d, hi, lo⟩ v).sending = s.sending := by
  funext r
  unfold State.sending
  rw [State.f_set_ne _ _ _ (by simp only [R.RING_STAT, R.TD_STAT]; omega)]

/-! ## A write of OFS_IN (R226, R228) -/

/-- The domain is served and works its own offset off: SRC is SERVO, and no switch-over steers it (R224, R232). -/
def State.servoOwn (s : State) (d : Nat) : Bool := s.f (R.TD_CFG_SRC d) == 1 && (s.tim.swTarget.isNone || s.grid != d)

/-- An offset of `v` sixteenths of a ns is to be stepped: above STEP_LIM with STEP_EN (R226). -/
def State.wantsStep (s : State) (d : Nat) (v : Int) : Bool :=
  decide (16 * (s.f (R.TD_STEP_LIM d) : Int) < (v.natAbs : Int)) && s.on (R.TD_CFG_STEP_EN d)

/-- The sending rings leave the domain's counter free to step (R226). -/
def State.mayStep (s : State) (d : Nat) : Bool := !s.carried d && !(s.grid == d && s.anySending)

/-- The state with OFS_IN as the residual of domain `d`. -/
def State.slewing (s : State) (d : Nat) (v : Int) : State := s.modDom d fun c => { c with resid := v * phase16 }

/-- The state after the counter of domain `d` stepped by OFS_IN. -/
def State.stepped (s : State) (d : Nat) (v : Int) : State :=
  s.modDom d fun c => { c with resid := 0, pend := c.pend + v * phase16 }.move (v * phase16)

section
variable {s : State} {d : Nat} {v : Int}

theorem State.carried_iff : s.carried d = true ↔ ∃ r < 4, s.sending r = true ∧ s.fa (R.RING_CTRL_TDOM r) = d := by
  simp [State.carried]

theorem State.anySending_iff : s.anySending = true ↔ ∃ r < 4, s.sending r = true := by
  simp [State.anySending]

theorem State.mayStep_of_silent (h : ∀ r < 4, s.sending r = false) : s.mayStep d = true := by
  have hany : s.anySending = false := Bool.eq_false_iff.2 fun e => by
    obtain ⟨r, hr, hs⟩ := State.anySending_iff.1 e
    exact Bool.false_ne_true ((h r hr).symm.trans hs)
  have hcarried : s.carried d = false := Bool.eq_false_iff.2 fun e => by
    obtain ⟨r, hr, hs, -⟩ := State.carried_iff.1 e
    exact Bool.false_ne_true ((h r hr).symm.trans hs)
  rw [State.mayStep, hany, hcarried, Bool.and_false]
  rfl

theorem State.not_mayStep_of_carried (h : ∃ r < 4, s.sending r = true ∧ s.fa (R.RING_CTRL_TDOM r) = d) :
    s.mayStep d = false := by
  rw [State.mayStep, State.carried_iff.2 h]
  rfl

theorem State.servoOwn_iff : s.servoOwn d = true ↔ s.f (R.TD_CFG_SRC d) = 1 ∧ (s.tim.swTarget = none ∨ s.grid ≠ d) := by
  simp [State.servoOwn]

theorem State.wantsStep_iff : s.wantsStep d v = true ↔
    16 * s.f (R.TD_STEP_LIM d) < v.natAbs ∧ s.f (R.TD_CFG_STEP_EN d) = 1 := by
  rw [State.wantsStep, Bool.and_eq_true, decide_eq_true_eq, State.on_iff rfl]
  omega

/-- What a write of OFS_IN does, HOLDOVER cleared: the tests read the state before (R226, R228). -/
theorem State.ofsIn_eq : s.ofsIn d v =
    let u := s.set (R.TD_STAT_HOLDOVER d) 0
    if s.servoOwn d = false then u
    else if (s.wantsStep d v && s.mayStep d) = true then u.stepped d v
    else if s.wantsStep d v = true then (u.slewing d v).set (R.TD_STAT_STEPDENY d) 1
    else u.slewing d v := by
  have hfield : ∀ x : Fld, x.addr ≠ R.TD_STAT d → (s.set (R.TD_STAT_HOLDOVER d) 0).f x = s.f x :=
    fun x hx => State.f_set_ne _ _ _ hx
  have hsrc := hfield (R.TD_CFG_SRC d) (by simp only [R.TD_CFG, R.TD_STAT]; omega)
  have hlim := hfield (R.TD_STEP_LIM d) (by simp only [R.TD_STEP_LIM_W, R.TD_STAT]; omega)
  have hen := hfield (R.TD_CFG_STEP_EN d) (by simp only [R.TD_CFG, R.TD_STAT]; omega)
  have hgrid := hfield R.TB_CTRL_GRID (by simp only [R.TB_CTRL_W, R.TD_STAT]; omega)
  have hsend := s.sending_set_TD_STAT d 3 3 0
  unfold State.ofsIn
  simp only [State.clr, State.on, State.carried, State.anySending, State.grid, State.set_fa, hsrc, hlim, hen, hgrid, hsend]
  refine ite_congr (propext ?_) (fun _ => rfl) fun _ => rfl
  unfold State.servoOwn State.grid
  cases s.tim.swTarget with
  | none => simp only [Option.isNone_none, Bool.true_or, Bool.and_true, Bool.not_true, Bool.or_false, decide_eq_true_eq,
      beq_eq_false_iff_ne]
  | some target => simp only [Option.isNone_some, Bool.false_or, Bool.or_eq_true, decide_eq_true_eq, Bool.not_eq_true',
      Bool.and_eq_false_iff, beq_eq_false_iff_ne]

end

/-! ## A write of SW with GO (R232) -/

/-- The residual of a switch-over is the difference of the phases, taken into half a turn either way. -/
theorem State.deltaPhase_spec (s : State) (t l : Nat) : -phaseMod ≤ 2 * s.deltaPhase t l ∧ 2 * s.deltaPhase t l < phaseMod ∧
    ∃ q : Int, s.deltaPhase t l = ((s.dom t).phase : Int) - (s.dom l).phase + q * phaseMod := by
  unfold State.deltaPhase
  generalize ((s.dom t).phase : Int) - (s.dom l).phase = δ
  have hmod : phaseMod = 256000000000000 * 4294967296 := rfl
  have hlo : 0 ≤ δ % phaseMod := Int.emod_nonneg δ (by decide)
  have hhi : δ % phaseMod < phaseMod := Int.emod_lt_of_pos δ (by decide)
  have hdiv : δ % phaseMod = δ - phaseMod * (δ / phaseMod) := Int.emod_def δ phaseMod
  extract_lets x
  split
  next h => exact ⟨by omega, by omega, -(δ / phaseMod), by rw [show x = _ from hdiv, Int.neg_mul, Int.mul_comm]; rfl⟩
  next h =>
    exact ⟨by omega, by omega, -(δ / phaseMod) - 1, by rw [show x = _ from hdiv, Int.sub_mul, Int.neg_mul, Int.mul_comm]; omega⟩

section
variable {s : State} {t : Nat}

/-- The grid domain, or a target named while a switch-over runs, starts nothing. -/
theorem State.switchStart_idle (h : ¬(t ≠ s.grid ∧ s.tim.swTarget = none)) :
    s.switchStart t = s.set R.TB_SW_TARGET t := by
  have hgrid : (s.set R.TB_SW_TARGET t).grid = s.grid := State.grid_set_ne _ _ _ (by decide)
  have hstays : (decide (t = s.grid) || s.tim.swTarget.isSome) = true := by
    rw [Bool.or_eq_true, decide_eq_true_eq, Option.isSome_iff_ne_none]
    by_cases hown : t = s.grid
    · exact .inl hown
    · exact .inr fun hidle => h ⟨hown, hidle⟩
  simp only [State.switchStart, hgrid, State.set_tim, hstays, if_true]

/-- The other domain is named and no switch-over runs: its distance decides (R232 steps 1 and 2). -/
theorem State.switchStart_go (hne : t ≠ s.grid) (hidle : s.tim.swTarget = none) : s.switchStart t =
    let u := s.set R.TB_SW_TARGET t
    if s.f R.TB_SW_MAXOFS < (dt (s.now t) (s.now s.grid)).natAbs then u.set R.TB_STAT_SWERR 1
    else
      let w := (u.set R.TB_STAT_SWBUSY 1).setDom s.grid { s.dom s.grid with resid := s.deltaPhase t s.grid }
      { w with tim := { w.tim with swTarget := some t } } := by
  have hgrid : (s.set R.TB_SW_TARGET t).grid = s.grid := State.grid_set_ne _ _ _ (by decide)
  have hbusy : ((s.set R.TB_SW_TARGET t).set R.TB_STAT_SWBUSY 1).grid = s.grid :=
    (State.grid_set_ne _ _ _ (by decide)).trans hgrid
  have hmax : (s.set R.TB_SW_TARGET t).f R.TB_SW_MAXOFS = s.f R.TB_SW_MAXOFS := State.f_set_ne _ _ _ (by decide)
  have hgoes : (decide (t = s.grid) || s.tim.swTarget.isSome) = false := by rw [decide_eq_false hne, hidle]; rfl
  simp only [State.switchStart, State.raise, State.modDom, hgrid, hbusy, hmax, State.set_tim, State.set_now, State.set_dom,
    State.set_deltaPhase, hgoes, Bool.false_eq_true, if_false, Int.ofNat_lt]

end

/-! ## HOLDOVER (R228) -/

section
variable {s : State} {d : Nat}

theorem State.holdover_begins (hsrc : s.f (R.TD_CFG_SRC d) = 1) (hoff : s.f (R.TD_STAT_HOLDOVER d) = 0) :
    Alike (s.set (R.TD_STAT_HOLDOVER d) 1) (s.holdover d) := by
  rw [State.holdover, hsrc, State.on_eq_false hoff]
  exact alike_report _ _ _ _ _

theorem State.holdover_stays (h : s.f (R.TD_CFG_SRC d) ≠ 1 ∨ s.f (R.TD_STAT_HOLDOVER d) = 1) : s.holdover d = s := by
  rw [State.holdover, if_neg]
  rw [Bool.and_eq_true, decide_eq_true_eq, Bool.not_eq_true', ← Bool.not_eq_true, State.on_iff rfl]
  omega

end

/-! ## The epoch (R231) -/

theorem State.epochWrite_eq (s : State) (d : Nat) (hi : BitVec 16) : s.epochWrite d hi.toNat =
    (s.set (R.TD_EPOCH_SEC_HI d) hi.toNat).setDom d { s.dom d with
      epochRef := s.f (R.TD_EPOCH_REF d), epochNs := s.f (R.TD_EPOCH_NS d),
      epochSec := s.f (R.TD_EPOCH_SEC_LO d) + 2 ^ 32 * hi.toNat } := by
  have hfield : ∀ x : Fld, x.addr ≠ R.TD_EPOCH_SEC_HI_W d → (s.set (R.TD_EPOCH_SEC_HI d) hi.toNat).f x = s.f x :=
    fun x hx => State.f_set_ne _ _ _ hx
  have href := hfield (R.TD_EPOCH_REF d) (by simp only [R.TD_EPOCH_REF_W, R.TD_EPOCH_SEC_HI_W]; omega)
  have hns := hfield (R.TD_EPOCH_NS d) (by simp only [R.TD_EPOCH_NS_W, R.TD_EPOCH_SEC_HI_W]; omega)
  have hlo := hfield (R.TD_EPOCH_SEC_LO d) (by simp only [R.TD_EPOCH_SEC_LO_W, R.TD_EPOCH_SEC_HI_W]; omega)
  rw [State.epochWrite]
  simp only [State.modDom, State.set_dom, href, hns, hlo, Nat.mod_eq_of_lt hi.isLt]

/-! ## The stamp FIFOs (R235, R240) -/

/-- The fields of RX_INFO and TX_INFO (R240). -/
def ptpInfoFields : List FSpec := [⟨31, 16, .ro, 0⟩, ⟨11, 8, .ro, 0⟩, ⟨7, 4, .ro, 0⟩, ⟨0, 0, .ro, 0⟩]

/-- The address of the INFO register of a FIFO. -/
def ptpInfoAddr (tx : Bool) (i : Nat) : Nat := if tx then R.PTP_TX_INFO i else R.PTP_RX_INFO i

theorem specOf_ptpInfoAddr (tx : Bool) (i : Fin 2) : specOf (ptpInfoAddr tx i) = some ptpInfoFields := by
  cases tx with
  | false => exact specOf_block (i := 9) (off := 0xC) rfl (by decide) rfl (by decide) i.isLt
  | true => exact specOf_block (i := 9) (off := 0x14) rfl (by decide) rfl (by decide) i.isLt

theorem State.timView_ptpInfoAddr (s : State) (tx : Bool) (i : Fin 2) :
    s.timView (ptpInfoAddr tx i) = some (ptpInfo (s.ptpFifo tx i)) := by
  match tx, i with
  | false, 0 => rfl
  | false, 1 => rfl
  | true, 0 => rfl
  | true, 1 => rfl

theorem State.timReadEffect_ptpInfoAddr (s : State) (tx : Bool) (i : Fin 2) :
    s.timReadEffect (ptpInfoAddr tx i) = s.ptpPop tx i := by
  match tx, i with
  | false, 0 => rfl
  | false, 1 => rfl
  | true, 0 => rfl
  | true, 1 => rfl

/-- No field of an INFO register clears when it is read. -/
theorem State.readEffect_ptpInfoAddr (s : State) (tx : Bool) (i : Fin 2) : s.readEffect (ptpInfoAddr tx i) = s := by
  have hmask : regMask (· == .rsk) (ptpInfoAddr tx i) = 0 := by rw [regMask, specOf_ptpInfoAddr]; rfl
  rw [State.readEffect, hmask]
  rfl

/-- A permitted read of an INFO register returns the word of the FIFO's head and removes it. -/
theorem State.cmdRead_ptpInfo {s : State} {who : Requester} (tx : Bool) (i : Fin 2)
    (h : PermitsRead s who (ptpInfoAddr tx i)) : s.cmdRead who (ptpInfoAddr tx i) 4 =
      (s.ptpPop tx i).answer (.data (plainRead ptpInfoFields (ptpInfo (s.ptpFifo tx i)))) := by
  have hrange : s.range (ptpInfoAddr tx i) = some .tb := by
    refine s.range_tb ?_ ?_ <;> (simp only [ptpInfoAddr, R.PTP_TX_INFO, R.PTP_RX_INFO]; split <;> omega)
  have hread : s.blockRead .tb (ptpInfoAddr tx i) = (plainRead ptpInfoFields (ptpInfo (s.ptpFifo tx i)), s.ptpPop tx i) := by
    have hview : s.regView .tb (ptpInfoAddr tx i) = ptpInfo (s.ptpFifo tx i) :=
      congrArg (·.getD (s.reg (ptpInfoAddr tx i))) (s.timView_ptpInfoAddr tx i)
    have hdone : s.readDoneAt .tb (ptpInfoAddr tx i) = s.ptpPop tx i :=
      (congrArg (·.timReadEffect (ptpInfoAddr tx i)) (s.readEffect_ptpInfoAddr tx i)).trans (s.timReadEffect_ptpInfoAddr tx i)
    rw [State.blockRead, specOf_ptpInfoAddr]
    simp only [hview, hdone]
  rw [State.cmdRead_ok h.block h.first hrange h.check, hread]

/-- The word of an INFO register lies within its fields. -/
theorem plainRead_ptpInfo {p : PtpStamp} (l : List PtpStamp) (hseq : p.seqId < 2 ^ 16) (hmsg : p.msgType < 16)
    (hfrac : p.frac < 16) :
    plainRead ptpInfoFields (ptpInfo (p :: l)) = p.seqId * 2 ^ 16 + p.msgType * 256 + p.frac * 16 + 1 := by
  have hword : ptpInfo (p :: l) = 2 ^ 16 * p.seqId + (2 ^ 8 * p.msgType + (2 ^ 4 * p.frac + 1)) := by
    rw [ptpInfo]; omega
  have hmask : accMask (· != .wo) ptpInfoFields = 2 ^ 16 * (2 ^ 16 - 1) + (2 ^ 8 * (2 ^ 4 - 1) + (2 ^ 4 * (2 ^ 4 - 1) + 1)) := rfl
  rw [plainRead, hword, hmask, two_pow_mul_add_and _ _ (by omega) (by decide), two_pow_mul_add_and _ _ (by omega) (by decide),
    two_pow_mul_add_and _ _ (by decide) (by decide), Nat.and_two_pow_sub_one_of_lt_two_pow hseq,
    Nat.and_two_pow_sub_one_of_lt_two_pow hmsg, Nat.and_two_pow_sub_one_of_lt_two_pow hfrac, Nat.and_self]
  omega

/-! ## The commands -/

section
variable (who : Requester) (d : Fin 2) (s : State)

theorem exec_ofsInWrite (v : Word) : exec (.ofsInWrite who d v) s = .next (s.cmdWrite who (R.TD_OFS_IN_W d) 4 v.toNat) := rfl
theorem exec_rateWrite (v : Word) : exec (.rateWrite who d v) s = .next (s.cmdWrite who (R.TD_RATE_W d) 4 v.toNat) := rfl
theorem exec_holdover : exec (.holdover d) s = .next (s.holdover d) := rfl
theorem exec_switchOverStart : exec (.switchOverStart who d) s = .next (s.cmdWrite who R.TB_SW 4 (2 ^ 31 + d)) := rfl
theorem exec_timeSnap : exec (.timeSnap who) s = .next (s.cmdWrite who R.TB_SNAP_W 4 1) := rfl
theorem exec_epochWrite (hi : BitVec 16) : exec (.epochWrite who d hi) s =
    .next (s.cmdWrite who (R.TD_EPOCH_SEC_HI_W d) 4 hi.toNat) := rfl
theorem exec_ptpFifoRead (tx : Bool) : exec (.ptpFifoRead who d tx) s = .next (s.cmdRead who (ptpInfoAddr tx d) 4) := rfl

end

section
variable {who : Requester} {d : Fin 2} {s : State}

theorem exec_ofsInWrite_ok {v : Word} (h : Permits s who (R.TD_OFS_IN_W d) v.toNat) :
    exec (.ofsInWrite who d v) s = .next ((s.ofsIn d v.toInt).answer .ok) := by
  rw [exec_ofsInWrite, State.cmdWrite_tb h (by unfold R.TD_OFS_IN_W; omega) (by unfold R.TD_OFS_IN_W; omega),
    State.tbWrite_TD_OFS_IN, i32_toNat]

theorem exec_switchOverStart_ok (h : Permits s who R.TB_SW (2 ^ 31 + d.val)) :
    exec (.switchOverStart who d) s = .next ((s.switchStart d).answer .ok) := by
  rw [exec_switchOverStart, State.cmdWrite_tb h (by decide) (by decide), State.tbWrite_TB_SW]

theorem exec_ptpFifoRead_ok {tx : Bool} (h : PermitsRead s who (ptpInfoAddr tx d)) : exec (.ptpFifoRead who d tx) s =
    .next ((s.ptpPop tx d).answer (.data (plainRead ptpInfoFields (ptpInfo (s.ptpFifo tx d))))) := by
  rw [exec_ptpFifoRead, State.cmdRead_ptpInfo tx d h]

end

/-- Settles O42: each command is the operation above that it runs, and the clauses are the branches of that operation's equation. -/
theorem timeBaseWrites : Obligations.TimeBaseWrites := by
  unfold Obligations.TimeBaseWrites
  intro s who d hcanon c modulus
  refine ⟨fun v hp => ?_, fun v hp => ?_, fun hsrc hoff => ?_, fun hstay => ?_, fun hp => ?_, fun hp => ?_, fun hi hp => ?_,
    fun tx hp => ⟨fun p l hq hseq hmsg hfrac => ?_, fun hq => ?_⟩⟩
  · intro i own u big slews
    rw [exec_ofsInWrite_ok hp, State.ofsIn_eq]
    refine ⟨fun hown => ?_, fun hown hbig => ?_, fun hown hbig hsilent => ?_, fun hown hbig hsends => ?_⟩
    · rw [Bool.eq_false_iff.2 fun e => hown (State.servoOwn_iff.1 e)]
      rfl
    · rw [State.servoOwn_iff.2 hown, Bool.eq_false_iff.2 fun e => hbig (State.wantsStep_iff.1 e)]
      rfl
    · rw [State.servoOwn_iff.2 hown, State.wantsStep_iff.2 hbig, State.mayStep_of_silent hsilent]
      rfl
    · rw [State.servoOwn_iff.2 hown, State.wantsStep_iff.2 hbig, State.not_mayStep_of_carried hsends]
      rfl
  · rw [exec_rateWrite, State.cmdWrite_tb hp (by unfold R.TD_RATE_W; omega) (by unfold R.TD_RATE_W; omega),
      State.tbWrite_TD_RATE, i32_toNat, State.rateWrite, u32_eq_toNat_ofInt]
  · exact ⟨_, exec_holdover d s, State.holdover_begins hsrc hoff⟩
  · rw [exec_holdover, State.holdover_stays hstay]
  · intro u away go
    rw [exec_switchOverStart_ok hp]
    refine ⟨fun hstay => ?_, fun ⟨hne, hidle⟩ hfar => ?_, fun ⟨hne, hidle⟩ hnear => ?_⟩
    · rw [State.switchStart_idle hstay]
    · rw [State.switchStart_go hne hidle, dt_eq_toInt, if_pos hfar]
    · obtain ⟨hlo, hhi, hturns⟩ := s.deltaPhase_spec d s.grid
      refine ⟨_, hlo, hhi, hturns, ?_⟩
      rw [State.switchStart_go hne hidle, dt_eq_toInt, if_neg (Nat.not_lt.2 hnear)]
  · rw [exec_timeSnap, State.cmdWrite_tb hp (by decide) (by decide), State.tbWrite_TB_SNAP]
  · rw [exec_epochWrite, State.cmdWrite_tb hp (by unfold R.TD_EPOCH_SEC_HI_W; omega) (by unfold R.TD_EPOCH_SEC_HI_W; omega),
      State.tbWrite_TD_EPOCH_SEC_HI, State.epochWrite_eq]
  · rw [exec_ptpFifoRead_ok hp, State.ptpPop, hq, plainRead_ptpInfo l hseq hmsg hfrac]
    rfl
  · rw [exec_ptpFifoRead_ok hp, State.ptpPop, hq]
    rfl

end Sys2Proof.Machine
